-- ==== Sys2Proof/Word.lean ====
section
/-! DEFINITION. The word types of the model and their plainest arithmetic (00_scope.md R2, R3). -/
namespace Sys2Proof

/-- A byte. -/
abbrev Byte := BitVec 8
/-- A CSR word; also one FP32 lane. -/
abbrev Word := BitVec 32
/-- 256 bytes seen as 64 FP32 lanes: a vector register or an accumulator entry (02_the_hob.md). -/
abbrev Lanes := Vector Word 64
/-- A string of bytes, lowest address first (R3). -/
abbrev Bytes := List Byte
/-- A sparse map from numbers: the keys listed rise strictly and no listed value is the default. -/
abbrev SMap (α : Type) := List (Nat × α)

/-- `n` low bits of `x` from bit `lo`. -/
def field (x lo n : Nat) : Nat := (x >>> lo) % 2 ^ n
/-- Two's complement reading of an `n`-bit number. -/
def signed (n x : Nat) : Int := if x % 2 ^ n < 2 ^ (n - 1) then ((x % 2 ^ n : Nat) : Int) else ((x % 2 ^ n : Nat) : Int) - (2 ^ n : Nat)
/-- Smallest number not below `a / b`. -/
def ceilDiv (a b : Nat) : Nat := (a + b - 1) / b
/-- `k` bytes of `x`, lowest first. -/
def toBytes : Nat → Nat → Bytes
  | 0, _ => []
  | k + 1, x => BitVec.ofNat 8 x :: toBytes k (x / 256)
/-- The number spelled by bytes, lowest first. -/
def ofBytes : Bytes → Nat
  | [] => 0
  | b :: r => b.toNat + 256 * ofBytes r
/-- `k` bytes of `x`, highest first (Beyfatre and Ethernet headers, R4). -/
def toBytesBE (k x : Nat) : Bytes := (toBytes k x).reverse
/-- The number spelled by bytes, highest first. -/
def ofBytesBE (b : Bytes) : Nat := ofBytes b.reverse
/-- The little-endian number in the `n` bytes at offset `o`. -/
def le (b : Bytes) (o n : Nat) : Nat := ofBytes ((b.drop o).take n)
/-- Exactly `n` bytes: cut, or filled with zero bytes. -/
def fit (n : Nat) (b : Bytes) : Bytes := b.take n ++ List.replicate (n - b.length) 0

end Sys2Proof
end

