-- ==== Sys2Proof/Syntax.lean ====
section
/-! DEFINITION. The commands of the part: one constructor for each row of spec/opcode_table.json. -/
namespace Sys2Proof

/-- The path of an access to CSR space (Table 16.2). -/
inductive CsrPath | mover | fenxia | jtag
  deriving DecidableEq, Repr
/-- Who makes an access to CSR space: its path, and the chip and tenant that a mover or a Fenxia access carries. -/
structure CsrAccess where
  path : CsrPath
  chip : Nat
  tenant : Nat
  deriving DecidableEq, Repr

/-- What a gate has received when training is judged (Tables 9.4 and 9.5): the last training frame on each physical lane, its polarity
corrected (none: no bytes); the logical lanes on which its receiver holds lock and adaptation; and the logical lanes of inverted polarity. -/
structure TrainResult where
  frames : List Bytes
  good : BitVec 8
  polarity : BitVec 8
  deriving DecidableEq, Repr

/-- What the FEC has found since the last report (Table 9.14): codewords corrected and uncorrectable, symbol corrections on each logical
lane, and whether a flit of the item received lay in an uncorrectable codeword. -/
structure FecReport where
  corrected : Nat
  uncorrectable : Nat
  lanes : List Nat
  hit : Bool
  deriving DecidableEq, Repr

/-- Where and how an item of the link came in: the number of its slot, counted from the entry to UP (R270), and what the FEC has found up to its end. -/
structure LinkItem where
  slot : Nat
  fec : FecReport
  deriving DecidableEq, Repr

/-- How a rail's regulator answers the service core on PMBus (R543): with its output on or off in STATUS_WORD, or not at all, when its
device does not acknowledge its address (R403). -/
inductive RailAnswer where
  | on
  | off
  | nak
  deriving DecidableEq, Repr

/-- What the part measures at a seam, at a stop or at the exit from SIMMER: temperatures of the quarters and of the mantel in °C
(R404), and for each quarter the residual skew of its bridge and station crossings in steps (R380). -/
structure SeamEnv where
  tq : List (Nat × Int)
  tm : Int
  bridge : List (Nat × Int)
  station : List (Nat × Int)
  deriving DecidableEq, Repr

/-- The flash as the service core finds it (R428): what its SFDP tables give, and its bytes by offset; a byte not listed reads 0xFF. -/
structure Flash where
  sfdp : Bool
  quad : Bool
  addr4 : Bool
  /-- log2 of the density in bits -/
  size : Nat
  parts : List (Nat × List (BitVec 8))
  deriving DecidableEq, Repr

/-- What bring-up finds on the board (14_boot_and_configuration.md R440): the flash; the references present (bit 0 REFCLK_A); the
trims that calibration arrives at, bridge and station of each quarter; the devices of the regulator map that do not acknowledge their
address; whether the regulator acknowledges V_C at step 5, or refuses its write three times in succession, and the voltage then read back in mV; and the
HBM channels that fail training. -/
structure BootEnv where
  flash : Flash
  refs : BitVec 2
  trims : List (Fin 64 × Fin 64)
  naks : List Nat
  avsOk : Bool
  avsNak : Bool := false
  avsMv : Nat
  failing : BitVec 16
  deriving DecidableEq, Repr

/-- What a debugger does through the data register of DEBUG (R486): selects it; halts, steps or releases the service core; reads or writes one
word of CSR space, or bytes of the local address space. -/
inductive DebugOp
  | select | halt | step | release
  | readWord (a : BitVec 40)
  | writeWord (a : BitVec 40) (v : Word)
  | readLocal (a : BitVec 40) (n : Nat)
  | writeLocal (a : BitVec 40) (b : Bytes)
  deriving DecidableEq, Repr

/-- The commands: one constructor for each row of spec/opcode_table.json, in its order, with the rule that the row names. `h` is a hob, `q` a
quarter, `t` a cycle of the quarter's beat, `l` a link, `v` its virtual channel, `n` the number of its slot (R270), `i` an Ethernet interface, `a` an address. -/
inductive Instr
  /-- CSR_WRITE (R498). A write reaches a register that has no row of its own; an RO field changes nothing and the write completes without error. -/
  | csrWrite (acc : CsrAccess) (a : BitVec 40) (v : Word)
  /-- INT_CLASS_CLEAR (R505). A W1C write to INT_CLASS clears each bit written 1; a set in the same cycle wins. -/
  | intClassClear (acc : CsrAccess) (v same : Word)
  /-- INT_SOURCE_CLEAR (R505). A W1C write to INT_SOURCE clears each bit written 1; a set in the same cycle wins. -/
  | intSourceClear (acc : CsrAccess) (v same : Word)
  /-- COM_TAG_WRITE (R509). A write to the RWL field COM_TAG sets and locks it when unlocked, and changes nothing otherwise. -/
  | comTagWrite (acc : CsrAccess) (v : Word)
  /-- OTP_WRITE (R14). A CSR write to an OTP ledger field changes nothing, completes without error and is logged. -/
  | otpWrite (acc : CsrAccess) (a : BitVec 40) (v : Word)
  /-- LOG_CURSOR_WRITE (R507). A write to LOG_CURSOR captures the event-log entry with that SEQ into LOG_SNAP and sets RESULT. -/
  | logCursorWrite (acc : CsrAccess) (v : Word)
  /-- STEP (R51). An M-slot STEP feeds one activation through the active plane and accumulates or overwrites one accumulator entry. -/
  | step (h : Fin 32) (t : Nat)
  /-- SWAP (R48). An M-slot SWAP exchanges the active and shadow weight planes with their format tags. -/
  | swap (h : Fin 32) (t : Nat)
  /-- ASLV (R112). An M-slot ASLV loads the activation scale line from 64 bytes of a vector register. -/
  | aslv (h : Fin 32) (t : Nat)
  /-- READOUT (R53). An M-slot READOUT copies one accumulator entry into a vector register. -/
  | readout (h : Fin 32) (t : Nat)
  /-- ZERO (R53). An M-slot ZERO sets one accumulator entry to +0 in every column. -/
  | zero (h : Fin 32) (t : Nat)
  /-- APSET (R110). An M-slot APSET sets the accumulator entry pointer and its wrap. -/
  | apset (h : Fin 32) (t : Nat)
  /-- PLANE_LOAD (R47). The M-slot plane-load subfield writes one shadow-plane word from a wide access of generator W. -/
  | planeLoad (h : Fin 32) (t : Nat)
  /-- ASLD (R115). The M-slot ASLD bit loads the activation scale line from the L1 data path. -/
  | asld (h : Fin 32) (t : Nat)
  /-- SLOT_LOAD (R60). An L0 or L1 LOAD reads 1, 2 or 4 SRAM lines into the data path and a vector register. -/
  | slotLoad (h : Fin 32) (t : Nat) (l : Fin 2)
  /-- SLOT_PEEK (R60). An L0 or L1 PEEK reads SRAM lines into the slot's data path only. -/
  | slotPeek (h : Fin 32) (t : Nat) (l : Fin 2)
  /-- SLOT_STORE (R60). An S-slot STORE writes lines of a vector register into SRAM at generator S. -/
  | slotStore (h : Fin 32) (t : Nat)
  /-- ADD (R54). V-slot ADD writes a + b per lane. -/
  | add (h : Fin 32) (t : Nat)
  /-- MUL (R54). V-slot MUL writes a × b per lane. -/
  | mul (h : Fin 32) (t : Nat)
  /-- FMA (R54). V-slot FMA writes a × b + c with one rounding per lane. -/
  | fma (h : Fin 32) (t : Nat)
  /-- MIN (R54). V-slot MIN writes the smaller of a and b per lane. -/
  | min (h : Fin 32) (t : Nat)
  /-- MAX (R54). V-slot MAX writes the larger of a and b per lane. -/
  | max (h : Fin 32) (t : Nat)
  /-- CMP_EQ (R54). V-slot CMP.EQ writes an all-ones mask where a equals b. -/
  | cmpEq (h : Fin 32) (t : Nat)
  /-- CMP_NE (R54). V-slot CMP.NE writes an all-ones mask where a differs from b. -/
  | cmpNe (h : Fin 32) (t : Nat)
  /-- CMP_LT (R54). V-slot CMP.LT writes an all-ones mask where a is less than b. -/
  | cmpLt (h : Fin 32) (t : Nat)
  /-- CMP_LE (R54). V-slot CMP.LE writes an all-ones mask where a is at most b. -/
  | cmpLe (h : Fin 32) (t : Nat)
  /-- SEL (R54). V-slot SEL copies a or b bit for bit per lane by mask bit 31. -/
  | sel (h : Fin 32) (t : Nat)
  /-- EXP2 (R55). V-slot EXP2 writes the correctly rounded 2^a per lane. -/
  | exp2 (h : Fin 32) (t : Nat)
  /-- LOG2 (R55). V-slot LOG2 writes the correctly rounded log2 a per lane. -/
  | log2 (h : Fin 32) (t : Nat)
  /-- RSQRT (R55). V-slot RSQRT writes the correctly rounded 1/sqrt(a) per lane. -/
  | rsqrt (h : Fin 32) (t : Nat)
  /-- RCP (R55). V-slot RCP writes the correctly rounded 1/a per lane. -/
  | rcp (h : Fin 32) (t : Nat)
  /-- RSUM (R56). V-slot RSUM sums all 64 lanes in six levels and writes the result to every lane. -/
  | rsum (h : Fin 32) (t : Nat)
  /-- RMAX (R56). V-slot RMAX reduces all lanes by MAX and writes the result to every lane. -/
  | rmax (h : Fin 32) (t : Nat)
  /-- RMIN (R56). V-slot RMIN reduces all lanes by MIN and writes the result to every lane. -/
  | rmin (h : Fin 32) (t : Nat)
  /-- CVT_TO (R57). V-slot CVT.TO packs FP32 lanes into a narrower format at position POS. -/
  | cvtTo (h : Fin 32) (t : Nat)
  /-- CVT_FROM (R59). V-slot CVT.FROM unpacks a narrow format at position POS into FP32 lanes. -/
  | cvtFrom (h : Fin 32) (t : Nat)
  /-- MOV (R54). V-slot MOV copies register a bit for bit. -/
  | mov (h : Fin 32) (t : Nat)
  /-- IN_TO_SRAM (R65). A T-slot in-tap writes the loop slot's 256 bytes to four SRAM lines at generator S. -/
  | inToSram (h : Fin 32) (t : Nat) (tap : Fin 2)
  /-- IN_TO_PLANE (R65). A T-slot in-tap writes the loop slot's 256 bytes to one shadow-plane word. -/
  | inToPlane (h : Fin 32) (t : Nat) (tap : Fin 2)
  /-- IN_TO_VREG (R65). A T-slot in-tap writes the loop slot's 256 bytes to one vector register. -/
  | inToVreg (h : Fin 32) (t : Nat) (tap : Fin 2)
  /-- OUT_FROM_SRAM (R73). A T-slot out-tap writes four SRAM lines at generator L1 into the loop slot, making it live. -/
  | outFromSram (h : Fin 32) (t : Nat) (tap : Fin 2)
  /-- OUT_FROM_VREG (R73). A T-slot out-tap writes a vector register into the loop slot, making it live. -/
  | outFromVreg (h : Fin 32) (t : Nat) (tap : Fin 2)
  /-- CXT (R121). C-slot CXT loads the prefix register CX. -/
  | cxt (h : Fin 32) (t : Nat)
  /-- HREL_SET (R85). C-slot HREL_SET sets each hob's HREL to A + i × B. -/
  | hrelSet (h : Fin 32) (t : Nat)
  /-- GSET (R122). C-slot GSET writes one address-generator register. -/
  | gset (h : Fin 32) (t : Nat)
  /-- GRST (R113). C-slot GRST returns a generator's indices to zero. -/
  | grst (h : Fin 32) (t : Nat)
  /-- GAP_START (R68). At the first cycle of a gap without steps, the hob treats the gap by its mark as ember or damper work. -/
  | gapStart (h : Fin 32) (t : Nat)
  /-- GROUP (R244). An H-slot GROUP passes a command-group template to the HBM station, which judges and commits it or skips it whole. -/
  | group (q : Fin 4) (t : Nat) (ecc : List Nat)
  /-- LOUT (R246). An H-slot LOUT places a landing slot into the loop slot at station 5, or is skipped before its bound. -/
  | lout (q : Fin 4) (t : Nat)
  /-- WIN (R247). An H-slot WIN writes the loop slot at station 5 into a write-buffer slot. -/
  | win (q : Fin 4) (t : Nat)
  /-- SEND (R104). A G-slot SEND sends the program slot at a gate as a four-flit Fenxia packet through a send template. -/
  | send (q : Fin 4) (t : Nat)
  /-- MOVE (R99). A G-slot MOVE enqueues a 64-byte descriptor from program memory on a mover. -/
  | move (q : Fin 4) (t : Nat)
  /-- QX (R129). Q-slot QX loads the prefix register QX. -/
  | qx (q : Fin 4) (t : Nat)
  /-- CSET (R136). Q-slot CSET sets a static counter. -/
  | cset (q : Fin 4) (t : Nat)
  /-- LOOP (R136). Q-slot LOOP pushes a loop frame or skips its body when the counter is zero. -/
  | loop (q : Fin 4) (t : Nat)
  /-- DJNZ (R136). Q-slot DJNZ decrements a non-zero counter and branches when the result is non-zero. -/
  | djnz (q : Fin 4) (t : Nat)
  /-- JMP (R136). Q-slot JMP branches to its target within the extent. -/
  | jmp (q : Fin 4) (t : Nat)
  /-- FLAG (R131). Q-slot FLAG adds 1 or QX to a flag at offset 16. -/
  | flag (q : Fin 4) (t : Nat)
  /-- LOCAL (R86). Q-slot LOCAL opens a local window in which each hob runs its local store for n cycles. -/
  | localRun (q : Fin 4) (t : Nat)
  /-- LOCAL_WINDOW_END (R146). When the local count expires, hobs discard local frames and return to broadcast mode. -/
  | localWindowEnd (q : Fin 4) (t : Nat)
  /-- BEND (R132). Q-slot BEND is the last bundle of the run; the run ends after its last effects. -/
  | bend (q : Fin 4) (t : Nat)
  /-- WAIT (R136). Q-slot WAIT issues no bundle for n cycles. -/
  | wait (q : Fin 4) (t : Nat)
  /-- WAIT_END (R136). When a WAIT count expires, the sequencer issues the next bundle. -/
  | waitEnd (q : Fin 4) (t : Nat)
  /-- OVERRUN (R140). At cycle BEAT_LEN − 1,041 without BEND, the sequencer forces BEND and logs OVERRUN. -/
  | overrun (q : Fin 4) (t : Nat)
  /-- LCSET (R133). Local-field LCSET sets a local counter. -/
  | lcset (h : Fin 32) (t : Nat)
  /-- LLOOP (R144). Local-field LLOOP pushes a local loop frame. -/
  | lloop (h : Fin 32) (t : Nat)
  /-- LDJNZ (R144). Local-field LDJNZ decrements a local counter and branches. -/
  | ldjnz (h : Fin 32) (t : Nat)
  /-- LJMP (R144). Local-field LJMP branches the local program counter. -/
  | ljmp (h : Fin 32) (t : Nat)
  /-- LOOP_SLOT_EXPIRE (R73). A live loop slot becomes empty when it returns to its writer's station 16 cycles after the write. -/
  | loopSlotExpire (q : Fin 4) (t : Nat) (loop : Fin 2) (slot : Fin 16)
  /-- MOVER_SLOT_FILL (R81). A station holding a pending load fills an empty mover slot on the shorter loop. -/
  | moverSlotFill (q : Fin 4) (t : Nat) (st : Fin 16)
  /-- MOVER_LOAD_ARRIVAL (R82). A destination station with buffer space takes a load from its mover slot. -/
  | moverLoadArrival (q : Fin 4) (t : Nat) (st : Fin 16) (loop : Fin 2)
  /-- MOVER_BUFFER_ACCESS (R42). A hob performs a buffered mover read or write in a bank cycle no scheduled access uses. -/
  | moverBufferAccess (h : Fin 32) (t : Nat)
  /-- SPINE_DELIVERY (R102). The spine delivers a load to a stop in round-robin order when the bridge has room. -/
  | spineDelivery (src dst : Fin 5)
  /-- MOVER_OP_ISSUE (R94). A mover issues the next operation of a descriptor, up to 128 in flight. -/
  | moverOpIssue (q : Fin 4) (m : Fin 8) (k : Nat)
  /-- DESCRIPTOR_COMPLETE (R95). When every write is acknowledged and earlier descriptors are done, the mover performs success or error actions. -/
  | descriptorComplete (q : Fin 4) (m : Fin 8)
  /-- CHAIN_FETCH_DONE (R98). The read of a chained descriptor at NEXT completes, and it executes or completes with DESC_ILLEGAL. -/
  | chainFetchDone (q : Fin 4) (m : Fin 8)
  /-- MOVER_TIMEOUT (R96). An operation without acknowledgement within MOVER_TIMEOUT fails. -/
  | moverTimeout (q : Fin 4) (m : Fin 8) (op : Option Nat)
  /-- SEAM_START (R160). At cycle S a range's seam begins and runs its fixed timeline of selection, loads and stops. -/
  | seamStart (mask : BitVec 4) (v : SeamEnv)
  /-- QUARTER_RESUME (R382). After PLL lock, trims and sink envelopes, the quarter clock restarts at cycle 0. -/
  | quarterResume (q : Fin 4) (bridge station : Fin 64)
  /-- STK_BEAT_TICK (R159). The part beat count increments, driving per-beat judgements. -/
  | stkBeatTick
  /-- ADMISSION (R181). The stoker judges a LOAD's program against the checks of Table 6.5 in order. -/
  | admission
  /-- ENTRY_RESIDENT (R163). When the bundles are resident in every range, the entry leaves LOADING for ARMED or IDLE. -/
  | entryResident (e : Fin 1024)
  /-- ENTRY_RELEASE (R167). A removed entry that neither runs nor claims releases its memory and becomes EMPTY. -/
  | entryRelease (e : Fin 1024)
  /-- EPOCH_OPEN (R189). The leader opens a report epoch and sends POLL to every member. -/
  | epochOpen
  /-- STALL (R188). The leader receives a STALL message from a member in local stall. -/
  | stall (l : Fin 20) (v : Fin 8)
  /-- POLL (R189). A member receives POLL and answers at once with its state and RID. -/
  | poll (l : Fin 20) (v : Fin 8)
  /-- ANSWER (R189). The leader receives an ANSWER, and closes the epoch when all members have answered. -/
  | answer (l : Fin 20) (v : Fin 8)
  /-- DEADLOCK (R190). A member receives DEADLOCK and applies DL_POLICY. -/
  | deadlock (l : Fin 20) (v : Fin 8)
  /-- FLAGINC (R201). A remote flag increment arrives and is applied or refused with OWNER. -/
  | flaginc (l : Fin 20) (v : Fin 8)
  /-- MSG (R556). A channel message packet arrives and is admitted, placed or refused. -/
  | msg (l : Fin 20) (v : Fin 8)
  /-- MESSAGE_PLACED (R207). A message is fully in the ring; WP and NOTIFY advance in order. -/
  | messagePlaced (c : Fin 65536)
  /-- MESSAGE_ABANDON (R208). A message still missing a packet 10 ms after admission is zero-filled and treated as placed. -/
  | messageAbandon (c : Fin 65536) (slot : Nat)
  /-- CONTRIB (R220). A chimney contribution packet arrives and its lines are accepted or refused. -/
  | contrib (l : Fin 20) (v : Fin 8)
  /-- CONTRIBUTION_WRITE (R218). A write to the contribution window delivers lines to chimney contributors. -/
  | contributionWrite
  /-- ROUND_SUM (R223). A complete round with a free ring slot is summed and written to the ring. -/
  | roundSum (k : Fin 4096)
  /-- ROUND_COMPLETE (R225). A round whose sum is written completes in order, advancing WP and NOTIFY. -/
  | roundComplete (k : Fin 4096)
  /-- HBM_MOVER_ACCESS (R249). The station's mover engine performs a queued mover access inside a mover window or free time. -/
  | hbmMoverAccess (q : Fin 4) (p : Fin 8) (t : Nat) (ecc : List Nat)
  /-- REFRESH_TICK (R254). The station's refresh timer increments a pseudo-channel's refresh debt. -/
  | refreshTick (q : Fin 4) (p : Fin 8) (k : Nat)
  /-- HBM_TEMP_READ (R258). Every 1 ms the service core reads the stack temperature. -/
  | hbmTempRead (q : Fin 4) (temp : Int)
  /-- STAGING_CONFIRM (R252). A staging request CONFIRM makes a full block CONFIRMED and raises a flag, or empties it. -/
  | stagingConfirm
  /-- STAGING_RELEASE (R252). A staging request RELEASE empties a block. -/
  | stagingRelease
  /-- TRAIN_START (R272). An enabled link leaves DOWN for TRAIN 10 ms after entering DOWN. -/
  | trainStart (l : Fin 20)
  /-- TRAIN_COMPLETE (R274). Both ends reach step 7 of training and the link enters UP. -/
  | trainComplete (l : Fin 20) (r : TrainResult)
  /-- TRAIN_TIMEOUT (R274). A link not UP within 100 ms returns to DOWN and logs LINK_TRAIN_FAIL. -/
  | trainTimeout (l : Fin 20)
  /-- CONTROL_FLIT (R290). A counted control flit frees replay entries, acts on a NAK, and updates credits and state. -/
  | controlFlit (l : Fin 20) (b : Bytes) (item : LinkItem)
  /-- HEADER_CRC_FAIL (R289). A header with a bad HCRC is discarded and the receiver becomes NAK-pending. -/
  | headerCrcFail (l : Fin 20) (b : Bytes) (item : LinkItem)
  /-- PACKET_TRANSMIT (R298). In a data slot the gate starts a replay, a VC packet within credit, or IDLE. -/
  | packetTransmit (l : Fin 20)
  /-- REPLAY_TIMEOUT (R291). With no ACK advance for 2 µs, the sender replays every held packet. -/
  | replayTimeout (l : Fin 20)
  /-- SILENCE (R287). 1,024 control slots without a counted control flit break the link. -/
  | silence (l : Fin 20)
  /-- CREDIT_TIMEOUT (R299). A VC starved for CREDIT_TIMEOUT breaks the link. -/
  | creditTimeout (l : Fin 20) (v : Fin 8)
  /-- BROKEN_IDLE_END (R303). After 1 ms of electrical idle a broken link enters TRAIN or DOWN. -/
  | brokenIdleEnd (l : Fin 20)
  /-- LANE_FAILURE (R280). A receiver judges a lane failed and advertises NARROW or breaks the link. -/
  | laneFailure (l : Fin 20) (m : Fin 8)
  /-- DRAIN_TIMEOUT (R281). DRAIN_TIMEOUT passes; held packets are declared lost and the link enters DOWN. -/
  | drainTimeout (l : Fin 20)
  /-- WRITE (R300). A WRITE packet reaches its destination and is placed or refused, with a RESP. -/
  | write (l : Fin 20) (v : Fin 8)
  /-- READ (R300). A READ packet reaches its destination and is answered with data or refusal. -/
  | read (l : Fin 20) (v : Fin 8)
  /-- RESP (R301). A RESP reaches its source unit and completes or fails the operation. -/
  | resp (l : Fin 20) (v : Fin 8)
  /-- DWRITE (R294). A datagram write is placed in a staging block or dropped. -/
  | dwrite (l : Fin 20) (v : Fin 8)
  /-- DFETCH (R294). A datagram fetch is served by reading HBM and sending DWRITEs back. -/
  | dfetch (l : Fin 20) (v : Fin 8)
  /-- DMSG (R294). A datagram message is judged at its channel and admitted or dropped. -/
  | dmsg (l : Fin 20) (v : Fin 8)
  /-- TRANSIT (R316). A packet for another chip is routed to an exit queue when room exists. -/
  | transit (l : Fin 20) (v : Fin 8)
  /-- DATAGRAM_TRANSIT_TIMEOUT (R319). A VC5 transit packet waiting 2 µs for room is discarded. -/
  | datagramTransitTimeout (l : Fin 20)
  /-- PING (R328). An MGMT PING is answered with PONG. -/
  | ping (l : Fin 20) (v : Fin 8)
  /-- PONG (R328). An MGMT PONG is recorded by the service core. -/
  | pong (l : Fin 20) (v : Fin 8)
  /-- MGMT_LINK_DISABLE (R328). An MGMT LINK_DISABLE is judged and answered with RESULT. -/
  | mgmtLinkDisable (l : Fin 20) (v : Fin 8)
  /-- MGMT_LINK_ENABLE (R328). An MGMT LINK_ENABLE is judged and answered with RESULT. -/
  | mgmtLinkEnable (l : Fin 20) (v : Fin 8)
  /-- RESULT (R328). An MGMT RESULT is recorded by the service core. -/
  | result (l : Fin 20) (v : Fin 8)
  /-- BF_SEND (R348). A Beyfatre SEND packet is matched against receives or enters the unexpected pool. -/
  | bfSend (i : Fin 4) (frame : Bytes) (fcsOk : Bool)
  /-- BF_PUT (R352). A Beyfatre PUT packet is placed in the keyed region. -/
  | bfPut (i : Fin 4) (frame : Bytes) (fcsOk : Bool)
  /-- BF_GET (R353). A Beyfatre GET is answered with GETRSP packets. -/
  | bfGet (i : Fin 4) (frame : Bytes) (fcsOk : Bool)
  /-- GETRSP (R353). A GETRSP is placed in order at the requester. -/
  | getrsp (i : Fin 4) (frame : Bytes) (fcsOk : Bool)
  /-- BF_FLUSH (R354). A FLUSH is acknowledged after earlier PUTs are placed. -/
  | bfFlush (i : Fin 4) (frame : Bytes) (fcsOk : Bool)
  /-- BF_CHPOST (R355). A CHPOST delivers a message or contribution and is answered with its outcome. -/
  | bfChpost (i : Fin 4) (frame : Bytes) (fcsOk : Bool)
  /-- ACK (R557). A Beyfatre ACK or NAK frees PSNs, triggers resends or ends operations. -/
  | ack (i : Fin 4) (frame : Bytes) (fcsOk : Bool)
  /-- CONNECT (R343). A listening queue pair binds its peer on CONNECT and answers ACCEPT. -/
  | connect (i : Fin 4) (frame : Bytes) (fcsOk : Bool)
  /-- ACCEPT (R343). A connecting queue pair receives ACCEPT and becomes READY. -/
  | accept (i : Fin 4) (frame : Bytes) (fcsOk : Bool)
  /-- POST_WORK_REQUEST (R346). A write to the posting window posts a work request to the send queue. -/
  | postWorkRequest
  /-- POST_RECEIVE (R348). A write to the posting window posts a receive, matched first against the pool. -/
  | postReceive
  /-- POST_TRIGGERED (R363). A write to the posting window holds a triggered work request. -/
  | postTriggered
  /-- WR_SEND (R347). The engine takes a SEND work request and sends its packets. -/
  | wrSend (q : Fin 16384)
  /-- WR_PUT (R347). The engine takes a PUT work request and sends its packets. -/
  | wrPut (q : Fin 16384)
  /-- WR_GET (R353). The engine takes a GET work request and sends the GET. -/
  | wrGet (q : Fin 16384)
  /-- WR_FLUSH (R354). The engine takes a FLUSH work request. -/
  | wrFlush (q : Fin 16384)
  /-- WR_CHPOST (R355). The engine takes a CHPOST work request. -/
  | wrChpost (q : Fin 16384)
  /-- PREFETCH (R356). A PREFETCH sends one DFETCH on VC5 into a staging area. -/
  | prefetch (q : Fin 16384)
  /-- REVOKE (R357). A REVOKE starts revocation of a region. -/
  | revoke (q : Fin 16384)
  /-- WR_ARM (R358). A local ARM kind makes an ARM request of an entry. -/
  | wrArm (q : Fin 16384)
  /-- CNT_ADD (R358). A local CNT_ADD adds to a trigger counter. -/
  | cntAdd (q : Fin 16384)
  /-- CNT_SET (R358). A local CNT_SET sets a trigger counter. -/
  | cntSet (q : Fin 16384)
  /-- FLAG_ADD (R358). A local FLAG_ADD adds to a flag under tenant rules. -/
  | flagAdd (q : Fin 16384)
  /-- RECEIVE_COMPLETE (R349). A matched receive completes once every kept byte is placed. -/
  | receiveComplete (id : Nat)
  /-- REGION_CLOSED (R360). A closing region with nothing admitted left becomes CLOSED. -/
  | regionClosed (i : Fin 65536)
  /-- BF_RTO (R368). The retransmission timeout expires and the sender resends from UNA or enters ERROR. -/
  | bfRto (q : Fin 16384)
  /-- RNR_DELAY (R368). After an RNR NAK's delay, the sender resends from the NAK's PSN. -/
  | rnrDelay (q : Fin 16384)
  /-- ARP_REQUEST (R335). The part answers an ARP request for its own address. -/
  | arpRequest (i : Fin 4) (frame : Bytes) (fcsOk : Bool)
  /-- NEIGHBOUR_SOLICITATION (R335). The part answers an IPv6 neighbour solicitation for its own address. -/
  | neighbourSolicitation (i : Fin 4) (frame : Bytes) (fcsOk : Bool)
  /-- ECHO_REQUEST (R335). The part answers an ICMPv4 or ICMPv6 echo request. -/
  | echoRequest (i : Fin 4) (frame : Bytes) (fcsOk : Bool)
  /-- PAUSE_FRAME (R334). A received PAUSE or PFC frame is dropped and counted. -/
  | pauseFrame (i : Fin 4) (frame : Bytes) (fcsOk : Bool)
  /-- ETH_LINK_CHANGE (R336). An Ethernet interface link goes up or down. -/
  | ethLinkChange (i : Fin 4) (up : Bool)
  /-- WITNESS_WINDOW (R387). At the end of each 1 ms window the part judges both reference witnesses. -/
  | witnessWindow (alt : Option Int) (ppm : List (Nat × Int))
  /-- CHANGEOVER (R390). With all quarters stopped, the part moves to the new reference and relocks every clock. -/
  | changeover (trims : List (Fin 64 × Fin 64))
  /-- REFERENCE_LOST (R393). The selected reference loses edges for 64 ns; the PLL enters holdover. -/
  | referenceLost (r : Fin 2)
  /-- REFERENCE_PRESENT (R385). A reference becomes present after 1 ms of edges, possibly deciding a relock. -/
  | referencePresent (r : Fin 2)
  /-- AVS_ACK (R401). A status poll and read-back acknowledge the commanded core voltage. -/
  | avsAck (slaveAck : Fin 4) (vdone : Bool) (mv : Nat)
  /-- AVS_ACK_TIMEOUT (R403). A voltage not acknowledged within 1 ms declares a power fault. -/
  | avsAckTimeout
  /-- IRAIL_READ (R400). Every 100 µs the part reads the core-rail current. -/
  | irailRead (amps : Fin 1024)
  /-- DAMPER_STEP (R409). Each step period a sink envelope moves one 0.25 A step. -/
  | damperStep (k : Fin 36)
  /-- SMBALERT (R413). On SMBALERT_N assertion the service core reads and clears the alerting regulator. -/
  | smbalert (dev : Fin 8) (w : BitVec 16) (ack still : Bool)
  /-- SMBALERT_REPEAT (R413). While SMBALERT_N stays asserted the reading repeats once per 1 ms. -/
  | smbalertRepeat (dev : Fin 8) (w : BitVec 16) (ack still : Bool)
  /-- THERMTRIP (R406). A sensor reading of 115 °C or more asserts THERMTRIP_N. -/
  | thermtrip (g : Fin 5) (t : Int)
  /-- SIMMER_EXIT (R419). A ready entry or wake event restarts the quarters at a common seam. -/
  | simmerExit (v : SeamEnv) (trims : List (Nat × Nat))
  /-- WAKE_N (R422). A WAKE_N assertion reaching its threshold wakes the part from BANKED or COLD. -/
  | wakeN (ns : Nat)
  /-- SIDEBAND_ADDRESS_MATCH (R421). In BANKED, a match of the static address wakes the part. -/
  | sidebandAddressMatch
  /-- COLD_RESET (R425). The release of COLD_RESET_N starts bring-up as a cold reset. -/
  | coldReset (strap : Fin 8) (jtag : Bool) (v : BootEnv)
  /-- WARM_RESET (R425). The release of WARM_RESET_N starts bring-up as a warm reset. -/
  | warmReset (v : BootEnv)
  /-- POWER_LOSS (R544). VDD_AON or VDD_IO18 below its minimum for 1 µs acts as loss of power. -/
  | powerLoss
  /-- FLASH_RETRY (R434). Every 10 s without a valid copy the flash is read again. -/
  | flashRetry (v : BootEnv)
  /-- ETH_WAIT (R442). After 1 s at step 8 without the repository interface up, ETH_WAIT is logged. -/
  | ethWait
  /-- DEPLOY_SESSION_RETRY (R443). 1 s after queue pair 0 fails the part creates it again and opens a new session. -/
  | deploySessionRetry
  /-- DEPLOY_MESSAGE (R446). A deploy message is judged for format, sequence, nonce and authentication or digest. -/
  | deployMessage (ecc : List Nat)
  /-- LOAD (R452). A deploy LOAD fills an empty entry and starts admission. -/
  | load
  /-- ARM (R164). A deploy ARM raises an entry's ARMS. -/
  | arm
  /-- DISABLE (R166). A deploy DISABLE takes an entry out of selection at its next seam. -/
  | disable
  /-- ENABLE (R162). A deploy ENABLE returns a disabled entry to ARMED or IDLE. -/
  | enable
  /-- REMOVE (R167). A deploy REMOVE disables an entry and empties it once idle. -/
  | remove
  /-- AREA_CREATE (R450). A deploy AREA_CREATE creates and zero-fills a shared area. -/
  | areaCreate
  /-- AREA_RELEASE (R449). A deploy AREA_RELEASE releases a shared area unless in use. -/
  | areaRelease
  /-- DATA (R450). A deploy DATA places payload into an area. -/
  | data
  /-- DATA_EXPECT (R451). A deploy DATA_EXPECT adds pending digests for later DATA messages. -/
  | dataExpect
  /-- STAGING (R251). A deploy STAGING declares an HBM area as a staging area. -/
  | staging
  /-- CH_OPEN (R204). A deploy CH_OPEN opens a channel or chimney. -/
  | chOpen
  /-- CH_CLOSE (R211). A deploy CH_CLOSE closes a channel at the next beat increment. -/
  | chClose
  /-- CH_DISABLE (R213). A deploy CH_DISABLE sets a channel's DIS. -/
  | chDisable
  /-- CH_ENABLE (R213). A deploy CH_ENABLE clears a channel's DIS. -/
  | chEnable
  /-- QP_CREATE (R341). A deploy QP_CREATE creates a queue pair. -/
  | qpCreate
  /-- QP_RESET (R342). A deploy QP_RESET returns an errored queue pair to LISTEN or CONNECTING. -/
  | qpReset
  /-- QP_DESTROY (R342). A deploy QP_DESTROY destroys a queue pair. -/
  | qpDestroy
  /-- REG_CREATE (R359). A deploy REG_CREATE registers a region and returns its key. -/
  | regCreate
  /-- REG_REMOVE (R360). A deploy REG_REMOVE revokes a region and is answered at CLOSED. -/
  | regRemove
  /-- LINK_DISABLE (R281). A deploy LINK_DISABLE drains a link at its next seam. -/
  | linkDisable
  /-- LINK_ENABLE (R272). A deploy LINK_ENABLE puts a link into TRAIN. -/
  | linkEnable
  /-- MGMT_REQUEST (R327). A deploy MGMT request sends an MGMT packet to another part. -/
  | mgmtRequest
  /-- START (R453). A deploy START enables the stoker and begins beat 0. -/
  | start
  /-- RESTART (R454). A deploy RESTART sends its reply and prepares a warm reset. -/
  | restart
  /-- RESTART_RESET (R454). Once the reply is acknowledged or 10 ms pass, the part performs the warm reset. -/
  | restartReset (elapsed : Bool) (v : BootEnv)
  /-- FLASH_WRITE (R455). A deploy FLASH_WRITE erases, programs and verifies part of the unbooted copy. -/
  | flashWrite (ok : Bool)
  /-- LEDGER (R457). A deploy LEDGER burns and verifies the next slot of a ledger setting. -/
  | ledger (res : Option Bool)
  /-- WATCHDOG (R461). The service core watchdog expires, a part-fatal error. -/
  | watchdog
  /-- MAILBOX_READ (R468). A read of the mailbox returns BUSY or the last response frame. -/
  | mailboxRead (a : BitVec 7) (ended : Bool)
  /-- GET_STATUS (R468). Mailbox GET_STATUS returns the part's status. -/
  | getStatus (a : BitVec 7) (during : Bool)
  /-- GET_IDENTITY (R468). Mailbox GET_IDENTITY returns the part's identity. -/
  | getIdentity (a : BitVec 7) (during : Bool)
  /-- GET_TELEMETRY (R468). Mailbox GET_TELEMETRY returns temperatures, voltage, current and link state. -/
  | getTelemetry (a : BitVec 7) (during : Bool)
  /-- LOG_READ (R469). Mailbox LOG_READ returns event-log entries from a SEQ. -/
  | logRead (a : BitVec 7) (seq : Word) (count : Byte) (during : Bool)
  /-- CSR_READ (R470). Mailbox CSR_READ returns consecutive CSR words. -/
  | csrRead (a : BitVec 7) (addr : BitVec 40) (count : Byte) (during : Bool)
  /-- LEDGER_READ (R472). Mailbox LEDGER_READ returns a setting summary or slot. -/
  | ledgerRead (a : BitVec 7) (setting slot : Byte) (during : Bool)
  /-- SLEEP (R471). Mailbox SLEEP requests entry to BANKED or COLD. -/
  | sleep (a : BitVec 7) (st confirm : Byte) (during : Bool)
  /-- ALERT_ACK (R473). Mailbox ALERT_ACK clears alert latches and sets the mask. -/
  | alertAck (a : BitVec 7) (clear mask : Byte) (same : BitVec 5) (during : Bool)
  /-- ENEC (R464). CCC ENEC enables in-band interrupts. -/
  | enec (a : Option (BitVec 7)) (ev : Byte)
  /-- DISEC (R464). CCC DISEC disables in-band interrupts. -/
  | disec (a : Option (BitVec 7)) (ev : Byte)
  /-- RSTDAA (R463). CCC RSTDAA clears the dynamic address. -/
  | rstdaa
  /-- ENTDAA (R464). CCC ENTDAA assigns a dynamic address by arbitration. -/
  | entdaa (won : Option (BitVec 7))
  /-- SETDASA (R464). CCC SETDASA assigns a dynamic address from the static one. -/
  | setdasa (a v : BitVec 7)
  /-- SETNEWDA (R464). CCC SETNEWDA changes the dynamic address. -/
  | setnewda (a v : BitVec 7)
  /-- GETPID (R464). CCC GETPID returns the provisional ID. -/
  | getpid (a : BitVec 7)
  /-- GETBCR (R464). CCC GETBCR returns the bus characteristics register. -/
  | getbcr (a : BitVec 7)
  /-- GETDCR (R464). CCC GETDCR returns the device characteristics register. -/
  | getdcr (a : BitVec 7)
  /-- GETMWL (R464). CCC GETMWL returns the maximum write length. -/
  | getmwl (a : BitVec 7)
  /-- GETMRL (R464). CCC GETMRL returns the maximum read length. -/
  | getmrl (a : BitVec 7)
  /-- GETSTATUS (R464). CCC GETSTATUS returns the count of unmasked latches and the PEC error bit. -/
  | getstatus (a : BitVec 7)
  /-- EXTEST (R485). TAP EXTEST drives pins in test mode, or acts as BYPASS. -/
  | extest (pins shift : BitVec 379)
  /-- IDCODE (R486). TAP IDCODE selects the identification register. -/
  | idcode
  /-- SAMPLE_PRELOAD (R485). TAP SAMPLE/PRELOAD observes the pins. -/
  | samplePreload (pins shift : BitVec 379)
  /-- CLAMP (R485). TAP CLAMP holds pins in test mode, or acts as BYPASS. -/
  | clamp
  /-- HIGHZ (R485). TAP HIGHZ floats pins in test mode, or acts as BYPASS. -/
  | highz
  /-- EXTEST_PULSE (R485). TAP EXTEST_PULSE tests AC-coupled lanes in test mode. -/
  | extestPulse (pins shift : BitVec 379)
  /-- EXTEST_TRAIN (R485). TAP EXTEST_TRAIN tests AC-coupled lanes in test mode. -/
  | extestTrain (pins shift : BitVec 379)
  /-- DEBUG (R486). TAP DEBUG gives debugger access in test mode while unlocked. -/
  | debug (op : DebugOp)
  /-- BYPASS (R485). TAP BYPASS selects the bypass register. -/
  | bypass
  /-- TAP_RESET (R484). TRST_N or COLD_RESET_N resets the TAP to test-logic reset. -/
  | tapReset
  /-- LINK_PACKET_RECEIVE (R289). A header with a good HCRC arrives in a data slot, and the receiver accepts the packet into its VC buffer, or discards it as an old copy or out of sequence, or turns NAK-pending on a PCRC failure, or breaks the link with OVERRUN. -/
  | linkPacketReceive (l : Fin 20) (b : Bytes) (item : LinkItem)
  /-- RECEIVED_FRAME (R339). A received Ethernet frame that fails the header, FCS, checksum or ICRC checks is discarded without answer and counted. -/
  | receivedFrame (i : Fin 4) (frame : Bytes) (fcsOk : Bool)
  /-- COMMAND_FRAME (R467). A mailbox command frame that fails its PEC, its length or its CMD check, or that arrives while a command executes, is answered with PEC, LENGTH, UNKNOWN or OVERRUN and performs nothing. -/
  | commandFrame (a : BitVec 7) (f : Bytes) (during : Bool)
  /-- COLD_RESET_N_ASSERT (R425). The assertion of COLD_RESET_N, when it passes the glitch filter, resets the part at once whatever the state of any beat or seam. -/
  | coldResetNAssert (ns : Nat)
  /-- WARM_RESET_N_ASSERT (R426). The assertion of WARM_RESET_N ends the part's work at once, and every HBM station abandons its commands and enters self-refresh within 2 µs. -/
  | warmResetNAssert (ns : Nat)
  /-- SERVICE_CORE_ERROR (R461). An uncorrectable error in the service core's own memory is a part-fatal error, and the service core restarts in fatal service. -/
  | serviceCoreError
  /-- POWER_GOOD_TIMEOUT (R543). A rail that has not reported POWER_GOOD within 20 ms of being turned on at a wake is commanded off and on again, once every 1 s. -/
  | powerGoodTimeout
  /-- POWER_GOOD_REPORT (R543). A regulator reports POWER_GOOD or output off in STATUS_WORD, and the service core turns on or off the next rail of the sequence, or lets bring-up go on. A device that does not answer is counted (R403). -/
  | powerGoodReport (rail : Fin 10) (a : RailAnswer) (v : BootEnv)
  deriving DecidableEq, Repr

end Sys2Proof
end

