-- ==== Sys2Proof/Decode.lean ====
section
/-! DEFINITION. The command that a table word spells. No row of spec/opcode_table.json gives a command bits: commands are events of the part's
pins, links, clocks and units, not words of a program. -/
namespace Sys2Proof

/-- No word spells a command. Log 50, DESIGN CHOICE. -/
def decodeTableWord (_nbits _w : Nat) : Option Instr := none

end Sys2Proof
end

