-- ==== Sys2Proof/Config.lean ====
section
/-! DEFINITION. What an implementation fixes and the spec leaves open: opaque constants, whose values no proof can see.
Each is named in the assumption log. -/
namespace Sys2Proof.Config

/-- The phase of SCK at cycle 0 of a beat, in thousandths of an SCK (08_hbm_under_schedule.md R238: the groups start at
the first SCK edge at or after a cycle; where the edge lies is not stated). The argument is a fresh number. Log 7, DESIGN CHOICE. -/
opaque sckPhase : Nat → Nat

/-- The code with which the stoker refuses a LOAD or an ARM of a tenant whose abort is decided
(06_beats_and_the_stoker.md R192 names none). Log 8, DESIGN CHOICE. -/
opaque abortCode : Nat → Nat

/-- Words of the service core's entropy source (14_boot_and_configuration.md R443, R444): the nonce and the IPSN of queue pair 0. Log 9, DESIGN CHOICE. -/
opaque entropy : Nat → Nat

/-- The sum of a chimney of another chip (07_flags_channels_chimneys.md R226): its OSIZE in lines and its FMT, as that chip's configuration
holds them. Arguments: a fresh number, the chip and the chimney. Log 152, DESIGN CHOICE. -/
opaque childSum : Nat → Nat → Nat → Nat × Nat

/-- The serial number of the die, set by test fuses (16_address_map_common_registers.md R503). Log 10, DESIGN CHOICE. -/
opaque dieSerial : Nat
/-- The voltage code of each grade, fused at test, 0 to 48 (13_power_and_states.md R424). Log 11, DESIGN CHOICE. -/
opaque vmap : Nat → Nat

/-- The full envelope of a damper sink at a grade, in 0.25 A units: the greatest current its logic draws there, at most 16 A
(13_power_and_states.md R409). Arguments: the sink (0 to 31 hobs, 32 to 35 base sinks) and the grade. Log 12, DESIGN CHOICE. -/
opaque fullEnvelope : Nat → Nat → Nat
/-- The current the logic behind a sink draws, in 0.25 A units (13_power_and_states.md R408): the sink, and three numbers that
name the moment. Log 12, DESIGN CHOICE. -/
opaque logicCurrent : Nat → Nat → Nat → Nat → Nat

/-- The threshold of the WAKE_N detector, in nanoseconds above 1 µs (17_signals_and_package.md R515: between 1 µs and 10 µs, fixed for
each part). Log 13, DESIGN CHOICE. -/
opaque wakeThreshold : Nat

/-- Bytes that a warm reset leaves undefined in the HBM units being written (14_boot_and_configuration.md R426). Arguments: a fresh
number and the address. Log 14, DESIGN CHOICE. -/
opaque undefinedByte : Nat → Nat → Byte

/-- Whether an interrupted burn of a ledger slot leaves it current rather than spent (14 R459); and the CHECK of a spent slot, which fails.
The argument is a fresh number. Log 15, DESIGN CHOICE. -/
opaque burnTakes : Nat → Bool
opaque burnCheck : Nat → Nat

end Sys2Proof.Config
end

