-- ==== Sys2Proof/Machine/Crc.lean ====
section
/-! DEFINITION. Checks over bytes: CRC-16 and CRC-32C (09_fenxia_link.md R282), CRC-8 (14_boot_and_configuration.md R456), and the
one's-complement sums of IP and UDP. -/
namespace Sys2Proof.Machine

/-- One bit of a CRC whose register shifts towards the high end: polynomial `p`, width `w`. -/
def crcUpBit (w p c : Nat) : Nat := if c.testBit (w - 1) then (c <<< 1 % 2 ^ w) ^^^ p else c <<< 1 % 2 ^ w
def crcUpByte (w p c : Nat) (b : Byte) : Nat :=
  (List.range 8).foldl (fun c _ => crcUpBit w p c) (c ^^^ (b.toNat <<< (w - 8)))
/-- CRC-16 of R282: polynomial 0x1021, initial value 0xFFFF, not reflected, not inverted. -/
def crc16 (b : Bytes) : Nat := b.foldl (crcUpByte 16 0x1021) 0xFFFF
/-- CRC-8 of R456: polynomial 0x07, initial value 0, not reflected. -/
def crc8 (b : Bytes) : Nat := b.foldl (crcUpByte 8 0x07) 0
/-- One bit of a reflected CRC with the reflected polynomial `p`. -/
def crcDnBit (p c : Nat) : Nat := if c % 2 = 1 then (c / 2) ^^^ p else c / 2
def crcDnByte (p c : Nat) (b : Byte) : Nat := (List.range 8).foldl (fun c _ => crcDnBit p c) (c ^^^ b.toNat)
/-- CRC-32C of R282: polynomial 0x1EDC6F41 reflected, initial value and final inversion 0xFFFFFFFF. -/
def crc32c (b : Bytes) : Nat := 0xFFFFFFFF ^^^ b.foldl (crcDnByte 0x82F63B78) 0xFFFFFFFF

/-- CRC-32 of IEEE 802.3, the frame check sequence: polynomial 0x04C11DB7 reflected. Log 115, PRESUMED. -/
def crc32 (b : Bytes) : Nat := 0xFFFFFFFF ^^^ b.foldl (crcDnByte 0xEDB88320) 0xFFFFFFFF

/-- The one's-complement sum of 16-bit words, first byte high. -/
def onesSum : Bytes → Nat → Nat
  | [], a => a
  | [x], a => a + x.toNat * 256
  | x :: y :: r, a => onesSum r (a + x.toNat * 256 + y.toNat)
def foldOnes (a : Nat) : Nat := let b := a % 65536 + a / 65536; let c := b % 65536 + b / 65536; c % 65536 + c / 65536
/-- The Internet checksum of bytes. -/
def inetSum (b : Bytes) : Nat := 0xFFFF - foldOnes (onesSum b 0)

end Sys2Proof.Machine
end

