-- ==== Sys2Proof/Machine/State.lean ====
section
/-! DEFINITION. The state of the part as plain data: every register, memory, queue and mode the spec gives it,
the model's own queue of waiting commands, and the state right after reset. -/
namespace Sys2Proof.Machine

/-! ### Data on the move -/

/-- 256 bytes with one poison mark for each of its four 64-byte lines (R263). -/
structure Blk where
  d : Lanes := Vector.replicate 64 0
  poi : BitVec 4 := 0
  deriving DecidableEq, Repr

/-- A Fenxia packet: header fields of Table 9.6 (the CRCs are judged on arrival, R282) and payload flits. -/
structure Packet where
  op : Nat := 0
  vc : Nat := 0
  rack : Bool := false
  seq : Nat := 0
  dst : Nat := 0
  src : Nat := 0
  part : Nat := 0
  tenant : Nat := 0
  hops : Nat := 0
  tag : Nat := 0
  sunit : Nat := 0
  status : Nat := 0
  addr : Nat := 0
  arg0 : Nat := 0
  arg1 : Nat := 0
  addr2 : Nat := 0
  /-- a reserved field of the header is non-zero (R283, R285) -/
  resv : Bool := false
  /-- payload flits of 64 bytes with their poison marks -/
  flits : List (Bytes × Bool) := []
  deriving DecidableEq, Repr

/-- Where a waiting packet of a gate came from: the gate's scheduled sends (R104), the part's other units, or transit
(R316), with the VC it entered on. -/
inductive PSrc | send | own | transit
  deriving DecidableEq, Repr

/-- Who waits for the acknowledgement or the data of a load. -/
inductive Origin
  /-- nobody -/
  | none
  /-- operation `op` of mover `m` of quarter `q` (R94) -/
  | mover (q m op : Nat)
  /-- the chained-descriptor fetch of mover `m` of quarter `q` (R98) -/
  | chain (q m : Nat)
  /-- piece `idx` of the Fenxia request of another part held under number `id`, answered by a RESP on VC1 (R300) -/
  | remote (id idx : Nat)
  /-- lines `o` to `o + n - 1` of the message that channel `c` admitted as number `num` (R207, R210) -/
  | ring (c num o n : Nat)
  /-- the sum of round `num` of chimney `k` (R225) -/
  | sum (k num : Nat)
  /-- a status on its way to the unit of a SUNIT, with its TAG (R301) -/
  | unit (u tag : Nat)
  deriving DecidableEq, Repr

/-- What a load carries (R80, ch. 3: "Mover slots carry loads"). -/
inductive LoadKind | write | readReq | readData | ack | packet
  deriving DecidableEq, Repr

/-- A load: traffic of the arbitrated side, 64 to 256 bytes or a request or acknowledgement. `dq` is the destination
quarter (4 names the mantel) and `ds` the destination station; `sq`, `ss` are those of its source. -/
structure Load where
  kind : LoadKind := .write
  dq : Nat := 0
  ds : Nat := 0
  sq : Nat := 0
  ss : Nat := 0
  /-- fabric address of the first byte: chip in bits 47..40 (R491) -/
  addr : Nat := 0
  lines : Nat := 0
  data : Bytes := []
  poi : List Bool := []
  status : Nat := 0
  tenant : Nat := 0
  org : Origin := .none
  /-- a packet on its way to its exit gate (R105), and where it came from -/
  pkt : Option (PSrc × Packet) := none
  /-- station of the loops at which the load was first put into a mover slot, and its number in the order of injection (R82) -/
  inAt : Nat := 0
  inj : Nat := 0
  deriving DecidableEq, Repr

/-! ### The hob (02_the_hob.md) -/

/-- An address generator: its GSET registers by number (Table 4.13), its five indices and DONE (R60 to R64). -/
structure Gen where
  reg : SMap Word := []
  idx : SMap Nat := []
  done : Bool := false
  deriving DecidableEq, Repr

/-- A weight plane: its plane words, their poison, and the format tag (R47, R48). -/
structure Plane where
  words : SMap Lanes := []
  poi : SMap Bool := []
  tag : Nat := 0
  deriving DecidableEq, Repr

/-- A vector register with one mark per line (R263). -/
abbrev VReg := Blk

/-- The exact column sum P_n of a step with the conditions of R52. -/
structure ColSum where
  nan : Bool := false
  pinf : Bool := false
  ninf : Bool := false
  /-- the exact sum in units of 2^-300 -/
  sum : Int := 0
  /-- every product is −0 -/
  allNegZero : Bool := false
  deriving DecidableEq, Repr

/-- The operands of a STEP in flight (Table 4.5). -/
structure StepOp where
  sfmt : Nat := 0
  afp8 : Nat := 0
  ovw : Bool := false
  entry : Nat := 0
  sset : Nat := 0
  deriving DecidableEq, Repr

/-- A write to part of a vector register: bytes `off` on, with the mark of the data for each line. -/
structure VWrite where
  reg : Nat := 0
  off : Nat := 0
  data : Bytes := []
  poi : BitVec 4 := 0
  deriving DecidableEq, Repr

/-- Where the data of an SRAM read goes. -/
inductive ReadDst
  | vreg (reg pos : Nat)
  | plane (word fmt : Nat)
  | asl
  | act (op : StepOp)
  deriving DecidableEq, Repr

/-- A pending effect of an issued bundle in a hob, at its offset of Table 4.2. -/
inductive HFx
  /-- operands of the V slot `bits` are read (offset 2) -/
  | vop (bits : Nat)
  /-- bytes of a vector register are read for the array or the ASL (offset 2) -/
  | vread (reg off len : Nat) (dst : ReadDst)
  /-- bytes of a vector register are read for a store (offset 2) -/
  | vstore (reg pos : Nat) (lines : List Nat)
  /-- a vector register is read for an out-tap (offset 2) -/
  | vtap (loop reg : Nat)
  /-- SRAM lines are read; `none` is a line of zero bytes (offset 3) -/
  | sread (lines : List (Option Nat)) (dst : ReadDst)
  /-- SRAM lines are read and placed in the loop slot at the hob's station (offset 3) -/
  | stap (loop : Nat) (lines : List (Option Nat))
  /-- the loop slot at the hob's station is read (offset 3) -/
  | tapS (loop : Nat) (lines : List (Option Nat))
  | tapP (loop word fmt : Nat)
  | tapV (loop reg : Nat)
  /-- an activation enters the array (offset 4) -/
  | act (op : StepOp) (data : Bytes) (poi : Bool)
  /-- an accumulator entry is read (offset 12) -/
  | accRead (entry reg : Nat)
  /-- writes -/
  | swrite (lines : List Nat) (data : Bytes) (poi : List Bool)
  | slotPut (loop : Nat) (b : Blk)
  | vwrite (w : VWrite)
  | planePut (word fmt : Nat) (d : Lanes) (poi : Bool)
  | aslPut (d : Bytes) (poi : Bool)
  | swap
  | commit (op : StepOp) (sums : List ColSum) (poi : Bool)
  | accZero (entry : Nat)
  /-- the advances of a bundle's generators (offset 1) -/
  | adv (gens : List Nat)
  /-- the C slot `bits` (offset 1) -/
  | cop (bits : Nat)
  deriving DecidableEq, Repr

/-- A pending effect with its cycle, its issue cycle and its slot's place in M, V, L0, L1, S, T, C (R112). -/
structure HPend where
  at_ : Nat
  issue : Nat
  slot : Nat
  fx : HFx
  deriving DecidableEq, Repr

/-- A loop frame of a sequencer or a hob (R135). -/
structure Frame where
  start : Nat
  fin : Nat
  ctr : Nat
  left : Nat
  deriving DecidableEq, Repr

/-- How a hob treats a gap (R68). -/
inductive GapWork | none | ember | damper
  deriving DecidableEq, Repr

/-- The hob portion that a hob issues in the current cycle. -/
structure HIssue where
  /-- bits [191:0] of the bundle -/
  bits : Nat := 0
  /-- bits [255:192], in local mode -/
  lseq : Nat := 0
  addr : Nat := 0
  isLocal : Bool := false
  /-- operations still to execute: 0 array, 1 V, 2 L0, 3 L1, 4 S, 5 first tap, 6 C, 7 local sequencing field, 8 plane load,
  9 ASLD, 10 second tap; a skipped slot has none -/
  todo : List Nat := []
  /-- fault reason of each skipped slot, as the whole bundle was judged at issue (R41, R150) -/
  flt : SMap Nat := []
  deriving DecidableEq, Repr

/-- A hob. -/
structure Hob where
  vregs : SMap VReg := []
  acc : SMap Lanes := []
  accPoi : SMap Bool := []
  active : Plane := {}
  shadow : Plane := {}
  asl : Bytes := List.replicate 64 0
  aslPoi : Bool := false
  gens : SMap Gen := []
  hrel : Nat := 0
  /-- EMBER_GAP (Table 2.11) -/
  emberGap : Nat := 0x200
  /-- mover buffer, oldest first (R42) -/
  buf : List Load := []
  cx : Nat := 0
  aep : Nat := 0
  aepWrap : Nat := 512
  lc : SMap Nat := []
  lpc : Nat := 0
  lstack : List Frame := []
  /-- LOCAL_RANGE met in this window (R145) -/
  lidle : Bool := false
  lstore : SMap (BitVec 256) := []
  llen : Nat := 0
  pend : List HPend := []
  cur : Option HIssue := none
  /-- last cycle in which a step occupies the array (R50) -/
  busyTo : Option Nat := none
  /-- that step was a bfloat16 step -/
  busyBf : Bool := false
  gap : GapWork := .none
  gapFrom : Nat := 0
  /-- banks that an access uses in a cycle (R40, R42), by cycle -/
  bankUse : SMap (List Nat) := []
  /-- pending loads the hob's station holds to inject (acknowledgements and read data, R81) -/
  outLoads : List Load := []
  deriving DecidableEq, Repr

/-! ### Fault logs (05_sequencing_and_faults.md) -/

/-- One fault-log entry (Table 5.7). -/
structure FaultEntry where
  beat : Word := 0
  addr : Nat := 0
  isLocal : Bool := false
  slot : Nat := 0
  reason : Nat := 0
  cyc : Nat := 0
  hob : Nat := 0
  seq : Bool := false
  tenant : Nat := 0
  entry : Nat := 0
  deriving DecidableEq, Repr
/-- One of the nine fault logs of a range (R151 to R154). -/
structure FaultLog where
  total : Word := 0
  ovf : Nat := 0
  ent : SMap FaultEntry := []
  deriving DecidableEq, Repr

/-! ### The range (03_ranges_and_loops.md) -/

/-- A loop slot: its data, the cycle and station of the write that made it live (R73), a write that an issued
bundle will perform (the cycle), and the load a mover slot carries (R82). -/
structure LoopSlot where
  blk : Blk := {}
  live : Option Nat := none
  resv : Option Nat := none
  load : Option Load := none
  deriving DecidableEq, Repr

/-- SEQ_STATUS.STATE, and the halted quarter of a region stop, SIMMER or fatal stop. -/
inductive Phase | idle | run | seam
  deriving DecidableEq, Repr

/-- A pending range effect of an issued bundle. -/
inductive RFx
  | send (bits : Nat)
  | lout (loop slot : Nat)
  | win (loop slot : Nat)
  | flag (idx : Nat) (delta : Nat)
  /-- the H slot's command group passes to the station (offset 1), with the severities the stack returns for its reads -/
  | group (bits : Nat) (ecc : List Nat)
  /-- the G slot's MOVE is judged and enqueued (offset 1) -/
  | move (bits : Nat)
  deriving DecidableEq, Repr
structure RPend where
  at_ : Nat
  issue : Nat
  addr : Nat
  fx : RFx
  deriving DecidableEq, Repr

/-- An operation a mover has in flight (R94). -/
structure MOp where
  id : Nat
  /-- destination fabric address -/
  dst : Nat
  len : Nat
  /-- the read of a COPY is out, its write not yet issued -/
  reading : Bool
  /-- chip whose RESP the operation awaits -/
  peer : Option Nat
  deriving DecidableEq, Repr

/-- A descriptor in a mover's queue (R92, R99). -/
structure Desc where
  raw : Bytes := []
  tenant : Nat := 0
  entry : Nat := 0
  /-- chunk numbers issued so far (R94: any order) -/
  issued : List Nat := []
  ops : List MOp := []
  /-- error reason (Table 15.10, MOVER_ERROR) -/
  err : Option Nat := none
  /-- completed with error ABORTED (R100) -/
  aborted : Bool := false
  begun : Bool := false
  /-- a descriptor of the stoker: the entry whose bundles it loads (R89) -/
  load : Option Nat := none
  deriving DecidableEq, Repr

/-- A mover. -/
structure Mover where
  /-- the queue, oldest first; a chained descriptor takes the place of the one that chained -/
  q : List Desc := []
  /-- the address whose 64 bytes are being fetched for the head's place (R98) -/
  fetching : Option Nat := none
  /-- tenant of the place whose chained descriptor is being fetched -/
  fetchTenant : Nat := 0
  fetchEntry : Nat := 0
  /-- what the fetch has returned: the bytes, a mark, and the failure reason (0: none) -/
  fetched : Option (Bytes × Bool × Nat) := none
  /-- the tenant of the chained descriptor has been aborted (R100) -/
  fetchAbort : Bool := false
  errCnt : Word := 0
  timeout : Nat := 0x3E8
  nextId : Nat := 0
  deriving DecidableEq, Repr

/-- The HBM address register of a station (Table 8.11). -/
structure AReg where
  unit : Nat := 0
  slot : Nat := 0
  ustep : Int := 0
  sstep : Nat := 0
  area : Nat := 0
  deriving DecidableEq, Repr

/-- A command of the station in SCK time of the current beat (R244). `cmd` is the code of Table 8.5. -/
structure HCmd where
  at_ : Nat
  pc : Nat
  cmd : Nat
  /-- bank of the pseudo-channel: stack ID × 16 + bank group × 4 + bank -/
  bank : Nat := 0
  row : Nat := 0
  unit : Nat := 0
  col : Nat := 0
  slot : Nat := 0
  len : Nat := 0
  data : Bytes := []
  poi : Bool := false
  /-- severity the stack returns with the burst: 0 none, 1 corrected, 2 uncorrectable (R262) -/
  sev : Nat := 0
  /-- the station's own command -/
  own : Bool := false
  /-- already performed on the stack -/
  done : Bool := false
  deriving DecidableEq, Repr

/-- An HBM station (08_hbm_under_schedule.md). -/
structure Station where
  trained : BitVec 4 := 0
  withdrawn : Bool := false
  selfref : Bool := false
  /-- pseudo-channels in rescue -/
  rescue : BitVec 8 := 0
  debt : SMap Int := []
  /-- banks that have received a REFPB since the last sweep credit, per pseudo-channel -/
  sweep : SMap (BitVec 48) := []
  temp : Int := 0
  elided : Word := 0
  autoref : Word := 0
  stgdrop : Word := 0
  ce : SMap Word := []
  ue : SMap Word := []
  /-- corrected bursts since the station's previous HBM_CE event (Table 15.10) -/
  ceNew : Nat := 0
  /-- template words, 32 × template + entry -/
  tpl : SMap Word := []
  ar : SMap AReg := []
  land : SMap Blk := []
  /-- poisoned bursts of each landing slot (Table 8.9) -/
  landPoi : SMap Nat := []
  bound : SMap Nat := []
  wbuf : SMap Blk := []
  cmds : List HCmd := []
  /-- SCK phase at cycle 0 of the beat, in 1/1000 SCK (free value, R238) -/
  phase : Nat := 0
  /-- SCK at which the last REFAB of a rescue ends, per pseudo-channel -/
  rescueEnd : SMap Nat := []
  /-- SCK until which the mover engine or an own refresh outside a program holds a pseudo-channel -/
  engBusy : SMap Nat := []
  movq : List Load := []
  /-- accesses that the mover engine has begun: the SCK at which the last burst is written or has landed, the load, and its severities (R249) -/
  serving : List (Nat × Load × List Nat) := []
  /-- poison table: by 256-byte unit of the local address, 1 + the mask of bursts written clean since the entry -/
  ptab : SMap Nat := []
  outLoads : List Load := []
  deriving DecidableEq, Repr

/-- A local window in progress (R86, R141 to R146). -/
structure Window where
  start : Nat
  count : Nat
  deriving DecidableEq, Repr

/-- A range with its quarter: sequencer, loops, movers, bridge and HBM station. -/
structure Range where
  phase : Phase := .idle
  /-- the quarter's clock is halted (region stop, SIMMER, fatal stop) -/
  halted : Bool := false
  entry : Nat := 0
  valid : Bool := false
  tenant : Nat := 0
  base : Nat := 0
  len : Nat := 0
  cyc : Nat := 0
  /-- address issued in cycle `cyc` -/
  iss : Option Nat := none
  pc : Nat := 0
  /-- cycle of the last issue -/
  issAt : Nat := 0
  /-- what opens the current cycle and has not happened yet: 12 the end of a local window, 13 the end of a WAIT -/
  pre : List Nat := []
  /-- parts of the current bundle still to execute: 7 H group, 8 HT, 9 G, 10 Q (Table 5.8), 11 the forced BEND (R140) -/
  todo : List Nat := []
  /-- the next issue follows a WAIT -/
  waiting : Bool := false
  /-- the hob portion of the current cycle has reached the hobs -/
  hobsOn : Bool := false
  /-- next issue: cycle and address -/
  nxt : Option (Nat × Nat) := none
  /-- issue cycle of the BEND, once issued -/
  bendAt : Option Nat := none
  /-- last local cycle dispatched in this run -/
  lastLocal : Option Nat := none
  sc : SMap Nat := []
  qx : Nat := 0
  stack : List Frame := []
  win : Option Window := none
  pend : List RPend := []
  up : SMap LoopSlot := []
  dn : SMap LoopSlot := []
  movUp : BitVec 16 := 0xFFFF
  movDn : BitVec 16 := 0xFFFF
  pmem : SMap (BitVec 256) := []
  moverMin : Nat := 2
  beatNo : Word := 0
  flt : SMap FaultLog := []
  /-- entries gained in this beat and the first reason (R155) -/
  fltGain : Nat := 0
  /-- the entries that each log has gained in the current cycle, in slot order (R153) -/
  fltNow : SMap (List FaultEntry) := []
  fltFirst : Nat := 0
  movers : SMap Mover := []
  brIn : List Load := []
  brOut : List Load := []
  park : List Load := []
  /-- loads handed to mover `m`'s source at the bridge (R555), oldest first, with the mover -/
  movLoads : List (Nat × Load) := []
  /-- first cycle in which a station may fill a slot of a loop again, by 2 × station + loop (R81) -/
  lastFill : SMap Nat := []
  /-- round-robin pointer of R555 over inbound queue (0) and movers (1 to 8) -/
  rr : Nat := 0
  stn : Station := {}
  /-- pending loads of the stations 10 to 15, oldest first, with the station: what the gates and the sequencer send (R71, R105) -/
  gateLoads : List (Nat × Load) := []
  /-- loads put into mover slots so far, for the order of R82 -/
  injs : Nat := 0
  deriving DecidableEq, Repr

/-! ### The stoker (06_beats_and_the_stoker.md) -/

/-- Entry states (Table 6.3). -/
inductive EState | empty | admitting | loading | idle | armed | running | disabled
  deriving DecidableEq, Repr

/-- An entry term (Table 6.4). -/
structure Term where
  kind : Nat := 0
  consume : Bool := false
  index : Nat := 0
  thresh : Nat := 0
  deriving DecidableEq, Repr

/-- What a LOAD declares beside the entry fields: its sections, each STYPE, SIDX and data (R452). -/
structure LoadDecl where
  secs : List (Nat × Nat × Bytes) := []
  /-- a field of the LOAD breaks R168 -/
  bad : Bool := false
  deriving DecidableEq, Repr

/-- A private or shared area an entry's footprint names (R183): HBM or SRAM, the ranges it covers, its base
(line or offset `a`) and its length (lines or bytes). -/
structure Area where
  id : Nat := 0
  hbm : Bool := false
  tenant : Nat := 0
  /-- entry that owns a private area -/
  owner : Option Nat := none
  ranges : Nat := 0
  base : Nat := 0
  len : Nat := 0
  /-- staging area (R251) -/
  staging : Bool := false
  deriving DecidableEq, Repr

/-- An entry of the program table with its hidden declarations (R168, R183). -/
structure Entry where
  state : EState := .empty
  cls : Nat := 0
  rmask : Nat := 0
  rep : Bool := false
  dlEn : Bool := false
  tenant : Nat := 0
  part : Nat := 0
  cost : Nat := 0
  pbase : Nat := 0
  plen : Nat := 0
  movUp : BitVec 16 := 0
  movDn : BitVec 16 := 0
  deadline : Nat := 0
  report : Nat := 0
  terms : List Term := []
  arms : Nat := 0
  stamp : Nat := 0
  armBeat : Word := 0
  /-- this arming has been judged for its deadline (R185) -/
  dlDone : Bool := false
  /-- DISABLE (1) or REMOVE (2) accepted and not yet in effect (R166, R167) -/
  leaving : Nat := 0
  /-- ranges of the mask whose beat of this run has not yet ended (R175) -/
  runningIn : List Nat := []
  /-- the load record as the deploy message carries it (bundle source, images, tables, areas) -/
  decl : LoadDecl := {}
  /-- areas of the footprint: index in AREA order for HBM (R242) and for SRAM -/
  areas : List Area := []
  /-- ranges in whose program memory the bundles stand (R89) -/
  resident : List Nat := []
  deriving DecidableEq, Repr

/-- Answers of an epoch by member chip: stalled with RID, or running (R189). -/
structure Answer where
  stalled : Bool
  rid : Word
  deriving DecidableEq, Repr

/-- The stoker. -/
structure Stoker where
  beatK : Nat := 4
  rtMode : Bool := false
  simmerEn : Bool := false
  dlPolicy : Nat := 0
  simmerAfter : Nat := 0x40
  stallBeats : Nat := 0x100
  leader : Nat := 0
  isLeader : Bool := false
  members : List Nat := []
  beat : Word := 0
  sb : Nat := 0
  localStall : Bool := false
  rid : Word := 0
  epoch : Word := 0
  lastCode : Nat := 0
  lastDetail : Nat := 0
  lastEntry : Nat := 0
  dlMiss : Word := 0
  reqRef : Word := 0
  entries : SMap Entry := []
  /-- the ranges with the same number have had every seam in one cycle since beat 0 or the last exit from SIMMER (R158); next free number -/
  align : SMap Nat := []
  nextAlign : Nat := 1
  /-- claim of each range (R174) -/
  claims : SMap (Option Nat) := []
  nextStamp : Nat := 1
  /-- the evaluator runs (START, R453) -/
  started : Bool := false
  admitQ : List Nat := []
  /-- loadings not yet handed to a mover: range and entry (R89) -/
  loadQ : List (Nat × Nat) := []
  idleBeats : Nat := 0
  /-- the increment of STK_BEAT of range 0's current seam has not happened yet (R159) -/
  tickDue : Bool := false
  /-- during this STK_BEAT: a range ran, a round took an entry, progress happened (R178, R187) -/
  ranNow : Bool := false
  tookNow : Bool := false
  progress : Bool := false
  /-- leader: the open epoch, its answers, the last closed answers, a STALL since the last close, beats since open -/
  openEpoch : Option Word := none
  answers : SMap (Option Answer) := []
  lastAnswers : SMap (Option Answer) := []
  lastAllStalled : Bool := false
  stallMsg : Bool := false
  sinceOpen : Nat := 0
  everOpened : Bool := false
  lostLogged : Bool := false
  /-- aborts decided: tenant, reason (1 DEADLOCK, 2 POISON), ranges whose next seam is still to come -/
  aborts : List (Nat × Nat × List Nat) := []
  deriving DecidableEq, Repr

/-! ### Flags, channels and chimneys (07_flags_channels_chimneys.md) -/

/-- Channel state (Table 7.10). -/
inductive CState | closed | opened | closing
  deriving DecidableEq, Repr

/-- An admitted message in progress or placed but not yet counted (R206 to R208, R556). -/
structure ChMsg where
  slot : Nat
  mlines : Nat
  src : Nat
  unit : Nat
  tag : Nat
  /-- number of the message: AC at its admission -/
  num : Nat := 0
  /-- lines that have arrived, and lines that stand in the ring -/
  got : List Nat := []
  filled : List Nat := []
  placed : Bool := false
  abandoned : Bool := false
  deriving DecidableEq, Repr

/-- A pending channel request (Table 7.3) that takes effect at the next increment of STK_BEAT. -/
inductive ChReq | close (why : Nat) | disable | enable
  deriving DecidableEq, Repr

structure Channel where
  state : CState := .closed
  chimney : Bool := false
  dis : Bool := false
  poison : Bool := false
  why : Nat := 0
  notifyEn : Bool := false
  tenant : Nat := 0
  msglog : Nat := 0
  ringlog : Nat := 0
  base : Nat := 0
  rpflag : Nat := 0
  notify : Nat := 0
  wp : Word := 0
  ac : Word := 0
  k : Nat := 0
  kValid : Bool := false
  accepted : Word := 0
  dropFull : Word := 0
  dropClosed : Word := 0
  dropOther : Word := 0
  stall : Word := 0
  partials : Word := 0
  everOpen : Bool := false
  /-- the depth at which the channel became CLOSED (R212) -/
  frozen : Word := 0
  /-- attributes of a chimney that check 1 of Table 7.5 judges by, also once it is CLOSED: N, CSIZE in lines, FMT -/
  kn : Nat := 0
  klines : Nat := 0
  kfmt : Nat := 0
  /-- messages admitted and not yet counted by WP, in admission order -/
  msgs : List ChMsg := []
  /-- accepted requests that take effect at the next increment, oldest first -/
  reqs : List ChReq := []
  /-- a term on this channel failed in a round of this STK_BEAT (R216) -/
  termFailed : Bool := false
  deriving DecidableEq, Repr

/-- A round of a chimney that has lines, a sum, or both (R220 to R225). -/
structure Round where
  num : Word
  /-- held lines by contributor × 64 + line, unordered mode and incomplete contributions -/
  lines : SMap Bytes := []
  /-- contributors complete, in order of completion -/
  complete : List Nat := []
  poison : Bool := false
  /-- the sum, as far as it has been formed (R224) -/
  sum : Bytes := []
  /-- the sum has begun, is formed and on its way to the ring, is written; `left` counts the writes not yet acknowledged -/
  begun : Bool := false
  formed : Bool := false
  left : Nat := 0
  written : Bool := false
  deriving DecidableEq, Repr

structure Chimney where
  used : Bool := false
  fmt : Nat := 0
  ordered : Bool := false
  fwdEn : Bool := false
  n : Nat := 0
  clines : Nat := 0
  stages : Nat := 0
  stage : Nat := 0
  pchip : Nat := 0
  pidx : Nat := 0
  pchan : Nat := 0
  chan : Nat := 0
  dup : Word := 0
  fwdFail : Word := 0
  /-- CC_i less the value at the open, and the bindings -/
  cc : SMap Nat := []
  cc0 : Word := 0
  bind : SMap (Option Nat) := []
  rounds : List Round := []
  /-- first non-OK RESP of a forward in this STK_BEAT: status, TAG round (R226) -/
  failNow : Option (Nat × Nat) := none
  deriving DecidableEq, Repr

structure Flags where
  val : SMap Word := []
  poi : SMap Bool := []
  drops : Word := 0
  /-- FLG_DROPS at the previous STK_BEAT (R201) -/
  dropsSeen : Word := 0
  occ : SMap (Option Nat) := []
  chans : SMap Channel := []
  chims : SMap Chimney := []
  /-- messages abandoned in this STK_BEAT and the first channel (R208) -/
  partialNow : Nat := 0
  partialChan : Nat := 0
  deriving DecidableEq, Repr

/-- A tenant record of the configuration image (R179, R196). -/
structure Tenant where
  id : Nat := 0
  ceiling : Nat := 0
  flagBase : Nat := 0
  flagCount : Nat := 0
  chanBase : Nat := 0
  chanCount : Nat := 0
  cntBase : Nat := 0
  cntCount : Nat := 0
  deriving DecidableEq, Repr

/-! ### Service core, event log, common block (15, 16) -/

/-- Entry of the event log: its eight words (Table 15.8). -/
abbrev LogEntry := Vector Word 8

structure Service where
  mode : Nat := 0
  cause : Nat := 0
  testMode : Bool := false
  strap : Nat := 0
  dynAddr : Nat := 0
  dynValid : Bool := false
  ibiEn : Bool := false
  latch : BitVec 5 := 0
  mask : BitVec 5 := 0x07
  log : SMap LogEntry := []
  head : Word := 0
  /-- entries ever written since the log was last cleared, for TAIL -/
  count : Nat := 0
  /-- entries still to be sent to the mirror channel within the command that logged them (R477) -/
  toMirror : List LogEntry := []
  mirrorEn : Bool := false
  mirrorChan : Nat := 0
  mirDrop : Word := 0
  telSent : Word := 0
  mboxCmd : Word := 0
  mboxErr : Word := 0
  classCnt : SMap Word := []
  /-- the command executing and its response (R468) -/
  executing : Bool := false
  resp : Option (Nat × Bytes) := none
  overrun : Bool := false
  pecFail : Bool := false
  /-- the service core has failed (R461, R481) -/
  fatalSvc : Bool := false
  /-- the last PING, PONG and RESULT records of MGMT (R328) -/
  mgmtLog : List Bytes := []
  deriving DecidableEq, Repr

structure Common where
  scratch : SMap Word := []
  tag : Word := 0
  tagLocked : Bool := false
  accStatus : Nat := 0
  accChip : Nat := 0
  accTenant : Nat := 0
  accWrite : Bool := false
  accAddr : Word := 0
  accCnt : Word := 0
  intClass : Word := 0
  intSource : Word := 0
  intFirst : Word := 0
  cursor : Word := 0
  result : Nat := 3
  snap : SMap Word := []
  deriving DecidableEq, Repr

/-- The TAP (R484 to R486). -/
structure Tap where
  /-- the instruction register, as loaded -/
  ir : BitVec 8 := 0x01
  /-- boundary-scan cells (R531): as last captured, and the values they hold for their pins -/
  cells : BitVec 379 := 0
  held : BitVec 379 := 0
  /-- how the pins stand: 0 with their functions, 1 driven from the cells (EXTEST), 2 held from the cells (CLAMP), 3 floating (HIGHZ), 4 and 5
  pulses on the AC-coupled lanes (EXTEST_PULSE, EXTEST_TRAIN) -/
  driving : Nat := 0
  /-- a debugger has halted the service core (R486) -/
  halted : Bool := false
  deriving DecidableEq, Repr

/-! ### Fenxia (09_fenxia_link.md, 10_fabric_and_partitions.md) -/

/-- A Fenxia request under way inside the part: its packet, the pieces still out, their data and marks by piece, and
the first status that is not OK (R300). -/
structure Remote where
  pkt : Packet := {}
  /-- the link it came by; 20 for a request of the part itself (R308) -/
  link : Nat := 0
  left : Nat := 0
  data : SMap (Bytes × List Bool) := []
  status : Nat := 0
  deriving DecidableEq, Repr

/-- Link states (Table 9.3). -/
inductive LState | down | train | up | hold | drain | broken
  deriving DecidableEq, Repr

structure Waiting where
  src : PSrc
  pkt : Packet
  /-- chosen again under R313: the new exit, not yet entered -/
  exit : Option (Nat × Nat) := none
  deriving DecidableEq, Repr

/-- A link gate. -/
structure Gate where
  /-- enabled by the configuration image -/
  image : Bool := false
  en : Bool := false
  reach : Nat := 0
  vcmask : BitVec 8 := 0x03
  credit : Nat := 0x64
  drain : Nat := 0x64
  state : LState := .down
  narrow : Bool := false
  half : Bool := false
  reversed : Bool := false
  polarity : BitVec 8 := 0
  phold : Bool := false
  pchip : Nat := 0
  plink : Nat := 0
  brk : Nat := 0
  nts : BitVec 12 := 0
  ers : BitVec 12 := 0
  nds : BitVec 12 := 0
  eds : BitVec 12 := 0
  rnum : Nat := 0
  ppm : BitVec 16 := 0
  ppmValid : Bool := false
  limit : SMap Nat := []
  plimit : SMap Nat := []
  /-- counters of Table 9.14 by offset ÷ 4 from 0x080 -/
  cnt : SMap Word := []
  laneErr : SMap Word := []
  /-- replay buffer, oldest first -/
  replay : List Packet := []
  /-- packets of a replay still to resend -/
  resend : List Packet := []
  /-- receive VC buffers -/
  rx : SMap (List Packet) := []
  /-- loads of the head packet of a VC that mover slots have still to take; the packet stays in its buffer until then (R296) -/
  moving : SMap (List Load) := []
  /-- transit packets on their way across the spine for which the gate holds room, by VC (R316) -/
  coming : SMap Nat := []
  /-- packets waiting per VC, in the order in which they entered the gate -/
  waiting : SMap (List Waiting) := []
  /-- round-robin pointer of R298 over VC 0, 2, 4, 5, 6, 7 -/
  rr : Nat := 0
  nakPend : Bool := false
  nakSeq : BitVec 12 := 0
  nakId : BitVec 4 := 0
  /-- last sequence processed on VC5 -/
  dack : BitVec 12 := 0xFFF
  /-- NAKID last acted on, from the partner's control flits -/
  actedNak : BitVec 4 := 0
  /-- state of the partner's last counted control flit: ACK, DACK, OCC, LSTATE -/
  pack : BitVec 12 := 0xFFF
  pdack : BitVec 12 := 0xFFF
  pocc : SMap Nat := []
  pdrain : Bool := false
  prbEmpty : Bool := false
  pnarrow : Bool := false
  phalf : Bool := false
  /-- VC5 flits sent beyond DACK, by sequence -/
  dgOut : List (Nat × Nat) := []
  /-- control flits in succession whose CINDEX does not match (R286) -/
  cindexBad : Nat := 0
  /-- NARROW is advertised, and its half (R280) -/
  narrowReq : Bool := false
  narrowHalf : Bool := false
  /-- lanes judged failed by the own receiver -/
  failed : BitVec 8 := 0
  /-- HOLD causes: bit 0 region stop, bit 1 SIMMER -/
  holdWhy : Nat := 0
  /-- a disable accepted and not yet in effect (R281) -/
  disPend : Bool := false
  /-- LINK_TRAIN_FAIL already logged since the link was last UP or enabled -/
  trainLogged : Bool := false
  /-- 10 ms have passed since the link entered DOWN (the model's own field, for Table 9.3) -/
  rested : Bool := false
  /-- send templates (Table 4.16), 64 of 16 bytes, and their send counters -/
  tpl : SMap (BitVec 128) := []
  sent : SMap Nat := []
  /-- framing is lost at a bad header, and the data slot of the header that a NEXTHDR has located since (R289) -/
  lost : Bool := false
  hdrAt : Option Nat := none
  /-- the next slot to send, and the first slot not yet received, counted from entry to UP (R270) -/
  txSlot : Nat := 0
  rxSlot : Nat := 0
  /-- a control flit with NARROW has been sent since NARROW is advertised (R280) -/
  narrowSent : Bool := false
  /-- the NAK sequence of a replay requested in HOLD, to be sent when HOLD ends (R277) -/
  nakWait : Option (BitVec 12) := none
  /-- step 3 of a seam has found the accepted disable while the link was in HOLD (R281) -/
  disDue : Bool := false
  deriving DecidableEq, Repr

/-- Routing (10_fabric_and_partitions.md, Table 10.7). -/
structure Routing where
  chip : Nat := 0
  part : Nat := 0
  hopLimit : Nat := 0x20
  pdrop : Word := 0
  mdrop : Word := 0
  hopdrop : Word := 0
  hopdropSeen : Word := 0
  noexit : Word := 0
  dgwait : Word := 0
  mgmt : Word := 0
  unreach : BitVec 256 := 0
  /-- route entries, class × 256 + chip; reset 0x1F -/
  route : SMap (BitVec 15) := []
  deriving DecidableEq, Repr

/-! ### Clocks (12_clocks_and_references.md) -/

structure Clocks where
  primary : Nat := 0
  altFitted : Bool := false
  sel : Nat := 0
  present : BitVec 2 := 0
  suspect : BitVec 2 := 0
  holdover : Bool := false
  alarmAlt : Bool := false
  alarmPeer : Bool := false
  /-- decided and not complete: 1 changeover by the witnesses, 2 relock, 3 changeover away from a lost reference (CLK_REF.PENDING) -/
  pending : Nat := 0
  scPll : Bool := false
  altOff : BitVec 16 := 0
  altValid : Bool := false
  altRun : Nat := 0
  peerMed : BitVec 16 := 0
  peerValid : Bool := false
  peerRun : Nat := 0
  witnesses : Nat := 0
  grade : SMap Nat := []
  changeovers : Nat := 0
  stops : Word := 0
  trimBridge : SMap Nat := []
  trimStation : SMap Nat := []
  residual : SMap Int := []
  /-- quarters that owe a calibration stop after their next seam (R380), and those in a calibration or grade stop -/
  calDue : BitVec 4 := 0
  inStop : BitVec 4 := 0
  /-- grade to which a stopped quarter changes (R382) -/
  newGrade : SMap (Option Nat) := []
  /-- quarters stopped for the pending changeover, in the order in which they stopped -/
  stopped : List Nat := []
  deriving DecidableEq, Repr

/-! ### Power (13_power_and_states.md) -/

/-- A damper sink (R408 to R412), in 0.25 A units: its envelope, where the envelope is heading, and the steps of a quiet
interval still to come: down, held, up. -/
structure Sink where
  env : Nat := 0
  goal : Nat := 0
  down : Nat := 0
  hold : Nat := 0
  up : Nat := 0
  deriving DecidableEq, Repr

structure Power where
  dampHold : Bool := false
  dramp : Nat := 0x00D
  voffset : Nat := 0
  rll : Nat := 0
  tdn : Nat := 0x5F
  tup : Nat := 0x55
  raiseBeats : Nat := 0x40
  target : Nat := 0
  commanded : Nat := 0
  /-- code of the voltage last commanded on VDD_CORE, which a warm reset keeps (R426) -/
  coreCode : Nat := 0
  acked : Bool := false
  readback : Nat := 0
  amps : Nat := 0
  tq : SMap Int := []
  tm : Int := 0
  simmer : Bool := false
  sleeping : Bool := false
  cold : Bool := false
  fault : Bool := false
  cause : Nat := 0
  /-- quarters with a raise pending -/
  raise : BitVec 4 := 0
  therm : Bool := false
  status : Nat := 0
  device : Nat := 0
  grades : Word := 0
  simmers : Word := 0
  /-- STK_BEAT of the quarter's last grade change -/
  lastChange : SMap Word := []
  /-- sinks: 0 to 31 of the hobs, 32 to 35 the base sinks -/
  sinks : SMap Sink := []
  /-- an AVSBus write is outstanding; VDone has been seen; SlaveAcks in error in succession -/
  writing : Bool := false
  vdone : Bool := false
  naks : Nat := 0
  /-- PMBus address NAKs in succession, by device -/
  pmbNaks : SMap Nat := []
  /-- a causes mask of POWER_FAULT events logged -/
  logged : List Nat := []
  /-- SMBALERT_N asserted -/
  smbalert : Bool := false
  /-- THERMTRIP_N asserted (R406) -/
  trip : Bool := false
  /-- rails that are on, in the order of Table 13.1 -/
  rails : BitVec 10 := 0x3FF
  /-- regulator map: address, page, rails fed (R397) -/
  regs : List (Nat × Nat × Nat) := []
  avsSel : Nat := 0
  /-- a wake event of R278 has come during SIMMER -/
  wakeEvt : Bool := false
  /-- the exit from SIMMER is decided: the quarters that resume at G7 (R419) -/
  exiting : Option (BitVec 4) := none
  /-- rails still to be switched, in order, and whether they are turned on (R542, R543) -/
  railSeq : List Nat := []
  railOn : Bool := false
  /-- the power state entered: 0 RUN or SIMMER, 1 BANKED, 2 COLD -/
  bank : Nat := 0
  /-- part is without power (R544) -/
  off : Bool := false
  deriving DecidableEq, Repr

/-! ### Boot and deploy (14_boot_and_configuration.md) -/

/-- A slot of the fuse ledger (R456). -/
structure LSlot where
  burned : Bool := false
  check : Nat := 0
  value : Bytes := []
  deriving DecidableEq, Repr

/-- The answer to a deploy request: DOMAIN, CODE and VALUE of Table 14.10. -/
structure DResult where
  dom : Nat := 0
  code : Nat := 0
  value : Nat := 0
  deriving DecidableEq, Repr

/-- An accepted deploy message whose reply is still to be sent: the requests not yet judged (RTYPE and body), and the
results by index, `none` for one started and not yet answered (R447, R448). -/
structure DMsg where
  dseq : Nat
  /-- MSTATUS (Table 14.8); not 0 for a refused message, which has no results (R448) -/
  mstatus : Nat := 0
  reqs : List (Nat × Bytes) := []
  results : List (Option DResult) := []
  /-- a RESTART of this message has been accepted (R454) -/
  restart : Bool := false
  /-- internal receive of the deploy buffer that holds the message (R443) -/
  buf : Nat := 0
  /-- the session of the message has ended; its reply is lost with it -/
  lost : Bool := false
  deriving DecidableEq, Repr

structure Boot where
  /-- last step of Table 14.5 completed -/
  step : Nat := 0
  copy : Nat := 0
  diverged : Bool := false
  unprov : Bool := false
  failed : Bool := false
  /-- CAUSE of BOOT_CAUSE -/
  cause : Nat := 0
  gen : Nat := 0
  verdictA : Nat := 7
  verdictB : Nat := 7
  rtypeA : Nat := 0
  rtypeB : Nat := 0
  genA : Nat := 0
  genB : Nat := 0
  sfdp : Bool := false
  quad : Bool := false
  addr4 : Bool := false
  hdr : Bool := false
  size : Nat := 0
  /-- reservations of the copies: offset and size (R430) -/
  resA : Nat × Nat := (0, 0)
  resB : Nat × Nat := (0, 0)
  /-- records of the booted copy, in their order: TYPE and value (R436, R439) -/
  conf : List (Nat × Bytes) := []
  /-- slots of the ledger, 8 × setting + slot (R456) -/
  ledger : SMap LSlot := []
  /-- values in force, fixed at step 1 (R456) -/
  keyHash : Option Bytes := none
  pinPart : Option Nat := none
  pinChip : Option Nat := none
  dbgLocked : Bool := false
  /-- a burn in progress: setting, slot and value (R457, R459) -/
  burning : Option (Nat × Nat × Bytes) := none
  /-- ETH_WAIT has been logged at this bring-up (R442) -/
  ethWait : Bool := false
  /-- the part is held in reset by COLD_RESET_N (bit 0) or WARM_RESET_N (bit 1); at power-up COLD_RESET_N is held (R541) -/
  held : BitVec 2 := 1
  /-- DPL_STAT.SESSION -/
  session : Nat := 0
  nonce : Bytes := []
  dseq : Nat := 0
  /-- pending digests by DSEQ (R451) -/
  digests : List (Nat × Bytes) := []
  msgs : Word := 0
  refused : Word := 0
  /-- messages that wait in the deploy buffer to be judged, oldest first, with their internal receive -/
  inbox : List (Nat × Bytes) := []
  /-- requests started and not yet answered: kind (0 LOAD, 1 REG_REMOVE), entry or region index, DSEQ, index (R447) -/
  waits : List (Nat × Nat × Nat × Nat) := []
  /-- accepted messages whose replies are still to be sent, oldest first -/
  work : List DMsg := []
  /-- internal receives in use (R443) -/
  bufs : BitVec 2 := 0
  /-- a RESTART waits for the acknowledgement of the PSN of its reply (R454) -/
  restart : Option Nat := none
  deriving DecidableEq, Repr

/-! ### Transport (11_beyfatre_transport.md) -/

/-- A region registration (R359, Table 11.15). -/
structure Region where
  gen : Nat := 0
  /-- a registration stands at this index -/
  reg : Bool := false
  /-- 0 CLOSED, 1 VALID, 2 CLOSING -/
  state : Nat := 0
  tenant : Nat := 0
  pd : Nat := 0
  base : Nat := 0
  len : Nat := 0
  put : Bool := false
  get : Bool := false
  loc : Bool := false
  cntEn : Bool := false
  cnt : Nat := 0
  deriving DecidableEq, Repr

/-- An outstanding operation of a queue pair (R347): its work request, its PSNs, the packets that have left at least
once, the responses placed, and whether it has completed. -/
structure TOp where
  /-- number of the operation, also the TAG of a PREFETCH -/
  id : Nat := 0
  raw : Bytes := []
  psn : Word := 0
  n : Nat := 0
  /-- packets started, packets of the prefix that has left the port, GETRSPs placed -/
  sent : Nat := 0
  gone : Nat := 0
  placed : Nat := 0
  done : Bool := false
  /-- its PSNs count as acknowledged (R370) -/
  acked : Bool := false
  /-- the bytes of a SEND of the service core on queue pair 0 (R444, R448) -/
  own : Bytes := []
  deriving DecidableEq, Repr

/-- Where the rest of the message that a queue pair is receiving goes. -/
inductive RxTo
  /-- receive number `id` -/
  | recv (id : Nat)
  /-- message `id` of the unexpected pool -/
  | pool (id : Nat)
  /-- internal receive of queue pair 0 -/
  | deploy (buf : Nat)
  /-- nowhere: its receive has completed with an error -/
  | drop
  deriving DecidableEq, Repr

structure Qp where
  /-- Table 11.6 -/
  state : Nat := 0
  tenant : Nat := 0
  pd : Nat := 0
  part : Nat := 0
  iface : Nat := 0
  ipv6 : Bool := false
  peerIp : Nat := 0
  peerQp : Option Nat := none
  ipsn : Word := 0
  /-- the peer was bound at creation, and its IPSN declared -/
  boundPeer : Bool := false
  declared : Bool := false
  matchlist : Nat := 0
  sqbase : Nat := 0
  sqdepth : Nat := 0
  scq : Nat := 0
  rcq : Nat := 0
  dscp : Nat := 0
  /-- the attribute, and the value in use (R343) -/
  paylog0 : Nat := 0
  paylog : Nat := 0
  rto : Nat := 0
  retry : Nat := 0
  rnrRetry : Nat := 0
  rnrDelay : Nat := 0
  npsn : Word := 0
  epsn : Word := 0
  una : Word := 0
  retries : Nat := 0
  rnrs : Nat := 0
  errcode : Nat := 0
  /-- work requests waiting in the ring, oldest first, and the count ever posted -/
  sq : List Bytes := []
  sqTail : Nat := 0
  ops : List TOp := []
  /-- the PSN for which a sequence NAK has been sent in this gap (R366) -/
  gapNak : Bool := false
  /-- packets accepted since the last ACK (R367) -/
  sinceAck : Nat := 0
  /-- packets are discarded until this PSN arrives again (R350) -/
  rnrPsn : Option Word := none
  rx : Option RxTo := none
  /-- an RNR NAK's CPSN, until RNR_DELAY has passed (R368) -/
  rnrWait : Option Word := none
  /-- CONNECTs that have gone unanswered (Table 11.6) -/
  connTries : Nat := 0
  /-- initial PSN and PAYLOG of the CONNECT that bound the queue pair (R343) -/
  boundBy : Option (Word × Nat) := none
  deriving DecidableEq, Repr

/-- A posted receive (Table 11.8), on a match list or matched to a message. -/
structure Recv where
  id : Nat
  qpn : Nat
  list : Nat
  raw : Bytes
  /-- matched: the message's TAG and MLEN and its first PSN, bytes kept, and the completion status -/
  tag : Nat := 0
  mlen : Nat := 0
  psn : Word := 0
  status : Nat := 0
  /-- every byte kept is placed, or an error ends it -/
  ready : Bool := false
  deriving DecidableEq, Repr

/-- A message in the unexpected pool (R350). -/
structure PoolMsg where
  id : Nat
  tenant : Nat
  list : Nat
  tag : Nat
  mlen : Nat
  psn : Word
  blocks : List Nat
  /-- LAST has arrived -/
  last : Bool := false
  /-- the receive that matched it -/
  recv : Option Nat := none
  deriving DecidableEq, Repr

/-- An Ethernet interface (R335, Table 11.16). -/
structure Iface where
  mode : Nat := 0
  up : Bool := false
  vlanEn : Bool := false
  vid : Nat := 0
  mac : Nat := 0
  v4 : Option Nat := none
  v6 : Option Nat := none
  ttl : Nat := 0
  gateway : Nat := 0
  /-- neighbour table: IP version, address, MAC -/
  nbrs : List (Nat × Nat × Nat) := []
  rxfrm : Word := 0
  txfrm : Word := 0
  fcs : Word := 0
  pause : Word := 0
  txdrop : Word := 0
  deriving DecidableEq, Repr

structure Transport where
  port : Nat := 0x166C
  pool : Nat := 0
  drophdr : Word := 0
  droptag : Word := 0
  rnr : Word := 0
  retx : Word := 0
  cqdrop : Word := 0
  trigref : Word := 0
  /-- trigger counters (R362) -/
  cnt : SMap Word := []
  qps : SMap Qp := []
  regions : SMap Region := []
  /-- receives on match lists in posting order, and those matched -/
  recvs : List Recv := []
  matched : List Recv := []
  /-- triggered entries in posting order: queue pair and line (R363) -/
  trigs : List (Nat × Bytes) := []
  msgs : List PoolMsg := []
  /-- counters changed and not yet judged against the triggered entries (R363) -/
  chg : List (Nat × Word) := []
  ifaces : SMap Iface := []
  nextId : Nat := 0
  /-- statuses that have come home to the transport within the command: TAG and status (R301, R356) -/
  home : List (Nat × Nat) := []
  deriving DecidableEq, Repr

/-! ### The whole part -/

/-- What leaves the part, as the model records it (the model's own field; no rule of the spec). -/
inductive Out
  /-- the flit in slot `n` of a link -/
  | flit (link n : Nat) (b : Bytes)
  /-- a training frame on a logical lane -/
  | lane (link lane : Nat) (b : Bytes)
  | bytes (what : String) (b : Bytes)
  /-- an Ethernet frame with its frame check sequence -/
  | frame (iface : Nat) (b : Bytes)
  deriving DecidableEq, Repr

/-- A command that stops with a fault. The spec describes every stop of the part as a state of the part
(a skipped slot, a refusal code, fatal stop), so no command of this model faults; the constructor keeps the type inhabited. -/
inductive Fault
  /-- Raised by no command. -/
  | none
  deriving DecidableEq, Repr

/-- A command without a meaning. -/
inductive Refusal
  /-- Raised by an arm of exec whose command has no meaning yet; safe: the run stops there. -/
  | notModelled (mnemonic : String)
  deriving DecidableEq, Repr

/-- The part. -/
structure State where
  hobs : SMap Hob := []
  ranges : SMap Range := []
  gates : SMap Gate := []
  /-- HBM from address 0 and hob SRAM at their local addresses (Table 16.1); an unlisted byte reads 0 (log 5, DESIGN CHOICE) -/
  mem : List Host.Cell := []
  /-- poison marks of hob SRAM lines, by line address (R263) -/
  linePoi : SMap Bool := []
  stk : Stoker := {}
  flg : Flags := {}
  tenants : List Tenant := []
  shared : List Area := []
  /-- areas of aborted tenants that wait for their regions to close (R374) -/
  leaving : List Area := []
  /-- staging blocks by address ÷ 64 KiB: state (0 EMPTY, 1 PROVISIONAL, 2 CONFIRMED) and fill mask (R251) -/
  stage : SMap (Nat × Nat) := []
  /-- lines of staging blocks filled by VC5 writes since the block was empty, by line number (R251) -/
  stageFill : SMap Bool := []
  /-- loads that have reached the mantel and wait to be performed there (R80) -/
  mantel : List Load := []
  /-- acknowledgements and answers that wait at the mantel for the spine -/
  mantelOut : List Load := []
  /-- Fenxia requests under way inside the part -/
  remote : SMap Remote := []
  nextRemote : Nat := 0
  /-- the stop that the spine served last (R102): 0 to 3 the quarters, 4 the mantel -/
  spineLast : Nat := 4
  /-- packets that units of the part have addressed to the part itself, within the command (R308) -/
  loopback : List Packet := []
  svc : Service := {}
  com : Common := {}
  tap : Tap := {}
  rt : Routing := {}
  clk : Clocks := {}
  pwr : Power := {}
  boot : Boot := {}
  trn : Transport := {}
  /-- number of free values taken so far -/
  fresh : Nat := 0
  out : List Out := []
  pending : List Instr := []
  deriving DecidableEq, Repr

/-- The part right after reset, with COLD_RESET_N asserted (R541): every field at the value that INVENTORY.md gives it.
Log 6, DESIGN CHOICE; log 47, DEDUCED; log 142, DESIGN CHOICE. -/
def State.reset : State := {}

end Sys2Proof.Machine
end

