-- ==== Sys2Proof/Machine/Ops.lean ====
section
/-! DEFINITION. The named operations over the state: sparse maps, memory, poison marks, fault logs, and the accessors of
hobs, ranges and gates. -/
namespace Sys2Proof.Machine

/-! ### Sparse maps -/

/-- The value at key `k`, `d` where no entry lists it. -/
def get {α : Type} (d : α) (k : Nat) : SMap α → α
  | [] => d
  | (j, v) :: r => if k = j then v else if k < j then d else get d k r
/-- Sets key `k`; the default value leaves no entry. -/
def put {α : Type} [DecidableEq α] (d : α) (k : Nat) (v : α) : SMap α → SMap α
  | [] => if v = d then [] else [(k, v)]
  | (j, w) :: r =>
    if k < j then (if v = d then (j, w) :: r else (k, v) :: (j, w) :: r)
    else if k = j then (if v = d then r.dropWhile (fun e => e.1 ≤ k) else (k, v) :: r)
    else (j, w) :: put d k v r
/-- Updates key `k` by a function. -/
def upd {α : Type} [DecidableEq α] (d : α) (k : Nat) (f : α → α) (m : SMap α) : SMap α := put d k (f (get d k m)) m
/-- The canonical form: keys rise strictly and no listed value is the default. -/
def SMapWf {α : Type} [DecidableEq α] (d : α) : SMap α → Bool
  | [] => true
  | [(_, v)] => decide (v ≠ d)
  | (j, v) :: (k, w) :: r => decide (v ≠ d) && decide (j < k) && SMapWf d ((k, w) :: r)

/-! ### Memory: HBM and hob SRAM by local address (Table 16.1) -/

/-- What an unlisted byte reads as (assumption log 5). -/
def memDefault : Byte := 0
/-- The canonical form of memory. -/
abbrev Memory.wf (m : List Host.Cell) : Bool := SMapWf memDefault m
def readByte (m : List Host.Cell) (a : Nat) : Byte := get memDefault a m
def writeByte (m : List Host.Cell) (a : Nat) (b : Byte) : List Host.Cell := put memDefault a b m
/-- `n` bytes from address `a` on. -/
def readBytes (m : List Host.Cell) (a : Nat) : Nat → Bytes
  | 0 => []
  | n + 1 => readByte m a :: readBytes m (a + 1) n
/-- Writes bytes from address `a` on. -/
def writeBytes (m : List Host.Cell) (a : Nat) : Bytes → List Host.Cell
  | [] => m
  | b :: r => writeBytes (writeByte m a b) (a + 1) r

/-- Base of the SRAM window of hob `h`. -/
def sramBase (h : Nat) : Nat := 0xE000000000 + h * 0x800000
/-- Local address of SRAM line `l` of hob `h`. -/
def lineAddr (h l : Nat) : Nat := sramBase h + 64 * l
/-- Lines of a hob's SRAM. -/
def sramLines : Nat := 98304
/-- Bytes of HBM of one quarter. -/
def hbmQuarter : Nat := 0x240000000
/-- Base of the HBM of quarter `q`. -/
def hbmBase (q : Nat) : Nat := q * hbmQuarter

/-! ### Blocks of 256 bytes -/

def lanesOf (b : Bytes) : Lanes := Vector.ofFn fun i => BitVec.ofNat 32 (le b (4 * i.val) 4)
def bytesOf (l : Lanes) : Bytes := l.toList.flatMap fun w => toBytes 4 w.toNat
/-- Byte `b` of a block. -/
def laneByte (l : Lanes) (b : Nat) : Nat := field (l.toList.getD (b / 4) 0).toNat (8 * (b % 4)) 8
def zeroLanes : Lanes := Vector.replicate 64 0
/-- The same mark for each of the four lines. -/
def allPoi (b : Bool) : BitVec 4 := if b then 0xF else 0
/-- Marks of lines from a list, line 0 first. -/
def poiOf (l : List Bool) : BitVec 4 :=
  BitVec.ofNat 4 ((if l.getD 0 false then 1 else 0) + (if l.getD 1 false then 2 else 0) + (if l.getD 2 false then 4 else 0) + (if l.getD 3 false then 8 else 0))
def poiList (p : BitVec 4) : List Bool := (List.range 4).map fun i => p.getLsbD i

/-! ### Accessors -/

def State.hob (s : State) (h : Nat) : Hob := get {} h s.hobs
def State.setHob (s : State) (h : Nat) (x : Hob) : State := { s with hobs := put {} h x s.hobs }
def State.range (s : State) (q : Nat) : Range := get {} q s.ranges
def State.setRange (s : State) (q : Nat) (x : Range) : State := { s with ranges := put {} q x s.ranges }
def State.gate (s : State) (n : Nat) : Gate := get {} n s.gates
def State.setGate (s : State) (n : Nat) (x : Gate) : State := { s with gates := put {} n x s.gates }
/-- Log 136, DESIGN CHOICE. -/
def State.emit (s : State) (o : Out) : State := { s with out := s.out ++ [o] }
def Hob.gen (x : Hob) (g : Nat) : Gen := get {} g x.gens
def Hob.setGen (x : Hob) (g : Nat) (y : Gen) : Hob := { x with gens := put {} g y x.gens }
def Hob.vreg (x : Hob) (v : Nat) : VReg := get {} v x.vregs
def Hob.setVreg (x : Hob) (v : Nat) (y : VReg) : Hob := { x with vregs := put {} v y x.vregs }
def Range.mover (x : Range) (m : Nat) : Mover := get {} m x.movers
def Range.setMover (x : Range) (m : Nat) (y : Mover) : Range := { x with movers := put {} m y x.movers }

/-- BEAT_LEN (R156). -/
def State.beatLen (s : State) : Nat := 1024 * s.stk.beatK
/-- Cycle S, the first of the seam (R157). -/
def State.seamCyc (s : State) : Nat := s.beatLen - 1024

/-- Quarter `q` stands stopped and waits for the pending changeover or relock, or in SIMMER (R390). -/
def State.waitsChange (s : State) (q : Nat) : Bool := (s.range q).halted && (s.clk.stopped.contains q || !s.clk.inStop.getLsbD q)
/-- The mantel is stopped for a changeover or relock (R390): the stoker, the transport engine and the Ethernet MACs do nothing. Log 38, DEDUCED; log 125, DEDUCED. -/
def State.mantelOff (s : State) : Bool := decide (s.clk.pending ≠ 0) && (List.range 4).all fun q => s.waitsChange q
/-- What the end of a wall-time count of R384 does: nothing while a region is stopped for a region stop, the mantel among them, for the count is
suspended. Log 127, DEDUCED. -/
def State.counted (s t : State) : State := if s.clk.inStop = 0 ∧ s.mantelOff = false then t else s
/-- The service core runs on MCK ÷ 2, and not on the internal oscillator (R394): SC_PLL. -/
def State.onPll (s : State) : Bool := s.clk.scPll && !s.mantelOff
/-- What the end of a wall-time count of the service core does: nothing while the service core runs on the internal oscillator, for the count is held (R394). -/
def State.timed (s t : State) : State := if s.onPll then t else s

/-- A line of hob SRAM with its mark. -/
def State.sramLine (s : State) (h l : Nat) : Bytes × Bool :=
  (readBytes s.mem (lineAddr h l) 64, get false (lineAddr h l) s.linePoi)
/-- Writes one line of hob SRAM with its mark. -/
def State.setSramLine (s : State) (h l : Nat) (b : Bytes) (p : Bool) : State :=
  { s with mem := writeBytes s.mem (lineAddr h l) (fit 64 b), linePoi := put false (lineAddr h l) p s.linePoi }
/-- Writes consecutive 64-byte pieces of `data` to the lines listed. -/
def State.setSramLines (s : State) (h : Nat) : List Nat → Bytes → List Bool → State
  | [], _, _ => s
  | l :: r, d, p => State.setSramLines (s.setSramLine h l (d.take 64) (p.headD false)) h r (d.drop 64) p.tail

/-- Station of hob index i of a range (Table 3.1). -/
def hobStation (i : Nat) : Nat := if i < 4 then i + 1 else i + 2

/-! ### Fault logs (R147 to R154) -/

/-- Places an entry among those that its log gained in the same cycle: in slot order, behind an entry of the same slot (R153). -/
def insertFault (e : FaultEntry) : List FaultEntry → List FaultEntry
  | [] => [e]
  | x :: r => if x.slot ≤ e.slot then x :: insertFault e r else e :: x :: r
/-- Adds an entry to a fault log whose last entries `now` were written in the same cycle: the entries of the cycle stand in slot order,
and the k-th entry of the log is at position k mod 64 (R153). -/
def FaultLog.add (l : FaultLog) (now : List FaultEntry) (e : FaultEntry) : FaultLog :=
  let base := (l.total - BitVec.ofNat 32 now.length).toNat
  { total := l.total + 1,
    ovf := if 64 ≤ l.total.toNat ∨ l.ovf > 0 then min (l.ovf + 1) 0xFFFFFFFF else l.ovf,
    ent := (insertFault e now).zipIdx.foldl (fun m p => put {} ((base + p.2) % 64) p.1 m) l.ent }

end Sys2Proof.Machine
end

