-- ==== Sys2Proof/Machine/Operands.lean ====
section
/-! DEFINITION. The slots of a bundle, their legal values (04_bundles.md, R107, R108, R114, R118), and the address
generators (02_the_hob.md, R60 to R64). -/
namespace Sys2Proof.Machine

/-! ### Slots of a bundle (Table 4.1) -/

def slotM (b : Nat) : Nat := field b 0 40
def slotV (b : Nat) : Nat := field b 40 40
def slotL0 (b : Nat) : Nat := field b 80 20
def slotL1 (b : Nat) : Nat := field b 100 20
def slotS (b : Nat) : Nat := field b 120 20
def slotT (b : Nat) : Nat := field b 140 24
def slotC (b : Nat) : Nat := field b 164 28
def slotH (b : Nat) : Nat := field b 192 24
def slotG (b : Nat) : Nat := field b 216 20
def slotQ (b : Nat) : Nat := field b 236 20
/-- Bits [191:0], the hob portion. -/
def hobPortion (b : Nat) : Nat := field b 0 192
/-- Bits [255:192] of a local-store bundle (Table 4.18). -/
def localField (b : Nat) : Nat := field b 192 64
/-- Slot `i` of a hob portion, in the order M, V, L0, L1, S, T, C. -/
def hobSlot (b i : Nat) : Nat :=
  match i with
  | 0 => slotM b | 1 => slotV b | 2 => slotL0 b | 3 => slotL1 b | 4 => slotS b | 5 => slotT b | _ => slotC b

/-! ### Load and store slots (Table 4.3) -/

def lsOp (x : Nat) : Nat := field x 0 2
def lsWidth (x : Nat) : Nat := field x 2 2
/-- Lines of the access: 1, 2 or 4. -/
def lsLines (x : Nat) : Nat := 2 ^ lsWidth x
def lsAdv (x : Nat) : Bool := x.testBit 4
def lsVreg (x : Nat) : Nat := field x 5 5
def lsPos (x : Nat) : Nat := field x 10 2
/-- A legal L0 or L1 slot (R108, R114). -/
def loadLegal (x : Nat) : Bool :=
  match lsOp x with
  | 0 => x == 0
  | 1 => lsWidth x ≤ 2 && field x 12 8 == 0 && lsPos x + lsLines x ≤ 4
  | 2 => lsWidth x ≤ 2 && field x 12 8 == 0 && lsVreg x == 0 && lsPos x == 0
  | _ => false
/-- A legal S slot. -/
def storeLegal (x : Nat) : Bool :=
  match lsOp x with
  | 0 => x == 0
  | 1 => lsWidth x ≤ 2 && field x 12 8 == 0 && lsPos x + lsLines x ≤ 4
  | _ => false

/-! ### Slot M (Tables 4.4 to 4.7) -/

def mAop (x : Nat) : Nat := field x 0 3
def mSfmt (x : Nat) : Nat := field x 3 2
def mAfp8 (x : Nat) : Nat := field x 5 1
def mAsrc (x : Nat) : Bool := x.testBit 6
def mAvreg (x : Nat) : Nat := field x 7 5
def mApos (x : Nat) : Nat := field x 12 2
def mOver (x : Nat) : Bool := x.testBit 14
def mEmode (x : Nat) : Bool := x.testBit 15
def mEntry (x : Nat) : Nat := field x 16 9
def mSset (x : Nat) : Nat := field x 25 4
def mStart (x : Nat) : Nat := field x 3 9
def mWrap (x : Nat) : Nat := field x 12 10
def mPl (x : Nat) : Bool := x.testBit 29
def mWord (x : Nat) : Nat := field x 30 5
def mPfmt (x : Nat) : Nat := field x 35 3
def mWadv (x : Nat) : Bool := x.testBit 38
def mAsld (x : Nat) : Bool := x.testBit 39
/-- Format class of a plane tag or format code (R49): 0 FP8, 1 INT8, 2 MXFP4, 3 bfloat16. -/
def fmtClass (f : Nat) : Nat := match f with | 0 => 0 | 1 => 0 | 2 => 1 | 3 => 2 | _ => 3
/-- Plane words of a format code (Table 2.2). -/
def planeWords (f : Nat) : Nat := match f with | 3 => 17 | 4 => 32 | _ => 16
/-- A legal array operation: every field it does not use is zero (R108). -/
def arrayLegal (x : Nat) : Bool :=
  let low := field x 0 29
  match mAop x with
  | 0 => low == 0
  | 1 => (mSfmt x == 0 || mAfp8 x == 0) && (mAsrc x || (mAvreg x == 0 && mApos x == 0))
      && (!mAsrc x || mSfmt x != 3 || mApos x ≤ 1) && (!mEmode x || mEntry x == 0) && (mSfmt x == 2 || mSset x == 0)
  | 2 => low == 2
  | 3 => field x 3 4 == 0 && field x 14 15 == 0
  | 4 => field x 3 4 == 0 && field x 12 3 == 0 && field x 25 4 == 0 && (!mEmode x || mEntry x == 0)
  | 5 => field x 3 12 == 0 && field x 25 4 == 0 && (!mEmode x || mEntry x == 0)
  | 6 => 1 ≤ mWrap x && mWrap x ≤ 512 && mStart x < mWrap x && field x 22 7 == 0
  | _ => false
/-- A legal plane-load subfield. -/
def planeLoadLegal (x : Nat) : Bool :=
  if mPl x then mPfmt x ≤ 4 && mWord x < planeWords (mPfmt x) else mWord x == 0 && mPfmt x == 0 && !mWadv x
def mLegal (x : Nat) : Bool := arrayLegal x && planeLoadLegal x

/-! ### Slot V (Tables 4.8, 4.9) -/

def vOp (x : Nat) : Nat := field x 0 5
def vD (x : Nat) : Nat := field x 5 5
def vA (x : Nat) : Nat := field x 10 5
def vB (x : Nat) : Nat := field x 15 5
def vC (x : Nat) : Nat := field x 20 5
def vNA (x : Nat) : Bool := x.testBit 25
def vNB (x : Nat) : Bool := x.testBit 26
def vNC (x : Nat) : Bool := x.testBit 27
def vSat (x : Nat) : Bool := x.testBit 28
def vPos (x : Nat) : Nat := field x 29 3
def vFmt (x : Nat) : Nat := field x 32 4
/-- A conversion position and format in range (Table 2.5, Table 4.7). -/
def cvtPosLegal (x : Nat) : Bool :=
  match vFmt x with
  | 0 => vPos x ≤ 3 | 1 => vPos x ≤ 3 | 2 => vPos x ≤ 3 | 3 => true | 4 => vPos x ≤ 1 | _ => false
/-- A legal V slot: unused operand fields are zero (R108), negation bits only where Table 4.8 names them (R118). -/
def vLegal (x : Nat) : Bool :=
  let o := vOp x
  let noCvt := field x 28 8 == 0
  field x 36 4 == 0 &&
  if o = 0 then x == 0
  else if o = 3 then noCvt                                        -- FMA: A, B, C
  else if o = 1 ∨ o = 2 ∨ (4 ≤ o ∧ o ≤ 9) then noCvt && vC x == 0 && !vNC x
  else if o = 0x0A then noCvt && !vNC x                           -- SEL: A, B, C
  else if (0x0B ≤ o ∧ o ≤ 0x11) ∨ o = 0x14 then noCvt && vB x == 0 && vC x == 0 && !vNB x && !vNC x
  else if o = 0x12 then cvtPosLegal x && vB x == 0 && (vFmt x == 3 || vC x == 0) && !vNB x && !vNC x && (vFmt x ≤ 1 || !vSat x)
  else if o = 0x13 then cvtPosLegal x && vB x == 0 && (vFmt x == 3 || vC x == 0) && !vNA x && !vNB x && !vNC x && !vSat x
  else false
/-- Result offset of a V operation (Table 4.9). -/
def vOffset (o : Nat) : Nat := if o = 3 then 6 else if 0x0B ≤ o ∧ o ≤ 0x11 then 10 else 5

/-! ### Slot T (Tables 4.10, 4.11) -/

def tTop (x tap : Nat) : Nat := if tap = 0 then field x 0 3 else field x 10 3
def tLoop (x tap : Nat) : Nat := if tap = 0 then field x 3 1 else field x 13 1
def tIdx (x tap : Nat) : Nat := if tap = 0 then field x 4 5 else field x 14 5
def tAdv (x tap : Nat) : Bool := if tap = 0 then x.testBit 9 else x.testBit 19
def tFmt (x : Nat) : Nat := field x 20 3
def tapLegal (x tap : Nat) : Bool :=
  match tTop x tap with
  | 0 => tLoop x tap == 0 && tIdx x tap == 0 && !tAdv x tap
  | 1 => tIdx x tap == 0
  | 2 => tFmt x ≤ 4 && tIdx x tap < planeWords (tFmt x) && !tAdv x tap
  | 3 => !tAdv x tap
  | 4 => tIdx x tap == 0
  | 5 => !tAdv x tap
  | _ => false
def tLegal (x : Nat) : Bool :=
  tapLegal x 0 && tapLegal x 1 && !x.testBit 23 && (tTop x 0 == 2 || tTop x 1 == 2 || tFmt x == 0)
def tapIn (top : Nat) : Bool := top == 1 || top == 2 || top == 3
def tapOut (top : Nat) : Bool := top == 4 || top == 5

/-! ### Slot C (Tables 4.12, 4.13) -/

def cMark (x : Nat) : Nat := field x 0 2
def cOp (x : Nat) : Nat := field x 2 4
def cA (x : Nat) : Nat := field x 6 17
def cGen (x : Nat) : Nat := field x 6 2
def cReg (x : Nat) : Nat := field x 8 5
def cVlo (x : Nat) : Nat := field x 13 15
/-- The writable bits of a generator register by GSET number (Tables 2.14 to 2.16); 0 for a reserved number. -/
def genMask (r : Nat) : Nat :=
  match r with
  | 0 => 0x1FFFF | 1 => 0x7FFF3 | 2 => 0x1FFFF
  | 3 => 0xFFFF | 4 => 0xFFFF | 5 => 0xFFFF | 6 => 0xFFFF | 7 => 0xFFFF
  | 8 => 0x3FFFF | 9 => 0x3FFFF | 10 => 0x3FFFF | 11 => 0x3FFFF | 12 => 0x3FFFF
  | 13 => 0x1FFF1FFF | 14 => 0xFFFFFF | 15 => 0x3FFFF | 16 => 0x3FFFF | 17 => 0x3FFFF
  | _ => 0
/-- The value a GSET writes. -/
def gsetValue (x cx : Nat) : Nat := cx % 2 ^ 17 * 2 ^ 15 + cVlo x
/-- A legal C slot with the prefix register `cx` (R108, R121, R122). -/
def cLegal (x cx : Nat) : Bool :=
  match cOp x with
  | 0 => field x 6 22 == 0
  | 1 => true
  | 2 => cA x < sramLines && field x 23 5 == 0 && cx / 2 ^ 17 == 0
  | 3 => cReg x ≤ 17 && cx / 2 ^ 17 == 0 && (gsetValue x cx ||| genMask (cReg x)) == genMask (cReg x)
  | 4 => field x 8 20 == 0
  | _ => false

/-! ### Slots H, G and Q (Tables 4.14, 4.15, 4.17), local sequencing field (Table 4.18) -/

def hGop (x : Nat) : Nat := field x 0 2
def hPc (x : Nat) : Nat := field x 2 3
def hTpl (x : Nat) : Nat := field x 5 6
def hAr (x : Nat) : Nat := field x 11 2
def hAdv (x : Nat) : Bool := x.testBit 13
def hBop (x : Nat) : Nat := field x 14 2
def hLoop (x : Nat) : Nat := field x 16 1
def hSlot (x : Nat) : Nat := field x 17 7
/-- Slot H is one slot: an illegal field anywhere makes all of it illegal (R108). -/
def hLegal (x : Nat) : Bool :=
  hGop x ≤ 1 && hBop x ≤ 2 && (hGop x == 1 || field x 2 12 == 0) && (hBop x != 0 || field x 16 8 == 0)
def gOp (x : Nat) : Nat := field x 0 3
def gGate (x : Nat) : Nat := field x 3 3
def gLoop (x : Nat) : Nat := field x 6 1
def gTpl (x : Nat) : Nat := field x 7 6
def gMover (x : Nat) : Nat := field x 3 3
def gW (x : Nat) : Nat := 2 * field x 6 13
def gLegal (x : Nat) : Bool :=
  match gOp x with
  | 0 => x == 0
  | 1 => gGate x ≤ 4 && field x 13 7 == 0
  | 2 => !x.testBit 19
  | _ => false
def qOp (x : Nat) : Nat := field x 0 4
def qImm (x : Nat) : Nat := field x 4 16
def qCtr (x : Nat) : Nat := field x 17 3
/-- A legal Q slot with the prefix register `qx` (Table 4.17). -/
def qLegal (x qx : Nat) : Bool :=
  match qOp x with
  | 0 => qImm x == 0
  | 1 => true
  | 2 => qx / 2 ^ 11 == 0
  | 3 => field (qImm x) 0 13 != 0
  | 4 => true
  | 5 => true
  | 6 => field (qImm x) 14 2 ≤ 1
  | 7 => true
  | 8 => qImm x == 0
  | 9 => qx / 2 ^ 8 == 0
  | _ => false
/-- Does the operation consume QX (Table 4.17)? -/
def qConsumes (x : Nat) : Bool :=
  match qOp x with
  | 2 => true | 7 => true | 9 => true | 6 => field (qImm x) 14 2 == 1 | _ => false
def lqOp (x : Nat) : Nat := field x 0 4
def lqCtr (x : Nat) : Nat := field x 4 2
def lqImm (x : Nat) : Nat := field x 6 16
def lqLegal (x : Nat) : Bool :=
  field x 22 42 == 0 &&
  match lqOp x with
  | 0 => x == 0
  | 1 => true
  | 2 => 1 ≤ lqImm x && lqImm x ≤ 511
  | 3 => -511 ≤ signed 16 (lqImm x) && signed 16 (lqImm x) ≤ 511
  | 4 => lqCtr x == 0 && -511 ≤ signed 16 (lqImm x) && signed 16 (lqImm x) ≤ 511
  | _ => false

/-! ### Address generators (R60 to R64) -/

def Gen.r (g : Gen) (n : Nat) : Nat := (get 0 n g.reg).toNat
def Gen.base (g : Gen) : Nat := field (g.r 0) 0 17
def Gen.window (g : Gen) : Bool := (g.r 1).testBit 0
def Gen.wrapEn (g : Gen) : Bool := (g.r 1).testBit 1
def Gen.dim (g : Gen) (i : Nat) : Nat := field (g.r 1) (4 + 3 * i) 3
def Gen.wrapLen (g : Gen) : Nat := field (g.r 2) 0 17
def Gen.count (g : Gen) (i : Nat) : Nat := field (g.r (3 + i)) 0 16
def Gen.stride (g : Gen) (i : Nat) : Int := signed 18 (g.r (8 + i))
def Gen.index (g : Gen) (i : Nat) : Nat := get 0 i g.idx
def Gen.w (g : Gen) : Nat := field (g.r 13) 0 13
def Gen.h (g : Gen) : Nat := field (g.r 13) 16 13
def Gen.step4 (g : Gen) (lo : Nat) : Nat := field (g.r 14) lo 4
/-- The index of the level that holds dimension `d` (R62). -/
def Gen.dimIndex (g : Gen) (d : Nat) : Nat :=
  match (List.range 5).find? (fun i => g.dim i == d) with
  | some i => g.index i
  | none => 0
/-- R63. -/
def Gen.illegal (g : Gen) : Bool :=
  (List.range 5).any (fun i => g.count i == 0)
  || (g.wrapEn && !(1 ≤ g.wrapLen && g.wrapLen ≤ sramLines))
  || (g.window && (g.step4 0 == 0 || g.step4 4 == 0 || g.step4 8 == 0 || g.step4 12 == 0
        || !(1 ≤ g.w && g.w ≤ 4096) || !(1 ≤ g.h && g.h ≤ 4096)
        || (List.range 5).any (fun i => 5 ≤ g.dim i)
        || (List.range 5).any (fun i => (List.range i).any fun j => g.dim i == g.dim j)))
/-- Input row and column of a window access (R62). -/
def Gen.iy (g : Gen) : Int := (g.dimIndex 4 * g.step4 4 + g.dimIndex 2 * g.step4 12 : Nat) - (g.step4 20 : Nat)
def Gen.ix (g : Gen) : Int := (g.dimIndex 3 * g.step4 0 + g.dimIndex 1 * g.step4 8 : Nat) - (g.step4 16 : Nat)
/-- A padding access (R62). -/
def Gen.pad (g : Gen) : Bool :=
  g.window && (decide (g.iy < 0) || decide (g.iy ≥ g.h) || decide (g.ix < 0) || decide (g.ix ≥ g.w))
/-- The position q (R60, R62). -/
def Gen.pos (g : Gen) : Int :=
  if g.window then g.iy * signed 18 (g.r 16) + g.ix * signed 18 (g.r 15) + (g.dimIndex 0 : Int) * signed 18 (g.r 17)
  else (List.range 5).foldl (fun a i => a + (g.index i : Int) * g.stride i) 0
/-- Line j of an access (R60). -/
def Gen.line (g : Gen) (hrel j : Nat) : Int :=
  let r := if g.wrapEn then (g.pos + j) % (g.wrapLen : Int) else g.pos + j
  (hrel : Int) + g.base + r
/-- What an access of a generator comes to: a fault reason, a padding access, or its lines. -/
inductive Access
  | fault (reason : Nat)
  | pad
  | lines (l : List Nat)
  deriving DecidableEq, Repr
/-- An access of `n` lines (R60 to R64): GEN_ILLEGAL 0x03, INDEX_RANGE 0x04. -/
def Gen.access (g : Gen) (hrel n : Nat) : Access :=
  if g.illegal then .fault 3
  else if g.pad then .pad
  else
    let ls := (List.range n).map fun j => g.line hrel j
    if ls.all (fun x => decide (0 ≤ x) && decide (x < sramLines)) then .lines (ls.map Int.toNat) else .fault 4
/-- The advance of R61 from level `i` on. The spec says "when idx_i reaches COUNT_i": an index that a GSET has left at or beyond its count
has reached it, and the advance returns it to 0. Log 146, DESIGN CHOICE. -/
def Gen.advFrom (g : Gen) : Nat → Nat → Gen
  | 0, _ => g
  | k + 1, i =>
    if g.index i + 1 < g.count i then { g with idx := put 0 i (g.index i + 1) g.idx }
    else
      let g' := { g with idx := put 0 i 0 g.idx }
      if i = 4 then { g' with idx := [], done := true } else g'.advFrom k (i + 1)
/-- R61. -/
def Gen.advance (g : Gen) : Gen := g.advFrom 5 0

end Sys2Proof.Machine
end

