-- ==== Sys2Proof/Machine/Flags.lean ====
section
/-! DEFINITION. The part's flags: who may change one, and how a change is applied (07_flags_channels_chimneys.md,
R195 to R202). The hob has no arithmetic flags (R45). -/
namespace Sys2Proof.Machine

/-- The record of a tenant in the configuration image (R179, R196). -/
def State.tenantRec (s : State) (t : Nat) : Option Tenant := s.tenants.find? fun r => r.id == t
/-- A held flag (R195). -/
def heldFlag (f : Nat) : Bool := f < 0x2000
/-- The range whose beat flag group holds flag `f` (R195). -/
def flagGroup (f : Nat) : Nat := (f - 0x2000) / 0x800
/-- Occupant of range `r` (R197). -/
def State.occupant (s : State) (r : Nat) : Option Nat := get none r s.flg.occ
/-- R199: may tenant `t` use flag `f`? -/
def State.mayUseFlag (s : State) (t f : Nat) : Bool :=
  if heldFlag f then
    match s.tenantRec t with
    | some r => r.flagBase ≤ f && f < r.flagBase + r.flagCount
    | none => false
  else f < 0x4000 && s.occupant (flagGroup f) == some t
def State.flag (s : State) (f : Nat) : Word := get 0 f s.flg.val
def State.setFlag (s : State) (f : Nat) (v : Word) : State := { s with flg := { s.flg with val := put 0 f v s.flg.val } }
def State.flagPoi (s : State) (f : Nat) : Bool := get false f s.flg.poi
def State.setFlagPoi (s : State) (f : Nat) (b : Bool) : State := { s with flg := { s.flg with poi := put false f b s.flg.poi } }
/-- An unconditional increment modulo 2^32 (R200). -/
def State.bumpFlag (s : State) (f : Nat) (d : Word) : State := s.setFlag f (s.flag f + d)
/-- A change that a term of an ARMED entry may name is progress (R187); zero deltas change nothing (R10, R200). Log 122, DEDUCED. -/
def State.noteProgress (s : State) : State := { s with stk := { s.stk with progress := true } }
/-- A term of an ARMED entry names flag `f` (1), channel `f` (2) or counter `f` (3). -/
def State.armedNames (s : State) (kind f : Nat) : Bool :=
  s.stk.entries.any fun e => e.2.state == .armed && e.2.terms.any fun t => t.kind == kind && t.index == f
/-- A term of an ARMED entry names flag `f`, or the depth of a channel whose read pointer it is (R187, R209). -/
def State.flagNamed (s : State) (f : Nat) : Bool :=
  s.armedNames 1 f || s.flg.chans.any fun e => e.2.state != .closed && e.2.rpflag == f && s.armedNames 2 e.1
/-- A change of a flag counts as progress when an ARMED entry's term names it, or a depth that it changes (R187). -/
def State.bumpFlagP (s : State) (f : Nat) (d : Word) : State :=
  let s' := s.bumpFlag f d
  if d ≠ 0 ∧ s.flagNamed f then s'.noteProgress else s'
/-- A local increment by tenant `t`: applied, or counted in FLG_DROPS (R201). -/
def State.flagAdd (s : State) (t f : Nat) (d : Word) : State :=
  if s.mayUseFlag t f then s.bumpFlagP f d
  else { s with flg := { s.flg with drops := s.flg.drops + 1 } }
/-- Clears a flag and its mark (R198, R202). -/
def State.clearFlag (s : State) (f : Nat) : State := (s.setFlag f 0).setFlagPoi f false
/-- Clears the flags `lo` to `lo + n - 1` and their marks; a flag that changes may be progress (R187). -/
def State.clearFlags (s : State) (lo n : Nat) : State :=
  let inside (f : Nat) : Bool := lo ≤ f && f < lo + n
  let s1 := { s with flg := { s.flg with val := s.flg.val.filter fun e => !inside e.1, poi := s.flg.poi.filter fun e => !inside e.1 } }
  if s.flg.val.any fun e => inside e.1 && s.flagNamed e.1 then s1.noteProgress else s1

end Sys2Proof.Machine
end

