-- ==== Sys2Proof/Machine/Log.lean ====
section
/-! DEFINITION. The event log, the alert latches and the interrupt aggregation (15_service_sideband_errors.md R474 to R480;
16_address_map_common_registers.md R505, R506), and the decision of an abort (R193, R482). -/
namespace Sys2Proof.Machine

/-- Where an event comes from: SKIND and SNUM of Table 15.8. -/
inductive Src
  | service | quarter (q : Nat) | stoker | flags | transport (i : Nat) | link (n : Nat) | power
  deriving DecidableEq, Repr
def Src.kind : Src → Nat
  | .service => 0 | .quarter _ => 1 | .stoker => 2 | .flags => 3 | .transport _ => 4 | .link _ => 5 | .power => 6
def Src.num : Src → Nat
  | .quarter q => q | .transport i => i | _ => 0
/-- The INT_SOURCE bit of a source (Table 16.7). -/
def Src.intBit : Src → Nat
  | .service => 0 | .quarter q => 1 + q | .stoker => 5 | .flags => 6 | .transport _ => 7 | .link n => 8 + n | .power => 28

/-- Event classes (Table 15.9). -/
inductive EClass | info | corrected | contained | fabric | fatal
  deriving DecidableEq, Repr
def EClass.code : EClass → Nat
  | .info => 0 | .corrected => 1 | .contained => 2 | .fabric => 3 | .fatal => 4
/-- Latch bit of a class (Table 15.9). -/
def EClass.latch : EClass → Nat
  | .info => 4 | .corrected => 3 | .contained => 0 | .fabric => 1 | .fatal => 2

/-- The oldest SEQ held (R475). -/
def State.logTail (s : State) : Word := s.svc.head - BitVec.ofNat 32 (min s.svc.count 4096)
/-- SB_ALERT_N is asserted (R474). -/
def State.alert (s : State) : Bool := (s.svc.latch &&& s.svc.mask) != 0

/-- The eight words of an entry (Table 15.8); BEAT is 0 before bring-up step 10. -/
def State.logWords (s : State) (code : Nat) (cls : EClass) (src : Src) (tenant : Option Nat) (args : List Nat) : LogEntry :=
  let w (n : Nat) : Word := BitVec.ofNat 32 n
  Vector.ofFn fun i =>
    match i.val with
    | 0 => s.svc.head
    | 1 => if s.boot.step < 10 then 0 else s.stk.beat
    | 2 => w (code + cls.code * 2 ^ 16 + (if tenant.isSome then 2 ^ 19 else 0) + src.num * 2 ^ 24 + src.kind * 2 ^ 27)
    | 3 => w (tenant.getD 0)
    | n => w (args.getD (n - 4) 0)

/-- Logs an event (R475 to R480, R505, R506): the entry takes the next SEQ, its class's latch and count, the
interrupt bits, and waits for the mirror channel. Log 77, DEDUCED. -/
def State.log (s : State) (code : Nat) (cls : EClass) (src : Src) (tenant : Option Nat) (args : List Nat) : State :=
  let e := s.logWords code cls src tenant args
  let v := s.svc
  let seq := v.head
  let bit : BitVec 5 := BitVec.twoPow 5 cls.latch
  let rises := (v.latch &&& bit) == 0 && (v.mask &&& bit) != 0
  let latch := v.latch ||| bit
  let v' := { v with
    log := put (Vector.replicate 8 0) (seq.toNat % 4096) e v.log, head := seq + 1, count := v.count + 1, latch := latch,
    classCnt := upd 0 cls.code (· + 1) v.classCnt,
    toMirror := if v.mirrorEn then v.toMirror ++ [e] else v.toMirror }
  let c := s.com
  let c' := { c with
    intClass := c.intClass ||| BitVec.twoPow 32 cls.code, intSource := c.intSource ||| BitVec.twoPow 32 src.intBit,
    intFirst := if c.intClass = 0 then seq else c.intFirst }
  let s' := { s with svc := v', com := c' }
  if rises && v.ibiEn && v.dynValid then s'.emit (.bytes "IBI" [BitVec.ofNat 8 latch.toNat]) else s'

/-- Decides the abort of a tenant (R192, R193): reason 1 DEADLOCK, 2 POISON; the ranges whose next seam is still to come
are all four; a second abort merges, POISON winning. -/
def State.decideAbort (s : State) (t reason : Nat) : State :=
  let l := s.stk.aborts
  let l' := if l.any (fun a => a.1 == t) then l.map (fun a => if a.1 == t then (t, max a.2.1 reason, a.2.2) else a)
            else l ++ [(t, reason, [0, 1, 2, 3])]
  { s with stk := { s.stk with aborts := l' } }
/-- A tenant consumes poison at a point of Table 15.12 (R482): an abort is decided, and logged once for each decision. -/
def State.consumePoison (s : State) (t point : Nat) : State :=
  if s.stk.aborts.any (fun a => a.1 == t && a.2.1 == 2) then s
  else (s.decideAbort t 2).log 0x0004 .contained .stoker (some t) [point]
/-- Fatal stop takes hold: claims are cancelled, and no round claims anything (R481). -/
def State.fatalStop (s : State) : State := { s with svc := { s.svc with mode := 4 }, stk := { s.stk with claims := [] } }
/-- A part-fatal error (R481): PART_FATAL for causes 1 to 3, then fatal stop from bring-up step 10 on, behind a changeover or relock that is
under way. Log 53, DEDUCED; log 165, DEDUCED. -/
def State.partFatal (s : State) (cause : Nat) : State :=
  let s := if 1 ≤ cause ∧ cause ≤ 3 then s.log 0x0002 .fatal .service none [cause] else s
  let s := if s.svc.cause = 0 then { s with svc := { s.svc with cause := cause } } else s
  if s.boot.step < 10 ∨ s.clk.pending ≠ 0 then s else s.fatalStop

/-! ### Placing lines in memory with their poison (R263, R264) -/

/-- Is a local address in HBM (Table 16.1)? -/
def isHbm (a : Nat) : Bool := a < 4 * hbmQuarter
/-- Hob whose populated SRAM holds a local address. -/
def sramHob (a : Nat) : Option Nat :=
  if 0xE000000000 ≤ a ∧ a < 0xE000000000 + 32 * 0x800000 ∧ (a - 0xE000000000) % 0x800000 < 0x600000
  then some ((a - 0xE000000000) / 0x800000) else none
/-- Poison table of the station of an HBM address: the entry of its 256-byte unit (R264). -/
def State.ptabAt (s : State) (a : Nat) : Nat := get 0 (a / 256) (s.range (a / hbmQuarter)).stn.ptab
/-- The poison table holds the unit of an address, or has room for it. -/
def State.ptabRoom (s : State) (a : Nat) : Bool := let t := (s.range (a / hbmQuarter)).stn.ptab; get 0 (a / 256) t != 0 || decide (t.length < 1024)
/-- Enters a unit in the poison table, or logs HBM_PTAB_FULL, a part-fatal error (R264). Log 23, DEDUCED. -/
def State.ptabEnter (s : State) (a : Nat) : State :=
  let q := a / hbmQuarter
  let r := s.range q
  let u := a / 256
  if get 0 u r.stn.ptab ≠ 0 ∨ r.stn.ptab.length < 1024 then
    let old := get 0 u r.stn.ptab - 1
    let b := (a / 32) % 8
    let m := old &&& (0xFF ^^^ 2 ^ b)
    s.setRange q { r with stn := { r.stn with ptab := put 0 u (1 + m) r.stn.ptab } }
  else (s.log 0x0506 .fatal (.quarter q) none []).partFatal 1
/-- A clean write of one 32-byte burst: the unit leaves the table once all of it has been written clean (R264). Log 22, DEDUCED. -/
def State.ptabClean (s : State) (a : Nat) : State :=
  let q := a / hbmQuarter
  let r := s.range q
  let u := a / 256
  let old := get 0 u r.stn.ptab
  if old = 0 then s else
    let m := (old - 1) ||| 2 ^ ((a / 32) % 8)
    s.setRange q { r with stn := { r.stn with ptab := put 0 u (if m = 0xFF then 0 else 1 + m) r.stn.ptab } }
/-- Writes a burst of HBM with its mark. -/
def State.placeBurst (s : State) (a : Nat) (b : Bytes) (poi : Bool) : State :=
  let s := { s with mem := writeBytes s.mem a (fit 32 b) }
  if poi then s.ptabEnter a else s.ptabClean a
/-- Writes a 64-byte line at a local address of HBM or hob SRAM with its mark; elsewhere nothing. A marked line that finds
the poison table full is one event. -/
def State.placeLine (s : State) (a : Nat) (b : Bytes) (poi : Bool) : State :=
  let b := fit 64 b
  if isHbm a then
    let s1 := s.placeBurst a (b.take 32) poi
    if poi && !s.ptabRoom a then { s1 with mem := writeBytes s1.mem (a + 32) (fit 32 (b.drop 32)) } else s1.placeBurst (a + 32) (b.drop 32) poi
  else match sramHob a with
    | some _ => { s with mem := writeBytes s.mem a b, linePoi := put false a poi s.linePoi }
    | none => s
/-- Writes lines from line `o` on of a stretch at address `a`. -/
def State.placeLines (s : State) (a : Nat) : Nat → List (Bytes × Bool) → State
  | _, [] => s
  | o, (b, p) :: rest => State.placeLines (s.placeLine (a + 64 * o) b p) a (o + 1) rest
/-- The mark of the 64-byte line at an address. -/
def State.linePoison (s : State) (a : Nat) : Bool := if isHbm a then s.ptabAt a != 0 else get false a s.linePoi
/-- Blocks of staging areas are kept in `State.staging` (R251); a block number is the address ÷ 64 KiB. -/
def stagingBlock (a : Nat) : Nat := a / 0x10000
/-- Is an address in a block of a staging area that is not CONFIRMED? Such a block reads as zero bytes (R253). -/
def State.unconfirmed (s : State) (a : Nat) : Bool :=
  isHbm a && s.shared.any (fun x => x.staging && x.hbm && x.ranges.testBit (a / hbmQuarter) && x.base ≤ a % hbmQuarter && a % hbmQuarter < x.base + x.len)
    && (get (0, 0) (stagingBlock a) s.stage).1 != 2
/-- Reads a 64-byte line with its mark, zero bytes from an unconfirmed staging block (R253). -/
def State.fetchLine (s : State) (a : Nat) : Bytes × Bool :=
  if s.unconfirmed a then (List.replicate 64 0, false) else (readBytes s.mem a 64, s.linePoison a)

end Sys2Proof.Machine
end

