-- ==== Sys2Proof/Machine/Fabric.lean ====
section
/-! DEFINITION. Packets of the part: statuses that come home to a unit, the route tables, and the queues of the gates
(09_fenxia_link.md R282 to R285, R300 to R302; 10_fabric_and_partitions.md R307 to R319, R324). -/
namespace Sys2Proof.Machine

/-! ### Operations of Table 9.7 -/

def opIdle : Nat := 0x00
def opWrite : Nat := 0x01
def opRead : Nat := 0x02
def opMsg : Nat := 0x03
def opContrib : Nat := 0x04
def opFlagInc : Nat := 0x05
def opStallp : Nat := 0x06
def opResp : Nat := 0x07
def opDwrite : Nat := 0x08
def opDfetch : Nat := 0x09
def opDmsg : Nat := 0x0A
def opMgmt : Nat := 0x0B

def Packet.flitCount (p : Packet) : Nat := p.flits.length + 1
/-- Lines of a message (ARG0 [22:16]), its channel, and the line of payload flit 0. -/
def Packet.channel (p : Packet) : Nat := field p.arg0 0 16
def Packet.mlines (p : Packet) : Nat := field p.arg0 16 7
def Packet.moffset (p : Packet) : Nat := field p.arg0 23 6
def Packet.cindex (p : Packet) : Nat := field p.arg0 16 8
def Packet.coffset (p : Packet) : Nat := field p.arg0 24 6

/-! ### Statuses at their source unit (R301, R331) -/

/-- Source units by the SUNIT byte: kind and number (Table 9.6). -/
def sunitGate (n : Nat) : Nat := n
def sunitMover (q m : Nat) : Nat := 0x20 + 8 * q + m
def sunitTransport : Nat := 0x40
def sunitStoker : Nat := 0x60
def sunitService : Nat := 0x80
def sunitChimney : Nat := 0xA0

def State.bumpGate (s : State) (l off : Nat) (d : Word) : State :=
  let g := s.gate l
  s.setGate l { g with cnt := upd 0 ((off - 0x80) / 4) (· + d) g.cnt }
def State.chan (s : State) (c : Nat) : Channel := get {} c s.flg.chans
def State.setChan (s : State) (c : Nat) (x : Channel) : State := { s with flg := { s.flg with chans := put {} c x s.flg.chans } }
def State.chim (s : State) (k : Nat) : Chimney := get {} k s.flg.chims
def State.setChim (s : State) (k : Nat) (x : Chimney) : State := { s with flg := { s.flg with chims := put {} k x s.flg.chims } }

/-- Operation `op` leaves flight; a failure keeps the descriptor's first reason (R96). -/
def Desc.endOp (d : Desc) (op : Nat) (err : Option Nat) : Desc :=
  if d.ops.any fun o => o.id == op then
    { d with ops := d.ops.filter fun o => o.id != op, err := match d.err with | some e => some e | none => err }
  else d
def State.moverEnd (s : State) (q m op : Nat) (err : Option Nat) : State :=
  let r := s.range q
  let mv := r.mover m
  s.setRange q (r.setMover m { mv with q := mv.q.map fun d => d.endOp op err })
/-- A status that is not OK reaches its source unit; one that matches nothing is discarded (R301, R331, R226). -/
def State.unitFail (s : State) (unit tag status : Nat) : State :=
  let n := unit % 32
  match unit / 32 with
  | 0 => if n < 20 then s.bumpGate n 0xB0 1 else s
  | 1 => s.moverEnd (n / 8) (n % 8) tag (some status)
  | 2 => { s with trn := { s.trn with home := s.trn.home ++ [(tag, status)] } }
  | 5 =>
    let k := tag % 4096
    let x := s.chim k
    s.setChim k { x with fwdFail := x.fwdFail + 1,
                         failNow := match x.failNow with | some f => some f | none => some (status, tag / 4096) }
  | 3 =>
    -- a POLL of the open epoch that fails with PEER_LOST counts as STALLED with RID 0xFFFF_FFFF (R189); the TAG of
    -- a POLL is the chip it asks, that of every other stall message 0x100 (assumption log 30)
    if status = 0x21 ∧ s.stk.openEpoch.isSome ∧ tag < 256 ∧ (get none tag s.stk.answers).isNone then
      { s with stk := { s.stk with answers := put none tag (some { stalled := true, rid := 0xFFFFFFFF }) s.stk.answers } }
    else s
  | _ => s

/-! ### Route tables (R309 to R312) -/

/-- Route class of an OP (Table 10.1). -/
def opClass (op : Nat) : Nat :=
  match op with
  | 1 => 0 | 2 => 0 | 3 => 0 | 7 => 1 | 4 => 2 | 5 => 3 | 6 => 3 | 0x0B => 3 | _ => 4
def datelineVc (cls : Nat) : Nat := match cls with | 0 => 6 | 1 => 7 | 2 => 6 | 3 => 6 | _ => 5
def returnVc (cls : Nat) : Nat := match cls with | 0 => 4 | 1 => 1 | 2 => 2 | 3 => 3 | _ => 5
/-- R311: 0 KEEP, 1 DL, 2 BASE. -/
def exitVc (cls act vc : Nat) : Nat :=
  match act with
  | 1 => datelineVc cls
  | 2 => if vc = 6 ∨ vc = 7 then returnVc cls else vc
  | _ => vc
def Gate.active (g : Gate) (vc : Nat) : Bool := g.vcmask.getLsbD vc
def Gate.upOrHold (g : Gate) : Bool := g.state == .up || g.state == .hold
/-- R312: enabled, UP or in HOLD, and the exit VC active. -/
def Gate.usable (g : Gate) (vc : Nat) : Bool := g.en && g.upOrHold && g.active vc
def State.routeEntry (s : State) (cls chip : Nat) : Nat := (get 0x1F (cls * 256 + chip) s.rt.route).toNat
/-- The exit link and VC of a packet of class `cls` on `vc` for a chip (R312). -/
def State.exitFor (s : State) (cls chip vc : Nat) : Option (Nat × Nat) :=
  let e := s.routeEntry cls chip
  let pri := field e 0 5
  let pv := exitVc cls (field e 5 2) vc
  let alt := field e 7 5
  let av := exitVc cls (field e 12 2) vc
  if pri < 20 && (s.gate pri).usable pv then some (pri, pv)
  else if e.testBit 14 && alt < 20 && (s.gate alt).usable av then some (alt, av)
  else none
def State.chooseExit (s : State) (p : Packet) : Option (Nat × Nat) := s.exitFor (opClass p.op) p.dst p.vc

/-! ### Gate queues (R302, R313 to R319) -/

/-- Transit packets waiting at a gate on a VC (R316). -/
def Gate.transitCount (g : Gate) (vc : Nat) : Nat :=
  ((get [] vc g.waiting).filter fun w => w.src == .transit && w.exit.isNone).length + get 0 vc g.coming
def Gate.push (g : Gate) (vc : Nat) (w : Waiting) : Gate := { g with waiting := upd [] vc (· ++ [w]) g.waiting }
def State.enqueue (s : State) (l vc : Nat) (src : PSrc) (p : Packet) : State :=
  s.setGate l ((s.gate l).push vc { src := src, pkt := { p with vc := vc } })
/-- Destination quarter (4: the mantel) and station of a local address. -/
def loadDest (a : Nat) : Nat × Nat :=
  if isHbm a then (a / hbmQuarter, 5)
  else match sramHob a with
    | some h => (h / 8, hobStation (h % 8))
    | none => (4, 0)
/-- The load of an access of `n` lines at local address `a`, answered at station `ss` of quarter `sq`. -/
def mkLoad (kind : LoadKind) (a n sq ss t : Nat) (data : Bytes) (poi : List Bool) (org : Origin) : Load :=
  let (dq, ds) := loadDest a
  { kind := kind, dq := dq, ds := ds, sq := sq, ss := ss, addr := a, lines := n, data := data, poi := poi, tenant := t, org := org }
/-- Pieces of an access of `n` lines: no piece crosses a 256-byte boundary; offset in lines and length. Log 29, DEDUCED. -/
def pieces (a : Nat) : Nat → Nat → Nat → List (Nat × Nat)
  | 0, _, _ => []
  | fuel + 1, o, n =>
    if n = 0 then [] else
      let k := min n (4 - (a / 64 + o) % 4)
      (o, k) :: pieces a fuel (o + k) (n - k)
/-- The loads that write lines from local address `a` on for a unit of the mantel, each with whoever waits for its acknowledgement. -/
def lineLoads (a t : Nat) (org : Nat → Nat → Origin) (ls : List (Bytes × Bool)) : List Load :=
  (pieces a ls.length 0 ls.length).map fun e =>
    let l := (ls.drop e.1).take e.2
    mkLoad .write (a + 64 * e.1) e.2 4 0 t (l.flatMap fun x => fit 64 x.1) (l.map fun x => x.2) (org e.1 e.2)
/-- A unit of the mantel hands loads to the spine (R101, R105). -/
def State.mantelSend (s : State) (ls : List Load) : State := { s with mantelOut := s.mantelOut ++ ls }
/-- Loads of the movers for other stops move to the outbound queue while it has room (R101). -/
def settleOut (q : Nat) : List (Nat × Load) → List Load → List (Nat × Load) × List Load
  | [], o => ([], o)
  | e :: r, o =>
    if e.2.dq ≠ q ∧ o.length < 64 then settleOut q r (o ++ [e.2])
    else let (k, o') := settleOut q r o; (e :: k, o')
def State.settleBridge (s : State) (q : Nat) : State :=
  let r := s.range q
  let (k, o) := settleOut q r.movLoads r.brOut
  s.setRange q { r with movLoads := k, brOut := o }
/-- Mover `m` of quarter `q` hands a load to the bridge (R555). -/
def State.moverLoad (s : State) (q m : Nat) (l : Load) : State :=
  let r := s.range q
  (s.setRange q { r with movLoads := r.movLoads ++ [(m, l)] }).settleBridge q
/-- The link gates of the part are stops of their own for what they send: gate `l` below 20, else the mantel. -/
def atMantel : Nat := 20
/-- The load in which a packet travels to the gate of its exit (R105): whole, whatever its length. Log 150, DESIGN CHOICE. -/
def packetLoad (l vc : Nat) (src : PSrc) (p : Packet) : Load :=
  { kind := .packet, dq := l / 5, ds := 10 + l % 5, lines := p.flitCount, pkt := some (src, { p with vc := vc }) }
/-- A packet of a unit of the part leaves that unit for the gate of its exit link, in mover slots, and across the spine where the gate
lies at another stop (R105): unit `u` is a gate, a mover by its SUNIT, or any other number for a unit of the mantel. -/
def State.carry (s : State) (u l vc : Nat) (p : Packet) : State :=
  if u = l then s.enqueue l vc .own p
  else
    let ld := packetLoad l vc .own p
    if u < 20 then let r := s.range (u / 5); s.setRange (u / 5) { r with gateLoads := r.gateLoads ++ [(10 + u % 5, ld)] }
    else if u / 32 = 1 then s.moverLoad (u % 32 / 8) (u % 8) ld
    else { s with mantelOut := s.mantelOut ++ [ld] }
/-- A discard for want of an exit at the source (R318). The DWRITEs of a DFETCH served carry the requester's tag, which is no tag of a unit
of the part. -/
def State.noExitOwn (s : State) (p : Packet) : State :=
  let s := { s with rt := { s.rt with noexit := s.rt.noexit + 1 } }
  if p.op = opResp ∨ p.op = opMgmt ∨ p.op = opDwrite then s else s.unitFail p.sunit p.tag 0x21
/-- A unit of the part at stop `u` sends a packet (R312, R317, R324): to its own chip inside the part, without a lookup (R308). -/
def State.sendFrom (s : State) (u : Nat) (p : Packet) : State :=
  let p := { p with src := s.rt.chip, part := if p.op = opMgmt then 0xF else s.rt.part, hops := s.rt.hopLimit }
  if p.dst = s.rt.chip then { s with loopback := s.loopback ++ [p] }
  else match s.chooseExit p with
    | some (l, vc) => s.carry u l vc p
    | none => s.noExitOwn p
/-- A mover sends from its bridge, every other unit that sends with its own SUNIT from the mantel. -/
def State.sendOwn (s : State) (p : Packet) : State := s.sendFrom (if p.sunit / 32 = 1 then p.sunit else atMantel) p
/-- A RESP to the source of a packet from the unit at stop `u`; a source on the part itself gets its status at once (R300, R303). It carries
the part's own partition, which is the request's wherever R325 lets a request in, but for MGMT (R324). -/
def State.respond (s : State) (u : Nat) (p : Packet) (status : Nat) (flits : List (Bytes × Bool)) : State :=
  if p.src = s.rt.chip then (if status = 0 then s else s.unitFail p.sunit p.tag status)
  else
    let r : Packet := { op := opResp, vc := 1, dst := p.src, src := s.rt.chip, part := if p.op = opMgmt then s.rt.part else p.part, tenant := p.tenant,
                        hops := s.rt.hopLimit, tag := p.tag, sunit := p.sunit, status := status, flits := flits }
    match s.chooseExit r with
    | some (l, vc) => s.carry u l vc r
    | none => { s with rt := { s.rt with noexit := s.rt.noexit + 1 } }
/-- Refusal of a packet at its destination: a RESP whatever RACK holds (R300). -/
def State.refuse (s : State) (u : Nat) (p : Packet) (status : Nat) : State := s.respond u p status []
/-- Acceptance: a RESP only with RACK 1 (R300). -/
def State.accept (s : State) (u : Nat) (p : Packet) : State := if p.rack then s.respond u p 0 [] else s
/-- Operations for which a broken link or a transit part owes their source a notice (R303, R318). -/
def noticeOps (transit : Bool) (op : Nat) : Bool :=
  op == opWrite || op == opRead || op == opMsg || op == opContrib || op == opFlagInc || (transit && op == opStallp)
/-- A transit packet with no usable exit (R318). -/
def State.noExitTransit (s : State) (u : Nat) (p : Packet) : State :=
  let s := { s with rt := { s.rt with noexit := s.rt.noexit + 1 } }
  if noticeOps true p.op then s.respond u p 0x21 [] else s
/-- A G-slot scheduled send reaches its gate (R302, R314). -/
def State.sendGate (s : State) (l : Nat) (p : Packet) : State :=
  let g := s.gate l
  let p := { p with src := s.rt.chip, part := s.rt.part, hops := s.rt.hopLimit, sunit := sunitGate l }
  if g.upOrHold && g.active p.vc then s.enqueue l p.vc .send p else s.bumpGate l 0xB4 1

/-- Where a packet that waits at gate `l` on VC `vc` is to leave: the exit chosen again for it while that exit is usable, else a new choice
(R313); `none` where it has no exit. A packet whose choice is the gate it waits at simply stays. -/
def State.place (s : State) (l vc : Nat) (w : Waiting) : Option Waiting :=
  let again : Option Waiting := (s.chooseExit w.pkt).map fun e => { w with exit := if e = (l, vc) then none else some e }
  match w.exit with
  | some (n, v) => if (s.gate n).usable v then some w else again
  | none => again
/-- One packet of VC `vc` of gate `l` is judged again, and goes back to the end of that queue unless it is discarded: `down` where the link
is neither UP nor in HOLD, so that every packet is judged; else only a packet that has been given a new exit (R313, R314, R318). -/
def State.replace (s : State) (l vc : Nat) (down : Bool) (w : Waiting) : State :=
  let back (w : Waiting) (s : State) : State := s.setGate l ((s.gate l).push vc w)
  if down || w.exit.isSome then
    if w.src == .send then s.bumpGate l 0xB4 1
    else match s.place l vc w with
      | some w' => back w' s
      | none => if w.src == .own then s.noExitOwn w.pkt else s.noExitTransit l w.pkt
  else back w s
/-- Packets of one VC of a gate that have a new exit move to it, in their order, while the head finds room there; the first that finds none
keeps all behind it (R313). Between gates they move at once. -/
def State.moveOut (s : State) (l vc : Nat) : Nat → State
  | 0 => s
  | k + 1 =>
    match get [] vc (s.gate l).waiting with
    | w :: rest =>
      match w.exit with
      | some (n, v) =>
        if w.src == .own || (s.gate n).transitCount v < 8 then
          State.moveOut ((s.setGate l { s.gate l with waiting := put [] vc rest (s.gate l).waiting }).enqueue n v w.src w.pkt) l vc k
        else s
      | none => s
    | [] => s
/-- R313 for one VC of a gate. -/
def State.rechooseVc (s : State) (l vc : Nat) : State :=
  let g := s.gate l
  let ws := get [] vc g.waiting
  let s1 := s.setGate l { g with waiting := put [] vc [] g.waiting }
  let s2 := ws.foldl (fun s w => s.replace l vc (!g.upOrHold) w) s1
  s2.moveOut l vc (get [] vc (s2.gate l).waiting).length
/-- R313 for every VC of a gate. Log 101, DEDUCED. -/
def State.rechoose (s : State) (l : Nat) : State := (List.range 8).foldl (fun s vc => s.rechooseVc l vc) s
/-- Gates with packets chosen again try once more, after room has come up in some transit queue or a link has changed its state. -/
def State.rechooseAll (s : State) : State := (List.range 20).foldl (fun s l => s.rechoose l) s

end Sys2Proof.Machine
end

