-- ==== Sys2Proof/Machine/Channels.lean ====
section
/-! DEFINITION. Channels (07_flags_channels_chimneys.md R204 to R216, R556, R227): judging and placing messages, the
pointers, the requests of Table 7.3, and the part's own messages (R215, R477). -/
namespace Sys2Proof.Machine

def Channel.msgBytes (c : Channel) : Nat := 2 ^ c.msglog
/-- SLOTS = RING ÷ MSG. -/
def Channel.slots (c : Channel) : Nat := 2 ^ (c.ringlog - c.msglog)
/-- The current value of flag RPFLAG. -/
def State.rpv (s : State) (c : Channel) : Word := s.flag c.rpflag
/-- R209; a CLOSED channel keeps the depth it had (R212). -/
def State.depth (s : State) (c : Channel) : Word := if c.state = .closed then c.frozen else c.wp - s.rpv c
/-- Address of slot `n` mod SLOTS. -/
def Channel.slotAddr (c : Channel) (n : Nat) : Nat := c.base + (n % c.slots) * c.msgBytes

/-! ### Refusals (R214, Table 7.5) -/

/-- Checks 2 to 6 on an item from tenant `t`; `none` is the part's own stoker or service core (R215). -/
def Channel.judge (c : Channel) (t : Option Nat) : Nat :=
  if t.isSome ∧ t ≠ some c.tenant then 7
  else if c.state ≠ .opened then (if c.why = 3 then 4 else 2)
  else if c.poison then 6
  else if c.dis then 5
  else 0
/-- Counts a refused message, packet or window write (R216). -/
def Channel.countRefusal (c : Channel) (code : Nat) : Channel :=
  if code = 1 then { c with dropFull := c.dropFull + 1 }
  else if code = 2 ∨ code = 4 then { c with dropClosed := c.dropClosed + 1 }
  else { c with dropOther := c.dropOther + 1 }
/-- Table 7.5 for a message of `mlines` lines. A channel never opened is judged by check 4 alone (R214). Log 25, DEDUCED; log 26, DEDUCED. -/
def State.judgeMsg (s : State) (c : Channel) (t : Option Nat) (mlines : Nat) : Nat :=
  if !c.everOpen then 2
  else if c.chimney ∨ mlines = 0 ∨ c.msgBytes < 64 * mlines then 8
  else match c.judge t with
    | 0 => if (c.ac - s.rpv c).toNat < c.slots then 0 else 1
    | r => r

/-! ### Admission and placement (R206 to R208, R556) -/

/-- Marks a channel or chimney poisoned, and its owner's abort is decided (R227, R482). -/
def State.poisonChan (s : State) (c : Nat) : State :=
  let x := s.chan c
  (s.setChan c { x with poison := true }).consumePoison x.tenant 2
/-- Every line of a message has arrived. -/
def ChMsg.whole (m : ChMsg) : Bool := (List.range m.mlines).all fun i => m.got.contains i
def ChMsg.take (m : ChMsg) (o n : Nat) : ChMsg := { m with got := m.got ++ (List.range n).map (· + o) }
/-- A message with every line in the ring is placed. -/
def ChMsg.done (m : ChMsg) : Bool := (List.range m.mlines).all fun i => m.filled.contains i
def ChMsg.fill (m : ChMsg) (o n : Nat) : ChMsg :=
  let m' := { m with filled := m.filled ++ (List.range n).map (· + o) }
  { m' with placed := m'.done }
/-- Lines of message `num` from line `o` on go to the ring slot at address `a`, in mover slots (R210). -/
def State.ringLines (s : State) (c num t a o : Nat) (ls : List (Bytes × Bool)) : State :=
  s.mantelSend (lineLoads (a + 64 * o) t (fun k n => .ring c num (o + k) n) ls)
/-- Replaces the first message that satisfies `f`. -/
def updFirst (f : ChMsg → Bool) (g : ChMsg → ChMsg) : List ChMsg → List ChMsg
  | [] => []
  | m :: r => if f m then g m :: r else m :: updFirst f g r
/-- Lines of message `num` stand in the ring (R207). -/
def State.ringPlaced (s : State) (c num o n : Nat) : State :=
  let x := s.chan c
  s.setChan c { x with msgs := updFirst (fun m => m.num == num && !m.placed) (fun m => m.fill o n) x.msgs }
/-- Depth changes that an ARMED entry's term names are progress (R187). -/
def State.chanProgress (s : State) (c : Nat) : State := if s.armedNames 2 c then s.noteProgress else s

/-- A message packet arrives at channel `c`: the new state and the status (0 OK). -/
def State.msgArrive (s : State) (c chip unit tag : Nat) (t : Option Nat) (mlines o : Nat) (ls : List (Bytes × Bool)) : State × Nat :=
  let x := s.chan c
  let poi := ls.any fun l => l.2
  if o = 0 then
    let code := if x.everOpen ∧ mlines < ls.length then 8 else s.judgeMsg x t mlines
    if code ≠ 0 then (s.setChan c (x.countRefusal code), code)
    else
      let slot := x.ac.toNat % x.slots
      let m : ChMsg := { slot := slot, mlines := mlines, src := chip, unit := unit, tag := tag, num := x.ac.toNat }
      let s1 := s.setChan c { x with ac := x.ac + 1, accepted := x.accepted + 1, msgs := x.msgs ++ [m.take 0 ls.length] }
      let s2 := s1.ringLines c m.num x.tenant (x.slotAddr slot) 0 ls
      (if poi then s2.poisonChan c else s2, 0)
  else
    let f (m : ChMsg) : Bool := m.src == chip && m.unit == unit && m.tag == tag && !m.whole
    match x.msgs.find? f with
    | none => (s.setChan c (x.countRefusal 8), 8)
    | some m =>
      if m.mlines < o + ls.length then (s.setChan c (x.countRefusal 8), 8)
      else
        let s1 := s.setChan c { x with msgs := updFirst f (fun m => m.take o ls.length) x.msgs }
        let s2 := s1.ringLines c m.num x.tenant (x.slotAddr m.slot) o ls
        (if poi then s2.poisonChan c else s2, 0)

/-- A plain CLOSING channel becomes CLOSED once WP equals AC, and keeps its depth (R211, R212). -/
def State.settleChan (s : State) (c : Nat) : State :=
  let x := s.chan c
  if x.state = .closing ∧ !x.chimney ∧ x.wp = x.ac then s.setChan c { x with state := .closed, frozen := s.depth x } else s
/-- WP counts one message more, and NOTIFY follows (R207, R231). -/
def State.advanceWp (s : State) (c : Nat) : State :=
  let x := s.chan c
  let s1 := (s.setChan c { x with wp := x.wp + 1, ac := if x.chimney then x.wp + 1 else x.ac }).chanProgress c
  if x.notifyEn then s1.flagAdd x.tenant x.notify 1 else s1
/-- The message in slot WP mod SLOTS has been placed (R207). -/
def State.messagePlaced (s : State) (c : Nat) : State :=
  let x := s.chan c
  match x.msgs with
  | m :: rest =>
    if m.placed then
      ((s.setChan c { x with msgs := rest }).advanceWp c).settleChan c
    else s
  | [] => s
/-- R208: the message in slot `slot` is abandoned: its missing lines become zero bytes, and it is placed once they are. -/
def State.messageAbandon (s : State) (c slot : Nat) : State :=
  let x := s.chan c
  let f (m : ChMsg) : Bool := m.slot == slot && !m.whole
  match x.msgs.find? f with
  | none => s
  | some m =>
    let missing := (List.range m.mlines).filter fun i => !m.got.contains i
    let s1 := missing.foldl (fun s i => s.ringLines c m.num x.tenant (x.slotAddr m.slot) i [(List.replicate 64 0, false)]) s
    let s2 := s1.setChan c { x with partials := x.partials + 1, msgs := updFirst f (fun m => { m with got := List.range m.mlines, abandoned := true }) x.msgs }
    let g := s2.flg
    { s2 with flg := { g with partialNow := g.partialNow + 1, partialChan := if g.partialNow = 0 then c else g.partialChan } }

/-! ### Chimney numbers (R217) -/

/-- The lowest chimney number that no OPEN or CLOSING chimney holds. -/
def State.freeChimney (s : State) : Nat :=
  let used := (s.flg.chims.filter fun e => e.2.used).map fun e => e.1
  ((List.range (used.length + 1)).find? fun k => !used.contains k).getD 0
/-- The chimney becomes CLOSED: its number, bindings and lines go (R211, R217, R219). -/
def State.closeChimney (s : State) (c : Nat) : State :=
  let x := s.chan c
  let y := s.chim x.k
  (s.setChan c { x with state := .closed, kValid := false, frozen := s.depth x }).setChim x.k
    { y with used := false, rounds := [], cc := [], bind := [] }
/-- A sum begun and not yet written. -/
def Chimney.writing (y : Chimney) : Bool := y.rounds.any fun r => r.begun && !r.written
/-- CLOSING chimney: CLOSED once no sum is being written and no further round can complete (R211). Log 27, DEDUCED. -/
def State.settleChimney (s : State) (c : Nat) : State :=
  let x := s.chan c
  let y := s.chim x.k
  if x.state = .closing ∧ x.chimney ∧ !y.writing ∧ !(y.rounds.any fun r => r.num == x.wp && r.written) then s.closeChimney c else s

/-! ### Requests (R204, R205, R211, R213, Tables 7.2 to 7.4, 7.6) -/

/-- The attributes a CH_OPEN carries (Tables 7.2, 7.6; layout in Table 14.9). -/
structure ChAttr where
  channel : Nat := 0
  tenant : Nat := 0
  ringlog : Nat := 0
  msglog : Nat := 0
  notifyEn : Bool := false
  chimney : Bool := false
  rpflag : Nat := 0
  notify : Nat := 0
  base : Nat := 0
  fmt : Nat := 0
  ordered : Nat := 0
  n : Nat := 0
  csize : Nat := 0
  stages : Nat := 0
  fwdEn : Nat := 0
  stage : Nat := 0
  pchip : Nat := 0
  pidx : Nat := 0
  pchan : Nat := 0
  /-- a reserved field of the request is non-zero -/
  resv : Bool := false
  deriving DecidableEq, Repr

/-- OSIZE. -/
def osize (fmt csize : Nat) : Nat := if fmt = 1 then 2 * csize else csize
/-- Does `len` bytes from local address `a` lie within one shared area of a tenant (R205)? A hob's SRAM window counts
by lines. -/
def State.inSharedArea (s : State) (t a len : Nat) : Bool :=
  if a + len ≤ 4 * hbmQuarter then
    let q := a / hbmQuarter
    let o := a % hbmQuarter
    o + len ≤ hbmQuarter &&
    s.shared.any fun x => x.tenant == t && x.hbm && x.owner.isNone && x.ranges.testBit q && x.base ≤ o && o + len ≤ x.base + x.len
  else match sramHob a with
    | some h =>
      let o := a - sramBase h
      o + len ≤ 64 * sramLines &&
      s.shared.any fun x => x.tenant == t && !x.hbm && x.owner.isNone && x.ranges.testBit (h / 8) && 64 * x.base ≤ o && o + len ≤ 64 * (x.base + x.len)
    | none => false
def State.ownsChan (s : State) (t c : Nat) : Bool :=
  match s.tenantRec t with
  | some r => r.chanBase ≤ c && c < r.chanBase + r.chanCount
  | none => false
/-- A held flag of a tenant. -/
def State.ownsHeld (s : State) (t f : Nat) : Bool := heldFlag f && s.mayUseFlag t f
/-- An attribute outside Table 7.2 or Table 7.6, a reserved field, or NOTIFY equal to RPFLAG. -/
def ChAttr.illegal (a : ChAttr) : Bool :=
  a.resv
  || !(6 ≤ a.ringlog && a.ringlog ≤ 24) || !(6 ≤ a.msglog && a.msglog ≤ (if a.chimney then 13 else 12)) || decide (a.ringlog < a.msglog)
  || decide (a.base % 2 ^ a.ringlog ≠ 0) || decide (0x4000 ≤ a.rpflag) || decide (0x4000 ≤ a.notify) || (a.notifyEn && a.notify == a.rpflag)
  || (a.chimney &&
      (decide (2 < a.fmt) || decide (1 < a.ordered) || decide (256 < a.n) || decide (a.csize = 0) || decide (4096 < a.csize) || decide (a.csize % 64 ≠ 0)
       || (a.ordered == 1 && (decide (a.stages = 0) || decide (63 < a.stages) || decide (a.stage % 64 ≠ 0)))
       || (a.ordered == 0 && (decide (a.stages ≠ 0) || decide (a.stage ≠ 0)))
       || decide (1 < a.fwdEn) || decide (255 < a.pidx) || decide (2 ^ a.msglog < osize a.fmt a.csize)))
/-- Table 7.4 for CH_OPEN, in code order. -/
def State.judgeOpen (s : State) (a : ChAttr) : Nat :=
  let x := s.chan a.channel
  if a.chimney ∧ a.n = 0 then 1
  else if a.illegal then 2
  else if !s.ownsChan a.tenant a.channel || !s.ownsHeld a.tenant a.rpflag || (a.notifyEn && !s.ownsHeld a.tenant a.notify) then 3
  else if x.state ≠ .closed then 4
  else if !s.inSharedArea a.tenant a.base (2 ^ a.ringlog)
       || (a.chimney && a.ordered == 1 && !s.inSharedArea a.tenant a.stage (a.stages * a.n * a.csize)) then 5
  else if a.chimney ∧ 4096 ≤ (s.flg.chims.filter fun e => e.2.used).length then 6
  else if a.chimney ∧ a.fwdEn = 1 ∧ (4096 < osize a.fmt a.csize ∨ (a.pchip = s.rt.chip ∧ a.pchan = a.channel)) then 7
  else 0
/-- R204, R217: the channel becomes OPEN. -/
def State.openChan (s : State) (a : ChAttr) : State :=
  let k := s.freeChimney
  let rp := s.flag a.rpflag
  let c : Channel :=
    { state := .opened, chimney := a.chimney, notifyEn := a.notifyEn, tenant := a.tenant, msglog := a.msglog, ringlog := a.ringlog,
      base := a.base, rpflag := a.rpflag, notify := a.notify, wp := rp, ac := rp, everOpen := true,
      k := if a.chimney then k else 0, kValid := a.chimney, kn := a.n, klines := a.csize / 64, kfmt := a.fmt }
  let s1 := s.setChan a.channel c
  let s1 := if s.depth (s.chan a.channel) ≠ 0 then s1.chanProgress a.channel else s1
  if a.chimney then
    s1.setChim k { used := true, fmt := a.fmt, ordered := a.ordered == 1, fwdEn := a.fwdEn == 1, n := a.n, clines := a.csize / 64,
                   stages := a.stages, stage := a.stage, pchip := a.pchip, pidx := a.pidx, pchan := a.pchan, chan := a.channel, cc0 := rp }
  else s1
/-- CH_OPEN: the result code of Table 7.4, and the channel opened when it is 0 (R204). -/
def State.chOpen (s : State) (a : ChAttr) : State × Nat :=
  match s.judgeOpen a with
  | 0 => (s.openChan a, 0)
  | c => (s, c)
/-- CH_CLOSE, CH_DISABLE and CH_ENABLE: judged now, in effect at the next increment of STK_BEAT (Table 7.3). -/
def State.chRequest (s : State) (c t : Nat) (r : ChReq) (illegal : Bool) : State × Nat :=
  let x := s.chan c
  let ok := match r with
    | .close _ => x.state == .opened
    | .disable => x.state == .opened && !x.dis
    | .enable => x.state == .opened && x.dis
  if illegal then (s, 2)
  else if !s.ownsChan t c then (s, 3)
  else if !ok then (s, 4)
  else (s.setChan c { x with reqs := x.reqs ++ [r] }, 0)
/-- A close takes effect (R211); the close of an abort clears the channel's mark (R227). -/
def State.closeChan (s : State) (c why : Nat) : State :=
  let x := s.chan c
  if x.state = .closed then s
  else if x.state = .closing ∧ why ≠ 3 then s
  else
    let first := x.state = .opened
    let s1 := s.setChan c { x with state := .closing, why := why, poison := x.poison && why != 3 }
    let s2 := if first ∧ x.chimney then
        let y := s1.chim x.k
        s1.setChim x.k { y with rounds := y.rounds.filter fun r => r.begun || r.written }
      else s1
    let s3 := s2.settleChan c
    if x.chimney then s3.settleChimney c else s3
/-- The accepted requests of a channel take effect, at an increment of STK_BEAT (Table 7.3). -/
def State.chApply (s : State) (c : Nat) : State :=
  let rs := (s.chan c).reqs
  rs.foldl (fun s r =>
    let x := s.chan c
    match r with
    | .close why => s.closeChan c why
    | .disable => s.setChan c { x with dis := true }
    | .enable => s.setChan c { x with dis := false }) (s.setChan c { s.chan c with reqs := [] })

/-! ### Flag increments from outside (R201, R227) -/

/-- A local increment whose delta is poisoned changes no flag: it marks the flag, and its owner's abort is decided (R227, R482). -/
def State.flagAddMarked (s : State) (t f : Nat) (d : Word) (poi : Bool) : State :=
  if poi && s.mayUseFlag t f then (s.setFlagPoi f true).consumePoison t 2 else s.flagAdd t f d
/-- A remote increment: applied, or refused with OWNER (7). -/
def State.flagRemote (s : State) (t f : Nat) (d : Word) : State × Nat :=
  if s.mayUseFlag t f then (s.bumpFlagP f d, 0) else (s, 7)

/-! ### The part's own messages (R215, R477) -/

/-- A one-line message of the part's own stoker or service core: the state and the status. -/
def State.ownMsg (s : State) (c unit : Nat) (b : Bytes) : State × Nat :=
  s.msgArrive c s.rt.chip unit 0 none 1 0 [(fit 64 b, false)]
/-- The mirror message of an entry (R477). -/
def mirrorBytes (chip : Nat) (e : LogEntry) : Bytes :=
  fit 64 (toBytes 2 0x20 ++ [BitVec.ofNat 8 chip, 0] ++ e.toList.flatMap fun w => toBytes 4 w.toNat)
/-- Sends the mirror messages of the entries logged by a command (R477). Log 78, DEDUCED. -/
def State.flush (s : State) : State :=
  let es := s.svc.toMirror
  es.foldl (fun s e =>
    let (s1, code) := s.ownMsg s.svc.mirrorChan sunitService (mirrorBytes s.rt.chip e)
    if code = 0 then s1 else { s1 with svc := { s1.svc with mirDrop := s1.svc.mirDrop + 1 } })
    { s with svc := { s.svc with toMirror := [] } }

end Sys2Proof.Machine
end

