-- ==== Sys2Proof/Machine/Hbm.lean ====
section
/-! DEFINITION. The HBM station (08_hbm_under_schedule.md): templates and address registers, the station check of R244,
what committed commands do to the stack, refresh, the mover engine and provisional staging. -/
namespace Sys2Proof.Machine

/-! ### The station clock (R237, R238) -/

/-- SCK per compute cycle at a grade (Table 12.2). -/
def sckRatio (g : Nat) : Nat × Nat :=
  match g with
  | 0 => (3, 4) | 1 => (40, 51) | 2 => (60, 73) | 3 => (120, 139) | 4 => (10, 11) | 5 => (20, 21) | 6 => (120, 119) | _ => (15, 14)
def State.grade (s : State) (q : Nat) : Nat := get 0 q s.clk.grade
/-- The first SCK edge at or after the start of cycle `c` of the beat, at grade `g` and phase `ph` (R238). -/
def sckStart (g ph c : Nat) : Nat :=
  let (n, d) := sckRatio g
  ceilDiv (c * n * 1000 - ph * d) (1000 * d)
/-- SCK edge `e` lies at or before the start of cycle `c`. Log 91, DEDUCED. -/
def sckBy (g ph c e : Nat) : Bool :=
  let (n, d) := sckRatio g
  e * 1000 * d + ph * d ≤ c * n * 1000
/-- The first compute cycle whose start is at or after SCK edge `e`. -/
def cycOfSck (g ph e : Nat) : Nat :=
  let (n, d) := sckRatio g
  ceilDiv (e * 1000 * d + ph * d) (n * 1000)

/-! ### Templates (R240, R241) -/

def tCmd (w : Nat) : Nat := field w 0 4
def tOff (w : Nat) : Nat := field w 4 12
def tCol (w : Nat) : Nat := field w 16 3
def tUoff (w : Nat) : Nat := field w 19 4
def tSoff (w : Nat) : Nat := field w 23 4
def tLen (w : Nat) : Nat := field w 16 11
/-- Commands that address a unit. -/
def unitCmd (c : Nat) : Bool := c == 1 || c == 2 || c == 3 || c == 4 || c == 7
/-- R241 from entry `j` on, with the last OFF. -/
def tplCheck : Nat → Nat → List Nat → Bool
  | _, _, [] => true
  | j, prev, w :: rest =>
    match tCmd w with
    | 0 => w == 0
    | 8 => j == 0 && tOff w == 0 && tLen w != 0 && field w 27 5 == 0 && (match rest with | e :: _ => e == 0 | [] => false)
    | c =>
      c ≤ 7 && field w 27 5 == 0 && prev ≤ tOff w
      && (c == 2 || c == 3 || (tCol w == 0 && tSoff w == 0)) && (unitCmd c || tUoff w == 0)
      && tplCheck (j + 1) (tOff w) rest
def Station.tplWords (x : Station) (n : Nat) : List Nat := (List.range 32).map fun j => (get 0 (32 * n + j) x.tpl).toNat
/-- The entries of a template up to its END. -/
def tplCmds (l : List Nat) : List Nat := l.takeWhile fun w => tCmd w != 0

/-! ### Units (R235, R236, R242) -/

/-- Bank of a unit: stack ID × 16 + bank group × 4 + bank. -/
def unitBank (u : Nat) : Nat := u / 64 % 3 * 16 + u / 16 % 4 * 4 + u / 4 % 4
def unitRow (u : Nat) : Nat := u / 192
/-- Local address of burst `c` of unit `u` on pseudo-channel `p` of quarter `q` (Table 8.2). -/
def burstAddr (q p u c : Nat) : Nat := hbmBase q + u * 2048 + p * 256 + c * 32
/-- First unit and unit count of an HBM area of the running entry's footprint in quarter `q` (R236, R242). -/
def State.areaUnits (s : State) (q id : Nat) : Option (Nat × Nat) :=
  let e := get ({} : Entry) (s.range q).entry s.stk.entries
  (e.areas.find? fun a => a.id == id && a.hbm && a.ranges.testBit q && decide (2048 ≤ a.len)).map fun a => (a.base / 2048, a.len / 2048)

/-! ### The station check (R239, R244) -/

/-- Least distance in SCK from command `a` to a later command `b` of one pseudo-channel (Table 8.3). Log 20, DEDUCED; log 21, DEDUCED. -/
def cmdGap (a b : HCmd) : Nat :=
  let same := a.bank == b.bank
  let grp := a.bank / 4 == b.bank / 4
  let all (c : Nat) : Bool := c == 5 || c == 6      -- PREA and REFAB act on every bank
  match a.cmd with
  | 1 =>
    match b.cmd with
    | 1 => if same then 57 else if grp then 5 else 3
    | 4 => if same then 40 else 0
    | 5 => 40
    | 2 => if same then 17 else 0
    | 3 => if same then 12 else 0
    | _ => 0
  | 2 =>
    match b.cmd with
    | 2 => if grp then 2 else 1
    | 3 => 31
    | 4 => if same then 6 else 0
    | 5 => 6
    | _ => 0
  | 3 =>
    match b.cmd with
    | 3 => if grp then 2 else 1
    | 2 => if grp then 23 else 17
    | 4 => if same then 33 else 0
    | 5 => 33
    | _ => 0
  | 4 => if b.cmd = 6 ∨ ((b.cmd = 1 ∨ b.cmd = 7) ∧ same) then 17 else 0
  | 5 => if b.cmd = 1 ∨ b.cmd = 6 ∨ b.cmd = 7 then 17 else 0
  | 6 => 420
  | 7 => if b.cmd = 7 then (if same then 192 else 10) else if same || all b.cmd then 192 else 0
  | _ => 0
/-- Row commands and column commands (R237). -/
def colCmd (c : Nat) : Bool := c == 2 || c == 3
/-- Two commands keep Table 8.3 and the bus slots of R237. -/
def pairOk (a b : HCmd) : Bool :=
  if a.cmd = 8 ∨ b.cmd = 8 then
    -- a program command, another window among them, inside a mover window, on either pseudo-channel of the channel (R248)
    let inside (w c : HCmd) : Bool := w.cmd == 8 && !c.own && c.pc / 2 == w.pc / 2 && w.at_ ≤ c.at_ && c.at_ < w.at_ + w.len
    !(inside a b || inside b a)
  else if a.pc ≠ b.pc then true
  else if a.at_ < b.at_ then cmdGap a b ≤ b.at_ - a.at_
  else if b.at_ < a.at_ then cmdGap b a ≤ a.at_ - b.at_
  else cmdGap a b == 0 && cmdGap b a == 0 && colCmd a.cmd != colCmd b.cmd
def pairsOk (old : List HCmd) : List HCmd → Bool
  | [] => true
  | c :: r => old.all (pairOk c) && r.all (pairOk c) && pairsOk old r
/-- Inserts a command behind those of its SCK and before. -/
def insertCmd (c : HCmd) : List HCmd → List HCmd
  | [] => [c]
  | x :: r => if x.at_ ≤ c.at_ then x :: insertCmd c r else c :: x :: r
/-- Any five ACTs span more than tFAW. -/
def fawOk : List Nat → Bool
  | a :: b :: c :: d :: e :: r => decide (16 < e - a) && fawOk (b :: c :: d :: e :: r)
  | _ => true
/-- Rule 5 over the merged sequence of one pseudo-channel: `rows` holds 1 + the open row by bank. A mover window finds
every bank closed with tRP met (R248); `last` is the SCK of the last precharge. -/
def banksOk : SMap Nat → Option Nat → List HCmd → Bool
  | _, _, [] => true
  | rows, last, c :: r =>
    let row := get 0 c.bank rows
    match c.cmd with
    | 1 => row == 0 && banksOk (put 0 c.bank (c.row + 1) rows) last r
    | 2 => row == c.row + 1 && banksOk rows last r
    | 3 => row == c.row + 1 && banksOk rows last r
    | 4 => row == c.row + 1 && banksOk (put 0 c.bank 0 rows) (some c.at_) r
    | 5 => banksOk [] (some c.at_) r
    | 6 => rows.isEmpty && banksOk rows last r
    | 7 => row == 0 && banksOk rows last r
    | 8 => rows.isEmpty && (match last with | some l => l + 17 ≤ c.at_ | none => true) && banksOk rows last r
    | _ => banksOk rows last r
/-- Commands of one pseudo-channel, mover windows of its channel among them. -/
def ofPc (p : Nat) (l : List HCmd) : List HCmd := l.filter fun c => c.pc == p || (c.cmd == 8 && c.pc / 2 == p / 2)
/-- Rules 3, 4 and 5 of R244 for new commands against the committed ones. -/
def stationOk (old new : List HCmd) : Bool :=
  let all := new.foldl (fun l c => insertCmd c l) old
  pairsOk old new
  && (List.range 8).all fun p =>
    let l := ofPc p all
    fawOk ((l.filter fun c => c.cmd == 1).map HCmd.at_) && banksOk [] none l
/-- SCK after a command's start up to which it keeps the stack busy (R244 rule 7). -/
def cmdHold (c : HCmd) : Nat :=
  match c.cmd with
  | 2 => 41 | 3 => 14 | 4 => 17 | 5 => 17 | 6 => 420 | 7 => 192 | 8 => c.len | _ => 1
/-- The SCK at whose start a command's effect on the state stands (R239, R245, R249). -/
def cmdEff (c : HCmd) : Nat := match c.cmd with | 2 => c.at_ + 41 | 3 => c.at_ + 13 | _ => c.at_

/-! ### Groups (R242 to R245, R247) -/

/-- The commands of a group: template entries at their SCK, with units, slots and the copied write data. -/
def groupCmds (x : Station) (pc start : Nat) (ar : AReg) (area : Nat × Nat) (ecc : List Nat) : List Nat → List HCmd
  | [] => []
  | w :: rest =>
    let c := tCmd w
    let u := area.1 + (ar.unit + tUoff w) % (max area.2 1)
    let sl := (ar.slot + tSoff w) % 128
    let blk := get ({} : Blk) sl x.wbuf
    let h : HCmd :=
      { at_ := start + tOff w, pc := pc, cmd := c, bank := if unitCmd c then unitBank u else 0, row := if unitCmd c then unitRow u else 0,
        unit := if unitCmd c then u else 0, col := if colCmd c then tCol w else 0, slot := if colCmd c then sl else 0,
        len := if c = 8 then tLen w else 0,
        data := if c = 3 then ((bytesOf blk.d).drop (32 * tCol w)).take 32 else [],
        poi := c == 3 && blk.poi.getLsbD (tCol w / 2), sev := if c = 2 then ecc.headD 0 else 0 }
    h :: groupCmds x pc start ar area (if c = 2 then ecc.tail else ecc) rest
/-- The commands a group would commit in cycle `t`, or nothing when R244 skips it. -/
def State.judgeGroup (s : State) (q t pc tpl ar : Nat) (adv : Bool) (ecc : List Nat) : Option (List HCmd) :=
  let x := (s.range q).stn
  let ws := x.tplWords tpl
  let es := tplCmds ws
  let r := get ({} : AReg) ar x.ar
  let uses := adv || es.any fun w => unitCmd (tCmd w)
  let g := s.grade q
  let start := sckStart g x.phase (t + 1)
  let area := s.areaUnits q r.area
  let cs := groupCmds x pc start r (area.getD (0, 1)) ecc es
  let landing (c : HCmd) : Bool := x.cmds.any fun o => o.cmd == 2 && o.slot == c.slot && o.col == c.col && decide (start < o.at_ + 41)
  let dup : List HCmd → Bool := fun l => hasDupSector l
  let early (p k : Nat) : Bool := decide (k < get 0 p x.engBusy)
  let inRescue (p k : Nat) : Bool := x.rescue.getLsbD p && decide (k < get 0 p x.rescueEnd)
  if !tplCheck 0 0 ws then none                                                        -- rule 1
  else if uses && area.isNone then none                                                -- rule 2
  else if !cs.all (fun c => sckBy g x.phase s.seamCyc (c.at_ + cmdHold c)) then none   -- rule 7
  else if cs.any (fun c => c.cmd != 5 && c.cmd != 6 && (inRescue c.pc c.at_ || (c.cmd == 8 && inRescue (c.pc ^^^ 1) c.at_))) then none   -- rule 8
  else if cs.any (fun c => c.cmd == 2 && landing c) || dup (cs.filter fun c => c.cmd == 2) then none   -- rule 6
  else if cs.any (fun c => early c.pc c.at_ || (c.cmd == 8 && early (c.pc ^^^ 1) c.at_)) then none   -- rule 3, own commands from before the beat
  else if !stationOk x.cmds cs then none                                               -- rules 3, 4, 5
  else some cs
where
  /-- two RDs of one group fill one sector -/
  hasDupSector : List HCmd → Bool
    | [] => false
    | c :: r => (r.any fun o => o.slot == c.slot && o.col == c.col) || hasDupSector r
/-- New landing bounds of a committed group (R245). -/
def groupBounds (t start : Nat) (cs : List HCmd) (b : SMap Nat) : SMap Nat :=
  (cs.filter fun c => c.cmd == 2).foldl (fun m c => put 0 c.slot (max (get 0 c.slot m) (t + 1 + ceilDiv ((c.at_ - start + 42) * 4) 3)) m)
    ((cs.filter fun c => c.cmd == 2).foldl (fun m c => put 0 c.slot 0 m) b)
/-- The advance of an address register (R242). -/
def AReg.advance (r : AReg) (n : Nat) : AReg :=
  { r with unit := (((r.unit : Int) + r.ustep) % (n : Int)).toNat, slot := (r.slot + r.sstep) % 128 }
/-- GROUP in cycle `t` (R244): commits the group and advances, or nothing where it is skipped. -/
def State.group (s : State) (q t : Nat) (sl : Nat) (ecc : List Nat) : Option State :=
  match s.judgeGroup q t (hPc sl) (hTpl sl) (hAr sl) (hAdv sl) ecc with
  | none => none
  | some cs =>
    let r := s.range q
    let x := r.stn
    let a := get ({} : AReg) (hAr sl) x.ar
    let x1 := { x with cmds := cs.foldl (fun l c => insertCmd c l) x.cmds, bound := groupBounds t (sckStart (s.grade q) x.phase (t + 1)) cs x.bound }
    let x2 := if hAdv sl then
        match s.areaUnits q a.area with
        | some (_, n) => { x1 with ar := put {} (hAr sl) (a.advance n) x1.ar }
        | none => x1
      else x1
    some (s.setRange q { r with stn := x2 })

/-! ### Effects of commands on the stack (R245, R253 to R256, R262 to R264) -/

def State.stn (s : State) (q : Nat) : Station := (s.range q).stn
def State.setStn (s : State) (q : Nat) (x : Station) : State := s.setRange q { s.range q with stn := x }
/-- The severity a burst read returns (R262). -/
def State.burstSeverity (s : State) (q p a sev : Nat) : State :=
  if sev = 1 then
    let x := s.stn q
    s.setStn q { x with ce := upd 0 p (· + 1) x.ce, ceNew := x.ceNew + 1 }
  else if sev = 2 then
    let x := s.stn q
    (s.setStn q { x with ue := upd 0 p (· + 1) x.ue }).log 0x0502 .contained (.quarter q) none [p, a % 2 ^ 32, a / 2 ^ 32]
  else s
/-- A burst as a program's RD or the mover engine reads it: zero bytes from an unconfirmed staging block (R253). -/
def State.readBurst (s : State) (q p a sev : Nat) : State × Bytes × Bool :=
  if s.unconfirmed a then (s, List.replicate 32 0, false)
  else (s.burstSeverity q p a sev, readBytes s.mem a 32, s.ptabAt a != 0 || sev == 2)
/-- A refresh reaches its start: credited, or elided at D = −4 (R254, R255). -/
def Station.credit (x : Station) (p : Nat) : Station :=
  if get 0 p x.debt = -4 then { x with elided := x.elided + 1 } else { x with debt := upd 0 p (· - 1) x.debt }
/-- An REFPB: a whole sweep of the 48 banks earns one credit; the REFPB that would earn it is elided at D = −4. -/
def Station.refpb (x : Station) (p bank : Nat) : Station :=
  let m := get 0 p x.sweep ||| BitVec.twoPow 48 bank
  if m = BitVec.allOnes 48 then
    if get 0 p x.debt = -4 then { x with elided := x.elided + 1 }
    else { (x.credit p) with sweep := put 0 p 0 x.sweep }
  else { x with sweep := put 0 p m x.sweep }
/-- The effect of a committed command. -/
def State.playCmd (s : State) (q : Nat) (c : HCmd) : State :=
  match c.cmd with
  | 2 =>
    let a := burstAddr q c.pc c.unit c.col
    let (s1, b, poi) := s.readBurst q c.pc a c.sev
    let x := s1.stn q
    let old := get ({} : Blk) c.slot x.land
    let by_ := bytesOf old.d
    let m := get 0 c.slot x.landPoi
    let m' := if poi then m ||| 2 ^ c.col else m &&& (255 ^^^ 2 ^ c.col)
    let blk : Blk := { d := lanesOf (by_.take (32 * c.col) ++ b ++ by_.drop (32 * c.col + 32)),
                       poi := poiOf ((List.range 4).map fun L => field m' (2 * L) 2 != 0) }
    s1.setStn q { x with land := put {} c.slot blk x.land, landPoi := put 0 c.slot m' x.landPoi }
  | 3 =>
    let s1 := s.placeBurst (burstAddr q c.pc c.unit c.col) c.data c.poi
    if c.poi then s1.consumePoison (s.range q).tenant 1 else s1
  | 6 =>
    let x := (s.stn q).credit c.pc
    s.setStn q (if c.own then { x with autoref := x.autoref + 1 } else x)
  | 7 => s.setStn q ((s.stn q).refpb c.pc c.bank)
  | _ => s
/-- Inserts by the time of the effect. -/
def insertEff (c : HCmd) : List HCmd → List HCmd
  | [] => [c]
  | x :: r => if cmdEff x ≤ cmdEff c then x :: insertEff c r else c :: x :: r
/-- Leaves rescue on the pseudo-channels whose last REFAB has ended (R256). -/
def Station.leaveRescue (x : Station) (ended : Nat → Bool) : Station :=
  { x with rescue := BitVec.ofNat 8 ((List.range 8).foldl (fun m p => if x.rescue.getLsbD p && !ended (get 0 p x.rescueEnd) then m + 2 ^ p else m) 0) }
/-- Pseudo-channel of a local HBM address (Table 8.2). -/
def addrPc (a : Nat) : Nat := a % hbmQuarter / 256 % 8
/-- Local part of a fabric address. -/
def localAddr (a : Nat) : Nat := a % 2 ^ 40
/-- Reads `n` lines burst by burst with the severities of the operand. -/
def State.readLinesHbm (s : State) (q p a : Nat) : Nat → List Nat → State × Bytes × List Bool
  | 0, _ => (s, [], [])
  | n + 1, ecc =>
    let (s1, b0, p0) := s.readBurst q p a (ecc.headD 0)
    let (s2, b1, p1) := s1.readBurst q p (a + 32) (ecc.tail.headD 0)
    let (s3, b, ps) := State.readLinesHbm s2 q p (a + 64) n ecc.tail.tail
    (s3, b0 ++ b1 ++ b, (p0 || p1) :: ps)
/-- Writes lines with their marks; a marked line consumes poison for a tenant's descriptor (R265). -/
def State.writeLines (s : State) (a : Nat) : Bytes → List Bool → State
  | _, [] => s
  | d, m :: ms => State.writeLines (s.placeLine a (d.take 64) m) (a + 64) (d.drop 64) ms
/-- Performs a queued load of the station: the answer goes to the station's loads to inject. -/
def State.serveLoad (s : State) (q : Nat) (l : Load) (ecc : List Nat) : State :=
  let a := localAddr l.addr
  let back (k : LoadKind) (d : Bytes) (p : List Bool) : Load :=
    { l with kind := k, dq := l.sq, ds := l.ss, sq := q, ss := 5, data := d, poi := p }
  match l.kind with
  | .write =>
    let s1 := s.writeLines a l.data (l.poi ++ List.replicate (l.lines - l.poi.length) false)
    let s2 := if l.poi.any id then s1.consumePoison l.tenant 1 else s1
    let x := s2.stn q
    s2.setStn q { x with outLoads := x.outLoads ++ [back .ack [] []] }
  | .readReq =>
    let (s1, d, ps) := s.readLinesHbm q (addrPc a) a l.lines ecc
    let x := s1.stn q
    s1.setStn q { x with outLoads := x.outLoads ++ [back .readData d ps] }
  | _ => s
/-- Places an access of the mover engine by its end. -/
def insertServ (c : Nat × Load × List Nat) : List (Nat × Load × List Nat) → List (Nat × Load × List Nat)
  | [] => [c]
  | x :: r => if x.1 ≤ c.1 then x :: insertServ c r else c :: x :: r
/-- The mover engine's accesses that have ended are placed, and answered (R249). -/
def State.serveDue (s : State) (q : Nat) (due : Nat → Bool) : State :=
  let x := s.stn q
  let s1 := s.setStn q { x with serving := x.serving.filter fun c => !due c.1 }
  (x.serving.filter fun c => due c.1).foldl (fun s c => s.serveLoad q c.2.1 c.2.2) s1
/-- Performs every command and access whose effect is due, in the order of their effects. -/
def State.playDue (s : State) (q : Nat) (due : Nat → Bool) : State :=
  let x := s.stn q
  let ds := (x.cmds.filter fun c => !c.done && due (cmdEff c)).foldl (fun l c => insertEff c l) []
  let s1 := s.setStn q { x with cmds := x.cmds.map fun c => if due (cmdEff c) then { c with done := true } else c }
  let s2 := ds.foldl (fun s c => s.playCmd q c) s1
  (s2.setStn q ((s2.stn q).leaveRescue due)).serveDue q due
/-- The refreshes that start before SCK `k` are performed (R255). -/
def State.playRefs (s : State) (q k : Nat) : State :=
  let x := s.stn q
  let now (c : HCmd) : Bool := !c.done && (c.cmd == 6 || c.cmd == 7) && decide (c.at_ < k)
  let s1 := s.setStn q { x with cmds := x.cmds.map fun c => if now c then { c with done := true } else c }
  (x.cmds.filter now).foldl (fun s c => s.playCmd q c) s1
/-- What the station has done by the start of cycle `c`. -/
def State.playTo (s : State) (q c : Nat) : State :=
  let g := s.grade q
  let ph := (s.stn q).phase
  s.playDue q fun e => sckBy g ph c e
/-- Every committed command runs to its end. -/
def State.playAll (s : State) (q : Nat) : State := s.playDue q fun _ => true

/-! ### Refresh (R254 to R258) -/

/-- SCK from which an own command of pseudo-channel `p` is legal after all commands committed there. -/
def ownAfter (cs : List HCmd) (c : HCmd) : Nat :=
  (ofPc c.pc cs).foldl (fun m o => max m (if o.cmd = 8 then o.at_ + o.len else o.at_ + max (cmdGap o c) 1)) c.at_
/-- Adds an own command at its earliest legal SCK from `at_` on. -/
def Station.own (x : Station) (c : HCmd) : Station :=
  { x with cmds := insertCmd { c with at_ := ownAfter x.cmds c, own := true } x.cmds }
/-- The station is in RUN: trained, present and out of self-refresh (R254, R259, R261). -/
def Station.inRun (x : Station) : Bool := x.trained == 15 && !x.withdrawn && !x.selfref
/-- REFABs that pseudo-channel `p` needs beyond those committed and not yet begun, until D is 0 (R256). -/
def Station.owed (x : Station) (p : Nat) : Nat :=
  (get 0 p x.debt - ((x.cmds.filter fun c => c.cmd == 6 && c.pc == p && !c.done).length : Int)).toNat
/-- `n` REFABs of the station, one after the other (R256). -/
def Station.ownRefabs (x : Station) (p k : Nat) : Nat → Station
  | 0 => x
  | n + 1 => (x.own { at_ := k, pc := p, cmd := 6 }).ownRefabs p k n
/-- REFAB until D is 0 on a pseudo-channel in rescue (R256). -/
def Station.rescueRefabs (x : Station) (p k : Nat) : Station :=
  let y := x.ownRefabs p k (x.owed p)
  { y with rescueEnd := put 0 p (y.cmds.foldl (fun m c => if c.pc = p ∧ c.cmd = 6 ∧ c.own then max m (c.at_ + 420) else m) 0) y.rescueEnd }
/-- Enters rescue at SCK `k`: PREA once the committed commands permit, then REFAB until D is 0 (R256). -/
def Station.enterRescue (x : Station) (p k : Nat) : Station :=
  let x1 := x.own { at_ := k, pc := p, cmd := 5 }
  let x2 := x1.rescueRefabs p k
  { x2 with rescue := x2.rescue ||| BitVec.twoPow 8 p }
/-- REFABs of the station outside a program, one after the other, from SCK `k` on and behind what holds the pseudo-channel (R239, R250, R256). -/
def Station.autoRefresh (x : Station) (p k : Nat) : Nat → Station
  | 0 => x
  | n + 1 =>
    let e := max k (get 0 p x.engBusy)
    ({ x with cmds := insertCmd { at_ := e, pc := p, cmd := 6, own := true } x.cmds, engBusy := put 0 p (e + 420) x.engBusy } : Station).autoRefresh p k n
/-- A tick of the refresh timer on pseudo-channel `p` at SCK `k` (R254, R256); the refreshes that start before `k` have
been performed. Log 93, DEDUCED. -/
def State.refreshTick (s : State) (q p k : Nat) : State :=
  let s := s.playRefs q k
  let x := s.stn q
  if x.inRun then
    let d := get 0 p x.debt + 1
    let x1 := { x with debt := put 0 p d x.debt }
    match (s.range q).phase with
    | .run =>
      if x.rescue.getLsbD p then s.setStn q (x1.rescueRefabs p k)
      else if d = 5 then (s.setStn q (x1.enterRescue p k)).log 0x0503 .contained (.quarter q) none [p]
      else s.setStn q x1
    | .idle => s.setStn q (x1.autoRefresh p k (x1.owed p))
    | .seam => s.setStn q (if x.rescue.getLsbD p then x1.rescueRefabs p k else x1)
  else s
/-- At cycle S, the SCK `k`: every bank is closed once Table 8.3 permits, and one REFAB goes to each pseudo-channel in order, 8 SCK apart, behind the
commands committed there (R256). -/
def State.seamRefresh (s : State) (q : Nat) : State :=
  let x := s.stn q
  let k := sckStart (s.grade q) x.phase s.seamCyc
  if x.inRun then
    let (y, _) := (List.range 8).foldl (fun (a : Station × Nat) p =>
      let e := max a.2 (max (get 0 p a.1.engBusy) (ownAfter x.cmds { at_ := k, pc := p, cmd := 5 } + 17))
      (a.1.autoRefresh p e 1, e + 8)) (x, k)
    s.setStn q { y with cmds := y.cmds.filter fun c => !c.done }
  else s
/-- At the start of an idle beat: REFABs where D already stands at 1 or more (R256). -/
def State.idleRefresh (s : State) (q : Nat) : State :=
  let x := s.stn q
  if x.inRun then s.setStn q ((List.range 8).foldl (fun y p => y.autoRefresh p 0 (y.owed p)) x) else s
/-- What the station carries on when SCK `n` is counted as SCK `f`, as where a beat of `n` SCK ends and the next begins: its own commands and accesses
still under way, and what they hold. -/
def Station.carry (x : Station) (n f : Nat) : Station :=
  let sub (m : SMap Nat) : SMap Nat := m.filterMap fun e => if n < e.2 then some (e.1, e.2 - n + f) else none
  { x with cmds := (x.cmds.filter fun c => !c.done).map fun c => { c with at_ := c.at_ - n + f }, engBusy := sub x.engBusy, rescueEnd := sub x.rescueEnd,
           serving := x.serving.map fun c => (c.1 - n + f, c.2) }
/-- R258. -/
def State.tempRead (s : State) (q : Nat) (temp : Int) : State :=
  let x := s.stn q
  let s1 := s.setStn q { x with temp := temp }
  if x.temp ≤ 105 ∧ 105 < temp then s1.log 0x0504 .contained (.quarter q) none [(temp % 2 ^ 32).toNat] else s1
/-- The station enters self-refresh: every committed command completes first (R259). -/
def State.enterSelfref (s : State) (q : Nat) : State :=
  let s1 := s.playAll q
  s1.setStn q { s1.stn q with selfref := true, cmds := [], rescue := 0, rescueEnd := [], engBusy := [], serving := [] }
/-- It leaves self-refresh: D becomes 0 (R256, R259). -/
def State.leaveSelfref (s : State) (q : Nat) : State :=
  let x := s.stn q
  if x.withdrawn then s else s.setStn q { x with selfref := false, debt := [] }

/-! ### The mover engine (R248 to R250, R262, R264) -/

/-- The engine's commands for an access of `n` bursts that starts at SCK `k`, its closing PRE last. -/
def engineCmds (p k a n : Nat) (write : Bool) : List HCmd :=
  let u := a % hbmQuarter / 2048
  let c0 := a % 256 / 32
  let first := if write then 12 else 17
  let pre := max 40 (first + 2 * (n - 1) + (if write then 33 else 6))
  let mk (o c col : Nat) : HCmd := { at_ := k + o, pc := p, cmd := c, bank := unitBank u, row := unitRow u, unit := u, col := col, own := true, done := true }
  mk 0 1 0 :: ((List.range n).map fun j => mk (first + 2 * j) (if write then 3 else 2) (c0 + j)) ++ [mk pre 4 0]
def engineEnd (cs : List HCmd) : Nat := cs.foldl (fun m c => max m (c.at_ + 17)) 0
/-- SCK at which the last burst of an access has been written, or has landed (R239, R249). -/
def engineDone (cs : List HCmd) : Nat := cs.foldl (fun m c => if colCmd c.cmd then max m (cmdEff c) else m) 0
/-- May the engine begin this access at SCK `k` of a program's beat: inside a mover window of the channel, with its PRE
and tRP, and within Table 8.3 (R249)?. Log 92, DEDUCED. -/
def Station.engineFits (x : Station) (p k a n : Nat) (write : Bool) : Bool :=
  let cs := engineCmds p k a n write
  (x.cmds.any fun w => w.cmd == 8 && w.pc / 2 == p / 2 && decide (w.at_ ≤ k) && decide (engineEnd cs ≤ w.at_ + w.len))
  && decide (get 0 p x.engBusy ≤ k) && stationOk x.cmds cs
/-- Takes the first load of the queue for pseudo-channel `p`. -/
def takePc (p : Nat) : List Load → Option (Load × List Load)
  | [] => none
  | l :: r => if addrPc (localAddr l.addr) = p then some (l, r) else (takePc p r).map fun x => (x.1, l :: x.2)
/-- The engine begins the oldest queued access of pseudo-channel `p` at SCK `k` (R249): inside a mover window while a program runs; else once the station's
own refresh leaves the pseudo-channel free, and before a program that has been selected begins (R239, R250). Its effect comes when its last burst
has been written or has landed. Log 92, DEDUCED. -/
def State.engineAccess (s : State) (q p k : Nat) (ecc : List Nat) : State :=
  let r := s.range q
  let x := r.stn
  if !x.inRun || r.halted then s
  else match takePc p x.movq with
    | none => s
    | some (l, rest) =>
      let n := 2 * l.lines
      let a := localAddr l.addr
      let w := l.kind == .write
      let cs := engineCmds p k a n w
      let y := { x with movq := rest, engBusy := put 0 p (engineEnd cs) x.engBusy, serving := insertServ (engineDone cs, l, ecc) x.serving }
      if r.phase = .run then
        if x.engineFits p k a n w then s.setStn q { y with cmds := cs.foldl (fun l c => insertCmd c l) x.cmds } else s
      else if get 0 p x.engBusy ≤ k ∧ (r.valid = false ∨ r.phase ≠ .seam ∨ engineEnd cs ≤ sckStart (s.grade q) x.phase s.beatLen) then s.setStn q y
      else s

/-! ### Provisional staging (R251 to R253) -/

/-- The staging area that holds a local address. -/
def State.stagingArea (s : State) (a : Nat) : Option Area :=
  s.shared.find? fun x => x.staging && x.hbm && isHbm a && x.ranges.testBit (a / hbmQuarter) && decide (x.base ≤ a % hbmQuarter) && decide (a % hbmQuarter < x.base + x.len)
/-- Empties a block. -/
def State.emptyBlock (s : State) (b : Nat) : State :=
  { s with stage := put (0, 0) b (0, 0) s.stage, stageFill := s.stageFill.filter fun e => !(1024 * b ≤ e.1 && e.1 < 1024 * (b + 1)) }
/-- A VC5 write of lines placed in one block (R251); its caller has judged it under R294. Log 94, DEDUCED. -/
def State.stageWrite (s : State) (a : Nat) (ls : List (Bytes × Bool)) : State :=
  let b := stagingBlock a
  let (st, _) := get (0, 0) b s.stage
  if st = 2 then
    let q := a / hbmQuarter
    let x := s.stn q
    s.setStn q { x with stgdrop := x.stgdrop + 1 }
  else
    let s1 := s.placeLines a 0 ls
    let fill := (List.range ls.length).foldl (fun m j => put false (a / 64 + j) true m) s1.stageFill
    let whole (c : Nat) : Bool := (List.range 32).all fun j => get false (1024 * b + 32 * c + j) fill
    let mask := (List.range 32).foldl (fun m c => if whole c then m + 2 ^ c else m) 0
    { s1 with stageFill := fill, stage := put (0, 0) b (1, mask) s1.stage }
/-- A staging request is refused with this code (Table 8.7), 0 when it is accepted. -/
def State.judgeStaging (s : State) (t : Nat) (d : Bytes) : Nat :=
  let a := le d 0 8
  let op := le d 8 1
  let bad := decide (2 ^ 40 ≤ a) || decide (a % 0x10000 ≠ 0) || !(op == 1 || op == 2) || le d 9 1 != 0 || decide (0x4000 ≤ le d 10 2)
             || (d.drop 12).any fun b => b != 0
  if bad then 8
  else match s.stagingArea a with
    | none => 8
    | some x => if x.tenant = t then 0 else 7
/-- CONFIRM (R252). -/
def State.stageConfirm (s : State) (t : Nat) (d : Bytes) : State :=
  let b := stagingBlock (le d 0 8)
  let (st, m) := get (0, 0) b s.stage
  if st = 1 ∧ m = 0xFFFFFFFF then ({ s with stage := put (0, 0) b (2, m) s.stage }).flagAdd t (le d 10 2) 1
  else s.emptyBlock b
/-- RELEASE (R252). -/
def State.stageRelease (s : State) (d : Bytes) : State := s.emptyBlock (stagingBlock (le d 0 8))

end Sys2Proof.Machine
end

