-- ==== Sys2Proof/Machine/Fp.lean ====
section
/-! DEFINITION. Number formats, rounding and special values of the hob (02_the_hob.md, R44 to R59).

A finite value is an exact integer in units of 2^-300: every finite FP32 value, every product of two of them
and every scaled MXFP4 product is a whole number of such units. -/
namespace Sys2Proof.Machine

/-- A value of a number format: NaN, an infinity, or a finite value in units of 2^-300.
The sign of a zero is kept apart. -/
inductive FVal
  | nan
  | inf (neg : Bool)
  | fin (neg : Bool) (x : Int)
  deriving DecidableEq, Repr

/-- The unit exponent of `FVal.fin`. -/
def fpScale : Nat := 300

/-- A finite value from sign and magnitude. -/
def FVal.ofMag (neg : Bool) (m : Nat) : FVal := .fin neg (if neg then -(m : Int) else (m : Int))
/-- The magnitude in units of 2^-300. -/
def FVal.mag : FVal → Nat
  | .fin _ x => x.natAbs
  | _ => 0
/-- The sign of the value. -/
def FVal.sgn : FVal → Bool
  | .nan => false
  | .inf s => s
  | .fin s _ => s
/-- Sign inversion. -/
def FVal.neg : FVal → FVal
  | .nan => .nan
  | .inf s => .inf (!s)
  | .fin s x => .fin (!s) (-x)

/-- Round-to-nearest, ties to even, of `m / 2^k` to an integer (R46). -/
def rne (m k : Nat) : Nat :=
  let q := m >>> k
  let r := m % 2 ^ k
  if 2 * r > 2 ^ k ∨ (2 * r = 2 ^ k ∧ q % 2 = 1) then q + 1 else q

/-- The unbounded code of the magnitude `m` (units of 2^-300) in a format with `p` significant bits and least
exponent `emin` (as an offset: the format's least quantum is 2^(-lowq)): exponent step times 2^(p-1) plus significand. -/
def roundCode (p lowq m : Nat) : Nat :=
  if m = 0 then 0 else
    let top := m.log2
    -- quantum position in units of 2^-300: the larger of (top - p + 1) and (300 - lowq)
    let q := max (top + 1 - p) (fpScale - lowq)
    (q - (fpScale - lowq)) * 2 ^ (p - 1) + rne m q

/-! ### FP32 (R44, R45) -/

/-- The canonical FP32 NaN (R45). -/
def nan32 : Word := 0x7FC00000#32
/-- Decoding of FP32. -/
def dec32 (w : Word) : FVal :=
  let b := w.toNat
  let s := decide (b / 2 ^ 31 = 1)
  let e := field b 23 8
  let m := field b 0 23
  if e = 255 then (if m = 0 then .inf s else .nan)
  else if e = 0 then .ofMag s (m * 2 ^ 151)
  else .ofMag s ((m + 2 ^ 23) * 2 ^ (150 + e))
/-- Encoding of a value to FP32: one rounding, overflow to infinity (R46, R52). -/
def enc32 : FVal → Word
  | .nan => nan32
  | .inf s => if s then 0xFF800000#32 else 0x7F800000#32
  | .fin s x =>
    let c := min (roundCode 24 149 x.natAbs) 0x7F800000
    BitVec.ofNat 32 (c + if s then 2 ^ 31 else 0)

/-- Exact sum; a zero sum is −0 only when both operands are −0 (IEEE 754 addition). -/
def FVal.add : FVal → FVal → FVal
  | .nan, _ => .nan
  | _, .nan => .nan
  | .inf a, .inf b => if a = b then .inf a else .nan
  | .inf a, _ => .inf a
  | _, .inf b => .inf b
  | .fin a x, .fin b y =>
    let z := x + y
    if z = 0 then .fin (if x = 0 then a && b else false) 0 else .fin (decide (z < 0)) z
/-- Exact product. -/
def FVal.mul : FVal → FVal → FVal
  | .nan, _ => .nan
  | _, .nan => .nan
  | .inf a, .inf b => .inf (a != b)
  | .inf a, .fin b y => if y = 0 then .nan else .inf (a != b)
  | .fin a x, .inf b => if x = 0 then .nan else .inf (a != b)
  | .fin a x, .fin b y => .ofMag (a != b) (x.natAbs * y.natAbs / 2 ^ fpScale)

def fpAdd (a b : Word) : Word := enc32 ((dec32 a).add (dec32 b))
def fpMul (a b : Word) : Word := enc32 ((dec32 a).mul (dec32 b))
/-- a × b + c with one rounding (Table 2.4). -/
def fpFma (a b c : Word) : Word := enc32 (((dec32 a).mul (dec32 b)).add (dec32 c))

/-- Is the pattern a NaN? -/
def isNan32 (w : Word) : Bool := decide (dec32 w = .nan)
/-- The order key of a non-NaN pattern in which −0 lies below +0 (MIN and MAX of Table 2.4). -/
def ordKey (w : Word) : Int :=
  let m : Nat := w.toNat % 2 ^ 31
  if w.toNat / 2 ^ 31 = 1 then -(m : Int) - 1 else (m : Int)
/-- The order key of IEEE 754 comparison, in which −0 equals +0. -/
def cmpKey (w : Word) : Int :=
  let m : Nat := w.toNat % 2 ^ 31
  if w.toNat / 2 ^ 31 = 1 then -(m : Int) else (m : Int)
def fpMin (a b : Word) : Word :=
  if isNan32 a || isNan32 b then nan32 else if ordKey b < ordKey a then b else a
def fpMax (a b : Word) : Word :=
  if isNan32 a || isNan32 b then nan32 else if ordKey a < ordKey b then b else a
/-- A comparison mask: all ones or all zeros; `onNan` is the result with a NaN operand (Table 2.4). -/
def fpCmp (rel : Int → Int → Bool) (onNan : Bool) (a b : Word) : Word :=
  if (if isNan32 a || isNan32 b then onNan else rel (cmpKey a) (cmpKey b)) then 0xFFFFFFFF#32 else 0#32
/-- SEL: a where bit 31 of the mask is 1, else b (Table 2.4). -/
def fpSel (m a b : Word) : Word := if m.getLsbD 31 then a else b
/-- Inversion of bit 31 (R118). -/
def negIf (n : Bool) (w : Word) : Word := if n then w ^^^ 0x80000000#32 else w

/-! ### Correctly rounded functions (R55) -/

/-- Newton's integer square root from a start not below the root. -/
def isqrtGo : Nat → Nat → Nat → Nat
  | 0, _, x => x
  | k + 1, n, x =>
    let y := (x + n / x) / 2
    if y < x then isqrtGo k n y else x
/-- The integer square root. -/
def isqrt (n : Nat) : Nat := if n = 0 then 0 else isqrtGo (n.log2 + 2) n (2 ^ (n.log2 / 2 + 1))

/-- 1 / a, with a sticky low bit where the quotient is not exact. -/
def fpRcp (a : Word) : Word :=
  enc32 <| match dec32 a with
    | .nan => .nan
    | .inf s => .fin s 0
    | .fin s x =>
      if x = 0 then .inf s else
        let n := 2 ^ (2 * fpScale)
        let q := n / x.natAbs
        .ofMag s (if q * x.natAbs = n then q else (if q % 2 = 0 then q + 1 else q))
/-- 1 / √a (Table 2.4). -/
def fpRsqrt (a : Word) : Word :=
  enc32 <| match dec32 a with
    | .nan => .nan
    | .inf s => if s then .nan else .fin false 0
    | .fin s x =>
      if x = 0 then .inf s else if s then .nan else
        let n := 2 ^ (3 * fpScale)
        let r := isqrt (n / x.natAbs)
        .ofMag false (if r * r * x.natAbs = n then r else (if r % 2 = 0 then r + 1 else r))

/-- 2^(0.b₁b₂…) in units of 2^-P, from the fraction's bits, lowest first: each bit halves the exponent so far. -/
def exp2Frac (P : Nat) : List Bool → Nat → Nat
  | [], r => r
  | b :: bs, r => exp2Frac P bs (isqrt ((if b then 2 * r else r) * 2 ^ P))
/-- The bits of `x` from position 0 up to `n - 1`. -/
def lowBits (n x : Nat) : List Bool := (List.range n).map fun i => x.testBit i
/-- Rounds the two ends of an interval; the result is settled when they round alike, else the precision rises. -/
def settle (f : Nat → Int × Int) : Nat → Nat → Word
  | 0, P => enc32 (.fin (decide ((f P).1 < 0)) (f P).1)
  | k + 1, P =>
    let lo := enc32 (.fin (decide ((f P).1 < 0)) (f P).1)
    let hi := enc32 (.fin (decide ((f P).2 < 0)) (f P).2)
    if lo = hi then lo else settle f k (2 * P)
/-- A power of two times `m / 2^P`, in units of 2^-300, rounded down. -/
def scaleTo (m : Nat) (P : Nat) (n : Int) : Nat :=
  let e : Int := n + fpScale - P
  if 0 ≤ e then m * 2 ^ e.toNat else m / 2 ^ (-e).toNat
/-- 2^a, correctly rounded (R55). An integral a is exact; a fractional a gives an irrational result, so the ends
of a narrow interval round alike at some precision. Log 79, DEDUCED. -/
def fpExp2 (a : Word) : Word :=
  match dec32 a with
    | .nan => nan32
    | .inf s => if s then 0#32 else enc32 (.inf false)
    | .fin s x =>
      let n : Int := x / (2 ^ fpScale : Nat)          -- floor
      let f : Nat := (x % (2 ^ fpScale : Nat)).toNat
      if n ≥ 128 then enc32 (.inf false)
      else if n < -151 then 0#32
      else if f = 0 then enc32 (.fin false (scaleTo 1 0 n))
      else
        -- the fraction has at most 149 bits below the point
        let g := f / 2 ^ (fpScale - 149)
        let _ := s
        settle (fun P =>
          let r := exp2Frac P (lowBits 149 g) (2 ^ P)
          ((scaleTo (r - 2) P n : Int), (scaleTo (r + 4) P n : Int) + 1)) 3 240
/-- Bits of log2 of m / 2^P in [1,2), highest first, by repeated squaring. -/
def log2Frac (P : Nat) : Nat → Nat → Nat → Nat
  | 0, _, acc => acc
  | k + 1, m, acc =>
    let sq := m * m / 2 ^ P
    if sq ≥ 2 ^ (P + 1) then log2Frac P k (sq / 2) (2 * acc + 1) else log2Frac P k sq (2 * acc)
/-- log2 a, correctly rounded (R55). A power of two is exact; any other result is irrational. -/
def fpLog2 (a : Word) : Word :=
  match dec32 a with
    | .nan => nan32
    | .inf s => if s then nan32 else enc32 (.inf false)
    | .fin s x =>
      if x = 0 then enc32 (.inf true) else if s then nan32 else
        let top := x.natAbs.log2
        let e : Int := (top : Int) - fpScale
        if x.natAbs = 2 ^ top then enc32 (.fin (decide (e < 0)) (e * (2 ^ fpScale : Nat)))
        else
          settle (fun K =>
            let P := 2 * K + 64
            let m := x.natAbs * 2 ^ P / 2 ^ top
            let fr := log2Frac P K m 0
            let v : Int := e * (2 ^ fpScale : Nat) + (fr * 2 ^ fpScale / 2 ^ K : Nat)
            let eps : Int := ((4 * 2 ^ fpScale / 2 ^ K : Nat) : Int) + 1
            (v - eps, v + eps)) 3 200

/-! ### Narrower formats (R44, R57) -/

/-- FP8 E4M3. -/
def decE4M3 (b : Nat) : FVal :=
  let s := decide (field b 7 1 = 1)
  let e := field b 3 4
  let m := field b 0 3
  if e = 15 ∧ m = 7 then .nan
  else if e = 0 then .ofMag s (m * 2 ^ (fpScale - 9))
  else .ofMag s ((m + 8) * 2 ^ (fpScale - 10 + e))
/-- FP8 E5M2. -/
def decE5M2 (b : Nat) : FVal :=
  let s := decide (field b 7 1 = 1)
  let e := field b 2 5
  let m := field b 0 2
  if e = 31 then (if m = 0 then .inf s else .nan)
  else if e = 0 then .ofMag s (m * 2 ^ (fpScale - 16))
  else .ofMag s ((m + 4) * 2 ^ (fpScale - 17 + e))
/-- INT8. -/
def decI8 (b : Nat) : FVal :=
  let x := signed 8 b
  .fin (decide (x < 0)) (x * (2 ^ fpScale : Nat))
/-- E2M1, the MXFP4 element. -/
def decE2M1 (b : Nat) : FVal :=
  let s := decide (field b 3 1 = 1)
  let e := field b 1 2
  let m := field b 0 1
  if e = 0 then .ofMag s (m * 2 ^ (fpScale - 1)) else .ofMag s ((m + 2) * 2 ^ (fpScale - 2 + e))
/-- bfloat16: the high half of an FP32 pattern. -/
def decBf16 (b : Nat) : FVal := dec32 (BitVec.ofNat 32 (b % 2 ^ 16 * 2 ^ 16))
/-- The power-of-two scale 2^(code - 127) of an E8M0 code applied to a value; 0xFF is NaN. -/
def scaleE8M0 (code : Nat) : FVal → FVal
  | .nan => .nan
  | .inf s => if code = 255 then .nan else .inf s
  | .fin s x => if code = 255 then .nan else
      .ofMag s (if 127 ≤ code then x.natAbs * 2 ^ (code - 127) else x.natAbs / 2 ^ (127 - code))

/-- FP32 to FP8 E4M3 (R57). -/
def encE4M3 (sat : Bool) (v : FVal) : Nat :=
  match v with
  | .nan => 0x7F
  | .inf s => (if sat then 0x7E + (if s then 0x80 else 0) else 0x7F)
  | .fin s x =>
    let c := roundCode 4 9 x.natAbs
    if c > 0x7E then (if sat then 0x7E + (if s then 0x80 else 0) else 0x7F)
    else c + if s then 0x80 else 0
/-- FP32 to FP8 E5M2 (R57). -/
def encE5M2 (sat : Bool) (v : FVal) : Nat :=
  match v with
  | .nan => 0x7E
  | .inf s => (if sat then 0x7B else 0x7C) + if s then 0x80 else 0
  | .fin s x =>
    let c := roundCode 3 16 x.natAbs
    (if c > 0x7B then (if sat then 0x7B else 0x7C) else c) + if s then 0x80 else 0
/-- FP32 to INT8: rounds to an integer and saturates; NaN gives 0 (R57). -/
def encI8 (v : FVal) : Nat :=
  match v with
  | .nan => 0
  | .inf s => if s then 0x80 else 0x7F
  | .fin s x =>
    let m := rne x.natAbs fpScale
    if s then (256 - min m 128) % 256 else min m 127
/-- FP32 to bfloat16 (R57). -/
def encBf16 (v : FVal) : Nat :=
  match v with
  | .nan => 0x7FC0
  | .inf s => 0x7F80 + if s then 0x8000 else 0
  | .fin s x => min (roundCode 8 133 x.natAbs) 0x7F80 + if s then 0x8000 else 0
/-- An exact value to E2M1, saturated to ±6 (R58). -/
def encE2M1 (s : Bool) (m : Nat) : Nat := min (roundCode 2 1 m) 7 + if s then 8 else 0

/-- One MXFP4 block (R58): the scale code and the 32 element codes. -/
def encMx (lanes : List FVal) : Nat × List Nat :=
  if lanes.any fun v => match v with | .fin _ _ => false | _ => true then (255, lanes.map fun _ => 0)
  else
    let a := lanes.foldl (fun m v => max m v.mag) 0
    if a = 0 then (127, lanes.map fun v => if v.sgn then 8 else 0)
    else
      let fl : Int := (a.log2 : Int) - fpScale - 2
      let X := max (-127) (min 127 fl)
      (((X + 127).toNat), lanes.map fun v =>
        encE2M1 v.sgn (if 0 ≤ X then v.mag / 2 ^ X.toNat else v.mag * 2 ^ (-X).toNat))

end Sys2Proof.Machine
end

