-- ==== Sys2Proof/Machine/Chimneys.lean ====
section
/-! DEFINITION. Chimneys (07_flags_channels_chimneys.md R217 to R227): contribution lines, rounds, sums and forwards. -/
namespace Sys2Proof.Machine

/-- CC_i (R220). -/
def Chimney.ccOf (y : Chimney) (i : Nat) : Word := y.cc0 + BitVec.ofNat 32 (get 0 i y.cc)
def Chimney.osize (y : Chimney) : Nat := Machine.osize y.fmt (64 * y.clines)
def Chimney.round (y : Chimney) (n : Word) : Round := (y.rounds.find? fun r => r.num == n).getD { num := n }
def Chimney.setRound (y : Chimney) (r : Round) : Chimney :=
  if y.rounds.any fun x => x.num == r.num then { y with rounds := y.rounds.map fun x => if x.num == r.num then r else x }
  else { y with rounds := y.rounds ++ [r] }
/-- Staging address of contributor `i` in round `n` (R221). -/
def Chimney.stageAddr (y : Chimney) (n i : Nat) : Nat := y.stage + ((n % y.stages) * y.n + i) * (64 * y.clines)

/-! ### Arithmetic (R222 to R224) -/

/-- Elements of a contribution as words of the sum, bfloat16 widened exactly. -/
def elemsOf (fmt : Nat) (b : Bytes) : List Word :=
  if fmt = 1 then (List.range (b.length / 2)).map fun e => BitVec.ofNat 32 (le b (2 * e) 2 * 0x10000)
  else (List.range (b.length / 4)).map fun e => BitVec.ofNat 32 (le b (4 * e) 4)
def addElem (fmt : Nat) (a b : Word) : Word := if fmt = 2 then a + b else fpAdd a b
/-- A NaN element is written as the canonical NaN. -/
def canonElem (fmt : Nat) (a : Word) : Word :=
  if fmt ≠ 2 ∧ field a.toNat 23 8 = 255 ∧ field a.toNat 0 23 ≠ 0 then nan32 else a
def elemBytes (fmt : Nat) (l : List Word) : Bytes := l.flatMap fun w => toBytes 4 (canonElem fmt w).toNat
def addElems (fmt : Nat) (a b : List Word) : List Word := List.zipWith (addElem fmt) a b
/-- Bytes of `n` lines from an address. -/
def State.fetchLines (s : State) (a n : Nat) : Bytes := (List.range n).flatMap fun j => (s.fetchLine (a + 64 * j)).1
def State.linesPoison (s : State) (a n : Nat) : Bool := (List.range n).any fun j => (s.fetchLine (a + 64 * j)).2
/-- Writes bytes line by line with one mark. -/
def State.placeBytes (s : State) (a : Nat) (b : Bytes) (poi : Bool) : State :=
  (List.range (b.length / 64)).foldl (fun s j => s.placeLine (a + 64 * j) ((b.drop (64 * j)).take 64) poi) s
/-- The contribution of `i` that the chimney holds in a round. -/
def Round.held (r : Round) (i n : Nat) : Bytes := (List.range n).flatMap fun o => get [] (64 * i + o) r.lines
/-- The sum of a complete round in contributor order (R223). -/
def State.orderedSum (s : State) (y : Chimney) (r : Round) : List Word :=
  let c (i : Nat) : List Word := elemsOf y.fmt (s.fetchLines (y.stageAddr r.num.toNat i) y.clines)
  (List.range (y.n - 1)).foldl (fun a i => addElems y.fmt a (c (i + 1))) (c 0)
/-- The sum of an unordered round with contribution `i` converted into it or added (R224). -/
def Round.fold (r : Round) (y : Chimney) (i : Nat) (first : Bool) : Bytes :=
  let e := elemsOf y.fmt (r.held i y.clines)
  elemBytes y.fmt (if first then e else addElems y.fmt (elemsOf (if y.fmt = 2 then 2 else 0) r.sum) e)
/-- The lines of a sum with the mark of its round. -/
def Round.sumLines (r : Round) : List (Bytes × Bool) := (List.range (r.sum.length / 64)).map fun j => ((r.sum.drop (64 * j)).take 64, r.poison)
/-- The loads that write the sum of a round to its ring slot, in mover slots (R210). -/
def Round.sumLoads (r : Round) (x : Channel) (org : Origin) : List Load := lineLoads (x.slotAddr r.num.toNat) x.tenant (fun _ _ => org) r.sumLines

/-! ### Contribution lines (R214, R218 to R221) -/

/-- Table 7.5 for line `o` of contributor `i` of channel `c`, poison judged as it stood before the packet (R227). -/
def State.judgeLine (s0 s : State) (c : Nat) (t : Option Nat) (chip i o : Nat) (sizeOk : Bool) : Nat :=
  let x := s.chan c
  let y := s.chim x.k
  if !x.everOpen then 2
  else if !x.chimney ∨ x.kn ≤ i ∨ x.klines ≤ o ∨ !sizeOk then 8
  else match { x with poison := (s0.chan c).poison }.judge t with
    | 0 =>
      let cc := y.ccOf i
      if (match get none i y.bind with | some b => b != chip | none => false) then 3
      else if ((y.round cc).lines.any fun e => e.1 == 64 * i + o) then 3
      else if y.ordered then (if y.stages ≤ (cc - x.wp).toNat then 1 else 0)
      else if x.slots ≤ (cc - s.rpv x).toNat then 1 else 0
    | r => r
/-- An accepted line (R219, R220, R224, R227). -/
def State.takeLine (s : State) (c chip i o : Nat) (b : Bytes) (poi : Bool) : State :=
  let x := s.chan c
  let k := x.k
  let y := s.chim k
  let n := y.ccOf i
  let r := y.round n
  let r1 := { r with lines := put [] (64 * i + o) (fit 64 b) r.lines, poison := r.poison || poi }
  let y1 := { (y.setRound r1) with bind := put none i (some chip) y.bind }
  let s1 := s.setChim k y1
  let s2 := if y.ordered then s1.placeLine (y.stageAddr n.toNat i + 64 * o) b poi else s1
  let s3 := if poi then s2.poisonChan c else s2
  if (List.range y.clines).all fun l => r1.lines.any fun e => e.1 == 64 * i + l then
    let r2 := { r1 with complete := r1.complete ++ [i] }
    let last := r2.complete.length = y.n
    let r2 := if y.ordered || last then r2 else { r2 with sum := r2.fold y i r1.complete.isEmpty }
    let s4 := if y.ordered || last then s3 else s3.mantelSend (r2.sumLoads x .none)
    let r3 := { r2 with begun := !y.ordered && decide last }
    let y2 := { (y1.setRound r3) with cc := upd 0 i (· + 1) y1.cc }
    let x2 := s4.chan c
    (s4.setChim k y2).setChan c { x2 with accepted := x2.accepted + 1 }
  else s3
/-- Counts a refusal on a channel, DUPLICATE also on its chimney. -/
def State.countRefusal (s : State) (c code : Nat) : State :=
  let x := s.chan c
  let s1 := s.setChan c (x.countRefusal code)
  if code = 3 ∧ x.kValid then let y := s1.chim x.k; s1.setChim x.k { y with dup := y.dup + 1 } else s1
/-- Lines of one packet for contributor `i` of channel `c`: the state and the first refusal (0: all accepted). -/
def State.takeLines (s0 : State) (c : Nat) (t : Option Nat) (chip i : Nat) (sizeOk : Bool) :
    Nat → List (Bytes × Bool) → State × Nat → State × Nat
  | _, [], a => a
  | o, (b, p) :: rest, (s, code) =>
    match State.judgeLine s0 s c t chip i o sizeOk with
    | 0 => State.takeLines s0 c t chip i sizeOk (o + 1) rest (s.takeLine c chip i o b p, code)
    | r => State.takeLines s0 c t chip i sizeOk (o + 1) rest (s, if code = 0 then r else code)
/-- A packet of contribution lines; a refused packet counts once (R216). Log 28, DEDUCED. -/
def State.contribArrive (s : State) (c : Nat) (t : Option Nat) (chip i o : Nat) (ls : List (Bytes × Bool)) (sizeOk : Bool) : State × Nat :=
  let (s1, code) := State.takeLines s c t chip i sizeOk o ls (s, 0)
  if code = 0 then (s1, 0) else (s1.countRefusal c code, code)

/-- Base of the contribution window and the target of one of its lines (R218). -/
def contribWindow : Nat := 0xF800000000
def inContribWindow (a : Nat) : Bool := contribWindow ≤ a && a < contribWindow + 0x100000000
/-- Lines of a write to the contribution window; `seen` holds the channels that have counted a refusal of this write. -/
def State.windowLines (s0 : State) (t chip : Nat) : Nat → List (Bytes × Bool) → List Nat → State × Nat → State × Nat
  | _, [], _, a => a
  | a, (b, p) :: rest, seen, (s, code) =>
    let x := a - contribWindow
    let k := x / 0x100000
    let i := x % 0x100000 / 0x1000
    let o := x % 0x1000 / 64
    let y := s.chim k
    let r := if !y.used then 2 else State.judgeLine s0 s y.chan (some t) chip i o true
    let code' := if code = 0 then r else code
    if r = 0 then State.windowLines s0 t chip (a + 64) rest seen (s.takeLine y.chan chip i o b p, code')
    else if y.used && !seen.contains y.chan then State.windowLines s0 t chip (a + 64) rest (y.chan :: seen) (s.countRefusal y.chan r, code')
    else State.windowLines s0 t chip (a + 64) rest seen (s, code')
/-- A write of whole lines to the contribution window: its status (R218). -/
def State.windowWrite (s : State) (t chip a : Nat) (ls : List (Bytes × Bool)) : State × Nat :=
  State.windowLines s t chip a ls [] (s, 0)

/-! ### Sums and rounds (R223 to R226) -/

/-- The next round of chimney `k` that can be summed: every contribution complete, and in ordered mode a ring slot free (R223, R224). -/
def State.sumReady (s : State) (k : Nat) : Option Round :=
  let y := s.chim k
  let x := s.chan y.chan
  (y.rounds.filter fun r => !r.formed && r.complete.length == y.n && (!y.ordered || decide ((r.num - s.rpv x).toNat < x.slots))).foldl
    (fun b r => match b with
      | none => some r
      | some q => if (r.num - x.wp).toNat < (q.num - x.wp).toNat then some r else some q) none
/-- A sum is formed and goes to its ring slot. -/
def State.roundSum (s : State) (k : Nat) : State :=
  let y := s.chim k
  let x := s.chan y.chan
  match s.sumReady k with
  | none => s
  | some r =>
    let sum := if y.ordered then elemBytes y.fmt (s.orderedSum y r) else r.fold y (r.complete.getLastD 0) (r.complete.length == 1)
    let r1 := { r with begun := true, formed := true, sum := sum }
    let ls := r1.sumLoads x (.sum k r.num.toNat)
    (s.setChim k (y.setRound { r1 with left := ls.length, written := ls.isEmpty })).mantelSend ls
/-- A write of the sum of round `num` is acknowledged; with the last of them the sum is written (R225). -/
def State.sumPlaced (s : State) (k num : Nat) : State :=
  let y := s.chim k
  match y.rounds.find? fun r => r.num.toNat == num && r.formed && !r.written with
  | none => s
  | some r => (s.setChim k (y.setRound { r with left := r.left - 1, written := decide (r.left ≤ 1) })).settleChimney y.chan
/-- Does a chimney accept a forward of `lines` lines of format class `fmt` (R226)? -/
def State.parentFits (s : State) (c lines fmt : Nat) : Bool :=
  let x := s.chan c
  x.klines == lines && x.kfmt == (if fmt = 2 then 2 else 0)
/-- Does a chimney accept a packet of the forward of chimney `k` of chip `chip`? The packet carries neither the size nor the format of its
sum, which stand in that chip's configuration. Log 152, DESIGN CHOICE. -/
def State.forwardFits (s : State) (c chip k : Nat) : Bool := let e := Config.childSum s.fresh chip k; s.parentFits c e.1 e.2
/-- Forwards the lines of a sum in packets of up to eight (R225, R226). -/
def State.forward (s : State) (k : Nat) (y : Chimney) (tenant j total : Nat) : Nat → Nat → List (Bytes × Bool) → State
  | 0, _, _ => s
  | fuel + 1, o, ls =>
    match ls with
    | [] => s
    | _ =>
      let now := ls.take 8
      let tag := k + (j % 16) * 0x1000
      let s1 :=
        if y.pchip = s.rt.chip then
          let (s', code) := s.contribArrive y.pchan (some tenant) s.rt.chip y.pidx o now (s.parentFits y.pchan total y.fmt)
          if code = 0 then s' else s'.unitFail sunitChimney tag code
        else s.sendOwn { op := opContrib, vc := 2, dst := y.pchip, tenant := tenant, tag := tag, sunit := sunitChimney,
                         arg0 := y.pchan + y.pidx * 0x10000 + o * 0x1000000, flits := now }
      State.forward s1 k y tenant j total fuel (o + 8) (ls.drop 8)
/-- R225: the round that WP names completes once its sum is written. -/
def State.roundComplete (s : State) (k : Nat) : State :=
  let y := s.chim k
  let x := s.chan y.chan
  if y.used && y.rounds.any fun r => r.num == x.wp && r.written then
    let r := y.round x.wp
    let n := y.osize / 64
    let a := x.slotAddr r.num.toNat
    let ls := (List.range n).map fun o => ((s.fetchLine (a + 64 * o)).1, (s.fetchLine (a + 64 * o)).2 || r.poison)
    let s1 := (s.setChim k { y with rounds := y.rounds.filter fun z => z.num != x.wp }).advanceWp y.chan
    let s2 := if y.fwdEn then s1.forward k y x.tenant r.num.toNat n (n + 1) 0 ls else s1
    s2.settleChimney y.chan
  else s

end Sys2Proof.Machine
end

