-- ==== Sys2Proof/Machine/Stoker.lean ====
section
/-! DEFINITION. The stoker (06_beats_and_the_stoker.md): the program table and its requests, readiness and selection, deadlines,
the stall protocol. -/
namespace Sys2Proof.Machine

/-! ### Entries (R162 to R168) -/

def State.entry (s : State) (e : Nat) : Entry := get {} e s.stk.entries
def State.setEntry (s : State) (e : Nat) (x : Entry) : State := { s with stk := { s.stk with entries := put {} e x s.stk.entries } }
/-- Data of the section of a type and index of a LOAD (R452). -/
def LoadDecl.sec (d : LoadDecl) (ty i : Nat) : Option Bytes := (d.secs.find? fun x => x.1 == ty && x.2.1 == i).map fun x => x.2.2
def LoadDecl.bundles (d : LoadDecl) : Bytes := (d.sec 1 0).getD []
/-- Bundle `w` of bytes. -/
def bundleAt (b : Bytes) (w : Nat) : Nat := le b (32 * w) 32
/-- What a LOAD declares for range `r` beside its bundles, in the order in which the extent holds it: the local images of the hobs, the send
tables of the gates, and the station's address registers and templates (R91, R126, R183, R243). Log 155, DESIGN CHOICE. -/
def LoadDecl.tables (d : LoadDecl) (r : Nat) : Bytes :=
  ((List.range 8).flatMap fun i => (d.sec 2 (8 * r + i)).getD []) ++ ((List.range 5).flatMap fun i => (d.sec 3 (5 * r + i)).getD []) ++ (d.sec 4 r).getD []
/-- Bundles of program memory that the extent of an entry takes in range `r` (R89, R183). -/
def Entry.footprint (x : Entry) (r : Nat) : Nat := x.plen + ceilDiv (x.decl.tables r).length 32
/-- A new stamp (R176). -/
def State.stampEntry (s : State) (e : Nat) : State :=
  let x := s.entry e
  { (s.setEntry e { x with stamp := s.stk.nextStamp % 2 ^ 48 }) with stk := { (s.setEntry e { x with stamp := s.stk.nextStamp % 2 ^ 48 }).stk with nextStamp := s.stk.nextStamp + 1 } }
/-- The stamp and the arm beat of an arming (R164, R165). -/
def State.beginArming (s : State) (e : Nat) : State :=
  let s1 := s.stampEntry e
  s1.setEntry e { s1.entry e with armBeat := s.stk.beat, dlDone := false }
/-- An abort of the tenant has been decided and has not taken effect (R192). -/
def State.aborting (s : State) (t : Nat) : Bool := s.stk.aborts.any fun a => a.1 == t
/-- The code with which a LOAD or an ARM of an aborting tenant is refused: the spec names none (R192), a free value. -/
def State.abortCode (s : State) : Nat := 1 + Config.abortCode s.fresh % 0x13
/-- Ranges of a mask. -/
def maskRanges (m : Nat) : List Nat := (List.range 4).filter fun r => m.testBit r
/-- A refused request other than a LOAD (Table 6.5). -/
def State.reqRefused (s : State) : State := { s with stk := { s.stk with reqRef := s.stk.reqRef + 1 } }
/-- The state an entry returns to when it neither runs nor is disabled. -/
def Entry.rest (x : Entry) : EState := if 0 < x.arms ∨ x.rep then .armed else .idle
def EState.live (x : EState) : Bool := x == .idle || x == .armed || x == .running
/-- Table 6.5 for an ARM of entry `e` with partition `p` and tenant `t`; an entry number of 1,024 or more is answered ENTRY_ILLEGAL. Log 153,
DESIGN CHOICE. -/
def State.judgeArm (s : State) (e p t : Nat) : Nat :=
  let x := s.entry e
  if 1024 ≤ e then 1
  else if s.aborting t then s.abortCode
  else if x.leaving ≠ 0 ∨ x.state = .disabled then 0x10
  else if !x.state.live then 0x11
  else if x.part ≠ p ∨ x.tenant ≠ t then 0x12
  else if 65535 ≤ x.arms then 0x13
  else 0
/-- ARM (R164): the code of Table 6.5. -/
def State.armEntry (s : State) (e p t : Nat) : State × Nat :=
  match s.judgeArm e p t with
  | 0 =>
    let x := s.entry e
    let s1 := s.setEntry e { x with arms := x.arms + 1, state := if x.state = .idle then .armed else x.state }
    (if x.arms = 0 then s1.beginArming e else s1, 0)
  | c => ({ s.reqRefused with fresh := s.fresh + 1 }, c)
/-- The code of Table 6.5 for a DISABLE, ENABLE or REMOVE: `ok` where Table 6.2 accepts the entry's state. An entry number of 1,024 or more is
answered ENTRY_ILLEGAL, and a request of a tenant that does not own the entry ARM_TENANT. Log 153, DESIGN CHOICE. -/
def Entry.judge (x : Entry) (e t : Nat) (ok : Bool) : Nat := if 1024 ≤ e then 1 else if !ok then 0x11 else if x.tenant ≠ t then 0x12 else 0
/-- DISABLE (Table 6.2, R166), also of an entry whose DISABLE or REMOVE has not taken effect yet. -/
def State.disableEntry (s : State) (e t : Nat) : State × Nat :=
  let x := s.entry e
  let c := x.judge e t x.state.live
  if c = 0 then (s.setEntry e { x with leaving := max x.leaving 1 }, 0) else (s.reqRefused, c)
/-- ENABLE (Table 6.2); a REMOVE accepted before stays in force (R167). -/
def State.enableEntry (s : State) (e t : Nat) : State × Nat :=
  let x := s.entry e
  let c := x.judge e t (x.state == .disabled)
  if c = 0 then
    let s1 := s.setEntry e { x with state := x.rest }
    (if x.rest = .armed then s1.beginArming e else s1, 0)
  else (s.reqRefused, c)
/-- REMOVE (Table 6.2, R167). -/
def State.removeEntry (s : State) (e t : Nat) : State × Nat :=
  let x := s.entry e
  let c := x.judge e t (x.state != .empty)
  if c = 0 then (s.setEntry e { x with leaving := 2 }, 0) else (s.reqRefused, c)
/-- A range holds a claim of the entry (R174). -/
def State.claimed (s : State) (e : Nat) : Bool := s.stk.claims.any fun c => c.2 == some e
/-- The bundles of an entry stand in the program memory of every range of its mask, and it leaves LOADING (R163, R165). Log 34, DEDUCED. -/
def State.entryReady (s : State) (e : Nat) : State :=
  let x := s.entry e
  if x.leaving ≠ 0 then s.setEntry e { x with state := .disabled, leaving := if x.leaving = 2 then 2 else 0 }
  else
    let s1 := s.setEntry e { x with state := x.rest }
    if x.rest = .armed then s1.beginArming e else s1

/-! ### Readiness and selection (R169 to R178) -/

/-- Live value of a term's object. -/
def State.objValue (s : State) (kind i : Nat) : Word :=
  match kind with
  | 1 => s.flag i
  | 2 => s.depth (s.chan i)
  | 3 => get 0 i s.trn.cnt
  | _ => 0
/-- What entries taken in this round have consumed of an object (R172). -/
def usedOf (kind i : Nat) (u : List (Nat × Nat × Nat)) : Nat :=
  (u.filter fun x => x.1 == kind && x.2.1 == i).foldl (fun n x => n + x.2.2) 0
/-- A flag or channel carries a poison mark (R227). -/
def State.objPoi (s : State) (kind i : Nat) : Bool := match kind with | 1 => s.flagPoi i | 2 => (s.chan i).poison | _ => false
/-- R169 on the values of state `s` less the consumptions already taken; a term that names a poisoned object never holds (R227). -/
def State.termHolds (s : State) (u : List (Nat × Nat × Nat)) (t : Term) : Bool :=
  t.kind == 0 || !s.objPoi t.kind t.index && decide (t.thresh ≤ (s.objValue t.kind t.index - BitVec.ofNat 32 (usedOf t.kind t.index u)).toNat)
def State.claimOf (s : State) (r : Nat) : Option Nat := get none r s.stk.claims
/-- A candidate of the round: ARMED, unclaimed, its tenant not aborting (R170). -/
def State.candidate (s : State) (e : Nat) : Bool :=
  let x := s.entry e
  x.state == .armed && !s.claimed e && !s.aborting x.tenant
/-- Inserts an entry by class, then by stamp (R173). -/
def insertCand (s : State) (e : Nat) : List Nat → List Nat
  | [] => [e]
  | d :: r =>
    let x := s.entry e
    let y := s.entry d
    if x.cls < y.cls ∨ (x.cls = y.cls ∧ x.stamp < y.stamp) then e :: d :: r else d :: insertCand s e r
/-- The entries judged in a round that serves the ranges `served`, in order. -/
def State.roundOrder (s : State) (served : List Nat) : List Nat :=
  (s.stk.entries.filter fun e => s.candidate e.1 && served.any fun r => e.2.rmask.testBit r).foldl (fun l e => insertCand s e.1 l) []
/-- What a round has done so far: entries taken, ranges taken or claimed, and consumptions. -/
structure Round1 where
  taken : List Nat := []
  ranges : List Nat := []
  used : List (Nat × Nat × Nat) := []
  failed : List Nat := []
  deriving DecidableEq, Repr
/-- Judges one candidate (R170, R172, R173) against the snapshot `sn`: the part as it stood at cycle S (R171). -/
def State.judgeCand (s sn : State) (a : Round1) (e : Nat) : Round1 :=
  let x := s.entry e
  let bad := x.terms.filter fun t => !sn.termHolds a.used t
  let free (r : Nat) : Bool := !a.ranges.contains r && (s.claimOf r).isNone
  if bad ≠ [] then { a with failed := a.failed ++ (bad.filter fun t => t.kind == 2).map fun t => t.index }
  else if (maskRanges x.rmask).all free then
    { a with taken := a.taken ++ [e], ranges := a.ranges ++ maskRanges x.rmask,
             used := a.used ++ (x.terms.filter fun t => t.consume).map fun t => (t.kind, t.index, t.thresh) }
  else a
def State.judgeRound (s sn : State) (served : List Nat) : Round1 := (s.roundOrder served).foldl (fun a e => s.judgeCand sn a e) {}
/-- Subtracts a CONSUME term's threshold from its object (R172). A counter's trigger entries are judged afterwards. -/
def State.consumeTerm (s : State) (t : Term) : State :=
  let d := BitVec.ofNat 32 t.thresh
  match t.kind with
  | 1 => s.bumpFlagP t.index (0 - d)
  | 3 => { s with trn := { s.trn with cnt := upd 0 t.index (· - d) s.trn.cnt } }
  | _ => s
/-- The selection of range `r` for its next beat. -/
def State.select (s : State) (r e : Nat) : State :=
  let x := s.entry e
  let y := s.range r
  s.setRange r { y with valid := true, entry := e, tenant := x.tenant, base := x.pbase, len := x.plen, movUp := x.movUp, movDn := x.movDn }
/-- The start of a taken entry (R174, R175). -/
def State.takeEntry (s : State) (served : List Nat) (e : Nat) : State :=
  let x := s.entry e
  let s0 := (x.terms.filter fun t => t.consume).foldl (fun s t => s.consumeTerm t) s
  let arms := if x.rep then x.arms else x.arms - 1
  let s1 := s0.setEntry e { x with state := .running, arms := arms, runningIn := maskRanges x.rmask }
  let s2 := if x.rep then s1.stampEntry e else if 0 < arms then s1.beginArming e else s1
  let s3 := { s2 with stk := { s2.stk with tookNow := true } }
  (maskRanges x.rmask).foldl (fun s r =>
    if served.contains r then s.select r e else { s with stk := { s.stk with claims := put none r (some e) s.stk.claims } }) s3
/-- STALL of a channel counts once per STK_BEAT (R216). -/
def State.noteFailed (s : State) (c : Nat) : State :=
  let x := s.chan c
  if x.termFailed then s else s.setChan c { x with termFailed := true, stall := x.stall + 1 }
/-- The occupant of a range after a selection or claim (R197, R198): beat flags are cleared where the tenant changes. Log 35, DEDUCED. -/
def State.occupy (s : State) (r t : Nat) : State :=
  if s.occupant r = some t then s
  else
    let s1 := s.clearFlags (0x2000 + 0x800 * r) 0x800
    { s1 with flg := { s1.flg with occ := put none r (some t) s1.flg.occ } }
/-- The selection round of the ranges `served`, which hold no selection (R173 to R175): fixed claims, then the round; the
answer is the ranges whose selection or claim changed hands, in order. `sn` is the snapshot of cycle S (R171). -/
def State.selectionRound (s sn : State) (served : List Nat) : State :=
  let fixed := served.filter fun r => (s.claimOf r).isSome
  let a := s.judgeRound sn served
  let s1 := fixed.foldl (fun s r =>
    match s.claimOf r with
    | some e => { (s.select r e) with stk := { (s.select r e).stk with claims := put none r none s.stk.claims } }
    | none => s) s
  let s2 := a.taken.foldl (fun s e => s.takeEntry served e) s1
  let s3 := a.failed.foldl (fun s c => s.noteFailed c) s2
  a.taken.foldl (fun s e => (maskRanges (s.entry e).rmask).foldl (fun s r => s.occupy r (s.entry e).tenant) s) s3
/-- The beat of range `r` ends: its entry's run ends with its last range (R175). -/
def State.endBeat (s : State) (r : Nat) : State :=
  let y := s.range r
  if y.valid then
    let x := s.entry y.entry
    let left := x.runningIn.filter fun k => k != r
    let s1 := s.setEntry y.entry { x with runningIn := left, state := if x.state = .running ∧ left = [] then x.rest else x.state }
    s1.setRange r { (s1.range r) with valid := false }
  else s
/-- DISABLE and REMOVE take effect at the seam of the entry's lowest-numbered range (R166, R167). -/
def State.applyLeaving (s : State) (served : List Nat) : State :=
  (s.stk.entries.map Prod.fst).foldl (fun s e =>
    let x := s.entry e
    if x.leaving ≠ 0 ∧ served.contains ((maskRanges x.rmask).headD 4) ∧ x.state.live = true then
      s.setEntry e { x with state := .disabled, leaving := if x.leaving = 2 then 2 else 0 }
    else s) s
/-- An entry is ready against live term values (R178). -/
def State.readyNow (s : State) : Bool :=
  s.stk.entries.any fun e => s.candidate e.1 && e.2.terms.all fun t => s.termHolds [] t

/-! ### Deadlines (R184 to R186) -/

def missBytes (e : Nat) (x : Entry) (beat : Word) : Bytes :=
  fit 64 (toBytes 2 1 ++ toBytes 2 e ++ toBytes 1 x.tenant ++ toBytes 1 x.cls ++ toBytes 2 x.deadline ++ toBytes 4 x.armBeat.toNat
    ++ toBytes 4 beat.toNat ++ toBytes 2 x.arms)
/-- The deadlines that fall at this increment of STK_BEAT (R184, R185). Log 167, DEDUCED. -/
def State.judgeDeadlines (s : State) : State :=
  if s.stk.rtMode then
    (s.stk.entries.map Prod.fst).foldl (fun s e =>
      let x := s.entry e
      if x.dlEn && decide (0 < x.arms) && !x.dlDone && (x.state.live || x.state == .disabled)
         && decide (s.stk.beat = x.armBeat + BitVec.ofNat 32 (x.deadline + 1)) then
        let s1 := s.setEntry e { x with dlDone := true }
        let s2 := { s1 with stk := { s1.stk with dlMiss := s1.stk.dlMiss + 1 } }
        (s2.ownMsg x.report sunitStoker (missBytes e x s.stk.beat)).1
      else s) s
  else s

/-! ### Stall and deadlock (R187 to R191) -/

/-- Table 6.7. -/
def stallFlit (ty st chip : Nat) (epoch rid : Word) : Bytes :=
  fit 64 (toBytes 1 ty ++ toBytes 1 st ++ toBytes 1 chip ++ [0] ++ toBytes 4 epoch.toNat ++ toBytes 4 rid.toNat)
/-- Sends a stall-protocol message; the TAG of a POLL is the chip it asks, of every other 0x100 (assumption log 30). -/
def State.sendStall (s : State) (dst ty st : Nat) (epoch rid : Word) : State :=
  s.sendOwn { op := opStallp, vc := 3, dst := dst, tag := if ty = 2 then dst else 0x100, sunit := sunitStoker,
              flits := [(stallFlit ty st s.rt.chip epoch rid, false)] }
/-- The answer of this part to a POLL (R189). -/
def State.ownAnswer (s : State) : Answer := { stalled := s.stk.localStall, rid := s.stk.rid }
/-- Each member in local stall logs LEADER_LOST once per stall run while the leader is lost (R191). -/
def State.checkLeader (s : State) : State :=
  if s.stk.localStall && !s.stk.lostLogged && !s.stk.isLeader && s.rt.unreach.getLsbD s.stk.leader then
    ({ s with stk := { s.stk with lostLogged := true } }).log 0x0305 .fabric .stoker none [s.stk.leader, s.stk.rid.toNat]
  else s
/-- Local stall begins: one STALL to the leader (R188). -/
def State.enterStall (s : State) : State :=
  let s1 := { s with stk := { s.stk with localStall := true } }
  if s.stk.isLeader then { s1 with stk := { s1.stk with stallMsg := true } } else s1.sendStall s.stk.leader 1 0 0 s.stk.rid
/-- Counts a stall beat, or ends the run (R188). -/
def State.countStall (s : State) (stallBeat : Bool) : State :=
  let k := s.stk
  if stallBeat then
    let rid' := if k.sb = 0 then (if k.rid + 1 = 0xFFFFFFFF then 0 else k.rid + 1) else k.rid
    let sb' := min (k.sb + 1) 0xFFFF
    let s1 := { s with stk := { k with sb := sb', rid := rid' } }
    if k.stallBeats ≤ sb' ∧ k.localStall = false then s1.enterStall else s1
  else { s with stk := { k with sb := 0, localStall := false, lostLogged := false } }
/-- DL_POLICY (R190). -/
def State.applyPolicy (s : State) (epoch : Word) : State :=
  if s.stk.dlPolicy = 1 then
    let s1 := s.log 0x0304 .fabric .stoker none [epoch.toNat, 1]
    ((s.stk.entries.filter fun e => e.2.state == .armed).map fun e => e.2.tenant).foldl (fun s t => s.decideAbort t 1) s1
  else s.log 0x0304 .fabric .stoker none [epoch.toNat, s.stk.dlPolicy]
/-- May the leader open an epoch (R189)? -/
def State.mayOpen (s : State) : Bool :=
  let k := s.stk
  k.isLeader && k.openEpoch.isNone && (!k.everOpened || decide (k.stallBeats ≤ k.sinceOpen)) && (k.stallMsg || k.lastAllStalled)
/-- The open epoch closes when every member has answered (R189, R190). -/
def State.closeEpoch (s : State) : State :=
  let k := s.stk
  match k.openEpoch with
  | none => s
  | some e =>
    if k.members.all fun c => (get none c k.answers).isSome then
      let allSt (m : SMap (Option Answer)) : Bool := k.members.all fun c => match get none c m with | some a => a.stalled | none => false
      let all := allSt k.answers
      let dead := all && k.lastAllStalled && decide (k.answers = k.lastAnswers)
      let s1 := { s with stk := { k with openEpoch := none, epoch := e, lastAnswers := k.answers, answers := [], lastAllStalled := all, stallMsg := false } }
      if dead then
        let s2 := s1.log 0x0303 .fabric .stoker none [e.toNat]
        let s3 := (k.members.filter fun c => c != s.rt.chip).foldl (fun s c => s.sendStall c 4 0 e 0) s2
        s3.applyPolicy e
      else s1
    else s
/-- EPOCH_OPEN (R189). -/
def State.openEpochNow (s : State) : State :=
  let k := s.stk
  let e := k.epoch + 1
  let s1 := { s with stk := { k with openEpoch := some e, answers := put none s.rt.chip (some s.ownAnswer) [], everOpened := true,
                                     sinceOpen := 0 } }
  ((k.members.filter fun c => c != s.rt.chip).foldl (fun s c => s.sendStall c 2 0 e 0) s1).closeEpoch

end Sys2Proof.Machine
end

