-- ==== Sys2Proof/Machine/Damper.lean ====
section
/-! DEFINITION. The damper's sinks (13_power_and_states.md R408 to R412), the halt of a quarter (12_clocks_and_references.md R381,
03_ranges_and_loops.md R83, 09_fenxia_link.md R277), and what an increment of STK_BEAT does (06_beats_and_the_stoker.md R159). -/
namespace Sys2Proof.Machine

/-! ### Sinks -/

/-- Frequency of a grade in MHz (Table 12.2). -/
def gradeMHz (g : Nat) : Nat := match g with | 0 => 1600 | 1 => 1530 | 2 => 1460 | 3 => 1390 | 4 => 1320 | 5 => 1260 | 6 => 1190 | _ => 1120
/-- Full envelope of a sink at a grade: at most 16 A, and at most 5 A above that of G7 (R409, R412). -/
def fullEnv (k g : Nat) : Nat :=
  let b := Config.fullEnvelope k 7 % 65
  if 7 ≤ g then b else max b (min (b + 20) (Config.fullEnvelope k g % 65))
def State.sink (s : State) (k : Nat) : Sink := get {} k s.pwr.sinks
def State.setSink (s : State) (k : Nat) (x : Sink) : State := { s with pwr := { s.pwr with sinks := put {} k x s.pwr.sinks } }
/-- The nine sinks of a quarter (R408). -/
def quarterSinks (q : Nat) : List Nat := (List.range 8).map (· + 8 * q) ++ [32 + q]
/-- A quiet interval of `g` cycles begins for hob `h` (R411). -/
def State.quiet (s : State) (h g : Nat) : State :=
  if s.pwr.dampHold then s
  else
    let gr := s.grade (h / 8)
    let f := fullEnv h gr
    let per := gradeMHz gr * s.pwr.dramp
    let k := min f (64 * g / (2 * per))
    s.setSink h { env := f, goal := f, down := k, hold := 64 * g / per - 2 * k, up := k }
/-- One step period of a sink (R409, R411): within a quiet interval as planned, else a step towards the goal. -/
def Sink.step (x : Sink) : Sink :=
  if 0 < x.down then { x with env := x.env - 1, down := x.down - 1 }
  else if 0 < x.hold then { x with hold := x.hold - 1 }
  else if 0 < x.up then { x with env := x.env + 1, up := x.up - 1 }
  else if x.env < x.goal then { x with env := x.env + 1 }
  else if x.goal < x.env then { x with env := x.env - 1 }
  else x
/-- A sink stands at full (R410). Log 132, DEDUCED. -/
def State.sinkFull (s : State) (k g : Nat) : State := s.setSink k { env := fullEnv k g, goal := fullEnv k g }
/-- The sinks of a quarter head for an envelope. -/
def State.sinkGoal (s : State) (k goal : Nat) : State := let x := s.sink k; s.setSink k { env := x.env, goal := goal }
/-- Every sink of a quarter stands where it is heading. -/
def State.sinksReady (s : State) (q : Nat) : Bool := (quarterSinks q).all fun k => (s.sink k).env == (s.sink k).goal

/-- The sinks of a quarter head for their full envelopes at a grade. -/
def State.sinksTo (s : State) (q g : Nat) : State := (quarterSinks q).foldl (fun s k => s.sinkGoal k (fullEnv k g)) s
/-- Grade at which a quarter resumes when the exit from SIMMER is decided with `m` (R419). -/
def State.resumeGrade (s : State) (q : Nat) (m : BitVec 4) : Nat := if m.getLsbD q then 7 else s.grade q
/-- The sinks of a quarter that is stopped in SIMMER or for good: they descend to zero in DIP mode and stay where they are in HOLD mode (R418),
and climb once the exit from SIMMER is decided (R419). -/
def State.sinksRest (s : State) (q : Nat) : State :=
  match s.pwr.exiting with
  | some m => s.sinksTo q (s.resumeGrade q m)
  | none => (quarterSinks q).foldl (fun s k => s.sinkGoal k (if s.pwr.dampHold then (s.sink k).env else 0)) s

/-! ### HOLD and halts -/

/-- A gate enters HOLD for a cause: bit 0 a region stop, bit 1 SIMMER (R277). -/
def Gate.holdFor (g : Gate) (c : Nat) : Gate := { g with holdWhy := g.holdWhy ||| 2 ^ c, state := if g.state = .up then .hold else g.state }
/-- A cause of HOLD clears; a disable whose seam has come while the link was in HOLD takes effect (R277, R281). -/
def Gate.holdEnd (g : Gate) (c : Nat) : Gate :=
  let w := g.holdWhy &&& (3 ^^^ 2 ^ c)
  if g.state = .hold ∧ w = 0 then
    if g.disDue then { g with holdWhy := w, state := .drain, disPend := false, disDue := false, en := false }
    else { g with holdWhy := w, state := .up }
  else { g with holdWhy := w }
def gatesOf (q : Nat) : List Nat := (List.range 5).map fun k => 5 * q + k
/-- Places a load by its order of injection. -/
def insertLoad (l : Load) : List Load → List Load
  | [] => [l]
  | x :: r => if x.inj ≤ l.inj then x :: insertLoad l r else l :: x :: r
/-- Loads in mover slots go to the park buffer (R83), and every loop slot is empty. Those given up at once are parked in the order in which
they were injected, which keeps the order of R82. Log 151, DESIGN CHOICE. -/
def Range.parkLoads (r : Range) : Range :=
  let loads (m : SMap LoopSlot) : List Load := m.filterMap fun e => e.2.load
  { r with park := r.park ++ (loads r.up ++ loads r.dn).foldl (fun a l => insertLoad l a) [], up := [], dn := [] }
/-- The quarter's clock halts: a region stop (c = 0) or SIMMER, sleep and fatal stop (c = 1). -/
def State.haltQuarter (s : State) (q c : Nat) : State :=
  let s1 := s.setRange q { (s.range q).parkLoads with halted := true }
  let s2 := (gatesOf q).foldl (fun s l => s.setGate l ((s.gate l).holdFor c)) s1
  let s3 := s2.enterSelfref q
  if c = 1 then s3.sinksRest q
  else { s3 with clk := { s3.clk with stops := (s3.clk.stops.toNat + 1) % 2 ^ 24 } }

/-! ### An increment of STK_BEAT (R159, R178, R184, R187, R201, R208, R226, R262, R317, R478) -/

/-- Table 15.6. -/
def State.telemetry (s : State) : Bytes :=
  let b (x : Int) : Bytes := toBytes 1 (x % 256).toNat
  let hbm := (List.range 4).foldl (fun m q => max m (s.stn q).temp) (s.stn 0).temp
  let sum (f : Station → SMap Word) : Nat := ((List.range 4).foldl (fun n q => (f (s.stn q)).foldl (fun n e => n + e.2) n) (0 : Word)).toNat
  let links := (List.range 20).foldl (fun m l => if (s.gate l).upOrHold then m + 2 ^ l else m) 0
  (List.range 4).flatMap (fun q => b (get 0 q s.pwr.tq)) ++ b s.pwr.tm ++ b hbm ++ toBytes 2 s.pwr.readback ++ toBytes 2 s.pwr.amps
    ++ toBytes 2 ((List.range 4).foldl (fun n q => n + s.grade q * 8 ^ q) 0) ++ toBytes 4 (sum Station.ce) ++ toBytes 4 (sum Station.ue) ++ toBytes 4 links
/-- The telemetry datagram of a member (R478, Table 15.11). -/
def State.sendTelemetry (s : State) : State :=
  if s.svc.mirrorEn && !s.stk.isLeader && s.stk.beat.toNat % 1024 == 0 && !s.stk.members.isEmpty then
    let b := fit 64 (toBytes 2 0x21 ++ toBytes 1 s.rt.chip ++ toBytes 1 s.svc.mode ++ toBytes 4 s.stk.beat.toNat ++ s.telemetry ++ toBytes 4 s.svc.head.toNat
      ++ (List.range 5).flatMap fun c => toBytes 4 (get 0 c s.svc.classCnt).toNat)
    ({ s with svc := { s.svc with telSent := s.svc.telSent + 1 } }).sendOwn
      { op := opDmsg, vc := 5, dst := s.stk.leader, sunit := sunitService, arg0 := s.svc.mirrorChan + 0x10000, flits := [(b, false)] }
  else s
/-- Events limited to one per STK_BEAT, in order of code (R476). -/
def State.beatEvents (s : State) : State :=
  let s1 := if s.flg.drops ≠ s.flg.dropsSeen then
      (s.log 0x0401 .contained .flags none [s.flg.drops.toNat]) else s
  let s2 := (s1.flg.chims.filter fun e => e.2.failNow.isSome).foldl (fun s e =>
      match e.2.failNow with
      | some (st, r) => s.log 0x0402 .contained .flags (some (s.chan e.2.chan).tenant) [e.1, st, r]
      | none => s) s1
  let s3 := if 0 < s2.flg.partialNow then
      s2.log 0x0403 .contained .flags (some (s2.chan s2.flg.partialChan).tenant) [s2.flg.partialChan, s2.flg.partialNow] else s2
  let s4 := (List.range 4).foldl (fun s q =>
      let x := s.stn q
      if 0 < x.ceNew then (s.log 0x0501 .corrected (.quarter q) none [x.ceNew]).setStn q { x with ceNew := 0 } else s) s3
  let s5 := if s4.rt.hopdrop ≠ s4.rt.hopdropSeen then s4.log 0x0605 .fabric .service none [s4.rt.hopdrop.toNat] else s4
  { s5 with rt := { s5.rt with hopdropSeen := s5.rt.hopdrop },
            flg := { s5.flg with dropsSeen := s5.flg.drops, partialNow := 0, partialChan := 0,
                                 chims := s5.flg.chims.map fun e => (e.1, { e.2 with failNow := none }),
                                 chans := s5.flg.chans.map fun e => (e.1, { e.2 with termFailed := false }) } }
/-- SIMMER is requested: quarters that have ended their seam stop, the others after theirs (R178, R418). A quarter that stands in a region stop
stays stopped, and changes no grade. Log 160, DEDUCED. -/
def State.requestSimmer (s : State) : State :=
  let s1 := { s with pwr := { s.pwr with simmer := true, simmers := s.pwr.simmers + 1, wakeEvt := false, exiting := none }, svc := { s.svc with mode := 2 },
                     clk := { s.clk with newGrade := [] } }
  (List.range 4).foldl (fun s q =>
    if (s.range q).halted then ((gatesOf q).foldl (fun s l => s.setGate l ((s.gate l).holdFor 1)) s).sinksRest q
    else if (s.range q).phase = .seam then s.haltQuarter q 1 else s) s1
def State.simmerIfDue (s : State) : State :=
  if s.stk.simmerEn && !s.pwr.simmer && !s.pwr.sleeping && s.svc.mode != 4 && decide (s.stk.simmerAfter ≤ s.stk.idleBeats) then s.requestSimmer else s
/-- STK_BEAT increments, and everything judged per STK_BEAT follows. Log 37, DEDUCED. -/
def State.beatTick (s : State) : State :=
  let k := s.stk
  let ran := k.ranNow || (List.range 4).any fun q => (s.range q).phase == .run || ((s.range q).phase == .seam && (s.range q).valid)
  let idle := !ran && !k.tookNow
  let stall := idle && !k.progress && k.entries.any fun e => e.2.state == .armed
  let s0 := { s with stk := { k with beat := k.beat + 1, tickDue := false, ranNow := false, tookNow := false, progress := false,
                                     sinceOpen := k.sinceOpen + 1, idleBeats := if idle then k.idleBeats + 1 else 0 } }
  let s1 := (s0.flg.chans.filter fun e => e.2.reqs ≠ []).foldl (fun s e => s.chApply e.1) s0
  let s2 := s1.judgeDeadlines
  let s3 := (s2.countStall stall).beatEvents
  let s4 := s3.sendTelemetry.checkLeader
  s4.simmerIfDue

end Sys2Proof.Machine
end

