-- ==== Sys2Proof/Machine/Hob.lean ====
section
/-! DEFINITION. The data path of the hob: planes and steps, vector operations, and the effects of an issued bundle at
their offsets (02_the_hob.md; 04_bundles.md, Table 4.2, R112, R117). -/
namespace Sys2Proof.Machine

/-! ### Loop slots (03_ranges_and_loops.md, R72 to R76) -/

/-- The slot number that stands at station `p` in cycle `c`: loop 0 is the updraft, 1 the downdraft (R72). -/
def slotAt (loop p c : Nat) : Nat := if loop = 0 then (p + 16 - c % 16) % 16 else (p + c) % 16
def Range.slot (r : Range) (loop n : Nat) : LoopSlot := get {} n (if loop = 0 then r.up else r.dn)
def Range.setSlot (r : Range) (loop n : Nat) (x : LoopSlot) : Range :=
  if loop = 0 then { r with up := put {} n x r.up } else { r with dn := put {} n x r.dn }
/-- Is slot `n` of a loop a mover slot now (R77, R78)? -/
def Range.moverSlot (r : Range) (loop n : Nat) : Bool :=
  match r.phase with
  | .run => if loop = 0 then r.movUp.getLsbD n else r.movDn.getLsbD n
  | _ => true
/-- A slot written in cycle `w` is live in cycles w + 1 to w + 15 (R73). -/
def liveAt (w c : Nat) : Bool := w < c && c < w + 16
/-- What an in-tap receives in cycle `c`: the slot's bytes while it is live, else zero bytes (R74). -/
def LoopSlot.read (x : LoopSlot) (c : Nat) : Blk :=
  match x.live with
  | some w => if liveAt w c then x.blk else {}
  | none => {}
/-- Will the slot be live in cycle `c`, counting the writes that issued bundles will make (R75)? -/
def LoopSlot.willLive (x : LoopSlot) (c : Nat) : Bool :=
  (match x.live with | some w => liveAt w c | none => false)
  || (match x.resv with | some w => liveAt w c | none => false)
/-- Out-tap: writes the slot in cycle `c`; it becomes live. -/
def LoopSlot.write (x : LoopSlot) (c : Nat) (b : Blk) : LoopSlot := { x with blk := b, live := some c, resv := none }
/-- Becomes empty on its return to the writer's station (R73). -/
def LoopSlot.expire (x : LoopSlot) (c : Nat) : LoopSlot :=
  match x.live with
  | some w => if w + 16 ≤ c then { x with blk := {}, live := none } else x
  | none => x

/-! ### The matrix array (R47 to R53) -/

def Plane.word (p : Plane) (w : Nat) : Lanes := get zeroLanes w p.words
/-- Writes a plane word with its mark and sets the format tag (R47). -/
def Plane.put (p : Plane) (w fmt : Nat) (d : Lanes) (poi : Bool) : Plane :=
  { words := Machine.put zeroLanes w d p.words, poi := Machine.put false w poi p.poi, tag := fmt }
def Plane.marked (p : Plane) : Bool := !p.poi.isEmpty

/-- Weight of row `k`, column `n` (Table 2.2). -/
def Plane.weight (p : Plane) (k n : Nat) : FVal :=
  match fmtClass p.tag with
  | 0 => let b := laneByte (p.word (k / 4)) (64 * (k % 4) + n)
         if p.tag = 0 then decE4M3 b else decE5M2 b
  | 1 => decI8 (laneByte (p.word (k / 4)) (64 * (k % 4) + n))
  | 2 => let b := laneByte (p.word (k / 8)) (32 * (k % 8) + n / 2)
         decE2M1 (if n % 2 = 0 then b % 16 else b / 16)
  | _ => let o := 128 * (k % 2) + 2 * n
         decBf16 (laneByte (p.word (k / 2)) o + 256 * laneByte (p.word (k / 2)) (o + 1))
/-- E8M0 weight scale of column `n`, K-group `g` (Table 2.2, word 16). -/
def Plane.wscale (p : Plane) (g n : Nat) : Nat := laneByte (p.word 16) (4 * n + g)
/-- Activation element `k` of a step (Table 2.3). -/
def actElem (op : StepOp) (a : Bytes) (k : Nat) : FVal :=
  match op.sfmt with
  | 0 => if op.afp8 = 0 then decE4M3 (le a k 1) else decE5M2 (le a k 1)
  | 1 => decI8 (le a k 1)
  | 2 => let b := le a (k / 2) 1
         decE2M1 (if k % 2 = 0 then b % 16 else b / 16)
  | _ => decBf16 (le a (2 * k) 2)
/-- Rows of a plane in a step format. -/
def stepRows (sfmt : Nat) : Nat := if sfmt = 2 then 128 else 64
/-- Adds one product to a column sum (R51, R52). -/
def ColSum.add (c : ColSum) (v : FVal) : ColSum :=
  match v with
  | .nan => { c with nan := true, allNegZero := false }
  | .inf s => if s then { c with ninf := true, allNegZero := false } else { c with pinf := true, allNegZero := false }
  | .fin s x => { c with sum := c.sum + x, allNegZero := c.allNegZero && s && decide (x = 0) }
/-- The product of row `k` with its MXFP4 scales (R51). -/
def stepProduct (p : Plane) (op : StepOp) (a asl : Bytes) (k n : Nat) : FVal :=
  let m := (actElem op a k).mul (p.weight k n)
  if op.sfmt = 1 then
    match m with
    | .fin _ x => .fin (decide (x < 0)) x     -- an exact integer: there is no −0 (R52)
    | v => v
  else if op.sfmt = 2 then
    let g := k / 32
    scaleE8M0 (p.wscale g n) (scaleE8M0 (le asl (4 * op.sset + g) 1) m)
  else m
/-- P_n of column `n` (R51). Log 16, DEDUCED. -/
def colSum (p : Plane) (op : StepOp) (a asl : Bytes) (n : Nat) : ColSum :=
  (List.range (stepRows op.sfmt)).foldl (fun c k => c.add (stepProduct p op a asl k n)) { allNegZero := true }
/-- P_n as one operand (R52). -/
def ColSum.val (c : ColSum) : FVal :=
  if c.nan || (c.pinf && c.ninf) then .nan
  else if c.pinf then .inf false else if c.ninf then .inf true
  else if c.sum = 0 then .fin c.allNegZero 0 else .fin (decide (c.sum < 0)) c.sum
/-- A column of the commit: one rounding (R51). -/
def commitCol (ovw : Bool) (old : Word) (c : ColSum) : Word :=
  if ovw then enc32 c.val else enc32 ((dec32 old).add c.val)

/-! ### The vector unit (R54 to R59) -/

def lane (l : Lanes) (i : Nat) : Word := l.toList.getD i 0
def mapLanes (f : Word → Word) (a : Lanes) : Lanes := Vector.ofFn fun i => f a[i]
def zipLanes (f : Word → Word → Word) (a b : Lanes) : Lanes := Vector.ofFn fun i => f a[i] b[i]
def zip3Lanes (f : Word → Word → Word → Word) (a b c : Lanes) : Lanes := Vector.ofFn fun i => f (a.get i) (b.get i) (c.get i)
/-- One level of a reduction: lane i becomes f of lanes i and i + w (R56). -/
def reduceLevel (f : Word → Word → Word) (l : List Word) : List Word :=
  let w := l.length / 2
  List.zipWith f (l.take w) (l.drop w)
/-- Six levels; the value of lane 0 goes to every lane (R56). -/
def reduceLanes (f : Word → Word → Word) (a : Lanes) : Lanes :=
  let r := reduceLevel f (reduceLevel f (reduceLevel f (reduceLevel f (reduceLevel f (reduceLevel f a.toList)))))
  Vector.replicate 64 (r.headD 0)

/-- Applies a partial register write: bytes and marks (R263). -/
def VReg.apply (v : VReg) (w : VWrite) : VReg :=
  let old := bytesOf v.d
  let new := old.take w.off ++ w.data ++ old.drop (w.off + w.data.length)
  let mark := (List.range 4).map fun L =>
    let lo := 64 * L
    let whole := w.off ≤ lo && lo + 64 ≤ w.off + w.data.length
    let touch := w.off < lo + 64 && lo < w.off + w.data.length
    if whole then w.poi.getLsbD L else v.poi.getLsbD L || (touch && w.poi.getLsbD L)
  { d := lanesOf new, poi := poiOf mark }
/-- A write of a whole register. -/
def fullWrite (reg : Nat) (l : Lanes) (poi : BitVec 4) : VWrite := { reg := reg, off := 0, data := bytesOf l, poi := poi }

/-- CVT.TO of the lanes of A (R57 to R59): the writes to D, and for MXFP4 to the scale register. Where D and C are one register and the bytes
overlap, the spec does not say which stand: the scale bytes do. Log 145, DESIGN CHOICE. -/
def cvtTo (x : Nat) (a : Lanes) (poi : Bool) : List VWrite :=
  let vals := a.toList.map dec32
  let p := allPoi poi
  match vFmt x with
  | 0 => [{ reg := vD x, off := 64 * vPos x, data := vals.map fun v => BitVec.ofNat 8 (encE4M3 (vSat x) v), poi := p }]
  | 1 => [{ reg := vD x, off := 64 * vPos x, data := vals.map fun v => BitVec.ofNat 8 (encE5M2 (vSat x) v), poi := p }]
  | 2 => [{ reg := vD x, off := 64 * vPos x, data := vals.map fun v => BitVec.ofNat 8 (encI8 v), poi := p }]
  | 4 => [{ reg := vD x, off := 128 * vPos x, data := vals.flatMap fun v => toBytes 2 (encBf16 v), poi := p }]
  | _ =>
    let b0 := encMx (vals.take 32)
    let b1 := encMx (vals.drop 32)
    let el := b0.2 ++ b1.2
    [{ reg := vD x, off := 32 * vPos x, data := (List.range 32).map fun j => BitVec.ofNat 8 (el.getD (2 * j) 0 + 16 * el.getD (2 * j + 1) 0), poi := p },
     { reg := vC x, off := 2 * vPos x, data := [BitVec.ofNat 8 b0.1, BitVec.ofNat 8 b1.1], poi := p }]
/-- CVT.FROM: lane `i` of the result (R59, R118). -/
def cvtFromLane (x : Nat) (a c : Lanes) (i : Nat) : Word :=
  match vFmt x with
  | 0 => enc32 (decE4M3 (laneByte a (64 * vPos x + i)))
  | 1 => enc32 (decE5M2 (laneByte a (64 * vPos x + i)))
  | 2 => enc32 (decI8 (laneByte a (64 * vPos x + i)))
  | 4 => enc32 (decBf16 (laneByte a (128 * vPos x + 2 * i) + 256 * laneByte a (128 * vPos x + 2 * i + 1)))
  | _ =>
    let b := laneByte a (32 * vPos x + i / 2)
    enc32 (scaleE8M0 (laneByte c (2 * vPos x + i / 32)) (decE2M1 (if i % 2 = 0 then b % 16 else b / 16)))

/-- The full-register result of a V operation other than CVT.TO on its operand registers (R54 to R56, R118). -/
def vResult (x : Nat) (ra rb rc : Lanes) : Lanes :=
  let a := mapLanes (negIf (vNA x)) ra
  let b := mapLanes (negIf (vNB x)) rb
  let c := mapLanes (negIf (vNC x)) rc
  match vOp x with
  | 0x01 => zipLanes fpAdd a b
  | 0x02 => zipLanes fpMul a b
  | 0x03 => zip3Lanes fpFma a b c
  | 0x04 => zipLanes fpMin a b
  | 0x05 => zipLanes fpMax a b
  | 0x06 => zipLanes (fpCmp (fun p q => p == q) false) a b
  | 0x07 => zipLanes (fpCmp (fun p q => p != q) true) a b
  | 0x08 => zipLanes (fpCmp (fun p q => decide (p < q)) false) a b
  | 0x09 => zipLanes (fpCmp (fun p q => decide (p ≤ q)) false) a b
  | 0x0A => zip3Lanes fpSel rc a b
  | 0x0B => mapLanes fpExp2 a
  | 0x0C => mapLanes fpLog2 a
  | 0x0D => mapLanes fpRsqrt a
  | 0x0E => mapLanes fpRcp a
  | 0x0F => reduceLanes fpAdd a
  | 0x10 => reduceLanes fpMax a
  | 0x11 => reduceLanes fpMin a
  | 0x13 => Vector.ofFn fun i => cvtFromLane x ra rc i.val
  | _ => a
/-- Registers a V operation reads. -/
def vReads (x : Nat) : List Nat :=
  let o := vOp x
  if o = 3 ∨ o = 0x0A then [vA x, vB x, vC x]
  else if o = 1 ∨ o = 2 ∨ (4 ≤ o ∧ o ≤ 9) then [vA x, vB x]
  else if o = 0x13 ∧ vFmt x = 3 then [vA x, vC x]
  else [vA x]
/-- The register writes of a V operation from the registers as they stand (R54 to R59, Table 8.9). -/
def vWrites (x : Nat) (h : Hob) : List VWrite :=
  let poi := (vReads x).any fun r => (h.vreg r).poi != 0
  if vOp x = 0x12 then cvtTo x (mapLanes (negIf (vNA x)) (h.vreg (vA x)).d) poi
  else [fullWrite (vD x) (vResult x (h.vreg (vA x)).d (h.vreg (vB x)).d (h.vreg (vC x)).d) (allPoi poi)]

/-! ### Pending effects -/

/-- Places an effect behind every effect of an earlier cycle, issue or slot (R112). The order within one slot is not given: where both in-taps
of one T slot write one register or plane word in one cycle, the tap executed first is applied first. Log 144, DESIGN CHOICE. -/
def insertPend (e : HPend) : List HPend → List HPend
  | [] => [e]
  | x :: r =>
    if x.at_ < e.at_ ∨ (x.at_ = e.at_ ∧ (x.issue < e.issue ∨ (x.issue = e.issue ∧ x.slot ≤ e.slot)))
    then x :: insertPend e r else e :: x :: r
def Hob.enq (h : Hob) (at_ issue slot : Nat) (fx : HFx) : Hob := { h with pend := insertPend ⟨at_, issue, slot, fx⟩ h.pend }

/-- Effects that read the state of their cycle before any write of it (R112). -/
def HFx.isRead : HFx → Bool
  | .vop _ => true | .vread _ _ _ _ => true | .vstore _ _ _ => true | .vtap _ _ => true | .sread _ _ => true
  | .stap _ _ => true | .tapS _ _ => true | .tapP _ _ _ => true | .tapV _ _ => true | .act _ _ _ => true
  | .accRead _ _ => true
  | .swrite _ _ _ => false | .slotPut _ _ => false | .vwrite _ => false | .planePut _ _ _ _ => false
  | .aslPut _ _ => false | .swap => false | .commit _ _ _ => false | .accZero _ => false | .adv _ => false | .cop _ => false

/-- Data and marks of SRAM lines; `none` is a line of zero bytes. -/
def State.readLines (s : State) (h : Nat) (ls : List (Option Nat)) : Bytes × List Bool :=
  (ls.flatMap fun l => match l with | some l => (s.sramLine h l).1 | none => List.replicate 64 0,
   ls.map fun l => match l with | some l => (s.sramLine h l).2 | none => false)
/-- Where data read in cycle `c` goes next: to its write, or into the array (Table 4.2). -/
def readTo (c : Nat) (data : Bytes) (poi : List Bool) : ReadDst → Nat × HFx
  | .vreg reg pos => (c + 1, .vwrite { reg := reg, off := 64 * pos, data := data, poi := poiOf (List.replicate pos false ++ poi) })
  | .plane w f => (c + 1, .planePut w f (lanesOf data) (poi.any id))
  | .asl => (c + 1, .aslPut data (poi.any id))
  | .act op => (c + 1, .act op data (poi.any id))
/-- The loop slot at a hob's station as an in-tap of cycle `c` finds it. -/
def State.tapRead (s : State) (h loop c : Nat) : Blk :=
  let r := s.range (h / 8)
  (r.slot loop (slotAt loop (hobStation (h % 8)) c)).read c

/-- Read phase: what a reading effect of cycle `c` turns into, with its cycle. -/
def readFx (s : State) (h c : Nat) (e : HPend) : List (Nat × HFx) :=
  let x := s.hob h
  match e.fx with
  | .vop bits => (vWrites bits x).map fun w => (e.issue + vOffset (vOp bits), .vwrite w)
  | .vread reg off len dst =>
    let b := ((bytesOf (x.vreg reg).d).drop off).take len
    let poi := (poiList (x.vreg reg).poi).drop (off / 64) |>.take ((len + 63) / 64)
    match dst with
    | .asl => [(e.issue + 4, .aslPut b (poi.any id))]
    | .act op => [(e.issue + 4, .act op b (poi.any id))]
    | .vreg _ _ => [] | .plane _ _ => []
  | .vstore reg pos ls =>
    -- every line written is marked when any line read is (Table 8.9)
    let poi := (((poiList (x.vreg reg).poi).drop pos).take ls.length).any id
    [(e.issue + 3, .swrite ls (((bytesOf (x.vreg reg).d).drop (64 * pos)).take (64 * ls.length)) (List.replicate ls.length poi))]
  | .vtap loop reg => [(e.issue + 3, .slotPut loop { (x.vreg reg) with poi := allPoi ((x.vreg reg).poi != 0) })]
  | .sread ls dst => let (d, p) := s.readLines h ls; [readTo c d p dst]
  | .stap loop ls => let (d, p) := s.readLines h ls; [(c, .slotPut loop { d := lanesOf d, poi := poiOf p })]
  | .tapS loop ls =>
    let b := s.tapRead h loop c
    match ls with
    | [some a, some b1, some c1, some d1] => [(c, .swrite [a, b1, c1, d1] (bytesOf b.d) (poiList b.poi))]
    | _ => []     -- a padding access touches no bank (R62)
  | .tapP loop w f => let b := s.tapRead h loop c; [(c + 1, .planePut w f b.d (b.poi != 0))]
  | .tapV loop reg => let b := s.tapRead h loop c; [(c + 1, .vwrite (fullWrite reg b.d b.poi))]
  | .act op data poi =>
    let p := x.active
    let rate := if op.sfmt = 3 then 15 else 12
    let mark := poi || p.marked || (op.sfmt == 2 && x.aslPoi)
    [(e.issue + rate, .commit op ((List.range 64).map fun n => colSum p op data x.asl n) mark)]
  | .accRead entry reg =>
    let l := get zeroLanes entry x.acc
    [(c + 1, .vwrite (fullWrite reg l (allPoi (get false entry x.accPoi))))]
  | _ => []

/-- The effect of slot C of hob index `hi` on its hob (R85, R113, R121, R122). -/
def Hob.applyC (x : Hob) (hi c : Nat) : Hob :=
  match cOp c with
  | 1 => { x with cx := field c 6 22 }
  | 2 => { x with hrel := cA c + hi * (x.cx % 2 ^ 17), cx := 0 }
  | 3 =>
    let g := x.gen (cGen c)
    { (x.setGen (cGen c) { g with reg := put 0 (cReg c) (BitVec.ofNat 32 (gsetValue c x.cx)) g.reg }) with cx := 0 }
  | 4 => x.setGen (cGen c) { x.gen (cGen c) with idx := [] }
  | _ => x
/-- Generators `l` advance, each once for each time it is named (R61). -/
def Hob.advance (x : Hob) (l : List Nat) : Hob := l.foldl (fun y g => y.setGen g (y.gen g).advance) x
/-- Write phase: performs a writing effect in cycle `c`. Log 18, DEDUCED. -/
def writeFx (s : State) (h c : Nat) (e : HPend) : State :=
  let x := s.hob h
  match e.fx with
  | .swrite ls d p => s.setSramLines h ls d p
  | .slotPut loop b =>
    let q := h / 8
    let n := slotAt loop (hobStation (h % 8)) c
    s.setRange q ((s.range q).setSlot loop n (((s.range q).slot loop n).write c b))
  | .vwrite w => s.setHob h (x.setVreg w.reg ((x.vreg w.reg).apply w))
  | .planePut w f d p => s.setHob h { x with shadow := x.shadow.put w f d p }
  | .aslPut d p => s.setHob h { x with asl := fit 64 d, aslPoi := p }
  | .swap => s.setHob h { x with active := x.shadow, shadow := x.active }
  | .commit op sums poi =>
    let old := get zeroLanes op.entry x.acc
    let new : Lanes := Vector.ofFn fun i => commitCol op.ovw old[i] (sums.getD i.val {})
    let mark := if op.ovw then poi else poi || get false op.entry x.accPoi
    s.setHob h { x with acc := put zeroLanes op.entry new x.acc, accPoi := put false op.entry mark x.accPoi }
  | .accZero e => s.setHob h { x with acc := put zeroLanes e zeroLanes x.acc, accPoi := put false e false x.accPoi }
  | .adv l => s.setHob h (x.advance l)
  | .cop b => s.setHob h (x.applyC (h % 8) b)
  | _ => s

/-- Takes the reading effects of cycle `c` off the hob's list and puts what they turn into on it. -/
def drainReads (s : State) (h c : Nat) : State :=
  let x := s.hob h
  let rs := x.pend.filter fun e => e.at_ == c && e.fx.isRead
  let x1 := { x with pend := x.pend.filter fun e => !(e.at_ == c && e.fx.isRead) }
  s.setHob h (rs.foldl (fun y e => (readFx s h c e).foldl (fun z p => z.enq p.1 e.issue e.slot p.2) y) x1)
/-- Performs the writes of cycle `c`: a swap first (R117), then in the order of issue and slot (R112). -/
def drainWrites (s : State) (h c : Nat) : State :=
  let x := s.hob h
  let ws := x.pend.filter fun e => e.at_ == c
  let s1 := s.setHob h { x with pend := x.pend.filter fun e => e.at_ != c }
  let sw := ws.filter fun e => e.fx == .swap
  let rest := ws.filter fun e => e.fx != .swap
  (sw ++ rest).foldl (fun t e => writeFx t h c e) s1

end Sys2Proof.Machine
end

