-- ==== Sys2Proof/Machine/Csr.lean ====
section
/-! DEFINITION. CSR space (16_address_map_common_registers.md R488 to R511, and the register maps of chapters 2, 3 and 5 to 15):
what each register reads, and what a write to one does. -/
namespace Sys2Proof.Machine

/-- A word from its fields: lowest bit, width, value. -/
def fieldsOf (l : List (Nat × Nat × Nat)) : Nat := l.foldl (fun a f => a + (f.2.2 % 2 ^ f.2.1) * 2 ^ f.1) 0
def bit1 (b : Bool) : Nat := if b then 1 else 0
/-- Two's complement of an integer in `n` bits. -/
def twos (n : Nat) (x : Int) : Nat := (x % (2 ^ n : Nat)).toNat
/-- Word `w` of a byte string. -/
def wordAt (b : Bytes) (w : Nat) : Nat := le b (4 * w) 4

/-! ### Hob and generator registers (Tables 2.8 to 2.17) -/

/-- GSET number of a generator register's offset (Tables 2.13, 4.13). -/
def genOffset (o : Nat) : Option Nat :=
  if o = 0 then some 0 else if o = 4 then some 1 else if o = 8 then some 2
  else if 0x10 ≤ o ∧ o ≤ 0x20 then some (3 + (o - 0x10) / 4)
  else if 0x30 ≤ o ∧ o ≤ 0x40 then some (8 + (o - 0x30) / 4)
  else if o = 0x50 then some 13 else if o = 0x54 then some 14 else if o = 0x58 then some 15 else if o = 0x5C then some 16
  else if o = 0x60 then some 17 else none
def hobLines (x : Hob) : Nat := x.buf.foldl (fun n l => n + l.lines) 0
/-- Log 83, DEDUCED. -/
def State.csrHob (s : State) (h o : Nat) : Nat :=
  let x := s.hob h
  if o = 0 then fieldsOf [(0, 5, h), (5, 3, h % 8), (8, 2, h / 8)]
  else if o = 4 then fieldsOf [(0, 17, x.hrel)]
  else if o = 8 then fieldsOf [(0, 12, x.emberGap)]
  else if o = 0xC then fieldsOf [(0, 8, hobLines x)]
  else if 0x100 ≤ o ∧ o < 0x300 then
    let g := x.gen ((o - 0x100) / 0x80)
    let k := o % 0x80
    if k = 0x7C then fieldsOf [(0, 1, bit1 g.done), (1, 1, bit1 g.illegal)]
    else match genOffset k with | some r => g.r r | none => 0
  else 0

/-! ### Quarter registers (Tables 3.5 to 3.7, 5.5 to 5.7, 8.10, 8.11, 9.12 to 9.14) -/

/-- Program memory of range `r` that no entry holds (R89). -/
def State.pmemFree (s : State) (r : Nat) : Nat :=
  16384 - (s.stk.entries.filter fun e => e.2.state != .empty && e.2.state != .admitting && e.2.rmask.testBit r).foldl (fun n e => n + e.2.footprint r) 0
def FaultEntry.word (e : FaultEntry) (w : Nat) : Nat :=
  match w with
  | 0 => e.beat.toNat
  | 1 => fieldsOf [(0, 14, e.addr), (14, 1, bit1 e.isLocal), (16, 4, e.slot), (20, 8, e.reason)]
  | 2 => fieldsOf [(0, 24, e.cyc)]
  | _ => fieldsOf [(0, 5, e.hob), (5, 1, bit1 e.seq), (8, 8, e.tenant), (16, 10, e.entry)]
def State.csrRange (s : State) (q o : Nat) : Nat :=
  let r := s.range q
  let local_ := match r.win with | some w => w.start ≤ r.cyc && r.cyc < w.start + w.count | none => false
  if o = 0 then q
  else if o = 4 then
    let st := match r.phase with | .idle => 0 | .run => if local_ then 2 else 1 | .seam => 3
    let run := r.phase == .run
    fieldsOf [(0, 2, st), (2, 10, if run then r.entry else 0), (12, 1, bit1 run)]
  else if o = 8 then fieldsOf [(0, 14, r.pc)]
  else if o = 0xC then fieldsOf [(0, 24, r.cyc)]
  else if o = 0x10 then if r.phase = .run then r.movUp.toNat + r.movDn.toNat * 65536 else 0xFFFFFFFF
  else if o = 0x14 then s.pmemFree q
  else if o = 0x18 then r.moverMin % 64
  else if o = 0x1C then r.beatNo.toNat
  else if o = 0x20 then r.stack.length
  else if 0x1000 ≤ o ∧ o < 0x1000 + 9 * 0x800 then
    let l := get ({} : FaultLog) ((o - 0x1000) / 0x800) r.flt
    let k := (o - 0x1000) % 0x800
    if k = 0 then l.total.toNat else if k = 4 then l.ovf % 2 ^ 32
    else if 0x400 ≤ k then (get ({} : FaultEntry) ((k - 0x400) / 16) l.ent).word (k % 16 / 4)
    else 0
  else 0
def State.csrStation (s : State) (q o : Nat) : Nat :=
  let x := s.stn q
  if o = 0 then q
  else if o = 4 then fieldsOf [(0, 4, x.trained.toNat), (4, 1, bit1 x.withdrawn), (5, 1, bit1 x.selfref), (6, 8, x.rescue.toNat)]
  else if o = 8 then fieldsOf ((List.range 8).map fun p => (4 * p, 4, twos 4 (min (get 0 p x.debt) 7)))
  else if o = 0xC then twos 8 x.temp
  else if o = 0x10 then x.elided.toNat
  else if o = 0x14 then x.autoref.toNat
  else if o = 0x18 then x.movq.length % 128
  else if o = 0x1C then x.ptab.length % 2048
  else if o = 0x20 then x.stgdrop.toNat
  else if 0x40 ≤ o ∧ o < 0x60 then (get 0 ((o - 0x40) / 4) x.ce).toNat
  else if 0x60 ≤ o ∧ o < 0x80 then (get 0 ((o - 0x60) / 4) x.ue).toNat
  else if 0x100 ≤ o ∧ o < 0x120 then
    let a := get ({} : AReg) ((o - 0x100) / 8) x.ar
    if o % 8 < 4 then fieldsOf [(0, 23, a.unit), (23, 7, a.slot)] else fieldsOf [(0, 20, twos 20 a.ustep), (20, 7, a.sstep), (27, 4, a.area)]
  else if 0x10000 ≤ o ∧ o < 0x12000 then (get 0 ((o - 0x10000) / 4) x.tpl).toNat
  else 0
def State.csrGate (s : State) (l o : Nat) : Nat :=
  let g := s.gate l
  let st := match g.state with | .down => 0 | .train => 1 | .up => 2 | .hold => 3 | .drain => 4 | .broken => 5
  if o = 0 then fieldsOf [(0, 5, l), (5, 3, l % 5), (8, 2, l / 5)]
  else if o = 4 then fieldsOf [(0, 1, bit1 g.en), (1, 1, g.reach), (8, 8, g.vcmask.toNat)]
  else if o = 8 then fieldsOf [(0, 14, g.credit), (16, 14, g.drain)]
  else if o = 0xC then fieldsOf [(0, 3, st), (3, 1, bit1 g.narrow), (4, 1, bit1 g.half), (5, 1, bit1 g.reversed), (6, 8, g.polarity.toNat), (14, 1, bit1 g.phold),
                                 (16, 8, g.pchip), (24, 5, g.plink), (29, 3, g.brk)]
  else if o = 0x10 then fieldsOf [(0, 12, g.nts.toNat), (12, 12, g.ers.toNat)]
  else if o = 0x14 then fieldsOf [(0, 12, g.nds.toNat), (12, 12, g.eds.toNat)]
  else if o = 0x18 then fieldsOf [(0, 12, g.replay.foldl (fun n p => n + p.flits.length + 1) 0), (12, 11, g.replay.length), (23, 4, g.rnum)]
  else if o = 0x1C then fieldsOf [(0, 16, g.ppm.toNat), (16, 1, bit1 g.ppmValid)]
  else if 0x40 ≤ o ∧ o < 0x60 then fieldsOf [(0, 11, get 0 ((o - 0x40) / 4) g.limit), (16, 11, get 0 ((o - 0x40) / 4) g.plimit)]
  else if 0x80 ≤ o ∧ o ≤ 0xB4 then (get 0 ((o - 0x80) / 4) g.cnt).toNat
  else if 0xC0 ≤ o ∧ o < 0xE0 then (get 0 ((o - 0xC0) / 4) g.laneErr).toNat
  else 0
def State.csrMover (s : State) (q m o : Nat) : Nat :=
  let v := (s.range q).mover m
  if o = 0 then fieldsOf [(0, 5, v.q.length + bit1 v.fetching.isSome), (5, 8, v.q.foldl (fun n d => n + d.ops.length) 0),
                          (13, 1, bit1 (v.fetching.isSome || v.q.any fun d => d.begun))]
  else if o = 4 then v.errCnt.toNat
  else if o = 8 then fieldsOf [(0, 17, v.timeout)]
  else 0
/-- The block of quarter `q` (Table 3.4); `none` outside its sub-blocks. -/
def State.csrQuarter (s : State) (q o : Nat) : Option Nat :=
  let r := s.range q
  if o < 0x10000 then some (s.csrRange q o)
  else if 0x800000 ≤ o ∧ o < 0x880000 then some (field (get (0 : BitVec 256) ((o - 0x800000) / 32) r.pmem).toNat (32 * (o % 32 / 4)) 32)
  else if 0x900000 ≤ o ∧ o < 0x920000 then
    some (field (get (0 : BitVec 256) ((o - 0x900000) % 0x4000 / 32) (s.hob (8 * q + (o - 0x900000) / 0x4000)).lstore).toNat (32 * (o % 32 / 4)) 32)
  else if 0x1000000 ≤ o ∧ o < 0x1800000 then some (s.csrHob (8 * q + (o - 0x1000000) / 0x100000) (o % 0x100000))
  else if 0x2000000 ≤ o ∧ o < 0x2800000 then some (s.csrStation q (o - 0x2000000))
  else if 0x2800000 ≤ o ∧ o < 0x2D00000 then some (s.csrGate (5 * q + (o - 0x2800000) / 0x100000) ((o - 0x2800000) % 0x100000))
  else if 0x3000000 ≤ o ∧ o < 0x3010000 then
    some (if o = 0x3000000 then fieldsOf [(0, 7, r.brIn.length), (8, 7, r.brOut.length), (16, 6, r.park.length)] else 0)
  else if 0x3800000 ≤ o ∧ o < 0x3880000 then some (s.csrMover q ((o - 0x3800000) / 0x10000) (o % 0x10000))
  else none
/-- Program-memory and local-store windows (R90). -/
def inStoreWindow (a : Nat) : Bool :=
  let o := (a - 0xF010000000) % 0x4000000
  0xF010000000 ≤ a && a < 0xF020000000 && ((0x800000 ≤ o && o < 0x880000) || (0x900000 ≤ o && o < 0x920000))

/-! ### Common block (Tables 16.5 to 16.7) -/

/-- A slot is current (R456). -/
def LSlot.current (x : LSlot) : Bool := x.burned && x.check == crc8 x.value
/-- Slots and value bytes of the ledger settings 1 to 4 (Table 14.12). -/
def ledSlots (setting : Nat) : Nat := match setting with | 1 => 4 | 2 => 8 | 3 => 4 | 4 => 1 | _ => 0
def State.ledSlot (s : State) (setting n : Nat) : LSlot := get {} (8 * setting + n) s.boot.ledger
def State.ledBurned (s : State) (setting : Nat) : Nat := ((List.range (ledSlots setting)).filter fun n => (s.ledSlot setting n).burned).length
/-- Highest current slot. -/
def State.ledCurrent (s : State) (setting : Nat) : Option Nat := (List.range (ledSlots setting)).reverse.find? fun n => (s.ledSlot setting n).current
def slotStatus (x : LSlot) : Nat := fieldsOf [(0, 1, bit1 x.burned), (1, 1, bit1 x.current), (8, 8, x.check)]
def State.csrLedger (s : State) (o : Nat) : Nat :=
  if 0x1000 ≤ o ∧ o < 0x1010 then
    let t := (o - 0x1000) / 4 + 1
    fieldsOf [(0, 4, ledSlots t), (4, 4, s.ledBurned t), (8, 4, (s.ledCurrent t).getD 15)]
  else if 0x1100 ≤ o ∧ o < 0x1200 then
    let x := s.ledSlot 1 ((o - 0x1100) / 0x40)
    let w := o % 0x40 / 4
    if w < 12 then wordAt x.value w else if w = 12 then slotStatus x else 0
  else if 0x1200 ≤ o ∧ o < 0x12D0 then
    let (t, n) := if o < 0x1280 then (2, (o - 0x1200) / 16) else if o < 0x12C0 then (3, (o - 0x1280) / 16) else (4, 0)
    let x := s.ledSlot t n
    if o % 16 = 0 then (if t = 4 then 0 else le x.value 0 2) else if o % 16 = 4 then slotStatus x else 0
  else if 0x1300 ≤ o ∧ o < 0x1330 then wordAt (s.boot.keyHash.getD []) ((o - 0x1300) / 4)
  else if o = 0x1330 then fieldsOf [(0, 1, bit1 s.boot.keyHash.isSome), (1, 1, bit1 s.boot.pinPart.isSome), (2, 1, bit1 s.boot.pinChip.isSome), (3, 1, bit1 s.boot.dbgLocked)]
  else if o = 0x1334 then s.boot.pinPart.getD 0xFFFF
  else if o = 0x1338 then s.boot.pinChip.getD 0xFFFF
  else 0
/-- The registers of the ledger: a CSR write to one is an OTP write (R14, Table 16.5, Table 16.7). -/
def otpAddr (o : Nat) : Bool :=
  (0x1000 ≤ o && o < 0x1010) || (0x1100 ≤ o && o < 0x1200 && o % 0x40 / 4 ≤ 12) || (0x1200 ≤ o && o < 0x12D0 && (o % 16 == 0 || o % 16 == 4))
  || (0x1300 ≤ o && o ≤ 0x1338)
def State.csrCommon (s : State) (o : Nat) : Nat :=
  let c := s.com
  if o = 0 then 0x00A12410
  else if o = 4 then 0x12410735
  else if o = 8 then Config.dieSerial % 2 ^ 32
  else if o = 0xC then Config.dieSerial / 2 ^ 32 % 2 ^ 32
  else if o = 0x10 then 0x00054420
  else if o = 0x14 then 0x00002406
  else if 0x20 ≤ o ∧ o < 0x30 then (get 0 ((o - 0x20) / 4) c.scratch).toNat
  else if o = 0x30 then c.tag.toNat
  else if o = 0x34 then fieldsOf [(0, 8, c.accStatus), (8, 8, c.accChip), (16, 8, c.accTenant), (24, 1, bit1 c.accWrite)]
  else if o = 0x38 then c.accAddr.toNat
  else if o = 0x3C then c.accCnt.toNat
  else if 0x1000 ≤ o ∧ o < 0x2000 then s.csrLedger o
  else if o = 0x2000 then c.intClass.toNat
  else if o = 0x2004 then c.intSource.toNat
  else if o = 0x2008 then c.intFirst.toNat
  else if o = 0x3000 then c.cursor.toNat
  else if o = 0x3004 then c.result % 4
  else if 0x3020 ≤ o ∧ o < 0x3040 then (get 0 ((o - 0x3020) / 4) c.snap).toNat
  else 0
/-- Routing block (Tables 10.6, 10.7). -/
def State.csrRouting (s : State) (o : Nat) : Nat :=
  let r := s.rt
  if o = 0 then fieldsOf [(0, 8, r.chip), (8, 4, r.part)]
  else if o = 4 then r.hopLimit % 256
  else if o = 8 then r.pdrop.toNat
  else if o = 0xC then r.mdrop.toNat
  else if o = 0x10 then r.hopdrop.toNat
  else if o = 0x14 then r.noexit.toNat
  else if o = 0x18 then r.dgwait.toNat
  else if o = 0x1C then r.mgmt.toNat
  else if 0x40 ≤ o ∧ o < 0x60 then field r.unreach.toNat (32 * ((o - 0x40) / 4)) 32
  else if 0x1000 ≤ o ∧ o < 0x2400 then s.routeEntry ((o - 0x1000) / 0x400) ((o - 0x1000) % 0x400 / 4)
  else 0

/-! ### Stoker (Tables 6.4, 6.11, 6.12) -/

def EState.code (x : EState) : Nat :=
  match x with | .empty => 0 | .admitting => 1 | .loading => 2 | .idle => 3 | .armed => 4 | .running => 5 | .disabled => 6
def Entry.word (x : Entry) (w : Nat) : Nat :=
  let t (j : Nat) : Term := x.terms.getD j {}
  match w with
  | 0 => fieldsOf [(0, 2, x.cls), (2, 4, x.rmask), (6, 1, bit1 x.rep), (7, 1, bit1 x.dlEn), (8, 8, x.tenant), (16, 4, x.part), (20, 3, x.state.code)]
  | 1 => fieldsOf [(0, 24, x.cost)]
  | 2 => fieldsOf [(0, 14, x.pbase), (16, 15, x.plen)]
  | 3 => x.movUp.toNat + x.movDn.toNat * 65536
  | 4 => fieldsOf [(0, 16, x.deadline), (16, 16, x.report)]
  | 13 => fieldsOf [(0, 16, x.arms)]
  | 14 => x.stamp % 2 ^ 32
  | 15 => x.stamp / 2 ^ 32 % 2 ^ 16
  | n => if n % 2 = 1 then fieldsOf [(0, 2, (t ((n - 5) / 2)).kind), (2, 1, bit1 (t ((n - 5) / 2)).consume), (16, 16, (t ((n - 5) / 2)).index)]
         else (t ((n - 6) / 2)).thresh % 2 ^ 32
def State.csrStoker (s : State) (o : Nat) : Option Nat :=
  let k := s.stk
  if o < 0x1000 then
    some (if o = 0 then fieldsOf [(0, 15, k.beatK), (15, 1, bit1 k.rtMode), (16, 1, bit1 k.simmerEn), (17, 2, k.dlPolicy)]
      else if o = 4 then fieldsOf [(0, 16, k.simmerAfter), (16, 16, k.stallBeats)]
      else if o = 8 then fieldsOf [(0, 8, k.leader), (8, 1, bit1 k.isLeader), (9, 9, k.members.length)]
      else if o = 0xC then k.beat.toNat
      else if o = 0x10 then fieldsOf [(0, 16, k.sb), (16, 1, bit1 k.localStall)]
      else if o = 0x14 then k.rid.toNat
      else if o = 0x18 then k.epoch.toNat
      else if o = 0x1C then fieldsOf [(0, 8, k.lastCode), (8, 8, k.lastDetail), (16, 10, k.lastEntry)]
      else if o = 0x20 then k.dlMiss.toNat
      else if o = 0x24 then k.reqRef.toNat
      else if 0x30 ≤ o ∧ o < 0x40 then
        let r := (o - 0x30) / 4
        let y := s.range r
        let run := y.phase == .run
        fieldsOf [(0, 10, if run then y.entry else 0), (10, 1, bit1 run), (11, 1, bit1 (s.claimOf r).isSome), (12, 10, (s.claimOf r).getD 0)]
      else 0)
  else if 0x10000 ≤ o ∧ o < 0x20000 then some ((s.entry ((o - 0x10000) / 0x40)).word (o % 0x40 / 4))
  else none

/-! ### Service, clocks, power, boot (Tables 15.15, 15.16, 12.6, 12.7, 13.6, 13.7, 14.14, 14.15) -/

/-- The provisional ID (Table 15.1). -/
def State.pid (s : State) : Nat := 0x01A7 * 2 ^ 33 + 0x2410 * 2 ^ 16 + s.svc.strap % 8 * 2 ^ 12
def State.csrService (s : State) (o : Nat) : Nat :=
  let v := s.svc
  if o = 0 then fieldsOf [(0, 3, v.mode), (3, 3, v.cause), (6, 1, bit1 v.testMode), (7, 1, bit1 s.boot.dbgLocked)]
  else if o = 4 then fieldsOf [(0, 7, 0x58 + v.strap % 8), (8, 7, v.dynAddr), (15, 1, bit1 v.dynValid), (16, 1, bit1 v.ibiEn)]
  else if o = 8 then fieldsOf [(0, 5, v.latch.toNat), (8, 5, v.mask.toNat)]
  else if o = 0xC then v.head.toNat
  else if o = 0x10 then s.logTail.toNat
  else if o = 0x14 then fieldsOf [(0, 1, bit1 v.mirrorEn), (16, 16, v.mirrorChan)]
  else if o = 0x18 then v.mirDrop.toNat
  else if o = 0x1C then v.telSent.toNat
  else if o = 0x20 then v.mboxCmd.toNat
  else if o = 0x24 then v.mboxErr.toNat
  else if 0x40 ≤ o ∧ o < 0x54 then (get 0 ((o - 0x40) / 4) v.classCnt).toNat
  else if o = 0x60 then s.pid % 2 ^ 32
  else if o = 0x64 then s.pid / 2 ^ 32
  else 0
def State.csrClock (s : State) (o : Nat) : Nat :=
  let c := s.clk
  if o = 0 then fieldsOf [(0, 1, c.primary), (1, 1, bit1 c.altFitted)]
  else if o = 4 then fieldsOf [(0, 1, c.sel), (1, 2, c.present.toNat), (3, 2, c.suspect.toNat), (5, 1, bit1 c.holdover), (6, 1, bit1 c.alarmAlt),
                               (7, 1, bit1 c.alarmPeer), (8, 1, bit1 (c.pending != 0)), (9, 1, bit1 s.onPll)]
  else if o = 8 then fieldsOf [(0, 16, c.altOff.toNat), (16, 1, bit1 c.altValid), (17, 4, c.altRun)]
  else if o = 0xC then fieldsOf [(0, 16, c.peerMed.toNat), (16, 1, bit1 c.peerValid), (17, 4, c.peerRun), (21, 5, c.witnesses)]
  else if o = 0x10 then fieldsOf ((List.range 4).map fun q => (3 * q, 3, get 0 q c.grade))
  else if o = 0x14 then fieldsOf [(0, 8, c.changeovers), (8, 24, c.stops.toNat)]
  else if 0x20 ≤ o ∧ o < 0x30 then
    let q := (o - 0x20) / 4
    fieldsOf [(0, 6, get 0 q c.trimBridge), (8, 6, get 0 q c.trimStation), (16, 8, twos 8 (get 0 q c.residual))]
  else 0
/-- Current of a sink: its envelope less what its logic draws, or nothing (R408); the logic's current is a free value. -/
def State.sinkDraw (s : State) (k : Nat) : Nat :=
  (get ({} : Sink) k s.pwr.sinks).env - Config.logicCurrent k s.fresh s.stk.beat.toNat (s.range (if k < 32 then k / 8 else k - 32)).cyc
def State.csrPower (s : State) (o : Nat) : Nat :=
  let p := s.pwr
  let sk (n : Nat) : Sink := get {} n p.sinks
  if o = 0 then fieldsOf [(0, 1, bit1 p.dampHold), (1, 10, p.dramp), (11, 4, p.voffset), (15, 8, p.rll)]
  else if o = 4 then fieldsOf [(0, 7, p.tdn), (8, 7, p.tup), (16, 16, p.raiseBeats)]
  else if o = 8 then fieldsOf ((List.range 4).map fun j => (8 * j, 6, Config.vmap j % 49))
  else if o = 0xC then fieldsOf ((List.range 4).map fun j => (8 * j, 6, Config.vmap (4 + j) % 49))
  else if o = 0x10 then fieldsOf [(0, 6, p.target), (8, 6, p.commanded), (14, 1, bit1 p.acked), (16, 10, p.readback)]
  else if o = 0x14 then fieldsOf [(0, 10, p.amps)]
  else if o = 0x18 then fieldsOf ((List.range 4).map fun q => (8 * q, 8, twos 8 (get 0 q p.tq)))
  else if o = 0x1C then twos 8 p.tm
  else if o = 0x20 then fieldsOf [(0, 1, bit1 p.simmer), (1, 1, bit1 p.sleeping), (2, 1, bit1 p.cold), (3, 1, bit1 p.fault), (4, 4, p.cause), (8, 4, p.raise.toNat), (12, 1, bit1 p.therm)]
  else if o = 0x24 then fieldsOf [(0, 16, p.status), (16, 3, p.device)]
  else if o = 0x28 then p.grades.toNat
  else if o = 0x2C then p.simmers.toNat
  else if 0x30 ≤ o ∧ o < 0x40 then
    let l := quarterSinks ((o - 0x30) / 4)
    fieldsOf [(0, 10, l.foldl (fun n k => n + s.sinkDraw k) 0), (10, 10, l.foldl (fun n k => n + (sk k).env) 0)]
  else 0
def State.csrBoot (s : State) (o : Nat) : Nat :=
  let b := s.boot
  if o = 0 then fieldsOf [(0, 4, b.step), (4, 1, b.copy), (5, 1, bit1 b.diverged), (6, 1, bit1 b.unprov), (7, 1, bit1 b.failed)]
  else if o = 4 then fieldsOf [(0, 3, b.cause)]
  else if o = 8 then b.gen % 2 ^ 32
  else if o = 0xC then fieldsOf [(0, 3, b.verdictA), (8, 16, b.rtypeA)]
  else if o = 0x10 then fieldsOf [(0, 3, b.verdictB), (8, 16, b.rtypeB)]
  else if o = 0x14 then b.genA % 2 ^ 32
  else if o = 0x18 then b.genB % 2 ^ 32
  else if o = 0x1C then fieldsOf [(0, 1, bit1 b.sfdp), (1, 1, bit1 b.quad), (2, 1, bit1 b.addr4), (3, 1, bit1 b.hdr), (4, 5, b.size)]
  else if o = 0x20 then fieldsOf [(0, 2, b.session), (2, 1, bit1 s.stk.started), (3, 11, b.digests.length)]
  else if o = 0x24 then b.dseq % 2 ^ 32
  else if o = 0x28 then b.dseq / 2 ^ 32 % 2 ^ 32
  else if o = 0x2C then b.msgs.toNat
  else if o = 0x30 then b.refused.toNat
  else 0
def State.csrSvcBlock (s : State) (o : Nat) : Option Nat :=
  if o < 0x1000 then some (s.csrService o)
  else if 0x10000 ≤ o ∧ o < 0x11000 then some (s.csrClock (o - 0x10000))
  else if 0x20000 ≤ o ∧ o < 0x21000 then some (s.csrPower (o - 0x20000))
  else if 0x30000 ≤ o ∧ o < 0x31000 then some (s.csrBoot (o - 0x30000))
  else if 0x100000 ≤ o ∧ o < 0x120000 then
    let e := get (Vector.replicate 8 (0 : Word)) ((o - 0x100000) / 32) s.svc.log
    some (e.toList.getD (o % 32 / 4) 0).toNat
  else none

/-! ### Transport and Ethernet (Tables 11.14 to 11.16) -/

def Qp.word (x : Qp) (w : Nat) : Nat :=
  match w with
  | 0 => fieldsOf [(0, 3, x.state), (3, 1, bit1 x.ipv6), (4, 2, x.iface), (8, 8, x.tenant), (16, 12, x.pd), (28, 4, x.part)]
  | 1 => fieldsOf [(0, 14, x.peerQp.getD 0), (16, 12, x.matchlist)]
  | 2 => x.npsn.toNat
  | 3 => x.epsn.toNat
  | 4 => x.una.toNat
  | 5 => fieldsOf [(0, 9, (x.npsn - x.una).toNat), (9, 4, x.retries), (13, 8, x.rnrs), (21, 8, x.errcode)]
  | 6 => fieldsOf [(0, 16, x.scq), (16, 16, x.rcq)]
  | _ => 0
def Region.word (i : Nat) (x : Region) (w : Nat) : Nat :=
  match w with
  | 0 => if x.reg then i * 65536 + x.gen else 0
  | 1 => x.base % 2 ^ 32
  | 2 => fieldsOf [(0, 8, x.base / 2 ^ 32), (8, 8, x.tenant), (16, 12, x.pd), (28, 1, bit1 x.put), (29, 1, bit1 x.get), (30, 1, bit1 x.loc)]
  | 3 => fieldsOf [(0, 30, x.len / 64), (30, 2, x.state)]
  | 4 => fieldsOf [(0, 12, x.cnt), (12, 1, bit1 x.cntEn)]
  | _ => 0
def State.csrTransport (s : State) (o : Nat) : Option Nat :=
  let t := s.trn
  if o < 0x1000 then
    some (if o = 0 then t.port % 65536
      else if o = 4 then fieldsOf [(0, 15, t.msgs.foldl (fun n m => n + m.blocks.length) 0), (16, 13, t.qps.foldl (fun n e => n + e.2.ops.length) 0)]
      else if o = 8 then fieldsOf [(0, 17, t.recvs.length + t.matched.length), (17, 15, t.trigs.length)]
      else if o = 0x20 then t.drophdr.toNat
      else if o = 0x24 then t.droptag.toNat
      else if o = 0x28 then t.rnr.toNat
      else if o = 0x2C then t.retx.toNat
      else if o = 0x30 then t.cqdrop.toNat
      else if o = 0x34 then t.trigref.toNat
      else 0)
  else if 0x10000 ≤ o ∧ o < 0x14000 then some (get 0 ((o - 0x10000) / 4) t.cnt).toNat
  else if 0x100000 ≤ o ∧ o < 0x200000 then some ((get ({} : Qp) ((o - 0x100000) / 64) t.qps).word (o % 64 / 4))
  else if 0x200000 ≤ o ∧ o < 0x400000 then some (Region.word ((o - 0x200000) / 32) (get ({} : Region) ((o - 0x200000) / 32) t.regions) (o % 32 / 4))
  else none
def State.csrEth (s : State) (o : Nat) : Option Nat :=
  let x := get ({} : Iface) (o / 0x100) s.trn.ifaces
  let k := o % 0x100
  if o < 0x400 then
    some (if k = 0 then fieldsOf [(0, 3, x.mode), (3, 1, bit1 x.up), (4, 1, bit1 x.vlanEn), (5, 12, x.vid)]
      else if k = 4 then x.mac % 2 ^ 32
      else if k = 8 then x.mac / 2 ^ 32 % 2 ^ 16
      else if k = 0x10 then x.rxfrm.toNat
      else if k = 0x14 then x.txfrm.toNat
      else if k = 0x18 then x.fcs.toNat
      else if k = 0x1C then x.pause.toNat
      else if k = 0x20 then x.txdrop.toNat
      else 0)
  else none

/-! ### Flags, channels and chimneys (Tables 7.9 to 7.11) -/

def CState.code (x : CState) : Nat := match x with | .closed => 0 | .opened => 1 | .closing => 2
def State.chanWord (s : State) (c w : Nat) : Nat :=
  let x := s.chan c
  match w with
  | 0 => fieldsOf [(0, 2, x.state.code), (2, 1, bit1 x.chimney), (3, 1, bit1 x.dis), (4, 1, bit1 x.poison), (5, 2, x.why), (7, 1, bit1 x.notifyEn),
                   (8, 8, x.tenant), (16, 4, x.msglog), (20, 5, x.ringlog)]
  | 1 => x.base % 2 ^ 32
  | 2 => fieldsOf [(0, 8, x.base / 2 ^ 32)]
  | 3 => fieldsOf [(0, 14, x.rpflag), (16, 14, x.notify)]
  | 4 => x.wp.toNat
  | 5 => x.ac.toNat
  | 6 => if x.everOpen then (s.depth x).toNat else 0
  | _ => fieldsOf [(0, 12, x.k), (12, 1, bit1 x.kValid)]
def Channel.counter (x : Channel) (w : Nat) : Nat :=
  match w with
  | 0 => x.accepted.toNat | 1 => x.dropFull.toNat | 2 => x.dropClosed.toNat | 3 => x.dropOther.toNat | 4 => x.stall.toNat | 5 => x.partials.toNat | _ => 0
def Chimney.word (y : Chimney) (w : Nat) : Nat :=
  match w with
  | 0 => fieldsOf [(0, 2, y.fmt), (2, 1, bit1 y.ordered), (3, 1, bit1 y.fwdEn), (4, 9, y.n), (13, 7, y.clines), (20, 6, y.stages)]
  | 1 => y.stage / 64 * 64 % 2 ^ 32
  | 2 => fieldsOf [(0, 8, y.stage / 2 ^ 32)]
  | 3 => fieldsOf [(0, 8, y.pchip), (8, 8, y.pidx), (16, 16, y.pchan)]
  | 4 => fieldsOf [(0, 16, y.chan)]
  | 5 => y.dup.toNat
  | 6 => y.fwdFail.toNat
  | _ => 0
def State.csrFlags (s : State) (o : Nat) : Option Nat :=
  if o < 0x10000 then some (s.flag (o / 4)).toNat
  else if o < 0x12000 then
    let k := o - 0x10000
    some (if k < 0x800 then (List.range 32).foldl (fun m b => if s.flagPoi (8 * k + b) then m + 2 ^ b else m) 0
      else if k = 0x1000 then s.flg.drops.toNat
      else if 0x1010 ≤ k ∧ k < 0x1020 then
        match s.occupant ((k - 0x1010) / 4) with | some t => fieldsOf [(0, 8, t), (8, 1, 1)] | none => 0
      else 0)
  else if 0x100000 ≤ o ∧ o < 0x300000 then some (s.chanWord ((o - 0x100000) / 32) (o % 32 / 4))
  else if 0x400000 ≤ o ∧ o < 0x600000 then some ((s.chan ((o - 0x400000) / 32)).counter (o % 32 / 4))
  else if 0x600000 ≤ o ∧ o < 0x620000 then some ((s.chim ((o - 0x600000) / 32)).word (o % 32 / 4))
  else none

/-! ### Accesses (R489, R493 to R498, R510) -/

/-- The word at a local address of CSR space; `none` outside every decoded span of Table 16.3. -/
def State.csrNat (s : State) (a : Nat) : Option Nat :=
  let o := a - 0xF000000000
  let k := o % 0x1000000
  if a < 0xF000000000 ∨ 0xF100000000 ≤ a then none
  else if 0x10000000 ≤ o ∧ o < 0x20000000 then s.csrQuarter ((o - 0x10000000) / 0x4000000) (o % 0x4000000)
  else match o / 0x1000000 with
    | 0 => if k < 0x4000 then some (s.csrCommon k) else if 0x100000 ≤ k ∧ k < 0x104000 then some (s.csrRouting (k - 0x100000)) else none
    | 1 => s.csrStoker k
    | 2 => s.csrSvcBlock k
    | 3 => s.csrTransport k
    | 4 => s.csrEth k
    | 5 => s.csrFlags k
    | _ => none
def State.csrRead (s : State) (a : Nat) : Option Word := (s.csrNat a).map fun n => BitVec.ofNat 32 n
def csrDecoded (s : State) (a : Nat) : Bool := (s.csrNat a).isSome
/-- LOCKED_WRITE (R14, R498). -/
def State.lockedWrite (s : State) (a : Nat) : State := s.log 0x0001 .info .service none [a % 2 ^ 32, a / 2 ^ 32]
/-- W1C: bits written 1 clear, but those set in the same cycle (R17, R505). -/
def w1c (old v same : Word) : Word := (old &&& ~~~v) ||| same
/-- Log 75, DEDUCED. -/
def State.clearIntClass (s : State) (v same : Word) : State := { s with com := { s.com with intClass := w1c s.com.intClass v same } }
def State.clearIntSource (s : State) (v same : Word) : State := { s with com := { s.com with intSource := w1c s.com.intSource v same } }
/-- COM_TAG (R13, R14, R509). -/
def State.writeTag (s : State) (v : Word) : State :=
  if s.com.tagLocked then s.lockedWrite 0xF000000030 else { s with com := { s.com with tag := v, tagLocked := true } }
/-- LOG_CURSOR: the capture of R507. -/
def State.writeCursor (s : State) (v : Word) : State :=
  let held := decide ((v - s.logTail).toNat < (s.svc.head - s.logTail).toNat)
  let before := decide ((s.logTail - v).toNat ≤ 2 ^ 31) && decide (v ≠ s.logTail)
  let e := get (Vector.replicate 8 (0 : Word)) (v.toNat % 4096) s.svc.log
  let snap : SMap Word := if held then (List.range 8).foldl (fun m w => put 0 w (e.toList.getD w 0) m) [] else []
  { s with com := { s.com with cursor := v, result := if held then 0 else if before then 1 else 2, snap := snap } }
/-- A word write by any path that may write (R498): `same` are bits of a W1C register that are set in the same cycle. -/
def State.csrWrite (s : State) (a : Nat) (v same : Word) : State :=
  let o := a - 0xF000000000
  if a < 0xF000000000 then s
  else if 0x20 ≤ o ∧ o < 0x30 ∧ o % 4 = 0 then { s with com := { s.com with scratch := put 0 ((o - 0x20) / 4) v s.com.scratch } }
  else if o = 0x30 then s.writeTag v
  else if o = 0x2000 then s.clearIntClass v same
  else if o = 0x2004 then s.clearIntSource v same
  else if o = 0x3000 then s.writeCursor v
  else if o < 0x4000 ∧ otpAddr o = true then s.lockedWrite a
  else s
/-- Records a refused CSR access (R510). -/
def State.refuseCsr (s : State) (status chip tenant a : Nat) (write : Bool) : State :=
  { s with com := { s.com with accStatus := status, accChip := chip, accTenant := tenant, accWrite := write, accAddr := BitVec.ofNat 32 a, accCnt := s.com.accCnt + 1 } }
/-- Words of lines read, in ascending address order (R494, R495). -/
def State.csrReadBytes (s : State) (a words : Nat) : Bytes := (List.range words).flatMap fun w => toBytes 4 ((s.csrNat (a + 4 * w)).getD 0)
/-- Words of a write, in ascending address order. -/
def State.csrWriteBytes (s : State) (a : Nat) (b : Bytes) : State :=
  (List.range (b.length / 4)).foldl (fun s w => s.csrWrite (a + 4 * w) (BitVec.ofNat 32 (wordAt b w)) 0) s
/-- The status of a mover or Fenxia access to `n` bytes of CSR space by tenant `t` (R489, R497). Program-memory and
local-store windows are judged under R90 by the caller. -/
def State.judgeCsr (s : State) (t a n : Nat) : Nat :=
  if t ≠ 0 then 7 else if (List.range (n / 4)).all (fun w => csrDecoded s (a + 4 * w)) then 0 else 0x23

end Sys2Proof.Machine
end

