-- ==== Sys2Proof/Machine/Ether.lean ====
section
/-! DEFINITION. Ethernet frames and Beyfatre packets byte by byte (11_beyfatre_transport.md R333 to R340): what a received frame
is, and the frames the part sends. A frame is written without its preamble. -/
namespace Sys2Proof.Machine

/-- Big-endian number in `n` bytes at offset `o` (R4). -/
def be (b : Bytes) (o n : Nat) : Nat := ofBytesBE ((b.drop o).take n)
def State.iface (s : State) (i : Nat) : Iface := get {} i s.trn.ifaces
def State.setIface (s : State) (i : Nat) (x : Iface) : State := { s with trn := { s.trn with ifaces := put {} i x s.trn.ifaces } }

/-! ### Beyfatre packets (Tables 11.3, 11.4) -/

structure BfPkt where
  ackreq : Bool := false
  first : Bool := false
  last : Bool := false
  opc : Nat := 0
  part : Nat := 0
  tenant : Nat := 0
  dqpn : Nat := 0
  sqpn : Nat := 0
  psn : Word := 0
  /-- extension bytes 16 to 31 -/
  ext : Bytes := []
  payload : Bytes := []
  /-- source IP address and version of the frame -/
  srcIp : Nat := 0
  v6 : Bool := false
  deriving DecidableEq, Repr

/-- Codes that Table 11.9 does not reserve. -/
def ackCodeOk (c : Nat) : Bool := c ≤ 8 || (0x10 ≤ c && c ≤ 0x1B) || (0x41 ≤ c && c ≤ 0x53)
/-- The extension of an operation keeps Tables 11.4 and 11.9. -/
def extOk (opc plen : Nat) (e : Bytes) : Bool :=
  let z (o n : Nat) : Bool := be e o n == 0
  match opc with
  | 1 => plen ≤ 4096
  | 2 => plen ≤ 4096 && decide (be e 12 4 ≤ 16777216)
  | 3 => plen == 0 && decide (be e 12 4 ≤ 16777216)
  | 4 => plen ≤ 4096 && z 4 12
  | 5 => plen == 0 && z 0 16
  | 6 => 64 ≤ plen && plen ≤ 4096 && plen % 64 == 0 && be e 2 1 ≤ 1 && z 4 12
  | 7 => plen == 0 && ackCodeOk (be e 4 1) && z 5 3 && z 12 4
  | 8 => plen == 0 && 8 ≤ be e 4 1 && be e 4 1 ≤ 12 && z 5 11
  | 9 => plen == 0 && 8 ≤ be e 4 1 && be e 4 1 ≤ 12 && z 5 11
  | _ => false
/-- Reads the Beyfatre header, payload and ICRC of a UDP payload; `none` where R339 discards the packet. -/
def parseBf (b : Bytes) (srcIp : Nat) (v6 : Bool) : Option BfPkt :=
  let plen := be b 12 2
  let vf := be b 0 1
  let h : BfPkt :=
    { ackreq := vf.testBit 3, first := vf.testBit 2, last := vf.testBit 1, opc := be b 1 1, part := be b 2 1, tenant := be b 3 1,
      dqpn := be b 4 2, sqpn := be b 6 2, psn := BitVec.ofNat 32 (be b 8 4), ext := (b.drop 16).take 16,
      payload := (b.drop 32).take plen, srcIp := srcIp, v6 := v6 }
  if b.length = 32 + plen + 4 ∧ vf / 16 = 1 ∧ vf % 2 = 0 ∧ h.part < 16 ∧ h.dqpn < 16384 ∧ h.sqpn < 16384 ∧ be b 14 2 = 0
     ∧ extOk h.opc plen h.ext = true ∧ be b (32 + plen) 4 = crc32c (b.take (32 + plen)) then some h
  else none
/-- The bytes of a packet, ICRC last (R337, R340). -/
def BfPkt.bytes (p : BfPkt) : Bytes :=
  let vf := 0x10 + (if p.ackreq then 8 else 0) + (if p.first then 4 else 0) + (if p.last then 2 else 0)
  let h := toBytesBE 1 vf ++ toBytesBE 1 p.opc ++ toBytesBE 1 p.part ++ toBytesBE 1 p.tenant ++ toBytesBE 2 p.dqpn ++ toBytesBE 2 p.sqpn
    ++ toBytesBE 4 p.psn.toNat ++ toBytesBE 2 p.payload.length ++ [0, 0] ++ fit 16 p.ext ++ p.payload
  h ++ toBytesBE 4 (crc32c h)

/-! ### Received frames (R334, R335, R339) -/

/-- What a received frame is. -/
inductive Rx
  /-- fails its frame check sequence -/
  | fcs
  /-- PAUSE or priority flow control (R334) -/
  | pause
  /-- discarded and counted in BF_DROPHDR (R339) -/
  | bad
  /-- an ARP request for the interface: the sender's MAC and address -/
  | arp (mac ip : Nat)
  /-- a neighbour solicitation for the interface: the sender's address -/
  | solicit (ip : Nat)
  /-- an echo request: version, source address, ICMP message -/
  | echo (v6 : Bool) (ip : Nat) (msg : Bytes)
  | bf (p : BfPkt)
  /-- none of these: it has no effect -/
  | other
  deriving DecidableEq, Repr

/-- The pseudo-header of IPv6, or of IPv4 UDP (RFC 8200, RFC 768). -/
def pseudo (v6 : Bool) (src dst proto len : Nat) : Bytes :=
  if v6 then toBytesBE 16 src ++ toBytesBE 16 dst ++ toBytesBE 4 len ++ toBytesBE 4 proto
  else toBytesBE 4 src ++ toBytesBE 4 dst ++ toBytesBE 2 proto ++ toBytesBE 2 len
/-- A UDP datagram for the interface. -/
def rxUdp (port : Nat) (v6 : Bool) (src dst : Nat) (u : Bytes) : Rx :=
  let len := be u 4 2
  let ck := be u 6 2
  if be u 2 2 ≠ port then .other
  else if len < 8 ∨ u.length < len then .bad
  else if (v6 && ck == 0) || (ck != 0 && inetSum (pseudo v6 src dst 17 len ++ u.take len) != 0) then .bad
  else match parseBf ((u.take len).drop 8) src v6 with
    | some p => .bf p
    | none => .bad
/-- Solicited-node multicast address of an IPv6 address. -/
def solicited (a : Nat) : Nat := 0xFF0200000000000000000001FF000000 + a % 0x1000000
/-- An IPv4 packet. -/
def rxV4 (x : Iface) (port : Nat) (b : Bytes) : Rx :=
  let tot := be b 2 2
  let p := (b.take tot).drop 20
  let src := be b 12 4
  let dst := be b 16 4
  if be b 0 1 / 16 ≠ 4 ∨ tot < 20 ∨ b.length < tot then .bad
  else if be b 0 1 % 16 ≠ 5 ∨ inetSum (b.take 20) ≠ 0 ∨ be b 6 2 % 0x4000 ≠ 0 then .bad
  else if x.v4 ≠ some dst then .other
  else if be b 9 1 = 17 then rxUdp port false src dst p
  else if be b 9 1 = 1 ∧ be p 0 1 = 8 ∧ be p 1 1 = 0 ∧ inetSum p = 0 then .echo false src p
  else .other
/-- An IPv6 packet. -/
def rxV6 (x : Iface) (port : Nat) (b : Bytes) : Rx :=
  let len := be b 4 2
  let nh := be b 6 1
  let p := (b.drop 40).take len
  let src := be b 8 16
  let dst := be b 24 16
  let own : Nat := x.v6.getD 0
  if be b 0 1 / 16 ≠ 6 ∨ b.length < 40 + len then .bad
  else if nh = 0 ∨ nh = 43 ∨ nh = 44 ∨ nh = 60 ∨ nh = 50 ∨ nh = 51 ∨ nh = 135 ∨ nh = 139 ∨ nh = 140 ∨ nh = 253 ∨ nh = 254 then .bad
  else if x.v6.isNone then .other
  else if nh = 58 ∧ inetSum (pseudo true src dst 58 len ++ p) = 0 then
    if be p 0 1 = 135 ∧ be p 1 1 = 0 ∧ be b 7 1 = 255 ∧ be p 8 16 = own ∧ (dst = own ∨ dst = solicited own) then .solicit src
    else if be p 0 1 = 128 ∧ be p 1 1 = 0 ∧ dst = own then .echo true src p
    else .other
  else if dst ≠ own then .other
  else if nh = 17 then rxUdp port true src dst p
  else .other
/-- Broadcast, and the group address of the interface's solicited-node address (R334). -/
def groupMac (x : Iface) (mac : Nat) : Bool :=
  mac == 0xFFFFFFFFFFFF || (match x.v6 with | some a => mac == 0x333300000000 + solicited a % 0x100000000 | none => false)
/-- Judges a received frame of an interface. Log 115, DEDUCED. -/
def rxFrame (x : Iface) (port : Nat) (b : Bytes) (fcsOk : Bool) : Rx :=
  if !fcsOk then .fcs
  else
    let dst := be b 0 6
    let tagged := be b 12 2 == 0x8100
    let et := if tagged then be b 16 2 else be b 12 2
    let body := b.drop (if tagged then 18 else 14)
    if et = 0x8808 then .pause
    else if dst ≠ x.mac ∧ groupMac x dst = false then .bad
    else if b.length < 14 ∨ 9216 < b.length + 4 ∨ tagged ≠ x.vlanEn ∨ (tagged ∧ be b 14 2 % 0x1000 ≠ x.vid) then .other
    else
      let r :=
        if et = 0x0800 then rxV4 x port body
        else if et = 0x86DD then rxV6 x port body
        else if et = 0x0806 ∧ be body 0 8 = 0x0001080006040001 ∧ x.v4 = some (be body 24 4) then .arp (be body 8 6) (be body 14 4)
        else .other
      if dst = x.mac then r
      else match r with
        | .arp m a => if dst = 0xFFFFFFFFFFFF then .arp m a else .bad
        | .solicit a => .solicit a
        | _ => .bad

/-! ### Frames sent (R335 to R338) -/

/-- MAC address for a destination address (R335). -/
def Iface.macFor (x : Iface) (v6 : Bool) (ip : Nat) : Nat :=
  match x.nbrs.find? fun n => n.1 == (if v6 then 6 else 4) && n.2.1 == ip with
  | some n => n.2.2
  | none => x.gateway
def Iface.header (x : Iface) (dst et : Nat) : Bytes :=
  toBytesBE 6 dst ++ toBytesBE 6 x.mac ++ (if x.vlanEn then toBytesBE 2 0x8100 ++ toBytesBE 2 x.vid else []) ++ toBytesBE 2 et
/-- An IP packet of protocol `proto` (R338). -/
def ipPacket (x : Iface) (v6 : Bool) (dst dscp flow proto ttl : Nat) (p : Bytes) : Bytes :=
  if v6 then toBytesBE 4 (0x60000000 + dscp * 0x400000 + flow) ++ toBytesBE 2 p.length ++ toBytesBE 1 proto ++ toBytesBE 1 ttl
             ++ toBytesBE 16 (x.v6.getD 0) ++ toBytesBE 16 dst ++ p
  else
    let h (ck : Nat) : Bytes := toBytesBE 1 0x45 ++ toBytesBE 1 (4 * dscp) ++ toBytesBE 2 (20 + p.length) ++ toBytesBE 2 0 ++ toBytesBE 2 0x4000
      ++ toBytesBE 1 ttl ++ toBytesBE 1 proto ++ toBytesBE 2 ck ++ toBytesBE 4 (x.v4.getD 0) ++ toBytesBE 4 dst
    h (inetSum (h 0)) ++ p
/-- The ports neither send nor take frames: fatal stop, or a sleep with every quarter stopped (R420, R481). -/
def State.ethOff (s : State) : Bool :=
  s.svc.mode == 4 || (s.pwr.sleeping && (List.range 4).all fun q => (s.range q).halted && !s.clk.inStop.getLsbD q)
/-- A frame as it leaves: filled up to the least length of IEEE 802.3, then its frame check sequence (R337). Log 115, PRESUMED. -/
def withFcs (b : Bytes) : Bytes :=
  let f := b ++ List.replicate (60 - b.length) 0
  f ++ toBytes 4 (crc32 f)
/-- Longest frame the part sends (Table 11.2). -/
def maxSent : Nat := 4202
/-- A frame leaves an interface, or is dropped while its link is down (R336); none longer than Table 11.2 allows is sent. -/
def State.ethSend (s : State) (i : Nat) (b : Bytes) : State :=
  let x := s.iface i
  if s.ethOff ∨ maxSent < b.length + 4 then s
  else if x.up then (s.setIface i { x with txfrm := x.txfrm + 1 }).emit (.frame i (withFcs b))
  else s.setIface i { x with txdrop := x.txdrop + 1 }
/-- The frame of a Beyfatre packet (R337, R338). -/
def bfFrame (x : Iface) (port : Nat) (v6 : Bool) (dst dscp : Nat) (p : BfPkt) : Bytes :=
  let sport := 0xC000 + p.sqpn % 0x4000
  let pl := p.bytes
  let src := if v6 then x.v6.getD 0 else x.v4.getD 0
  let len := 8 + pl.length
  let u (ck : Nat) : Bytes := toBytesBE 2 sport ++ toBytesBE 2 port ++ toBytesBE 2 len ++ toBytesBE 2 ck ++ pl
  let ck := inetSum (pseudo v6 src dst 17 len ++ u 0)
  x.header (x.macFor v6 dst) (if v6 then 0x86DD else 0x0800) ++ ipPacket x v6 dst dscp sport 17 x.ttl (u (if ck = 0 then 0xFFFF else ck))
/-- An ICMP message with its checksum in bytes 2 and 3. -/
def icmp (v6 : Bool) (src dst : Nat) (ty : Nat) (rest : Bytes) : Bytes :=
  let m (ck : Nat) : Bytes := toBytesBE 1 ty ++ [0] ++ toBytesBE 2 ck ++ rest
  m (inetSum ((if v6 then pseudo true src dst 58 (4 + rest.length) else []) ++ m 0))
/-- The answer to an ARP request. -/
def arpReply (x : Iface) (mac ip : Nat) : Bytes :=
  x.header mac 0x0806 ++ toBytesBE 8 0x0001080006040002 ++ toBytesBE 6 x.mac ++ toBytesBE 4 (x.v4.getD 0) ++ toBytesBE 6 mac ++ toBytesBE 4 ip
/-- The advertisement that answers a neighbour solicitation; one from the unspecified address is answered to all nodes. -/
def naReply (x : Iface) (ip : Nat) : Bytes :=
  let own := x.v6.getD 0
  let dst := if ip = 0 then 0xFF020000000000000000000000000001 else ip
  let flags := if ip = 0 then 0x20000000 else 0x60000000
  x.header (if ip = 0 then 0x333300000001 else x.macFor true ip) 0x86DD
    ++ ipPacket x true dst 0 0 58 255 (icmp true own dst 136 (toBytesBE 4 flags ++ toBytesBE 16 own ++ toBytesBE 2 0x0201 ++ toBytesBE 6 x.mac))
/-- The answer to an echo request. -/
def echoReply (x : Iface) (v6 : Bool) (ip : Nat) (msg : Bytes) : Bytes :=
  let own := if v6 then x.v6.getD 0 else x.v4.getD 0
  x.header (x.macFor v6 ip) (if v6 then 0x86DD else 0x0800)
    ++ ipPacket x v6 ip 0 0 (if v6 then 58 else 1) x.ttl (icmp v6 own ip (if v6 then 129 else 0) (msg.drop 4))

end Sys2Proof.Machine
end

