-- ==== Sys2Proof/Machine/Trans.lean ====
section
/-! DEFINITION. The transport engine (11_beyfatre_transport.md R341 to R376): regions, trigger counters, completions, the sending
and the receiving side of a queue pair. -/
namespace Sys2Proof.Machine

def State.qp (s : State) (n : Nat) : Qp := get {} n s.trn.qps
def State.setQp (s : State) (n : Nat) (x : Qp) : State := { s with trn := { s.trn with qps := put {} n x s.trn.qps } }
def State.region (s : State) (i : Nat) : Region := get {} i s.trn.regions
def State.setRegion (s : State) (i : Nat) (x : Region) : State := { s with trn := { s.trn with regions := put {} i x s.trn.regions } }
def State.dropTag (s : State) : State := { s with trn := { s.trn with droptag := s.trn.droptag + 1 } }

/-! ### Work requests and receives (Tables 11.7, 11.8) -/

def wrKind (r : Bytes) : Nat := le r 8 1
def wrFlags (r : Bytes) : Nat := le r 9 1
def wrCnt (r : Bytes) : Nat := le r 10 2
def wrLkey (r : Bytes) : Nat := le r 12 4
def wrLoff (r : Bytes) : Nat := le r 16 8
def wrLen (r : Bytes) : Nat := le r 24 4
def wrRkey (r : Bytes) : Nat := le r 28 4
def wrArg (r : Bytes) : Nat := le r 32 8
def wrVal (r : Bytes) : Nat := le r 40 4
def wrTrig (r : Bytes) : Nat := le r 48 2
def wrThresh (r : Bytes) : Nat := le r 52 4
def wrFence (r : Bytes) : Bool := (wrFlags r).testBit 0
def wrCq (r : Bytes) : Bool := (wrFlags r).testBit 1
def wrCntEn (r : Bytes) : Bool := (wrFlags r).testBit 2
/-- A posted line is kept with one more byte where it was posted poisoned (R227). -/
def wrPoi (r : Bytes) : Bool := decide (64 < r.length)
def rvTag (r : Bytes) : Nat := le r 8 8
def rvMask (r : Bytes) : Nat := le r 16 8
def rvLkey (r : Bytes) : Nat := le r 24 4
def rvLoff (r : Bytes) : Nat := le r 32 8
def rvLen (r : Bytes) : Nat := le r 40 4
def rvCq (r : Bytes) : Bool := (le r 44 1).testBit 0
def rvCntEn (r : Bytes) : Bool := (le r 44 1).testBit 1
def rvCnt (r : Bytes) : Nat := le r 46 2
/-- Kinds that send Beyfatre packets (R347). -/
def netKind (k : Nat) : Bool := 1 ≤ k && k ≤ 5
def localKind (k : Nat) : Bool := 0x10 ≤ k && k ≤ 0x13
/-- A counter of a tenant's block (R362). -/
def State.ownsCnt (s : State) (t c : Nat) : Bool :=
  match s.tenantRec t with
  | some r => r.cntBase ≤ c && c < r.cntBase + r.cntCount
  | none => false
def Qp.maxPay (x : Qp) : Nat := 2 ^ x.paylog
/-- Packets of an operation of length `l` (R340). -/
def Qp.packets (x : Qp) (l : Nat) : Nat := max 1 (ceilDiv l x.maxPay)
/-- Table 11.7 for a posted work request; `trig` for a triggered post (R346). Log 108, DEDUCED. -/
def State.wrLegal (s : State) (x : Qp) (r : Bytes) (trig : Bool) : Bool :=
  let k := wrKind r
  let len := wrLen r
  let arg := wrArg r
  (netKind k || k == 6 || k == 7 || localKind k) && decide (wrFlags r < 8) && le r 44 4 == 0 && le r 50 2 == 0 && le r 56 8 == 0
  && (!wrCntEn r || s.ownsCnt x.tenant (wrCnt r)) && decide (wrCnt r < 4096)
  && (!trig || s.ownsCnt x.tenant (wrTrig r))
  && (match k with
      | 1 | 2 => decide (len ≤ 16777216)
      | 3 => decide (len ≤ 16777216) && decide (x.packets len ≤ 256)
      | 5 => decide (64 ≤ len) && decide (len ≤ 4096) && len % 64 == 0 && decide (len ≤ x.maxPay) && decide (arg < 2 ^ 32) && decide (field arg 16 8 ≤ 1)
      | 6 => decide (64 ≤ len) && decide (len ≤ 65536) && len % 64 == 0 && decide (arg < 2 ^ 48) && arg % 64 == 0
      | 0x10 => decide (arg < 1024)
      | 0x11 | 0x12 => decide (arg < 4096) && s.ownsCnt x.tenant arg
      | 0x13 => decide (arg < 16384)
      | _ => true)
/-- Table 11.8 for a posted receive. -/
def State.rvLegal (s : State) (x : Qp) (r : Bytes) : Bool :=
  le r 28 4 == 0 && decide (rvLen r ≤ 16777216) && decide (le r 44 1 < 4) && le r 45 1 == 0 && le r 48 16 == 0 && decide (rvCnt r < 4096)
  && (!rvCntEn r || s.ownsCnt x.tenant (rvCnt r))

/-! ### Regions (R359 to R361) -/

def regionKey (i : Nat) (r : Region) : Nat := i * 65536 + r.gen
/-- R359 for `n` bytes at region offset `off`; rights 0 PUT, 1 GET, 2 LOCAL. -/
def State.judgeKey (s : State) (key tenant pd right off n : Nat) : Nat :=
  let r := s.region (key / 65536)
  if !r.reg ∨ r.gen ≠ key % 65536 ∨ r.tenant ≠ tenant ∨ r.pd ≠ pd then 0x12
  else if r.state ≠ 1 then 0x15
  else if !(match right with | 0 => r.put | 1 => r.get | _ => r.loc) then 0x13
  else if n ≠ 0 ∧ r.len < off + n then 0x14
  else 0
/-- Local address of a region offset. -/
def State.keyAddr (s : State) (key off : Nat) : Nat := (s.region (key / 65536)).base + off
/-- Writes bytes at any address: every line and burst that they cover whole is clean afterwards (R263, R264). Log 40, DESIGN CHOICE. -/
def State.placeRaw (s : State) (a : Nat) (b : Bytes) : State :=
  let s1 := { s with mem := writeBytes s.mem a b }
  if isHbm a then
    (List.range (b.length / 32 + 1)).foldl (fun s j =>
      let c := (ceilDiv a 32 + j) * 32
      if c + 32 ≤ a + b.length then s.ptabClean c else s) s1
  else
    (List.range (b.length / 64 + 1)).foldl (fun s j =>
      let c := (ceilDiv a 64 + j) * 64
      if c + 64 ≤ a + b.length then { s with linePoi := put false c false s.linePoi } else s) s1
/-- Reads bytes; the mark says whether one of their lines is poisoned. -/
def State.readRaw (s : State) (a n : Nat) : Bytes × Bool :=
  let lo := a / 64 * 64
  let k := if n = 0 then 0 else (a + n - 1) / 64 - a / 64 + 1
  (((s.fetchLines lo k).drop (a - lo)).take n, s.linesPoison lo k)

/-! ### Counters and completions (R362, R365, R371) -/

/-- A counter changes; the triggered entries on it are judged afterwards (R363). -/
def State.setCnt (s : State) (c : Nat) (v : Word) : State :=
  let s1 := { s with trn := { s.trn with cnt := put 0 c v s.trn.cnt, chg := s.trn.chg ++ [(c, v)] } }
  if s.armedNames 3 c then s1.noteProgress else s1
def State.cntAdd (s : State) (c : Nat) (d : Word) : State := s.setCnt c (get 0 c s.trn.cnt + d)
/-- Table 11.11. -/
def cqRecord (event qpn status kind wrid len mlen tag psn : Nat) : Bytes :=
  fit 64 (toBytes 2 event ++ toBytes 2 qpn ++ toBytes 1 status ++ toBytes 1 kind ++ [0, 0] ++ toBytes 8 wrid ++ toBytes 4 len ++ toBytes 4 mlen
    ++ toBytes 8 tag ++ toBytes 4 psn)
/-- Writes a completion record to a channel; a refused one is dropped (R371). -/
def State.cqWrite (s : State) (c tenant : Nat) (b : Bytes) : State :=
  let (s1, code) := s.msgArrive c s.rt.chip sunitTransport 0 (some tenant) 1 0 [(b, false)]
  if code = 0 then s1 else { s1 with trn := { s1.trn with cqdrop := s1.trn.cqdrop + 1 } }
/-- A work request completes (R371). -/
def State.wrComplete (s : State) (qpn : Nat) (r : Bytes) (status len psn : Nat) : State :=
  let x := s.qp qpn
  let s1 := if wrCq r then s.cqWrite x.scq x.tenant (cqRecord 0x10 qpn status (wrKind r) (le r 0 8) len 0 0 psn) else s
  let s2 := if wrCntEn r then s1.cntAdd (wrCnt r) 1 else s1
  s2.noteProgress
/-- A receive completes (R349, R371). Log 113, DEDUCED. -/
def State.rvComplete (s : State) (v : Recv) (status : Nat) : State :=
  let x := s.qp v.qpn
  let len := if status = 0 ∨ status = 0x17 then min v.mlen (rvLen v.raw) else 0
  let s1 := if rvCq v.raw then s.cqWrite x.rcq x.tenant (cqRecord 0x11 v.qpn status 0 (le v.raw 0 8) len v.mlen v.tag v.psn.toNat) else s
  let s2 := if rvCntEn v.raw then s1.cntAdd (rvCnt v.raw) 1 else s1
  s2.noteProgress
/-- Number of outstanding operations (R347): one that has completed and counts as acknowledged (R370) is none. -/
def State.outstanding (s : State) : Nat := s.trn.qps.foldl (fun n e => n + (e.2.ops.filter fun o => !(o.done && o.acked)).length) 0
def State.newOp (s : State) : State × Nat := ({ s with trn := { s.trn with nextId := s.trn.nextId + 1 } }, s.trn.nextId % 65536)

/-! ### Sending packets (R338, R366 to R368, R372, R375) -/

/-- Sends one packet of a queue pair. -/
def State.qpSend (s : State) (qpn opc : Nat) (psn : Word) (ackreq first last : Bool) (ext payload : Bytes) : State :=
  let x := s.qp qpn
  let p : BfPkt := { ackreq := ackreq, first := first, last := last, opc := opc, part := x.part, tenant := x.tenant, dqpn := x.peerQp.getD 0,
                     sqpn := qpn, psn := psn, ext := ext, payload := payload }
  s.ethSend x.iface (bfFrame (s.iface x.iface) s.trn.port x.ipv6 x.peerIp x.dscp p)
/-- ACK or NAK of the current position (R366, R367). -/
def State.sendAck (s : State) (qpn code : Nat) (cpsn : Word) : State :=
  let x := s.qp qpn
  let s1 := s.qpSend qpn 7 x.npsn false false false (toBytesBE 4 (x.epsn - 1).toNat ++ toBytesBE 1 code ++ [0, 0, 0] ++ toBytesBE 4 cpsn.toNat) []
  let s2 := s1.setQp qpn { x with sinceAck := 0 }
  if code = 0x10 then { s2 with trn := { s2.trn with rnr := s2.trn.rnr + 1 } } else s2
/-- CONNECT or ACCEPT (R343, R557). -/
def State.sendConnect (s : State) (qpn opc : Nat) : State :=
  let x := s.qp qpn
  s.qpSend qpn opc x.npsn false false false (toBytesBE 4 x.ipsn.toNat ++ toBytesBE 1 x.paylog0) []
/-- Packets an operation sends, and PSNs it uses. -/
def Qp.opPackets (x : Qp) (o : TOp) : Nat := if wrKind o.raw = 1 ∨ wrKind o.raw = 2 then x.packets (wrLen o.raw) else 1
def Qp.opPsns (x : Qp) (r : Bytes) : Nat := if wrKind r ≤ 3 then x.packets (wrLen r) else 1
/-- Where the payload of packet `j` of an operation begins, and its length. -/
def Qp.opSpan (x : Qp) (r : Bytes) (j : Nat) : Nat × Nat :=
  if wrKind r = 5 then (0, wrLen r) else (j * x.maxPay, min x.maxPay (wrLen r - j * x.maxPay))
/-- Data of packet `j` of a SEND, PUT or CHPOST, read from its source (R368). -/
def State.opData (s : State) (x : Qp) (r : Bytes) (j : Nat) : Bytes × Bool :=
  s.readRaw (s.keyAddr (wrLkey r) (wrLoff r + (x.opSpan r j).1)) (x.opSpan r j).2
/-- Extension of packet `j` (Table 11.4). -/
def opExt (x : Qp) (r : Bytes) (j : Nat) : Bytes :=
  let lo := j * x.maxPay
  match wrKind r with
  | 1 => toBytesBE 8 (wrArg r) ++ toBytesBE 4 (wrLen r) ++ toBytesBE 4 lo
  | 2 => toBytesBE 4 (wrRkey r) ++ toBytesBE 8 (wrArg r + lo) ++ toBytesBE 4 (wrLen r)
  | 3 => toBytesBE 4 (wrRkey r) ++ toBytesBE 8 (wrArg r) ++ toBytesBE 4 (wrLen r)
  | 5 => toBytesBE 2 (field (wrArg r) 0 16) ++ toBytesBE 1 (field (wrArg r) 16 8) ++ toBytesBE 1 (field (wrArg r) 24 8)
  | _ => []
/-- OPC of a network kind. -/
def kindOpc (k : Nat) : Nat := match k with | 4 => 5 | 5 => 6 | _ => k
/-- The kinds whose packets carry data of the local region: SEND, PUT, CHPOST. -/
def readsLocal (k : Nat) : Bool := k == 1 || k == 2 || k == 5
/-- The local key of packet `j` of an operation, judged for that packet (R359). -/
def State.packetLkey (s : State) (qpn : Nat) (o : TOp) (j : Nat) : Nat :=
  let x := s.qp qpn
  if qpn ≠ 0 ∧ readsLocal (wrKind o.raw) = true then s.judgeKey (wrLkey o.raw) x.tenant x.pd 2 (wrLoff o.raw + (x.opSpan o.raw j).1) (x.opSpan o.raw j).2 else 0
/-- Sends packet `j` of an operation and answers 0, or answers why it is not sent: the code of its local key, or 6 where its data is poisoned. -/
def State.sendPacketOf (s : State) (qpn : Nat) (o : TOp) (j : Nat) : State × Nat :=
  let x := s.qp qpn
  let k := wrKind o.raw
  let code := s.packetLkey qpn o j
  let (d, poi) := if qpn = 0 then (((o.own.drop (j * x.maxPay)).take x.maxPay), false) else if readsLocal k then s.opData x o.raw j else ([], false)
  if code ≠ 0 then (s, code)
  else if poi then (s, 6)
  else
    let last := j + 1 = x.opPackets o
    let psn := o.psn + BitVec.ofNat 32 j
    let req := last ∨ (psn - x.una).toNat = 127
    (s.qpSend qpn (kindOpc k) psn (decide req) (j == 0) (decide last) (opExt x o.raw j) d, 0)
def Qp.mapOp (x : Qp) (id : Nat) (f : TOp → TOp) : Qp := { x with ops := x.ops.map fun o => if o.id = id then f o else o }

/-! ### Ending operations (R369 to R373) -/

/-- Every PSN of the operation lies before `u`. -/
def TOp.before (o : TOp) (u : Word) : Bool := decide (o.n ≤ (u - o.psn).toNat) && decide ((u - o.psn).toNat < 2 ^ 31)
/-- `u` passes the operations whose PSNs count as acknowledged (R370). -/
def passAcked (u : Word) : List TOp → Word
  | [] => u
  | o :: r => passAcked (if o.acked ∧ (u - o.psn).toNat < o.n then o.psn + BitVec.ofNat 32 o.n else u) r
/-- UNA moves on to `u` and past what counts as acknowledged behind it: its advance alone clears RETRIES and RNRS (R368). The operations
that have completed and have no PSN left end (R347). -/
def Qp.moveUna (x : Qp) (u : Word) : Qp :=
  let v := passAcked u x.ops
  let y := if v = x.una then x else { x with una := v, retries := 0, rnrs := 0 }
  { y with ops := y.ops.filter fun o => !(o.done && (!netKind (wrKind o.raw) || o.sent == 0 || o.before v)) }
/-- The same where no packet has moved UNA. -/
def Qp.settleAck (x : Qp) : Qp := x.moveUna x.una
/-- LEN of the completion record: bytes sent, read or placed (Table 11.11). Log 163, DEDUCED. -/
def Qp.opBytes (x : Qp) (o : TOp) (status : Nat) : Nat :=
  match wrKind o.raw with
  | 1 | 2 | 5 => min (wrLen o.raw) (o.gone * x.maxPay)
  | 3 => min (wrLen o.raw) (o.placed * x.maxPay)
  | 6 => if status = 0 then wrLen o.raw else 0
  | _ => 0
/-- Completes an outstanding operation once. -/
def State.endOp (s : State) (qpn id status : Nat) : State :=
  let x := s.qp qpn
  match x.ops.find? fun o => o.id == id && !o.done with
  | none => s
  | some o =>
    let s1 := s.setQp qpn (x.mapOp id fun o => { o with done := true })
    s1.wrComplete qpn o.raw status (x.opBytes o status) o.psn.toNat
/-- An operation that sends nothing more: a SEND or PUT keeps the PSNs it has used. -/
def TOp.cut (o : TOp) : TOp := { o with n := if wrKind o.raw = 1 ∨ wrKind o.raw = 2 then o.sent else o.n }
/-- A refused local key completes the operation, which sends no further packet (R359). -/
def State.opCut (s : State) (qpn id code : Nat) : State :=
  let s1 := s.endOp qpn id code
  s1.setQp qpn ((s1.qp qpn).mapOp id TOp.cut).settleAck
/-- LATE_ERROR of an operation that had completed (R372). -/
def State.lateError (s : State) (qpn : Nat) (o : TOp) (status : Nat) (psn : Word) : State :=
  let x := s.qp qpn
  s.cqWrite x.scq x.tenant (cqRecord 0x12 qpn status (wrKind o.raw) (le o.raw 0 8) (x.opBytes o 0) 0 0 psn.toNat)
/-- Another queue pair that still receives shares the match list of `qpn`; queue pair 0 has none (R341, R443). -/
def State.listShared (s : State) (qpn : Nat) : Bool :=
  s.trn.qps.any fun e => e.1 != qpn && e.1 != 0 && (e.2.state == 1 || e.2.state == 2 || e.2.state == 3) && e.2.matchlist == (s.qp qpn).matchlist
/-- The receives whose message from queue pair `qpn` is only partly there, placed or still in the pool. -/
def State.cutRecvs (s : State) (qpn : Nat) : List Recv :=
  let x := s.qp qpn
  s.trn.matched.filter fun v => !v.ready && (x.rx == some (RxTo.recv v.id)
    || s.trn.msgs.any fun m => x.rx == some (RxTo.pool m.id) && m.recv == some v.id && !m.last)
/-- The queue pair enters ERROR (R373, R443). -/
def State.qpError (s : State) (qpn code : Nat) : State :=
  let x := s.qp qpn
  let s1 := (x.ops.filter fun o => !o.done).foldl (fun s o => s.endOp qpn o.id 0x1A) s
  let s2 := x.sq.foldl (fun s r => s.wrComplete qpn r 0x1A 0 0) s1
  let mine := if s.listShared qpn then [] else s2.trn.recvs.filter fun v => v.qpn == qpn
  let cut := s2.cutRecvs qpn
  let s3 := (mine ++ cut).foldl (fun s v => s.rvComplete v 0x1A) s2
  let gone (v : Recv) : Bool := (mine ++ cut).any fun w => w.id == v.id
  let s4 := { s3 with trn := { s3.trn with recvs := s3.trn.recvs.filter fun v => !gone v, matched := s3.trn.matched.filter fun v => !gone v,
                                           msgs := s3.trn.msgs.filter fun m => !(x.rx == some (RxTo.pool m.id) && !m.last) } }
  let y := s4.qp qpn
  let s5 := s4.setQp qpn { y with state := 4, errcode := code, sq := [], ops := [], rx := none, rnrPsn := none, rnrWait := none, gapNak := false, sinceAck := 0 }
  if qpn = 0 then
    let free (b : BitVec 2) : BitVec 2 := match x.rx with | some (RxTo.deploy k) => b &&& ~~~(BitVec.twoPow 2 k) | _ => b
    (({ s5 with boot := { s5.boot with session := 0, digests := [], bufs := free s5.boot.bufs, work := s5.boot.work.map (fun (m : DMsg) => { m with lost := true }) } }).log 0x0108 .fabric .service none [code])
  else s5
/-- Data of a queue pair's own reading is poisoned (R375). -/
def State.qpPoison (s : State) (qpn id : Nat) : State :=
  let t := (s.qp qpn).tenant
  ((s.endOp qpn id 6).qpError qpn 6).consumePoison t 3

/-! ### The pump: new packets within the window (R347, R366) -/

/-- The first operation with packets still to start. -/
def Qp.toSend (x : Qp) : Option TOp := x.ops.find? fun o => netKind (wrKind o.raw) && !o.done && decide (o.sent < x.opPackets o)
/-- Starts the next packet, when the window lets it. -/
def State.pump1 (s : State) (qpn : Nat) : Option State :=
  let x := s.qp qpn
  if x.state ≠ 3 ∨ x.rnrWait.isSome then none
  else match x.toSend with
    | none => none
    | some o =>
      let n := if wrKind o.raw = 3 then o.n else 1
      if 256 < (x.npsn - x.una).toNat + n then none
      else
        let j := o.sent
        let o1 := if j = 0 then { o with psn := x.npsn } else o
        let up := (s.iface x.iface).up
        match s.sendPacketOf qpn o1 j with
        | (s1, 6) => some (s1.qpPoison qpn o.id)
        | (s1, c + 1) => some (s1.opCut qpn o.id (c + 1))
        | (s1, 0) =>
          let f (p : TOp) : TOp := { p with psn := o1.psn, sent := j + 1, gone := if up ∧ p.gone = j then j + 1 else p.gone }
          let y := ((s1.qp qpn).mapOp o.id f)
          let s2 := s1.setQp qpn { y with npsn := x.npsn + BitVec.ofNat 32 n }
          let k := wrKind o.raw
          if (k = 1 ∨ k = 2) ∧ (f o).gone = x.opPackets o then
            let s3 := s2.endOp qpn o.id 0
            some (s3.setQp qpn (s3.qp qpn).settleAck)
          else some s2
/-- Sends up to `n` packets. -/
def State.pump (s : State) (qpn : Nat) : Nat → State
  | 0 => s
  | n + 1 =>
    match s.pump1 qpn with
    | some s1 => State.pump s1 qpn n
    | none => s
/-- The packet of PSN `p`: its operation and number. -/
def Qp.opAt (x : Qp) (p : Word) : Option (TOp × Nat) :=
  (x.ops.find? fun o => netKind (wrKind o.raw) && decide (o.sent ≠ 0) && decide ((p - o.psn).toNat < o.n)).map fun o => (o, (p - o.psn).toNat)
/-- Resends from PSN `p` on, `n` PSNs at most (R368). A GET is resent whole, at its first PSN met; an operation refused under R370 is not
resent, nor a packet whose local key is refused (R359). -/
def State.resendFrom (s : State) (qpn : Nat) (p : Word) : Nat → State
  | 0 => s
  | n + 1 =>
    let x := s.qp qpn
    if x.state ≠ 3 ∨ (x.npsn - p).toNat = 0 ∨ 2 ^ 31 ≤ (x.npsn - p).toNat then s
    else
      match x.opAt p with
      | none => State.resendFrom s qpn (p + 1) n
      | some (o, j) =>
        let get := wrKind o.raw = 3
        if !get ∧ o.sent ≤ j then s
        else if o.acked then State.resendFrom s qpn (o.psn + BitVec.ofNat 32 o.n) n
        else
          let up := (s.iface x.iface).up
          match s.sendPacketOf qpn o (if get then 0 else j) with
          | (s1, 6) => s1.qpPoison qpn o.id
          | (s1, c + 1) => State.resendFrom (s1.opCut qpn o.id (c + 1)) qpn (p + 1) n
          | (s1, 0) =>
            let s2 := { s1 with trn := { s1.trn with retx := s1.trn.retx + 1 } }
            let s3 := s2.setQp qpn ((s2.qp qpn).mapOp o.id fun q => { q with gone := if up ∧ q.gone = j then j + 1 else q.gone })
            let s4 := if (wrKind o.raw = 1 ∨ wrKind o.raw = 2) ∧ up ∧ o.gone = j ∧ j + 1 = x.opPackets o then s3.endOp qpn o.id 0 else s3
            State.resendFrom s4 qpn (if get then o.psn + BitVec.ofNat 32 o.n else p + 1) n
def State.resend (s : State) (qpn : Nat) (p : Word) : State := (s.resendFrom qpn p 512).pump qpn 512
/-- GETs that have been acknowledged while some of their GETRSPs are missing. -/
def Qp.lateGets (x : Qp) : List TOp := x.ops.filter fun o => wrKind o.raw == 3 && o.sent != 0 && !o.done && o.before x.una
/-- Resends them, so that lost GETRSPs come again (R353). Log 164, DEDUCED. -/
def State.resendGets (s : State) (qpn : Nat) : State :=
  (s.qp qpn).lateGets.foldl (fun s o => let s1 := (s.sendPacketOf qpn o 0).1; { s1 with trn := { s1.trn with retx := s1.trn.retx + 1 } }) s

/-! ### Taking work requests (R347, R353 to R358) -/

/-- The head of the send queue may be taken (R347). -/
def State.mayTake (s : State) (qpn kind : Nat) : Bool :=
  let x := s.qp qpn
  match x.sq with
  | [] => false
  | r :: _ =>
    wrKind r == kind && (if netKind kind then x.state == 3 else x.state == 1 || x.state == 2 || x.state == 3)
    && decide (s.outstanding < 4096) && x.ops.all (fun o => o.done || !netKind (wrKind o.raw) || decide (o.sent ≠ 0))
    && (!wrFence r || x.ops.all fun o => o.done)
/-- Log 114, DEDUCED. -/
def State.popSq (s : State) (qpn : Nat) : State := let x := s.qp qpn; s.setQp qpn { x with sq := x.sq.tail }
/-- The head of the send queue. -/
def State.headSq (s : State) (qpn : Nat) : Bytes := (s.qp qpn).sq.headD []
/-- Takes a network work request: a refused local key completes it, otherwise its packets begin (R353 to R355, R359). -/
def State.takeNet (s : State) (qpn : Nat) : State :=
  let x := s.qp qpn
  let r := s.headSq qpn
  let s1 := s.popSq qpn
  let code := if wrKind r = 4 then 0 else s.judgeKey (wrLkey r) x.tenant x.pd 2 (wrLoff r) (wrLen r)
  if code ≠ 0 then s1.wrComplete qpn r code 0 x.npsn.toNat
  else
    let (s2, id) := s1.newOp
    let y := s2.qp qpn
    let s3 := s2.setQp qpn { y with ops := y.ops ++ [{ id := id, raw := r, psn := y.npsn, n := x.opPsns r }] }
    s3.pump qpn (4 + ceilDiv (wrLen r) 256)
/-- PREFETCH (R356): the DFETCH, or the completion of one that cannot go. -/
def State.startPrefetch (s : State) (qpn : Nat) (r : Bytes) : State :=
  let x := s.qp qpn
  let code := s.judgeKey (wrLkey r) x.tenant x.pd 2 (wrLoff r) (wrLen r)
  let a := s.keyAddr (wrLkey r) (wrLoff r)
  let staging := match s.stagingArea a with
    | some ar => let g := s.region (wrLkey r / 65536); ar.tenant == x.tenant && decide (ar.base ≤ g.base % hbmQuarter) && decide (g.base % hbmQuarter + g.len ≤ ar.base + ar.len)
    | none => false
  let chip := wrArg r / 2 ^ 40
  if code ≠ 0 then s.wrComplete qpn r code 0 x.npsn.toNat
  else if !staging then s.wrComplete qpn r 8 0 x.npsn.toNat
  else if chip < 256 ∧ s.rt.unreach.getLsbD chip then s.wrComplete qpn r 0x1B 0 x.npsn.toNat
  else
    let (s1, id) := s.newOp
    let y := s1.qp qpn
    let s2 := s1.setQp qpn { y with ops := y.ops ++ [{ id := id, raw := r, psn := y.npsn, n := 1, sent := 1 }] }
    s2.sendOwn { op := opDfetch, vc := 5, dst := chip, tenant := x.tenant, tag := id, sunit := sunitTransport, addr := wrArg r % 2 ^ 40,
                 addr2 := a, arg0 := wrLen r / 64 }
/-- REVOKE (R357, R360). -/
def State.startRevoke (s : State) (qpn : Nat) (r : Bytes) : State :=
  let x := s.qp qpn
  let i := wrRkey r / 65536
  let g := s.region i
  if !g.reg ∨ g.gen ≠ wrRkey r % 65536 ∨ g.tenant ≠ x.tenant then s.wrComplete qpn r 8 0 x.npsn.toNat
  else if g.state = 0 then s.wrComplete qpn r 0 0 x.npsn.toNat
  else
    let (s1, id) := (s.setRegion i { g with state := 2 }).newOp
    let y := s1.qp qpn
    s1.setQp qpn { y with ops := y.ops ++ [{ id := id, raw := r, psn := y.npsn, n := 1, sent := 1 }] }
/-- A local kind (R358): its effect and its completion. -/
def State.runLocal (s : State) (qpn : Nat) (r : Bytes) : State :=
  let x := s.qp qpn
  let arg := wrArg r
  let v := BitVec.ofNat 32 (wrVal r)
  let (s1, status) :=
    match wrKind r with
    | 0x10 => let (s', c) := s.armEntry arg x.part x.tenant; (s', if c = 0 then 0 else c + 0x40)
    | 0x11 => (s.cntAdd arg v, 0)
    | 0x12 => (s.setCnt arg v, 0)
    | _ => (s.flagAddMarked x.tenant arg v (wrPoi r), if s.mayUseFlag x.tenant arg then 0 else 7)
  s1.wrComplete qpn r status 0 x.npsn.toNat

/-! ### Triggered work (R363, R364) -/

/-- A triggered entry fires. -/
def State.fire (s : State) (qpn : Nat) (r : Bytes) : State :=
  let x := s.qp qpn
  let k := wrKind r
  if x.state = 4 then s.wrComplete qpn r 0x1A 0 0
  else if x.state = 5 ∨ x.state = 0 then s
  else if localKind k then s.runLocal qpn r
  else if k = 6 then s.startPrefetch qpn r
  else if k = 7 then s.startRevoke qpn r
  else if x.sqdepth ≤ x.sq.length then s.wrComplete qpn r 1 0 0
  else
    let a := x.sqbase + (x.sqTail % x.sqdepth) * 64
    (s.placeLine a (r.take 64) (wrPoi r)).setQp qpn { x with sq := x.sq ++ [r], sqTail := x.sqTail + 1 }
/-- Judges the changes of the counters, oldest first, each by the value it left; each entry fires at most once (R363). -/
def State.runTriggers (s : State) : Nat → State
  | 0 => s
  | n + 1 =>
    match s.trn.chg with
    | [] => s
    | c :: rest =>
      let hit (e : Nat × Bytes) : Bool := wrTrig e.2 == c.1 && decide (wrThresh e.2 ≤ c.2.toNat)
      let s1 := { s with trn := { s.trn with chg := rest, trigs := s.trn.trigs.filter fun e => !hit e } }
      State.runTriggers ((s.trn.trigs.filter hit).foldl (fun s e => s.fire e.1 e.2) s1) n
/-- Every change of a counter within the command has been judged. Log 117, DEDUCED. -/
def State.triggers (s : State) : State := s.runTriggers (3 * s.trn.trigs.length + s.trn.chg.length + 1)

/-! ### Receiving SENDs (R348 to R351) -/

/-- Blocks of the unexpected pool in use. -/
def State.poolUsed (s : State) : List Nat := s.trn.msgs.flatMap fun m => m.blocks
/-- The lowest free blocks, as many as asked. -/
def State.poolFree (s : State) (n : Nat) : List Nat :=
  let used := s.poolUsed
  ((List.range (used.length + n)).filter fun b => !used.contains b).take n
/-- Writes part of a message into its pool blocks. -/
def State.poolPlace (s : State) (blocks : List Nat) (off : Nat) (b : Bytes) : State :=
  (List.range (b.length / 4096 + 2)).foldl (fun s j =>
    let k := off / 4096 + j
    let lo := max off (k * 4096)
    let hi := min (off + b.length) ((k + 1) * 4096)
    if lo < hi then s.placeRaw (s.trn.pool + (blocks.getD k 0) * 4096 + (lo - k * 4096)) ((b.drop (lo - off)).take (hi - lo)) else s) s
/-- The bytes of a pool message. -/
def State.poolBytes (s : State) (m : PoolMsg) : Bytes :=
  (m.blocks.flatMap fun k => readBytes s.mem (s.trn.pool + k * 4096) 4096).take m.mlen
def State.mapMatched (s : State) (id : Nat) (f : Recv → Recv) : State :=
  { s with trn := { s.trn with matched := s.trn.matched.map fun v => if v.id = id then f v else v } }
/-- Places bytes of a message in a matched receive's buffer; a refused local key ends the receive (R349, R359). -/
def State.recvPlace (s : State) (id off : Nat) (b : Bytes) : State × Bool :=
  match s.trn.matched.find? fun v => v.id == id with
  | none => (s, false)
  | some v =>
    let x := s.qp v.qpn
    let keep := b.take (min v.mlen (rvLen v.raw) - off)
    let code := s.judgeKey (rvLkey v.raw) x.tenant x.pd 2 (rvLoff v.raw + off) keep.length
    if code ≠ 0 then (s.mapMatched id fun v => { v with status := code, ready := true }, false)
    else (s.placeRaw (s.keyAddr (rvLkey v.raw) (rvLoff v.raw + off)) keep, true)
/-- Every byte kept of a matched receive is placed. -/
def State.recvDone (s : State) (id : Nat) : State :=
  s.mapMatched id fun v => if v.ready then v else { v with ready := true, status := if rvLen v.raw < v.mlen then 0x17 else 0 }
/-- A whole pool message is copied to its receive and its blocks are freed (R350). -/
def State.poolDeliver (s : State) (m : PoolMsg) (id : Nat) : State :=
  let s1 := (s.recvPlace id 0 (s.poolBytes m)).1.recvDone id
  { s1 with trn := { s1.trn with msgs := s1.trn.msgs.filter fun k => k.id != m.id } }
/-- The first receive of a match list that takes a tag, and the others (R348). -/
def takeRecv (list tag : Nat) : List Recv → Option (Recv × List Recv)
  | [] => none
  | v :: r => if v.list = list ∧ (tag ^^^ rvTag v.raw) &&& rvMask v.raw = 0 then some (v, r) else (takeRecv list tag r).map fun x => (x.1, v :: x.2)
/-- A message whose LAST never came is given up: its receive, its blocks of the pool or its internal receive are free again. Log 168, DESIGN CHOICE. -/
def State.dropRx (s : State) (qpn : Nat) : State :=
  match (s.qp qpn).rx with
  | some (.recv id) => { s with trn := { s.trn with matched := s.trn.matched.filter fun v => v.id != id } }
  | some (.pool id) =>
    let r := (s.trn.msgs.find? fun m => m.id == id).bind fun m => m.recv
    { s with trn := { s.trn with msgs := s.trn.msgs.filter fun m => m.id != id, matched := s.trn.matched.filter fun v => r != some v.id } }
  | some (.deploy k) => { s with boot := { s.boot with bufs := s.boot.bufs &&& ~~~(BitVec.twoPow 2 k) } }
  | _ => s
/-- The FIRST packet of a SEND finds its place; `none` where the receiver is not ready. -/
def State.sendFirst (s : State) (qpn tag mlen : Nat) (psn : Word) : Option (State × RxTo) :=
  let x := s.qp qpn
  if qpn = 0 then
    if s.boot.bufs.getLsbD 0 = false then some ({ s with boot := { s.boot with bufs := s.boot.bufs ||| 1 } }, .deploy 0)
    else if s.boot.bufs.getLsbD 1 = false then some ({ s with boot := { s.boot with bufs := s.boot.bufs ||| 2 } }, .deploy 1)
    else none
  else match takeRecv x.matchlist tag s.trn.recvs with
    | some (v, rest) =>
      let v1 := { v with tag := tag, mlen := mlen, psn := psn }
      some ({ s with trn := { s.trn with recvs := rest, matched := s.trn.matched ++ [v1] } }, .recv v.id)
    | none =>
      let n := max 1 (ceilDiv mlen 4096)
      if 16384 < s.poolUsed.length + n ∨ 4096 ≤ s.trn.msgs.length then none
      else
        let id := s.trn.nextId
        let m : PoolMsg := { id := id, tenant := x.tenant, list := x.matchlist, tag := tag, mlen := mlen, psn := psn, blocks := s.poolFree n }
        some ({ s with trn := { s.trn with nextId := id + 1, msgs := s.trn.msgs ++ [m] } }, .pool id)
/-- Base of internal receive `b` of queue pair 0 (R443). -/
def State.deployBuf (s : State) (b : Nat) : Nat := s.trn.pool + 0x4000000 + b * 0x1000000
/-- A payload of a SEND is placed, and on the LAST packet the message is whole (R349, R350, R443). -/
def State.sendPlace (s : State) (qpn mlen off : Nat) (last : Bool) (b : Bytes) : State :=
  let x := s.qp qpn
  let b := b.take (mlen - off)
  match x.rx with
  | some (.recv id) =>
    let (s1, ok) := s.recvPlace id off b
    let s2 := if last then s1.recvDone id else s1
    s2.setQp qpn { s2.qp qpn with rx := if last then none else if ok then x.rx else some .drop }
  | some (.pool id) =>
    match s.trn.msgs.find? fun m => m.id == id with
    | none => s
    | some m =>
      let s1 := s.poolPlace m.blocks off b
      let s2 := if last then
          match m.recv with
          | some r => s1.poolDeliver m r
          | none => { s1 with trn := { s1.trn with msgs := s1.trn.msgs.map fun k => if k.id = id then { k with last := true } else k } }
        else s1
      s2.setQp qpn { s2.qp qpn with rx := if last then none else x.rx }
  | some (.deploy k) =>
    let s1 := s.placeRaw (s.deployBuf k + off) b
    let s2 := if last then { s1 with boot := { s1.boot with inbox := s1.boot.inbox ++ [(k, readBytes s1.mem (s1.deployBuf k) mlen)] } } else s1
    s2.setQp qpn { s2.qp qpn with rx := if last then none else x.rx }
  | some .drop => s.setQp qpn { x with rx := if last then none else x.rx }
  | none => s
/-- A receive is posted: it takes the oldest pool message of its list that it matches, or joins the list (R348, R350). -/
def State.addRecv (s : State) (qpn : Nat) (r : Bytes) : State :=
  let x := s.qp qpn
  let id := s.trn.nextId
  let v : Recv := { id := id, qpn := qpn, list := x.matchlist, raw := r }
  let s1 := { s with trn := { s.trn with nextId := id + 1 } }
  match s.trn.msgs.find? fun m => m.recv.isNone && m.list == x.matchlist && (m.tag ^^^ rvTag r) &&& rvMask r == 0 with
  | none => { s1 with trn := { s1.trn with recvs := s1.trn.recvs ++ [v] } }
  | some m =>
    let v1 := { v with tag := m.tag, mlen := m.mlen, psn := m.psn }
    let s2 := { s1 with trn := { s1.trn with matched := s1.trn.matched ++ [v1] } }
    if m.last then s2.poolDeliver m id
    else { s2 with trn := { s2.trn with msgs := s2.trn.msgs.map fun k => if k.id = m.id then { k with recv := some id } else k } }

end Sys2Proof.Machine
end

