-- ==== Sys2Proof/Machine/TransRx.lean ====
section
/-! DEFINITION. What the transport does with a received packet, a timeout, a posted line and an abort
(11_beyfatre_transport.md R343 to R346, R351 to R355, R359 to R370, R374, R557). -/
namespace Sys2Proof.Machine

/-! ### Acceptance of packets (R344, R366, R367) -/

/-- R344: the queue pair takes the packet. CONNECTING takes the ACCEPT that R343 gives it (assumption log 41). -/
def State.qpTakes (s : State) (p : BfPkt) : Bool :=
  let x := s.qp p.dqpn
  let st := x.state == 3 || x.state == 5 || (x.state == 1 && p.opc == 8) || (x.state == 2 && p.opc == 9)
  st && x.part == p.part && x.tenant == p.tenant && x.ipv6 == p.v6
    && (x.state == 1 || (x.peerIp == p.srcIp && x.peerQp == some p.sqpn))
/-- PSNs that a packet uses: none for ACK, CONNECT and ACCEPT, and a GETRSP carries those of its GET (R353, R557). -/
def State.packetPsns (s : State) (p : BfPkt) : Nat :=
  if p.opc = 3 then (s.qp p.dqpn).packets (be p.ext 12 4) else if p.opc = 4 ∨ 7 ≤ p.opc then 0 else 1
/-- EPSN advances by `n`. -/
def State.advanced (s : State) (p : BfPkt) (n : Nat) : State :=
  let x := s.qp p.dqpn
  s.setQp p.dqpn { x with epsn := x.epsn + BitVec.ofNat 32 n, gapNak := false, rnrPsn := none, sinceAck := x.sinceAck + 1 }
/-- The packet is accepted: EPSN advances by `n`, and an ACK goes out where R367 asks for one. -/
def State.accepted (s : State) (p : BfPkt) (n : Nat) : State :=
  let s1 := s.advanced p n
  let y := s1.qp p.dqpn
  if p.ackreq ∨ 16 ≤ y.sinceAck then s1.sendAck p.dqpn 0 (y.epsn - 1) else s1
/-- An ABORTED queue pair answers every packet with a NAK of code ABORTED, and counts one in sequence as accepted (R370, R374). -/
def State.abortedAnswer (s : State) (p : BfPkt) : State :=
  (if p.psn = (s.qp p.dqpn).epsn then s.advanced p (s.packetPsns p) else s).sendAck p.dqpn 4 p.psn
/-- A packet past R344; otherwise its discard is counted. -/
def State.takePacket (s : State) (p : BfPkt) (k : State → State) : State :=
  if s.qpTakes p then (if (s.qp p.dqpn).state = 5 then s.abortedAnswer p else k s) else s.dropTag
/-- The sequence rule of R366 for a packet in a READY queue pair: `k` runs for a packet in order, `dup` for a GET again. -/
def State.sequenced (s : State) (p : BfPkt) (k dup : State → State) : State :=
  let x := s.qp p.dqpn
  let d := (p.psn - x.epsn).toNat
  if d = 0 then k s
  else if d ≤ 255 then
    if x.rnrPsn.isSome ∨ x.gapNak then s
    else let s1 := s.sendAck p.dqpn 0x11 x.epsn; s1.setQp p.dqpn { s1.qp p.dqpn with gapNak := true }
  else if 2 ^ 32 - 256 ≤ d then dup s
  else s.dropTag
/-- The answer to a duplicate (R366, R367). -/
def State.dupAck (s : State) (p : BfPkt) : State := s.sendAck p.dqpn 0 ((s.qp p.dqpn).epsn - 1)

/-! ### Operations at the responder -/

/-- SEND (R348 to R351). A FIRST packet begins a new message, and a later packet without a message is accepted and placed nowhere. Log 168, DESIGN CHOICE. -/
def State.rxSend (s : State) (p : BfPkt) : State :=
  let tag := be p.ext 0 8
  let mlen := be p.ext 8 4
  let off := be p.ext 12 4
  s.takePacket p fun s => s.sequenced p (fun s =>
    if p.first then
      if 16777216 < mlen then s.sendAck p.dqpn 0x16 p.psn
      else match (s.dropRx p.dqpn).sendFirst p.dqpn tag mlen p.psn with
        | none => let s1 := s.sendAck p.dqpn 0x10 p.psn; s1.setQp p.dqpn { s1.qp p.dqpn with rnrPsn := some p.psn }
        | some (s1, dst) =>
          let s2 := s1.setQp p.dqpn { s1.qp p.dqpn with rx := some dst }
          (s2.sendPlace p.dqpn mlen off p.last p.payload).accepted p 1
    else (s.sendPlace p.dqpn mlen off p.last p.payload).accepted p 1) (fun s => s.dupAck p)
/-- Key check of a packet: queue pair 0 uses no key (R443). -/
def State.packetKey (s : State) (p : BfPkt) (key right off n : Nat) : Nat :=
  let x := s.qp p.dqpn
  if p.dqpn = 0 then 0x12 else s.judgeKey key x.tenant x.pd right off n
/-- PUT (R352, R359). -/
def State.rxPut (s : State) (p : BfPkt) : State :=
  let key := be p.ext 0 4
  let off := be p.ext 4 8
  s.takePacket p fun s => s.sequenced p (fun s =>
    match s.packetKey p key 0 off p.payload.length with
    | 0 =>
      let s1 := s.placeRaw (s.keyAddr key off) p.payload
      let g := s.region (key / 65536)
      ((if p.last ∧ g.cntEn then s1.cntAdd g.cnt 1 else s1)).accepted p 1
    | code => s.sendAck p.dqpn code p.psn) (fun s => s.dupAck p)
/-- The GETRSP packets of a GET (R353): poisoned data ends it and the queue pair (R375). -/
def State.getResponse (s : State) (qpn : Nat) (psn : Word) (a len : Nat) (j : Nat) : Nat → State
  | 0 => s
  | n + 1 =>
    let x := s.qp qpn
    let lo := j * x.maxPay
    let (d, poi) := s.readRaw (a + lo) (min x.maxPay (len - lo))
    if poi then ((s.sendAck qpn 6 psn).qpError qpn 6).consumePoison x.tenant 3
    else
      let last := n = 0
      let s1 := s.qpSend qpn 4 (psn + BitVec.ofNat 32 j) false (j == 0) (decide last) (toBytesBE 4 lo) d
      State.getResponse s1 qpn psn a len (j + 1) n
/-- GET (R353). One whose data is poisoned is answered by the NAK alone, which counts as its acceptance (R370, R375). -/
def State.rxGet (s : State) (p : BfPkt) : State :=
  let key := be p.ext 0 4
  let off := be p.ext 4 8
  let len := be p.ext 12 4
  let bad (s : State) : Bool := (s.readRaw (s.keyAddr key off) len).2
  let serve (s : State) : State := s.getResponse p.dqpn p.psn (s.keyAddr key off) len 0 ((s.qp p.dqpn).packets len)
  s.takePacket p fun s => s.sequenced p (fun s =>
    match s.packetKey p key 1 off len with
    | 0 => serve (if bad s then s.advanced p (s.packetPsns p) else s.accepted p (s.packetPsns p))
    | code => s.sendAck p.dqpn code p.psn) (fun s =>
    match s.packetKey p key 1 off len with
    | 0 => serve (if bad s then s else s.dupAck p)
    | code => s.sendAck p.dqpn code p.psn)
/-- GETRSP at the requester (R353): placed in PSN order only, the GETs of the queue pair one after the other. -/
def State.rxGetrsp (s : State) (p : BfPkt) : State :=
  s.takePacket p fun s =>
    let x := s.qp p.dqpn
    match x.opAt p.psn with
    | none => s
    | some (o, j) =>
      let next := (x.ops.find? fun q => wrKind q.raw == 3 && q.sent != 0 && !q.done).map fun q => q.id
      if x.state ≠ 3 ∨ wrKind o.raw ≠ 3 ∨ next ≠ some o.id ∨ j ≠ o.placed then s
      else
        let off := be p.ext 0 4
        let code := s.judgeKey (wrLkey o.raw) x.tenant x.pd 2 (wrLoff o.raw + off) p.payload.length
        if code ≠ 0 then (s.opCut p.dqpn o.id code).pump p.dqpn 512
        else
          let s1 := s.placeRaw (s.keyAddr (wrLkey o.raw) (wrLoff o.raw + off)) p.payload
          let s2 := s1.setQp p.dqpn ((s1.qp p.dqpn).mapOp o.id fun q => { q with placed := j + 1 })
          let s3 := if j + 1 = o.n then s2.endOp p.dqpn o.id 0 else s2
          (s3.setQp p.dqpn (s3.qp p.dqpn).settleAck).pump p.dqpn 512
/-- FLUSH (R354): every PUT accepted earlier has been placed. -/
def State.rxFlush (s : State) (p : BfPkt) : State :=
  s.takePacket p fun s => s.sequenced p (fun s => s.accepted { p with ackreq := true } 1) (fun s => s.dupAck p)
/-- The 64-byte lines of a payload, without marks. -/
def linesOf (b : Bytes) : List (Bytes × Bool) := (List.range (b.length / 64)).map fun j => ((b.drop (64 * j)).take 64, false)
/-- The outcome of a CHPOST at this part (R355): the source of a contribution is the queue pair, numbered above the chips. Log 112, DEDUCED. -/
def State.chpost (s : State) (p : BfPkt) : State × Nat :=
  let x := s.qp p.dqpn
  let c := be p.ext 0 2
  let ls := linesOf p.payload
  if p.dqpn = 0 then (s, 7)
  else if be p.ext 2 1 = 0 then s.msgArrive c s.rt.chip sunitTransport 0 (some x.tenant) ls.length 0 ls
  else s.contribArrive c (some x.tenant) (256 + p.dqpn) (be p.ext 3 1) 0 ls (decide ((s.chim (s.chan c).k).clines = ls.length))
/-- CHPOST (R355): its PSN counts as accepted whatever the outcome. -/
def State.rxChpost (s : State) (p : BfPkt) : State :=
  s.takePacket p fun s => s.sequenced p (fun s =>
    let (s1, code) := s.chpost p
    (s1.advanced p 1).sendAck p.dqpn code p.psn) (fun s => s.dupAck p)

/-! ### ACK and NAK at the requester (R367 to R370, R557) -/

def fatalCode (c : Nat) : Bool := 0x12 ≤ c && c ≤ 0x16
/-- Frees every PSN up to `a` and completes the FLUSHes and CHPOSTs they hold (R367). Log 110, DEDUCED. -/
def State.ackUpTo (s : State) (qpn : Nat) (a : Word) : State :=
  let x := s.qp qpn
  let s1 := (x.ops.filter fun o => !o.done && (wrKind o.raw == 4 || wrKind o.raw == 5) && decide (o.sent ≠ 0) && decide ((a - o.psn).toNat < 2 ^ 31)).foldl
    (fun s o => s.endOp qpn o.id 0) s
  s1.setQp qpn ((s1.qp qpn).moveUna (a + 1))
/-- An operation ends with a code of Table 7.5 without being resent, and its PSNs count as acknowledged (R370). -/
def State.opRefused (s : State) (qpn : Nat) (o : TOp) (code : Nat) : State :=
  let s1 := s.endOp qpn o.id code
  s1.setQp qpn ((s1.qp qpn).mapOp o.id fun q => { q.cut with acked := true }).settleAck
/-- A NAK of code RNR: the packets from `c` on go again after RNR_DELAY (R368). -/
def State.nakRnr (s : State) (qpn : Nat) (c : Word) : State :=
  let x := s.qp qpn
  if x.rnrRetry < x.rnrs + 1 then s.qpError qpn 0x19 else s.setQp qpn { x with rnrs := x.rnrs + 1, rnrWait := some c }
/-- What a code does to the operation `op` that holds its CPSN before the packet's APSN is applied (R369, R370, R372). -/
def State.endByCode (s : State) (qpn : Nat) (op : Option TOp) (code : Nat) (c : Word) : State :=
  match op with
  | none => s
  | some o =>
    if fatalCode code then (if o.done then s.lateError qpn o code c else s.endOp qpn o.id code)
    else if 1 ≤ code ∧ code ≤ 8 then s.opRefused qpn o code
    else s
/-- Codes that end the queue pair too (R369, R370). -/
def endsQp (c : Nat) : Bool := fatalCode c || c == 4 || c == 6
/-- ACK or NAK (R557): a packet of code 1 to 8 is an ACK where CPSN holds a CHPOST, or is not outstanding; its CODE is then ignored.
Logs 110, 111, DEDUCED. -/
def State.rxAck (s : State) (p : BfPkt) : State :=
  s.takePacket p fun s =>
    let x := s.qp p.dqpn
    let a := BitVec.ofNat 32 (be p.ext 0 4)
    let code := be p.ext 4 1
    let c := BitVec.ofNat 32 (be p.ext 8 4)
    let span := (x.npsn - x.una).toNat
    let aOk := decide ((a - (x.una - 1)).toNat ≤ span)
    let cOk := decide ((c - x.una).toNat < span)
    let op := if cOk then (x.opAt c).map fun o => o.1 else none
    let ack := code == 0 || (decide (code ≤ 8) && (match op with | some o => wrKind o.raw == 5 | none => !cOk))
    let free (s : State) : State := if aOk then s.ackUpTo p.dqpn a else s
    if x.state ≠ 3 then s
    else if !(if ack then aOk else cOk) then s.dropTag
    else
      let s1 := free (s.endByCode p.dqpn op code c)
      (if endsQp code && cOk then s1.qpError p.dqpn code
       else if code = 0x11 then s1.resend p.dqpn c
       else if code = 0x10 then s1.nakRnr p.dqpn c
       else s1).pump p.dqpn 512

/-! ### CONNECT and ACCEPT (R343) -/

/-- HELLO (R444, Table 14.6). -/
def State.helloBytes (s : State) : Bytes :=
  fit 64 (toBytes 4 0x5DE90A03 ++ [0] ++ toBytes 1 s.rt.chip ++ toBytes 1 s.rt.part
    ++ toBytes 1 (s.boot.copy + 2 * s.boot.cause + (if s.stk.started then 16 else 0)) ++ toBytes 4 s.boot.gen ++ [0, 0, 0, 0] ++ fit 16 s.boot.nonce)
/-- The part's own SEND on queue pair 0: its operation carries its bytes (R444, R448). -/
def State.sendOn0 (s : State) (tag : Nat) (b : Bytes) : State :=
  let x := s.qp 0
  if x.state = 3 then
    let (s1, id) := s.newOp
    let y := s1.qp 0
    let raw := fit 64 ([] ++ toBytes 8 0 ++ toBytes 1 1 ++ toBytes 7 0 ++ toBytes 8 0 ++ toBytes 4 b.length ++ toBytes 4 0 ++ toBytes 8 tag)
    (s1.setQp 0 { y with ops := y.ops ++ [{ id := id, raw := raw, psn := y.npsn, n := y.packets b.length, own := b }] }).pump 0 512
  else s
/-- Queue pair 0 enters READY: HELLO with a fresh nonce, and DSEQ 1 is expected (R444). -/
def State.openSession (s : State) : State :=
  let nonce := (List.range 16).map fun j => BitVec.ofNat 8 (Config.entropy (16 * s.fresh + j))
  let s1 := { s with fresh := s.fresh + 1, boot := { s.boot with session := 2, nonce := nonce, dseq := 0, digests := [], step := if s.svc.cause = 0 then max s.boot.step 9 else s.boot.step } }
  s1.sendOn0 0 s1.helloBytes
/-- CONNECT at a listening or a bound queue pair. -/
def State.rxConnect (s : State) (p : BfPkt) : State :=
  let ip := BitVec.ofNat 32 (be p.ext 0 4)
  let pl := be p.ext 4 1
  s.takePacket p fun s =>
    let x := s.qp p.dqpn
    if x.state = 1 then
      let s1 := s.setQp p.dqpn { x with state := 3, peerIp := p.srcIp, peerQp := some p.sqpn, epsn := ip, boundBy := some (ip, pl), paylog := min x.paylog0 pl }
      (s1.sendConnect p.dqpn 9).pump p.dqpn 512
    else if x.state = 3 ∧ x.boundBy = some (ip, pl) then s.sendConnect p.dqpn 9
    else s
/-- ACCEPT at a connecting queue pair. -/
def State.rxAccept (s : State) (p : BfPkt) : State :=
  s.takePacket p fun s =>
    let x := s.qp p.dqpn
    if x.state = 2 then
      let s1 := s.setQp p.dqpn { x with state := 3, epsn := BitVec.ofNat 32 (be p.ext 0 4), paylog := min x.paylog0 (be p.ext 4 1) }
      if p.dqpn = 0 then s1.openSession else s1.pump p.dqpn 512
    else s

/-! ### Timers (R343, R368) -/

/-- The retransmission timeout of a queue pair, or the repetition of its CONNECT. -/
def State.rtoExpire (s : State) (qpn : Nat) : State :=
  let x := s.qp qpn
  if x.state = 2 then
    let s1 := s.setQp qpn { x with connTries := x.connTries + 1 }
    if x.retry ≤ x.connTries + 1 then s1.qpError qpn 0x18 else s1.sendConnect qpn 8
  else if x.state = 3 ∧ (x.una ≠ x.npsn ∨ x.lateGets ≠ []) then
    if x.retry < x.retries + 1 then s.qpError qpn 0x18
    else ((s.setQp qpn { x with retries := x.retries + 1 }).resendGets qpn).resend qpn x.una
  else s
/-- RNR_DELAY has passed (R368). -/
def State.rnrExpire (s : State) (qpn : Nat) : State :=
  let x := s.qp qpn
  match x.rnrWait with
  | some c => if x.state = 3 then (s.setQp qpn { x with rnrWait := none }).resend qpn c else s
  | none => s

/-! ### Posting (R345, R346) -/

def postWindow : Nat := 0xFA00000000
def inPostWindow (a : Nat) : Bool := postWindow ≤ a && a < postWindow + 0x400000
/-- Queue pair and kind of post of a window address: 0 send queue, 1 receive, 2 triggered. -/
def postTarget (a : Nat) : Option (Nat × Nat) :=
  let o := (a - postWindow) % 0x100
  let n := (a - postWindow) / 0x100
  if o = 0 then some (n, 0) else if o = 0x40 then some (n, 1) else if o = 0x80 then some (n, 2) else none
/-- Judges a posted line: its status. Log 109, DEDUCED. -/
def State.judgePost (s : State) (t a lines : Nat) (b : Bytes) : Nat :=
  match postTarget a with
  | none => 8
  | some (n, k) =>
    let x := s.qp n
    if lines ≠ 1 ∨ a % 64 ≠ 0 then 8
    else if x.state = 0 ∨ n = 0 ∨ x.tenant ≠ t then 7
    else if k = 0 then (if !s.wrLegal x b false then 8 else if x.state = 5 then 4 else if x.sqdepth ≤ x.sq.length then 1 else 0)
    else if k = 1 then (if !s.rvLegal x b then 8 else if x.state = 5 then 4 else if 65536 ≤ s.trn.recvs.length + s.trn.matched.length then 1 else 0)
    else if !s.wrLegal x b true then 8 else if x.state = 5 then 4 else if 16384 ≤ s.trn.trigs.length then 1 else 0
/-- POST_WORK_REQUEST. -/
def State.postSend (s : State) (n : Nat) (b : Bytes) : State :=
  let x := s.qp n
  if x.state = 4 then s.wrComplete n b 0x1A 0 0
  else (s.placeLine (x.sqbase + (x.sqTail % x.sqdepth) * 64) (b.take 64) (wrPoi b)).setQp n { x with sq := x.sq ++ [b], sqTail := x.sqTail + 1 }
/-- POST_RECEIVE. -/
def State.postRecv (s : State) (n : Nat) (b : Bytes) : State :=
  if (s.qp n).state = 4 then s.rvComplete { id := 0, qpn := n, list := 0, raw := b } 0x1A else s.addRecv n b
/-- POST_TRIGGERED: held, and judged at once (R363). -/
def State.postTrig (s : State) (n : Nat) (b : Bytes) : State :=
  if (s.qp n).state = 4 then s.wrComplete n b 0x1A 0 0
  else { s with trn := { s.trn with trigs := s.trn.trigs ++ [(n, b)], chg := s.trn.chg ++ [(wrTrig b, get 0 (wrTrig b) s.trn.cnt)] } }

/-! ### Ends of receives, regions and prefetches -/

/-- RECEIVE_COMPLETE (R349). -/
def State.recvComplete (s : State) (id : Nat) : State :=
  match s.trn.matched.find? fun v => v.id == id && v.ready with
  | none => s
  | some v =>
    let s1 := { s with trn := { s.trn with matched := s.trn.matched.filter fun w => w.id != id } }
    s1.rvComplete v v.status
/-- REGION_CLOSED (R360): REVOKEs of the region complete. -/
def State.regionClosed (s : State) (i : Nat) : State :=
  let g := s.region i
  if g.state ≠ 2 then s
  else
    let s1 := s.setRegion i { g with state := 0 }
    s1.trn.qps.foldl (fun s e =>
      let s2 := (e.2.ops.filter fun o => wrKind o.raw == 7 && wrRkey o.raw / 65536 == i && !o.done).foldl (fun s o => s.endOp e.1 o.id 0) s
      s2.setQp e.1 (s2.qp e.1).settleAck) s1
/-- A PREFETCH whose DFETCH has left, or that failed (R356). -/
def State.prefetchEnd (s : State) (tag status : Nat) : State :=
  match s.trn.qps.find? fun e => e.2.ops.any fun o => o.id == tag && wrKind o.raw == 6 && !o.done with
  | none => s
  | some e =>
    let s1 := s.endOp e.1 tag status
    s1.setQp e.1 (s1.qp e.1).settleAck
/-- Statuses that came home to the transport engine within the command (R301). -/
def State.transHome (s : State) : State :=
  let l := s.trn.home
  l.foldl (fun s h => s.prefetchEnd h.1 (if h.2 = 0x21 then 0x1B else h.2)) { s with trn := { s.trn with home := [] } }

/-! ### Abort (R374) -/

def State.abortTransport (s : State) (t : Nat) : State :=
  let mine (n : Nat) : Bool := (s.qp n).tenant == t && (s.qp n).state != 0
  let s1 := { s with trn := { s.trn with
    qps := s.trn.qps.map fun e => if e.1 ≠ 0 ∧ e.2.tenant = t ∧ e.2.state ≠ 0 then (e.1, { e.2 with state := 5, sq := [], ops := [], rx := none, rnrPsn := none, rnrWait := none }) else e,
    recvs := s.trn.recvs.filter fun v => !mine v.qpn,
    matched := s.trn.matched.filter fun v => !mine v.qpn,
    trigs := s.trn.trigs.filter fun e => !mine e.1,
    msgs := s.trn.msgs.filter fun m => m.tenant != t,
    regions := s.trn.regions.map fun e => if e.2.tenant = t ∧ e.2.state = 1 then (e.1, { e.2 with state := 2 }) else e } }
  match s.tenantRec t with
  | some r => { s1 with trn := { s1.trn with cnt := s1.trn.cnt.filter fun e => !(r.cntBase ≤ e.1 && e.1 < r.cntBase + r.cntCount) } }
  | none => s1

end Sys2Proof.Machine
end

