-- ==== Sys2Proof/Machine/Done.lean ====
section
/-! DEFINITION. What happens at the end of every command: statuses that have come home, triggered work, the close of an epoch, the
replies to deploy messages (14_boot_and_configuration.md R448), and the mirror messages. -/
namespace Sys2Proof.Machine

/-- Table 14.10: the reply to a deploy message. -/
def DMsg.reply (m : DMsg) : Bytes :=
  let res := if m.mstatus = 0 then m.results.map fun r => r.getD {} else []
  let one (e : DResult × Nat) : Bytes := toBytes 2 e.2 ++ toBytes 1 e.1.dom ++ toBytes 1 e.1.code ++ toBytes 4 e.1.value
  toBytes 4 0x5DE90A03 ++ [3] ++ toBytes 1 m.mstatus ++ toBytes 2 res.length ++ toBytes 8 m.dseq ++ List.replicate 16 0 ++ res.zipIdx.flatMap one
/-- Every request of the message has been answered. -/
def DMsg.answered (m : DMsg) : Bool := m.reqs.isEmpty && m.results.all fun r => r.isSome
/-- Sends the reply of the head message and frees its internal receive; a RESTART then waits for the reply's PSN (R454). -/
def State.sendReply (s : State) (m : DMsg) : State :=
  let id := s.trn.nextId % 65536
  let s1 := { s with boot := { s.boot with work := s.boot.work.tail, bufs := s.boot.bufs &&& ~~~(BitVec.twoPow 2 m.buf),
                                           restart := if m.restart then some id else s.boot.restart } }
  if m.lost then s1 else s1.sendOn0 m.dseq m.reply
/-- Replies leave in the order of their messages' DSEQ (R448). -/
def State.sendReplies (s : State) : Nat → State
  | 0 => s
  | n + 1 =>
    match s.boot.work with
    | m :: _ => if m.answered then State.sendReplies (s.sendReply m) n else s
    | [] => s
/-- The request to be judged next: its message, RTYPE and body. A LOAD is answered before the request behind it is judged (R447). -/
def State.nextReq (s : State) : Option (DMsg × Nat × Bytes) :=
  if s.boot.waits.any fun w => w.1 == 0 then none
  else match s.boot.work.find? fun m => !m.reqs.isEmpty with
    | some m => m.reqs.head?.map fun r => (m, r.1, r.2)
    | none => none
/-- The request at the front of message `d` has been judged: its result, or none for one that is answered later. -/
def State.judged (s : State) (d : Nat) (r : Option DResult) : State :=
  { s with boot := { s.boot with work := s.boot.work.map fun m => if m.dseq = d then { m with reqs := m.reqs.tail, results := m.results ++ [r] } else m } }
/-- RTYPEs of Table 14.9. -/
def knownReq (t : Nat) : Bool :=
  (1 ≤ t && t ≤ 5) || (0x10 ≤ t && t ≤ 0x14) || (0x20 ≤ t && t ≤ 0x23) || (0x30 ≤ t && t ≤ 0x34) || (0x40 ≤ t && t ≤ 0x42) || t == 0x50 || t == 0x51 || t == 0x60 || t == 0x70
/-- Requests of a reserved RTYPE are answered UNKNOWN, those behind a RESTART with STATE (R454, Table 14.11). -/
def State.answerUnknown (s : State) : Nat → State
  | 0 => s
  | n + 1 =>
    match s.nextReq with
    | some (m, t, _) =>
      if m.restart then State.answerUnknown (s.judged m.dseq (some { code := 3 })) n
      else if knownReq t then s
      else State.answerUnknown (s.judged m.dseq (some { code := 1 })) n
    | none => s
/-- The end of a command. -/
def State.done (s : State) : State :=
  let s0 := s.transHome.triggers.closeEpoch
  let s1 := s0.answerUnknown (s0.boot.work.map fun m => m.reqs.length).sum
  (s1.sendReplies s1.boot.work.length).triggers.flush

end Sys2Proof.Machine
end

