-- ==== Sys2Proof/Machine/Bundle.lean ====
section
/-! DEFINITION. Judging a hob portion at its issue (02_the_hob.md R41, R49, R50, R63, R64, R66; 04_bundles.md R108,
R109, R115, R116, R119, R120; 05_sequencing_and_faults.md, Table 5.1, R150), and issuing its slots. -/
namespace Sys2Proof.Machine

/-- The banks of an access (R39). -/
def banksOf : Access → List Nat
  | .lines l => l.map fun x => x % 48
  | _ => []
def hasDup : List Nat → Bool
  | [] => false
  | a :: r => r.contains a || hasDup r
/-- The own fault reasons of one access: 0x03, 0x04, or 0x02 for one bank touched twice. -/
def accFaults (a : Access) : List Nat :=
  match a with
  | .fault r => [r]
  | .pad => []
  | .lines l => if hasDup (l.map fun x => x % 48) then [2] else []

/-- Inserts into a rising list without repeats. -/
def insertNat (n : Nat) : List Nat → List Nat
  | [] => [n]
  | a :: r => if n < a then n :: a :: r else if n = a then a :: r else a :: insertNat n r

/-- Format tags of the (active, shadow) planes as they will stand when a step issued in cycle `t` reaches the array:
the swaps and plane-word writes of earlier bundles in the order of issue, a swap first (R49, R117). -/
def Hob.tagsAt (x : Hob) (t : Nat) : Nat × Nat :=
  let evs := x.pend.filter fun e => e.issue < t
  let step (p : Nat × Nat) (e : HPend) : Nat × Nat :=
    match e.fx with
    | .swap => (p.2, p.1)
    | .sread _ (.plane _ f) => (p.1, f)
    | .tapP _ _ f => (p.1, f)
    | .planePut _ f _ _ => (p.1, f)
    | _ => p
  let ord := (evs.map fun e => e.issue).foldl (fun l i => insertNat i l) []
  ord.foldl (fun p i =>
    let es := evs.filter fun e => e.issue == i
    ((es.filter fun e => e.fx == .swap) ++ (es.filter fun e => e.fx != .swap)).foldl step p) (x.active.tag, x.shadow.tag)

/-- Accesses of the slots of a hob portion, by generator registers before the bundle (R113). -/
def accW (x : Hob) (b : Nat) : Option Access :=
  if mPl (slotM b) then some ((x.gen 3).access x.hrel 4) else none
def accL (x : Hob) (g sl : Nat) : Option Access :=
  if lsOp sl = 0 then none else some ((x.gen g).access x.hrel (lsLines sl))
def accTap (x : Hob) (sl tap : Nat) : Option Access :=
  match tTop sl tap with
  | 1 => some ((x.gen 2).access x.hrel 4)
  | 4 => some ((x.gen 1).access x.hrel 4)
  | _ => none
/-- The L0 or L1 slot holds a legal LOAD or PEEK of `w` width code (R115). -/
def feeds (sl w : Nat) : Bool := loadLegal sl && lsOp sl != 0 && lsWidth sl == w

/-- Own fault reasons of slot `i` (0 to 6 for M, V, L0, L1, S, T, C) of hob index `hi` in range `r` at issue cycle `t`. -/
def ownFaults (r : Range) (x : Hob) (hi t b i : Nat) : List Nat :=
  match i with
  | 0 =>
    let m := slotM b
    if !mLegal m then [1] else
      (match accW x b with | some a => accFaults a | none => [])
      ++ (if mAop m = 1 ∧ mSfmt m ≠ fmtClass (x.tagsAt t).1 then [5] else [])
      ++ (if mAop m != 0 && x.busyBf && (match x.busyTo with | some e => decide (t ≤ e) | none => false) then [6] else [])
      ++ (if mAop m = 1 ∧ !mAsrc m ∧ !feeds (slotL0 b) (if mSfmt m = 3 then 1 else 0) then [7] else [])
      ++ (if mAsld m && !feeds (slotL1 b) 0 then [7] else [])
  | 1 => if vLegal (slotV b) then [] else [1]
  | 2 => if !loadLegal (slotL0 b) then [1] else (match accL x 0 (slotL0 b) with | some a => accFaults a | none => [])
  | 3 => if !loadLegal (slotL1 b) then [1] else (match accL x 1 (slotL1 b) with | some a => accFaults a | none => [])
  | 4 => if !storeLegal (slotS b) then [1] else (match accL x 2 (slotS b) with | some a => accFaults a | none => [])
  | 5 =>
    let w := slotT b
    if !tLegal w then [1] else
      let a0 := accTap x w 0
      let a1 := accTap x w 1
      let bk := (match a0 with | some a => banksOf a | none => []) ++ (match a1 with | some a => banksOf a | none => [])
      let fs := (match a0 with | some (.fault c) => [c] | _ => []) ++ (match a1 with | some (.fault c) => [c] | _ => [])
      let usesS := tTop w 0 == 1 || tTop w 1 == 1
      let usesL := tTop w 0 == 4 || tTop w 1 == 4
      let conflict :=
        (usesS && storeLegal (slotS b) && lsOp (slotS b) != 0) || (usesL && loadLegal (slotL1 b) && lsOp (slotL1 b) != 0)
        || (tTop w 0 == 1 && tTop w 1 == 1) || (tTop w 0 == 4 && tTop w 1 == 4)
        || (mLegal (slotM b) && mPl (slotM b) &&
             ((tTop w 0 == 2 && tIdx w 0 == mWord (slotM b)) || (tTop w 1 == 2 && tIdx w 1 == mWord (slotM b))))
      let dup := tLoop w 0 == tLoop w 1 && ((tapIn (tTop w 0) && tapIn (tTop w 1)) || (tapOut (tTop w 0) && tapOut (tTop w 1)))
      let at_ (tap : Nat) : Nat := slotAt (tLoop w tap) (hobStation hi) (t + 3)
      let live (tap : Nat) : Bool := tapOut (tTop w tap) && (r.slot (tLoop w tap) (at_ tap)).willLive (t + 3)
      let mov (tap : Nat) : Bool := tTop w tap != 0 && r.moverSlot (tLoop w tap) (at_ tap)
      (if hasDup bk then [2] else []) ++ fs ++ (if conflict then [8] else []) ++ (if dup then [9] else [])
      ++ (if live 0 || live 1 then [0xA] else []) ++ (if mov 0 || mov 1 then [0xB] else [])
  | _ =>
    let c := slotC b
    if !cLegal c x.cx then [1]
    else if cOp c = 2 ∧ sramLines ≤ cA c + hi * (x.cx % 2 ^ 17) then [0xC] else []

/-- The banks a slot would access. -/
def slotBanks (x : Hob) (b i : Nat) : List Nat :=
  let f (a : Option Access) : List Nat := match a with | some a => banksOf a | none => []
  match i with
  | 0 => f (accW x b)
  | 2 => f (accL x 0 (slotL0 b))
  | 3 => f (accL x 1 (slotL1 b))
  | 4 => f (accL x 2 (slotS b))
  | 5 => f (accTap x (slotT b) 0) ++ f (accTap x (slotT b) 1)
  | _ => []
/-- The lowest of the reasons (R150). -/
def minReason : List Nat → Option Nat
  | [] => none
  | a :: r => some (r.foldl min a)
/-- Judges the slots in order (R41): each for its own faults, then against the banks of earlier performed slots. -/
def judgeFrom (r : Range) (x : Hob) (hi t b : Nat) : List Nat → List Nat → SMap Nat → SMap Nat
  | [], _, acc => acc
  | i :: is, taken, acc =>
    match minReason (ownFaults r x hi t b i) with
    | some f => judgeFrom r x hi t b is taken (put 0 i f acc)
    | none =>
      let bk := slotBanks x b i
      if bk.any fun k => taken.contains k then judgeFrom r x hi t b is taken (put 0 i 2 acc)
      else judgeFrom r x hi t b is (taken ++ bk) acc
/-- Slots of a sequencer bundle that are not no-operations during a local window: each skips with the lowest of its own reasons and
LOCAL_OVERLAP (R87, R141, R150). -/
def overlapFaults (r : Range) (x : Hob) (hi t b : Nat) : SMap Nat :=
  ((List.range 7).filter fun i => hobSlot b i != 0).map fun i => (i, ((minReason (ownFaults r x hi t b i)).getD 0x0D).min 0x0D)
/-- Fault reasons of the slots of a hob portion; a slot not listed is performed. Log 17, DEDUCED; log 81, DEDUCED. -/
def judge (r : Range) (x : Hob) (hi t b : Nat) : SMap Nat := judgeFrom r x hi t b [0, 1, 2, 3, 4, 5, 6] [] []

/-! ### Fault-log entries (R151 to R155) -/

/-- The reason of the first entry of a cycle in which the nine logs gained their first entries of the beat: the spec orders the entries of
one log only (R153); the model takes the sequencer's log, then those of hobs 0 to 7. Log 143, DESIGN CHOICE. -/
def firstReason (now : SMap (List FaultEntry)) : Nat :=
  match (get [] 8 now).head? with
  | some e => e.reason
  | none => match now with | (_, e :: _) :: _ => e.reason | _ => 0
/-- Logs a fault in log `u` of quarter `q`: 0 to 7 for its hobs, 8 for the sequencer. -/
def State.fault (s : State) (q u slot reason addr cyc : Nat) (loc : Bool) : State :=
  let r := s.range q
  let hb := if u = 8 then 0 else 8 * q + u
  let e : FaultEntry :=
    { beat := r.beatNo, addr := addr, isLocal := loc, slot := slot, reason := reason, cyc := cyc,
      hob := hb, seq := u == 8, tenant := r.tenant, entry := r.entry }
  let now := put [] u (insertFault e (get [] u r.fltNow)) r.fltNow
  s.setRange q { r with flt := put {} u ((get {} u r.flt).add (get [] u r.fltNow) e) r.flt, fltGain := r.fltGain + 1, fltNow := now,
                        fltFirst := if r.fltGain = (r.fltNow.map fun x => x.2.length).sum then firstReason now else r.fltFirst }
def State.seqFault (s : State) (q slot reason addr cyc : Nat) : State := s.fault q 8 slot reason addr cyc false
/-- Logs each faulty slot of a judged portion in slot order. -/
def State.logFaults (s : State) (q u addr cyc : Nat) (loc : Bool) : SMap Nat → State
  | [] => s
  | (sl, reason) :: rest => State.logFaults (s.fault q u sl reason addr cyc loc) q u addr cyc loc rest

/-! ### Issuing a slot: its effects go to their offsets (Table 4.2) -/

/-- Lines of a performed access, `none` for each line of a padding access. -/
def accLines (a : Option Access) (n : Nat) : List (Option Nat) :=
  match a with
  | some (.lines l) => l.map some
  | _ => List.replicate n none
/-- Lines to write: none for a padding access. -/
def accWrites (a : Option Access) : List Nat := match a with | some (.lines l) => l | _ => []
/-- Data path of a load slot as a step or the ASL receives it: zero bytes when the slot is skipped (R116). -/
def feedLines (iss : HIssue) (x : Hob) (g i sl : Nat) : List (Option Nat) :=
  if (get 0 i iss.flt) ≠ 0 then List.replicate (lsLines sl) none else accLines (accL x g sl) (lsLines sl)

/-- Generators that advance with a bundle: those of its performed accesses whose ADV bit is set (R61, R109, R113). -/
def advList (b : Nat) (flt : SMap Nat) : List Nat :=
  let ok (i : Nat) : Bool := get 0 i flt == 0
  let w := slotT b
  let tap (k : Nat) : List Nat := if tAdv w k then (if tTop w k = 1 then [2] else if tTop w k = 4 then [1] else []) else []
  (if ok 0 && mPl (slotM b) && mWadv (slotM b) then [3] else [])
  ++ (if ok 2 && lsOp (slotL0 b) != 0 && lsAdv (slotL0 b) then [0] else [])
  ++ (if ok 3 && lsOp (slotL1 b) != 0 && lsAdv (slotL1 b) then [1] else [])
  ++ (if ok 4 && lsOp (slotS b) != 0 && lsAdv (slotS b) then [2] else [])
  ++ (if ok 5 then tap 0 ++ tap 1 else [])

/-- The accumulator entry an operation names, and the pointer after it (Table 4.5). -/
def Hob.entryOf (x : Hob) (m : Nat) : Nat × Nat :=
  if mEmode m then (x.aep, (x.aep + 1) % x.aepWrap) else (mEntry m, x.aep)

def mStepOp (x : Hob) (m : Nat) : StepOp :=
  { sfmt := mSfmt m, afp8 := mAfp8 m, ovw := mOver m, entry := (x.entryOf m).1, sset := mSset m }
/-- STEP (R49 to R53). -/
def Hob.issueStep (x : Hob) (iss : HIssue) (t : Nat) : Hob :=
  let m := slotM iss.bits
  let op := mStepOp x m
  let len := if mSfmt m = 3 then 128 else 64
  let fx : Nat × HFx :=
    if mAsrc m then (t + 2, .vread (mAvreg m) (len * mApos m) len (.act op))
    else (t + 3, .sread (feedLines iss x 0 2 (slotL0 iss.bits)) (.act op))
  { (x.enq fx.1 t 0 fx.2) with aep := (x.entryOf m).2, busyTo := some (if mSfmt m = 3 then t + 3 else t), busyBf := mSfmt m == 3, gap := .none }
/-- SWAP (R48). -/
def Hob.issueSwap (x : Hob) (t : Nat) : Hob := x.enq (t + 4) t 0 .swap
/-- ASLV. -/
def Hob.issueAslv (x : Hob) (iss : HIssue) (t : Nat) : Hob :=
  let m := slotM iss.bits
  x.enq (t + 2) t 0 (.vread (mAvreg m) (64 * mApos m) 64 .asl)
/-- READOUT (R53). -/
def Hob.issueReadout (x : Hob) (iss : HIssue) (t : Nat) : Hob :=
  let m := slotM iss.bits
  { (x.enq (t + 12) t 0 (.accRead (x.entryOf m).1 (mAvreg m))) with aep := (x.entryOf m).2 }
/-- ZERO (R53). -/
def Hob.issueZero (x : Hob) (iss : HIssue) (t : Nat) : Hob :=
  let m := slotM iss.bits
  { (x.enq (t + 12) t 0 (.accZero (x.entryOf m).1)) with aep := (x.entryOf m).2 }
/-- APSET (Table 4.4), at the issue of its bundle. Log 169, DEDUCED. -/
def Hob.issueApset (x : Hob) (iss : HIssue) : Hob :=
  let m := slotM iss.bits
  { x with aep := mStart m, aepWrap := mWrap m }
/-- The plane-load subfield (R47). -/
def Hob.issuePlane (x : Hob) (iss : HIssue) (t : Nat) : Hob :=
  let m := slotM iss.bits
  x.enq (t + 3) t 0 (.sread (accLines (accW x iss.bits) 4) (.plane (mWord m) (mPfmt m)))
/-- ASLD. -/
def Hob.issueAsld (x : Hob) (iss : HIssue) (t : Nat) : Hob :=
  x.enq (t + 3) t 0 (.sread (feedLines iss x 1 3 (slotL1 iss.bits)) .asl)
/-- The array operation of slot M. -/
def Hob.issueArray (x : Hob) (iss : HIssue) (t : Nat) : Hob :=
  match mAop (slotM iss.bits) with
  | 1 => x.issueStep iss t
  | 2 => x.issueSwap t
  | 3 => x.issueAslv iss t
  | 4 => x.issueReadout iss t
  | 5 => x.issueZero iss t
  | 6 => x.issueApset iss
  | _ => x
/-- Slot V. -/
def Hob.issueV (x : Hob) (iss : HIssue) (t : Nat) : Hob :=
  if vOp (slotV iss.bits) = 0 then x else x.enq (t + 2) t 1 (.vop (slotV iss.bits))
/-- Slot L0 (g = 0) or L1 (g = 1): a LOAD writes its register; a PEEK only feeds the data path. -/
def Hob.issueLoad (x : Hob) (iss : HIssue) (g t : Nat) : Hob :=
  let sl := if g = 0 then slotL0 iss.bits else slotL1 iss.bits
  if lsOp sl = 1 then x.enq (t + 3) t (2 + g) (.sread (accLines (accL x g sl) (lsLines sl)) (.vreg (lsVreg sl) (lsPos sl))) else x
/-- Slot S. -/
def Hob.issueStore (x : Hob) (iss : HIssue) (t : Nat) : Hob :=
  let sl := slotS iss.bits
  if lsOp sl = 0 then x
  else x.enq (t + 2) t 4 (.vstore (lsVreg sl) (lsPos sl) (accWrites (accL x 2 sl)))
/-- One tap of slot T (R65). -/
def Hob.issueTap (x : Hob) (iss : HIssue) (t tap : Nat) : Hob :=
  let w := slotT iss.bits
  let lp := tLoop w tap
  let a := accTap x w tap
  match tTop w tap with
  | 1 => x.enq (t + 3) t 5 (.tapS lp ((accWrites a).map some))
  | 2 => x.enq (t + 3) t 5 (.tapP lp (tIdx w tap) (tFmt w))
  | 3 => x.enq (t + 3) t 5 (.tapV lp (tIdx w tap))
  | 4 => x.enq (t + 3) t 5 (.stap lp (accLines a 4))
  | 5 => x.enq (t + 2) t 5 (.vtap lp (tIdx w tap))
  | _ => x
/-- Reserves the loop slot that an out-tap of hob index `hi` will write in cycle t + 3 (R75). -/
def Range.reserveTap (r : Range) (hi w t tap : Nat) : Range :=
  if tapOut (tTop w tap) then
    let n := slotAt (tLoop w tap) (hobStation hi) (t + 3)
    r.setSlot (tLoop w tap) n { r.slot (tLoop w tap) n with resv := some (t + 3) }
  else r

/-- Operation `i` of the portion is still to execute. -/
def HIssue.has (iss : HIssue) (i : Nat) : Bool := iss.todo.contains i
/-- Operations of a judged portion: those whose slot is performed and holds one. -/
def portionOps (b : Nat) (flt : SMap Nat) (isLocal : Bool) : List Nat :=
  let ok (i : Nat) : Bool := get 0 i flt == 0
  let m := slotM b
  (if ok 0 && mAop m != 0 then [0] else []) ++ (if ok 1 && vOp (slotV b) != 0 then [1] else [])
  ++ (if ok 2 && lsOp (slotL0 b) != 0 then [2] else []) ++ (if ok 3 && lsOp (slotL1 b) != 0 then [3] else [])
  ++ (if ok 4 && lsOp (slotS b) != 0 then [4] else []) ++ (if ok 5 && tTop (slotT b) 0 != 0 then [5] else [])
  ++ (if ok 6 && cOp (slotC b) != 0 then [6] else []) ++ (if isLocal then [7] else [])
  ++ (if ok 0 && mPl m then [8] else []) ++ (if ok 0 && mAsld m then [9] else [])
  ++ (if ok 5 && tTop (slotT b) 1 != 0 then [10] else [])
/-- Marks operation `i` executed. -/
def Hob.tick (x : Hob) (i : Nat) : Hob :=
  match x.cur with
  | some iss => { x with cur := some { iss with todo := iss.todo.erase i } }
  | none => x

end Sys2Proof.Machine
end

