-- ==== Sys2Proof/Machine/Seq.lean ====
section
/-! DEFINITION. The sequencer and the passing of a range's cycles (03_ranges_and_loops.md R72 to R76, R84 to R87, R104;
04_bundles.md R109 to R113, R124 to R132; 05_sequencing_and_faults.md R134 to R146).

A command of a range names the cycle in which it happens; `State.advance` lets the cycles before it pass, each with every
slot its bundle issues and every effect that falls due. -/
namespace Sys2Proof.Machine

/-! ### The next-bundle decision (R135, R136, R144) -/

/-- A control operation of a sequencer or of a local sequencing field. -/
inductive CtlOp
  | none
  | loop (c len : Nat)
  | djnz (c : Nat) (off : Int)
  | jmp (off : Int)
  deriving DecidableEq, Repr

/-- What the decision yields: counters, stack, a fault reason, and the next address. -/
structure CtlRes where
  ctr : SMap Nat
  stack : List Frame
  flt : Option Nat
  next : Int
  deriving DecidableEq, Repr

/-- The end tests at address `e`, innermost frame first. -/
def endTests (e : Nat) : List Frame → Nat × List Frame
  | [] => (e + 1, [])
  | f :: r =>
    if f.fin = e then (if 1 < f.left then (f.start, { f with left := f.left - 1 } :: r) else endTests e r)
    else (e + 1, f :: r)
/-- Straight on from address `e`. -/
def ctlOn (ctr : SMap Nat) (stack : List Frame) (flt : Option Nat) (e : Nat) : CtlRes :=
  let (n, st) := endTests e stack
  { ctr := ctr, stack := st, flt := flt, next := n }
/-- Does an address lie in the extent `lo` to `lo + n - 1`? -/
def inExtent (lo n : Nat) (a : Int) : Bool := decide ((lo : Int) ≤ a) && decide (a < (lo : Int) + n)
/-- A branch from address `a`; `ctr` already holds the decrement (R136). -/
def ctlJump (lo n a : Nat) (old ctr : SMap Nat) (stack : List Frame) (off : Int) : CtlRes :=
  let t : Int := a + off
  if inExtent lo n t then
    let keep (f : Frame) : Bool := !(decide (t < f.start) || decide ((f.fin : Int) < t))
    { ctr := ctr, stack := stack.filter keep, flt := none, next := t }
  else ctlOn old stack (some 0x13) a
/-- R136 for the operation of the bundle at address `a`, in an extent of `n` bundles from `lo`, with `depth` frames. -/
def ctlDecide (lo n depth a : Nat) (op : CtlOp) (ctr : SMap Nat) (stack : List Frame) : CtlRes :=
  match op with
  | .none => ctlOn ctr stack none a
  | .loop c len =>
    if depth ≤ stack.length then ctlOn ctr stack (some 0x14) a
    else if !inExtent lo n (a + len) then ctlOn ctr stack (some 0x13) a
    else if (match stack with | f :: _ => decide (f.fin < a + len) | [] => false) then ctlOn ctr stack (some 0x15) a
    else if get 0 c ctr = 0 then ctlOn ctr stack none (a + len)
    else ctlOn ctr ({ start := a + 1, fin := a + len, ctr := c, left := get 0 c ctr } :: stack) none a
  | .djnz c off =>
    let v := get 0 c ctr
    if v = 0 then ctlOn ctr stack none a
    else if v = 1 then ctlOn (put 0 c 0 ctr) stack none a
    else ctlJump lo n a ctr (put 0 c (v - 1) ctr) stack off
  | .jmp off => ctlJump lo n a ctr ctr stack off

/-! ### Send templates and scheduled sends (R104, R126 to R128) -/

def stKind (w : Nat) : Nat := field w 0 8
def stVc (w : Nat) : Nat := field w 8 8
def stDest (w : Nat) : Nat := field w 16 8
def stTarget (w : Nat) : Nat := field w 32 32
def stStep (w : Nat) : Nat := field w 64 16
def stWrap (w : Nat) : Nat := field w 80 16
/-- R128. -/
def sendTplLegal (chip w : Nat) : Bool :=
  field w 24 8 == 0 && field w 96 32 == 0 && stDest w != chip &&
  match stKind w with
  | 0 => (stVc w == 0 || stVc w == 4) && 1 ≤ stWrap w
  | 1 => (stVc w == 0 || stVc w == 4) && stTarget w / 65536 == 0 && stStep w == 0 && stWrap w == 0
  | 2 => stVc w == 2 && stTarget w / 65536 == 0 && stStep w / 256 == 0 && 1 ≤ stWrap w && stWrap w ≤ 16
  | _ => false
/-- The packet of a send through a template whose counter stands at `n` (R127, Table 9.7). A local address has 40 bits (R491): the spec is silent
on a WRITE whose address runs beyond them, and the model takes it modulo 2^40. Log 147, DESIGN CHOICE. -/
def sendPacket (w n tenant : Nat) (b : Blk) : Packet :=
  let data := bytesOf b.d
  let fl := (List.range 4).map fun j => ((data.drop (64 * j)).take 64, b.poi.getLsbD j)
  let p : Packet := { vc := stVc w, dst := stDest w, tenant := tenant, flits := fl }
  match stKind w with
  | 0 => { p with op := opWrite, addr := (stTarget w * 256 + (n % stWrap w) * stStep w * 256) % 2 ^ 40 }
  | 1 => { p with op := opMsg, arg0 := stTarget w + 4 * 0x10000 }
  | _ => { p with op := opContrib, arg0 := stTarget w + (stStep w % 256) * 0x10000 + 4 * (n % stWrap w) * 0x1000000 }
/-- Scheduled sends waiting at a gate (R104). -/
def Gate.sendCount (g : Gate) : Nat := (g.waiting.flatMap fun e => e.2.filter fun w => w.src == .send).length

/-! ### Range effects at their cycles (Table 4.2) -/

def insertRPend (e : RPend) : List RPend → List RPend
  | [] => [e]
  | x :: r => if x.at_ ≤ e.at_ then x :: insertRPend e r else e :: x :: r
def Range.enq (r : Range) (at_ issue addr : Nat) (fx : RFx) : Range := { r with pend := insertRPend ⟨at_, issue, addr, fx⟩ r.pend }
/-- The tap of a scheduled send (R104): GATE_FULL, or the packet goes to its gate. Log 19, DEDUCED. -/
def State.sendTap (s : State) (q c : Nat) (e : RPend) (bits : Nat) : State :=
  let r := s.range q
  let l := 5 * q + gGate bits
  let g := s.gate l
  let b := (r.slot (gLoop bits) (slotAt (gLoop bits) (10 + gGate bits) c)).read c
  if 32 ≤ g.sendCount then s.seqFault q 9 0x10 e.addr e.issue
  else
    let n := get 0 (gTpl bits) g.sent
    let w := (get (0 : BitVec 128) (gTpl bits) g.tpl).toNat
    (s.setGate l { g with sent := put 0 (gTpl bits) (n + 1) g.sent }).sendGate l (sendPacket w n r.tenant b)
/-- Bytes of a bundle of program memory. -/
def Range.bundleBytes (r : Range) (w : Nat) : Bytes := toBytes 32 (get (0 : BitVec 256) w r.pmem).toNat
/-- A MOVE at its offset 1 (R99, R125): MOVE_RANGE, else MOVER_FULL, else its descriptor takes a place of the queue. -/
def State.moveAt (s : State) (q : Nat) (e : RPend) (g : Nat) : State :=
  let r := s.range q
  let m := r.mover (gMover g)
  if !(inExtent r.base r.len (gW g) && inExtent r.base r.len (gW g + 1)) then s.seqFault q 9 0x1A e.addr e.issue
  else if 16 ≤ m.q.length + (if m.fetching.isSome then 1 else 0) then s.seqFault q 9 0x0F e.addr e.issue
  else
    let d : Desc := { raw := r.bundleBytes (gW g) ++ r.bundleBytes (gW g + 1), tenant := r.tenant, entry := r.entry }
    s.setRange q (r.setMover (gMover g) { m with q := m.q ++ [d] })
/-- A command group at its offset 1 (R244): committed, or skipped with HBM_TIMING. -/
def State.groupAt (s : State) (q : Nat) (e : RPend) (w : Nat) (ecc : List Nat) : State :=
  match s.group q e.issue w ecc with
  | some s2 => s2
  | none => s.seqFault q 7 0x11 e.addr e.issue
/-- A LOUT in its tap cycle `c`: LAND_EARLY before its slot's bound, else the landing slot goes to the loop slot at station 5 (R124, R246). -/
def State.loutTap (s : State) (q c : Nat) (e : RPend) (loop slot : Nat) : State :=
  let r := s.range q
  let n := slotAt loop 5 c
  if c < get 0 slot r.stn.bound then
    (s.setRange q (r.setSlot loop n { r.slot loop n with resv := none })).seqFault q 8 0x12 e.addr e.issue
  else s.setRange q (r.setSlot loop n ((r.slot loop n).write c (get {} slot r.stn.land)))
/-- A WIN in its tap cycle `c` (R124). -/
def State.winTap (s : State) (q c loop slot : Nat) : State :=
  let r := s.range q
  let b := (r.slot loop (slotAt loop 5 c)).read c
  s.setRange q { r with stn := { r.stn with wbuf := put {} slot b r.stn.wbuf } }
/-- One effect of the range in its cycle `c`. -/
def State.rangeFx (s : State) (q c : Nat) (e : RPend) : State :=
  match e.fx with
  | .lout loop slot => s.loutTap q c e loop slot
  | .flag idx delta => s.flagAdd (s.range q).tenant idx (BitVec.ofNat 32 delta)
  | .group bits ecc => s.groupAt q e bits ecc
  | .win loop slot => s.winTap q c loop slot
  | .send bits => s.sendTap q c e bits
  | .move bits => s.moveAt q e bits
/-- The place of a range effect in its cycle: a LOUT is judged against the bounds before the cycle's commits (R246), and a group copies the
write buffer before the WINs of the cycle (R247). -/
def RFx.place : RFx → Nat
  | .lout _ _ => 0 | .flag _ _ => 0 | .group _ _ => 1 | .win _ _ => 2 | .send _ => 2 | .move _ => 2
/-- The range effects of cycle `c`, in the order of their places. -/
def State.rangeEffects (s : State) (q c : Nat) : State :=
  let es := (s.range q).pend.filter fun e => e.at_ == c
  let s1 := s.setRange q { s.range q with pend := (s.range q).pend.filter fun e => e.at_ != c }
  ([0, 1, 2].flatMap fun k => es.filter fun e => e.fx.place == k).foldl (fun s e => s.rangeFx q c e) s1
/-- Everything that falls due in cycle `c` before its bundle: returns of loop slots, reads, then writes (R73, R112). -/
def State.drain (s : State) (q c : Nat) : State :=
  let r := s.range q
  let ex (m : SMap LoopSlot) : SMap LoopSlot := (List.range 16).foldl (fun m n => upd {} n (fun x => x.expire c) m) m
  let s0 := (s.setRange q { r with up := ex r.up, dn := ex r.dn, fltNow := [] }).playTo q c
  let s1 := (List.range 8).foldl (fun s i => drainReads s (8 * q + i) c) s0
  let s2 := s1.rangeEffects q c
  (List.range 8).foldl (fun s i => drainWrites s (8 * q + i) c) s2

/-! ### Issue -/

/-- Last cycle in which BEND may issue (R140). -/
def State.lastCyc (s : State) : Nat := s.beatLen - 1041
def Range.bits (r : Range) : Nat := match r.iss with | some a => (get (0 : BitVec 256) a r.pmem).toNat | none => 0
/-- The window covers cycle `c`. -/
def Range.inWindow (r : Range) (c : Nat) : Bool := match r.win with | some w => w.start ≤ c && c < w.start + w.count | none => false
/-- A LOCAL of the current bundle that will open a window (R86, R142). -/
def Range.opensLocal (r : Range) (c : Nat) : Bool :=
  let w := slotQ r.bits
  r.iss.isSome && qOp w == 7 && r.todo.contains 10 && !r.inWindow c && r.qx * 128 + field (qImm w) 9 7 != 0
/-- The banks that the executed slots of a portion use in cycle `c` + 3 (R40, R42). -/
def Hob.noteBanks (x : Hob) (b c : Nat) (flt : SMap Nat) : Hob :=
  let banks := ((List.range 7).filter fun i => !flt.any fun e => e.1 == i).flatMap fun i => slotBanks x b i
  { x with bankUse := put [] (c + 3) banks (x.bankUse.filter fun e => c ≤ e.1) }
/-- The advances of a bundle issued in cycle `c` fall at offset 1, before its C slot (R111, R113). -/
def Hob.enqAdv (x : Hob) (c : Nat) (l : List Nat) : Hob := if l.isEmpty then x else x.enq (c + 1) c 5 (.adv l)
/-- The bound of landing slot `b` in tap cycle `tau`, as it is known in cycle `c` of the range: the group of the bundle that issues in `c` is
committed in `c + 1`, every earlier one has been (R245, R246). -/
def State.boundIn (s : State) (q tau b : Nat) : Nat :=
  let r := s.range q
  let w := slotH r.bits
  if r.cyc + 1 < tau && r.iss.isSome && hLegal w && hGop w == 1 then
    match s.group q r.cyc w [] with
    | some s1 => get 0 b (s1.range q).stn.bound
    | none => get 0 b r.stn.bound
  else get 0 b r.stn.bound
/-- The range as an out-tap of the current cycle is judged against (R75): a LOUT still to come that will be skipped with LAND_EARLY acts on
no loop slot (R109). -/
def State.judgeView (s : State) (q : Nat) : Range :=
  let r := s.range q
  r.pend.foldl (fun x e =>
    match e.fx with
    | .lout loop slot =>
      let n := slotAt loop 5 e.at_
      if e.at_ < s.boundIn q e.at_ slot then x.setSlot loop n { x.slot loop n with resv := none } else x
    | _ => x) r
/-- A local bundle of hob index `i` in cycle `c` (R144, R145). -/
def State.startLocal (s : State) (q c i : Nat) : State :=
  let h := 8 * q + i
  let x := s.hob h
  if x.lidle then s.setHob h { x with cur := none }
  else if x.llen ≤ x.lpc then
    (s.setHob h { x with cur := none, lidle := true }).fault q i 11 0x16 x.lpc c true
  else
    let w := (get (0 : BitVec 256) x.lpc x.lstore).toNat
    let flt := judge (s.judgeView q) x i c (hobPortion w)
    let iss : HIssue := { bits := hobPortion w, lseq := localField w, addr := x.lpc, isLocal := true, todo := portionOps (hobPortion w) flt true,
                          flt := flt }
    (s.setHob h { ((x.noteBanks (hobPortion w) c flt).enqAdv c (advList (hobPortion w) flt)) with cur := some iss }).logFaults q i x.lpc c true flt
/-- A broadcast bundle reaches hob index `i`. -/
def State.startBroadcast (s : State) (q c i a bits : Nat) : State :=
  let h := 8 * q + i
  let x := s.hob h
  let flt := judge (s.judgeView q) x i c bits
  let iss : HIssue := { bits := bits, addr := a, todo := portionOps bits flt false, flt := flt }
  (s.setHob h { ((x.noteBanks bits c flt).enqAdv c (advList bits flt)) with cur := some iss }).logFaults q i a c false flt
/-- The taps of a hob's portion reserve their loop slots (R75). -/
def State.reserveTaps (s : State) (q c i : Nat) : State :=
  match (s.hob (8 * q + i)).cur with
  | some iss =>
    let w := slotT iss.bits
    let r := s.range q
    let r1 := if iss.has 5 then r.reserveTap i w c 0 else r
    s.setRange q (if iss.has 10 then r1.reserveTap i w c 1 else r1)
  | none => s
/-- The hobs take their portions of cycle `c`; each slot is judged before any tap of the cycle reserves its slot. -/
def State.startHobs (s : State) (q c : Nat) : State :=
  let r := s.range q
  let bits := hobPortion r.bits
  let a := r.iss.getD 0
  let s1 := (List.range 8).foldl (fun s i =>
    if r.inWindow c then
      (if r.iss.isSome then s.logFaults q i a c false (overlapFaults (s.judgeView q) (s.hob (8 * q + i)) i c bits) else s).startLocal q c i
    else if r.iss.isSome then s.startBroadcast q c i a bits
    else s.setHob (8 * q + i) { s.hob (8 * q + i) with cur := none }) s
  let s2 := (List.range 8).foldl (fun s i => s.reserveTaps q c i) s1
  s2.setRange q { s2.range q with hobsOn := true }
/-- The next issue that a decision yields: the next address at its cycle, or RUNOFF (R136, R139). R150 gives one entry to a slot that meets
several of its conditions, and R139 logs RUNOFF for the sequencer's next address: where the Q slot is skipped for a fault of its own and the
next address also leaves the extent, both are logged. Log 148, DESIGN CHOICE. -/
def State.setNext (s : State) (q : Nat) (res : CtlRes) (delay : Nat) : State :=
  let r := s.range q
  let a := r.iss.getD 0
  let r1 := { r with sc := res.ctr, stack := res.stack }
  let s1 := s.setRange q r1
  let s2 := match res.flt with | some f => s1.seqFault q 10 f a r.cyc | none => s1
  let r2 := s2.range q
  if inExtent r.base r.len res.next then
    s2.setRange q { r2 with nxt := some (r.cyc + delay, res.next.toNat), waiting := decide (1 < delay) }
  else (s2.setRange q { r2 with nxt := none, bendAt := some r.cyc }).seqFault q 10 0x19 a r.cyc
/-- The decision without a control operation. -/
def State.goOn (s : State) (q delay : Nat) : State :=
  let r := s.range q
  s.setNext q (ctlDecide r.base r.len 8 (r.iss.getD 0) .none r.sc r.stack) delay
/-- Faults of the HT part of slot H: SLOT_LIVE, SLOT_MOVER (R124). -/
def htFault (r : Range) (w c : Nat) : Option Nat :=
  if hBop w = 0 then none
  else
    let n := slotAt (hLoop w) 5 (c + 3)
    if hBop w = 1 ∧ (r.slot (hLoop w) n).willLive (c + 3) then some 0x0A
    else if r.moverSlot (hLoop w) n then some 0x0B
    else none
/-- Faults of a SEND: SLOT_MOVER, TPL_ILLEGAL (R76, R128). -/
def State.sendFault (s : State) (q w c : Nat) : Option Nat :=
  let r := s.range q
  let n := slotAt (gLoop w) (10 + gGate w) (c + 3)
  if r.moverSlot (gLoop w) n then some 0x0B
  else if !sendTplLegal s.rt.chip (get (0 : BitVec 128) (gTpl w) (s.gate (5 * q + gGate w)).tpl).toNat then some 0x0E
  else none
/-- The bundle at address `a` issues in the current cycle: its range slots are judged (R108, R149, R151). An illegal slot H is skipped as a
whole with one entry, and the spec does not say under which of its two slot codes: the model logs 7, that of the command group, whichever field
is illegal. Log 149, DESIGN CHOICE. -/
def State.issueBundle (s : State) (q a : Nat) : State :=
  let r := s.range q
  let c := r.cyc
  let b := (get (0 : BitVec 256) a r.pmem).toNat
  let forced := c = s.lastCyc
  let h := slotH b
  let g := slotG b
  let w := slotQ b
  let hOk := hLegal h
  let ht := if hOk then htFault ((s.setRange q { r with iss := some a }).judgeView q) h c else none
  let gf := if !gLegal g then some 1 else if gOp g = 1 then s.sendFault q g c else none
  let qOk := qLegal w r.qx
  let swap := forced ∧ ¬(qOk ∧ qOp w = 8)
  let todo := (if hOk && hGop h == 1 then [7] else []) ++ (if hOk && hBop h != 0 && ht.isNone then [8] else [])
    ++ (if gf.isNone && gOp g != 0 then [9] else []) ++ (if swap then [11] else if qOk && qOp w != 0 then [10] else [])
  let r1 := { r with iss := some a, issAt := c, pc := a, nxt := none, waiting := false, todo := todo, hobsOn := false }
  let r2 := if hOk && hBop h == 1 && ht.isNone then
      let n := slotAt (hLoop h) 5 (c + 3)
      r1.setSlot (hLoop h) n { r1.slot (hLoop h) n with resv := some (c + 3) }
    else r1
  let s1 := s.setRange q r2
  let s2 := if hOk then s1 else s1.seqFault q 7 1 a c
  let s3 := match ht with | some f => s2.seqFault q 8 f a c | none => s2
  let s4 := match gf with | some f => s3.seqFault q 9 f a c | none => s3
  let s5 := if qOk || swap then s4 else s4.seqFault q 10 1 a c
  if swap || (qOk && qOp w != 0) then s5 else s5.goOn q 1
/-- The cycle's bundle issues when one is due; the hobs take their portions unless a LOCAL of the bundle is still to open
its window. -/
def State.issueNow (s : State) (q : Nat) : State :=
  let r := s.range q
  let c := r.cyc
  let s1 :=
    match r.nxt with
    | some (t, a) => if t = c ∧ r.bendAt.isNone then s.issueBundle q a else s
    | none => s
  let s1 := if c = s.lastCyc ∧ (s1.range q).bendAt.isNone ∧ (s1.range q).iss.isNone ∧ r.phase = .run
    then s1.setRange q { s1.range q with todo := [11] } else s1
  if (s1.range q).opensLocal c then s1 else s1.startHobs q c
/-- Cycle `c` opens: what falls due, then the end of a window, the end of a WAIT, and the issue. -/
def State.openCycle (s : State) (q c : Nat) : State :=
  let s1 := s.drain q c
  let r := s1.range q
  let r1 := { r with cyc := c, iss := none, todo := [], hobsOn := false }
  match r.phase with
  | .run =>
    let ends := match r.win with | some w => w.start + w.count == c | none => false
    let wait := r.waiting && r.bendAt.isNone && (match r.nxt with | some (t, _) => t == c | none => false)
    let pre := (if ends then [12] else []) ++ (if wait then [13] else [])
    let s2 := s1.setRange q { r1 with pre := pre }
    if pre.isEmpty then s2.issueNow q else s2
  | _ => s1.setRange q { r1 with pre := [] }

/-! ### Operations of the range -/

def Range.tick (r : Range) (i : Nat) : Range := { r with todo := r.todo.erase i, pre := r.pre.erase i }
def State.tickR (s : State) (q i : Nat) : State := s.setRange q ((s.range q).tick i)
/-- A local window has ended (R146). -/
def State.windowEnd (s : State) (q : Nat) : State :=
  let s1 := s.setRange q { (s.range q).tick 12 with win := none }
  (List.range 8).foldl (fun s i => s.setHob (8 * q + i) { s.hob (8 * q + i) with lstack := [], lidle := false }) s1
/-- Opens the cycle's issue once nothing stands before it. -/
def State.afterPre (s : State) (q : Nat) : State := if (s.range q).pre.isEmpty then s.issueNow q else s
def State.doWindowEnd (s : State) (q : Nat) : State := if (s.range q).pre.contains 12 then (s.windowEnd q).afterPre q else s
def State.doWaitEnd (s : State) (q : Nat) : State := if (s.range q).pre.contains 13 then (s.tickR q 13).afterPre q else s
/-- What stands before the cycle's issue happens. -/
def State.settle (s : State) (q : Nat) : State := (s.doWindowEnd q).doWaitEnd q

/-- GROUP: the group passes to the station at offset 1 (R244). -/
def State.doGroup (s : State) (q : Nat) (ecc : List Nat) : State :=
  let r := s.range q
  s.setRange q ((r.tick 7).enq (r.cyc + 1) r.cyc (r.iss.getD 0) (.group (slotH r.bits) ecc))
/-- LOUT or WIN: the tap falls at offset 3 (R124). -/
def State.doTap (s : State) (q : Nat) : State :=
  let r := s.range q
  let w := slotH r.bits
  let fx := if hBop w = 1 then RFx.lout (hLoop w) (hSlot w) else RFx.win (hLoop w) (hSlot w)
  s.setRange q ((r.tick 8).enq (r.cyc + 3) r.cyc (r.iss.getD 0) fx)
/-- SEND: the tap falls at offset 3 (R104). -/
def State.doSend (s : State) (q : Nat) : State :=
  let r := s.range q
  s.setRange q ((r.tick 9).enq (r.cyc + 3) r.cyc (r.iss.getD 0) (.send (slotG r.bits)))
/-- MOVE: its checks and its enqueue fall at offset 1 (R111, R125). -/
def State.doMove (s : State) (q : Nat) : State :=
  let r := s.range q
  s.setRange q ((r.tick 9).enq (r.cyc + 1) r.cyc (r.iss.getD 0) (.move (slotG r.bits)))

/-! ### Operations of slot Q (Table 4.17, R129 to R132, R136 to R142) -/

def State.setQx (s : State) (q v : Nat) : State := s.setRange q { s.range q with qx := v }
/-- Signed branch offsets. -/
def qOff13 (w : Nat) : Int := signed 13 (qImm w)
def qOff16 (w : Nat) : Int := signed 16 (qImm w)
def State.doQx (s : State) (q : Nat) : State :=
  let w := slotQ (s.range q).bits
  ((s.tickR q 10).setQx q (qImm w)).goOn q 1
def State.doCset (s : State) (q : Nat) : State :=
  let r := s.range q
  let w := slotQ r.bits
  let s1 := s.setRange q { r.tick 10 with sc := put 0 (qCtr w) (r.qx % 2 ^ 11 * 2 ^ 13 + field (qImm w) 0 13) r.sc, qx := 0 }
  s1.goOn q 1
/-- LOOP, DJNZ and JMP: the decision of R136. -/
def State.doCtl (s : State) (q : Nat) (op : CtlOp) : State :=
  let r := s.range q
  (s.tickR q 10).setNext q (ctlDecide r.base r.len 8 (r.iss.getD 0) op r.sc r.stack) 1
def State.doFlag (s : State) (q : Nat) : State :=
  let r := s.range q
  let w := slotQ r.bits
  let useQx := field (qImm w) 14 2 = 1
  let d := if useQx then r.qx else 1
  let r1 := (r.tick 10).enq (r.cyc + 16) r.cyc (r.iss.getD 0) (.flag (field (qImm w) 0 14) d)
  (s.setRange q { r1 with qx := if useQx then 0 else r.qx }).goOn q 1
/-- LOCAL: LOCAL_BUSY, nothing for a zero count, or the window opens and every hob enters it (R86, R142, R143). -/
def State.doLocal (s : State) (q : Nat) : State :=
  let r := s.range q
  let w := slotQ r.bits
  let n := r.qx * 128 + field (qImm w) 9 7
  let s1 := s.tickR q 10
  if r.inWindow r.cyc then (s1.seqFault q 10 0x17 (r.iss.getD 0) r.cyc).goOn q 1
  else if n = 0 then (s1.setQx q 0).goOn q 1
  else
    let r1 := s1.range q
    let s2 := s1.setRange q { r1 with qx := 0, win := some { start := r.cyc, count := n }, lastLocal := some (r.cyc + n - 1) }
    let s3 := (List.range 8).foldl (fun s i =>
      s.setHob (8 * q + i) { s.hob (8 * q + i) with lstack := [], lpc := field (qImm w) 0 9, lidle := false }) s2
    (s3.startHobs q r.cyc).goOn q 1
/-- BEND (R132). -/
def State.doBend (s : State) (q : Nat) : State :=
  let r := s.range q
  s.setRange q { r.tick 10 with nxt := none, bendAt := some r.cyc }
def State.doWait (s : State) (q : Nat) : State :=
  let r := s.range q
  let w := slotQ r.bits
  ((s.tickR q 10).setQx q 0).goOn q (1 + (r.qx % 256 * 65536 + qImm w))
/-- The forced BEND: OVERRUN is logged with the bundle issued in the cycle or the WAIT that occupies it (Table 5.8), and an open window ends
after this cycle (R140). Log 169, DEDUCED. -/
def State.doOverrun (s : State) (q : Nat) : State :=
  let r := s.range q
  let win := r.win.map fun w => { w with count := min w.count (r.cyc + 1 - w.start) }
  let last := r.lastLocal.map fun l => min l r.cyc
  (s.setRange q { r.tick 11 with nxt := none, bendAt := some r.cyc, win := win, lastLocal := last }).seqFault q 10 0x18 (r.iss.getD r.pc) r.issAt
/-- The Q operation of the current bundle, whichever it is. -/
def State.doQ (s : State) (q : Nat) : State :=
  let w := slotQ (s.range q).bits
  match qOp w with
  | 1 => s.doQx q
  | 2 => s.doCset q
  | 3 => s.doCtl q (.loop (qCtr w) (field (qImm w) 0 13))
  | 4 => s.doCtl q (.djnz (qCtr w) (qOff13 w))
  | 5 => s.doCtl q (.jmp (qOff16 w))
  | 6 => s.doFlag q
  | 7 => s.doLocal q
  | 8 => s.doBend q
  | 9 => s.doWait q
  | _ => s.tickR q 10

/-! ### Operations of a hob -/

/-- The local sequencing field (R133, R144): its fault, and the next local position. -/
def lqCtl (x : Nat) : CtlOp :=
  match lqOp x with
  | 2 => .loop (lqCtr x) (lqImm x)
  | 3 => .djnz (lqCtr x) (signed 16 (lqImm x))
  | 4 => .jmp (signed 16 (lqImm x))
  | _ => .none
def State.doLseq (s : State) (q i : Nat) : State :=
  let h := 8 * q + i
  let x := s.hob h
  match x.cur with
  | none => s
  | some iss =>
    let c := (s.range q).cyc
    let ok := lqLegal iss.lseq
    let ctr := if ok ∧ lqOp iss.lseq = 1 then put 0 (lqCtr iss.lseq) (lqImm iss.lseq) x.lc else x.lc
    let res := ctlDecide 0 x.llen 4 iss.addr (if ok then lqCtl iss.lseq else .none) ctr x.lstack
    let s1 := s.setHob h { (x.tick 7) with lc := res.ctr, lstack := res.stack, lpc := res.next.toNat }
    let s2 := if ok then s1 else s1.fault q i 11 1 iss.addr c true
    match res.flt with | some f => s2.fault q i 11 f iss.addr c true | none => s2
/-- Operation `k` of the portion that hob `8 q + i` issues (numbers of HIssue.todo). -/
def State.doHobOp (s : State) (q i k : Nat) : State :=
  let h := 8 * q + i
  let x := s.hob h
  match x.cur with
  | none => s
  | some iss =>
    let c := (s.range q).cyc
    let y := x.tick k
    match k with
    | 0 => s.setHob h (y.issueArray iss c)
    | 1 => s.setHob h (y.issueV iss c)
    | 2 => s.setHob h (y.issueLoad iss 0 c)
    | 3 => s.setHob h (y.issueLoad iss 1 c)
    | 4 => s.setHob h (y.issueStore iss c)
    | 5 => s.setHob h (y.issueTap iss c 0)
    | 6 => s.setHob h (y.enq (c + 1) c 6 (.cop (slotC iss.bits)))     -- offset 1 (R111)
    | 7 => s.doLseq q i
    | 8 => s.setHob h (y.issuePlane iss c)
    | 9 => s.setHob h (y.issueAsld iss c)
    | _ => s.setHob h (y.issueTap iss c 1)
/-- Everything a hob still has to issue in the cycle. -/
def State.finishHob (s : State) (q i : Nat) : State :=
  let todo := match (s.hob (8 * q + i)).cur with | some iss => iss.todo | none => []
  let order := [0, 8, 9, 1, 2, 3, 4, 5, 10, 6, 7]
  let s1 := (order.filter fun k => todo.contains k).foldl (fun s k => s.doHobOp q i k) s
  let x := s1.hob (8 * q + i)
  s1.setHob (8 * q + i) { x with cur := none }

/-! ### Passing cycles -/

/-- The last cycle of the run, once BEND has issued (R138). -/
def Range.lastEffect (r : Range) : Option Nat := r.bendAt.map fun b => max (b + 16) (match r.lastLocal with | some l => l + 15 | none => 0)
/-- The cycle's issue has happened, a LOCAL that opens its window included: the hobs hold their portions. -/
def State.ready (s : State) (q : Nat) : State :=
  let s1 := s.settle q
  if (s1.range q).phase = .run ∧ !(s1.range q).hobsOn ∧ (s1.range q).opensLocal (s1.range q).cyc then s1.doLocal q else s1
/-- The current cycle ends: every slot still to execute executes. -/
def State.finishCycle (s : State) (q : Nat) : State :=
  let s1 := s.ready q
  let s2 := (List.range 8).foldl (fun s i => s.finishHob q i) s1
  let has (s : State) (k : Nat) : Bool := (s.range q).todo.contains k
  let s3 := if has s2 7 then s2.doGroup q [] else s2
  let s4 := if has s3 8 then s3.doTap q else s3
  let s5 := if has s4 9 then (if gOp (slotG (s4.range q).bits) = 1 then s4.doSend q else s4.doMove q) else s4
  let s6 := if has s5 10 then s5.doQ q else s5
  if has s6 11 then s6.doOverrun q else s6
/-- `n` cycles pass. -/
def State.pass (s : State) (q : Nat) : Nat → State
  | 0 => s
  | n + 1 => State.pass ((s.finishCycle q).openCycle q ((s.range q).cyc + 1)) q n
/-- Nothing of the range is pending: no bundle is to come and no effect is due. -/
def State.calm (s : State) (q : Nat) : Bool :=
  let r := s.range q
  (r.phase != .run || match r.bendAt with | some b => decide (b + 17 ≤ r.cyc) | none => false)
  && r.pre.isEmpty && r.todo.isEmpty && r.pend.isEmpty && r.win.isNone && (List.range 8).all fun i => (s.hob (8 * q + i)).pend.isEmpty && (s.hob (8 * q + i)).cur.isNone
/-- The cycles up to cycle `t` pass; where nothing is pending they pass at once. -/
def State.passTo (s : State) (q t : Nat) : State :=
  if s.calm q then
    let r := s.range q
    let ex (m : SMap LoopSlot) : SMap LoopSlot := (List.range 16).foldl (fun m n => upd {} n (fun x => x.expire t) m) m
    (s.playTo q t).setRange q { (s.playTo q t).range q with up := ex r.up, dn := ex r.dn, cyc := t, iss := none, hobsOn := true }
  else s.pass q (t - (s.range q).cyc)
/-- The DONE bits of a hob's generators, set until the end of the beat (R61), clear. -/
def Hob.beatOver (x : Hob) : Hob := (List.range 4).foldl (fun y g => if (y.gen g).done then y.setGen g { y.gen g with done := false } else y) x
/-- The range goes back to the start of a beat: what the seam selected begins (R134, R110), or the beat is idle. The loads
still in mover slots are parked (R83), the station's clock takes its phase to the beat (R238), and an increment of STK_BEAT
that the seam of range 0 still owes happens first (R159); where it requests SIMMER, the quarter stops instead (R178). -/
def State.startBeat (s : State) (q phase : Nat) : State :=
  let s := if q = 0 ∧ s.stk.tickDue then s.beatTick else s
  if (s.range q).halted then s else
  let old := s.stn q
  let s := s.playTo q s.beatLen
  let r := s.range q
  let run := r.valid
  let r1 := { r.parkLoads with
    phase := if run then .run else .idle, cyc := 0, iss := none, pre := [], todo := [], hobsOn := false, waiting := false,
    nxt := if run then some (0, r.base) else none, bendAt := none, lastLocal := none, win := none, stack := [], pend := [],
    sc := if run then [] else r.sc, qx := if run then 0 else r.qx,
    lastFill := r.lastFill.filterMap fun e => if s.beatLen < e.2 then some (e.1, e.2 - s.beatLen) else none, fltNow := [], beatNo := r.beatNo + 1,
    stn := { (r.stn.carry (sckStart (s.grade q) old.phase s.beatLen) 0) with bound := [], phase := phase } }
  let s1 := { (s.setRange q r1) with fresh := s.fresh + 1, stk := { s.stk with ranNow := s.stk.ranNow || run } }
  let s2 := (List.range 8).foldl (fun s i =>
    let x := s.hob (8 * q + i)
    s.setHob (8 * q + i)
      (if run then { x.beatOver with cx := 0, aep := 0, aepWrap := 512, lc := [], hrel := 0, lstack := [], lidle := false, pend := [], bankUse := [], cur := none, busyTo := none, gap := .none }
       else { x.beatOver with cur := none, bankUse := [], busyTo := none, gap := .none })) s1
  let s3 := if run then (List.range 5).foldl (fun s k => s.setGate (5 * q + k) { s.gate (5 * q + k) with sent := [] }) s2
            else (List.range 8).foldl (fun s i => s.quiet (8 * q + i) s.seamCyc) (s2.idleRefresh q)
  if run then s3.openCycle q 0 else s3
/-- The SCK phase of a beat, a free value (R238). -/
def State.newPhase (s : State) : Nat := Config.sckPhase s.fresh % 1000
/-- Lets the cycles of quarter `q` pass up to cycle `t`: within the beat, within the seam, or from the seam into the next
beat. `none` where cycle `t` does not come: the quarter is halted, `t` has passed, or a beat's `t` lies in the seam. Before START no beat
runs (R453), and the cycles of an idle range count on. Log 3, DESIGN CHOICE. -/
def State.advance (s : State) (q t : Nat) : Option State :=
  let r := s.range q
  if r.halted then none
  else if !s.stk.started then (if r.cyc ≤ t then some (s.passTo q t) else none)
  else match r.phase with
    | .seam =>
      if s.seamCyc ≤ t then (if r.cyc ≤ t ∧ t < s.beatLen then some ((s.playTo q t).setRange q { (s.playTo q t).range q with cyc := t }) else none)
      else
        let s1 := s.startBeat q s.newPhase
        if (s1.range q).halted then none else some (s1.passTo q t)
    | _ => if r.cyc ≤ t ∧ t < s.seamCyc then some (s.passTo q t) else none

end Sys2Proof.Machine
end

