-- ==== Sys2Proof/Machine/Movers.lean ====
section
/-! DEFINITION. Movers, loads, mover slots, the bridge and the spine (02_the_hob.md R42, R43; 03_ranges_and_loops.md R81 to R83,
R92 to R103, R555; 16_address_map_common_registers.md R488 to R497). -/
namespace Sys2Proof.Machine

/-! ### Where an address leads (R488 to R492, R497) -/

/-- 1 HBM, 2 hob SRAM, 3 CSR space, 4 contribution window, 5 staging request port, 6 posting window, 0 outside the map. -/
def State.kindAt (s : State) (a : Nat) : Nat :=
  if isHbm a then (if (s.stn (a / hbmQuarter)).withdrawn then 0 else 1)
  else if (sramHob a).isSome then 2
  else if 0xF000000000 ≤ a ∧ a < 0xF100000000 then 3
  else if inContribWindow a then 4
  else if 0xF900000000 ≤ a ∧ a < 0xF900000040 then 5
  else if inPostWindow a then 6
  else 0
/-- The status of an access to `n` lines at a local address (0: it may be performed). Log 95, DEDUCED. -/
def State.judgeAccess (s : State) (t a n : Nat) (write : Bool) : Nat :=
  let all (k : Nat) : Bool := (List.range n).all fun j => s.kindAt (a + 64 * j) == k
  match s.kindAt a with
  | 1 => if all 1 then 0 else 0x23
  | 2 => if all 2 then 0 else 0x23
  | 3 => if write ∧ inStoreWindow a = true then 0x22 else s.judgeCsr t a (64 * n)
  | 4 => if write ∧ all 4 then 0 else 0x23
  | 5 => if write then (if n = 1 then 0 else 8) else 0x23
  | 6 => if write then 0 else 8
  | _ => 0x23
/-- The first word refused of an access to `a`: with ADDRESS the first that no span decodes, else the access's first (R510, COM_ACCADDR). -/
def State.firstRefused (s : State) (status a : Nat) : Nat :=
  if status = 0x23 then (((List.range 128).map fun w => a + 4 * w).find? fun x => !csrDecoded s x).getD a else a
/-- A refused access to CSR space is recorded (R510). -/
def State.noteRefusal (s : State) (status chip t a : Nat) (write : Bool) : State :=
  if (status = 7 ∨ status = 0x22 ∨ status = 0x23) ∧ s.kindAt a = 3 then s.refuseCsr status chip t (s.firstRefused status a) write else s

/-! ### Descriptors (R92 to R98) -/

def Desc.src (d : Desc) : Nat := le d.raw 0 6
def Desc.dst (d : Desc) : Nat := le d.raw 8 6
def Desc.len (d : Desc) : Nat := le d.raw 16 4
def Desc.op (d : Desc) : Nat := le d.raw 20 1
def Desc.ctrl (d : Desc) (b : Nat) : Bool := (le d.raw 21 1).testBit b
def Desc.fence (d : Desc) : Bool := d.ctrl 0
def Desc.chain (d : Desc) : Bool := d.ctrl 1
def Desc.delta (d : Desc) : Word := BitVec.ofNat 32 (le d.raw 28 4)
def Desc.next (d : Desc) : Nat := le d.raw 40 5
/-- R93. Log 86, DEDUCED. -/
def Desc.illegal (d : Desc) : Bool :=
  let z (o n : Nat) : Bool := le d.raw o n != 0
  z 6 2 || z 14 2 || decide (1 < d.op) || decide (64 ≤ le d.raw 21 1) || z 22 2 || decide (2 ^ 14 ≤ le d.raw 24 2) || decide (2 ^ 14 ≤ le d.raw 26 2)
  || decide (2 ^ 14 ≤ le d.raw 32 2) || z 35 1 || z 38 2 || z 45 3 || z 48 16
  || (d.op == 0 && d.src % 64 != 0) || d.dst % 64 != 0 || (d.chain && d.next % 64 != 0) || d.len % 64 != 0
/-- Cuts of a descriptor: no operation crosses a 256-byte boundary of DST, nor, for a COPY, of SRC. -/
def Desc.cutD (d : Desc) : Nat := 256 - d.dst % 256
def Desc.cutS (d : Desc) : Nat := if d.op = 0 then 256 - d.src % 256 else d.cutD
/-- Offset at which operation `k` begins. -/
def Desc.bound (d : Desc) (k : Nat) : Nat :=
  let lo := min d.cutD d.cutS
  let hi := max d.cutD d.cutS
  if k = 0 then 0
  else if lo = hi then lo + 256 * (k - 1)
  else if k % 2 = 1 then lo + 256 * (k / 2) else hi + 256 * (k / 2 - 1)
/-- Operations of a descriptor. -/
def Desc.count (d : Desc) : Nat :=
  let lo := min d.cutD d.cutS
  let hi := max d.cutD d.cutS
  if d.len = 0 then 0
  else if lo = hi then 1 + ceilDiv (d.len - lo) 256
  else 1 + ceilDiv (d.len - lo) 256 + ceilDiv (d.len - hi) 256
/-- No further operation of the descriptor is to be issued. -/
def Desc.issuedAll (d : Desc) : Bool := d.illegal || d.aborted || d.err.isSome || decide (d.count ≤ d.issued.length)
/-- The descriptor has nothing left to wait for (R95, R96). -/
def Desc.finished (d : Desc) : Bool := d.issuedAll && d.ops.isEmpty
/-- Index of the descriptor whose operations may be issued (R97): none beyond a descriptor with CHAIN that has not completed (R98). -/
def currentFrom (i : Nat) : List Desc → Option Nat
  | [] => none
  | d :: r =>
    if !d.issuedAll then (if d.fence && i != 0 then none else some i)
    else if d.chain then none
    else currentFrom (i + 1) r
def Mover.current (v : Mover) : Option Nat := if v.fetching.isSome then none else currentFrom 0 v.q
def Mover.inFlight (v : Mover) : Nat := v.q.foldl (fun n d => n + d.ops.length) 0
def State.mover (s : State) (q m : Nat) : Mover := (s.range q).mover m
def State.setMover (s : State) (q m : Nat) (v : Mover) : State := s.setRange q ((s.range q).setMover m v)

/-! ### Operations (R94, R96). Log 87, DEDUCED. -/
def Mover.mapOp (v : Mover) (id : Nat) (f : MOp → MOp) : Mover :=
  { v with q := v.q.map fun d => { d with ops := d.ops.map fun o => if o.id = id then f o else o } }
/-- The write of an operation goes out: to a station, to the mantel, or in a WRITE packet. -/
def State.moverWrite (s : State) (q m op t dst : Nat) (data : Bytes) (poi : List Bool) : State :=
  let chip := dst / 2 ^ 40
  let a := dst % 2 ^ 40
  let n := data.length / 64
  if chip = s.rt.chip then
    match s.judgeAccess t a n true with
    | 0 => s.moverLoad q m (mkLoad .write a n q 0 t data poi (.mover q m op))
    | c => (s.noteRefusal c chip t a true).moverEnd q m op (some c)
  else
    let s1 := s.setMover q m ((s.mover q m).mapOp op fun o => { o with reading := false, peer := some chip })
    s1.sendOwn { op := opWrite, vc := 4, rack := true, dst := chip, tenant := t, tag := op, sunit := sunitMover q m, addr := a,
                 flits := (List.range n).map fun j => ((data.drop (64 * j)).take 64, poi.getD j false) }
/-- The read of a COPY operation goes out. -/
def State.moverRead (s : State) (q m op t src n : Nat) : State :=
  let chip := src / 2 ^ 40
  let a := src % 2 ^ 40
  if chip = s.rt.chip then
    match s.judgeAccess t a n false with
    | 0 => s.moverLoad q m (mkLoad .readReq a n q 0 t [] [] (.mover q m op))
    | c => (s.noteRefusal c chip t a false).moverEnd q m op (some c)
  else
    let s1 := s.setMover q m ((s.mover q m).mapOp op fun o => { o with peer := some chip })
    s1.sendOwn { op := opRead, vc := 4, rack := true, dst := chip, tenant := t, tag := op, sunit := sunitMover q m, addr := a, arg0 := n }
/-- Data has come back for the read of an operation: its write goes out. -/
def State.moverData (s : State) (q m op : Nat) (data : Bytes) (poi : List Bool) : State :=
  let v := s.mover q m
  match v.q.findSome? fun d => (d.ops.find? fun o => o.id == op && o.reading).map fun o => (d.tenant, o.dst) with
  | some (t, dst) => (s.setMover q m (v.mapOp op fun o => { o with reading := false, peer := none })).moverWrite q m op t dst data poi
  | none => s
/-! ### The loading of programs (R89, R100). Log 155, DESIGN CHOICE. -/

/-- A bundle as loaded at an even base: a MOVE's W field moves with it. -/
def relocate (b base : Nat) : Nat :=
  let g := slotG b
  if gOp g = 2 then b - field g 6 13 * 2 ^ 222 + (field g 6 13 + base / 2) % 2 ^ 13 * 2 ^ 222 else b
/-- The program-memory window of quarter `q` (Table 3.4). -/
def pmemWindow (q : Nat) : Nat := 0xF010000000 + q * 0x04000000 + 0x00800000
/-- The bytes that stand in the program memory of range `q` for bundles `w` to `w + n - 1` of an entry's extent: its bundles, then its tables. -/
def Entry.image (x : Entry) (q w n : Nat) : Bytes :=
  let t := x.decl.tables q
  (List.range n).flatMap fun j =>
    toBytes 32 (if w + j < x.plen then relocate (bundleAt x.decl.bundles (w + j)) x.pbase else bundleAt t (w + j - x.plen))
/-- The descriptor with which the stoker loads the extent of entry `e` into range `q`, as a whole number of lines. -/
def State.loadDesc (s : State) (q e : Nat) : Desc :=
  let x := s.entry e
  { raw := toBytes 8 0 ++ toBytes 8 (s.rt.chip * 2 ^ 40 + pmemWindow q + 32 * x.pbase) ++ toBytes 4 (64 * ceilDiv (x.footprint q) 2) ++ [1] ++ List.replicate 43 0,
    tenant := x.tenant, entry := e, load := some e }
/-- One loading is handed to the first mover of its quarter that has a place, or goes on waiting. -/
def State.feedLoad (s : State) (q e : Nat) : State :=
  if (s.entry e).state ≠ .loading then s
  else if s.aborting (s.entry e).tenant then { s with stk := { s.stk with loadQ := s.stk.loadQ ++ [(q, e)] } }
  else match (List.range 8).find? fun m => decide ((s.mover q m).q.length + (if (s.mover q m).fetching.isSome then 1 else 0) < 16) with
    | some m => let v := s.mover q m; s.setMover q m { v with q := v.q ++ [s.loadDesc q e] }
    | none => { s with stk := { s.stk with loadQ := s.stk.loadQ ++ [(q, e)] } }
/-- The stoker hands its loadings to the movers, in their order. -/
def State.feedLoads (s : State) : State :=
  s.stk.loadQ.foldl (fun s e => s.feedLoad e.1 e.2) { s with stk := { s.stk with loadQ := [] } }
/-- A write of a loading goes to the sequencer's station (R71, R90). -/
def State.loadWrite (s : State) (q m op e dst n : Nat) : State :=
  let x := s.entry e
  let a := dst % 2 ^ 40
  let w := (a - pmemWindow q) / 32 - x.pbase
  s.moverLoad q m { kind := .write, dq := q, ds := 15, sq := q, ss := 0, addr := a, lines := n, data := x.image q w (2 * n), poi := List.replicate n false,
                    tenant := x.tenant, org := .mover q m op }
/-- A loading is over: the extent of the entry is resident in the range (R89), or it begins again. -/
def State.loadDone (s : State) (q e : Nat) (ok : Bool) : State :=
  let x := s.entry e
  if ok then (if x.state = .loading then s.setEntry e { x with resident := x.resident ++ [q] } else s)
  else { s with stk := { s.stk with loadQ := s.stk.loadQ ++ [(q, e)] } }
/-- MOVER_OP_ISSUE: operation `k` of the descriptor in progress (R94). -/
def State.moverIssue (s : State) (q m k : Nat) : State :=
  let v := s.mover q m
  match v.current with
  | none => s
  | some i =>
    let d := v.q.getD i {}
    if d.issued.contains k ∨ d.count ≤ k ∨ 128 ≤ v.inFlight then s
    else
      let lo := d.bound k
      let n := min (d.bound (k + 1)) d.len - lo
      let id := v.nextId % 65535
      let o : MOp := { id := id, dst := d.dst + lo, len := n, reading := d.op == 0, peer := none }
      let d1 := { d with issued := d.issued ++ [k], ops := d.ops ++ [o], begun := true }
      let s1 := s.setMover q m { v with q := v.q.set i d1, nextId := v.nextId + 1 }
      match d.load with
      | some e => s1.loadWrite q m id e (d.dst + lo) (n / 64)
      | none =>
        if d.op = 0 then s1.moverRead q m id d.tenant (d.src + lo) (n / 64)
        else s1.moverWrite q m id d.tenant (d.dst + lo) (List.replicate n 0) (List.replicate (n / 64) false)

/-! ### Completion (R95, R96, R98 to R100) -/

/-- TRIG (R95, R362): a counter outside the tenant's block is refused and counted. -/
def State.trigAction (s : State) (t c : Nat) : State :=
  if s.ownsCnt t c then s.cntAdd c 1 else { s with trn := { s.trn with trigref := s.trn.trigref + 1 } }
/-- The success actions, in order. -/
def State.moverSuccess (s : State) (q m : Nat) (d : Desc) : State :=
  let rf := le d.raw 32 2
  let chip := le d.raw 34 1
  let s1 := if d.ctrl 2 then s.flagAdd d.tenant (le d.raw 24 2) d.delta else s
  let s2 := if d.ctrl 3 then
      (if chip = s.rt.chip then s1.flagAdd d.tenant rf d.delta
       else s1.sendOwn { op := opFlagInc, vc := 3, dst := chip, tenant := d.tenant, sunit := sunitMover q m, arg0 := rf, arg1 := d.delta.toNat,
                         tag := 0xFFFF })
    else s1
  if d.ctrl 4 then s2.trigAction d.tenant (le d.raw 36 2) else s2
/-- The error actions: EFLAG and the MOVER_ERROR event. -/
def State.moverError (s : State) (q m reason : Nat) (d : Desc) : State :=
  let s1 := if d.ctrl 5 then s.flagAdd d.tenant (le d.raw 26 2 % 2 ^ 14) 1 else s
  s1.log 0x0202 .contained (.quarter q) (some d.tenant) [m, reason, d.dst % 2 ^ 32]
def State.countMoverError (s : State) (q m : Nat) : State :=
  let v := s.mover q m
  s.setMover q m { v with errCnt := v.errCnt + 1 }
/-- Begins the fetch of the chained descriptor (R98). -/
def State.startFetch (s : State) (q m : Nat) (d : Desc) : State :=
  let v := s.mover q m
  let v1 := { v with fetching := some d.next, fetchTenant := d.tenant, fetchEntry := d.entry, fetched := none, fetchAbort := false }
  match s.judgeAccess d.tenant d.next 1 false with
  | 0 => (s.setMover q m v1).moverLoad q m (mkLoad .readReq d.next 1 q 0 d.tenant [] [] (.chain q m))
  | c => (s.noteRefusal c s.rt.chip d.tenant d.next false).setMover q m { v1 with fetched := some ([], false, c) }
/-- The actions of a descriptor that completes (R95, R96, R98, R100). -/
def State.descActions (s : State) (q m : Nat) (d : Desc) : State :=
  if d.aborted then s.countMoverError q m
  else if d.illegal then (s.moverError q m 0x30 d).countMoverError q m
  else match d.err with
    | some r =>
      let s1 := (s.moverError q m r d).countMoverError q m
      match d.load with | some e => s1.loadDone q e false | none => s1
    | none =>
      let s1 := s.moverSuccess q m d
      let s2 := match d.load with | some e => s1.loadDone q e true | none => s1
      if d.chain then s2.startFetch q m d else s2
/-- DESCRIPTOR_COMPLETE: the oldest descriptor, once it is finished and no fetch stands before it. A loading that waits takes a place that comes free. -/
def State.descComplete (s : State) (q m : Nat) : State :=
  let v := s.mover q m
  match v.q with
  | [] => s
  | d :: rest =>
    if v.fetching.isSome ∨ !d.finished then s
    else ((s.setMover q m { v with q := rest }).descActions q m d).feedLoads
/-- CHAIN_FETCH_DONE. -/
def State.chainDone (s : State) (q m : Nat) : State :=
  let v := s.mover q m
  match v.fetched with
  | none => s
  | some (b, poi, st) =>
    let v1 := { v with fetching := none, fetched := none, fetchAbort := false }
    if v.fetchAbort then (s.setMover q m v1).countMoverError q m
    else if st ≠ 0 ∨ poi = true then
      ((s.setMover q m v1).log 0x0202 .contained (.quarter q) (some v.fetchTenant) [m, 0x30, 0]).countMoverError q m
    else s.setMover q m { v1 with q := { raw := b, tenant := v.fetchTenant, entry := v.fetchEntry } :: v1.q }
/-- The movers of a quarter stop a tenant's work at the seam of its abort (R100). -/
def Mover.abort (v : Mover) (t : Nat) : Mover :=
  { v with q := v.q.map fun d => if d.tenant = t then { d with aborted := true, err := none } else d,
           fetchAbort := v.fetchAbort || (v.fetching.isSome && v.fetchTenant == t) }
def State.abortMovers (s : State) (q t : Nat) : State :=
  (List.range 8).foldl (fun s m => s.setMover q m ((s.mover q m).abort t)) s

/-! ### Requests of other parts (R284, R294, R296, R300) -/

/-- The head packet of a VC buffer leaves it (R296). -/
def State.popRx (s : State) (l v : Nat) : State := let g := s.gate l; s.setGate l { g with rx := upd [] v List.tail g.rx }
/-- The head packet of a VC buffer goes on in loads, and leaves its buffer once mover slots have taken them all (R105, R296); `l` is 20 for a
packet of the part itself. -/
def State.sendIn (s : State) (l v : Nat) (ls : List Load) : State :=
  if l = atMantel then s.mantelSend ls
  else if ls = [] then s.popRx l v
  else let g := s.gate l; s.setGate l { g with moving := put [] v ls g.moving }


/-- Answers a request under way once its last piece is home: a RESP for a WRITE or a READ with RACK 1 or refused (R300), DWRITEs for a DFETCH. -/
def State.finishRemote (s : State) (id : Nat) (x : Remote) : State :=
  let s1 := { s with remote := put {} id {} s.remote }
  let p := x.pkt
  let ls := x.data.flatMap fun e => (List.range (e.2.1.length / 64)).map fun j => ((e.2.1.drop (64 * j)).take 64, e.2.2.getD j false)
  if p.op = opDfetch then
    (List.range (ceilDiv ls.length 8)).foldl (fun s j =>
      s.sendFrom x.link { op := opDwrite, vc := 5, dst := p.src, tenant := p.tenant, addr := p.addr2 + 512 * j, flits := (ls.drop (8 * j)).take 8, sunit := p.sunit, tag := p.tag }) s1
  else if x.status ≠ 0 then s1.refuse x.link p x.status
  else if p.op = opRead then (if p.rack then s1.respond x.link p 0 ls else s1)
  else s1.accept x.link p
/-- Piece `idx` of a request is home. -/
def State.remotePiece (s : State) (id idx : Nat) (l : Load) : State :=
  let x := get {} id s.remote
  if x.left = 0 then s
  else
    let y := { x with left := x.left - 1, status := if x.status = 0 then l.status else x.status,
                      data := if l.kind = .readData then put ([], []) idx (l.data, l.poi) x.data else x.data }
    if y.left = 0 then s.finishRemote id y else { s with remote := put {} id y s.remote }
/-- A load reaches the unit that waits for it. -/
def State.home (s : State) (l : Load) : State :=
  match l.org with
  | .none => s
  | .mover q m op =>
    if l.status ≠ 0 then s.moverEnd q m op (some l.status)
    else if l.kind = .readData then s.moverData q m op l.data l.poi
    else s.moverEnd q m op none
  | .chain q m => let v := s.mover q m; if v.fetching.isSome ∧ v.fetched.isNone then s.setMover q m { v with fetched := some (l.data, l.poi.any id, l.status) } else s
  | .remote id idx => s.remotePiece id idx l
  | .ring c num o n => s.ringPlaced c num o n
  | .sum k num => s.sumPlaced k num
  | .unit u tag => s.unitFail u tag l.status
/-- A request that has been judged goes to its stations from gate `l`, or from the mantel (R105); a window takes its lines in one load. -/
def State.startRemote (s : State) (l v : Nat) (p : Packet) (kind : LoadKind) (n : Nat) : State :=
  let id := s.nextRemote
  let ps := if 3 ≤ s.kindAt p.addr then [(0, n)] else pieces p.addr n 0 n
  let (q, st) := if l < 20 then (l / 5, 10 + l % 5) else (4, 0)
  let ls := (ps.zipIdx).map fun e =>
    let (o, k) := e.1
    let fl := (p.flits.drop o).take k
    mkLoad kind (p.addr + 64 * o) k q st p.tenant (if kind = .write then fl.flatMap fun f => f.1 else [])
      (if kind = .write then fl.map fun f => f.2 else []) (.remote id e.2)
  ({ s with nextRemote := id + 1, remote := put {} id { pkt := p, link := l, left := ps.length } s.remote }).sendIn l v ls
/-- A WRITE of the same sender on the same VC has not been placed yet: what follows it waits (R229). -/
def State.behindWrite (s : State) (p : Packet) : Bool :=
  s.remote.any fun e => decide (0 < e.2.left) && e.2.pkt.op == opWrite && e.2.pkt.src == p.src && e.2.pkt.sunit == p.sunit && e.2.pkt.vc == p.vc

/-! ### Mover slots (R81 to R83, R555) -/

/-- The loop that reaches station `d` from station `st` in fewer cycles, the updraft when equal (R81). -/
def nearLoop (st d : Nat) : Nat := if (d + 16 - st) % 16 ≤ (st + 16 - d) % 16 then 0 else 1
/-- A loop holds a mover slot. -/
def Range.hasMover (r : Range) (loop : Nat) : Bool := (List.range 16).any fun n => r.moverSlot loop n
/-- The loop on which a station sends a load. -/
def Range.loopFor (r : Range) (st d : Nat) : Nat := let n := nearLoop st d; if r.hasMover n then n else 1 - n
/-- Station of the loops of quarter `q` at which a load leaves. -/
def Load.exit (l : Load) (q : Nat) : Nat := if l.dq = q then l.ds else 0
/-- The mover slot of a loop that stands empty at a station in cycle `c`. -/
def Range.emptyAt (r : Range) (st loop c : Nat) : Bool :=
  let n := slotAt loop st c
  r.moverSlot loop n && (r.slot loop n).load.isNone
/-- May station `st` put load `l` into its loop in cycle `c`?. Log 84, DEDUCED. -/
def Range.mayFill (r : Range) (q st c : Nat) (l : Load) : Bool :=
  let lp := r.loopFor st (l.exit q)
  r.emptyAt st lp c && decide (get 0 (2 * st + lp) r.lastFill ≤ c)
/-- A load goes into a mover slot; a parked load keeps the station from which it first came (R82). -/
def Range.fill (r : Range) (st lp c : Nat) (l : Load) (limit : Bool) : Range :=
  let n := slotAt lp st c
  let l1 := { l with inAt := if limit then st else l.inAt, inj := r.injs }
  let r1 := { (r.setSlot lp n { r.slot lp n with load := some l1 }) with injs := r.injs + 1 }
  if limit then { r1 with lastFill := put 0 (2 * st + lp) (c + 16) r1.lastFill } else r1
/-- The oldest load of source `k` of the bridge for a station of the range: 0 the inbound queue, 1 to 8 the movers. -/
def Range.bridgeHead (r : Range) (q k : Nat) : Option Load :=
  if k = 0 then r.brIn.find? fun l => l.ds != 0 else (r.movLoads.find? fun e => e.1 == k - 1 && e.2.dq == q).map fun e => e.2
/-- Takes that load from its source. -/
def Range.bridgePop (r : Range) (q k : Nat) : Range :=
  if k = 0 then { r with brIn := r.brIn.eraseP fun l => l.ds != 0 } else { r with movLoads := r.movLoads.eraseP fun e => e.1 == k - 1 && e.2.dq == q }
/-- The bridge fills a slot: a parked load first, on either loop, else round-robin (R83, R555). Where the slots of both loops at the bridge are
empty mover slots, a parked load takes that of the updraft. Log 88, DEDUCED; log 154, DESIGN CHOICE. -/
def Range.bridgeFill (r : Range) (q c : Nat) : Range :=
  match r.park with
  | l :: rest =>
    if r.emptyAt 0 0 c then { (r.fill 0 0 c l false) with park := rest }
    else if r.emptyAt 0 1 c then { (r.fill 0 1 c l false) with park := rest }
    else r
  | [] =>
    match (List.range 9).find? fun i => match r.bridgeHead q ((r.rr + i) % 9) with | some l => r.mayFill q 0 c l | none => false with
    | none => r
    | some i =>
      let k := (r.rr + i) % 9
      match r.bridgeHead q k with
      | some l => { ((r.bridgePop q k).fill 0 (r.loopFor 0 (l.exit q)) c l true) with rr := (k + 1) % 9 }
      | none => r
/-- Index of the hob at a station. -/
def hobAt (st : Nat) : Option Nat := if 1 ≤ st ∧ st ≤ 4 then some (st - 1) else if 6 ≤ st ∧ st ≤ 9 then some (st - 2) else none
/-- The link whose gate stands at station `st` of quarter `q`, from station 10 to 14. -/
def gateAt (q st : Nat) : Option Nat := if 10 ≤ st ∧ st < 15 then some (5 * q + (st - 10)) else none
/-- Oldest pending load of each source of a station other than the bridge: 0 what the station itself sends, 1 + v what goes on from the
receive buffer of VC v of its gate, each in its own order (R296). -/
def State.stationHeads (s : State) (q st : Nat) : List (Nat × Load) :=
  let r := s.range q
  let own : Option Load := match hobAt st with
    | some i => (s.hob (8 * q + i)).outLoads.head?
    | none => if st = 5 then r.stn.outLoads.head? else (r.gateLoads.find? (fun (e : Nat × Load) => e.1 == st)).map fun e => e.2
  own.toList.map (fun l => (0, l)) ++ match gateAt q st with
    | some g => (List.range 8).flatMap fun v => (get [] v (s.gate g).moving).head?.toList.map fun l => (v + 1, l)
    | none => []
/-- Takes that load from its source; with the last load of a packet, the packet leaves its receive buffer. -/
def State.stationPop (s : State) (q st k : Nat) : State :=
  let r := s.range q
  match k with
  | 0 =>
    match hobAt st with
    | some i => let h := 8 * q + i; s.setHob h { s.hob h with outLoads := (s.hob h).outLoads.tail }
    | none => if st = 5 then s.setStn q { r.stn with outLoads := r.stn.outLoads.tail }
              else s.setRange q { r with gateLoads := r.gateLoads.eraseP fun e => e.1 == st }
  | v + 1 =>
    match gateAt q st with
    | some l =>
      let g : Gate := s.gate l
      let rest : List Load := (get [] v g.moving).tail
      let s1 := s.setGate l { g with moving := put [] v rest g.moving }
      if rest = [] then s1.popRx l v else s1
    | none => s
/-- MOVER_SLOT_FILL at station `st` in the current cycle. -/
def State.slotFill (s : State) (q st : Nat) : State :=
  let r := s.range q
  if st = 0 then s.setRange q (r.bridgeFill q r.cyc)
  else if r.park ≠ [] then s
  else match (s.stationHeads q st).find? (fun (e : Nat × Load) => r.mayFill q st r.cyc e.2) with
    | some (k, l) =>
      let s1 := s.stationPop q st k
      s1.setRange q ((s1.range q).fill st (r.loopFor st (l.exit q)) r.cyc l true)
    | none => s
/-- Another load of the same source station for the same station is on the loop, and was put there before this one (R82). -/
def Range.overtakes (r : Range) (q loop : Nat) (l : Load) : Bool :=
  (List.range 16).any fun n => match (r.slot loop n).load with
    | some k => k.inAt == l.inAt && k.exit q == l.exit q && decide (k.inj < l.inj)
    | none => false
/-- A packet reaches the gate of its exit link and joins its queue; where the link has left UP and HOLD meanwhile, its exit is chosen again
(R313). -/
def State.packetHome (s : State) (l : Nat) (src : PSrc) (p : Packet) : State :=
  let g := s.gate l
  let s1 := if src = .transit then s.setGate l { g with coming := upd 0 p.vc (· - 1) g.coming } else s
  let s2 := s1.enqueue l p.vc src p
  if g.upOrHold then s2 else s2.rechooseVc l p.vc
/-- The sequencer's station takes a write of a loading and acknowledges it (R71, R89). -/
def State.pmemTake (s : State) (q : Nat) (l : Load) : State :=
  let r := s.range q
  let w := (l.addr - pmemWindow q) / 32
  let ack : Load := { l with kind := .ack, dq := l.sq, ds := l.ss, sq := q, ss := 15, data := [], poi := [] }
  s.setRange q { r with
    pmem := (List.range (2 * l.lines)).foldl (fun m j => put 0 (w + j) (BitVec.ofNat 256 (bundleAt l.data j)) m) r.pmem,
    gateLoads := r.gateLoads ++ [(15, ack)] }
/-- MOVER_LOAD_ARRIVAL at station `st` from a loop in the current cycle (R82). -/
def State.loadArrival (s : State) (q st loop : Nat) : State :=
  let r := s.range q
  let n := slotAt loop st r.cyc
  match (r.slot loop n).load with
  | none => s
  | some l =>
    let s1 := s.setRange q (r.setSlot loop n { r.slot loop n with load := none })
    if l.exit q ≠ st ∨ r.overtakes q loop l = true then s
    else if st = 0 ∧ l.dq ≠ q then
      (if r.brOut.length < 64 then s1.setRange q { (s1.range q) with brOut := r.brOut ++ [l] } else s)
    else if st = 5 then (if r.stn.movq.length < 64 then s1.setStn q { (s1.stn q) with movq := r.stn.movq ++ [l] } else s)
    else match hobAt st with
      | some i =>
        let x := s.hob (8 * q + i)
        if hobLines x + l.lines ≤ 128 then s1.setHob (8 * q + i) { x with buf := x.buf ++ [l] } else s
      | none =>
        if st = 15 then s1.pmemTake q l
        else match l.pkt, gateAt q st with
          | some (src, p), some g => s1.packetHome g src p
          | _, _ => s1.home l

/-! ### Mover access to hob SRAM (R42, R43) -/

/-- The line that an access of the buffer reaches next: for a read, as many lines are done as it holds marks. -/
def Load.nextLine (l : Load) (h : Nat) : Nat := (l.addr - sramBase h) / 64 + (if l.kind = .readReq then l.poi.length else 0)
/-- Every line the access still has to reach. -/
def Load.linesLeft (l : Load) (h : Nat) : List Nat := (List.range (l.lines - (if l.kind = .readReq then l.poi.length else 0))).map fun j => l.nextLine h + j
/-- The first access of the buffer whose next line's bank is free and waits for no earlier access of that line. -/
def bufPick (h : Nat) (busy : List Nat) : List Load → List Nat → Nat → Option Nat
  | [], _, _ => none
  | l :: r, before, i =>
    let n := l.nextLine h
    if !busy.contains (n % 48) && !before.contains n then some i else bufPick h busy r (before ++ l.linesLeft h) (i + 1)
/-- Performs one line of access `i`; a whole access is answered from the hob's station. -/
def State.bufLine (s : State) (h i : Nat) : State :=
  let x := s.hob h
  match x.buf[i]? with
  | none => s
  | some l =>
    let n := l.nextLine h
    let back (k : LoadKind) (d : Bytes) (p : List Bool) : Load :=
      { l with kind := k, dq := l.sq, ds := l.ss, sq := h / 8, ss := hobStation (h % 8), data := d, poi := p }
    match l.kind with
    | .write =>
      let s1 := s.setSramLine h n (l.data.take 64) (l.poi.headD false)
      if l.lines ≤ 1 then s1.setHob h { x with buf := x.buf.eraseIdx i, outLoads := x.outLoads ++ [back .ack [] []] }
      else s1.setHob h { x with buf := x.buf.set i { l with addr := l.addr + 64, lines := l.lines - 1, data := l.data.drop 64, poi := l.poi.tail } }
    | _ =>
      let (d, p) := s.sramLine h n
      let l1 := { l with data := l.data ++ d, poi := l.poi ++ [p] }
      if l.lines ≤ l1.poi.length then s.setHob h { x with buf := x.buf.eraseIdx i, outLoads := x.outLoads ++ [back .readData l1.data l1.poi] }
      else s.setHob h { x with buf := x.buf.set i l1 }
/-- MOVER_BUFFER_ACCESS in the current cycle `c`. Log 85, DEDUCED. -/
def State.bufAccess (s : State) (h c : Nat) : State :=
  let x := s.hob h
  let busy := get [] c x.bankUse
  match bufPick h busy x.buf [] 0 with
  | none => s
  | some i =>
    let b := ((x.buf[i]?.map fun l => l.nextLine h).getD 0) % 48
    let s1 := s.bufLine h i
    let y := s1.hob h
    s1.setHob h { y with bankUse := put [] c (busy ++ [b]) y.bankUse }
/-- Every access in the buffer completes (R43). -/
def State.bufFlush (s : State) (h : Nat) : Nat → State
  | 0 => s
  | n + 1 => if (s.hob h).buf = [] then s else State.bufFlush (s.bufLine h 0) h n

/-! ### The mantel and the spine (R101, R102, R490, R494, R497) -/

/-- The mantel answers a load. -/
def State.answer (s : State) (l : Load) (status : Nat) (k : LoadKind) (d : Bytes) (p : List Bool) : State :=
  { s with mantelOut := s.mantelOut ++ [{ l with kind := k, dq := l.sq, ds := l.ss, sq := 4, ss := 0, data := d, poi := p, status := status }] }
/-- A load reaches the mantel: CSR space is served at once, a window write waits for its row, or is refused where no row
takes it. -/
def State.mantelTake (s : State) (l : Load) : State :=
  let a := l.addr
  match s.kindAt a with
  | 3 =>
    if l.kind = .write then (s.csrWriteBytes a l.data).answer l 0 .ack [] []
    else s.answer l 0 .readData (s.csrReadBytes a (16 * l.lines)) (List.replicate l.lines false)
  | 5 => let op := le l.data 8 1; if op = 1 ∨ op = 2 then { s with mantel := s.mantel ++ [l] } else s.answer l 8 .ack [] []
  | 6 => if (postTarget a).isSome ∧ l.lines = 1 then { s with mantel := s.mantel ++ [l] } else s.answer l 8 .ack [] []
  | _ => { s with mantel := s.mantel ++ [l] }
/-- Takes the oldest load that waits at the mantel and satisfies `f`. -/
def State.popMantel (s : State) (f : Load → Bool) : Option (Load × State) :=
  if s.mantelOff then none else (s.mantel.find? f).map fun l => (l, { s with mantel := s.mantel.eraseP f })
/-- Chip from which a load comes. -/
def State.loadChip (s : State) (l : Load) : Nat := match l.org with | .remote id _ => (get {} id s.remote).pkt.src | _ => s.rt.chip
/-- What stands in the inbound queue of a running quarter for the units at its bridge reaches them (R103). -/
def State.settleIn (s : State) (q : Nat) : State :=
  let r := s.range q
  if r.halted then s
  else (r.brIn.filter fun l => l.ds == 0).foldl (fun s l => s.home l) (s.setRange q { r with brIn := r.brIn.filter fun l => l.ds != 0 })
/-- A stop has room for a load (R101). -/
def State.spineRoom (s : State) (d : Nat) : Bool := d == 4 || decide ((s.range d).brIn.length < 64)
/-- A load is delivered to a stop: at the mantel, to the unit that waits for it or to be performed there; else to the inbound queue. -/
def State.spineTo (s : State) (d : Nat) (l : Load) : State :=
  if d = 4 then (match l.kind with | .ack => s.home l | .readData => s.home l | _ => s.mantelTake l)
  else
    let r := s.range d
    (s.setRange d { r with brIn := r.brIn ++ [l] }).settleIn d
/-- What a stop has for the spine: nothing while its quarter is halted (R103). -/
def State.spineOut (s : State) (src : Nat) : List Load := if src = 4 then s.mantelOut else if (s.range src).halted then [] else (s.range src).brOut
/-- A stop has a load for a stop that has room. -/
def State.spineReady (s : State) (src : Nat) : Bool := (s.spineOut src).any fun l => s.spineRoom l.dq
/-- The stop whose turn it is, after the one that the spine has served last (R102). -/
def State.spineTurn (s : State) : Option Nat := ((List.range 5).map fun i => (s.spineLast + 1 + i) % 5).find? fun k => s.spineReady k
/-- SPINE_DELIVERY from one stop, whose turn it is, to another that has room: the oldest load for it (R102). Log 89, DEDUCED. -/
def State.spineDeliver (s : State) (src dst : Nat) : State :=
  let out := s.spineOut src
  match (if s.mantelOff || s.spineTurn != some src || !s.spineRoom dst then none else out.find? fun l => l.dq == dst) with
  | none => s
  | some l =>
    let rest := out.eraseP fun l => l.dq == dst
    let s0 := { s with spineLast := src }
    let s1 := if src = 4 then { s0 with mantelOut := rest } else (s0.setRange src { s0.range src with brOut := rest }).settleBridge src
    s1.spineTo dst l

end Sys2Proof.Machine
end

