-- ==== Sys2Proof/WellFormed.lean ====
section
/-! DEFINITION. The commands that are well formed: those whose operands name something that can happen at the part's pins and units.
The other operands are held in range by their types. -/
namespace Sys2Proof

/-- Severities of bursts: none, corrected or uncorrectable (08_hbm_under_schedule.md R262). -/
def eccOk (l : List Nat) : Bool := l.all fun x => decide (x ≤ 2)
/-- An entry for a quarter, at most one each. -/
def quartersOk (l : List Nat) : Bool := l.all (fun q => decide (q < 4)) && decide l.Nodup
def SeamEnv.wf (v : SeamEnv) : Bool :=
  quartersOk (v.tq.map fun e => e.1) && quartersOk (v.bridge.map fun e => e.1) && quartersOk (v.station.map fun e => e.1)
/-- Trims of the bridge and the station of each quarter, 0 to 63 (12_clocks_and_references.md Table 12.7). -/
def trimsOk (l : List (Nat × Nat)) : Bool := l.length == 4 && l.all fun e => decide (e.1 < 64) && decide (e.2 < 64)
/-- A flash of at most 2^31 bits whose listed bytes lie within it and do not overlap (14_boot_and_configuration.md R428). -/
def Flash.wf (f : Flash) : Bool :=
  decide (f.size ≤ 31) && (f.parts.all fun p => decide (8 * (p.1 + p.2.length) ≤ 2 ^ f.size))
    && decide (f.parts.Pairwise fun x y => x.1 + x.2.length ≤ y.1)
def BootEnv.wf (v : BootEnv) : Bool :=
  v.flash.wf && v.trims.length == 4 && (v.naks.all fun d => decide (d < 8)) && decide v.naks.Nodup && decide (v.avsMv < 1024)
/-- A training frame of 64 bytes, or none, on each of eight lanes (09_fenxia_link.md R273). -/
def TrainResult.wf (r : TrainResult) : Bool := r.frames.length == 8 && r.frames.all fun f => f.length == 64 || f.length == 0
/-- Symbol corrections for each of eight lanes; a flit can lie in an uncorrectable codeword only where there is one (09_fenxia_link.md R289). -/
def FecReport.wf (f : FecReport) : Bool := f.lanes.length == 8 && (!f.hit || decide (0 < f.uncorrectable))
/-- A data slot of a link (09_fenxia_link.md R270). -/
def dataSlot (n : Nat) : Bool := n % 32 != 31
/-- A header flit and up to fifteen payload flits (09_fenxia_link.md R283). -/
def packetLen (b : Bytes) : Bool := decide (64 ≤ b.length) && decide (b.length ≤ 1024) && b.length % 64 == 0
/-- An Ethernet frame without its preamble, from an address pair and a type on. -/
def frameLen (b : Bytes) : Bool := decide (14 ≤ b.length) && decide (b.length ≤ 9216)
/-- A debugger's access to CSR space is one aligned word; to the local address space, some bytes of it (16_address_map_common_registers.md R494). -/
def DebugOp.wf (o : DebugOp) : Bool :=
  match o with
  | .select => true | .halt => true | .step => true | .release => true
  | .readWord a => a.toNat % 4 == 0
  | .writeWord a _ => a.toNat % 4 == 0
  | .readLocal a n => decide (a.toNat + n ≤ 2 ^ 40)
  | .writeLocal a b => decide (a.toNat + b.length ≤ 2 ^ 40)

/-- A command that can happen. -/
def Instr.wf (i : Instr) : Bool :=
  match i with
  | .csrWrite _ a _ => a.toNat % 4 == 0
  | .otpWrite _ a _ => a.toNat % 4 == 0
  | .group _ _ ecc => eccOk ecc
  | .seamStart _ v => v.wf
  | .hbmMoverAccess _ _ _ ecc => eccOk ecc
  | .trainComplete _ r => r.wf
  | .controlFlit _ b item => b.length == 64 && !dataSlot item.slot && item.fec.wf
  | .headerCrcFail _ b item => b.length == 64 && dataSlot item.slot && item.fec.wf
  | .bfSend _ frame _ => frameLen frame
  | .bfPut _ frame _ => frameLen frame
  | .bfGet _ frame _ => frameLen frame
  | .getrsp _ frame _ => frameLen frame
  | .bfFlush _ frame _ => frameLen frame
  | .bfChpost _ frame _ => frameLen frame
  | .ack _ frame _ => frameLen frame
  | .connect _ frame _ => frameLen frame
  | .accept _ frame _ => frameLen frame
  | .arpRequest _ frame _ => frameLen frame
  | .neighbourSolicitation _ frame _ => frameLen frame
  | .echoRequest _ frame _ => frameLen frame
  | .pauseFrame _ frame _ => frameLen frame
  | .witnessWindow _ ppm => ppm.all fun e => decide (e.1 < 20)
  | .changeover trims => trims.length == 4
  | .simmerExit v trims => v.wf && trimsOk trims
  | .coldReset _ _ v => v.wf
  | .warmReset v => v.wf
  | .flashRetry v => v.wf
  | .deployMessage ecc => eccOk ecc
  | .restartReset _ v => v.wf
  | .debug op => op.wf
  | .linkPacketReceive _ b item => packetLen b && dataSlot item.slot && item.fec.wf
  | .receivedFrame _ frame _ => frameLen frame
  | .powerGoodReport _ _ v => v.wf
  | .intClassClear _ _ _ | .intSourceClear _ _ _ | .comTagWrite _ _ | .logCursorWrite _ _ | .step _ _ | .swap _ _ | .aslv _ _ | .readout _ _
  | .zero _ _ | .apset _ _ | .planeLoad _ _ | .asld _ _ | .slotLoad _ _ _ | .slotPeek _ _ _ | .slotStore _ _ | .add _ _ | .mul _ _ | .fma _ _
  | .min _ _ | .max _ _ | .cmpEq _ _ | .cmpNe _ _ | .cmpLt _ _ | .cmpLe _ _ | .sel _ _ | .exp2 _ _ | .log2 _ _ | .rsqrt _ _ | .rcp _ _ | .rsum _ _
  | .rmax _ _ | .rmin _ _ | .cvtTo _ _ | .cvtFrom _ _ | .mov _ _ | .inToSram _ _ _ | .inToPlane _ _ _ | .inToVreg _ _ _ | .outFromSram _ _ _
  | .outFromVreg _ _ _ | .cxt _ _ | .hrelSet _ _ | .gset _ _ | .grst _ _ | .gapStart _ _ | .lout _ _ | .win _ _ | .send _ _ | .move _ _ | .qx _ _
  | .cset _ _ | .loop _ _ | .djnz _ _ | .jmp _ _ | .flag _ _ | .localRun _ _ | .localWindowEnd _ _ | .bend _ _ | .wait _ _ | .waitEnd _ _
  | .overrun _ _ | .lcset _ _ | .lloop _ _ | .ldjnz _ _ | .ljmp _ _ | .loopSlotExpire _ _ _ _ | .moverSlotFill _ _ _ | .moverLoadArrival _ _ _ _
  | .moverBufferAccess _ _ | .spineDelivery _ _ | .moverOpIssue _ _ _ | .descriptorComplete _ _ | .chainFetchDone _ _ | .moverTimeout _ _ _
  | .quarterResume _ _ _ | .stkBeatTick | .admission | .entryResident _ | .entryRelease _ | .epochOpen | .stall _ _ | .poll _ _ | .answer _ _
  | .deadlock _ _ | .flaginc _ _ | .msg _ _ | .messagePlaced _ | .messageAbandon _ _ | .contrib _ _ | .contributionWrite | .roundSum _
  | .roundComplete _ | .refreshTick _ _ _ | .hbmTempRead _ _ | .stagingConfirm | .stagingRelease | .trainStart _ | .trainTimeout _
  | .packetTransmit _ | .replayTimeout _ | .silence _ | .creditTimeout _ _ | .brokenIdleEnd _ | .laneFailure _ _ | .drainTimeout _ | .write _ _
  | .read _ _ | .resp _ _ | .dwrite _ _ | .dfetch _ _ | .dmsg _ _ | .transit _ _ | .datagramTransitTimeout _ | .ping _ _ | .pong _ _
  | .mgmtLinkDisable _ _ | .mgmtLinkEnable _ _ | .result _ _ | .postWorkRequest | .postReceive | .postTriggered | .wrSend _ | .wrPut _ | .wrGet _
  | .wrFlush _ | .wrChpost _ | .prefetch _ | .revoke _ | .wrArm _ | .cntAdd _ | .cntSet _ | .flagAdd _ | .receiveComplete _ | .regionClosed _
  | .bfRto _ | .rnrDelay _ | .ethLinkChange _ _ | .referenceLost _ | .referencePresent _ | .avsAck _ _ _ | .avsAckTimeout | .irailRead _
  | .damperStep _ | .smbalert _ _ _ _ | .smbalertRepeat _ _ _ _ | .thermtrip _ _ | .wakeN _ | .sidebandAddressMatch | .powerLoss | .ethWait
  | .deploySessionRetry | .load | .arm | .disable | .enable | .remove | .areaCreate | .areaRelease | .data | .dataExpect | .staging | .chOpen
  | .chClose | .chDisable | .chEnable | .qpCreate | .qpReset | .qpDestroy | .regCreate | .regRemove | .linkDisable | .linkEnable | .mgmtRequest
  | .start | .restart | .flashWrite _ | .ledger _ | .watchdog | .mailboxRead _ _ | .getStatus _ _ | .getIdentity _ _ | .getTelemetry _ _
  | .logRead _ _ _ _ | .csrRead _ _ _ _ | .ledgerRead _ _ _ _ | .sleep _ _ _ _ | .alertAck _ _ _ _ _ | .enec _ _ | .disec _ _ | .rstdaa | .entdaa _
  | .setdasa _ _ | .setnewda _ _ | .getpid _ | .getbcr _ | .getdcr _ | .getmwl _ | .getmrl _ | .getstatus _ | .extest _ _ | .idcode
  | .samplePreload _ _ | .clamp | .highz | .extestPulse _ _ | .extestTrain _ _ | .bypass | .tapReset | .commandFrame _ _ _ | .coldResetNAssert _
  | .warmResetNAssert _ | .serviceCoreError | .powerGoodTimeout => true

end Sys2Proof
end

