-- ==== Sys2Proof/Machine/Link.lean ====
section
/-! DEFINITION. The Fenxia link layer (09_fenxia_link.md R272 to R299, R303) and what a change of a link's state does to the part's
routing (10_fabric_and_partitions.md R313, R329). -/
namespace Sys2Proof.Machine

/-! ### Reachability (R329) -/

/-- A chip has no usable exit for a packet of class REQ on any of its VCs. -/
def State.noWay (s : State) (x : Nat) : Bool := x != s.rt.chip && [0, 4, 6].all fun v => (s.exitFor 0 x v).isNone
/-- The chips that are unreachable, as a mask. -/
def State.unreachMask (s : State) : BitVec 256 :=
  BitVec.ofNat 256 ((List.range 256).foldl (fun m x => if s.noWay x then m + 2 ^ x else m) 0)
/-- Operations of a mover that await a RESP of chip `x` fail with PEER_LOST. -/
def Mover.peerLost (v : Mover) (x : Nat) : Mover :=
  { v with q := v.q.map fun d =>
      if d.ops.any fun o => o.peer == some x then
        { d with ops := d.ops.filter fun o => o.peer != some x, err := match d.err with | some e => some e | none => some 0x21 }
      else d }
def State.moversPeerLost (s : State) (x : Nat) : State :=
  (List.range 4).foldl (fun s q => (List.range 8).foldl (fun s m => s.setMover q m ((s.mover q m).peerLost x)) s) s
/-- A POLL of the open epoch to `x` fails (R189). -/
def State.pollLost (s : State) (x : Nat) : State :=
  if s.stk.openEpoch.isSome ∧ s.stk.members.contains x = true ∧ (get none x s.stk.answers).isNone then
    { s with stk := { s.stk with answers := put none x (some { stalled := true, rid := 0xFFFFFFFF }) s.stk.answers } }
  else s
/-- PREFETCHes from chip `x` that have not left fail (R377). -/
def State.prefetchLost (s : State) (x : Nat) : State :=
  let tags := s.trn.qps.flatMap fun e => (e.2.ops.filter fun o => wrKind o.raw == 6 && !o.done && wrArg o.raw / 2 ^ 40 == x).map fun o => o.id
  { s with trn := { s.trn with home := s.trn.home ++ tags.map fun t => (t, 0x21) } }
/-- Chip `x` becomes unreachable. -/
def State.peerLost (s : State) (x : Nat) : State :=
  (((s.moversPeerLost x).pollLost x).prefetchLost x).log 0x0606 .fabric .service none [x]
/-- Reachability is judged again after a link has changed its state. -/
def State.refreshReach (s : State) (event : State → State) : State :=
  let now := s.unreachMask
  let lost := (List.range 256).filter fun x => now.getLsbD x && !s.rt.unreach.getLsbD x
  lost.foldl (fun (s : State) x => s.peerLost x) (event ({ s with rt := { s.rt with unreach := now } }).checkLeader)
/-- A link has changed its state: exits are chosen again (R313), and reachability is judged; `event` logs what the change of
state itself is to log, at its place by code (R476). -/
def State.linkChangedBy (s : State) (l : Nat) (event : State → State) : State := ((s.rechoose l).rechooseAll).refreshReach event
def State.linkChanged (s : State) (l : Nat) : State := s.linkChangedBy l id

/-! ### Link states (Table 9.3) -/

/-- The part lets links train: from bring-up step 7 on, in RUN or SIMMER (R272, R420, R481). -/
def State.mayTrain (s : State) : Bool := decide (7 ≤ s.boot.step) && !s.pwr.sleeping && s.svc.mode != 4
/-- What a link loses on leaving UP, HOLD or DRAIN: its replay state and what it awaited. -/
def Gate.unlinked (g : Gate) : Gate :=
  { g with replay := [], resend := [], nakPend := false, dgOut := [], cindexBad := 0, narrowReq := false, narrowSent := false, failed := 0, lost := false,
           hdrAt := none, nakWait := none, phold := false, pdrain := false, prbEmpty := false, pnarrow := false }
/-- A gate in DOWN, where 10 ms have to pass anew (Table 9.3). -/
def Gate.toDown (g : Gate) : Gate := { g with state := .down, rested := false }
/-- A disable has taken effect (R281). -/
def Gate.disabled (g : Gate) : Gate := { g with en := false, disPend := false, disDue := false }
/-- A link enters DOWN. -/
def State.linkDown (s : State) (l : Nat) : State := (s.setGate l (s.gate l).unlinked.toDown).linkChanged l
/-- The packets of a replay buffer are declared lost: counted, and their sources told (R303). Log 107, DEDUCED. -/
def State.declareLost (s : State) (l : Nat) (ps : List Packet) : State :=
  (ps.filter fun p => noticeOps false p.op).foldl (fun s p => s.respond l p 0x20 []) (s.bumpGate l 0x94 (BitVec.ofNat 32 ps.length))
/-- A link in UP or HOLD enters BROKEN for a reason of Table 9.11 (R303); a disable that was to take effect at the end of HOLD takes effect
there, and the link is DOWN at once (R281). Log 96, DEDUCED. -/
def State.linkBreak (s : State) (l reason : Nat) : State :=
  let g := s.gate l
  if g.upOrHold then
    let ps := g.replay
    let g1 := { g.unlinked with state := .broken, brk := reason }
    let s1 := s.setGate l (if g.disDue then g1.disabled.toDown else g1)
    ((s1.bumpGate l 0x98 1).linkChangedBy l fun s => s.log 0x0604 .fabric (.link l) none [l, reason, ps.length]).declareLost l ps
  else s
/-- Training frames of the two ends carry these (Table 9.4). -/
def trainMarker : Nat := 0x0FF05AA5C33C9669
/-- The training frame of link `l` on logical lane `lane` in a step of Table 9.5; `good` is what its receiver reports in GOODRX. -/
def State.trainFrame (s : State) (l lane step : Nat) (good : BitVec 8) : Bytes :=
  let g := s.gate l
  let b := toBytes 8 trainMarker ++ toBytes 1 lane ++ toBytes 1 step ++ List.replicate 6 0 ++ toBytes 1 s.rt.chip ++ toBytes 1 s.rt.part ++ toBytes 1 l
    ++ [1] ++ toBytes 1 g.vcmask.toNat ++ toBytes 1 good.toNat ++ [0, 0] ++ ((List.range 8).flatMap fun v => toBytes 2 (get 0 v g.limit)) ++ List.replicate 22 0
  b ++ toBytes 2 (crc16 b)
/-- The gate sends training frames of a step on its eight lanes (R273). Log 102, DEDUCED. -/
def State.sendFrames (s : State) (l step : Nat) (good : BitVec 8) : State :=
  (List.range 8).foldl (fun s m => s.emit (.lane l m (s.trainFrame l m step good))) s
/-- A link enters TRAIN. -/
def State.enterTrain (s : State) (l : Nat) : State := (s.setGate l { s.gate l with state := .train, rested := false }).sendFrames l 1 0
/-- A training frame counts when its CRC checks, behind its marker (R273). -/
def frameCounts (b : Bytes) : Bool := b.length == 64 && le b 0 8 == trainMarker && crc16 (b.take 62) == le b 62 2
/-- The logical order of the lanes (R268): `some true` where they are reversed, `none` where the frames that count show neither order. -/
def laneOrder (frames : List Bytes) : Option Bool :=
  let fs := frames.zipIdx.filter fun e => frameCounts e.1
  if fs = [] then none
  else if fs.all fun e => le e.1 8 1 == e.2 then some false
  else if fs.all fun e => le e.1 8 1 + e.2 == 7 then some true
  else none
/-- Logical lanes good in both directions (R279): a frame that counts has come on the lane, the own receiver holds it, and the partner's GOODRX
names it. -/
def goodLanes (r : TrainResult) : BitVec 8 :=
  (r.frames.filter frameCounts).foldl (fun m f =>
    let n := le f 8 1
    if r.good.getLsbD n && (le f 21 1).testBit n then m ||| BitVec.twoPow 8 n else m) 0
/-- The frame from which the partner's parameters are taken: the first that counts. -/
def partnerFrame (r : TrainResult) : Bytes := ((r.frames.filter frameCounts).head?).getD []
/-- A link enters UP, or HOLD where a cause of HOLD stands (R276, R277); `f` is the partner's frame. -/
def State.linkUp (s : State) (l : Nat) (f : Bytes) (reversed : Bool) (polarity : BitVec 8) (narrow half : Bool) : State :=
  let g := s.gate l
  let g1 := { g.unlinked with
    state := if g.holdWhy = 0 then .up else .hold, narrow := narrow, half := half, reversed := reversed, polarity := polarity,
    pchip := le f 16 1, plink := le f 18 1 % 32, nts := 0, ers := 0, nds := 0, eds := 0, rnum := 0, ppmValid := false,
    plimit := (List.range 8).foldl (fun m v => put 0 v (le f (24 + 2 * v) 2 % 2048) m) [], nakSeq := 0, nakId := 0, actedNak := 0,
    dack := 0xFFF, pack := 0xFFF, pdack := 0xFFF, pocc := [], trainLogged := false, rested := false, txSlot := 0, rxSlot := 0 }
  (s.setGate l g1).linkChanged l
/-- The checks of R275, in the order of LINK_PARAM's codes; 0 where all hold. -/
def State.judgeParams (s : State) (l : Nat) (f : Bytes) : Nat :=
  if le f 19 1 ≠ 1 then 1
  else if le f 16 1 = s.rt.chip then 2
  else if le f 20 1 ≠ (s.gate l).vcmask.toNat then 3
  else if (List.range 8).any fun v => (s.gate l).active v && decide (le f (24 + 2 * v) 2 < 16) then 4
  else 0
/-- Width of a link (R279): narrow and half, or none. -/
def linkWidth (good : BitVec 8) : Option (Bool × Bool) :=
  if good = 0xFF then some (false, false)
  else if good &&& 0x0F = 0x0F then some (true, false)
  else if good &&& 0xF0 = 0xF0 then some (true, true)
  else none
/-- A training that fails: DOWN, and LINK_TRAIN_FAIL at the first failure since the link was last UP or enabled (R274). -/
def State.trainFail (s : State) (l : Nat) : State :=
  let g := s.gate l
  let s1 := s.setGate l { g.toDown with trainLogged := true }
  if g.trainLogged then s1 else s1.log 0x0601 .fabric (.link l) none [l]
/-- TRAIN_START: 10 ms have passed since the link entered DOWN. One that is not enabled yet, or may not train, leaves DOWN once it is. Log 43, DEDUCED. -/
def State.trainStart (s : State) (l : Nat) : State :=
  let g := s.gate l
  if g.state = .down then
    if g.en = true ∧ s.mayTrain = true then s.enterTrain l else s.setGate l { g with rested := true }
  else s
/-- TRAIN_COMPLETE: what the receiver holds is judged (R268, R273 to R275, R279); UP begins once the partner sends STEP 7. Log 102, DEDUCED. -/
def State.trainComplete (s : State) (l : Nat) (r : TrainResult) : State :=
  if (s.gate l).state = .train then
    let f := partnerFrame r
    match laneOrder r.frames, linkWidth (goodLanes r) with
    | some rev, some (narrow, half) =>
      if le f 9 1 < 6 then s
      else match s.judgeParams l f with
        | 0 => let s1 := s.sendFrames l 7 r.good; if le f 9 1 = 7 then s1.linkUp l f rev r.polarity narrow half else s1
        | c => (s.setGate l (s.gate l).toDown).log 0x0602 .fabric (.link l) none [l, c]
    | _, _ => s.trainFail l
  else s
/-- TRAIN_TIMEOUT. -/
def State.trainTimeout (s : State) (l : Nat) : State := if (s.gate l).state = .train then s.trainFail l else s
/-- BROKEN_IDLE_END (R303). -/
def State.brokenEnd (s : State) (l : Nat) : State :=
  let g := s.gate l
  if g.state = .broken then (if g.en && s.mayTrain then s.enterTrain l else s.setGate l g.toDown) else s

/-! ### Disable and DRAIN (R281) -/

/-- A gate enters DRAIN; a disable that was to take effect at the end of HOLD takes effect with it. -/
def State.enterDrain (s : State) (l : Nat) : State :=
  let g := s.gate l
  (s.setGate l { (if g.disDue then g.disabled else g) with state := .drain }).linkChanged l
/-- A disable takes effect: at once in DOWN, TRAIN and BROKEN; by DRAIN in UP; when HOLD ends in HOLD. -/
def State.disableLink (s : State) (l : Nat) : State :=
  let g := s.gate l
  match g.state with
  | .up => (s.setGate l g.disabled).enterDrain l
  | .hold => s.setGate l { g with disDue := true }
  | .drain => s.setGate l g.disabled
  | _ => (s.setGate l g.disabled).linkDown l
/-- A disable is accepted: it waits for the seam of the quarter, unless the link carries nothing (R161, R281). -/
def State.askDisable (s : State) (l : Nat) : State :=
  let g := s.gate l
  if g.upOrHold || g.state == .drain then s.setGate l { g with disPend := true } else s.disableLink l
/-- DRAIN ends with nothing to replay and the partner drained. -/
def State.drainEnd (s : State) (l : Nat) : State :=
  let g := s.gate l
  if g.state = .drain ∧ g.replay = [] ∧ g.pdrain = true ∧ g.prbEmpty = true then s.linkDown l else s
/-- DRAIN_TIMEOUT. -/
def State.drainTimeout (s : State) (l : Nat) : State :=
  let g := s.gate l
  if g.state = .drain then let s1 := s.linkDown l; s1.declareLost l g.replay else s

/-! ### Packets as bytes (Tables 9.6, 9.7) -/

/-- Payload flits of the packet that a header begins. -/
def hdrFlits (b : Bytes) : Nat := field (le b 1 1) 4 4
/-- The header check holds (R282). -/
def hcrcOk (b : Bytes) : Bool := crc16 (b.take 58) == le b 58 2
def pcrcOk (b : Bytes) : Bool := crc32c (b.take 60 ++ b.drop 64) == le b 60 4
/-- The bytes of a packet as a link carries them: the header with its two checks, then the payload (R282). -/
def packetBytes (p : Packet) : Bytes :=
  let data := p.flits.flatMap fun f => fit 64 f.1
  let poison := p.flits.zipIdx.foldl (fun m e => if e.1.2 then m + 2 ^ e.2 else m) 0
  let h := toBytes 1 p.op ++ toBytes 1 (p.vc % 8 + (if p.rack then 8 else 0) + 16 * p.flits.length) ++ toBytes 2 p.seq ++ toBytes 1 p.dst ++ toBytes 1 p.src
    ++ toBytes 1 p.part ++ toBytes 1 p.tenant ++ toBytes 1 p.hops ++ toBytes 1 poison ++ toBytes 2 p.tag ++ toBytes 1 p.sunit ++ toBytes 1 p.status ++ [0, 0]
    ++ toBytes 8 p.addr ++ toBytes 4 p.arg0 ++ toBytes 4 p.arg1 ++ toBytes 8 p.addr2 ++ List.replicate 18 0
  let h2 := h ++ toBytes 2 (crc16 h)
  h2 ++ toBytes 4 (crc32c (h2 ++ data)) ++ data
/-- The IDLE header (R283): its HCRC checks, every other field is zero. Log 156, DEDUCED. -/
def idleBytes : Bytes := let h : Bytes := List.replicate 58 0; h ++ toBytes 2 (crc16 h) ++ List.replicate 4 0
/-- A packet from its bytes, header first. -/
def parsePacket (b : Bytes) : Packet :=
  let vf := le b 1 1
  { op := le b 0 1, vc := vf % 8, rack := vf.testBit 3, seq := le b 2 2 % 4096, dst := le b 4 1, src := le b 5 1, part := le b 6 1 % 16, tenant := le b 7 1,
    hops := le b 8 1, tag := le b 10 2, sunit := le b 12 1, status := le b 13 1, addr := le b 16 8 % 2 ^ 40, arg0 := le b 24 4, arg1 := le b 28 4,
    addr2 := le b 32 8 % 2 ^ 40,
    resv := decide (4096 ≤ le b 2 2) || decide (16 ≤ le b 6 1) || le b 14 2 != 0 || decide (2 ^ 40 ≤ le b 16 8) || decide (2 ^ 40 ≤ le b 32 8) || le b 40 18 != 0,
    flits := (List.range (vf / 16)).map fun j => ((b.drop (64 + 64 * j)).take 64, (le b 9 1).testBit j) }
/-- IDLE: every other field zero, PCRC included. -/
def isIdle (b : Bytes) : Bool := ((b.take 58).all fun x => x == 0) && le b 60 4 == 0
/-- Is the VC one on which the OP is legal? -/
def opVcOk (op vc : Nat) : Bool :=
  match opClass op with
  | 0 => vc == 0 || vc == 4 || vc == 6
  | 1 => vc == 1 || vc == 7
  | 2 => vc == 2 || vc == 6
  | 3 => vc == 3 || vc == 6
  | _ => vc == 5
/-- The packet breaks Table 9.7 (R283, R285). Log 98, DEDUCED. -/
def Packet.malformed (p : Packet) : Bool :=
  let n := p.flits.length
  let noAddr := p.addr != 0
  let no2 := p.addr2 != 0
  let no0 := p.arg0 != 0
  let no1 := p.arg1 != 0
  let msg := decide (p.mlines = 0) || decide (64 < p.mlines) || decide (2 ^ 29 ≤ p.arg0)
  p.resv || !opVcOk p.op p.vc || (p.op != opResp && p.status != 0) ||
  match p.op with
  | 1 => n == 0 || decide (8 < n) || p.addr % 64 != 0 || no0 || no1 || no2
  | 2 => n != 0 || p.addr % 64 != 0 || p.arg0 == 0 || decide (8 < p.arg0) || no1 || no2
  | 3 => n == 0 || decide (8 < n) || msg || noAddr || no1 || no2
  | 4 => n == 0 || decide (8 < n) || decide (2 ^ 30 ≤ p.arg0) || noAddr || no1 || no2
  | 5 => n != 0 || decide (2 ^ 14 ≤ p.arg0) || noAddr || no2
  | 6 => n != 1 || noAddr || no0 || no1 || no2
  | 7 => decide (8 < n) || noAddr || no0 || no1 || no2
  | 8 => n == 0 || decide (8 < n) || p.addr % 64 != 0 || no0 || no1 || no2
  | 9 => n != 0 || p.arg0 == 0 || decide (1024 < p.arg0) || no1
  | 10 => n == 0 || decide (8 < n) || msg || noAddr || no1 || no2
  | 11 => decide (8 < n) || p.part != 0xF || noAddr || no0 || no1 || no2
  | _ => true

/-! ### Reception (R289, R293, R297, R325) -/

def flitsOf (ps : List Packet) : Nat := ps.foldl (fun n p => n + p.flitCount) 0
/-- A link accepts packets. -/
def Gate.accepts (g : Gate) : Bool := g.state == .up || g.state == .hold || g.state == .drain
/-- The receiver becomes NAK-pending unless it is, or always. -/
def Gate.nak (g : Gate) (always : Bool) : Gate :=
  if g.nakPend && !always then g else { g with nakPend := true, nakSeq := g.ers, nakId := g.nakId + 1 }
/-- Progress events of R187. -/
def State.packetProgress (s : State) (p : Packet) : State :=
  if p.part = s.rt.part ∧ p.dst = s.rt.chip ∧ (opClass p.op ≤ 2 ∨ p.op = opFlagInc) then s.noteProgress else s
/-- A packet other than a datagram that arrives on a link in HOLD during SIMMER is a wake event (R278), but for a POLL that the part itself
answers. Log 42, DEDUCED. -/
def State.packetWake (s : State) (l : Nat) (p : Packet) : State :=
  let poll := p.op == opStallp && p.dst == s.rt.chip && (match p.flits with | (b, _) :: _ => le b 0 1 == 2 | [] => false)
  if s.pwr.simmer && (s.gate l).state == .hold && p.vc != 5 && !poll then { s with pwr := { s.pwr with wakeEvt := true } } else s
/-- An accepted packet is judged under R325, and waits in its VC buffer. -/
def State.arrive (s : State) (l : Nat) (p : Packet) : State :=
  let s := s.packetWake l p
  if p.part ≠ s.rt.part ∧ p.part ≠ 0xF then { s with rt := { s.rt with pdrop := s.rt.pdrop + 1 } }
  else if p.part = 0xF ∧ ¬(p.op = opMgmt ∧ (p.vc = 3 ∨ p.vc = 6)) then { s with rt := { s.rt with mdrop := s.rt.mdrop + 1 } }
  else if p.malformed then
    let s1 := s.bumpGate l 0x9C 1
    if p.op ≠ opResp ∧ p.vc ≠ 5 then s1.refuse l p 8 else s1
  else
    let g := s.gate l
    (s.setGate l { g with rx := upd [] p.vc (· ++ [p]) g.rx }).packetProgress p
/-- The VC buffer has room for a packet (R297). -/
def Gate.room (g : Gate) (p : Packet) : Bool := decide (flitsOf (get [] p.vc g.rx) + p.flitCount ≤ get 0 p.vc g.limit)
/-- A datagram with a good header (R293). -/
def State.rxDatagram (s : State) (l : Nat) (p : Packet) (ok : Bool) : State :=
  let g := s.gate l
  let seq := BitVec.ofNat 12 p.seq
  let d := (seq - g.eds).toNat
  if d < 2048 then
    let s1 := (s.setGate l { g with eds := seq + 1, dack := seq }).bumpGate l 0xA0 (BitVec.ofNat 32 d)
    if !ok then s1.bumpGate l 0xA4 1
    else if (s1.gate l).room p then s1.arrive l p
    else s1.linkBreak l 4
  else (s.setGate l { g with dack := seq }).bumpGate l 0xA4 1
/-- A reliable packet with a good header (R289). -/
def State.rxReliable (s : State) (l : Nat) (p : Packet) (ok : Bool) : State :=
  let g := s.gate l
  let d := (BitVec.ofNat 12 p.seq - g.ers).toNat
  if d = 0 then
    if !ok then (s.setGate l (g.nak true)).bumpGate l 0x80 1
    else if g.room p then (s.setGate l { g with ers := g.ers + 1, nakPend := false }).arrive l p
    else s.linkBreak l 4
  else if 2048 ≤ d then s
  else s.setGate l (g.nak false)
/-- The FEC's report is counted (Table 9.14). -/
def State.noteFec (s : State) (l : Nat) (f : FecReport) : State :=
  let s1 := (s.bumpGate l 0x8C (BitVec.ofNat 32 f.corrected)).bumpGate l 0x90 (BitVec.ofNat 32 f.uncorrectable)
  let g := s1.gate l
  s1.setGate l { g with laneErr := f.lanes.zipIdx.foldl (fun m e => upd 0 e.2 (· + BitVec.ofNat 32 e.1) m) g.laneErr }
/-- The data slot `k` data slots behind data slot `n` (R270). -/
def slotAfter (n k : Nat) : Nat := let i := n - n / 32 + k; i + i / 31
/-- The receiver of a link that carries packets reaches the header in data slot `n`, which it has not reached before: it looks at it, unless
framing is lost and no NEXTHDR has located a header at or before it (R289). -/
def Gate.looksAt (g : Gate) (n : Nat) : Bool := !g.lost || (match g.hdrAt with | some h => decide (h ≤ n) | none => false)
/-- The slots to `n` have been received. -/
def Gate.received (g : Gate) (n : Nat) : Gate := { g with rxSlot := n + 1 }
/-- A slot that may come next. -/
def Gate.comes (g : Gate) (n : Nat) : Bool := g.accepts && decide (g.rxSlot ≤ n)
/-- LINK_PACKET_RECEIVE: the bytes of a packet whose header, in data slot `n`, has a good check. Flits that arrive while framing is lost are
discarded. -/
def State.linkReceive (s : State) (l : Nat) (b : Bytes) (n : Nat) (f : FecReport) : State :=
  let g := s.gate l
  if g.comes n && dataSlot n && hcrcOk b && decide (64 ≤ b.length) && decide (b.length = 64 * (1 + hdrFlits b)) then
    let s1 := (s.setGate l (g.received (slotAfter n (hdrFlits b)))).noteFec l f
    let g1 := s1.gate l
    if !g1.looksAt n then s1
    else
      let s2 := s1.setGate l { g1 with lost := false, hdrAt := none }
      if isIdle b then s2
      else
        let p := parsePacket b
        let ok := pcrcOk b && !f.hit
        if p.vc = 5 then s2.rxDatagram l p ok else s2.rxReliable l p ok
  else s
/-- HEADER_CRC_FAIL in data slot `n`: rule 1 of R289. Log 97, DEDUCED. -/
def State.headerFail (s : State) (l : Nat) (b : Bytes) (n : Nat) (f : FecReport) : State :=
  let g := s.gate l
  if g.comes n && dataSlot n && (f.hit || !hcrcOk b) then
    let s1 := (s.setGate l (g.received n)).noteFec l f
    let g1 := s1.gate l
    if g1.looksAt n then (s1.setGate l { (g1.nak false) with lost := true, hdrAt := none }).bumpGate l 0x84 1 else s1
  else s

/-! ### Control flits (R286, R290, R292) -/

/-- Packets of the replay buffer from sequence `n` on, where the buffer holds `k` packets before it. -/
def Gate.oldest (g : Gate) : BitVec 12 := match g.replay with | p :: _ => BitVec.ofNat 12 p.seq | [] => g.nts
/-- A replay of the packets held begins, or the link breaks (R292). Log 105, DEDUCED. -/
def State.startReplay (s : State) (l : Nat) (ps : List Packet) : State :=
  let g := s.gate l
  if ps = [] then s
  else if g.rnum = 8 then s.linkBreak l 1
  else (s.setGate l { g with resend := ps, rnum := g.rnum + 1 }).bumpGate l 0x88 1
/-- The half that both ends take, where there is one (R280): an end whose own receiver has no failed lane advertises the partner's half, and each
end changes once it has both sent and received NARROW. Log 100, DEDUCED. -/
def State.narrowLink (s : State) (l : Nat) : State :=
  let g := s.gate l
  if g.narrow || !g.pnarrow then s
  else if !g.narrowReq then s.setGate l { g with narrowReq := true, narrowHalf := g.phalf, narrowSent := false }
  else if g.narrowHalf != g.phalf then s.linkBreak l 6
  else if !g.narrowSent then s
  else (s.setGate l { g with narrow := true, half := g.phalf, narrowReq := false, narrowSent := false, failed := 0 }).log 0x0603 .corrected (.link l) none [l, bit1 g.phalf]
/-- A NAK is acted on (R290): the packets from its sequence on are sent again, or will be when HOLD ends (R277). -/
def State.actNak (s : State) (l : Nat) (n : BitVec 12) : State :=
  let g := s.gate l
  if g.state = .hold then s.setGate l { g with nakWait := some n }
  else s.startReplay l (g.replay.filter fun p => decide ((BitVec.ofNat 12 p.seq - n).toNat < 2048))
/-- A replay requested in HOLD starts when the link has left HOLD (R277). -/
def State.resumeReplay (s : State) (l : Nat) : State :=
  let g := s.gate l
  match g.nakWait with
  | some n => if g.state = .hold then s else (s.setGate l { g with nakWait := none }).actNak l n
  | none => s
/-- A control flit that counts, in control slot `n`. -/
def State.controlCounts (s : State) (l : Nat) (b : Bytes) (n : Nat) : State :=
  let g := s.gate l
  let ls := le b 1 1
  let ack := BitVec.ofNat 12 (le b 2 2)
  let nakSeq := BitVec.ofNat 12 (le b 4 2)
  let pend := (le b 4 2).testBit 12
  let nakId := BitVec.ofNat 4 (le b 2 2 / 4096)
  let held := g.replay.length
  let ackN := (ack + 1 - g.oldest).toNat
  let nakN := (nakSeq - g.oldest).toNat
  if held < ackN ∨ (pend = true ∧ held < nakN) then s.linkBreak l 5
  else
    let free := if pend then min ackN nakN else ackN
    let kept := g.replay.drop free
    let dack := BitVec.ofNat 12 (le b 6 2)
    let g1 := { g with
      cindexBad := 0, hdrAt := if g.lost then some (n + 1 + le b 8 1 % 16) else g.hdrAt, replay := kept, resend := g.resend.filter fun p => kept.any fun k => k.seq == p.seq,
      rnum := if free = 0 then g.rnum else 0, pack := ack, pdack := dack,
      dgOut := g.dgOut.filter fun e => decide (2048 ≤ (dack - BitVec.ofNat 12 e.1).toNat),
      pocc := (List.range 8).foldl (fun m v => put 0 v (le b (12 + 2 * v) 2) m) [],
      phold := ls % 8 == 3, pdrain := ls % 8 == 4, prbEmpty := ls.testBit 5, pnarrow := ls.testBit 3, phalf := ls.testBit 4 }
    let s1 := s.setGate l g1
    let s2 := if pend = true ∧ nakId ≠ g.actedNak then
        (s1.setGate l { g1 with actedNak := nakId }).actNak l nakSeq
      else s1
    let s3 := s2.narrowLink l
    let s4 := if ls % 8 = 4 ∧ (s3.gate l).upOrHold = true then s3.enterDrain l else s3
    s4.drainEnd l
/-- CONTROL_FLIT in control slot `n`. Log 100, DEDUCED. -/
def State.controlFlit (s : State) (l : Nat) (b : Bytes) (n : Nat) (f : FecReport) : State :=
  let g := s.gate l
  if g.comes n && !dataSlot n then
    let s1 := (s.setGate l (g.received n)).noteFec l f
    if crc32c (b.take 60) == le b 60 4 && decide (b.length = 64) then
      if le b 9 1 = n / 32 % 256 then s1.controlCounts l b n
      else if g.cindexBad = 0 then s1.setGate l { s1.gate l with cindexBad := 1 }
      else s1.linkBreak l 5
    else s1
  else s
/-- REPLAY_TIMEOUT (R291): counted only outside HOLD on both sides. -/
def State.replayTimeout (s : State) (l : Nat) : State :=
  let g := s.gate l
  if (g.state == .up || g.state == .drain) && !g.phold && g.replay ≠ [] then s.startReplay l g.replay else s
/-- SILENCE (R287). -/
def State.silence (s : State) (l : Nat) : State :=
  let g := s.gate l
  if g.state = .up ∧ g.phold = false then s.linkBreak l 3 else s

/-! ### Transmission (R270, R286, R288, R297, R298) -/

/-- Table 9.8: the control flit of slot `n` from the state of the gate's own receiver, with `k` payload flits of the packet in progress to come. -/
def Gate.controlBytes (g : Gate) (n k : Nat) : Bytes :=
  let st := match g.state with | .hold => 3 | .drain => 4 | _ => 2
  let ls := st + (if g.narrowReq then 8 else 0) + (if g.narrowReq && g.narrowHalf then 16 else 0) + (if g.replay.isEmpty then 32 else 0)
  let b := [0xFC] ++ toBytes 1 ls ++ toBytes 2 ((g.ers - 1).toNat + 4096 * g.nakId.toNat) ++ toBytes 2 (g.nakSeq.toNat + (if g.nakPend then 4096 else 0))
    ++ toBytes 2 g.dack.toNat ++ toBytes 1 k ++ toBytes 1 (n / 32) ++ [0, 0] ++ ((List.range 8).flatMap fun v => toBytes 2 (flitsOf (get [] v g.rx)))
    ++ List.replicate 32 0
  b ++ toBytes 4 (crc32c b)
/-- The control slots that come before the next data slot are sent. -/
def State.sendControl (s : State) (l k : Nat) : State :=
  let g := s.gate l
  if g.accepts && !dataSlot g.txSlot then
    ((s.setGate l { g with txSlot := g.txSlot + 1, narrowSent := g.narrowReq }).emit (.flit l g.txSlot (g.controlBytes g.txSlot k))).narrowLink l
  else s
/-- Payload flits of the packet in progress fill consecutive data slots, control slots between them (R270). Log 157, DEDUCED. -/
def State.sendPayload (s : State) (l : Nat) : List Bytes → State
  | [] => s
  | b :: r =>
    let s1 := s.sendControl l (r.length + 1)
    let g := s1.gate l
    State.sendPayload ((s1.setGate l { g with txSlot := g.txSlot + 1 }).emit (.flit l g.txSlot b)) l r
/-- A packet's flits, header first, from the next data slot on. -/
def State.sendBytes (s : State) (l : Nat) (b : Bytes) : State :=
  let g := s.gate l
  ((s.setGate l { g with txSlot := g.txSlot + 1 }).emit (.flit l g.txSlot (b.take 64))).sendPayload l
    ((List.range (b.length / 64 - 1)).map fun j => (b.drop (64 + 64 * j)).take 64)

/-- Credit of a VC in flits (R297). -/
def Gate.creditOf (g : Gate) (v : Nat) : Int :=
  let out := if v = 5 then g.dgOut.foldl (fun n e => n + e.2) 0 else flitsOf (g.replay.filter fun p => p.vc == v)
  ((get 0 v g.plimit : Nat) : Int) - (get 0 v g.pocc : Nat) - (out : Nat)
/-- The head packet of a VC that its credit and the replay buffer allow. -/
def Gate.sendable (g : Gate) (v : Nat) : Option Packet :=
  match get [] v g.waiting with
  | w :: _ =>
    let n := w.pkt.flitCount
    if (n : Int) ≤ g.creditOf v ∧ (v = 5 ∨ (flitsOf g.replay + n ≤ 2048 ∧ g.replay.length < 1024)) then some w.pkt else none
  | [] => none
/-- A VC has a waiting packet that its credit does not allow (R299). -/
def Gate.starves (g : Gate) (v : Nat) : Bool :=
  match get [] v g.waiting with
  | w :: _ => decide (g.creditOf v < (w.pkt.flitCount : Int))
  | [] => false
/-- VCs in the order in which the next packet is chosen, each with whether it is served round-robin. -/
def Gate.sendOrder (g : Gate) : List Nat := [3, 1] ++ (List.range 6).map fun i => [0, 2, 4, 5, 6, 7].getD ((g.rr + i) % 6) 0
/-- Place of a VC in the round-robin. -/
def rrPlace (v : Nat) : Nat := match v with | 0 => 0 | 2 => 1 | 4 => 2 | 5 => 3 | 6 => 4 | _ => 5
/-- A packet starts on a VC. -/
def State.startPacket (s : State) (l v : Nat) (p : Packet) : State :=
  let g := s.gate l
  let rr := if v = 3 ∨ v = 1 then g.rr else (rrPlace v + 1) % 6
  let g1 := { g with waiting := upd [] v List.tail g.waiting, rr := rr }
  if v = 5 then
    let p1 := { p with seq := g.nds.toNat }
    let s1 := (s.setGate l { g1 with nds := g.nds + 1, dgOut := g.dgOut ++ [(g.nds.toNat, p.flitCount)] }).sendBytes l (packetBytes p1)
    if p.op = opDfetch ∧ p.sunit = sunitTransport ∧ p.src = s.rt.chip then
      { s1 with trn := { s1.trn with home := s1.trn.home ++ [(p.tag, 0)] } }
    else s1
  else
    let p1 := { p with seq := g.nts.toNat }
    (s.setGate l { g1 with nts := g.nts + 1, replay := g.replay ++ [p1] }).sendBytes l (packetBytes p1)
/-- What the gate starts in a data slot (R298): a replay, the head packet of a VC, or IDLE. -/
def State.startSlot (s : State) (l : Nat) : State :=
  let g := s.gate l
  if g.state = .hold then s.sendBytes l idleBytes
  else match g.resend with
    | p :: rest => (s.setGate l { g with resend := rest }).sendBytes l (packetBytes p)
    | [] =>
      match (if g.state = .up then g.sendOrder.findSome? fun v => (g.sendable v).map fun p => (v, p) else none) with
      | some (v, p) => (s.startPacket l v p).rechooseAll
      | none => s.sendBytes l idleBytes
/-- PACKET_TRANSMIT: the gate of a link that carries flits sends the control slot that is due, then what it starts in the data slot behind it. -/
def State.transmit (s : State) (l : Nat) : State :=
  if (s.gate l).accepts then
    let s1 := s.sendControl l 0
    if (s1.gate l).accepts then s1.startSlot l else s1
  else s
/-- CREDIT_TIMEOUT (R299). -/
def State.creditTimeout (s : State) (l v : Nat) : State :=
  let g := s.gate l
  if g.state = .up ∧ g.phold = false ∧ g.starves v = true then s.linkBreak l 2 else s
/-- LANE_FAILURE: the own receiver judges a logical lane failed (R280). -/
def State.laneFail (s : State) (l : Nat) (m : Fin 8) : State :=
  let g := s.gate l
  let f := g.failed ||| BitVec.twoPow 8 m.val
  if !g.upOrHold then s
  else if g.narrow then (if g.half == decide (4 ≤ m.val) then s.linkBreak l 6 else s)
  else if f &&& 0x0F ≠ 0 ∧ f &&& 0xF0 ≠ 0 then s.linkBreak l 6
  else (s.setGate l { g with failed := f, narrowReq := true, narrowSent := g.narrowSent && g.narrowReq, narrowHalf := f &&& 0x0F != 0 }).narrowLink l

end Sys2Proof.Machine
end

