-- ==== Sys2Proof/Machine/Inbound.lean ====
section
/-! DEFINITION. What becomes of the packets that reach the part, from a link or from one of its own units: requests, responses, datagrams, the stall
protocol, transit and the management partition (09_fenxia_link.md R284, R294, R296, R300, R301; 10_fabric_and_partitions.md R308, R316 to R319, R327,
R328; 06_beats_and_the_stoker.md R188 to R190; 07_flags_channels_chimneys.md R201, R206, R214, R219, R229). -/
namespace Sys2Proof.Machine

/-! ### The head of a VC buffer (R277, R296) -/

/-- The head packet of a VC buffer, where nothing of it is on its way yet, the link's quarter runs or `halted` allows it, and it satisfies `f`. -/
def State.headRx (s : State) (l v : Nat) (halted : Bool) (f : Packet → Bool) : Option Packet :=
  let g := s.gate l
  match get [] v g.rx with
  | p :: _ => if f p && (get [] v g.moving).isEmpty && (halted || !(s.range (l / 5)).halted) then some p else none
  | [] => none
/-- That packet, and the state in which it has left the buffer. -/
def State.takeRx (s : State) (l v : Nat) (halted : Bool) (f : Packet → Bool) : Option (Packet × State) :=
  (s.headRx l v halted f).map fun p => (p, s.popRx l v)
/-- The packet is addressed to the part. -/
def State.ours (s : State) (op : Nat) (p : Packet) : Bool := p.op == op && p.dst == s.rt.chip
/-- A command on the head packet of a VC buffer that takes it at once, behind the WRITEs of its sender (R229). -/
def State.onPacket (s : State) (l v op : Nat) (f : State → Packet → State) : State :=
  match s.takeRx l v false fun p => s.ours op p && !s.behindWrite p with
  | some (p, s1) => f s1 p
  | none => s
/-- A command on the head packet of a VC buffer that decides itself when the packet leaves it. -/
def State.onHead (s : State) (l v op : Nat) (f : State → Packet → State) : State :=
  match s.headRx l v false fun p => s.ours op p && !s.behindWrite p with
  | some p => f s p
  | none => s
/-- A packet from VC buffer `v` of gate `l` ends here: it leaves its buffer; one of the part itself has none. -/
def State.leaveRx (s : State) (l v : Nat) : State := if l = atMantel then s else s.popRx l v
/-- A counter of the gate by which a packet came; a packet of the part itself came by none. -/
def State.bumpLink (s : State) (l off : Nat) : State := if l = atMantel then s else s.bumpGate l off 1

/-! ### Requests and responses (R284, R300, R301) -/

/-- Accepted, or refused with a code (R300). -/
def State.settleReq (r : State × Nat) (l : Nat) (p : Packet) : State := if r.2 = 0 then r.1.accept l p else r.1.refuse l p r.2
/-- WRITE (R284, R300). -/
def State.rxWrite (s : State) (l v : Nat) (p : Packet) : State :=
  match s.judgeAccess p.tenant p.addr p.flits.length true with
  | 0 => s.startRemote l v p .write p.flits.length
  | c => ((s.noteRefusal c p.src p.tenant p.addr true).leaveRx l v).refuse l p c
/-- READ (R284, R300). -/
def State.rxRead (s : State) (l v : Nat) (p : Packet) : State :=
  match s.judgeAccess p.tenant p.addr p.arg0 false with
  | 0 => s.startRemote l v p .readReq p.arg0
  | c => ((s.noteRefusal c p.src p.tenant p.addr false).leaveRx l v).refuse l p c
/-- What a response carries travels from its gate to the bridge at which its mover injects (R105). -/
def respLoad (l q m tag : Nat) (p : Packet) : Load :=
  { kind := if p.flits = [] then .ack else .readData, dq := q, ds := 0, sq := l / 5, ss := 10 + l % 5, lines := p.flits.length,
    data := p.flits.flatMap fun f => f.1, poi := p.flits.map fun f => f.2, status := p.status, tenant := p.tenant, org := .mover q m tag }
/-- RESP (R301, R331): a mover and a gate of another station get theirs in mover slots (R105), a unit of the mantel at once. One that answers a
mover's operation with another length than it asked for breaks Table 9.7 (R285); one that matches nothing is discarded. -/
def State.rxResp (s : State) (l v : Nat) (p : Packet) : State :=
  let n := p.sunit % 32
  if p.sunit / 32 = 1 then
    match (s.mover (n / 8) (n % 8)).q.findSome? fun d => d.ops.find? fun o => o.id == p.tag with
    | none => s.leaveRx l v
    | some o =>
      if p.status = 0 ∧ (if o.reading then o.len / 64 else 0) ≠ p.flits.length then (s.leaveRx l v).bumpLink l 0x9C
      else s.sendIn l v [respLoad l (n / 8) (n % 8) p.tag p]
  else if p.status = 0 then s.leaveRx l v
  else if p.sunit < 20 ∧ p.sunit ≠ l then
    s.sendIn l v [{ kind := .ack, dq := n / 5, ds := 10 + n % 5, sq := l / 5, ss := 10 + l % 5, status := p.status, tenant := p.tenant, org := .unit p.sunit p.tag }]
  else (s.leaveRx l v).unitFail p.sunit p.tag p.status
/-- MSG (R206, R214, R556). -/
def State.rxMsg (s : State) (l : Nat) (p : Packet) : State :=
  State.settleReq (s.msgArrive p.channel p.src p.sunit p.tag (some p.tenant) p.mlines p.moffset p.flits) l p
/-- CONTRIB (R219, R220); a forward of another part must fit its parent (R226). -/
def State.rxContrib (s : State) (l : Nat) (p : Packet) : State :=
  let fwd := p.sunit / 32 = 5
  let fits := !decide fwd || s.forwardFits p.channel p.src (p.tag % 4096)
  let r := s.contribArrive p.channel (some p.tenant) p.src p.cindex p.coffset p.flits fits
  State.settleReq (if fwd then { r.1 with fresh := r.1.fresh + 1 } else r.1, r.2) l p
/-- FLAGINC (R201). -/
def State.rxFlagInc (s : State) (l : Nat) (p : Packet) : State := State.settleReq (s.flagRemote p.tenant p.arg0 (BitVec.ofNat 32 p.arg1)) l p

/-! ### Datagrams (R294) -/

/-- DWRITE. -/
def State.rxDwrite (s : State) (l : Nat) (p : Packet) : State :=
  let fits := match s.stagingArea p.addr with
    | some a => a.tenant == p.tenant && stagingBlock p.addr == stagingBlock (p.addr + 64 * p.flits.length - 1)
    | none => false
  if fits then s.stageWrite p.addr p.flits else s.bumpLink l 0xA8
/-- DFETCH. Log 104, DEDUCED. -/
def State.rxDfetch (s : State) (l v : Nat) (p : Packet) : State :=
  if isHbm p.addr && p.addr % 64 == 0 && s.inSharedArea p.tenant p.addr (64 * p.arg0) then (s.bumpLink l 0xAC).startRemote l v p .readReq p.arg0
  else (s.leaveRx l v).bumpLink l 0xA8
/-- DMSG: no response (R294). -/
def State.rxDmsg (s : State) (p : Packet) : State := (s.msgArrive p.channel p.src p.sunit p.tag (some p.tenant) p.mlines p.moffset p.flits).1

/-! ### The stall protocol (R188 to R190) -/

/-- The payload flit of a packet. -/
def Packet.flit0 (p : Packet) : Bytes := match p.flits with | (b, _) :: _ => b | [] => []
def Packet.stallType (p : Packet) : Nat := le p.flit0 0 1
/-- A stall-protocol message of types `f`. -/
def State.onStall (s : State) (l v : Nat) (halted : Bool) (f : Nat → Bool) (g : State → Packet → State) : State :=
  match s.takeRx l v halted fun p => s.ours opStallp p && f p.stallType with
  | some (p, s1) => g s1 p
  | none => s
/-- STALL; a message of a reserved TYPE is discarded. Log 99, DEDUCED. -/
def State.rxStall (s : State) (p : Packet) : State :=
  if p.stallType = 1 ∧ s.stk.isLeader = true ∧ s.stk.members.contains p.src = true then { s with stk := { s.stk with stallMsg := true } } else s
/-- POLL: answered at once, also in SIMMER (R189). -/
def State.rxPoll (s : State) (p : Packet) : State :=
  s.sendStall p.src 3 (if s.stk.localStall then 1 else 0) (BitVec.ofNat 32 (le p.flit0 4 4)) s.stk.rid
/-- ANSWER of a member to the open epoch. -/
def State.rxAnswer (s : State) (p : Packet) : State :=
  let e := BitVec.ofNat 32 (le p.flit0 4 4)
  if s.stk.openEpoch = some e ∧ s.stk.members.contains p.src = true ∧ (get none p.src s.stk.answers).isNone then
    { s with stk := { s.stk with answers := put none p.src (some { stalled := le p.flit0 1 1 == 1, rid := BitVec.ofNat 32 (le p.flit0 8 4) }) s.stk.answers } }
  else s
/-- DEADLOCK. -/
def State.rxDeadlock (s : State) (p : Packet) : State := s.applyPolicy (BitVec.ofNat 32 (le p.flit0 4 4))
/-! ### Transit (R316 to R319) -/

/-- TRANSIT: with room in the transit queue of its exit VC, the packet leaves for the gate of its exit, across the mover slots and the spine
where that gate lies elsewhere; the room is held for it on its way. Log 103, DEDUCED. -/
def State.transit (s : State) (l v : Nat) : State :=
  match s.headRx l v false fun p => p.dst != s.rt.chip with
  | none => s
  | some p =>
    match s.chooseExit p with
    | none => (s.popRx l v).noExitTransit l p
    | some (n, w) =>
      if p.hops = 0 then let s1 := s.popRx l v; { s1 with rt := { s1.rt with hopdrop := s1.rt.hopdrop + 1 } }
      else if 8 ≤ (s.gate n).transitCount w then s
      else if n = l then (s.popRx l v).enqueue n w .transit { p with hops := p.hops - 1 }
      else
        let g := s.gate n
        (s.setGate n { g with coming := upd 0 w (· + 1) g.coming }).sendIn l v [packetLoad n w .transit { p with hops := p.hops - 1 }]
/-- DATAGRAM_TRANSIT_TIMEOUT: the head of VC5 has waited for room with neither link in HOLD. -/
def State.datagramTimeout (s : State) (l : Nat) : State :=
  match s.takeRx l 5 true fun p => p.dst != s.rt.chip with
  | none => s
  | some (p, s1) =>
    match s.chooseExit p with
    | some (n, w) =>
      if (s.gate l).state ≠ .hold ∧ (s.gate n).state ≠ .hold ∧ 8 ≤ (s.gate n).transitCount w then
        { s1 with rt := { s1.rt with dgwait := s1.rt.dgwait + 1 } }
      else s
    | none => s

/-! ### The management partition (R327, R328) -/

/-- Table 10.4. -/
def mgmtFlit (ty link rcode spart : Nat) (peers : Bytes) (up : Nat) : Bytes :=
  fit 64 (toBytes 1 ty ++ toBytes 1 link ++ toBytes 1 rcode ++ toBytes 1 spart ++ fit 20 peers ++ toBytes 3 up)
/-- Sends an MGMT packet with a flit to a chip. -/
def State.sendMgmt (s : State) (dst tag : Nat) (b : Bytes) : State :=
  s.sendOwn { op := opMgmt, vc := 3, dst := dst, tag := tag, sunit := sunitService, flits := [(b, false)] }
/-- Partner chips of the links, and the links that are UP or in HOLD. -/
def State.pongFlit (s : State) : Bytes :=
  let up (n : Nat) : Bool := (s.gate n).upOrHold
  mgmtFlit 2 0 0 s.rt.part ((List.range 20).flatMap fun n => toBytes 1 (if up n then (s.gate n).pchip else 0))
    ((List.range 20).foldl (fun m n => if up n then m + 2 ^ n else m) 0)
def State.mgmtResult (s : State) (p : Packet) (link code : Nat) : State := s.sendMgmt p.src p.tag (mgmtFlit 5 link code s.rt.part [] 0)
/-- Every byte that the command does not use is zero. -/
def mgmtClean (b : Bytes) (link : Bool) : Bool :=
  (link || le b 1 1 == 0) && le b 2 1 == 0 && decide (le b 3 1 < 16) && (b.drop 4).all fun x => x == 0
/-- An MGMT packet that the part accepts as destination; one without a payload is dropped. -/
def State.takeMgmt (s : State) (p : Packet) (g : State → Packet → State) : State :=
  if p.flits = [] then { s with rt := { s.rt with mdrop := s.rt.mdrop + 1 } } else g { s with rt := { s.rt with mgmt := s.rt.mgmt + 1 } } p
/-- An MGMT packet of MTYPE `f` for the part. -/
def State.onMgmt (s : State) (l v : Nat) (f : Nat → Bool) (g : State → Packet → State) : State :=
  match s.takeRx l v false fun p => s.ours opMgmt p && f (le p.flit0 0 1) with
  | some (p, s1) => s1.takeMgmt p g
  | none => s
/-- PING, and an MGMT of a reserved MTYPE or without payload. -/
def State.rxPing (s : State) (p : Packet) : State :=
  if le p.flit0 0 1 = 1 ∧ mgmtClean p.flit0 false = true then s.sendMgmt p.src p.tag s.pongFlit else s.mgmtResult p (le p.flit0 1 1) 3
/-- The service core records a PONG or a RESULT. -/
def State.recordMgmt (s : State) (p : Packet) : State := { s with svc := { s.svc with mgmtLog := s.svc.mgmtLog ++ [p.flit0] } }
/-- RCODE of a LINK_DISABLE. Log 106, DEDUCED. -/
def State.judgeDisable (s : State) (n : Nat) : Nat :=
  let g := s.gate n
  if 20 ≤ n ∨ g.image = false then 1 else if g.en = false ∨ g.state = .drain ∨ g.disPend = true then 2 else 0
/-- RCODE of a LINK_ENABLE. -/
def State.judgeEnable (s : State) (n : Nat) : Nat :=
  let g := s.gate n
  if 20 ≤ n ∨ g.image = false then 1 else if g.en = true ∧ g.state ≠ .down then 2 else 0
/-- An enable: the link enters TRAIN from DOWN, at once where it has been DOWN for 10 ms, else with its TRAIN_START (R272). -/
def State.enableLink (s : State) (n : Nat) : State :=
  let g := s.gate n
  let s1 := s.setGate n { g with en := true, trainLogged := false }
  if g.state = .down ∧ g.rested = true ∧ s.mayTrain = true then s1.enterTrain n else s1
def State.rxLinkDisable (s : State) (p : Packet) : State :=
  let n := le p.flit0 1 1
  if !mgmtClean p.flit0 true then s.mgmtResult p n 3
  else
    let c := s.judgeDisable n
    let s1 := s.mgmtResult p n c
    if c = 0 then s1.askDisable n else s1
def State.rxLinkEnable (s : State) (p : Packet) : State :=
  let n := le p.flit0 1 1
  if !mgmtClean p.flit0 true then s.mgmtResult p n 3
  else
    let c := s.judgeEnable n
    let s1 := s.mgmtResult p n c
    if c = 0 then s1.enableLink n else s1

/-! ### Packets of the part to itself (R308) -/

/-- An MGMT by its MTYPE. -/
def State.rxMgmt (s : State) (p : Packet) : State :=
  s.takeMgmt p fun s p =>
    match le p.flit0 0 1 with
    | 2 => s.recordMgmt p
    | 3 => s.rxLinkDisable p
    | 4 => s.rxLinkEnable p
    | 5 => s.recordMgmt p
    | _ => s.rxPing p
/-- A STALLP by its type. -/
def State.rxStallp (s : State) (p : Packet) : State :=
  match p.stallType with
  | 2 => s.rxPoll p
  | 3 => s.rxAnswer p
  | 4 => s.rxDeadlock p
  | _ => s.rxStall p
/-- A packet that a unit of the part has addressed to the part. -/
def State.localPacket (s : State) (p : Packet) : State :=
  match p.op with
  | 1 => s.rxWrite atMantel 0 p
  | 2 => s.rxRead atMantel 0 p
  | 3 => s.rxMsg atMantel p
  | 4 => s.rxContrib atMantel p
  | 5 => s.rxFlagInc atMantel p
  | 6 => s.rxStallp p
  | 8 => s.rxDwrite atMantel p
  | 9 => s.rxDfetch atMantel 0 p
  | 10 => s.rxDmsg p
  | 11 => s.rxMgmt p
  | _ => s
/-- The packets of the part to itself are delivered, in their order, and then those that answer them. -/
def State.deliverLocal (s : State) : Nat → State
  | 0 => s
  | n + 1 => if s.loopback = [] then s else State.deliverLocal (s.loopback.foldl (fun s p => s.localPacket p) { s with loopback := [] }) n

end Sys2Proof.Machine
end

