-- ==== Sys2Proof/Machine/Ends.lean ====
section
/-! DEFINITION. The end of a command, with the way down to BANKED, COLD or fatal stop (13_power_and_states.md R420;
15_service_sideband_errors.md R481; 18_electrical.md R542). -/
namespace Sys2Proof.Machine

/-- The quarter has stopped for good: for a sleep or a fatal stop, not for a region stop. -/
def State.stopped (s : State) (q : Nat) : Bool := (s.range q).halted && !s.clk.inStop.getLsbD q
def State.goingDown (s : State) : Bool := s.svc.mode == 4 || s.pwr.sleeping
/-- Links of a stopped quarter enter DRAIN, or DOWN where they carry nothing (R420, R481). -/
def State.shutLinks (s : State) (q : Nat) : State :=
  (gatesOf q).foldl (fun s l =>
    match (s.gate l).state with
    | .up => s.enterDrain l
    | .hold => s.enterDrain l
    | .train => s.linkDown l
    | .broken => s.linkDown l
    | _ => s) s
/-- Operations of the transport are discarded without completion records. -/
def State.dropTransport (s : State) : State :=
  { s with trn := { s.trn with
      qps := s.trn.qps.map fun e => (e.1, { e.2 with sq := [], ops := [], rx := none, rnrPsn := none, rnrWait := none }),
      recvs := [], matched := [], trigs := [], msgs := [], home := [] } }
/-- Nothing of the part is left to stop before the rails go (R420). -/
def State.quietNow (s : State) : Bool :=
  (List.range 4).all (fun q => s.stopped q && s.sinksReady q) && (List.range 20).all fun l => (s.gate l).state == .down
/-- Rails in the order of power-down for BANKED or COLD (R542), by row of Table 13.1. -/
def offOrder (cold : Bool) : List Nat := (if cold then [5, 4, 6] else []) ++ [3, 2, 1, 0]
/-- Rails in the order of steps 3 to 6 of Table 18.5. -/
def onOrder : List Nat := [0, 1, 2, 3, 6, 4, 5]
/-- Sends OPERATION on or off to the regulator of a rail over PMBus. -/
def State.commandRail (s : State) (rail : Nat) (on : Bool) : State :=
  s.emit (.bytes "OPERATION" [BitVec.ofNat 8 rail, if on then 0x80 else 0x00])
/-- How the part comes to bring-up: 0 a cold reset, 1 a warm reset, 2 a wake from BANKED, 3 a wake from COLD. -/
abbrev ResetKind := Nat
/-- What Table 14.1 keeps across a reset or wake, everything else as it is after reset (R427). Straps and the regulator map stay in the
always-on domain (R516, R543); rails stay as they are, and VDD_CORE at its voltage over a warm reset (R426). Log 45, DESIGN CHOICE; log 49, DEDUCED. -/
def State.cleared (s : State) (k : ResetKind) : State :=
  { State.reset with
    mem := if k = 1 ∨ k = 2 then s.mem.filter fun c => decide (c.1 < 4 * hbmQuarter) else [],
    svc := if k = 1 then { ({} : Service) with strap := s.svc.strap, testMode := s.svc.testMode, log := s.svc.log, head := s.svc.head, count := s.svc.count,
                                               classCnt := s.svc.classCnt }
           else { ({} : Service) with strap := s.svc.strap, testMode := s.svc.testMode },
    boot := { ({} : Boot) with cause := s.boot.cause, ledger := s.boot.ledger, burning := s.boot.burning, held := s.boot.held },
    pwr := { ({} : Power) with trip := if k = 0 then false else s.pwr.trip, rails := s.pwr.rails, smbalert := s.pwr.smbalert, regs := s.pwr.regs, avsSel := s.pwr.avsSel,
                               coreCode := if k = 1 then s.pwr.coreCode else 0 },
    tap := if k = 0 then {} else { s.tap with halted := false },
    fresh := s.fresh, out := s.out, pending := s.pending }
/-- Every HBM station stands in self-refresh (R259, R426). -/
def State.stationsRest (s : State) : State := (List.range 4).foldl (fun s q => s.setStn q { s.stn q with selfref := true }) s
/-- The service core has powered itself down, in BANKED or COLD, and what that state loses is gone (R420, R423). -/
def State.powerDown (s : State) : State :=
  let k : ResetKind := if s.pwr.cold then 3 else 2
  let s1 := if k = 2 then (s.cleared k).stationsRest else s.cleared k
  { s1 with pwr := { s1.pwr with bank := k - 1, sleeping := true, cold := s.pwr.cold } }
/-- The rails that the state to be entered does without are turned off, the first of them now. -/
def State.railsDown (s : State) : State :=
  let seq := (offOrder s.pwr.cold).filter fun r => s.pwr.rails.getLsbD r
  let s1 := { s with pwr := { s.pwr with railSeq := seq, railOn := false } }
  match seq with
  | r :: _ => s1.commandRail r false
  | [] => s1.powerDown
/-- An exit from SIMMER that was decided before the part goes down is given up: the sinks descend again (R418, R420). -/
def State.dropExit (s : State) (qs : List Nat) : State :=
  if s.pwr.exiting.isSome then qs.foldl (fun s q => s.sinksRest q) { s with pwr := { s.pwr with exiting := none } } else s
/-- The part goes down as far as it can now: links, transport, rails. -/
def State.shutdown (s : State) : State :=
  if s.goingDown then
    let qs := (List.range 4).filter fun q => s.stopped q
    let s1 := qs.foldl (fun s q => s.shutLinks q) (s.dropExit qs)
    let s2 := if s.svc.mode = 4 ∨ qs.length = 4 then s1.dropTransport else s1
    if s2.svc.mode ≠ 4 ∧ s2.pwr.bank = 0 ∧ s2.pwr.railSeq = [] ∧ s2.quietNow = true then s2.railsDown else s2
  else s
/-- Time 0 of the exit from SIMMER: an entry is ready against live values, or a wake event has come. The sinks of the stopped quarters begin to climb,
a descent is reversed, towards the grade before SIMMER or, where rule 1 of R404 holds, G7 (R178, R419). Log 133, DEDUCED. -/
def State.decideExit (s : State) : State :=
  if s.pwr.simmer && s.pwr.exiting.isNone && !s.goingDown && !s.mantelOff && (s.readyNow || s.pwr.wakeEvt) then
    let slow (q : Nat) : Bool := s.pwr.fault || decide (105 ≤ get 0 q s.pwr.tq) || decide (105 ≤ s.pwr.tm)
    let m : BitVec 4 := (List.range 4).foldl (fun m q => if slow q then m ||| BitVec.twoPow 4 q else m) 0
    ((List.range 4).filter fun q => (s.range q).halted).foldl (fun s q => s.sinksRest q) { s with pwr := { s.pwr with exiting := some m } }
  else s
/-- The outcome of a command: what units of the part have sent to the part itself is delivered within it (R308), and the exit from SIMMER is
decided where it is due. Log 158, DESIGN CHOICE. -/
def State.ends (s : State) : Host.Outcome State Fault Refusal := .next (((s.deliverLocal 4).shutdown.done.deliverLocal 4).decideExit)

end Sys2Proof.Machine
end

