-- ==== Sys2Proof/Machine/Admit.lean ====
section
/-! DEFINITION. Admission (06_beats_and_the_stoker.md R180 to R183, Table 6.5; 05_sequencing_and_faults.md R138, R148;
08_hbm_under_schedule.md R257), the loading of a program (03_ranges_and_loops.md R89), and the loads of a seam
(02_the_hob.md R38; 03 R91; 04_bundles.md R126; 08 R243). -/
namespace Sys2Proof.Machine

/-! ### Areas (R183, R450) -/

/-- Local addresses `a` to `a + n - 1` of HBM or hob SRAM become zero, unmarked. -/
def State.zeroRange (s : State) (a n : Nat) : State :=
  let out (k : Nat) : Bool := decide (k < a) || decide (a + n ≤ k)
  let s1 := { s with mem := s.mem.filter fun e => out e.1, linePoi := s.linePoi.filter fun e => out e.1 }
  if isHbm a then
    let q := a / hbmQuarter
    let x := s1.stn q
    s1.setStn q { x with ptab := x.ptab.filter fun e => decide (256 * e.1 + 255 < a) || decide (a + n ≤ 256 * e.1) }
  else s1
/-- Local address ranges that an area covers: base and length in bytes. -/
def Area.spans (x : Area) : List (Nat × Nat) :=
  (maskRanges x.ranges).flatMap fun r =>
    if x.hbm then [(hbmBase r + x.base, x.len)] else (List.range 8).map fun i => (lineAddr (8 * r + i) x.base, 64 * x.len)
def State.zeroArea (s : State) (x : Area) : State := x.spans.foldl (fun s e => s.zeroRange e.1 e.2) s
/-- The release of an area: its units leave the poison table (R264), its blocks of a staging area are forgotten. -/
def State.releaseArea (s : State) (x : Area) : State :=
  x.spans.foldl (fun s e =>
    let inA (k : Nat) : Bool := decide (e.1 ≤ k) && decide (k < e.1 + e.2)
    let s1 := { s with stage := s.stage.filter fun b => !inA (b.1 * 0x10000), stageFill := s.stageFill.filter fun b => !inA (b.1 * 64) }
    if x.hbm then
      let q := e.1 / hbmQuarter
      let y := s1.stn q
      s1.setStn q { y with ptab := y.ptab.filter fun u => !inA (256 * u.1) }
    else s1) s
/-- Two stretches overlap. -/
def overlap (a n b m : Nat) : Bool := decide (a < b + m) && decide (b < a + n) && n != 0 && m != 0
/-- Every area that exists: the shared ones, the private ones of the entries, and those whose release waits (R374). -/
def State.allAreas (s : State) : List Area := s.leaving ++ s.shared ++ s.stk.entries.flatMap fun e => e.2.areas.filter fun a => a.owner.isSome
/-- Bytes of HBM that the unexpected pool and the deploy buffer hold. -/
def poolSpan : Nat := 0x4000000 + 2 * 0x1000000
/-- An area fits: within the populated memory and clear of every other area, the pool and the deploy buffer. An area of no
line or byte fits like any other (R10), one in no range does not fit. Log 159, DESIGN CHOICE. -/
def State.areaFits (s : State) (x : Area) : Bool :=
  let clear := s.allAreas.all fun y => !(y.hbm == x.hbm && (y.ranges &&& x.ranges) != 0 && overlap x.base x.len y.base y.len)
  let inside := if x.hbm then
      decide (x.base + x.len ≤ hbmQuarter) && x.base % 2048 == 0 && x.len % 2048 == 0
        && (maskRanges x.ranges).all fun q => !(s.stn q).withdrawn && !overlap (hbmBase q + x.base) x.len s.trn.pool poolSpan
    else decide (x.base + x.len ≤ sramLines)
  clear && inside && x.ranges != 0

/-! ### Entries leave -/

/-- A tenant has a region that is not CLOSED. -/
def State.holdsRegion (s : State) (t : Nat) : Bool := s.trn.regions.any fun e => e.2.tenant == t && e.2.state != 0
/-- The areas of aborted tenants are released when the last of their regions is CLOSED (R374). -/
def State.settleLeaving (s : State) : State :=
  let (keep, free) := s.leaving.partition fun a => s.holdsRegion a.tenant
  free.foldl (fun s a => s.releaseArea a) { s with leaving := keep }

/-- The entry is emptied, and its private areas are released (R167, R192). -/
def State.emptyEntry (s : State) (e : Nat) : State :=
  let s1 := ((s.entry e).areas.filter fun a => a.owner.isSome).foldl (fun s a => s.releaseArea a) s
  { (s1.setEntry e {}) with stk := { (s1.setEntry e {}).stk with admitQ := s1.stk.admitQ.filter fun k => k != e } }
/-- A deferred request is answered (R447). -/
def State.answerWait (s : State) (kind key : Nat) (r : DResult) : State :=
  match s.boot.waits.find? fun w => w.1 == kind && w.2.1 == key with
  | none => s
  | some w =>
    { s with boot := { s.boot with
        waits := s.boot.waits.eraseP fun w => w.1 == kind && w.2.1 == key,
        work := s.boot.work.map fun m => if m.dseq = w.2.2.1 then { m with results := m.results.set w.2.2.2 (some r) } else m } }
/-- A LOAD is refused: STK_LASTREF and ADMIT_REFUSED (R181). -/
def State.noteRefused (s : State) (e code detail tenant : Nat) : State :=
  ({ s with stk := { s.stk with lastCode := code, lastDetail := detail, lastEntry := e % 1024 } }).log 0x0301 .contained .stoker (some tenant) [code, detail, e]
/-- Admission refuses an entry: EMPTY again, and its LOAD answered. -/
def State.admitRefuse (s : State) (e code detail : Nat) : State :=
  let t := (s.entry e).tenant
  ((s.emptyEntry e).noteRefused e code detail t).answerWait 0 e { dom := 1, code := code, value := detail }

/-! ### The sections of a LOAD (R452) -/

/-- The program memory on which a program is traced: the bundles of the entry stand in its ranges (R182). -/
def State.loadBundles (s : State) (e : Nat) : State :=
  let x := s.entry e
  let b := x.decl.bundles
  (maskRanges x.rmask).foldl (fun s r =>
    let y := s.range r
    s.setRange r { y with pmem := (List.range x.plen).foldl (fun m w => put 0 (x.pbase + w) (BitVec.ofNat 256 (relocate (bundleAt b w) x.pbase)) m) y.pmem }) s
/-- The areas that a LOAD declares, in order of their footprint numbers; `none` where a named shared area is not the tenant's. -/
def State.declArea (s : State) (e tenant : Nat) (sec : Nat × Nat × Bytes) : Option Area :=
  let b := sec.2.2
  let k := le b 0 1
  if k = 2 then (s.shared.find? fun a => a.id == le b 1 1 && a.tenant == tenant && a.owner.isNone).map fun a => { a with id := sec.2.1 }
  else some { id := sec.2.1, hbm := k == 1, tenant := tenant, owner := some e, ranges := le b 2 1 % 16, base := le b 8 8, len := le b 16 8 }

/-! ### The loads of a seam -/

/-- A hob at the seam before a program (R38). -/
def Hob.cleared (x : Hob) : Hob :=
  { x with vregs := [], acc := [], accPoi := [], aep := 0, active := {}, shadow := {}, asl := List.replicate 64 0, aslPoi := false, gens := [], hrel := 0 }
/-- Its local image (R91). -/
def Hob.image (x : Hob) (b : Bytes) : Hob :=
  { x with llen := b.length / 32, lstore := (List.range (b.length / 32)).foldl (fun m w => put 0 w (BitVec.ofNat 256 (bundleAt b w)) m) x.lstore }
/-- The words of an address register as an LOAD declares them (Table 8.11). -/
def aregOf (w0 w1 : Nat) : AReg :=
  { unit := field w0 0 23, slot := field w0 23 7, ustep := signed 20 w1, sstep := field w1 20 7, area := field w1 27 4 }
/-- The station's templates and address registers (R243). -/
def Station.declared (x : Station) (b : Bytes) : Station :=
  let t := b.drop 32
  { x with
    tpl := (List.range (t.length / 4)).foldl (fun m j => put 0 j (BitVec.ofNat 32 (wordAt t j)) m) [],
    ar := (List.range 4).foldl (fun m j => put {} j (aregOf (wordAt b (2 * j)) (wordAt b (2 * j + 1))) m) [],
    land := [], landPoi := [], wbuf := [], bound := [] }
/-- A gate's send table (R126). -/
def Gate.table (g : Gate) (b : Bytes) : Gate :=
  { g with tpl := (List.range (b.length / 16)).foldl (fun m j => put 0 j (BitVec.ofNat 128 (le b (16 * j) 16)) m) g.tpl }
/-- The loads of the program selected for range `q`. -/
def State.seamLoads (s : State) (q : Nat) : State :=
  let r := s.range q
  if r.valid then
    let d := (s.entry r.entry).decl
    let s1 := (List.range 8).foldl (fun s i => s.setHob (8 * q + i) ((s.hob (8 * q + i)).cleared.image ((d.sec 2 (8 * q + i)).getD []))) s
    let s2 := (List.range 5).foldl (fun s k => s.setGate (5 * q + k) ((s.gate (5 * q + k)).table ((d.sec 3 (5 * q + k)).getD []))) s1
    s2.setStn q ((s2.stn q).declared ((d.sec 4 q).getD []))
  else s

/-! ### The trace (R138, R148, R182) -/

/-- What the trace of a program in a range at a grade shows: the class-A faults in order, whether a MOVE issues, whether an access
leaves the footprint, the beat cost, and the refreshes, each with pseudo-channel, command, bank and latest SCK. -/
structure TraceRes where
  faults : List Nat := []
  moves : Bool := false
  oob : Bool := false
  cost : Option Nat := none
  refs : List (Nat × Nat × Nat × Nat) := []
  /-- the group issued in the cycle before names no area of the quarter -/
  noArea : Bool := false
  deriving DecidableEq, Repr
/-- Lines of SRAM that the performed slots of a hob's portion reach. -/
def Hob.touched (x : Hob) : List Nat :=
  match x.cur with
  | none => []
  | some iss =>
    let y := x
    let ls (a : Option Access) : List Nat := match a with | some (.lines l) => l | _ => []
    let sl (i : Nat) : List Nat :=
      match i with
      | 0 => ls (accW y iss.bits)
      | 2 => ls (accL y 0 (slotL0 iss.bits))
      | 3 => ls (accL y 1 (slotL1 iss.bits))
      | 4 => ls (accL y 2 (slotS iss.bits))
      | 5 => ls (accTap y (slotT iss.bits) 0) ++ ls (accTap y (slotT iss.bits) 1)
      | _ => []
    (List.range 7).flatMap fun i => if iss.flt.any fun e => e.1 == i then [] else sl i
/-- A line of range `q` lies in an SRAM area of the footprint. -/
def Entry.covers (x : Entry) (q l : Nat) : Bool := x.areas.any fun a => !a.hbm && a.ranges.testBit q && decide (a.base ≤ l) && decide (l < a.base + a.len)
/-- Reasons in the fault logs of a range, hobs first. -/
def Range.reasons (r : Range) : List Nat := (List.range 9).flatMap fun u => (get {} u r.flt).ent.map fun e => e.2.reason
/-- Class R of Table 5.1. -/
def classR (c : Nat) : Bool := c == 0x0F || c == 0x10
def State.takeFaults (s : State) (q : Nat) (a : TraceRes) : State × TraceRes :=
  let r := s.range q
  (s.setRange q { r with flt := [], fltGain := 0, fltNow := [], fltFirst := 0 }, { a with faults := a.faults ++ r.reasons.filter fun c => !classR c })
/-- What R242 finds of the group a slot H names: it reaches beyond its area, and its address register names no area of the quarter. A group
whose template is illegal, or that does not use its register, is not judged. -/
def State.groupReach (s : State) (q sl : Nat) : Bool × Bool :=
  let x := (s.range q).stn
  let ws := x.tplWords (hTpl sl)
  let es := tplCmds ws
  let r := get ({} : AReg) (hAr sl) x.ar
  if !tplCheck 0 0 ws || !(hAdv sl || es.any fun w => unitCmd (tCmd w)) then (false, false)
  else match s.areaUnits q r.area with
    | none => (true, true)
    | some (_, n) =>
      ((es.any fun w => unitCmd (tCmd w) && decide (n ≤ r.unit + tUoff w))
        || (hAdv sl && !(decide (0 ≤ (r.unit : Int) + r.ustep) && decide ((r.unit : Int) + r.ustep < n))), false)
/-- Passes the cycles of the run, one at a time. What R125 and R242 call BOUNDS is no fault of class A here: a MOVE outside the extent, and
a group without an area. A group is judged at offset 1, so its fault is found in the next cycle. -/
def State.trace (s : State) (e q : Nat) : Nat → TraceRes → TraceRes
  | 0, a => a
  | n + 1, a =>
    let s1 := s.ready q
    let r := s1.range q
    let x := s1.entry e
    let oob := (List.range 8).any fun i => (s1.hob (8 * q + i)).touched.any fun l => !x.covers q l
    let mv := r.todo.contains 9 && gOp (slotG r.bits) == 2
    let start := sckStart (s.grade q) r.stn.phase (r.cyc + 1)
    let w := slotH r.bits
    let grp := r.todo.contains 7
    let cs := if grp then (s1.judgeGroup q r.cyc (hPc w) (hTpl w) (hAr w) (hAdv w) []).getD [] else []
    let refs := (cs.filter fun c => c.cmd == 6 || c.cmd == 7).map fun c => (c.pc, c.cmd, c.bank, ceilDiv (15 * (r.cyc + 1)) 14 + 1 + (c.at_ - start))
    let reach := if grp then s1.groupReach q w else (false, false)
    let s2 := s1.finishCycle q
    let r2 := s2.range q
    let (s3, a0) := s2.takeFaults q { a with faults := [], moves := a.moves || mv, refs := a.refs ++ refs }
    let a1 := { a0 with
      oob := a.oob || oob || reach.1 || a0.faults.contains 0x1A, noArea := reach.2,
      faults := a.faults ++ a0.faults.filter fun f => f != 0x1A && !(f == 0x11 && a.noArea) }
    match r2.lastEffect with
    | some c => if c ≤ r.cyc then { a1 with cost := some (c + 1) } else State.trace (s3.openCycle q (r.cyc + 1)) e q n a1
    | none => State.trace (s3.openCycle q (r.cyc + 1)) e q n a1
/-- The machine on which a program is traced: range `q` at grade `g`, its station's clock at phase `ph`, the entry selected. -/
def State.traceStart (s : State) (e q g ph : Nat) : State :=
  let r0 := s.range q
  let s0 := { s with clk := { s.clk with grade := put 0 q g s.clk.grade }, stk := { s.stk with started := true, tickDue := false, aborts := [] } }
  let s1 := s0.setRange q { moverMin := r0.moverMin, phase := .seam, cyc := s.seamCyc }
  let s2 := (List.range 8).foldl (fun s i => s.setHob (8 * q + i) { emberGap := (s.hob (8 * q + i)).emberGap }) s1
  let s3 := (List.range 5).foldl (fun s k => s.setGate (5 * q + k) { s.gate (5 * q + k) with waiting := [], sent := [] }) s2
  (((s3.loadBundles e).select q e).seamLoads q).startBeat q ph
def State.traceRun (s : State) (e q g ph : Nat) : TraceRes :=
  let (s1, a) := (s.traceStart e q g ph).takeFaults q {}
  s1.trace e q s.seamCyc a

/-! ### The refresh proof (R257) -/

/-- Places a refresh by its latest start. -/
def insertRef (x : Nat × Nat × Nat × Nat) : List (Nat × Nat × Nat × Nat) → List (Nat × Nat × Nat × Nat)
  | [] => [x]
  | y :: r => if y.2.2.2 ≤ x.2.2.2 then y :: insertRef x r else x :: y :: r
/-- Latest starts of the credited refreshes of a pseudo-channel, in order: every REFAB, and the REFPB that completes a sweep. -/
def creditTimes : List (Nat × Nat × Nat × Nat) → List Nat → List Nat
  | [], _ => []
  | (_, cmd, bank, t) :: r, seen =>
    if cmd = 6 then t :: creditTimes r seen
    else
      let seen1 := if seen.contains bank then seen else bank :: seen
      if seen1.length = 48 then t :: creditTimes r [] else creditTimes r seen1
def refreshOk (s p : Nat) (refs : List (Nat × Nat × Nat × Nat)) : Bool :=
  let c := creditTimes ((refs.filter fun x => x.1 == p).foldl (fun l x => insertRef x l) []) []
  let ts := s * 15 / 14
  (c.zipIdx.all fun e => decide (1 + e.1 / 2340 + 1 ≤ 4 + e.2)) && decide (1 + ts / 2340 + 1 ≤ 1 + (c.filter fun t => decide (t ≤ ts)).length)

/-! ### The checks of Table 6.5 -/

/-- A flag or channel or counter that an entry may name (R199, R362). -/
def State.objectOk (s : State) (x : Entry) (t : Term) : Bool :=
  match t.kind with
  | 1 => if heldFlag t.index then s.mayUseFlag x.tenant t.index else x.rmask.testBit (flagGroup t.index)
  | 2 => s.ownsChan x.tenant t.index
  | 3 => s.ownsCnt x.tenant t.index
  | _ => true
/-- The lowest even base at which the extent of entry `x`, number `e`, is free in every range of its mask (R89, R452). -/
def State.freeExtent (s : State) (e : Nat) (x : Entry) : Option Nat :=
  let held := (maskRanges x.rmask).flatMap fun r =>
    (s.stk.entries.filter fun k => k.1 != e && k.2.state != .empty && k.2.state != .admitting && k.2.rmask.testBit r).map fun k => (r, k.2.pbase, k.2.footprint r)
  let ends := 0 :: held.map fun h => (h.2.1 + h.2.2 + 1) / 2 * 2
  let ok (b : Nat) : Bool := (maskRanges x.rmask).all (fun r => decide (b + x.footprint r ≤ 16384)) && held.all fun h => !overlap b (x.footprint h.1) h.2.1 h.2.2
  (ends.filter ok).foldl (fun m b => match m with | some c => some (min b c) | none => some b) none
def bitsSet (b : BitVec 16) : Nat := ((List.range 16).filter fun i => b.getLsbD i).length
/-- Everything that needs no trace: code and detail, 0 where all checks hold; and the entry with its extent and areas. -/
def State.judgeStatic (s : State) (e : Nat) : Nat × Nat × Entry :=
  let x := s.entry e
  let d := x.decl
  let n := d.bundles.length / 32
  let areaSecs := d.secs.filter fun c => c.1 == 5
  let areas := areaSecs.map fun c => s.declArea e x.tenant c
  let priv (hbm : Bool) : List Area := (areas.filterMap id).filter fun a => a.owner.isSome && a.hbm == hbm
  let fits (l : List Area) : Bool := l.all (fun a => s.areaFits a) &&
    (l.zipIdx.all fun a => l.zipIdx.all fun b => a.2 == b.2 || !((a.1.ranges &&& b.1.ranges) != 0 && overlap a.1.base a.1.len b.1.base b.1.len))
  let base := s.freeExtent e { x with plen := n }
  let x1 := { x with pbase := base.getD 0, plen := n, areas := areas.filterMap id }
  let ceiling := match s.tenantRec x.tenant with | some t => t.ceiling | none => 0
  if d.bad then (1, 0, x1)
  else if x.part ≠ s.rt.part ∨ (s.tenantRec x.tenant).isNone then (3, 0, x1)
  else if x.cls < ceiling then (4, 0, x1)
  else if !x.terms.all (fun t => s.objectOk x t) || !s.ownsChan x.tenant x.report then (5, 0, x1)
  else if base.isNone then (6, 0, x1)
  else if !fits (priv false) then (7, 0, x1)
  else if !fits (priv true) then (8, 0, x1)
  else if areas.any (fun a => a.isNone) then (9, 0, x1)
  else if d.secs.any (fun c => c.1 == 3 && (List.range (c.2.2.length / 16)).any fun j => !sendTplLegal s.rt.chip (le c.2.2 (16 * j) 16)) then (0xA, 0, x1)
  else match (maskRanges x.rmask).find? fun r => decide (bitsSet x.movUp + bitsSet x.movDn < (s.range r).moverMin) with
    | some r => (0xB, r, x1)
    | none => (0, 0, x1)
/-- The checks on the traces of every range, at every grade and every phase of the station's clock; the refreshes of a quarter whose HBM is
withdrawn are not judged (R261). Log 31, DEDUCED; log 32, DEDUCED; log 167, DEDUCED. -/
def State.judgeTraces (s : State) (e : Nat) : Nat × Nat × Nat :=
  let x := s.entry e
  let rs := maskRanges x.rmask
  let ts := rs.flatMap fun r => (List.range 8).flatMap fun g => (List.range 1000).map fun ph => s.traceRun e r g ph
  let g7 := (rs.filter fun r => !(s.stn r).withdrawn).map fun r => s.traceRun e r 7 0
  let cost := ts.foldl (fun m t => max m (t.cost.getD 0)) 0
  let noSlot := bitsSet x.movUp + bitsSet x.movDn = 0
  if noSlot ∧ ts.any (fun t => t.moves) = true then (0xB, rs.headD 0, cost)
  else if ts.any (fun t => t.cost.isNone || t.faults.contains 0x18 || decide (s.seamCyc < t.cost.getD 0)) then (0xC, 0, cost)
  else match ts.findSome? fun t => t.faults.head? with
    | some f => (0xD, f, cost)
    | none =>
      if ts.any fun t => t.oob then (0xE, 0, cost)
      else if g7.any fun t => (List.range 8).any fun p => !refreshOk s.seamCyc p t.refs then (0xF, 0, cost)
      else (0, 0, cost)
/-- ADMISSION of the LOAD at the head of the queue. -/
def State.admission (s : State) : State :=
  match s.stk.admitQ with
  | [] => s
  | e :: rest =>
    let s0 := { s with stk := { s.stk with admitQ := rest } }
    if s.aborting (s.entry e).tenant then ({ s0 with fresh := s.fresh + 1 }).admitRefuse e s.abortCode 0
    else
      let (c, d, x1) := s.judgeStatic e
      if c ≠ 0 then s0.admitRefuse e c d
      else
        let (c2, d2, cost) := (s.setEntry e x1).judgeTraces e
        if c2 ≠ 0 then s0.admitRefuse e c2 d2
        else
          let s1 := s0.setEntry e { x1 with state := .loading, cost := cost }
          let s2 := (x1.areas.filter fun a => a.owner.isSome).foldl (fun s a => s.zeroArea a) s1
          let s3 := (maskRanges x1.rmask).foldl (fun s r => { s with stk := { s.stk with loadQ := s.stk.loadQ ++ [(r, e)] } }) s2
          s3.feedLoads.answerWait 0 e { dom := 1, code := 0, value := x1.pbase }
/-- ENTRY_RESIDENT: the bundles stand in every range of the mask (R89, R163). -/
def State.entryResident (s : State) (e : Nat) : State :=
  let x := s.entry e
  if x.state = .loading ∧ (maskRanges x.rmask).all (fun r => x.resident.contains r) = true then s.entryReady e else s
/-- ENTRY_RELEASE (R167). Log 33, DEDUCED. -/
def State.entryLeaves (s : State) (e : Nat) : State :=
  let x := s.entry e
  if x.leaving = 2 ∧ x.state = .disabled ∧ x.runningIn = [] ∧ s.claimed e = false then s.emptyEntry e else s

end Sys2Proof.Machine
end

