-- ==== Sys2Proof/Machine/Beats.lean ====
section
/-! DEFINITION. Seams (06_beats_and_the_stoker.md R157 to R161, R166, R171 to R178, R192; 05_sequencing_and_faults.md R155), grades and
voltage (13_power_and_states.md R400 to R405), region stops and their ends (12_clocks_and_references.md R380 to R383, R390), and the exit
from SIMMER (13 R419). -/
namespace Sys2Proof.Machine

/-! ### Voltage and grades (R400 to R405) -/

def vmapCode (g : Nat) : Nat := Config.vmap g % 49
/-- V_T for a fastest grade, as a code in steps of 5 mV above 0.62 V, rounded up (R400). -/
def State.targetCode (s : State) (g : Nat) : Nat := ceilDiv (5000 * vmapCode g + 5000 * s.pwr.voffset + s.pwr.rll * s.pwr.amps) 5000
/-- The fastest grade in force. -/
def State.fastest (s : State) : Nat := (List.range 4).foldl (fun m q => min m (s.grade q)) 7
/-- The fastest grade in force or pending. -/
def State.fastestPending (s : State) : Nat :=
  (List.range 4).foldl (fun m q => if s.pwr.raise.getLsbD q then min m (s.grade q - 1) else m) s.fastest
/-- Highest code the core rail may take, 0.86 V. -/
def maxCode : Nat := 48
/-- What R404 chooses for a quarter: the grade to go to, and whether a raise of one grade is taken or kept pending. -/
def State.chooseGrade (s : State) (q : Nat) : Nat × Bool :=
  let g := s.grade q
  let t := get 0 q s.pwr.tq
  if s.pwr.fault = true ∨ 105 ≤ t ∨ 105 ≤ s.pwr.tm then (7, false)
  else if (s.pwr.tdn : Int) ≤ t then (min 7 (g + 1), false)
  else if maxCode < s.targetCode s.fastest ∧ g = s.fastest then (min 7 (g + 1), false)
  else if 0 < g ∧ t ≤ (s.pwr.tup : Int) ∧ s.pwr.raiseBeats ≤ (s.stk.beat - get 0 q s.pwr.lastChange).toNat
          ∧ s.targetCode (min s.fastest (g - 1)) ≤ maxCode then (g, true)
  else (g, false)
/-- Temperatures are sampled; THERM_LIMIT where a group first reaches 105 °C (R404, R405). Log 128, DEDUCED. -/
def State.sampleTemp (s : State) (group : Nat) (t : Int) : State :=
  let old := if group < 4 then get 0 group s.pwr.tq else s.pwr.tm
  let p : Power := if group < 4 then { s.pwr with tq := put 0 group t s.pwr.tq } else { s.pwr with tm := t }
  let hot := (List.range 4).any (fun q => decide (105 ≤ get 0 q p.tq)) || decide (105 ≤ p.tm)
  let s1 := { s with pwr := { p with therm := hot } }
  if old < 105 ∧ 105 ≤ t then s1.log 0x0801 .contained .power none [group, (t % 2 ^ 32).toNat] else s1
/-- Step 6 of a seam for a quarter: its grade (R404). A lower grade makes the quarter owe a stop of this seam; a grade that is kept owes none. -/
def State.decideGrade (s : State) (q : Nat) : State :=
  let (g, up) := s.chooseGrade q
  let raise := if up then s.pwr.raise ||| BitVec.twoPow 4 q else s.pwr.raise &&& ~~~(BitVec.twoPow 4 q)
  let s1 := { s with pwr := { s.pwr with raise := raise } }
  { s1 with clk := { s1.clk with newGrade := put none q (if g = s.grade q then none else some g) s1.clk.newGrade } }
/-- A stop that lowers a grade is due or in progress (R402). -/
def State.lowering (s : State) : Bool := s.clk.newGrade.any fun e => match e.2 with | some g => decide (s.grade e.1 < g) | none => false
/-- The target, and the voltage write of R401, which waits with a lower voltage for the stops that lower a grade (R402). Log 129, DEDUCED. -/
def State.decideVoltage (s : State) : State :=
  let v := s.targetCode s.fastestPending
  let s1 := { s with pwr := { s.pwr with target := v } }
  let p := s1.pwr
  if p.fault = false ∧ v ≤ maxCode ∧ (p.commanded < v ∨ v + 2 ≤ p.commanded ∧ s.lowering = false) then
    ({ s1 with pwr := { p with commanded := v, coreCode := v, acked := false, writing := true, vdone := false, naks := 0 } }).emit (.bytes "AVS" [BitVec.ofNat 8 v])
  else s1
/-- A raise whose voltage stands is performed by a stop of this seam (R383, R402). -/
def State.decideRaise (s : State) (q : Nat) : State :=
  if s.pwr.raise.getLsbD q = true ∧ s.pwr.acked = true ∧ s.targetCode (min s.fastest (s.grade q - 1)) ≤ s.pwr.commanded ∧ s.pwr.fault = false then
    { s with clk := { s.clk with newGrade := put none q (some (s.grade q - 1)) s.clk.newGrade } }
  else s

/-! ### Delay trims (R380) -/

/-- One step towards the centre of the window. Log 126, DEDUCED. -/
def trimStep (trim : Nat) (res : Int) : Nat := if 0 < res then trim - 1 else if res < 0 then min 63 (trim + 1) else trim
/-- The refresh of a quarter's trims, and TRIM_MARGIN. -/
def State.refreshTrims (s : State) (q : Nat) (b st : Int) : State :=
  let c := s.clk
  let big := if b.natAbs < st.natAbs then st else b
  let s1 := { s with clk := { c with
      trimBridge := put 0 q (trimStep (get 0 q c.trimBridge) b) c.trimBridge, trimStation := put 0 q (trimStep (get 0 q c.trimStation) st) c.trimStation,
      residual := put 0 q big c.residual } }
  if 8 < big.natAbs then
    ({ s1 with clk := { s1.clk with calDue := s1.clk.calDue ||| BitVec.twoPow 4 q } }).log 0x0701 .corrected (.quarter q) none [(big % 2 ^ 32).toNat]
  else s1

/-! ### Aborts (R192, R193) -/

/-- What an abort of tenant `t` does in range `q` at its seam; the answer says whether a claim was cancelled there. -/
def State.abortRange (s : State) (q t : Nat) : State × Bool :=
  let mine := match s.claimOf q with | some e => (s.entry e).tenant == t | none => false
  let s1 :=
    match s.claimOf q with
    | some e =>
      if mine then
        let x : Entry := s.entry e
        let left := x.runningIn.filter fun k => k != q
        let s1 := { s with stk := { s.stk with claims := put none q none s.stk.claims } }
        s1.setEntry e { x with runningIn := left, state := if x.state = EState.running ∧ left = [] then x.rest else x.state }
      else s
    | none => s
  let s2 := s1.abortMovers q t
  let s3 := if s2.occupant q = some t then
      let s := s2.clearFlags (0x2000 + 0x800 * q) 0x800
      { s with flg := { s.flg with occ := put none q none s.flg.occ } }
    else s2
  (s3, mine)
/-- The areas of a tenant and of its entries wait for its regions to close before they are released (R374). -/
def State.parkAreas (s : State) (t : Nat) (es : List Nat) : State :=
  let priv := es.flatMap fun e => (s.entry e).areas.filter fun a => a.owner.isSome
  let s1 := es.foldl (fun s e => s.setEntry e { s.entry e with areas := (s.entry e).areas.filter fun a => a.owner.isNone }) s
  { s1 with leaving := s1.leaving ++ priv ++ s1.shared.filter (fun a => a.tenant == t), shared := s1.shared.filter fun a => a.tenant != t }
/-- The tenant's work on the part is gone: entries, areas, channels, flags, transport. -/
def State.abortPart (s : State) (t reason : Nat) : State :=
  let es := (s.stk.entries.filter fun e => e.2.state != .empty && e.2.tenant == t).map fun e => e.1
  let s0 := if s.holdsRegion t then s.parkAreas t es else s
  let s1 := es.foldl (fun s e => if (s.entry e).state = .admitting then ({ s with fresh := s.fresh + 1 }).admitRefuse e s.abortCode 0 else s.emptyEntry e) s0
  let s2 := (s1.shared.filter fun a => a.tenant == t).foldl (fun s a => s.releaseArea a) s1
  let s3 := { s2 with shared := s2.shared.filter fun a => a.tenant != t }
  let s4 := (s3.flg.chans.filter fun c => c.2.tenant == t && c.2.state != .closed).foldl (fun s c => s.closeChan c.1 3) s3
  let s5 := match s4.tenantRec t with | some r => s4.clearFlags r.flagBase r.flagCount | none => s4
  (s5.abortTransport t).log 0x0302 .contained .stoker (some t) [reason]
/-- The aborts that await the seam of range `q` (R161); the ranges whose claims were cancelled idle for the beat. Log 36, DEDUCED. -/
def State.seamAborts (s : State) (q : Nat) : State × Bool :=
  let due := s.stk.aborts.filter fun a => a.2.2.contains q
  let (s1, freed) := due.foldl (fun (x : State × Bool) a => let (s', f) := x.1.abortRange q a.1; (s', x.2 || f)) (s, false)
  let rest := s1.stk.aborts.map fun a => (a.1, a.2.1, a.2.2.filter fun k => k != q)
  let s2 := { s1 with stk := { s1.stk with aborts := rest.filter fun a => !a.2.2.isEmpty } }
  ((rest.filter fun a => a.2.2.isEmpty).foldl (fun s a => s.abortPart a.1 a.2.1) s2, freed)

/-! ### The seam (R157 to R161) -/

/-- Range `q` comes to cycle S: the run has closed, live program slots are empty, the mover buffers complete (R43, R79, R410). -/
def State.toSeam (s : State) (q : Nat) : State :=
  let s0 := if (s.range q).phase = .seam then s.startBeat q s.newPhase else s
  let s1 := s0.passTo q s0.seamCyc
  let r := s1.range q
  let clr (m : SMap LoopSlot) : SMap LoopSlot := m.filterMap fun e => match e.2.load with | some l => some (e.1, { ({} : LoopSlot) with load := some l }) | none => none
  let s2 := { (s1.setRange q { r with phase := .seam, cyc := s1.seamCyc, iss := none, todo := [], pre := [], pend := [], up := clr r.up, dn := clr r.dn })
              with stk := { s1.stk with ranNow := s1.stk.ranNow || r.phase == .run, tickDue := s1.stk.tickDue || q == 0 } }
  let s3 := (List.range 8).foldl (fun s i => s.bufFlush (8 * q + i) 256) s2
  (quarterSinks q).foldl (fun s k => s.sinkFull k (s.grade q)) s3
/-- INSTR_FAULT of the beat that ends (R155). -/
def State.instrFaults (s : State) (q : Nat) : State :=
  let r := s.range q
  if r.fltGain = 0 then s
  else (s.setRange q { r with fltGain := 0, fltFirst := 0 }).log 0x0201 .contained (.quarter q) (some r.tenant)
         [r.entry % 1024, r.beatNo.toNat, min r.fltGain 65535 + r.fltFirst * 65536]
/-- Step 3 of the seam of range `q`, before its selection. -/
def State.seamStep3 (s : State) (q : Nat) : State × Bool :=
  let s1 := (gatesOf q).foldl (fun s l => if (s.gate l).disPend then s.disableLink l else s) s
  s1.seamAborts q
/-- A quarter stops after its seam (R381, R418, R420, R481). Log 90, DEDUCED. -/
def State.seamStop (s : State) (q : Nat) (cal : Bool) : State :=
  let bit : BitVec 4 := BitVec.twoPow 4 q
  if s.goingDown || s.pwr.simmer then ({ s with clk := { s.clk with newGrade := put none q none s.clk.newGrade } }).haltQuarter q 1
  else
    let grade := get none q s.clk.newGrade
    if s.clk.pending ≠ 0 ∨ cal = true ∨ grade.isSome = true then
      let s2 := (s.haltQuarter q 0).sinksTo q (grade.getD (s.grade q))
      { s2 with clk := { s2.clk with inStop := s2.clk.inStop ||| bit, calDue := if cal then s2.clk.calDue &&& ~~~bit else s2.clk.calDue,
                                     stopped := if s2.clk.pending ≠ 0 then s2.clk.stopped ++ [q] else s2.clk.stopped } }
    else s
/-- The alignment of the ranges after their seams (R158): one that stops alone has none with any other; those that stop for a changeover keep theirs,
for every quarter is stopped for the same length (R390), unless their grades part. Log 161, DEDUCED. -/
def State.realign (s : State) (qs : List Nat) : State :=
  let k := s.stk
  let id (q : Nat) : Option Nat :=
    if !s.clk.inStop.getLsbD q then none
    else if s.clk.pending ≠ 0 then (get none q s.clk.newGrade).map fun g => k.nextAlign + g
    else some (k.nextAlign + 8 + q)
  { s with stk := { k with nextAlign := k.nextAlign + 12,
                           align := qs.foldl (fun m q => match id q with | some n => put 0 q n m | none => m) k.align } }
/-- The seams of the ranges `qs` begin in one cycle; their timeline up to the stop that falls due. The selection judges the terms as they stand
at cycle S, before step 3 (R160, R171). -/
def State.seamRound (s : State) (qs : List Nat) (v : SeamEnv) : State :=
  let owed := s.clk.calDue
  let s1 := qs.foldl (fun s q => s.toSeam q) s
  let s2 := qs.foldl (fun s q => s.instrFaults q) s1
  let s3 := (qs.foldl (fun s q => s.endBeat q) s2).applyLeaving qs
  let (s4, idle) := qs.foldl (fun (x : State × List Nat) q => let (s', f) := x.1.seamStep3 q; (s', if f then x.2 ++ [q] else x.2)) (s3, [])
  let s5 := if s4.goingDown || s4.pwr.simmer then s4 else s4.selectionRound s1 (qs.filter fun q => !idle.contains q)
  let s6 := qs.foldl (fun s q => (s.seamRefresh q).seamLoads q) s5
  let s7 := qs.foldl (fun s q => s.refreshTrims q (get 0 q v.bridge) (get 0 q v.station)) s6
  let s8 := (qs.foldl (fun s q => s.sampleTemp q (get 0 q v.tq)) s7).sampleTemp 4 v.tm
  let s9 := (qs.foldl (fun s q => s.decideGrade q) s8).decideVoltage
  let s10 := qs.foldl (fun s q => s.decideRaise q) s9
  (qs.foldl (fun s q => s.seamStop q (owed.getLsbD q)) s10).realign qs
/-- The ranges whose seams begin together: those that run and have the same alignment as range `q` (R158). -/
def State.alignedWith (s : State) (q : Nat) : List Nat := (List.range 4).filter fun r => !(s.range r).halted && get 0 r s.stk.align == get 0 q s.stk.align
/-- SEAM_START: an increment of STK_BEAT that range 0's seam before still owes comes first (R159), and may request SIMMER (R178). The event concerns
the aligned ranges that run, all of them (R158); another mask names no event of the part, and nothing happens. Log 4, DESIGN CHOICE; log 161, DEDUCED. -/
def State.seamStart (s : State) (mask : BitVec 4) (v : SeamEnv) : State :=
  let open0 := s.stk.started && s.stk.tickDue && mask.getLsbD 0 && !(s.range 0).halted && (s.range 0).phase == .seam
  let s0 := if open0 then s.beatTick else s
  let qs := (List.range 4).filter fun q => mask.getLsbD q && !(s0.range q).halted
  if !s0.stk.started || qs.isEmpty || qs != s0.alignedWith (qs.headD 0) then s0 else s0.seamRound qs v

/-! ### STK_BEAT and the ends of stops -/

/-- STK_BEAT_TICK: at the end of a seam of range 0, or by the stoker's clock while Q0 is stopped in SIMMER (R159). -/
def State.tick (s : State) : State :=
  if s.stk.started && (s.stk.tickDue || (s.pwr.simmer && (s.range 0).halted)) then s.beatTick else s
/-- The grade change of a stop is complete (R404, R412). -/
def State.changeGrade (s : State) (q : Nat) : State :=
  match get none q s.clk.newGrade with
  | none => s
  | some g =>
    { s with clk := { s.clk with grade := put 0 q g s.clk.grade, newGrade := put none q none s.clk.newGrade },
             pwr := { s.pwr with grades := s.pwr.grades + 1, lastChange := put 0 q s.stk.beat s.pwr.lastChange,
                                 raise := s.pwr.raise &&& ~~~(BitVec.twoPow 4 q) } }
/-- Trims as a calibration leaves them. -/
def State.calibrate (s : State) (q bridge station : Nat) : State :=
  { s with clk := { s.clk with trimBridge := put 0 q bridge s.clk.trimBridge, trimStation := put 0 q station s.clk.trimStation } }
/-- A cause of HOLD ends for the gates of a quarter (R277): a replay that waited begins, and a disable whose seam has come takes effect. -/
def State.holdEnds (s : State) (q c : Nat) : State :=
  (gatesOf q).foldl (fun s l =>
    let g := s.gate l
    let s1 := s.setGate l (g.holdEnd c)
    (if g.state = .hold ∧ (s1.gate l).state = .drain then s1.linkChanged l else s1).resumeReplay l) s
/-- The clock of a quarter starts again: its station leaves self-refresh, its gates HOLD, and what waits at its bridge goes on (R103). -/
def State.clockOn (s : State) (q c : Nat) : State :=
  (((s.setRange q { s.range q with halted := false }).leaveSelfref q).holdEnds q c).settleIn q
/-- Every sink that the resumption of a quarter waits for stands at its full value: those of the quarter, and after a changeover those of every quarter
that stopped for it (R382, R390, R412). -/
def State.resumeReady (s : State) (q : Nat) : Bool := s.sinksReady q && (!s.clk.stopped.contains q || s.clk.stopped.all fun k => s.sinksReady k)
/-- QUARTER_RESUME: the region stop of a quarter ends (R382, R390); in SIMMER the quarter stays stopped. After a changeover, which has
calibrated every trim, the quarters resume in the order in which they stopped. -/
def State.quarterResume (s : State) (q bridge station : Nat) : State :=
  let bit : BitVec 4 := BitVec.twoPow 4 q
  let changed := s.clk.stopped.contains q
  let order := changed = false ∨ (s.clk.pending = 0 ∧ s.clk.stopped.head? = some q)
  if s.clk.inStop.getLsbD q = true ∧ order ∧ (s.pwr.simmer || s.resumeReady q) = true then
    let s1 := if changed then s.changeGrade q else (s.changeGrade q).calibrate q bridge station
    let s2 := { s1 with clk := { s1.clk with inStop := s1.clk.inStop &&& ~~~bit, stopped := s1.clk.stopped.filter fun k => k != q } }
    if s.pwr.simmer then s2.holdEnds q 0
    else
      let s3 := s2.clockOn q 0
      s3.startBeat q s3.newPhase
  else s
/-- SIMMER_EXIT (R419): the exit has been decided, every sink stands at full, and the four quarters stand at cycle S of a seam, aligned again (R158, R178);
`trims` are the calibrated trims of each quarter. Log 133, DEDUCED. -/
def State.simmerExit (s : State) (v : SeamEnv) (trims : List (Nat × Nat)) : State :=
  match s.pwr.exiting with
  | none => s
  | some m =>
    if s.pwr.simmer && !s.goingDown && s.clk.pending == 0 && s.clk.inStop == 0 && (List.range 4).all (fun q => (s.range q).halted && s.sinksReady q) then
      let s0 := ((List.range 4).foldl (fun s q => s.sampleTemp q (get 0 q v.tq)) s).sampleTemp 4 v.tm
      let s1 := { s0 with pwr := { s0.pwr with simmer := false, wakeEvt := false, exiting := none }, svc := { s0.svc with mode := 1 },
                          stk := { s0.stk with idleBeats := 0, align := [] } }
      (List.range 4).foldl (fun s q =>
        let g := s.resumeGrade q m
        let a := ({ s with clk := { s.clk with newGrade := put none q (if g = s.grade q then none else some g) s.clk.newGrade } }).changeGrade q
        let b := (a.calibrate q (trims.getD q (0, 0)).1 (trims.getD q (0, 0)).2).clockOn q 1
        let r := b.range q
        b.setRange q { r with phase := .idle, cyc := b.seamCyc, iss := none, todo := [], pre := [], pend := [], win := none, bendAt := none }) s1
    else s

end Sys2Proof.Machine
end

