-- ==== Sys2Proof/Machine/BeatCmds.lean ====
section
/-! DEFINITION. The commands of the stoker and of the seam (06_beats_and_the_stoker.md R159, R160, R163, R167, R181;
12_clocks_and_references.md R382, R390; 13_power_and_states.md R419). -/
namespace Sys2Proof.Machine

/-- SEAM_START (R160): the ranges of `mask` reach cycle S in one cycle; `v` is what the sensors and delay detectors report. -/
def execSeamStart (mask : BitVec 4) (v : SeamEnv) (s : State) : Host.Outcome State Fault Refusal :=
  (s.seamStart mask v).ends
/-- STK_BEAT_TICK (R159). -/
def execStkBeatTick (s : State) : Host.Outcome State Fault Refusal := (if s.mantelOff then s else s.tick).ends
/-- QUARTER_RESUME (R382, R390): the PLL has locked and the trims are calibrated at `bridge` and `station`. -/
def execQuarterResume (q : Fin 4) (bridge station : Fin 64) (s : State) : Host.Outcome State Fault Refusal :=
  (s.quarterResume q.val bridge.val station.val).ends
/-- ADMISSION (R181). -/
def execAdmission (s : State) : Host.Outcome State Fault Refusal := (if s.mantelOff then s else s.admission).ends
/-- ENTRY_RESIDENT (R163). -/
def execEntryResident (e : Fin 1024) (s : State) : Host.Outcome State Fault Refusal := (if s.mantelOff then s else s.entryResident e.val).ends
/-- ENTRY_RELEASE (R167). -/
def execEntryRelease (e : Fin 1024) (s : State) : Host.Outcome State Fault Refusal := (if s.mantelOff then s else s.entryLeaves e.val).ends
/-- SIMMER_EXIT (R419): `v` as at a seam, `trims` the calibrated trims of each quarter. -/
def execSimmerExit (v : SeamEnv) (trims : List (Nat × Nat)) (s : State) : Host.Outcome State Fault Refusal :=
  (s.simmerExit v trims).ends

end Sys2Proof.Machine
end

