-- ==== Sys2Proof/Machine/Clocks.lean ====
section
/-! DEFINITION. References, their witnesses and changeovers (12_clocks_and_references.md R385 to R393). -/
namespace Sys2Proof.Machine

/-! ### Presence -/

/-- A reference the image fits: the primary, and the other where ALT_FITTED says so (R385). -/
def State.fitted (s : State) (r : Nat) : Bool := r == s.clk.primary || s.clk.altFitted
def State.refPresent (s : State) (r : Nat) : Bool := s.clk.present.getLsbD r
/-- The reference that is not selected. -/
def State.alternate (s : State) : Nat := 1 - s.clk.sel
/-- The alternate may be selected: fitted, present and not SUSPECT (R389, R393). -/
def State.altUsable (s : State) : Bool := s.fitted s.alternate && s.refPresent s.alternate && !s.clk.suspect.getLsbD s.alternate
/-- The part runs from a reference: step 4 of bring-up has selected one. -/
def State.refInUse (s : State) : Bool := decide (4 ≤ s.boot.step) && s.pwr.bank == 0
/-- A changeover (1, or 3 away from a lost reference) or relock (2) is decided, unless one is pending. -/
def State.decideChange (s : State) (k : Nat) : State := if s.clk.pending = 0 then { s with clk := { s.clk with pending := k } } else s
/-- What holdover decides as soon as it can (R393): a relock to the reference that is back, else a changeover. -/
def State.judgeHoldover (s : State) : State :=
  if s.clk.holdover = true ∧ s.clk.pending = 0 then
    if s.refPresent s.clk.sel then s.decideChange 2 else if s.altUsable then s.decideChange 3 else s
  else s
/-- REFERENCE_LOST (R393). -/
def State.refLost (s : State) (r : Nat) : State :=
  if s.refPresent r then
    let s1 := { s with clk := { s.clk with present := s.clk.present &&& ~~~(BitVec.twoPow 2 r) } }
    if r = s.clk.sel ∧ s.refInUse = true then
      (({ s1 with clk := { s1.clk with holdover := true } }).log 0x0702 .contained .power none [r]).judgeHoldover
    else s1
  else s
/-- REFERENCE_PRESENT (R385, R393). -/
def State.refBack (s : State) (r : Nat) : State :=
  if s.fitted r then ({ s with clk := { s.clk with present := s.clk.present ||| BitVec.twoPow 2 r } }).judgeHoldover else s

/-! ### Witnesses (R387 to R389) -/

/-- Links that may witness: UP or in HOLD with a valid FX_PPM, one link for each distinct partner, the lowest. -/
def State.witnesses (s : State) : List Nat :=
  let ls := (List.range 20).filter fun l => (s.gate l).upOrHold && (s.gate l).ppmValid
  ls.filter fun l => !ls.any fun k => decide (k < l) && (s.gate k).pchip == (s.gate l).pchip
def insertInt (x : Int) : List Int → List Int
  | [] => [x]
  | y :: r => if x ≤ y then x :: y :: r else y :: insertInt x r
def sortInts (l : List Int) : List Int := l.foldr insertInt []
/-- The median: the middle value, or the mean of the two middle values, rounded down to 0.1 ppm (R387). -/
def median (l : List Int) : Int :=
  let s := sortInts l
  let n := s.length
  if n % 2 = 1 then s.getD (n / 2) 0 else (s.getD (n / 2 - 1) 0 + s.getD (n / 2) 0) / 2
/-- Disagreement: more than 150.0 ppm, in units of 0.1 ppm. -/
def disagrees (v : Int) : Bool := 1500 < v.natAbs
/-- Length of a run after a window. -/
def runNext (run : Nat) (off : Option Int) : Nat := match off with | some v => if disagrees v then min 10 (run + 1) else 0 | none => 0
def int16 (v : Int) : BitVec 16 := BitVec.ofInt 16 v
/-- A 16-bit offset as an event argument. -/
def offArg (b : BitVec 16) : Nat := (b.signExtend 32).toNat
/-- One witness is judged: `k` 0 the alternate, 1 the partners. REF_DISAGREE is logged when the tenth window of a run ends (R388). Log 123, DEDUCED. -/
def State.judgeWitness (s : State) (k : Nat) (off : Option Int) : State :=
  let c := s.clk
  let old := if k = 0 then c.altRun else c.peerRun
  let run := runNext old off
  let clears : Bool := match off with | some v => !disagrees v | none => false
  let alarm := if k = 0 then c.alarmAlt else c.alarmPeer
  let alarm' := if old < 10 ∧ run = 10 then true else if clears then false else alarm
  let ob := match off with | some v => int16 v | none => if k = 0 then c.altOff else c.peerMed
  let c' := if k = 0 then { c with altOff := ob, altValid := off.isSome, altRun := run, alarmAlt := alarm' }
            else { c with peerMed := ob, peerValid := off.isSome, peerRun := run, alarmPeer := alarm' }
  let s1 := { s with clk := c' }
  if old < 10 ∧ run = 10 then s1.log 0x0703 .contained .power none [k, offArg ob] else s1
/-- WITNESS_WINDOW: `alt` is the alternate's measured offset, none where it was not present throughout; `ppm` lists the offsets that the
gates whose links are UP have measured. -/
def State.witnessWindow (s : State) (alt : Option Int) (ppm : List (Nat × Int)) : State :=
  if s.refInUse then
    let s1 := ppm.foldl (fun s e =>
      let g := s.gate e.1
      if decide (e.1 < 20) && g.state == .up then s.setGate e.1 { g with ppm := int16 e.2, ppmValid := true } else s) s
    let ws := s1.witnesses
    let peer := if 3 ≤ ws.length then some (median (ws.map fun l => (s1.gate l).ppm.toInt)) else none
    let a := if s1.fitted s1.alternate && s1.refPresent s1.alternate then alt else none
    let s2 := ((s1.judgeWitness 0 a).judgeWitness 1 peer)
    let s3 := { s2 with clk := { s2.clk with witnesses := ws.length } }
    if s3.clk.altRun = 10 ∧ s3.clk.peerRun = 10 ∧ s3.altUsable = true then s3.decideChange 1 else s3
  else s

/-! ### Changeover and relock (R390, R393) -/

/-- CHANGEOVER: the four quarters stand stopped; the new reference is in use, or the old one again, and every trim is
calibrated. A reference abandoned on the witnesses becomes SUSPECT (R389), a lost one does not (R393). A part-fatal error of the
meantime takes effect (R481). Log 124, DEDUCED; log 165, DEDUCED. -/
def State.changeover (s : State) (trims : List (Fin 64 × Fin 64)) : State :=
  if s.mantelOff then
    let c := s.clk
    let swap := c.pending ≠ 2
    let new := if swap then 1 - c.sel else c.sel
    let s1 := { s with clk := { c with
        sel := new, suspect := if c.pending = 1 then c.suspect ||| BitVec.twoPow 2 c.sel else c.suspect, holdover := false, pending := 0,
        changeovers := min 255 (c.changeovers + 1) } }
    let s2 := (List.range 4).foldl (fun s q => s.calibrate q ((trims.getD q (0, 0)).1.val) ((trims.getD q (0, 0)).2.val)) s1
    let s3 : State := s2.log 0x0704 .contained .power none [new, offArg c.altOff, offArg c.peerMed]
    let s4 := if s3.svc.cause ≠ 0 ∧ 10 ≤ s3.boot.step then s3.fatalStop else s3
    if s4.refPresent s4.clk.sel then s4 else { s4 with clk := { s4.clk with holdover := true } }.judgeHoldover
  else s

/-- WITNESS_WINDOW (R387 to R389). -/
def execWitnessWindow (alt : Option Int) (ppm : List (Nat × Int)) (s : State) : Host.Outcome State Fault Refusal :=
  (s.witnessWindow alt ppm).ends
/-- CHANGEOVER (R390, R393). -/
def execChangeover (trims : List (Fin 64 × Fin 64)) (s : State) : Host.Outcome State Fault Refusal := (s.changeover trims).ends
/-- REFERENCE_LOST (R393). -/
def execReferenceLost (r : Fin 2) (s : State) : Host.Outcome State Fault Refusal := (s.refLost r.val).ends
/-- REFERENCE_PRESENT (R385, R393). -/
def execReferencePresent (r : Fin 2) (s : State) : Host.Outcome State Fault Refusal := (s.refBack r.val).ends

end Sys2Proof.Machine
end

