-- ==== Sys2Proof/Machine/EthCmds.lean ====
section
/-! DEFINITION. The commands of the Ethernet ports and of received Beyfatre packets (11_beyfatre_transport.md R333 to R357, R557). Each
takes the interface, the frame without its frame check sequence, and whether that sequence checks; it acts on the frame of its kind. -/
namespace Sys2Proof.Machine

/-- The transport engine and the ports do nothing: a sleep, a fatal stop, or a stopped mantel (R390, R420, R481). -/
def State.transportOff (s : State) : Bool := s.ethOff || s.mantelOff
/-- What a frame that reaches interface `i` is; none where no frame can be received. -/
def State.receives (s : State) (i : Nat) (b : Bytes) (fcsOk : Bool) : Option Rx :=
  if s.transportOff || !(s.iface i).up then none else some (rxFrame (s.iface i) s.trn.port b fcsOk)
/-- A frame has been received. -/
def State.countRx (s : State) (i : Nat) : State := let x := s.iface i; s.setIface i { x with rxfrm := x.rxfrm + 1 }
def State.dropHeader (s : State) : State := { s with trn := { s.trn with drophdr := s.trn.drophdr + 1 } }
/-- A Beyfatre packet of operation `opc` arrives; a SEND, PUT or GETRSP whose payload exceeds its queue pair's MAXPAY is discarded (R339, Table 11.4). -/
def State.bfPacket (s : State) (i : Nat) (b : Bytes) (fcsOk : Bool) (opc : Nat) (k : State → BfPkt → State) : State :=
  match s.receives i b fcsOk with
  | some (.bf p) =>
    if p.opc ≠ opc then s
    else
      let s1 := s.countRx i
      if (s.qp p.dqpn).state ≠ 0 ∧ p.opc ≠ 6 ∧ (s.qp p.dqpn).maxPay < p.payload.length then s1.dropHeader else k s1 p
  | _ => s

/-- BF_SEND (R348). -/
def execBfSend (i : Fin 4) (frame : Bytes) (fcsOk : Bool) (s : State) : Host.Outcome State Fault Refusal :=
  (s.bfPacket i.val frame fcsOk 1 fun s p => s.rxSend p).ends
/-- BF_PUT (R352). -/
def execBfPut (i : Fin 4) (frame : Bytes) (fcsOk : Bool) (s : State) : Host.Outcome State Fault Refusal :=
  (s.bfPacket i.val frame fcsOk 2 fun s p => s.rxPut p).ends
/-- BF_GET (R353). -/
def execBfGet (i : Fin 4) (frame : Bytes) (fcsOk : Bool) (s : State) : Host.Outcome State Fault Refusal :=
  (s.bfPacket i.val frame fcsOk 3 fun s p => s.rxGet p).ends
/-- GETRSP (R353). -/
def execGetrsp (i : Fin 4) (frame : Bytes) (fcsOk : Bool) (s : State) : Host.Outcome State Fault Refusal :=
  (s.bfPacket i.val frame fcsOk 4 fun s p => s.rxGetrsp p).ends
/-- BF_FLUSH (R354). -/
def execBfFlush (i : Fin 4) (frame : Bytes) (fcsOk : Bool) (s : State) : Host.Outcome State Fault Refusal :=
  (s.bfPacket i.val frame fcsOk 5 fun s p => s.rxFlush p).ends
/-- BF_CHPOST (R355). -/
def execBfChpost (i : Fin 4) (frame : Bytes) (fcsOk : Bool) (s : State) : Host.Outcome State Fault Refusal :=
  (s.bfPacket i.val frame fcsOk 6 fun s p => s.rxChpost p).ends
/-- ACK (R557). -/
def execAck (i : Fin 4) (frame : Bytes) (fcsOk : Bool) (s : State) : Host.Outcome State Fault Refusal :=
  (s.bfPacket i.val frame fcsOk 7 fun s p => s.rxAck p).ends
/-- CONNECT (R343). -/
def execConnect (i : Fin 4) (frame : Bytes) (fcsOk : Bool) (s : State) : Host.Outcome State Fault Refusal :=
  (s.bfPacket i.val frame fcsOk 8 fun s p => s.rxConnect p).ends
/-- ACCEPT (R343). -/
def execAccept (i : Fin 4) (frame : Bytes) (fcsOk : Bool) (s : State) : Host.Outcome State Fault Refusal :=
  (s.bfPacket i.val frame fcsOk 9 fun s p => s.rxAccept p).ends
/-- ARP_REQUEST (R335). -/
def execArpRequest (i : Fin 4) (frame : Bytes) (fcsOk : Bool) (s : State) : Host.Outcome State Fault Refusal :=
  match s.receives i.val frame fcsOk with
  | some (.arp mac ip) => ((s.countRx i.val).ethSend i.val (arpReply (s.iface i.val) mac ip)).ends
  | _ => s.ends
/-- NEIGHBOUR_SOLICITATION (R335). -/
def execNeighbourSolicitation (i : Fin 4) (frame : Bytes) (fcsOk : Bool) (s : State) : Host.Outcome State Fault Refusal :=
  match s.receives i.val frame fcsOk with
  | some (.solicit ip) => ((s.countRx i.val).ethSend i.val (naReply (s.iface i.val) ip)).ends
  | _ => s.ends
/-- ECHO_REQUEST (R335). -/
def execEchoRequest (i : Fin 4) (frame : Bytes) (fcsOk : Bool) (s : State) : Host.Outcome State Fault Refusal :=
  match s.receives i.val frame fcsOk with
  | some (.echo v6 ip msg) => ((s.countRx i.val).ethSend i.val (echoReply (s.iface i.val) v6 ip msg)).ends
  | _ => s.ends
/-- PAUSE_FRAME (R334). -/
def execPauseFrame (i : Fin 4) (frame : Bytes) (fcsOk : Bool) (s : State) : Host.Outcome State Fault Refusal :=
  match s.receives i.val frame fcsOk with
  | some .pause => (let s1 := s.countRx i.val; let x := s1.iface i.val; s1.setIface i.val { x with pause := x.pause + 1 }).ends
  | _ => s.ends
/-- RECEIVED_FRAME (R339): a frame that fails its checks is discarded and counted; one that is nothing of the above is only counted. -/
def execReceivedFrame (i : Fin 4) (frame : Bytes) (fcsOk : Bool) (s : State) : Host.Outcome State Fault Refusal :=
  match s.receives i.val frame fcsOk with
  | some .fcs => (let s1 := s.countRx i.val; let x := s1.iface i.val; (s1.setIface i.val { x with fcs := x.fcs + 1 }).dropHeader).ends
  | some .bad => ((s.countRx i.val).dropHeader).ends
  | some .other => (s.countRx i.val).ends
  | _ => s.ends

end Sys2Proof.Machine
end

