-- ==== Sys2Proof/Machine/Crypto.lean ====
section
/-! DEFINITION. SHA-384 and the verification of ECDSA P-384 signatures (14_boot_and_configuration.md R431, R432, R446, R451). The spec
names the two algorithms; their definitions (FIPS 180-4, FIPS 186-4) are PRESUMED, assumption log 46. -/
namespace Sys2Proof.Machine

/-! ### SHA-384 -/

def shaK0 : List Nat :=
  [0x428A2F98D728AE22, 0x7137449123EF65CD, 0xB5C0FBCFEC4D3B2F, 0xE9B5DBA58189DBBC,
   0x3956C25BF348B538, 0x59F111F1B605D019, 0x923F82A4AF194F9B, 0xAB1C5ED5DA6D8118,
   0xD807AA98A3030242, 0x12835B0145706FBE, 0x243185BE4EE4B28C, 0x550C7DC3D5FFB4E2,
   0x72BE5D74F27B896F, 0x80DEB1FE3B1696B1, 0x9BDC06A725C71235, 0xC19BF174CF692694]
def shaK1 : List Nat :=
  [0xE49B69C19EF14AD2, 0xEFBE4786384F25E3, 0x0FC19DC68B8CD5B5, 0x240CA1CC77AC9C65,
   0x2DE92C6F592B0275, 0x4A7484AA6EA6E483, 0x5CB0A9DCBD41FBD4, 0x76F988DA831153B5,
   0x983E5152EE66DFAB, 0xA831C66D2DB43210, 0xB00327C898FB213F, 0xBF597FC7BEEF0EE4,
   0xC6E00BF33DA88FC2, 0xD5A79147930AA725, 0x06CA6351E003826F, 0x142929670A0E6E70]
def shaK2 : List Nat :=
  [0x27B70A8546D22FFC, 0x2E1B21385C26C926, 0x4D2C6DFC5AC42AED, 0x53380D139D95B3DF,
   0x650A73548BAF63DE, 0x766A0ABB3C77B2A8, 0x81C2C92E47EDAEE6, 0x92722C851482353B,
   0xA2BFE8A14CF10364, 0xA81A664BBC423001, 0xC24B8B70D0F89791, 0xC76C51A30654BE30,
   0xD192E819D6EF5218, 0xD69906245565A910, 0xF40E35855771202A, 0x106AA07032BBD1B8]
def shaK3 : List Nat :=
  [0x19A4C116B8D2D0C8, 0x1E376C085141AB53, 0x2748774CDF8EEB99, 0x34B0BCB5E19B48A8,
   0x391C0CB3C5C95A63, 0x4ED8AA4AE3418ACB, 0x5B9CCA4F7763E373, 0x682E6FF3D6B2B8A3,
   0x748F82EE5DEFB2FC, 0x78A5636F43172F60, 0x84C87814A1F0AB72, 0x8CC702081A6439EC,
   0x90BEFFFA23631E28, 0xA4506CEBDE82BDE9, 0xBEF9A3F7B2C67915, 0xC67178F2E372532B]
def shaK4 : List Nat :=
  [0xCA273ECEEA26619C, 0xD186B8C721C0C207, 0xEADA7DD6CDE0EB1E, 0xF57D4F7FEE6ED178,
   0x06F067AA72176FBA, 0x0A637DC5A2C898A6, 0x113F9804BEF90DAE, 0x1B710B35131C471B,
   0x28DB77F523047D84, 0x32CAAB7B40C72493, 0x3C9EBE0A15C9BEBC, 0x431D67C49C100D4C,
   0x4CC5D4BECB3E42B6, 0x597F299CFC657E2A, 0x5FCB6FAB3AD6FAEC, 0x6C44198C4A475817]
/-- Round constants. -/
def shaK : List Nat := shaK0 ++ shaK1 ++ shaK2 ++ shaK3 ++ shaK4
/-- Initial value. -/
def sha384Init : List Nat :=
  [0xCBBB9D5DC1059ED8, 0x629A292A367CD507, 0x9159015A3070DD17, 0x152FECD8F70E5939,
   0x67332667FFC00B31, 0x8EB44A8768581511, 0xDB0C2E0D64F98FA7, 0x47B5481DBEFA4FA4]
def rotr64 (x n : Nat) : Nat := (x >>> n) ||| ((x <<< (64 - n)) % 2 ^ 64)
def not64 (x : Nat) : Nat := 2 ^ 64 - 1 - x
/-- `n` more words of the message schedule, the newest first. -/
def shaSchedule : Nat → List Nat → List Nat
  | 0, w => w
  | n + 1, w =>
    let x := w.getD 1 0
    let y := w.getD 14 0
    let s1 := rotr64 x 19 ^^^ rotr64 x 61 ^^^ (x >>> 6)
    let s0 := rotr64 y 1 ^^^ rotr64 y 8 ^^^ (y >>> 7)
    shaSchedule n ((s1 + w.getD 6 0 + s0 + w.getD 15 0) % 2 ^ 64 :: w)
/-- The rounds of one block. -/
def shaRounds : List (Nat × Nat) → (a b c d e f g h : Nat) → List Nat
  | [], a, b, c, d, e, f, g, h => [a, b, c, d, e, f, g, h]
  | (k, w) :: r, a, b, c, d, e, f, g, h =>
    let s1 := rotr64 e 14 ^^^ rotr64 e 18 ^^^ rotr64 e 41
    let ch := (e &&& f) ^^^ (not64 e &&& g)
    let t1 := h + s1 + ch + k + w
    let s0 := rotr64 a 28 ^^^ rotr64 a 34 ^^^ rotr64 a 39
    let mj := (a &&& b) ^^^ (a &&& c) ^^^ (b &&& c)
    shaRounds r ((t1 + s0 + mj) % 2 ^ 64) a b c ((d + t1) % 2 ^ 64) e f g
/-- The hash value after `n` blocks of bytes. -/
def shaBlocks : Nat → Bytes → List Nat → List Nat
  | 0, _, h => h
  | n + 1, b, h =>
    let w := (List.range 16).map fun i => ofBytesBE ((b.drop (8 * i)).take 8)
    let x (i : Nat) : Nat := h.getD i 0
    let r := shaRounds (shaK.zip (shaSchedule 64 w.reverse).reverse) (x 0) (x 1) (x 2) (x 3) (x 4) (x 5) (x 6) (x 7)
    shaBlocks n (b.drop 128) ((h.zip r).map fun p => (p.1 + p.2) % 2 ^ 64)
/-- Log 46, PRESUMED. -/
def sha384 (b : Bytes) : Bytes :=
  let m := b ++ 0x80 :: List.replicate ((239 - b.length % 128) % 128) 0 ++ toBytesBE 16 (8 * b.length)
  ((shaBlocks (m.length / 128) m sha384Init).take 6).flatMap fun w => toBytesBE 8 w

/-! ### ECDSA P-384 -/

def p384 : Nat := 2 ^ 384 - 2 ^ 128 - 2 ^ 96 + 2 ^ 32 - 1
def p384b : Nat := 0xb3312fa7e23ee7e4988e056be3f82d19181d9c6efe8141120314088f5013875ac656398d8a2ed19d2a85c8edd3ec2aef
def p384n : Nat := 0xffffffffffffffffffffffffffffffffffffffffffffffffc7634d81f4372ddf581a0db248b0a77aecec196accc52973
def p384gx : Nat := 0xaa87ca22be8b05378eb1c71ef320ad746e1d3b628ba79b9859f741e082542a385502f25dbf55296c3a545e3872760ab7
def p384gy : Nat := 0x3617de4a96262c6f5d9e98bf9292dc29f8f41dbd289a147ce9da3113b5f0b8c00a60b1ce1d7e819d7a431d7c90ea0e5f
/-- `x` to a power of `n` bits modulo `m`. -/
def powMod (m : Nat) : (n e x : Nat) → Nat
  | 0, _, _ => 1 % m
  | n + 1, e, x =>
    let h := powMod m n (e / 2) (x * x % m)
    if e % 2 = 1 then h * x % m else h
/-- The inverse modulo a prime of 384 bits. -/
def invMod (m x : Nat) : Nat := powMod m 384 (m - 2) x
/-- A point in Jacobian coordinates; Z = 0 is the point at infinity. -/
structure EcPoint where
  x : Nat
  y : Nat
  z : Nat
  deriving DecidableEq, Repr
def ecInf : EcPoint := { x := 1, y := 1, z := 0 }
/-- `a − b` modulo p. -/
def subP (a b : Nat) : Nat := (a + p384 - b % p384) % p384
def ecDouble (q : EcPoint) : EcPoint :=
  if q.z = 0 ∨ q.y = 0 then ecInf
  else
    let y2 := q.y * q.y % p384
    let s := 4 * q.x * y2 % p384
    let z2 := q.z * q.z % p384
    let m := 3 * (subP q.x z2) * ((q.x + z2) % p384) % p384
    let x := subP (m * m % p384) (2 * s)
    { x := x, y := subP (m * subP s x % p384) (8 * y2 * y2), z := 2 * q.y * q.z % p384 }
def ecAdd (a b : EcPoint) : EcPoint :=
  if a.z = 0 then b
  else if b.z = 0 then a
  else
    let za := a.z * a.z % p384
    let zb := b.z * b.z % p384
    let u1 := a.x * zb % p384
    let u2 := b.x * za % p384
    let s1 := a.y * zb * b.z % p384
    let s2 := b.y * za * a.z % p384
    if u1 = u2 then (if s1 = s2 then ecDouble a else ecInf)
    else
      let h := subP u2 u1
      let r := subP s2 s1
      let h2 := h * h % p384
      let h3 := h2 * h % p384
      let v := u1 * h2 % p384
      let x := subP (subP (r * r % p384) h3) (2 * v)
      { x := x, y := subP (r * subP v x % p384) (s1 * h3), z := h * a.z * b.z % p384 }
/-- `k` times a point, over the `n` low bits of `k`, the highest first. -/
def ecMul (q : EcPoint) (k : Nat) : Nat → EcPoint → EcPoint
  | 0, acc => acc
  | n + 1, acc =>
    let d := ecDouble acc
    ecMul q k n (if k.testBit n then ecAdd d q else d)
/-- A public key in SEC 1 uncompressed form that names a point of the curve. -/
def ecKeyOk (key : Bytes) : Bool :=
  let x := ofBytesBE ((key.drop 1).take 48)
  let y := ofBytesBE ((key.drop 49).take 48)
  key.length == 97 && key.headD 0 == 4 && decide (x < p384) && decide (y < p384) && decide (y * y % p384 = (x * x * x + (p384 - 3) * x + p384b) % p384)
/-- The signature `sig` (r, s) of `msg` verifies under `key`. -/
def ecdsaVerify (key sig msg : Bytes) : Bool :=
  let r := ofBytesBE (sig.take 48)
  let t := ofBytesBE ((sig.drop 48).take 48)
  if ecKeyOk key ∧ sig.length = 96 ∧ 1 ≤ r ∧ r < p384n ∧ 1 ≤ t ∧ t < p384n then
    let w := invMod p384n t
    let e := ofBytesBE (sha384 msg)
    let g : EcPoint := { x := p384gx, y := p384gy, z := 1 }
    let k : EcPoint := { x := ofBytesBE ((key.drop 1).take 48), y := ofBytesBE ((key.drop 49).take 48), z := 1 }
    let q := ecAdd (ecMul g (e * w % p384n) 384 ecInf) (ecMul k (r * w % p384n) 384 ecInf)
    if q.z = 0 then false
    else
      let zi := invMod p384 q.z
      decide (q.x * (zi * zi % p384) % p384 % p384n = r)
  else false

end Sys2Proof.Machine
end

