-- ==== Sys2Proof/Machine/Image.lean ====
section
/-! DEFINITION. The flash header, the image copies and the configuration records (14_boot_and_configuration.md R428 to R439, R456, R458). -/
namespace Sys2Proof.Machine

/-! ### The flash -/

/-- 4-byte addresses are in use: the quad read that SFDP lists takes them (R428). Log 166, DEDUCED. -/
def addr4Used (f : Flash) : Bool := f.sfdp && f.quad && f.addr4
/-- An offset as the flash sees it: with 3-byte addresses, modulo 16 MiB. Log 166, DEDUCED. -/
def flashAddr (f : Flash) (a : Nat) : Nat := if addr4Used f then a else a % 2 ^ 24
def flashByte (f : Flash) (a : Nat) : Byte :=
  let x := flashAddr f a
  match f.parts.find? fun p => p.1 ≤ x && x < p.1 + p.2.length with
  | some p => p.2.getD (x - p.1) 0xFF
  | none => 0xFF
/-- `n` bytes of the flash from an offset. -/
def flashRead (f : Flash) (a n : Nat) : Bytes :=
  match f.parts.find? fun p => p.1 ≤ a && a + n ≤ p.1 + p.2.length && (addr4Used f || a + n ≤ 2 ^ 24) with
  | some p => (p.2.drop (a - p.1)).take n
  | none => (List.range n).map fun j => flashByte f (a + j)
/-- A header whose MAGIC and CRC check (R430). Log 62, DEDUCED. -/
def headerOk (h : Bytes) : Bool := le h 0 4 == 0x5DE90A01 && le h 60 4 == crc32c (h.take 60)
/-- The header used: its place, 0 or 1, and its bytes. -/
def flashHeader (f : Flash) : Option (Nat × Bytes) :=
  let a := flashRead f 0 64
  let b := flashRead f 0x1000 64
  if headerOk a then some (0, a) else if headerOk b then some (1, b) else none

/-! ### Records (R436, R437) -/

/-- The records of a body in their order, and the TYPE of one that the body cuts short (0 where not even its TYPE is there). -/
def parseRecords : Nat → Bytes → List (Nat × Bytes) × Option Nat
  | 0, b => ([], if b = [] then none else some 0)
  | n + 1, b =>
    if b = [] then ([], none)
    else if b.length < 4 then ([], some 0)
    else
      let ty := le b 0 2
      let len := le b 2 2
      let total := 4 + (len + 3) / 4 * 4
      if 65532 < len ∨ b.length < total then ([], some ty)
      else
        let r := parseRecords n (b.drop total)
        ((ty, (b.drop 4).take len) :: r.1, r.2)
def zeroBytes (b : Bytes) (o n : Nat) : Bool := le b o n == 0
def within (x lo hi : Nat) : Bool := lo ≤ x && x ≤ hi
/-- A route-table entry of a class keeps R310. -/
def routeOk (cls e : Nat) : Bool :=
  let exit (x : Nat) : Bool := x < 20 || x == 31
  decide (e < 2 ^ 15) && exit (field e 0 5) && exit (field e 7 5) && decide (field e 5 2 ≠ 3) && decide (field e 12 2 ≠ 3)
  && (e.testBit 14 || (field e 7 5 == 0 && field e 12 2 == 0)) && (cls != 4 || (field e 5 2 == 0 && field e 12 2 == 0))
/-- `n` route-table entries of a class, one after another. -/
def routesOk (cls : Nat) : Nat → Bytes → Bool
  | 0, _ => true
  | n + 1, v => routeOk cls (le v 0 4) && routesOk cls n (v.drop 4)
/-- A LINK record's LIMITs (R295): each active one 16 to 1,536, an inactive one 0, 1,536 together. -/
def limitsOk (v : Bytes) : Bool :=
  let m := le v 2 1
  let lim (i : Nat) : Nat := le v (4 + 2 * i) 2
  (List.range 8).all (fun i => if m.testBit i then within (lim i) 16 1536 else lim i == 0) && decide (((List.range 8).map lim).sum ≤ 1536)
/-- Interfaces that a port mode forms (Table 11.1). -/
def modeIfaces (m : Nat) : Nat := if m = 0 then 0 else if m ≤ 3 then 1 else 2
/-- A record of a known TYPE keeps its row of Table 14.4. -/
def recordOk (ty : Nat) (v : Bytes) : Bool :=
  let n := v.length
  let b (i : Nat) : Nat := le v i 1
  match ty with
  | 1 => n == 8 && decide (b 1 ≤ 0xE) && within (le v 2 2) 4 16384 && decide (le v 4 2 ≤ 4095) && decide (1 ≤ b 6) && b 7 == 0
  | 2 => n == 4 && decide (b 0 < 4) && zeroBytes v 1 3
  | 3 => n == 8 && (List.range 4).all (fun i => decide (b i ≤ 32)) && within (le v 4 4) 10 100000
  | 4 => n == 40 && decide (b 0 < 8) && decide (1 ≤ le v 2 2) && decide (1 ≤ le v 4 2) && zeroBytes v 6 2
  | 5 => let k := b 10
    decide (12 ≤ n) && within k 1 8 && n == 12 + 4 * k && decide (b 0 < 2) && decide (b 1 ≤ 8) && b 3 == 0 && within (le v 4 2) 13 1000 && within (b 6) 70 104
    && decide (60 ≤ b 7) && decide (1 ≤ le v 8 2) && b 11 == 0
    && (List.range k).all fun i => decide (b (12 + 4 * i) < 128) && decide (b (14 + 4 * i) < 128) && decide (b (15 + 4 * i) < 16)
                                   && (b (15 + 4 * i) == 0 || (b (14 + 4 * i)).testBit 0)
  | 6 => n == 20 && decide (b 1 ≤ 2) && zeroBytes v 6 2 && decide (le v 10 4 ≤ 65536) && decide (le v 16 2 ≤ 4096) && zeroBytes v 18 2
  | 7 => n == 24 && decide (b 0 ≤ 19) && decide (b 1 < 4) && b 3 == 0 && limitsOk v && within (le v 20 2) 10 10000 && within (le v 22 2) 10 10000
  | 8 => n == 1028 && decide (b 0 ≤ 4) && zeroBytes v 1 3 && routesOk (b 0) 256 (v.drop 4)
  | 9 => n == 4 + 64 * modeIfaces (b 1) && decide (4 ≤ n) && decide (b 0 < 2) && decide (b 1 ≤ 6) && zeroBytes v 2 2
    && (List.range (modeIfaces (b 1))).all fun i => let o := 4 + 64 * i; decide (b (o + 6) < 8) && decide (le v (o + 8) 2 < 4096) && zeroBytes v (o + 36) 28
  | 10 => let k := (n - 4) / 24
    decide (4 ≤ n) && n == 4 + 24 * k && within k 1 256 && decide (b 0 < 4) && zeroBytes v 1 3
    && (List.range k).all fun i => let o := 4 + 24 * i; (b (o + 22) == 4 || b (o + 22) == 6) && b (o + 23) == 0
  | 11 => n == 12 && zeroBytes v 2 2 && decide (le v 4 8 < 2 ^ 40) && le v 4 8 % 0x200000 == 0
  | 12 => n == 124 && decide (b 0 < 4) && (b 1 == 4 || b 1 == 6) && within (le v 2 2) 1 16383 && within (b 20) 8 12 && zeroBytes v 21 6
  | 13 => n == 8 && decide (b 0 < 2) && b 1 == 0 && zeroBytes v 4 4
  | _ => ty.testBit 15
/-- How often a TYPE may occur. -/
def recordCounts : List (Nat × Nat × Nat) :=
  [(1, 1, 1), (2, 1, 1), (3, 1, 1), (4, 1, 1), (5, 1, 1), (6, 0, 64), (7, 0, 20)] ++ [(8, 5, 5), (9, 0, 2), (10, 0, 4), (11, 1, 1), (12, 1, 1), (13, 0, 1)]

/-- Records of a TYPE, and the first of them. -/
def recsOf (rs : List (Nat × Bytes)) (ty : Nat) : List Bytes := (rs.filter fun r => r.1 == ty).map fun r => r.2
def recOf (rs : List (Nat × Bytes)) (ty : Nat) : Bytes := (recsOf rs ty).headD []

/-! ### Conditions across records (R438) -/

/-- Blocks [base, base + count) of which no two overlap. -/
def disjointBlocks : List (Nat × Nat) → Bool
  | [] => true
  | (b, n) :: r => r.all (fun x => n == 0 || x.2 == 0 || b + n ≤ x.1 || x.1 + x.2 ≤ b) && disjointBlocks r
/-- The interfaces that an ETH_PORT record forms (R333): number and its 64 bytes, with the port's mode. -/
def portIfaces (v : Bytes) : List (Nat × Nat × Bytes) :=
  (List.range (modeIfaces (le v 1 1))).map fun h => (2 * le v 0 1 + h, le v 1 1, (v.drop (4 + 64 * h)).take 64)
/-- The interfaces that the image forms: a later ETH_PORT record of a port replaces an earlier one. Log 64, DEDUCED. -/
def formedIfaces (rs : List (Nat × Bytes)) : List (Nat × Nat × Bytes) :=
  (recsOf rs 9).foldl (fun l v => (l.filter fun f => f.1 / 2 != le v 0 1) ++ portIfaces v) []
/-- Bit of byte 6 of an interface that says it has an address of an IP version. -/
def versionBit (v : Nat) : Nat := if v = 4 then 1 else 2
/-- The first TYPE that breaks R438, lowest first. -/
def crossIllegal (rs : List (Nat × Bytes)) : Option Nat :=
  let part := recOf rs 1
  let stk := recOf rs 4
  let pow := recOf rs 5
  let ten := recsOf rs 6
  let links := recsOf rs 7
  let repo := recOf rs 12
  let pool := le (recOf rs 11) 4 8
  let member (c : Nat) : Bool := (le stk (8 + c / 8) 1).testBit (c % 8)
  let devs := (List.range (le pow 10 1)).map fun i => le pow (14 + 4 * i) 1
  if !(member (le stk 1 1) && member (le part 0 1)) then some 4
  else if !(List.range 7).all (fun r => (devs.filter fun d => d.testBit r).length == 1) ∨ le pow 6 1 < le pow 7 1 + 5 then some 5
  else if !(decide (ten.map fun v => le v 0 1).Nodup)
       || !disjointBlocks (ten.map fun v => (le v 2 2, le v 4 2)) || !ten.all (fun v => decide (le v 2 2 + le v 4 2 ≤ 0x2000))
       || !disjointBlocks (ten.map fun v => (le v 8 2, le v 10 4)) || !ten.all (fun v => decide (le v 8 2 + le v 10 4 ≤ 65536))
       || !disjointBlocks (ten.map fun v => (le v 14 2, le v 16 2)) || !ten.all (fun v => decide (le v 14 2 + le v 16 2 ≤ 4096)) then some 6
  else if !(decide (links.map fun v => le v 0 1).Nodup) || !links.all (fun v => le v 1 1 % 2 == 0 || le v 2 1 % 4 == 3) then some 7
  else if !(decide ((recsOf rs 8).map fun v => le v 0 1).Nodup) then some 8
  else if 4 * hbmQuarter < pool + 0x6000000 ∨ pool / hbmQuarter ≠ (pool + 0x6000000 - 1) / hbmQuarter then some 11
  else match (formedIfaces rs).find? fun f => f.1 == le repo 0 1 with
    | some f => if (le f.2.2 6 1).testBit (versionBit (le repo 1 1)) then none else some 12
    | none => some 12
/-- The TYPE that makes a body illegal (R437, R438): the first record that breaks Table 14.4 by itself or is cut short, else the lowest TYPE
that occurs too often or too seldom, else what R438 names. -/
def bodyIllegal (body : Bytes) : Option Nat :=
  let (rs, cut) := parseRecords (body.length / 4 + 1) body
  match rs.find? fun r => !recordOk r.1 r.2 with
  | some r => some r.1
  | none =>
    match cut with
    | some ty => some ty
    | none =>
      match recordCounts.find? fun c => !within (recsOf rs c.1).length c.2.1 c.2.2 with
      | some c => some c.1
      | none => crossIllegal rs

/-! ### Copies (R431 to R433) -/

/-- What a copy's judgement gives. -/
structure Copy where
  verdict : Nat
  rtype : Nat
  gen : Nat
  extent : Bytes
  recs : List (Nat × Bytes)
  deriving DecidableEq, Repr
/-- Judges the copy in a reservation under the ledger's values in force (R432, R458). Log 63, DEDUCED. -/
def judgeCopy (f : Flash) (off size : Nat) (key : Option Bytes) (pinPart pinChip : Option Nat) : Copy :=
  let head := flashRead f off 128
  let gen := le head 8 4
  let len := le head 12 4
  let bad (v t : Nat) (e : Bytes) : Copy := { verdict := v, rtype := t, gen := gen, extent := e, recs := [] }
  if le head 0 4 ≠ 0x5DE90A02 ∨ le head 4 1 ≠ 1 ∨ size < 128 + len + 96 then bad 1 0 []
  else
    let e := flashRead f off (128 + len + 96)
    let body := (e.drop 128).take len
    let pub := (e.drop 16).take 97
    let rs := (parseRecords (body.length / 4 + 1) body).1
    if le e 0x7C 4 ≠ crc32c (e.take 0x7C ++ body) then bad 2 0 e
    else if (match key with | some k => decide (sha384 pub ≠ k) | none => false) then bad 3 0 e
    else if ecdsaVerify pub (e.drop (128 + len)) (e.take (128 + len)) = false then bad 4 0 e
    else match bodyIllegal body with
      | some t => bad 5 t e
      | none =>
        let pinned (p : Option Nat) (x : Nat) : Bool := match p with | some y => x != y | none => false
        if pinned pinPart (le (recOf rs 1) 1 1) || pinned pinChip (le (recOf rs 1) 0 1) then bad 6 0 e
        else { verdict := 0, rtype := 0, gen := gen, extent := e, recs := rs }
/-- The copy that boots, 0 A or 1 B, and whether the twins diverge (R433). -/
def chooseCopy (a b : Copy) : Option (Nat × Bool) :=
  if a.verdict = 0 then
    if b.verdict = 0 then
      if a.gen < b.gen then some (1, false) else if b.gen < a.gen then some (0, false) else some (0, decide (a.extent ≠ b.extent))
    else some (0, false)
  else if b.verdict = 0 then some (1, false) else none

/-- A pin: none where the setting is unpinned. -/
def pinOf (v : Option Bytes) : Option Nat := match v with | some b => if le b 0 2 = 0xFFFF then none else some (le b 0 2) | none => none

/-! ### The image in force (R439) -/

/-- The neighbours that a NEIGHBOUR record lists. -/
def nbrsOf (v : Bytes) : List (Nat × Nat × Nat) :=
  (List.range ((v.length - 4) / 24)).map fun i =>
    let o := 4 + 24 * i
    (le v (o + 22) 1, if le v (o + 22) 1 = 4 then le v o 4 else le v o 16, le v (o + 16) 6)
/-- An interface as the image gives it. Log 61, DEDUCED; log 64, DEDUCED. -/
def ifaceOf (rs : List (Nat × Bytes)) (f : Nat × Nat × Bytes) : Iface :=
  let b := f.2.2
  let one (i : Nat) : Bool := (le b 6 1).testBit i
  { mode := f.2.1, vlanEn := one 0, vid := le b 8 2, mac := le b 0 6, v4 := if one 1 then some (le b 16 4) else none,
    v6 := if one 2 then some (le b 20 16) else none, ttl := le b 7 1, gateway := le b 10 6,
    nbrs := (recsOf rs 10).flatMap fun v => if le v 0 1 = f.1 then nbrsOf v else [] }
/-- The route tables: class × 256 + chip. -/
def routesOf (rs : List (Nat × Bytes)) : SMap (BitVec 15) :=
  (recsOf rs 8).foldl (fun m v => (List.range 256).foldl (fun m d => put 0x1F (le v 0 1 * 256 + d) (BitVec.ofNat 15 (le v (4 + 4 * d) 4)) m) m) []
/-- A TENANT record. -/
def tenantOf (v : Bytes) : Tenant :=
  { id := le v 0 1, ceiling := le v 1 1, flagBase := le v 2 2, flagCount := le v 4 2, chanBase := le v 8 2, chanCount := le v 10 4,
    cntBase := le v 14 2, cntCount := le v 16 2 }
/-- The settings of a legal body take force. Log 65, DEDUCED. -/
def State.applyImage (s : State) (rs : List (Nat × Bytes)) : State :=
  let part := recOf rs 1
  let clk := recOf rs 2
  let rng := recOf rs 3
  let stk := recOf rs 4
  let pow := recOf rs 5
  let svc := recOf rs 13
  let chip := le part 0 1
  let one (b : Bytes) (o i : Nat) : Bool := (le b o 1).testBit i
  let devs := (List.range (le pow 10 1)).map fun i => (le pow (12 + 4 * i) 1, le pow (13 + 4 * i) 1, le pow (14 + 4 * i) 1)
  let sel := (List.range (le pow 10 1)).foldl (fun m i => max m (le pow (15 + 4 * i) 1)) 0
  let s1 := { s with
    rt := { s.rt with chip := chip, part := le part 1 1, hopLimit := le part 6 1, unreach := ~~~(BitVec.twoPow 256 chip), route := routesOf rs },
    stk := { s.stk with
      beatK := le part 2 2, rtMode := one stk 0 0, simmerEn := one stk 0 1, dlPolicy := field (le stk 0 1) 2 2, leader := le stk 1 1,
      isLeader := le stk 1 1 == chip, simmerAfter := le stk 2 2, stallBeats := le stk 4 2, members := (List.range 256).filter (fun c => one stk (8 + c / 8) (c % 8)) },
    clk := { s.clk with primary := le clk 0 1 % 2, altFitted := one clk 0 1 },
    pwr := { s.pwr with
      dampHold := one pow 0 0, voffset := le pow 1 1, rll := le pow 2 1, dramp := le pow 4 2, tdn := le pow 6 1, tup := le pow 7 1,
      raiseBeats := le pow 8 2, regs := devs, avsSel := sel },
    tenants := (recsOf rs 6).map tenantOf,
    trn := { s.trn with
      port := le (recOf rs 11) 0 2, pool := le (recOf rs 11) 4 8,
      ifaces := (recsOf rs 9).foldl (fun m v => (portIfaces v).foldl (fun m f => put {} f.1 (ifaceOf rs f) m) (put {} (2 * le v 0 1 + 1) {} (put {} (2 * le v 0 1) {} m))) s.trn.ifaces },
    svc := { s.svc with mirrorEn := one svc 0 0, mirrorChan := le svc 2 2 },
    boot := { s.boot with conf := rs } }
  let s2 := (List.range 4).foldl (fun s q =>
    (List.range 8).foldl (fun s m => s.setRange q ((s.range q).setMover m { (s.range q).mover m with timeout := le rng 4 4 }))
      (s.setRange q { s.range q with moverMin := le rng q 1 })) s1
  let s3 := (List.range 32).foldl (fun s h => s.setHob h { s.hob h with emberGap := le part 4 2 }) s2
  (recsOf rs 7).foldl (fun s v =>
    let l := le v 0 1
    s.setGate l { s.gate l with
      image := one v 1 0, en := one v 1 0, reach := field (le v 1 1) 1 1, vcmask := BitVec.ofNat 8 (le v 2 1), credit := le v 20 2, drain := le v 22 2,
      limit := (List.range 8).foldl (fun m i => put 0 i (le v (4 + 2 * i) 2) m) [] }) s3

end Sys2Proof.Machine
end

