-- ==== Sys2Proof/Machine/Power.lean ====
section
/-! DEFINITION. The core rail, the regulators, the damper's steps and thermal trip (13_power_and_states.md R400 to R416), and the fatal
errors of the service core (15_service_sideband_errors.md R461, R481). -/
namespace Sys2Proof.Machine

/-- The service core runs its ordinary service: bring-up has reached step `n`, and it is neither asleep nor in fatal service (R461). -/
def State.serving (s : State) (n : Nat) : Bool := decide (n ≤ s.boot.step) && s.pwr.bank == 0 && !s.svc.fatalSvc && s.boot.held == 0

/-! ### Power faults (R403, R415) -/

/-- A power fault of a cause of PWR_STATE: raises are abandoned, and POWER_FAULT is logged once for the cause. A write that is still to be acknowledged goes on
being judged, unless this cause has judged it. A quarter whose stop was to raise its grade heads for the full envelopes of the grade it keeps (R412).
Log 162, DEDUCED. -/
def State.powerFault (s : State) (cause : Nat) : State :=
  let p := s.pwr
  let up (q : Nat) : Bool := match get none q s.clk.newGrade with | some g => decide (g ≤ s.grade q) | none => false
  let s1 := { s with
    pwr := { p with fault := true, cause := if p.cause = 0 then cause else p.cause, raise := 0, writing := p.writing && cause != 1 && cause != 2,
                    logged := if p.logged.contains cause then p.logged else cause :: p.logged },
    clk := { s.clk with newGrade := s.clk.newGrade.filter fun e => match e.2 with | some g => decide (s.grade e.1 < g) | none => false } }
  let s2 := ((List.range 4).filter fun q => up q && s.clk.inStop.getLsbD q && !s.pwr.simmer).foldl (fun s q => s.sinksTo q (s.grade q)) s1
  if p.logged.contains cause then s2 else s2.log 0x0803 .contained .power none [cause]

/-! ### AVSBus (R399 to R403) -/

/-- Millivolts of a voltage code. -/
def codeMv (c : Nat) : Nat := 620 + 5 * c
def nearMv (a b : Nat) : Bool := a ≤ b + 15 && b ≤ a + 15
/-- AVS_ACK: a status poll answered with `slaveAck` and VDone, and then a voltage read-back in mV. A power fault does not end the judgement (R403). -/
def State.avsPoll (s : State) (slaveAck : Nat) (vdone : Bool) (mv : Nat) : State :=
  let p := s.pwr
  if s.serving 5 = false then s
  else if slaveAck ≠ 0 then
    if p.writing then
      let s1 := { s with pwr := { p with naks := p.naks + 1 } }
      if 3 ≤ p.naks + 1 then s1.powerFault 2 else s1
    else s
  else
    let p1 := { p with readback := mv % 1024, naks := 0 }
    let near := nearMv mv (codeMv p.commanded)
    if p.writing then
      let done := p.vdone || vdone
      if done && near then { s with pwr := { p1 with vdone := true, acked := true, writing := false } }
      else { s with pwr := { p1 with vdone := done } }
    else if p.acked && !near then ({ s with pwr := p1 }).powerFault 3
    else { s with pwr := p1 }
/-- AVS_ACK_TIMEOUT: 1 ms has passed since the write. -/
def State.avsTimeout (s : State) : State := if s.pwr.writing && s.serving 5 then s.timed (s.powerFault 1) else s

/-! ### Regulator alerts (R413, R414) -/

/-- OFF of the PMBus STATUS_WORD: bit 6. Log 130, PRESUMED. -/
def statusOff (w : BitVec 16) : Bool := w.getLsbD 6
/-- The STATUS commands that STATUS_WORD flags, as PMBus places its bits. Log 130, PRESUMED. -/
def flaggedStatus (w : BitVec 16) : List String :=
  (if w.getLsbD 15 || w.getLsbD 5 then ["STATUS_VOUT"] else []) ++ (if w.getLsbD 14 || w.getLsbD 4 then ["STATUS_IOUT"] else [])
    ++ (if w.getLsbD 13 || w.getLsbD 3 then ["STATUS_INPUT"] else []) ++ (if w.getLsbD 2 then ["STATUS_TEMPERATURE"] else [])
    ++ (if w.getLsbD 12 then ["STATUS_MFR_SPECIFIC"] else [])
/-- One reading of the alerting device: the Alert Response Address, STATUS_WORD and what it flags are read, REG_ALERT, CLEAR_FAULTS, and the response of R414. -/
def State.readAlert (s : State) (dev : Nat) (w : BitVec 16) : State :=
  let d := BitVec.ofNat 8 dev
  let s0 := (flaggedStatus w).foldl (fun s c => s.emit (.bytes c [d])) ((s.emit (.bytes "ALERT_RESPONSE" [])).emit (.bytes "STATUS_WORD" [d]))
  let s1 := { s0 with pwr := { s0.pwr with status := w.toNat, device := dev, pmbNaks := put 0 dev 0 s0.pwr.pmbNaks } }
  let s2 := (s1.log 0x0802 .contained .power none [dev, w.toNat]).emit (.bytes "CLEAR_FAULTS" [d])
  let s3 := if w &&& ~~~(0x40 : BitVec 16) ≠ 0 then s2.powerFault 5 else s2
  if statusOff w then s3.partFatal 2 else s3
/-- A device that does not acknowledge its address `k` times; the third time in succession is a power fault (R403). -/
def State.pmbusNak (s : State) (dev k : Nat) : State :=
  let n := get 0 dev s.pwr.pmbNaks
  let s1 := { s with pwr := { s.pwr with pmbNaks := put 0 dev (n + k) s.pwr.pmbNaks } }
  if n < 3 ∧ 3 ≤ n + k then s1.powerFault 4 else s1
/-- The service core reads the alerting device `dev` of the regulator map, which answers STATUS_WORD `w` or, without `ack`, nothing; the pin
stays asserted or not. Log 131, DEDUCED. -/
def State.alertReading (s : State) (dev : Nat) (w : BitVec 16) (ack still : Bool) : State :=
  if s.serving 5 && decide (dev < s.pwr.regs.length) then
    let s1 := { s with pwr := { s.pwr with smbalert := still } }
    if ack then s1.readAlert dev w else (s1.emit (.bytes "ALERT_RESPONSE" [])).pmbusNak dev 1
  else { s with pwr := { s.pwr with smbalert := true } }

/-! ### Damper, thermal trip -/

/-- DAMPER_STEP of a sink (R409). -/
def State.damperStep (s : State) (k : Nat) : State := s.setSink k (s.sink k).step
/-- THERMTRIP (R406). -/
def State.thermTrip (s : State) (t : Int) : State := if 115 ≤ t ∧ s.pwr.bank = 0 then { s with pwr := { s.pwr with trip := true } } else s

/-! ### The service core's own failures (R461, R481) -/

/-- WATCHDOG or SERVICE_CORE_ERROR: cause SERVICE_CORE, and the service core restarts in fatal service. Log 134, DEDUCED. -/
def State.serviceFails (s : State) : State :=
  if decide (2 ≤ s.boot.step) && s.pwr.bank == 0 && s.boot.held == 0 then
    let s1 := s.partFatal 3
    { s1 with svc := { s1.svc with fatalSvc := true, executing := false } }
  else s

/-- AVS_ACK (R401, R403). -/
def execAvsAck (slaveAck : Fin 4) (vdone : Bool) (mv : Nat) (s : State) : Host.Outcome State Fault Refusal := (s.avsPoll slaveAck.val vdone mv).ends
/-- AVS_ACK_TIMEOUT (R403). -/
def execAvsAckTimeout (s : State) : Host.Outcome State Fault Refusal := s.avsTimeout.ends
/-- IRAIL_READ (R400). -/
def execIrailRead (amps : Fin 1024) (s : State) : Host.Outcome State Fault Refusal :=
  (if s.serving 5 then s.timed { s with pwr := { s.pwr with amps := amps.val } } else s).ends
/-- DAMPER_STEP (R409). -/
def execDamperStep (k : Fin 36) (s : State) : Host.Outcome State Fault Refusal := (s.damperStep k.val).ends
/-- SMBALERT (R413). -/
def execSmbalert (dev : Fin 8) (w : BitVec 16) (ack still : Bool) (s : State) : Host.Outcome State Fault Refusal :=
  (s.alertReading dev.val w ack still).ends
/-- SMBALERT_REPEAT (R413): only while the pin stays asserted. -/
def execSmbalertRepeat (dev : Fin 8) (w : BitVec 16) (ack still : Bool) (s : State) : Host.Outcome State Fault Refusal :=
  (if s.pwr.smbalert then s.timed (s.alertReading dev.val w ack still) else s).ends
/-- THERMTRIP: a sensor of quarter `g`, or of the mantel (4), reads `t` °C (R406). -/
def execThermtrip (_g : Fin 5) (t : Int) (s : State) : Host.Outcome State Fault Refusal := (s.thermTrip t).ends
/-- WATCHDOG (R461). -/
def execWatchdog (s : State) : Host.Outcome State Fault Refusal := s.serviceFails.ends
/-- SERVICE_CORE_ERROR (R461). -/
def execServiceCoreError (s : State) : Host.Outcome State Fault Refusal := s.serviceFails.ends

end Sys2Proof.Machine
end

