-- ==== Sys2Proof/Machine/Boot.lean ====
section
/-! DEFINITION. Resets, wakes and bring-up (14_boot_and_configuration.md R425 to R443; 13_power_and_states.md R421 to R423;
17_signals_and_package.md R513 to R516; 18_electrical.md R541 to R544). -/
namespace Sys2Proof.Machine

/-- Bring-up may go on: no reset is asserted, the part is awake, and no part-fatal error has stopped it (R481). -/
def State.bringUpFree (s : State) : Bool := s.boot.held == 0 && s.pwr.bank == 0 && s.svc.cause == 0 && !s.pwr.off
/-- Bring-up may go on past step 2, where test mode stops it (R485). -/
def State.bringsUp (s : State) : Bool := s.bringUpFree && !s.svc.testMode

/-! ### Steps 1 to 3 -/

def State.ledValue (s : State) (t : Nat) : Option Bytes := (s.ledCurrent t).map fun n => (s.ledSlot t n).value
/-- A slot whose burn was interrupted is current or spent from now on (R459). -/
def State.settleBurn (s : State) : State :=
  match s.boot.burning with
  | none => s
  | some (t, n, v) =>
    let good := crc8 v
    let x : LSlot := if Config.burnTakes s.fresh then { burned := true, check := good, value := v }
                     else { burned := true, check := (good + 1 + Config.burnCheck s.fresh % 255) % 256, value := v }
    { s with fresh := s.fresh + 1, boot := { s.boot with burning := none, ledger := put {} (8 * t + n) x s.boot.ledger } }
/-- Step 1: the ledger is sensed, and the values in force are fixed (R456). -/
def State.bootStep1 (s : State) : State :=
  let s1 := s.settleBurn
  { s1 with boot := { s1.boot with step := 1, keyHash := s1.ledValue 1, pinPart := pinOf (s1.ledValue 2), pinChip := pinOf (s1.ledValue 3),
                                   dbgLocked := (s1.ledCurrent 4).isSome } }
/-- Judges the two copies of the flash and records their verdicts (R428 to R432). -/
def State.readFlash (s : State) (f : Flash) : State × Option (Copy × Copy) :=
  let b := { s.boot with sfdp := f.sfdp, quad := f.sfdp && f.quad, addr4 := addr4Used f, size := if f.sfdp then f.size else 0 }
  match flashHeader f with
  | none => ({ s with boot := { b with verdictA := 7, verdictB := 7, rtypeA := 0, rtypeB := 0 } }, none)
  | some (at_, h) =>
    let ra := (le h 8 4, le h 12 4)
    let rb := (le h 16 4, le h 20 4)
    let ca := judgeCopy f ra.1 ra.2 b.keyHash b.pinPart b.pinChip
    let cb := judgeCopy f rb.1 rb.2 b.keyHash b.pinPart b.pinChip
    let s1 := { s with boot := { b with hdr := at_ == 1, resA := ra, resB := rb, verdictA := ca.verdict, verdictB := cb.verdict, rtypeA := ca.rtype, rtypeB := cb.rtype,
                                        genA := ca.gen, genB := cb.gen } }
    let s2 := if ca.verdict = 0 then s1 else s1.log 0x0101 .contained .service none [0, ca.verdict, ca.rtype]
    (if cb.verdict = 0 then s2 else s2.log 0x0101 .contained .service none [1, cb.verdict, cb.rtype], some (ca, cb))
/-- Step 3: the copy that boots, and its settings in force; without a valid copy the part stays at step 3 (R433 to R435). -/
def State.bootStep3 (s : State) (f : Flash) : State :=
  let (s1, cs) := s.readFlash f
  match cs.bind fun c => (chooseCopy c.1 c.2).map fun k => (if k.1 = 0 then c.1 else c.2, k) with
  | none => { s1.log 0x0103 .fatal .service none [] with boot := { (s1.log 0x0103 .fatal .service none []).boot with failed := true } }
  | some (c, k, div) =>
    let s2 := { s1 with boot := { s1.boot with copy := k, gen := c.gen, diverged := div, unprov := s1.boot.keyHash.isNone, failed := false, step := 3 } }
    let s3 := if div then s2.log 0x0102 .info .service none [c.gen] else s2
    let s4 := s3.applyImage c.recs
    if s4.boot.unprov then s4.log 0x0104 .info .service none [] else s4

/-! ### Steps 4 to 8 -/

/-- Step 4: a reference, the PLLs, the trims; the quarters run at G7 (R386, R394, R442). Log 55, DEDUCED. -/
def State.bootStep4 (s : State) (v : BootEnv) : State :=
  let here := (List.range 2).foldl (fun (m : BitVec 2) r => if v.refs.getLsbD r && s.fitted r then m ||| BitVec.twoPow 2 r else m) 0
  let s1 := { s with clk := { s.clk with present := here } }
  let p := s1.clk.primary
  let run (s : State) (sel : Nat) : State :=
    let s2 := { s with clk := { s.clk with sel := sel, scPll := true, grade := [(0, 7), (1, 7), (2, 7), (3, 7)] }, boot := { s.boot with step := 4 } }
    let s3 := (List.range 4).foldl (fun s q => s.calibrate q ((v.trims.getD q (0, 0)).1.val) ((v.trims.getD q (0, 0)).2.val)) s2
    (List.range 36).foldl (fun s k => s.sinkFull k 7) s3
  if s1.refPresent p then run s1 p
  else if s1.refPresent (1 - p) then run (s1.log 0x0702 .contained .power none [p]) (1 - p)
  else let s2 := s1.log 0x0105 .fatal .service none []; { s2 with boot := { s2.boot with failed := true } }
/-- Step 5: the regulator map, VOUT_TRANSITION_RATE, which a power fault does not hold back, and V_C for G7, which it does (R399, R401, R403, R415). -/
def State.bootStep5 (s : State) (v : BootEnv) : State :=
  let s0 := if (List.range s.pwr.regs.length).any fun d => v.naks.contains d then s.powerFault 4 else s
  let s1 := s0.emit (.bytes "VOUT_TRANSITION_RATE" [1])
  let code := s1.targetCode 7
  let s2 :=
    if s1.pwr.fault then s1
    else
      let p : Power := { s1.pwr with target := code, commanded := code, coreCode := code, acked := false, readback := v.avsMv % 1024 }
      let s3 := s1.emit (.bytes "AVS" [BitVec.ofNat 8 code])
      if v.avsOk && !v.avsNak && nearMv v.avsMv (codeMv code) then { s3 with pwr := { p with acked := true } }
      else ({ s3 with pwr := p }).powerFault (if v.avsNak then 2 else 1)
  { s2 with boot := { s2.boot with step := 5 } }
/-- Step 6: HBM trained or retrained; a quarter with a failing channel loses its HBM (R261, R441). -/
def State.bootStep6 (s : State) (v : BootEnv) : State :=
  let s0 := if s.boot.cause = 0 ∨ s.boot.cause = 4 then { s with mem := s.mem.filter fun c => decide (4 * hbmQuarter ≤ c.1) } else s
  let s1 := (List.range 4).foldl (fun s q =>
    let bad := field v.failing.toNat (4 * q) 4
    let s2 := s.setStn q { s.stn q with trained := BitVec.ofNat 4 (15 - bad), withdrawn := bad != 0, selfref := false, debt := [] }
    if bad = 0 then s2 else s2.log 0x0505 .contained (.quarter q) none [bad]) s0
  { s1 with boot := { s1.boot with step := 6 } }
/-- Step 7: every enabled link enters TRAIN. -/
def State.bootStep7 (s : State) : State :=
  let s1 := (List.range 20).foldl (fun s l => if (s.gate l).en then s.enterTrain l else s) s
  { s1 with boot := { s1.boot with step := 7 } }
/-- Step 8 begins: the Ethernet interfaces start, unless the quarter of POOL is withdrawn (R441). Log 54, DEDUCED. -/
def State.bootStep8 (s : State) : State :=
  let q := s.trn.pool / hbmQuarter
  if (s.stn q).withdrawn then
    let s1 := s.log 0x0106 .fatal .service none [q]
    { s1 with boot := { s1.boot with failed := true } }
  else s
/-- Bring-up from step 4 on. -/
def State.bringUp4 (s : State) (v : BootEnv) : State :=
  let s1 := s.bootStep4 v
  if s1.boot.step = 4 then (((s1.bootStep5 v).bootStep6 v).bootStep7).bootStep8 else s1
/-- Bring-up from step 2 on; in test mode it stops there (R485). -/
def State.bringUp2 (s : State) (v : BootEnv) : State :=
  let s1 := { s with boot := { s.boot with step := 2 } }
  if s1.svc.testMode then s1
  else
    let s2 := s1.bootStep3 v.flash
    if s2.boot.step = 3 then s2.bringUp4 v else s2
/-- Turns on the rails that are off, the first of them now. -/
def State.railsUp (s : State) : State :=
  let seq := onOrder.filter fun r => !s.pwr.rails.getLsbD r
  let s1 := { s with pwr := { s.pwr with railSeq := seq, railOn := true } }
  match seq with
  | r :: _ => s1.commandRail r true
  | [] => s1
/-- A reset or a wake returns COM_TAG to its reset value and unlocks it, whatever the TAP has written since the part went down (R13). -/
def State.freshTag (s : State) : State := { s with com := { s.com with tag := 0, tagLocked := false } }
/-- Bring-up from step 1, which each reset and each wake begins (R425); it does not pass step 1 while a rail is off (R543). Log 51, DEDUCED. -/
def State.bringUp (s : State) (v : BootEnv) : State :=
  let s1 := s.freshTag.bootStep1.railsUp
  if s1.pwr.railSeq = [] then s1.bringUp2 v else s1

/-! ### The deploy session (R443) -/

def State.repo (s : State) : Bytes := recOf s.boot.conf 12
/-- Queue pair 0 is created and connects. -/
def State.createQp0 (s : State) : State :=
  let r := s.repo
  let v6 := le r 1 1 == 6
  let ipsn : Word := BitVec.ofNat 32 (Config.entropy (16 * s.fresh))
  let x : Qp := { state := 2, part := s.rt.part, iface := le r 0 1, ipv6 := v6, peerIp := if v6 then le r 4 16 else le r 4 4, peerQp := some (le r 2 2), ipsn := ipsn,
                  boundPeer := true, paylog0 := le r 20 1, paylog := le r 20 1, rto := 1000, retry := 15, rnrRetry := 255, rnrDelay := 100, npsn := ipsn, una := ipsn }
  (({ s with fresh := s.fresh + 1, boot := { s.boot with session := 1 } }).setQp 0 x).sendConnect 0 8
/-- An Ethernet link goes up or down; the repository interface up completes step 8 (R336, R440). Log 56, DEDUCED. -/
def State.ethLink (s : State) (i : Nat) (up : Bool) : State :=
  let x := s.iface i
  if x.mode = 0 ∨ s.boot.step < 7 ∨ s.ethOff = true then s
  else
    let s1 := s.setIface i { x with up := up }
    if up ∧ s.boot.step = 7 ∧ s.boot.failed = false ∧ s.bringsUp = true ∧ i = le s.repo 0 1 then ({ s1 with boot := { s1.boot with step := 8 } }).createQp0 else s1
/-- ETH_WAIT (R442). -/
def State.ethWaits (s : State) : State :=
  if s.boot.step = 7 ∧ s.boot.failed = false ∧ s.boot.ethWait = false ∧ s.bringsUp = true ∧ s.onPll = true then
    ({ s with boot := { s.boot with ethWait := true } }).log 0x0107 .info .service none [le s.repo 0 1]
  else s
/-- DEPLOY_SESSION_RETRY (R443). -/
def State.sessionRetry (s : State) : State :=
  if (s.qp 0).state = 4 ∧ 8 ≤ s.boot.step ∧ s.ethOff = false ∧ s.svc.fatalSvc = false ∧ s.boot.restart = none ∧ s.onPll = true then s.createQp0 else s

/-! ### Resets (R425 to R427, R454, R513 to R516) -/

/-- The bytes of the HBM units that committed writes were writing are undefined (R426). -/
def State.scramble (s : State) : State :=
  let units := (List.range 4).flatMap fun q =>
    (((s.stn q).cmds.filter fun c => c.cmd == 3 && !c.done).map fun c => burstAddr q c.pc c.unit 0)
      ++ ((s.stn q).serving.filter fun c => c.2.1.kind == .write).map fun c => localAddr c.2.1.addr / 256 * 256
  let s1 := units.foldl (fun s a => { s with mem := writeBytes s.mem a ((List.range 256).map fun j => Config.undefinedByte s.fresh (a + j)) }) s
  { s1 with fresh := s1.fresh + 1 }
/-- The part's work ends at once: a cold reset. -/
def State.coldAssert (s : State) : State :=
  let s1 := s.cleared 0
  { s1 with boot := { s1.boot with held := s.boot.held ||| 1, cause := 0 } }
/-- A cold reset's bring-up is under way (R514). Log 48, DEDUCED. -/
def State.coldBringUp (s : State) : Bool := s.boot.cause == 0 && decide (s.boot.step < 10)
/-- The part's work ends at once: a warm reset, which is a cold one within a cold reset's bring-up. -/
def State.warmAssert (s : State) : State :=
  let cold := s.coldBringUp
  let s1 := (s.scramble.cleared (if cold then 0 else 1)).stationsRest
  { s1 with boot := { s1.boot with cause := if cold then 0 else 1 } }
/-- COLD_RESET_N_ASSERT: an assertion of `ns` nanoseconds, filtered (R514). -/
def State.coldPin (s : State) (ns : Nat) : State := if ns < 50 ∨ s.pwr.off = true then s else s.coldAssert
/-- WARM_RESET_N_ASSERT: noted but without effect while COLD_RESET_N is asserted (R514). -/
def State.warmPin (s : State) (ns : Nat) : State :=
  if ns < 50 ∨ s.pwr.off = true then s
  else if s.boot.held.getLsbD 0 then { s with boot := { s.boot with held := s.boot.held ||| 2 } }
  else let s1 := s.warmAssert; { s1 with boot := { s1.boot with held := 2 } }
/-- COLD_RESET: the release of COLD_RESET_N samples the straps (R516). -/
def State.coldRelease (s : State) (strap : Nat) (jtag : Bool) (v : BootEnv) : State :=
  if s.boot.held.getLsbD 0 then
    let s1 := { s with svc := { s.svc with strap := strap, testMode := jtag }, pwr := { s.pwr with off := false }, boot := { s.boot with held := s.boot.held &&& 2, cause := 0 } }
    if s1.boot.held = 0 then s1.bringUp v else s1
  else s
/-- WARM_RESET: the release of WARM_RESET_N. -/
def State.warmRelease (s : State) (v : BootEnv) : State :=
  if s.boot.held.getLsbD 1 then
    let s1 := { s with boot := { s.boot with held := s.boot.held &&& 1 } }
    if s1.boot.held = 0 then s1.bringUp v else s1
  else s
/-- RESTART_RESET: the reply to RESTART is acknowledged, or 10 ms have passed (R454). Log 58, DEDUCED. -/
def State.restartNow (s : State) (elapsed : Bool) (v : BootEnv) : State :=
  match s.boot.restart with
  | none => s
  | some id =>
    if (elapsed && s.onPll) || ((s.qp 0).state == 3 && !(s.qp 0).ops.any fun o => o.id == id) then
      let s1 := (s.scramble.cleared 1).stationsRest
      ({ s1 with boot := { s1.boot with cause := 2 } }).bringUp v
    else s
/-- FLASH_RETRY (R434). -/
def State.flashRetry (s : State) (v : BootEnv) : State :=
  if s.boot.step = 2 ∧ s.boot.failed = true ∧ s.bringsUp = true then
    let s1 := s.bootStep3 v.flash
    if s1.boot.step = 3 then s1.bringUp4 v else s1
  else s
/-- POWER_LOSS (R544). Log 135, DEDUCED. -/
def State.powerLoss (s : State) : State :=
  let s1 := s.cleared 0
  { s1 with svc := {}, tap := {}, pwr := { ({} : Power) with off := true }, boot := { s1.boot with held := 1, cause := 0 } }

/-! ### Wakes (R421 to R423, R543) -/

/-- The service core starts, and turns on the rails that are off. -/
def State.wake (s : State) : State :=
  let k : ResetKind := if s.pwr.bank = 1 then 2 else 3
  let s1 := if k = 2 then (s.cleared k).stationsRest else s.cleared k
  ({ s1 with boot := { s1.boot with cause := k + 1 } }).bootStep1.railsUp
/-- Nanoseconds of assertion at which WAKE_N wakes the part (R515). -/
def wakeNs : Nat := 1000 + Config.wakeThreshold % 9001
/-- WAKE_N: an assertion of `ns` nanoseconds. -/
def State.wakePin (s : State) (ns : Nat) : State := if s.pwr.bank ≠ 0 ∧ wakeNs ≤ ns then s.wake else s
/-- Index in the regulator map of the device that feeds a rail. -/
def State.railDevice (s : State) (r : Nat) : Option Nat := s.pwr.regs.findIdx? fun e => e.2.2.testBit r
/-- The device of a rail has acknowledged its address, or has not `k` times (R403). -/
def State.railNaks (s : State) (r k : Nat) : State :=
  match s.railDevice r with
  | none => s
  | some d => if k = 0 then { s with pwr := { s.pwr with pmbNaks := put 0 d 0 s.pwr.pmbNaks } } else s.pmbusNak d k
/-- The regulator of rail `r`, the one waited for, reports its output on or off: as commanded, the next rail of `rest` is commanded, or after the last one bring-up goes on, or the part is asleep. -/
def State.railOutput (s : State) (r : Nat) (rest : List Nat) (on : Bool) (v : BootEnv) : State :=
  let s0 := s.railNaks r 0
  if on = s.pwr.railOn then
    let bit : BitVec 10 := BitVec.twoPow 10 r
    let s1 := { s0 with pwr := { s0.pwr with railSeq := rest, rails := if on then s.pwr.rails ||| bit else s.pwr.rails &&& ~~~bit } }
    match rest with
    | n :: _ => s1.commandRail n on
    | [] => if on then (if s1.bringUpFree then s1.bringUp2 v else s1) else s1.powerDown
  else s0
/-- POWER_GOOD_REPORT (R543): the answer of the regulator of `rail`; a device that does not acknowledge its address three times in succession is a power fault (R403). -/
def State.railReport (s : State) (rail : Nat) (a : RailAnswer) (v : BootEnv) : State :=
  match s.pwr.railSeq with
  | [] => s
  | r :: rest =>
    if r = rail ∧ s.boot.held = 0 then
      match a with
      | .on => s.railOutput r rest true v
      | .off => s.railOutput r rest false v
      | .nak => s.railNaks r 1
    else s
/-- POWER_GOOD_TIMEOUT: off and on again (R543). -/
def State.railRetry (s : State) : State :=
  match s.pwr.railSeq with
  | r :: _ => if s.pwr.railOn = true ∧ s.boot.held = 0 then (s.commandRail r false).commandRail r true else s
  | [] => s

/-! ### The commands -/

/-- COLD_RESET (R425, R514, R516). Log 52, DESIGN CHOICE. -/
def execColdReset (strap : Fin 8) (jtag : Bool) (v : BootEnv) (s : State) : Host.Outcome State Fault Refusal := (s.coldRelease strap.val jtag v).ends
/-- WARM_RESET (R425, R514). -/
def execWarmReset (v : BootEnv) (s : State) : Host.Outcome State Fault Refusal := (s.warmRelease v).ends
/-- COLD_RESET_N_ASSERT (R425, R514). -/
def execColdResetNAssert (ns : Nat) (s : State) : Host.Outcome State Fault Refusal := (s.coldPin ns).ends
/-- WARM_RESET_N_ASSERT (R426, R514). -/
def execWarmResetNAssert (ns : Nat) (s : State) : Host.Outcome State Fault Refusal := (s.warmPin ns).ends
/-- POWER_LOSS (R544). -/
def execPowerLoss (s : State) : Host.Outcome State Fault Refusal := s.powerLoss.ends
/-- FLASH_RETRY (R434). -/
def execFlashRetry (v : BootEnv) (s : State) : Host.Outcome State Fault Refusal := (s.flashRetry v).ends
/-- ETH_WAIT (R442). -/
def execEthWait (s : State) : Host.Outcome State Fault Refusal := s.ethWaits.ends
/-- ETH_LINK_CHANGE (R336, R440). -/
def execEthLinkChange (i : Fin 4) (up : Bool) (s : State) : Host.Outcome State Fault Refusal := (s.ethLink i.val up).ends
/-- DEPLOY_SESSION_RETRY (R443). -/
def execDeploySessionRetry (s : State) : Host.Outcome State Fault Refusal := s.sessionRetry.ends
/-- RESTART_RESET (R454). -/
def execRestartReset (elapsed : Bool) (v : BootEnv) (s : State) : Host.Outcome State Fault Refusal := (s.restartNow elapsed v).ends
/-- WAKE_N (R421, R422, R515). -/
def execWakeN (ns : Nat) (s : State) : Host.Outcome State Fault Refusal := (s.wakePin ns).ends
/-- SIDEBAND_ADDRESS_MATCH (R421). -/
def execSidebandAddressMatch (s : State) : Host.Outcome State Fault Refusal := (if s.pwr.bank = 1 then s.wake else s).ends
/-- POWER_GOOD_REPORT (R403, R542, R543). -/
def execPowerGoodReport (rail : Fin 10) (a : RailAnswer) (v : BootEnv) (s : State) : Host.Outcome State Fault Refusal := (s.railReport rail.val a v).ends
/-- POWER_GOOD_TIMEOUT (R543). -/
def execPowerGoodTimeout (s : State) : Host.Outcome State Fault Refusal := s.railRetry.ends

end Sys2Proof.Machine
end

