-- ==== Sys2Proof/Machine/HobCmds.lean ====
section
/-! DEFINITION. The commands of the hob: the slots M, V, L0, L1, S, T and C and the gap (02_the_hob.md, 04_bundles.md) -/
namespace Sys2Proof.Machine

/-- Hob `h` executes operation `k` of the portion it issues in cycle `t`, where that portion holds one that satisfies `ok`
and its slot is performed; otherwise nothing happens. -/
def State.hobCmd (s : State) (h t k : Nat) (ok : Nat → Bool) : State :=
  match s.advance (h / 8) t with
  | none => s
  | some s1 =>
    let s2 := s1.ready (h / 8)
    match (s2.hob h).cur with
    | some iss => if iss.has k && ok iss.bits then (s2.doHobOp (h / 8) (h % 8) k).done else s
    | none => s
/-- The local sequencing operation of hob `h` in cycle `t`. -/
def State.localCmd (s : State) (h t op : Nat) : State :=
  match s.advance (h / 8) t with
  | none => s
  | some s1 =>
    let s2 := s1.ready (h / 8)
    match (s2.hob h).cur with
    | some iss => if iss.has 7 && iss.isLocal && lqOp iss.lseq == op then (s2.doHobOp (h / 8) (h % 8) 7).done else s
    | none => s

/-! ### Slot M -/

/-- STEP (R51). -/
def execStep (h : Fin 32) (t : Nat) (s : State) : Host.Outcome State Fault Refusal :=
  .next (s.hobCmd h.val t 0 fun b => mAop (slotM b) == 1)
/-- SWAP (R48). -/
def execSwap (h : Fin 32) (t : Nat) (s : State) : Host.Outcome State Fault Refusal :=
  .next (s.hobCmd h.val t 0 fun b => mAop (slotM b) == 2)
/-- ASLV (R112). -/
def execAslv (h : Fin 32) (t : Nat) (s : State) : Host.Outcome State Fault Refusal :=
  .next (s.hobCmd h.val t 0 fun b => mAop (slotM b) == 3)
/-- READOUT (R53). -/
def execReadout (h : Fin 32) (t : Nat) (s : State) : Host.Outcome State Fault Refusal :=
  .next (s.hobCmd h.val t 0 fun b => mAop (slotM b) == 4)
/-- ZERO (R53). -/
def execZero (h : Fin 32) (t : Nat) (s : State) : Host.Outcome State Fault Refusal :=
  .next (s.hobCmd h.val t 0 fun b => mAop (slotM b) == 5)
/-- APSET (R110). -/
def execApset (h : Fin 32) (t : Nat) (s : State) : Host.Outcome State Fault Refusal :=
  .next (s.hobCmd h.val t 0 fun b => mAop (slotM b) == 6)
/-- PLANE_LOAD (R47). -/
def execPlaneLoad (h : Fin 32) (t : Nat) (s : State) : Host.Outcome State Fault Refusal :=
  .next (s.hobCmd h.val t 8 fun b => mPl (slotM b))
/-- ASLD (R115). -/
def execAsld (h : Fin 32) (t : Nat) (s : State) : Host.Outcome State Fault Refusal :=
  .next (s.hobCmd h.val t 9 fun b => mAsld (slotM b))

/-! ### Slots L0, L1 and S -/

/-- SLOT_LOAD in slot L0 or L1 (R60). -/
def execSlotLoad (h : Fin 32) (t : Nat) (l : Fin 2) (s : State) : Host.Outcome State Fault Refusal :=
  .next (s.hobCmd h.val t (2 + l.val) fun b => lsOp (if l.val = 0 then slotL0 b else slotL1 b) == 1)
/-- SLOT_PEEK in slot L0 or L1 (R60). -/
def execSlotPeek (h : Fin 32) (t : Nat) (l : Fin 2) (s : State) : Host.Outcome State Fault Refusal :=
  .next (s.hobCmd h.val t (2 + l.val) fun b => lsOp (if l.val = 0 then slotL0 b else slotL1 b) == 2)
/-- SLOT_STORE (R60). -/
def execSlotStore (h : Fin 32) (t : Nat) (s : State) : Host.Outcome State Fault Refusal :=
  .next (s.hobCmd h.val t 4 fun b => lsOp (slotS b) != 0)

/-! ### Slot V (R54 to R59) -/

/-- ADD. -/
def execAdd (h : Fin 32) (t : Nat) (s : State) : Host.Outcome State Fault Refusal :=
  .next (s.hobCmd h.val t 1 fun b => vOp (slotV b) == 1)
/-- MUL. -/
def execMul (h : Fin 32) (t : Nat) (s : State) : Host.Outcome State Fault Refusal :=
  .next (s.hobCmd h.val t 1 fun b => vOp (slotV b) == 2)
/-- FMA. -/
def execFma (h : Fin 32) (t : Nat) (s : State) : Host.Outcome State Fault Refusal :=
  .next (s.hobCmd h.val t 1 fun b => vOp (slotV b) == 3)
/-- MIN. -/
def execMin (h : Fin 32) (t : Nat) (s : State) : Host.Outcome State Fault Refusal :=
  .next (s.hobCmd h.val t 1 fun b => vOp (slotV b) == 4)
/-- MAX. -/
def execMax (h : Fin 32) (t : Nat) (s : State) : Host.Outcome State Fault Refusal :=
  .next (s.hobCmd h.val t 1 fun b => vOp (slotV b) == 5)
/-- CMP.EQ. -/
def execCmpEq (h : Fin 32) (t : Nat) (s : State) : Host.Outcome State Fault Refusal :=
  .next (s.hobCmd h.val t 1 fun b => vOp (slotV b) == 6)
/-- CMP.NE. -/
def execCmpNe (h : Fin 32) (t : Nat) (s : State) : Host.Outcome State Fault Refusal :=
  .next (s.hobCmd h.val t 1 fun b => vOp (slotV b) == 7)
/-- CMP.LT. -/
def execCmpLt (h : Fin 32) (t : Nat) (s : State) : Host.Outcome State Fault Refusal :=
  .next (s.hobCmd h.val t 1 fun b => vOp (slotV b) == 8)
/-- CMP.LE. -/
def execCmpLe (h : Fin 32) (t : Nat) (s : State) : Host.Outcome State Fault Refusal :=
  .next (s.hobCmd h.val t 1 fun b => vOp (slotV b) == 9)
/-- SEL. -/
def execSel (h : Fin 32) (t : Nat) (s : State) : Host.Outcome State Fault Refusal :=
  .next (s.hobCmd h.val t 1 fun b => vOp (slotV b) == 10)
/-- EXP2. -/
def execExp2 (h : Fin 32) (t : Nat) (s : State) : Host.Outcome State Fault Refusal :=
  .next (s.hobCmd h.val t 1 fun b => vOp (slotV b) == 11)
/-- LOG2. -/
def execLog2 (h : Fin 32) (t : Nat) (s : State) : Host.Outcome State Fault Refusal :=
  .next (s.hobCmd h.val t 1 fun b => vOp (slotV b) == 12)
/-- RSQRT. -/
def execRsqrt (h : Fin 32) (t : Nat) (s : State) : Host.Outcome State Fault Refusal :=
  .next (s.hobCmd h.val t 1 fun b => vOp (slotV b) == 13)
/-- RCP. -/
def execRcp (h : Fin 32) (t : Nat) (s : State) : Host.Outcome State Fault Refusal :=
  .next (s.hobCmd h.val t 1 fun b => vOp (slotV b) == 14)
/-- RSUM. -/
def execRsum (h : Fin 32) (t : Nat) (s : State) : Host.Outcome State Fault Refusal :=
  .next (s.hobCmd h.val t 1 fun b => vOp (slotV b) == 15)
/-- RMAX. -/
def execRmax (h : Fin 32) (t : Nat) (s : State) : Host.Outcome State Fault Refusal :=
  .next (s.hobCmd h.val t 1 fun b => vOp (slotV b) == 16)
/-- RMIN. -/
def execRmin (h : Fin 32) (t : Nat) (s : State) : Host.Outcome State Fault Refusal :=
  .next (s.hobCmd h.val t 1 fun b => vOp (slotV b) == 17)
/-- CVT.TO. -/
def execCvtTo (h : Fin 32) (t : Nat) (s : State) : Host.Outcome State Fault Refusal :=
  .next (s.hobCmd h.val t 1 fun b => vOp (slotV b) == 18)
/-- CVT.FROM. -/
def execCvtFrom (h : Fin 32) (t : Nat) (s : State) : Host.Outcome State Fault Refusal :=
  .next (s.hobCmd h.val t 1 fun b => vOp (slotV b) == 19)
/-- MOV. -/
def execMov (h : Fin 32) (t : Nat) (s : State) : Host.Outcome State Fault Refusal :=
  .next (s.hobCmd h.val t 1 fun b => vOp (slotV b) == 20)

/-! ### Slot T (R65, R73) -/

/-- IN_TO_SRAM: tap 0 or 1 of the slot. -/
def execInToSram (h : Fin 32) (t : Nat) (tap : Fin 2) (s : State) : Host.Outcome State Fault Refusal :=
  .next (s.hobCmd h.val t (if tap.val = 0 then 5 else 10) fun b => tTop (slotT b) tap.val == 1)
/-- IN_TO_PLANE: tap 0 or 1 of the slot. -/
def execInToPlane (h : Fin 32) (t : Nat) (tap : Fin 2) (s : State) : Host.Outcome State Fault Refusal :=
  .next (s.hobCmd h.val t (if tap.val = 0 then 5 else 10) fun b => tTop (slotT b) tap.val == 2)
/-- IN_TO_VREG: tap 0 or 1 of the slot. -/
def execInToVreg (h : Fin 32) (t : Nat) (tap : Fin 2) (s : State) : Host.Outcome State Fault Refusal :=
  .next (s.hobCmd h.val t (if tap.val = 0 then 5 else 10) fun b => tTop (slotT b) tap.val == 3)
/-- OUT_FROM_SRAM: tap 0 or 1 of the slot. -/
def execOutFromSram (h : Fin 32) (t : Nat) (tap : Fin 2) (s : State) : Host.Outcome State Fault Refusal :=
  .next (s.hobCmd h.val t (if tap.val = 0 then 5 else 10) fun b => tTop (slotT b) tap.val == 4)
/-- OUT_FROM_VREG: tap 0 or 1 of the slot. -/
def execOutFromVreg (h : Fin 32) (t : Nat) (tap : Fin 2) (s : State) : Host.Outcome State Fault Refusal :=
  .next (s.hobCmd h.val t (if tap.val = 0 then 5 else 10) fun b => tTop (slotT b) tap.val == 5)

/-! ### Slot C -/

/-- CXT (R121). -/
def execCxt (h : Fin 32) (t : Nat) (s : State) : Host.Outcome State Fault Refusal :=
  .next (s.hobCmd h.val t 6 fun b => cOp (slotC b) == 1)
/-- HREL_SET (R85). -/
def execHrelSet (h : Fin 32) (t : Nat) (s : State) : Host.Outcome State Fault Refusal :=
  .next (s.hobCmd h.val t 6 fun b => cOp (slotC b) == 2)
/-- GSET (R122). -/
def execGset (h : Fin 32) (t : Nat) (s : State) : Host.Outcome State Fault Refusal :=
  .next (s.hobCmd h.val t 6 fun b => cOp (slotC b) == 3)
/-- GRST (R113). -/
def execGrst (h : Fin 32) (t : Nat) (s : State) : Host.Outcome State Fault Refusal :=
  .next (s.hobCmd h.val t 6 fun b => cOp (slotC b) == 4)

/-! ### The local sequencing field (R133, R144) -/

/-- LCSET. -/
def execLcset (h : Fin 32) (t : Nat) (s : State) : Host.Outcome State Fault Refusal := .next (s.localCmd h.val t 1)
/-- LLOOP. -/
def execLloop (h : Fin 32) (t : Nat) (s : State) : Host.Outcome State Fault Refusal := .next (s.localCmd h.val t 2)
/-- LDJNZ. -/
def execLdjnz (h : Fin 32) (t : Nat) (s : State) : Host.Outcome State Fault Refusal := .next (s.localCmd h.val t 3)
/-- LJMP. -/
def execLjmp (h : Fin 32) (t : Nat) (s : State) : Host.Outcome State Fault Refusal := .next (s.localCmd h.val t 4)

/-! ### Gaps (R67, R68, R123, R411) -/

/-- A step occupies the array of hob `h` in cycle `c`, once the cycle's bundle has executed. -/
def Hob.occupied (x : Hob) (c : Nat) : Bool := match x.busyTo with | some e => decide (c ≤ e) | none => false
/-- The length of the gap that begins `n` cycles before the state's next cycle, and whether the program's end ends it: the run's last cycle
belongs to it (R138). Log 80, DEDUCED. -/
def State.gapEnd (s : State) (q h : Nat) : Nat → Nat → Nat × Bool
  | 0, n => (n, true)
  | fuel + 1, n =>
    let s1 := s.pass q 1
    let r := s1.range q
    if (match r.lastEffect with | some e => decide (e < r.cyc) | none => false) then (n + 1, true)
    else if (((s1.finishCycle q).hob h).occupied r.cyc) then (n + 1, false)
    else State.gapEnd s1 q h fuel (n + 1)
/-- GAP_START for hob `h` in the current cycle: the mark of the bundle issued in it decides. Log 82, DEDUCED. -/
def State.gapStart (s : State) (h : Nat) : State :=
  let q := h / 8
  let r := s.range q
  let c := r.cyc
  let x := s.hob h
  let begun := match x.busyTo with | some e => decide (e + 1 = c) | none => decide (c = 0)
  let past := match r.lastEffect with | some e => decide (e < c) | none => false
  if r.phase ≠ .run ∨ past = true ∨ begun = false ∨ ((s.finishCycle q).hob h).occupied c = true then s
  else
    let (len, final) := s.gapEnd q h s.beatLen 0
    let mark := match x.cur with | some iss => if get 0 6 iss.flt = 0 then cMark (slotC iss.bits) else 0 | none => 0
    let work : GapWork := if mark = 2 then .ember else if mark = 3 then .damper else if len < x.emberGap then .ember else .damper
    let s1 := s.setHob h { x with gap := work, gapFrom := c }
    if final then s1.quiet h (s.seamCyc - c)
    else if work = .damper then s1.quiet h len
    else s1
/-- GAP_START. -/
def execGapStart (h : Fin 32) (t : Nat) (s : State) : Host.Outcome State Fault Refusal :=
  match s.advance (h.val / 8) t with
  | none => .next s
  | some s1 => .next ((s1.ready (h.val / 8)).gapStart h.val).done

end Sys2Proof.Machine
end

