-- ==== Sys2Proof/Machine/RangeCmds.lean ====
section
/-! DEFINITION. The commands of the range: the slots H, G and Q, windows and waits, loop slots, and the station's commands
(03_ranges_and_loops.md, 04_bundles.md, 05_sequencing_and_faults.md, 08_hbm_under_schedule.md). -/
namespace Sys2Proof.Machine

/-- Range `q` executes part `k` of the bundle it issues in cycle `t`, where the bundle holds one that satisfies `ok`. -/
def State.rangeCmd (s : State) (q t k : Nat) (ok : Nat → Bool) (f : State → State) : State :=
  match s.advance q t with
  | none => s
  | some s1 =>
    let s2 := s1.ready q
    if (s2.range q).todo.contains k && ok (s2.range q).bits then (f s2).done else s
/-- The same for LOCAL, whose window decides which portions the hobs take: the cycle's issue is not completed first. -/
def State.windowCmd (s : State) (q t : Nat) (ok : State → Bool) (f : State → State) : State :=
  match s.advance q t with
  | none => s
  | some s1 => if ok s1 then (f s1).done else s

/-! ### Slots H and G -/

/-- GROUP (R244), with the severities the stack returns for its reads (R262). Log 24, DESIGN CHOICE. -/
def execGroup (q : Fin 4) (t : Nat) (ecc : List Nat) (s : State) : Host.Outcome State Fault Refusal :=
  .next (s.rangeCmd q.val t 7 (fun b => hGop (slotH b) == 1) fun s => s.doGroup q.val ecc)
/-- LOUT (R246). -/
def execLout (q : Fin 4) (t : Nat) (s : State) : Host.Outcome State Fault Refusal :=
  .next (s.rangeCmd q.val t 8 (fun b => hBop (slotH b) == 1) fun s => s.doTap q.val)
/-- WIN (R247). -/
def execWin (q : Fin 4) (t : Nat) (s : State) : Host.Outcome State Fault Refusal :=
  .next (s.rangeCmd q.val t 8 (fun b => hBop (slotH b) == 2) fun s => s.doTap q.val)
/-- SEND (R104). -/
def execSend (q : Fin 4) (t : Nat) (s : State) : Host.Outcome State Fault Refusal :=
  .next (s.rangeCmd q.val t 9 (fun b => gOp (slotG b) == 1) fun s => s.doSend q.val)
/-- MOVE (R99, R125). -/
def execMove (q : Fin 4) (t : Nat) (s : State) : Host.Outcome State Fault Refusal :=
  .next (s.rangeCmd q.val t 9 (fun b => gOp (slotG b) == 2) fun s => s.doMove q.val)

/-! ### Slot Q -/

/-- QX (R129). -/
def execQx (q : Fin 4) (t : Nat) (s : State) : Host.Outcome State Fault Refusal :=
  .next (s.rangeCmd q.val t 10 (fun b => qOp (slotQ b) == 1) fun s => s.doQx q.val)
/-- CSET (R136). -/
def execCset (q : Fin 4) (t : Nat) (s : State) : Host.Outcome State Fault Refusal :=
  .next (s.rangeCmd q.val t 10 (fun b => qOp (slotQ b) == 2) fun s => s.doCset q.val)
/-- LOOP (R136). -/
def execLoop (q : Fin 4) (t : Nat) (s : State) : Host.Outcome State Fault Refusal :=
  .next (s.rangeCmd q.val t 10 (fun b => qOp (slotQ b) == 3) fun s => s.doCtl q.val (.loop (qCtr (slotQ (s.range q.val).bits)) (field (qImm (slotQ (s.range q.val).bits)) 0 13)))
/-- DJNZ (R136). -/
def execDjnz (q : Fin 4) (t : Nat) (s : State) : Host.Outcome State Fault Refusal :=
  .next (s.rangeCmd q.val t 10 (fun b => qOp (slotQ b) == 4) fun s => s.doCtl q.val (.djnz (qCtr (slotQ (s.range q.val).bits)) (qOff13 (slotQ (s.range q.val).bits))))
/-- JMP (R136). -/
def execJmp (q : Fin 4) (t : Nat) (s : State) : Host.Outcome State Fault Refusal :=
  .next (s.rangeCmd q.val t 10 (fun b => qOp (slotQ b) == 5) fun s => s.doCtl q.val (.jmp (qOff16 (slotQ (s.range q.val).bits))))
/-- FLAG (R131). -/
def execFlag (q : Fin 4) (t : Nat) (s : State) : Host.Outcome State Fault Refusal :=
  .next (s.rangeCmd q.val t 10 (fun b => qOp (slotQ b) == 6) fun s => s.doFlag q.val)
/-- BEND (R132). -/
def execBend (q : Fin 4) (t : Nat) (s : State) : Host.Outcome State Fault Refusal :=
  .next (s.rangeCmd q.val t 10 (fun b => qOp (slotQ b) == 8) fun s => s.doBend q.val)
/-- WAIT (R136). -/
def execWait (q : Fin 4) (t : Nat) (s : State) : Host.Outcome State Fault Refusal :=
  .next (s.rangeCmd q.val t 10 (fun b => qOp (slotQ b) == 9) fun s => s.doWait q.val)
/-- LOCAL (R86, R142). -/
def execLocal (q : Fin 4) (t : Nat) (s : State) : Host.Outcome State Fault Refusal :=
  .next (s.windowCmd q.val t (fun s => ((s.settle q.val).range q.val).todo.contains 10 && qOp (slotQ ((s.settle q.val).range q.val).bits) == 7) fun s => (s.settle q.val).doLocal q.val)
/-- LOCAL_WINDOW_END (R146). -/
def execLocalWindowEnd (q : Fin 4) (t : Nat) (s : State) : Host.Outcome State Fault Refusal :=
  .next (s.windowCmd q.val t (fun s => (s.range q.val).pre.contains 12) fun s => s.doWindowEnd q.val)
/-- WAIT_END (R136). -/
def execWaitEnd (q : Fin 4) (t : Nat) (s : State) : Host.Outcome State Fault Refusal :=
  .next (s.windowCmd q.val t (fun s => (s.range q.val).pre.contains 13) fun s => s.doWaitEnd q.val)
/-- OVERRUN (R140). -/
def execOverrun (q : Fin 4) (t : Nat) (s : State) : Host.Outcome State Fault Refusal :=
  .next (s.rangeCmd q.val t 11 (fun _ => true) fun s => s.doOverrun q.val)

/-! ### Loop slots -/

/-- LOOP_SLOT_EXPIRE (R73): in cycle `t` a slot whose write lies 16 cycles back stands empty. -/
def execLoopSlotExpire (q : Fin 4) (t : Nat) (loop : Fin 2) (slot : Fin 16) (s : State) : Host.Outcome State Fault Refusal :=
  match s.advance q.val t with
  | none => .next s
  | some s1 =>
    let r := s1.range q.val
    .next (s1.setRange q.val (r.setSlot loop.val slot.val ((r.slot loop.val slot.val).expire t))).done

/-! ### The station -/

/-- HBM_MOVER_ACCESS on pseudo-channel `p` in cycle `t` (R249, R250). -/
def execHbmMoverAccess (q : Fin 4) (p : Fin 8) (t : Nat) (ecc : List Nat) (s : State) : Host.Outcome State Fault Refusal :=
  match s.advance q.val t with
  | none => .next s
  | some s1 =>
    let s2 := s1.ready q.val
    .next (s2.engineAccess q.val p.val (sckStart (s2.grade q.val) (s2.stn q.val).phase t) ecc).done
/-- REFRESH_TICK of pseudo-channel `p` at SCK `k` of the beat (R254): the cycles that begin before it have passed, and so have the refreshes that
start before it (R255). -/
def execRefreshTick (q : Fin 4) (p : Fin 8) (k : Nat) (s : State) : Host.Outcome State Fault Refusal :=
  match s.advance q.val (cycOfSck (s.grade q.val) (s.stn q.val).phase k - 1) with
  | none => .next s
  | some s1 => .next ((s1.ready q.val).refreshTick q.val p.val k).done
/-- HBM_TEMP_READ: the service core's reading every millisecond (R258, R394). -/
def execHbmTempRead (q : Fin 4) (temp : Int) (s : State) : Host.Outcome State Fault Refusal := .next (s.timed (s.tempRead q.val temp)).done

end Sys2Proof.Machine
end

