-- ==== Sys2Proof/Machine/MoverCmds.lean ====
section
/-! DEFINITION. The commands of CSR space (16_address_map_common_registers.md R494 to R510), of the movers, the bridge, the spine
and the windows of the mantel (02_the_hob.md R42; 03_ranges_and_loops.md; 07 R218; 08 R252; 11 R345, R346). -/
namespace Sys2Proof.Machine

/-! ### CSR space -/

/-- DEBUG is selected and performed (R485, R486). -/
def State.debugging (s : State) : Bool := s.tap.ir == 0x20 && s.svc.testMode && !s.boot.dbgLocked

/-- The common block is served: from bring-up step 1 on, and not in BANKED or COLD (R511). -/
def State.comServed (s : State) : Bool := decide (1 ≤ s.boot.step) && s.pwr.bank == 0

/-- A word write by an access, where its path may perform it: a mover or a Fenxia access carries tenant 0 and reaches no store window
(R90, R497); a debugger's is performed in test mode, unlocked (R486). Log 76, DEDUCED. -/
def State.csrAccess (s : State) (acc : CsrAccess) (a : Nat) (f : State → State) : State :=
  match acc.path with
  | .jtag => if s.debugging && s.comServed && csrDecoded s a && !inStoreWindow a then f s else s
  | _ =>
    match s.judgeAccess acc.tenant (a / 64 * 64) 1 true with
    | 0 => if s.kindAt a = 3 ∧ a % 4 = 0 then f s else s
    | c => s.noteRefusal c acc.chip acc.tenant (a / 64 * 64) true
/-- CSR_WRITE (R498). -/
def execCsrWrite (acc : CsrAccess) (a : BitVec 40) (v : Word) (s : State) : Host.Outcome State Fault Refusal :=
  (s.csrAccess acc a.toNat fun s => s.csrWrite a.toNat v 0).ends
/-- INT_CLASS_CLEAR (R505); `same` holds the bits set in the cycle of the write. -/
def execIntClassClear (acc : CsrAccess) (v same : Word) (s : State) : Host.Outcome State Fault Refusal :=
  (s.csrAccess acc 0xF000002000 fun s => s.clearIntClass v same).ends
/-- INT_SOURCE_CLEAR (R505). -/
def execIntSourceClear (acc : CsrAccess) (v same : Word) (s : State) : Host.Outcome State Fault Refusal :=
  (s.csrAccess acc 0xF000002004 fun s => s.clearIntSource v same).ends
/-- COM_TAG_WRITE (R13, R14, R509). -/
def execComTagWrite (acc : CsrAccess) (v : Word) (s : State) : Host.Outcome State Fault Refusal :=
  (s.csrAccess acc 0xF000000030 fun s => s.writeTag v).ends
/-- OTP_WRITE (R14): address within the ledger registers. -/
def execOtpWrite (acc : CsrAccess) (a : BitVec 40) (_v : Word) (s : State) : Host.Outcome State Fault Refusal :=
  (s.csrAccess acc a.toNat fun s => if otpAddr (a.toNat - 0xF000000000) then s.lockedWrite a.toNat else s).ends
/-- LOG_CURSOR_WRITE (R507). -/
def execLogCursorWrite (acc : CsrAccess) (v : Word) (s : State) : Host.Outcome State Fault Refusal :=
  (s.csrAccess acc 0xF000003000 fun s => s.writeCursor v).ends

/-! ### Mover slots, buffers and the spine -/

/-- MOVER_SLOT_FILL at a station in cycle `t` (R81, R83, R555). -/
def execMoverSlotFill (q : Fin 4) (t : Nat) (st : Fin 16) (s : State) : Host.Outcome State Fault Refusal :=
  match s.advance q.val t with
  | none => .next s
  | some s1 => ((s1.ready q.val).slotFill q.val st.val).ends
/-- MOVER_LOAD_ARRIVAL at a station from a loop in cycle `t` (R82). -/
def execMoverLoadArrival (q : Fin 4) (t : Nat) (st : Fin 16) (loop : Fin 2) (s : State) : Host.Outcome State Fault Refusal :=
  match s.advance q.val t with
  | none => .next s
  | some s1 => ((s1.ready q.val).loadArrival q.val st.val loop.val).ends
/-- MOVER_BUFFER_ACCESS of hob `h` in cycle `t` (R42). -/
def execMoverBufferAccess (h : Fin 32) (t : Nat) (s : State) : Host.Outcome State Fault Refusal :=
  match s.advance (h.val / 8) t with
  | none => .next s
  | some s1 => ((s1.ready (h.val / 8)).bufAccess h.val t).ends
/-- SPINE_DELIVERY between two stops, 0 to 3 the quarters and 4 the mantel (R102). -/
def execSpineDelivery (src dst : Fin 5) (s : State) : Host.Outcome State Fault Refusal := (s.spineDeliver src.val dst.val).ends

/-! ### Movers -/

/-- What a mover of quarter `q` does: nothing while the quarter's clock is halted (R381, R418). Log 39, DEDUCED. -/
def State.clocked (s : State) (q : Nat) (f : State → State) : State := if (s.range q).halted then s else f s
/-- MOVER_OP_ISSUE: operation `k` of the descriptor in progress (R94). -/
def execMoverOpIssue (q : Fin 4) (m : Fin 8) (k : Nat) (s : State) : Host.Outcome State Fault Refusal := (s.clocked q.val fun s => s.moverIssue q.val m.val k).ends
/-- DESCRIPTOR_COMPLETE (R95, R96, R100). -/
def execDescriptorComplete (q : Fin 4) (m : Fin 8) (s : State) : Host.Outcome State Fault Refusal := (s.clocked q.val fun s => s.descComplete q.val m.val).ends
/-- CHAIN_FETCH_DONE (R98). -/
def execChainFetchDone (q : Fin 4) (m : Fin 8) (s : State) : Host.Outcome State Fault Refusal := (s.clocked q.val fun s => s.chainDone q.val m.val).ends
/-- MOVER_TIMEOUT of an operation, or of the fetch of a chained descriptor (R96). -/
def State.moverTimeout (s : State) (q m : Nat) (op : Option Nat) : State :=
  match op with
  | some id => s.moverEnd q m id (some 0x31)
  | none => let v := s.mover q m; if v.fetching.isSome ∧ v.fetched.isNone then s.setMover q m { v with fetched := some ([], false, 0x31) } else s
def execMoverTimeout (q : Fin 4) (m : Fin 8) (op : Option Nat) (s : State) : Host.Outcome State Fault Refusal := (s.counted (s.moverTimeout q.val m.val op)).ends

/-! ### Window writes that wait at the mantel -/

/-- CONTRIBUTION_WRITE (R218). -/
def State.contributionWrite (s : State) : State :=
  match s.popMantel fun l => inContribWindow l.addr with
  | none => s
  | some (l, s1) =>
    let ls := (List.range l.lines).map fun j => ((l.data.drop (64 * j)).take 64, l.poi.getD j false)
    let (s2, code) := s1.windowWrite l.tenant (s.loadChip l) l.addr ls
    s2.answer l code .ack [] []
def execContributionWrite (s : State) : Host.Outcome State Fault Refusal := s.contributionWrite.ends
/-- A staging request with opcode `op` (R252). -/
def State.stagingRequest (s : State) (op : Nat) (f : State → Load → State) : State :=
  match s.popMantel fun l => s.kindAt l.addr == 5 && le l.data 8 1 == op with
  | none => s
  | some (l, s1) =>
    match s1.judgeStaging l.tenant l.data with
    | 0 => (f s1 l).answer l 0 .ack [] []
    | c => s1.answer l c .ack [] []
/-- STAGING_CONFIRM. -/
def execStagingConfirm (s : State) : Host.Outcome State Fault Refusal := (s.stagingRequest 1 fun s l => s.stageConfirm l.tenant l.data).ends
/-- STAGING_RELEASE. -/
def execStagingRelease (s : State) : Host.Outcome State Fault Refusal := (s.stagingRequest 2 fun s l => s.stageRelease l.data).ends
/-- A posted line of kind `k`: judged, then taken (R345, R346). -/
def State.postLine (s : State) (k : Nat) (f : State → Nat → Bytes → State) : State :=
  match s.popMantel fun l => inPostWindow l.addr && (match postTarget l.addr with | some t => t.2 == k | none => false) with
  | none => s
  | some (l, s1) =>
    match s1.judgePost l.tenant l.addr l.lines l.data with
    | 0 => (f s1 ((l.addr - postWindow) / 0x100) (l.data.take 64 ++ if l.poi.any id then [1] else [])).answer l 0 .ack [] []
    | c => s1.answer l c .ack [] []
/-- POST_WORK_REQUEST (R346). -/
def execPostWorkRequest (s : State) : Host.Outcome State Fault Refusal := (s.postLine 0 fun s n b => s.postSend n b).ends
/-- POST_RECEIVE (R348). -/
def execPostReceive (s : State) : Host.Outcome State Fault Refusal := (s.postLine 1 fun s n b => s.postRecv n b).ends
/-- POST_TRIGGERED (R363). -/
def execPostTriggered (s : State) : Host.Outcome State Fault Refusal := (s.postLine 2 fun s n b => s.postTrig n b).ends

end Sys2Proof.Machine
end

