-- ==== Sys2Proof/Machine/LinkCmds.lean ====
section
/-! DEFINITION. The commands of the Fenxia links and of the packets that reach the part (09_fenxia_link.md; 10_fabric_and_partitions.md;
06_beats_and_the_stoker.md R188 to R190; 07_flags_channels_chimneys.md R201, R207, R208, R220 to R227, R556). -/
namespace Sys2Proof.Machine

/-! ### The link layer -/

/-- TRAIN_START (R272). -/
def execTrainStart (l : Fin 20) (s : State) : Host.Outcome State Fault Refusal := (s.trainStart l.val).ends
/-- TRAIN_COMPLETE (R274 to R276, R279). -/
def execTrainComplete (l : Fin 20) (r : TrainResult) (s : State) : Host.Outcome State Fault Refusal := (s.trainComplete l.val r).ends
/-- TRAIN_TIMEOUT (R274). -/
def execTrainTimeout (l : Fin 20) (s : State) : Host.Outcome State Fault Refusal := (s.trainTimeout l.val).ends
/-- CONTROL_FLIT: the 64 bytes of control slot `n` (R286, R290, R292). -/
def execControlFlit (l : Fin 20) (b : Bytes) (item : LinkItem) (s : State) : Host.Outcome State Fault Refusal := (s.controlFlit l.val b item.slot item.fec).ends
/-- HEADER_CRC_FAIL (R289). -/
def execHeaderCrcFail (l : Fin 20) (b : Bytes) (item : LinkItem) (s : State) : Host.Outcome State Fault Refusal := (s.headerFail l.val b item.slot item.fec).ends
/-- LINK_PACKET_RECEIVE (R289, R293, R325). -/
def execLinkPacketReceive (l : Fin 20) (b : Bytes) (item : LinkItem) (s : State) : Host.Outcome State Fault Refusal := (s.linkReceive l.val b item.slot item.fec).ends
/-- PACKET_TRANSMIT (R298). -/
def execPacketTransmit (l : Fin 20) (s : State) : Host.Outcome State Fault Refusal := (s.transmit l.val).ends
/-- REPLAY_TIMEOUT (R291). -/
def execReplayTimeout (l : Fin 20) (s : State) : Host.Outcome State Fault Refusal := (s.counted (s.replayTimeout l.val)).ends
/-- SILENCE (R287). -/
def execSilence (l : Fin 20) (s : State) : Host.Outcome State Fault Refusal := (s.silence l.val).ends
/-- CREDIT_TIMEOUT of a VC (R299). -/
def execCreditTimeout (l : Fin 20) (v : Fin 8) (s : State) : Host.Outcome State Fault Refusal := (s.counted (s.creditTimeout l.val v.val)).ends
/-- BROKEN_IDLE_END (R303). -/
def execBrokenIdleEnd (l : Fin 20) (s : State) : Host.Outcome State Fault Refusal := (s.brokenEnd l.val).ends
/-- LANE_FAILURE of a logical lane (R280). -/
def execLaneFailure (l : Fin 20) (m : Fin 8) (s : State) : Host.Outcome State Fault Refusal := (s.laneFail l.val m).ends
/-- DRAIN_TIMEOUT (R281). -/
def execDrainTimeout (l : Fin 20) (s : State) : Host.Outcome State Fault Refusal := (s.counted (s.drainTimeout l.val)).ends

/-! ### Packets that have been accepted -/

/-- WRITE (R284, R300). -/
def execWrite (l : Fin 20) (v : Fin 8) (s : State) : Host.Outcome State Fault Refusal :=
  (s.onHead l.val v.val opWrite fun s p => s.rxWrite l.val v.val p).ends
/-- READ (R284, R300). -/
def execRead (l : Fin 20) (v : Fin 8) (s : State) : Host.Outcome State Fault Refusal :=
  (s.onHead l.val v.val opRead fun s p => s.rxRead l.val v.val p).ends
/-- RESP (R301, R331). -/
def execResp (l : Fin 20) (v : Fin 8) (s : State) : Host.Outcome State Fault Refusal :=
  (s.onHead l.val v.val opResp fun s p => s.rxResp l.val v.val p).ends
/-- MSG (R206, R214, R556). -/
def execMsg (l : Fin 20) (v : Fin 8) (s : State) : Host.Outcome State Fault Refusal :=
  (s.onPacket l.val v.val opMsg fun s p => s.rxMsg l.val p).ends
/-- CONTRIB (R219, R220). -/
def execContrib (l : Fin 20) (v : Fin 8) (s : State) : Host.Outcome State Fault Refusal :=
  (s.onPacket l.val v.val opContrib fun s p => s.rxContrib l.val p).ends
/-- FLAGINC (R201). -/
def execFlaginc (l : Fin 20) (v : Fin 8) (s : State) : Host.Outcome State Fault Refusal :=
  (s.onPacket l.val v.val opFlagInc fun s p => s.rxFlagInc l.val p).ends
/-- DWRITE (R294). -/
def execDwrite (l : Fin 20) (v : Fin 8) (s : State) : Host.Outcome State Fault Refusal :=
  (s.onPacket l.val v.val opDwrite fun s p => s.rxDwrite l.val p).ends
/-- DFETCH (R294). -/
def execDfetch (l : Fin 20) (v : Fin 8) (s : State) : Host.Outcome State Fault Refusal :=
  (s.onHead l.val v.val opDfetch fun s p => s.rxDfetch l.val v.val p).ends
/-- DMSG (R294). -/
def execDmsg (l : Fin 20) (v : Fin 8) (s : State) : Host.Outcome State Fault Refusal :=
  (s.onPacket l.val v.val opDmsg fun s p => s.rxDmsg p).ends

/-! ### The stall protocol (R188 to R190) -/

/-- STALL. -/
def execStall (l : Fin 20) (v : Fin 8) (s : State) : Host.Outcome State Fault Refusal :=
  (s.onStall l.val v.val false (fun t => !(t == 2 || t == 3 || t == 4)) fun s p => s.rxStall p).ends
/-- POLL: answered at once, also in SIMMER (R189). -/
def execPoll (l : Fin 20) (v : Fin 8) (s : State) : Host.Outcome State Fault Refusal :=
  (s.onStall l.val v.val (s.pwr.simmer && !s.mantelOff) (fun t => t == 2) fun s p => s.rxPoll p).ends
/-- ANSWER of a member to the open epoch. -/
def execAnswer (l : Fin 20) (v : Fin 8) (s : State) : Host.Outcome State Fault Refusal :=
  (s.onStall l.val v.val false (fun t => t == 3) fun s p => s.rxAnswer p).ends
/-- DEADLOCK. -/
def execDeadlock (l : Fin 20) (v : Fin 8) (s : State) : Host.Outcome State Fault Refusal :=
  (s.onStall l.val v.val false (fun t => t == 4) fun s p => s.rxDeadlock p).ends
/-- EPOCH_OPEN (R189). -/
def execEpochOpen (s : State) : Host.Outcome State Fault Refusal := (if s.mayOpen && !s.mantelOff then s.openEpochNow else s).ends

/-! ### Transit and the management partition (R316 to R319, R327, R328) -/

/-- TRANSIT. -/
def execTransit (l : Fin 20) (v : Fin 8) (s : State) : Host.Outcome State Fault Refusal := (s.transit l.val v.val).ends
/-- DATAGRAM_TRANSIT_TIMEOUT. -/
def execDatagramTransitTimeout (l : Fin 20) (s : State) : Host.Outcome State Fault Refusal := (s.counted (s.datagramTimeout l.val)).ends
/-- PING, and an MGMT of a reserved MTYPE or without payload. -/
def execPing (l : Fin 20) (v : Fin 8) (s : State) : Host.Outcome State Fault Refusal :=
  (s.onMgmt l.val v.val (fun t => !(2 ≤ t && t ≤ 5)) fun s p => s.rxPing p).ends
/-- PONG. -/
def execPong (l : Fin 20) (v : Fin 8) (s : State) : Host.Outcome State Fault Refusal :=
  (s.onMgmt l.val v.val (fun t => t == 2) fun s p => s.recordMgmt p).ends
/-- RESULT. -/
def execResult (l : Fin 20) (v : Fin 8) (s : State) : Host.Outcome State Fault Refusal :=
  (s.onMgmt l.val v.val (fun t => t == 5) fun s p => s.recordMgmt p).ends
/-- MGMT_LINK_DISABLE. -/
def execMgmtLinkDisable (l : Fin 20) (v : Fin 8) (s : State) : Host.Outcome State Fault Refusal :=
  (s.onMgmt l.val v.val (fun t => t == 3) fun s p => s.rxLinkDisable p).ends
/-- MGMT_LINK_ENABLE. -/
def execMgmtLinkEnable (l : Fin 20) (v : Fin 8) (s : State) : Host.Outcome State Fault Refusal :=
  (s.onMgmt l.val v.val (fun t => t == 4) fun s p => s.rxLinkEnable p).ends

/-! ### Channels and chimneys: nothing happens in the mantel while it is stopped (R390) -/

/-- MESSAGE_PLACED (R207). -/
def execMessagePlaced (c : Fin 65536) (s : State) : Host.Outcome State Fault Refusal := (if s.mantelOff then s else s.messagePlaced c.val).ends
/-- MESSAGE_ABANDON of the message in a slot (R208). -/
def execMessageAbandon (c : Fin 65536) (slot : Nat) (s : State) : Host.Outcome State Fault Refusal := (if s.mantelOff then s else s.counted (s.messageAbandon c.val slot)).ends
/-- ROUND_SUM (R223, R224). -/
def execRoundSum (k : Fin 4096) (s : State) : Host.Outcome State Fault Refusal := (if s.mantelOff then s else s.roundSum k.val).ends
/-- ROUND_COMPLETE (R225, R226). -/
def execRoundComplete (k : Fin 4096) (s : State) : Host.Outcome State Fault Refusal := (if s.mantelOff then s else s.roundComplete k.val).ends

end Sys2Proof.Machine
end

