-- ==== Sys2Proof/Machine/Deploy.lean ====
section
/-! DEFINITION. Deploy messages and their requests (14_boot_and_configuration.md R445 to R459; 06 R162 to R168; 07 R204, R211, R213;
08 R251; 09 R281; 10 R327; 11 R341, R342, R359 to R361). -/
namespace Sys2Proof.Machine

/-! ### Messages (R445, R446) -/

/-- The requests of a body: RTYPE and body of each; `none` where the framing of R445 breaks. -/
def parseReqs : Nat → Bytes → Option (List (Nat × Bytes))
  | 0, b => if b = [] then some [] else none
  | n + 1, b =>
    let len := le b 4 4
    let total := 8 + (len + 7) / 8 * 8
    if b.length < total ∨ le b 2 2 ≠ 0 ∨ zeroBytes b (8 + len) (total - 8 - len) = false then none
    else (parseReqs n (b.drop total)).map fun r => (le b 0 2, (b.drop 8).take len) :: r
/-- The requests of a message whose header is well formed and whose lengths agree (FORMAT). Log 120, DEDUCED. -/
def parseDeploy (b : Bytes) : Option (List (Nat × Bytes)) :=
  let kind := le b 4 1
  let n := le b 32 4
  let sig := if kind = 1 then 96 else 0
  if 64 ≤ b.length ∧ le b 0 4 = 0x5DE90A03 ∧ (kind = 1 ∨ kind = 2) ∧ le b 5 1 = 1 ∧ zeroBytes b 36 28 = true ∧ b.length = 64 + n + sig then
    match parseReqs (le b 6 2) ((b.drop 64).take n) with
    | some r => if kind = 2 ∧ r.map (fun x => x.1) ≠ [0x12] then none else some r
    | none => none
  else none
/-- MSTATUS of a message (Table 14.8); `poi` says that a line of it is marked (R483). -/
def State.judgeDeploy (s : State) (b : Bytes) (poi : Bool) : Nat :=
  let n := le b 32 4
  if poi ∨ (parseDeploy b).isNone then 1
  else if le b 8 8 ≠ (s.boot.dseq + 1) % 2 ^ 64 then 2
  else if (b.drop 16).take 16 ≠ s.boot.nonce then 3
  else if le b 4 1 = 1 then (if ecdsaVerify ((s.repo.drop 27).take 97) (b.drop (64 + n)) (b.take (64 + n)) then 0 else 4)
  else if s.boot.digests.contains (le b 8 8, sha384 b) then 0 else 5
/-- Messages in the order of their DSEQ (R448). -/
def insertMsg (m : DMsg) : List DMsg → List DMsg
  | [] => [m]
  | x :: r => if m.dseq < x.dseq then m :: x :: r else x :: insertMsg m r
/-- The bursts of a message are read from the deploy buffer with the severities the stack returns (R262). -/
def State.readBuffer (s : State) (a n : Nat) (ecc : List Nat) : State :=
  (List.range (ceilDiv n 32)).foldl (fun s j => s.burstSeverity (a / hbmQuarter) (addrPc (a + 32 * j)) (a + 32 * j) (ecc.getD j 0)) s
/-- DEPLOY_MESSAGE: the oldest message of the deploy buffer is judged. -/
def State.deployMessage (s : State) (ecc : List Nat) : State :=
  match s.boot.inbox with
  | [] => s
  | (k, b) :: rest =>
    if s.svc.fatalSvc || s.ethOff || s.boot.step < 9 then s
    else
      let a := s.deployBuf k
      let poi := s.linesPoison a (ceilDiv b.length 64) || (ecc.take (ceilDiv b.length 32)).contains 2
      let s1 := { (s.readBuffer a b.length ecc) with boot := { (s.readBuffer a b.length ecc).boot with inbox := rest } }
      let d := le b 8 8
      match s.judgeDeploy b poi with
      | 0 =>
        { s1 with boot := { s1.boot with dseq := d, msgs := s1.boot.msgs + 1, digests := if le b 4 1 = 2 then s1.boot.digests.filter (fun x => x.1 != d) else s1.boot.digests,
                                         work := insertMsg { dseq := d, reqs := (parseDeploy b).getD [], buf := k } s1.boot.work } }
      | c =>
        let s2 := { s1 with boot := { s1.boot with refused := s1.boot.refused + 1, work := insertMsg { dseq := d, mstatus := c, buf := k } s1.boot.work } }
        s2.log 0x0109 .contained .service none [c, d % 2 ^ 32, d / 2 ^ 32]

/-! ### Performing requests (R447, R449) -/

def dres (code : Nat) : Option DResult := some { code := code }
def sres (code : Nat) : Option DResult := some { dom := 1, code := code }
def cres (code : Nat) : Option DResult := some { dom := 2, code := code }
/-- Performs the request judged next, when its RTYPE is `ty`: `f` takes the message's DSEQ, the request's index and its body, and answers
the result, or none for a request answered later. -/
def State.perform (s : State) (ty : Nat) (f : State → Nat → Nat → Bytes → State × Option DResult) : State :=
  match s.nextReq with
  | some (m, t, b) =>
    if t = ty ∧ m.restart = false ∧ s.svc.fatalSvc = false ∧ s.ethOff = false then
      let (s1, r) := f s m.dseq m.results.length b
      s1.judged m.dseq r
    else s
  | none => s
/-- A body of exactly `n` bytes that names a listed tenant in byte `o`: otherwise MALFORMED or TENANT. -/
def State.bodyFor (s : State) (b : Bytes) (n o : Nat) (k : Nat → State × Option DResult) : State × Option DResult :=
  if b.length ≠ n then (s, dres 2)
  else if (s.tenantRec (le b o 1)).isNone then (s, dres 4)
  else k (le b o 1)

/-! ### Entries (R162 to R167) -/

def State.doArm (s : State) (b : Bytes) : State × Option DResult :=
  s.bodyFor b 4 2 fun t =>
    if le b 3 1 ≠ 0 then (s.reqRefused, sres 1) else let (s1, c) := s.armEntry (le b 0 2) s.rt.part t; (s1, sres c)
def State.doDisable (s : State) (b : Bytes) : State × Option DResult :=
  s.bodyFor b 4 2 fun t =>
    if le b 3 1 ≠ 0 then (s.reqRefused, sres 1) else let (s1, c) := s.disableEntry (le b 0 2) t; (s1, sres c)
def State.doEnable (s : State) (b : Bytes) : State × Option DResult :=
  s.bodyFor b 4 2 fun t =>
    if le b 3 1 ≠ 0 then (s.reqRefused, sres 1) else let (s1, c) := s.enableEntry (le b 0 2) t; (s1, sres c)
def State.doRemove (s : State) (b : Bytes) : State × Option DResult :=
  s.bodyFor b 4 2 fun t =>
    if le b 3 1 ≠ 0 then (s.reqRefused, sres 1) else let (s1, c) := s.removeEntry (le b 0 2) t; (s1, sres c)

/-! ### LOAD (R452, R168) -/

/-- The sections of a LOAD: STYPE, SIDX and data of each, whatever pads them; `none` where their framing breaks. Log 167, DEDUCED. -/
def parseSecs : Nat → Bytes → Option (List (Nat × Nat × Bytes))
  | 0, b => if b = [] then some [] else none
  | n + 1, b =>
    let len := le b 4 4
    let total := 8 + (len + 7) / 8 * 8
    if b.length < total ∨ le b 2 2 ≠ 0 then none
    else (parseSecs n (b.drop total)).map fun r => (le b 0 1, le b 1 1, (b.drop 8).take len) :: r
/-- A section of a known type with an index and a length in its range. -/
def secOk (c : Nat × Nat × Bytes) : Bool :=
  let n := c.2.2.length
  match c.1 with
  | 1 => c.2.1 == 0 && n % 32 == 0
  | 2 => decide (c.2.1 < 32) && n % 32 == 0
  | 3 => decide (c.2.1 < 20) && n % 16 == 0
  | 4 => decide (c.2.1 < 4) && decide (32 ≤ n) && n % 128 == 32
  | 5 => decide (c.2.1 < 16) && n == 24
  | 6 => c.2.1 == 0 && n % 8 == 0
  | _ => false
/-- The sections keep R452: each legal, none repeated, BUNDLES there. -/
def secsOk (l : List (Nat × Nat × Bytes)) : Bool :=
  l.all secOk && decide (l.map fun c => (c.1, c.2.1)).Nodup && l.any fun c => c.1 == 1
/-- What the data of a section holds outside its range. -/
def secBad (c : Nat × Nat × Bytes) : Bool :=
  let b := c.2.2
  match c.1 with
  | 1 => !within (b.length / 32) 1 16384
  | 2 => decide (512 < b.length / 32)
  | 3 => decide (64 < b.length / 16)
  | 4 => decide (64 < (b.length - 32) / 128)
  | 5 => decide (2 < le b 0 1) || decide (15 < le b 2 1) || !zeroBytes b 3 5
  | 6 => (List.range (b.length / 8)).any fun j => decide (0x1FFF < le b (8 * j) 2) || le b (8 * j + 2) 2 != 0
  | _ => true
/-- Fields of Table 6.4 outside their ranges. -/
def entryBad (w0 : Nat) (ts : List (Nat × Nat)) : Bool :=
  let term (t : Nat × Nat) : Bool :=
    let k := field t.1 0 2
    field t.1 3 13 != 0 || (k == 0 && (t.1 != 0 || t.2 != 0)) || (t.1.testBit 2 && k == 2) || (k == 1 && decide (0x4000 ≤ field t.1 16 16))
      || (k == 3 && decide (4096 ≤ field t.1 16 16))
  field w0 0 2 == 3 || field w0 2 4 == 0 || (w0.testBit 6 && w0.testBit 7) || field w0 20 12 != 0 || ts.any term
/-- LOAD: an empty entry begins admission; any other request is answered at once. Logs 118, 167, DEDUCED. -/
def State.doLoad (s : State) (d i : Nat) (b : Bytes) : State × Option DResult :=
  match parseSecs (le b 48 4) (b.drop 52) with
  | none => (s, dres 2)
  | some secs =>
    if b.length < 52 ∨ secsOk secs = false then (s, dres 2)
    else
      let e := le b 0 2
      let w0 := le b 4 4
      let ts := (List.range 4).map fun j => (le b (16 + 8 * j) 4, le b (20 + 8 * j) 4)
      let bad := entryBad w0 ts || secs.any secBad
      let t := field w0 8 8
      let x : Entry :=
        { state := .admitting, cls := field w0 0 2, rmask := field w0 2 4, rep := w0.testBit 6, dlEn := w0.testBit 7, tenant := t, part := field w0 16 4,
          movUp := BitVec.ofNat 16 (le b 8 2), movDn := BitVec.ofNat 16 (le b 10 2), deadline := le b 12 2, report := le b 14 2,
          terms := ts.map fun y => { kind := field y.1 0 2, consume := y.1.testBit 2, index := field y.1 16 16, thresh := y.2 }, arms := le b 2 2,
          decl := { secs := secs, bad := bad } }
      let code := if 1024 ≤ e then 1 else if (s.entry e).state = .empty then (if s.aborting t then s.abortCode else 0) else if bad then 1 else 2
      if code ≠ 0 then (({ s with fresh := s.fresh + 1 }).noteRefused e code 0 t, sres code)
      else
        let s1 := s.setEntry e x
        ({ s1 with stk := { s1.stk with admitQ := s1.stk.admitQ ++ [e] }, boot := { s1.boot with waits := s1.boot.waits ++ [(0, e, d, i)] } }, none)

/-! ### Areas and data (R450, R451, R251) -/

/-- The shared area of a tenant with an AREA_ID. -/
def State.sharedArea (s : State) (t id : Nat) : Option Area := s.shared.find? fun a => a.tenant == t && a.id == id && a.owner.isNone
/-- Log 119, DEDUCED. -/
def State.doAreaCreate (s : State) (b : Bytes) : State × Option DResult :=
  s.bodyFor b 24 0 fun t =>
    let hbm := le b 2 1 == 1
    let a : Area := { id := le b 1 1, hbm := hbm, tenant := t, ranges := le b 3 1, base := le b 8 8, len := le b 16 8 }
    if 1 < le b 2 1 ∨ 15 < a.ranges ∨ a.ranges = 0 ∨ zeroBytes b 4 4 = false ∨ (hbm ∧ (a.base % 2048 ≠ 0 ∨ a.len % 2048 ≠ 0)) then (s, dres 2)
    else if (s.sharedArea t a.id).isSome ∨ s.areaFits a = false then (s, dres 5)
    else (({ s with shared := s.shared ++ [a] }).zeroArea a, dres 0)
/-- A stretch of local addresses meets an area. -/
def Area.meets (x : Area) (a n : Nat) : Bool := x.spans.any fun e => overlap e.1 e.2 a n
/-- The area may not be released: a channel or region lies in it, or a footprint names it (R205, R361). -/
def State.areaBusy (s : State) (x : Area) : Bool :=
  (s.flg.chans.any fun e => e.2.state != .closed &&
    (x.meets e.2.base (2 ^ e.2.ringlog) || (e.2.kValid && (s.chim e.2.k).ordered &&
      x.meets (s.chim e.2.k).stage ((s.chim e.2.k).stages * (s.chim e.2.k).n * 64 * (s.chim e.2.k).clines))))
  || (s.trn.regions.any fun e => e.2.state != 0 && x.meets e.2.base e.2.len)
  || (s.stk.entries.any fun e => e.2.areas.any fun a => a.owner.isNone && a.tenant == x.tenant && a.hbm == x.hbm && a.base == x.base && a.len == x.len && a.ranges == x.ranges)
def State.doAreaRelease (s : State) (b : Bytes) : State × Option DResult :=
  s.bodyFor b 8 0 fun t =>
    if zeroBytes b 2 6 = false then (s, dres 2)
    else match s.sharedArea t (le b 1 1) with
      | none => (s, dres 6)
      | some a => if s.areaBusy a then (s, dres 7) else (({ s with shared := s.shared.filter fun y => y != a }).releaseArea a, dres 0)
def State.doData (s : State) (b : Bytes) : State × Option DResult :=
  if b.length < 16 then (s, dres 2)
  else s.bodyFor b b.length 0 fun t =>
    let tg := le b 4 4
    let off := le b 8 8
    let pay := b.drop 16
    if zeroBytes b 2 2 = false ∨ off % 64 ≠ 0 ∨ pay.length % 64 ≠ 0 then (s, dres 2)
    else match s.sharedArea t (le b 1 1) with
      | none => (s, dres 6)
      | some a =>
        let ok := (List.range 32).all fun i => !tg.testBit i || (if a.hbm then decide (i < 4) && a.ranges.testBit i else a.ranges.testBit (i / 8))
        let size := if a.hbm then a.len else 64 * a.len
        if !ok ∨ size < off + pay.length then (s, dres 9)
        else
          let at_ (i : Nat) : Nat := if a.hbm then hbmBase i + a.base + off else lineAddr i a.base + off
          (((List.range 32).filter fun i => tg.testBit i).foldl (fun s i => s.placeRaw (at_ i) pay) s, dres 0)
/-- Adds one pending digest; a DSEQ already pending is replaced. -/
def addDigest (l : List (Nat × Bytes)) (e : Nat × Bytes) : List (Nat × Bytes) := (l.filter fun x => x.1 != e.1) ++ [e]
def State.doDataExpect (s : State) (d : Nat) (b : Bytes) : State × Option DResult :=
  if b.length % 56 ≠ 0 then (s, dres 2)
  else
    let es := (List.range (b.length / 56)).map fun j => (le b (56 * j) 8, (b.drop (56 * j + 8)).take 48)
    if es.any fun e => decide (e.1 ≤ d) then (s, dres 2)
    else
      let l := es.foldl addDigest s.boot.digests
      if 1024 < l.length then (s, dres 8) else ({ s with boot := { s.boot with digests := l } }, dres 0)
def State.doStaging (s : State) (b : Bytes) : State × Option DResult :=
  s.bodyFor b 8 0 fun t =>
    if zeroBytes b 2 6 = false then (s, dres 2)
    else match s.sharedArea t (le b 1 1) with
      | none => (s, dres 6)
      | some a =>
        if !a.hbm ∨ a.base % 0x10000 ≠ 0 ∨ a.len % 0x10000 ≠ 0 then (s, dres 6)
        else ({ s with shared := s.shared.map fun y => if y = a then { a with staging := true } else y }, dres 0)

/-! ### Channels (R204, R211, R213) -/

def chAttrOf (b : Bytes) : ChAttr :=
  let f := le b 5 1
  let chim := f.testBit 1
  { channel := le b 0 2, tenant := le b 2 1, ringlog := le b 3 1, msglog := le b 4 1, notifyEn := f.testBit 0, chimney := chim, rpflag := le b 6 2, notify := le b 8 2,
    base := le b 16 8, fmt := le b 24 1, ordered := le b 25 1, n := le b 26 2, csize := le b 28 2, stages := le b 30 1, fwdEn := le b 31 1, stage := le b 32 8,
    pchip := le b 40 1, pidx := le b 41 1, pchan := le b 42 2,
    resv := decide (4 ≤ f) || !zeroBytes b 10 6 || !zeroBytes b 44 4 || (!chim && !zeroBytes b 24 20) }
def State.doChOpen (s : State) (b : Bytes) : State × Option DResult :=
  s.bodyFor b 48 2 fun _ => let (s1, c) := s.chOpen (chAttrOf b); (s1, cres c)
def State.doChClose (s : State) (b : Bytes) : State × Option DResult :=
  s.bodyFor b 4 2 fun t =>
    let why := le b 3 1
    let (s1, c) := s.chRequest (le b 0 2) t (.close why) (why != 1 && why != 2)
    (s1, cres c)
def State.doChDisable (s : State) (b : Bytes) : State × Option DResult :=
  s.bodyFor b 4 2 fun t => let (s1, c) := s.chRequest (le b 0 2) t .disable (le b 3 1 != 0); (s1, cres c)
def State.doChEnable (s : State) (b : Bytes) : State × Option DResult :=
  s.bodyFor b 4 2 fun t => let (s1, c) := s.chRequest (le b 0 2) t .enable (le b 3 1 != 0); (s1, cres c)

/-! ### Queue pairs (R341 to R343) -/

/-- A channel that may take a tenant's completion records: of its block, and no open chimney. -/
def State.plainChan (s : State) (t c : Nat) : Bool := s.ownsChan t c && !((s.chan c).chimney && (s.chan c).state != .closed)
def isPow2 (n : Nat) : Bool := n != 0 && 2 ^ n.log2 == n
/-- The queue pair as QP_CREATE asks for it. -/
def qpOf (part : Nat) (b : Bytes) : Qp :=
  let f := le b 7 1
  let bound := f.testBit 0
  let v6 := le b 4 1 == 6
  let ipsn : Word := BitVec.ofNat 32 (le b 12 4)
  { state := if bound then (if f.testBit 1 then 3 else 2) else 1, tenant := le b 2 1, pd := le b 36 2, part := part, iface := le b 3 1, ipv6 := v6,
    peerIp := if bound then (if v6 then le b 20 16 else le b 20 4) else 0, peerQp := if bound then some (le b 8 2) else none, ipsn := ipsn, boundPeer := bound,
    declared := f.testBit 1, matchlist := le b 10 2, sqbase := le b 40 8, sqdepth := le b 38 2, scq := le b 48 2, rcq := le b 50 2, dscp := le b 5 1,
    paylog0 := le b 6 1, paylog := le b 6 1, rto := le b 52 4, retry := le b 56 1, rnrRetry := le b 57 1, rnrDelay := le b 58 2, npsn := ipsn, una := ipsn,
    epsn := if bound ∧ f.testBit 1 then BitVec.ofNat 32 (le b 16 4) else 0 }
/-- Table 11.5. Log 121, DEDUCED. -/
def State.qpLegal (s : State) (x : Qp) (ver : Nat) : Bool :=
  let i := s.iface x.iface
  (ver == 4 || ver == 6) && decide (x.iface < 4) && i.mode != 0 && (if x.ipv6 then i.v6.isSome else i.v4.isSome)
  && (match x.peerQp with | some n => within n 1 16383 | none => true)
  && decide (x.pd < 4096) && decide (x.matchlist < 4096) && isPow2 x.sqdepth && within x.sqdepth 16 4096 && x.sqbase % 64 == 0
  && decide (x.sqbase + 64 * x.sqdepth ≤ 4 * hbmQuarter) && s.inSharedArea x.tenant x.sqbase (64 * x.sqdepth)
  && s.plainChan x.tenant x.scq && s.plainChan x.tenant x.rcq && decide (x.dscp < 64) && within x.paylog0 8 12 && within x.rto 10 100000 && within x.retry 1 15
  && decide (1 ≤ x.rnrRetry) && within x.rnrDelay 1 10000
def State.doQpCreate (s : State) (b : Bytes) : State × Option DResult :=
  s.bodyFor b 60 2 fun t =>
    let n := le b 0 2
    let x := qpOf s.rt.part b
    if n = 0 ∨ 16383 < n ∨ 4 ≤ le b 7 1 then (s, dres 2)
    else if !s.ownsChan t x.scq ∨ !s.ownsChan t x.rcq then (s, dres 4)
    else if (s.qp n).state ≠ 0 ∨ s.qpLegal x (le b 4 1) = false then (s, dres 0xA)
    else
      let s1 := s.setQp n x
      (if x.state = 2 then s1.sendConnect n 8 else s1, dres 0)
/-- QP_RESET of a queue pair in ERROR. -/
def State.resetQp (s : State) (n : Nat) : State :=
  let x := s.qp n
  let y : Qp :=
    { state := if x.boundPeer then 2 else 1, tenant := x.tenant, pd := x.pd, part := x.part, iface := x.iface, ipv6 := x.ipv6, peerIp := if x.boundPeer then x.peerIp else 0,
      peerQp := if x.boundPeer then x.peerQp else none, ipsn := x.ipsn, boundPeer := x.boundPeer, declared := x.declared, matchlist := x.matchlist, sqbase := x.sqbase,
      sqdepth := x.sqdepth, scq := x.scq, rcq := x.rcq, dscp := x.dscp, paylog0 := x.paylog0, paylog := x.paylog0, rto := x.rto, retry := x.retry,
      rnrRetry := x.rnrRetry, rnrDelay := x.rnrDelay, npsn := x.ipsn, una := x.ipsn }
  let s1 := s.setQp n y
  if x.boundPeer then s1.sendConnect n 8 else s1
def State.doQpReset (s : State) (b : Bytes) : State × Option DResult :=
  s.bodyFor b 4 2 fun t =>
    let n := le b 0 2
    if n = 0 ∨ 16383 < n ∨ le b 3 1 ≠ 0 then (s, dres 2)
    else if (s.qp n).state ≠ 0 ∧ (s.qp n).tenant ≠ t then (s, dres 4)
    else if (s.qp n).state ≠ 4 then (s, dres 0xA)
    else (s.resetQp n, dres 0)
/-- QP_DESTROY: the queue pair's receives and triggered entries go with it. -/
def State.dropQp (s : State) (n : Nat) : State :=
  let s1 := s.setQp n {}
  { s1 with trn := { s1.trn with recvs := s1.trn.recvs.filter fun v => v.qpn != n, matched := s1.trn.matched.filter fun v => v.qpn != n,
                                 trigs := s1.trn.trigs.filter fun e => e.1 != n } }
def State.doQpDestroy (s : State) (b : Bytes) : State × Option DResult :=
  s.bodyFor b 4 2 fun t =>
    let n := le b 0 2
    if n = 0 ∨ 16383 < n ∨ le b 3 1 ≠ 0 then (s, dres 2)
    else if (s.qp n).state ≠ 0 ∧ (s.qp n).tenant ≠ t then (s, dres 4)
    else if (s.qp n).state ≠ 4 ∧ (s.qp n).state ≠ 5 then (s, dres 0xA)
    else (s.dropQp n, dres 0)

/-! ### Regions (R359 to R361). Log 116, DEDUCED. -/
def State.doRegCreate (s : State) (b : Bytes) : State × Option DResult :=
  s.bodyFor b 24 2 fun t =>
    let i := le b 0 2
    let f := le b 3 1
    let cnt := le b 6 2
    let base := le b 8 8
    let len := le b 16 8
    let old := s.region i
    if 16 ≤ f ∨ 4096 ≤ le b 4 2 ∨ 4096 ≤ cnt then (s, dres 2)
    else if f.testBit 3 ∧ s.ownsCnt t cnt = false then (s, dres 4)
    else if old.reg ∨ base % 64 ≠ 0 ∨ len % 64 ≠ 0 ∨ s.inSharedArea t base len = false then (s, dres 0xB)
    else
      let g : Region := { gen := (old.gen + 1) % 65536, reg := true, state := 1, tenant := t, pd := le b 4 2, base := base, len := len, put := f.testBit 0, get := f.testBit 1,
                          loc := f.testBit 2, cntEn := f.testBit 3, cnt := cnt }
      (s.setRegion i g, some { value := regionKey i g })
/-- REG_REMOVE: answered when the region is CLOSED. -/
def State.doRegRemove (s : State) (d j : Nat) (b : Bytes) : State × Option DResult :=
  s.bodyFor b 8 4 fun t =>
    let i := le b 2 2
    let g := s.region i
    if zeroBytes b 5 3 = false then (s, dres 2)
    else if g.reg ∧ g.gen = le b 0 2 ∧ g.tenant ≠ t then (s, dres 4)
    else if !g.reg ∨ g.gen ≠ le b 0 2 then (s, dres 0xB)
    else if g.state = 0 then (s.setRegion i { g with reg := false }, dres 0)
    else
      let s1 := s.setRegion i { g with state := 2 }
      ({ s1 with boot := { s1.boot with waits := s1.boot.waits ++ [(1, i, d, j)] } }, none)

/-! ### Links and management (R272, R281, R327) -/

/-- LINK_DISABLE: refused for a link beyond 19 or not enabled in the image; a link already disabled stays so. -/
def State.doLinkDisable (s : State) (b : Bytes) : State × Option DResult :=
  if b.length ≠ 8 ∨ zeroBytes b 1 7 = false then (s, dres 2)
  else match s.judgeDisable (le b 0 1) with
    | 1 => (s, dres 0x12)
    | 0 => (s.askDisable (le b 0 1), dres 0)
    | _ => (s, dres 3)
def State.doLinkEnable (s : State) (b : Bytes) : State × Option DResult :=
  if b.length ≠ 8 ∨ zeroBytes b 1 7 = false then (s, dres 2)
  else match s.judgeEnable (le b 0 1) with
    | 1 => (s, dres 0x12)
    | 0 => (s.enableLink (le b 0 1), dres 0)
    | _ => (s, dres 3)
def State.doMgmt (s : State) (b : Bytes) : State × Option DResult :=
  let ty := le b 1 1
  let l := le b 2 1
  if b.length ≠ 8 ∨ zeroBytes b 3 5 = false ∨ (ty ≠ 1 ∧ ty ≠ 3 ∧ ty ≠ 4) ∨ (ty = 1 ∧ l ≠ 0) then (s, dres 2)
  else if ty ≠ 1 ∧ 20 ≤ l then (s, dres 0x12)
  else (s.sendMgmt (le b 0 1) 0 (mgmtFlit ty l 0 s.rt.part [] 0), dres 0)

/-! ### START, RESTART, flash and ledger (R453 to R457) -/

/-- Step 10: the stoker is enabled, and beat 0 of all four ranges begins (R453, R157). Log 44, DEDUCED. -/
def State.startStoker (s : State) : State :=
  let s1 := { s with stk := { s.stk with started := true }, boot := { s.boot with step := 10 }, svc := { s.svc with mode := 1 } }
  let s2 := (List.range 36).foldl (fun s k => s.sinkFull k (s.grade (if k < 32 then k / 8 else k - 32))) s1
  let s3 := (List.range 4).foldl (fun s q =>
    let r := s.range q
    let sck (c : Nat) : Nat := sckStart (s.grade q) r.stn.phase c
    s.setRange q { r with stn := r.stn.carry (sck r.cyc) (sck s.beatLen), lastFill := r.lastFill.filterMap fun e => if r.cyc < e.2 then some (e.1, e.2 - r.cyc + s.beatLen) else none }) s2
  (List.range 4).foldl (fun s q => let s3 := s.startBeat q s.newPhase; s3.setRange q { s3.range q with beatNo := (s.range q).beatNo }) s3
def State.doStart (s : State) (b : Bytes) : State × Option DResult :=
  if b ≠ [] then (s, dres 2)
  else if s.boot.step ≠ 9 ∨ s.stk.started = true ∨ s.svc.cause ≠ 0 then (s, dres 3)
  else (s.startStoker, dres 0)
/-- RESTART: the rest of its message is refused, its reply is sent, and the warm reset follows RESTART_RESET. -/
def State.doRestart (s : State) (d : Nat) (b : Bytes) : State × Option DResult :=
  if b ≠ [] then (s, dres 2)
  else ({ s with boot := { s.boot with work := s.boot.work.map fun m => if m.dseq = d then { m with restart := true } else m } }, dres 0)
/-- The 4 KiB sectors that `n` bytes of the flash from `a` touch are erased (R455). Log 166, DEDUCED. -/
def State.eraseSectors (s : State) (a n : Nat) : State :=
  { s with out := s.out ++ (List.range (ceilDiv (a % 4096 + n) 4096)).map fun j => .bytes "FLASH_ERASE" (toBytes 4 (a / 4096 * 4096 + 4096 * j)) }
/-- FLASH_WRITE; `ok` says whether the data read back as written. Log 59, DEDUCED. -/
def State.doFlash (s : State) (ok : Bool) (b : Bytes) : State × Option DResult :=
  let c := le b 0 1
  let off := le b 4 4
  let data := b.drop 8
  let res := if c = 0 then s.boot.resA else s.boot.resB
  if b.length < 8 ∨ 1 < c ∨ zeroBytes b 1 3 = false ∨ off % 4096 ≠ 0 ∨ data.length % 256 ≠ 0 then (s, dres 2)
  else if c = s.boot.copy then (s, dres 0xC)
  else if res.2 < off + data.length then (s, dres 0xD)
  else ((s.eraseSectors (res.1 + off) data.length).emit (.bytes "FLASH" (toBytes 4 (res.1 + off) ++ data)), dres (if ok then 0 else 0xE))
/-- A value that Table 14.12 allows for a setting. -/
def ledgerLegal (t : Nat) (v : Bytes) : Bool :=
  let w := le v 0 2
  match t with
  | 1 => true
  | 2 => zeroBytes v 2 46 && (decide (w ≤ 0xE) || w == 0xFFFF)
  | 3 => zeroBytes v 2 46 && (decide (w ≤ 0xFF) || w == 0xFFFF)
  | _ => zeroBytes v 0 48
/-- The value bytes that a slot of a setting holds. -/
def ledgerBytes (t : Nat) (v : Bytes) : Bytes := match t with | 1 => v.take 48 | 2 => v.take 2 | 3 => v.take 2 | _ => []
/-- LEDGER: the burn begins, and the request is answered once the slot has been read back: `none` leaves it in progress, `some ok` says
whether the slot is current. -/
def State.doLedger (s : State) (verified : Bool) (b : Bytes) : State × Option DResult :=
  let t := le b 0 1
  let v := (b.drop 4).take 48
  if b.length ≠ 52 ∨ t = 0 ∨ 4 < t ∨ zeroBytes b 1 3 = false then (s, dres 2)
  else if ledgerLegal t v = false then (s, dres 0x10)
  else match (List.range (ledSlots t)).find? fun n => !(s.ledSlot t n).burned with
    | none => (s, dres 0xF)
    | some n =>
      let w := ledgerBytes t v
      let check := if verified then crc8 w else (crc8 w + 1 + Config.burnCheck s.fresh % 255) % 256
      let code := if verified then 0 else 0x11
      let s1 := { s with fresh := s.fresh + 1, boot := { s.boot with burning := none, ledger := put {} (8 * t + n) { burned := true, check := check, value := w } s.boot.ledger } }
      (s1.log 0x010A .info .service none [t, n, code], dres code)
/-- The burn of the LEDGER request judged next is in progress. Log 60, DEDUCED. -/
def State.beginBurn (s : State) : State :=
  match s.nextReq with
  | some (m, 0x70, b) =>
    let t := le b 0 1
    let v := (b.drop 4).take 48
    if m.restart = true ∨ s.svc.fatalSvc = true ∨ s.ethOff = true ∨ b.length ≠ 52 ∨ t = 0 ∨ 4 < t ∨ zeroBytes b 1 3 = false ∨ ledgerLegal t v = false then s
    else match (List.range (ledSlots t)).find? fun n => !(s.ledSlot t n).burned with
      | some n => { s with boot := { s.boot with burning := some (t, n, ledgerBytes t v) } }
      | none => s
  | _ => s

end Sys2Proof.Machine
end

