-- ==== Sys2Proof/Machine/DeployCmds.lean ====
section
/-! DEFINITION. The commands of deploy messages (14_boot_and_configuration.md R445 to R459): a message is judged, and each request of
an accepted message is performed in its turn. -/
namespace Sys2Proof.Machine

/-- DEPLOY_MESSAGE (R446); `ecc` gives the severity of each burst of the buffer. -/
def execDeployMessage (ecc : List Nat) (s : State) : Host.Outcome State Fault Refusal := (s.deployMessage ecc).ends
/-- LOAD (R452). -/
def execLoad (s : State) : Host.Outcome State Fault Refusal := (s.perform 0x01 fun s d i b => s.doLoad d i b).ends
/-- ARM (R164). -/
def execArm (s : State) : Host.Outcome State Fault Refusal := (s.perform 0x02 fun s _ _ b => s.doArm b).ends
/-- DISABLE (R166). -/
def execDisable (s : State) : Host.Outcome State Fault Refusal := (s.perform 0x03 fun s _ _ b => s.doDisable b).ends
/-- ENABLE (R162). -/
def execEnable (s : State) : Host.Outcome State Fault Refusal := (s.perform 0x04 fun s _ _ b => s.doEnable b).ends
/-- REMOVE (R167). -/
def execRemove (s : State) : Host.Outcome State Fault Refusal := (s.perform 0x05 fun s _ _ b => s.doRemove b).ends
/-- AREA_CREATE (R450). -/
def execAreaCreate (s : State) : Host.Outcome State Fault Refusal := (s.perform 0x10 fun s _ _ b => s.doAreaCreate b).ends
/-- AREA_RELEASE (R449). -/
def execAreaRelease (s : State) : Host.Outcome State Fault Refusal := (s.perform 0x11 fun s _ _ b => s.doAreaRelease b).ends
/-- DATA (R450). -/
def execData (s : State) : Host.Outcome State Fault Refusal := (s.perform 0x12 fun s _ _ b => s.doData b).ends
/-- DATA_EXPECT (R451). -/
def execDataExpect (s : State) : Host.Outcome State Fault Refusal := (s.perform 0x13 fun s d _ b => s.doDataExpect d b).ends
/-- STAGING (R251). -/
def execStaging (s : State) : Host.Outcome State Fault Refusal := (s.perform 0x14 fun s _ _ b => s.doStaging b).ends
/-- CH_OPEN (R204). -/
def execChOpen (s : State) : Host.Outcome State Fault Refusal := (s.perform 0x20 fun s _ _ b => s.doChOpen b).ends
/-- CH_CLOSE (R211). -/
def execChClose (s : State) : Host.Outcome State Fault Refusal := (s.perform 0x21 fun s _ _ b => s.doChClose b).ends
/-- CH_DISABLE (R213). -/
def execChDisable (s : State) : Host.Outcome State Fault Refusal := (s.perform 0x22 fun s _ _ b => s.doChDisable b).ends
/-- CH_ENABLE (R213). -/
def execChEnable (s : State) : Host.Outcome State Fault Refusal := (s.perform 0x23 fun s _ _ b => s.doChEnable b).ends
/-- QP_CREATE (R341). -/
def execQpCreate (s : State) : Host.Outcome State Fault Refusal := (s.perform 0x30 fun s _ _ b => s.doQpCreate b).ends
/-- QP_RESET (R342). -/
def execQpReset (s : State) : Host.Outcome State Fault Refusal := (s.perform 0x31 fun s _ _ b => s.doQpReset b).ends
/-- QP_DESTROY (R342). -/
def execQpDestroy (s : State) : Host.Outcome State Fault Refusal := (s.perform 0x32 fun s _ _ b => s.doQpDestroy b).ends
/-- REG_CREATE (R359). -/
def execRegCreate (s : State) : Host.Outcome State Fault Refusal := (s.perform 0x33 fun s _ _ b => s.doRegCreate b).ends
/-- REG_REMOVE (R360). -/
def execRegRemove (s : State) : Host.Outcome State Fault Refusal := (s.perform 0x34 fun s d i b => s.doRegRemove d i b).ends
/-- LINK_DISABLE (R281). -/
def execLinkDisable (s : State) : Host.Outcome State Fault Refusal := (s.perform 0x40 fun s _ _ b => s.doLinkDisable b).ends
/-- LINK_ENABLE (R272). -/
def execLinkEnable (s : State) : Host.Outcome State Fault Refusal := (s.perform 0x41 fun s _ _ b => s.doLinkEnable b).ends
/-- MGMT_REQUEST (R327). -/
def execMgmtRequest (s : State) : Host.Outcome State Fault Refusal := (s.perform 0x42 fun s _ _ b => s.doMgmt b).ends
/-- START (R453). -/
def execStart (s : State) : Host.Outcome State Fault Refusal := (s.perform 0x50 fun s _ _ b => s.doStart b).ends
/-- RESTART (R454). -/
def execRestart (s : State) : Host.Outcome State Fault Refusal := (s.perform 0x51 fun s d _ b => s.doRestart d b).ends
/-- FLASH_WRITE (R455); `ok` says whether the data read back as written. -/
def execFlashWrite (ok : Bool) (s : State) : Host.Outcome State Fault Refusal := (s.perform 0x60 fun s _ _ b => s.doFlash ok b).ends
/-- LEDGER (R457): the burn begins (`none`), or it has been read back and the slot is current or not. -/
def execLedger (res : Option Bool) (s : State) : Host.Outcome State Fault Refusal :=
  (match res with | none => s.beginBurn | some ok => s.perform 0x70 fun s _ _ b => s.doLedger ok b).ends

end Sys2Proof.Machine
end

