-- ==== Sys2Proof/Machine/Service.lean ====
section
/-! DEFINITION. The sideband: the mailbox, the common command codes, and the TAP (15_service_sideband_errors.md R462 to R474, R484 to R486;
17_signals_and_package.md R531). -/
namespace Sys2Proof.Machine

/-! ### Addressing (R463, R465) -/

/-- The target is served: from bring-up step 2, but not in BANKED or COLD. -/
def State.served (s : State) : Bool := decide (2 ≤ s.boot.step) && s.pwr.bank == 0 && s.boot.held == 0 && !s.pwr.off
/-- The static address. -/
def State.staticAddr (s : State) : Nat := 0x58 + s.svc.strap % 8
/-- The address the target answers: the dynamic address once assigned, else the static one. -/
def State.sbAddr (s : State) : Nat := if s.svc.dynValid then s.svc.dynAddr else s.staticAddr
/-- A served transaction to the target's own address. Log 66, DEDUCED. -/
def State.addressed (s : State) (a : BitVec 7) : Bool := s.served && a.toNat == s.sbAddr

/-! ### The mailbox (R466 to R473) -/

/-- Payload length of a command (Table 15.4); none for a reserved CMD. -/
def cmdLen (c : Nat) : Option Nat :=
  match c with | 1 => some 0 | 2 => some 0 | 3 => some 0 | 4 => some 5 | 5 => some 6 | 6 => some 2 | 7 => some 2 | 8 => some 2 | _ => none
/-- A frame with its PEC: a command or STATUS byte, LEN, and a payload. -/
def sbFrame (c : Nat) (p : Bytes) : Bytes := let f := toBytes 1 c ++ toBytes 1 p.length ++ p; f ++ toBytes 1 (crc8 f)
/-- Checks 1 to 3 of R467. Log 67, DEDUCED. -/
def frameCheck (f : Bytes) : Nat :=
  if f.length < 3 ∨ crc8 f.dropLast ≠ le f (f.length - 1) 1 then 2
  else if le f 1 1 ≠ f.length - 3 ∨ 32 < le f 1 1 then 4
  else match cmdLen (le f 0 1) with
    | none => 3
    | some n => if n = le f 1 1 then 0 else 4

/-- GET_STATUS (Table 15.5). -/
def State.statusBytes (s : State) : Bytes :=
  let hot := (s.pwr.tq.any fun e => decide (105 ≤ e.2)) || decide (105 ≤ s.pwr.tm)
  let flags := fieldsOf [(0, 1, bit1 (s.svc.mode == 4)), (1, 1, bit1 s.pwr.fault), (2, 1, bit1 hot), (3, 1, bit1 s.boot.dbgLocked), (4, 1, bit1 s.svc.testMode),
                         (5, 1, bit1 s.boot.unprov), (6, 1, bit1 s.pwr.sleeping)]
  toBytes 1 s.svc.mode ++ toBytes 1 s.boot.step ++ toBytes 1 flags ++ toBytes 1 s.svc.latch.toNat ++ toBytes 4 s.svc.head.toNat ++ toBytes 4 s.logTail.toNat
    ++ toBytes 4 s.stk.beat.toNat ++ toBytes 1 s.svc.cause ++ List.replicate 3 0
/-- GET_IDENTITY (Table 15.4). -/
def State.identityBytes (s : State) : Bytes :=
  toBytes 2 0x2410 ++ toBytes 1 0xA1 ++ toBytes 1 s.rt.chip ++ toBytes 1 (s.rt.part % 16) ++ toBytes 1 s.boot.copy ++ toBytes 4 s.boot.gen ++ toBytes 6 s.pid
/-- LOG_READ from `seq`, at most `n` entries (R469): distances are taken from TAIL. Log 69, DEDUCED. -/
def State.logRead (s : State) (seq : Word) (n : Nat) : Bytes :=
  let held := (s.svc.head - s.logTail).toNat
  let before := decide (2 ^ 31 ≤ (seq - s.logTail).toNat)
  let first := if before then s.logTail else seq
  let k := min n (held - (first - s.logTail).toNat)
  let one (j : Nat) : Bytes := (get (Vector.replicate 8 (0 : Word)) ((first.toNat + j) % 4096) s.svc.log).toList.flatMap fun w => toBytes 4 w.toNat
  toBytes 4 first.toNat ++ toBytes 1 k ++ (List.range k).flatMap one
/-- LEDGER_READ (Table 15.7): the values the ledger holds now (R472). Log 70, DEDUCED. -/
def State.ledgerRead (s : State) (t slot : Nat) : Bytes :=
  if slot = 0xFF then
    let v := match s.ledCurrent t with | some n => if t = 4 then [] else (s.ledSlot t n).value | none => []
    toBytes 1 t ++ toBytes 1 (ledSlots t) ++ toBytes 1 (s.ledBurned t) ++ toBytes 1 ((s.ledCurrent t).getD 0xFF) ++ fit 48 v
  else
    let x := s.ledSlot t slot
    toBytes 1 t ++ toBytes 1 slot ++ toBytes 1 (fieldsOf [(0, 1, bit1 x.burned), (1, 1, bit1 x.current)]) ++ toBytes 1 x.check ++ fit 48 x.value
/-- The answer of a command that passes its checks. -/
abbrev SbAnswer := State × Nat × Bytes
/-- CSR_READ: every word of a decoded span, or ARG (R470, R489). Log 71, DESIGN CHOICE. -/
def State.sbCsrRead (s : State) (a n : Nat) : SbAnswer :=
  if a % 4 ≠ 0 ∨ n = 0 ∨ 32 < n ∨ a < 0xF000000000 ∨ 0xF100000000 < a + 4 * n ∨ (List.range n).all (fun j => csrDecoded s (a + 4 * j)) = false then (s, 5, [])
  else (s, 0, s.csrReadBytes a n)
/-- SLEEP (R471). Log 72, DEDUCED. -/
def State.sbSleep (s : State) (st confirm : Nat) : SbAnswer :=
  if (st ≠ 1 ∧ st ≠ 2) ∨ confirm ≠ 0xA5 then (s, 5, [])
  else if (s.svc.mode ≠ 1 ∧ s.svc.mode ≠ 2) ∨ s.pwr.sleeping = true then (s, 6, [])
  else
    let s1 := { s with pwr := { s.pwr with sleeping := true, cold := st == 2 }, svc := { s.svc with mode := 3 } }
    (s1.log 0x0003 .info .service none [st], 0, [])
/-- ALERT_ACK (R473); `same` holds the latches whose events recur in the cycle of the clear. -/
def State.sbAlertAck (s : State) (clear mask : Nat) (same : BitVec 5) : SbAnswer :=
  if 32 ≤ clear ∨ 32 ≤ mask then (s, 5, [])
  else
    let l := s.svc.latch &&& ~~~(BitVec.ofNat 5 clear &&& ~~~same)
    let m : BitVec 5 := BitVec.ofNat 5 mask
    ({ s with svc := { s.svc with latch := l, mask := m } }, 0, toBytes 1 l.toNat ++ toBytes 1 m.toNat)
/-- A command with its payload (checks 4 and 5 of R467, and its effect). -/
def State.sbPerform (s : State) (c : Nat) (p : Bytes) (same : BitVec 5) : SbAnswer :=
  match c with
  | 1 => (s, 0, s.statusBytes)
  | 2 => (s, 0, s.identityBytes)
  | 3 => (s, 0, s.telemetry)
  | 4 => if le p 4 1 = 0 ∨ 7 < le p 4 1 then (s, 5, []) else (s, 0, s.logRead (BitVec.ofNat 32 (le p 0 4)) (le p 4 1))
  | 5 => s.sbCsrRead (le p 0 5) (le p 5 1)
  | 6 => if le p 0 1 = 0 ∨ 4 < le p 0 1 ∨ (le p 1 1 ≠ 0xFF ∧ ledSlots (le p 0 1) ≤ le p 1 1) then (s, 5, []) else (s, 0, s.ledgerRead (le p 0 1) (le p 1 1))
  | 7 => s.sbSleep (le p 0 1) (le p 1 1)
  | _ => s.sbAlertAck (le p 0 1) (le p 1 1) same
/-- The response of a frame: its STATUS counted, and kept for the reads to come. -/
def State.sbAnswer (s : State) (status : Nat) (p : Bytes) : State :=
  let v := s.svc
  let bad := within status 2 5
  { s with svc := { v with resp := some (status, p), executing := decide (status = 0), overrun := false, pecFail := decide (status = 2),
                           mboxCmd := if status = 0 then v.mboxCmd + 1 else v.mboxCmd, mboxErr := if bad then v.mboxErr + 1 else v.mboxErr } }
/-- A command frame is written to address `a` (R467, R468); `during` says that the command before still executes. Log 68, DEDUCED. -/
def State.mailbox (s : State) (a : BitVec 7) (f : Bytes) (during : Bool) (same : BitVec 5) : State :=
  if s.addressed a = false then s
  else if s.svc.executing = true ∧ during = true then
    if s.svc.overrun then s else { s with svc := { s.svc with overrun := true, mboxErr := s.svc.mboxErr + 1 } }
  else match frameCheck f with
    | 0 => let (s1, st, p) := s.sbPerform (le f 0 1) ((f.drop 2).dropLast) same; s1.sbAnswer st p
    | c => s.sbAnswer c []
/-- A read of the mailbox (R468); `ended` says that a command which was executing has ended. -/
def State.mailboxRead (s : State) (a : BitVec 7) (ended : Bool) : State :=
  if s.addressed a = false then s
  else if s.svc.executing = true ∧ ended = false then s.emit (.bytes "MAILBOX" (sbFrame 1 []))
  else
    let r := if s.svc.overrun then (7, []) else s.svc.resp.getD (8, [])
    ({ s with svc := { s.svc with executing := false } }).emit (.bytes "MAILBOX" (sbFrame r.1 r.2))

/-! ### Common command codes (R463, R464) -/

/-- A direct command code to an address. -/
def State.direct (s : State) (a : BitVec 7) (f : State → State) : State := if s.addressed a then f s else s
/-- A command code sent to all targets (`none`) or to one. -/
def State.ccc (s : State) (a : Option (BitVec 7)) (f : State → State) : State :=
  match a with | none => if s.served then f s else s | some x => s.direct x f
/-- Log 73, DEDUCED. -/
def State.setDyn (s : State) (v : BitVec 7) : State := { s with svc := { s.svc with dynAddr := v.toNat, dynValid := true } }
/-- ENTDAA: the target gives its PID, BCR and DCR while it holds no dynamic address, and takes the address where it wins. -/
def State.entdaa (s : State) (won : Option (BitVec 7)) : State :=
  if s.served && !s.svc.dynValid then
    let s1 := s.emit (.bytes "ENTDAA" (toBytesBE 6 s.pid ++ [0x06, 0x00]))
    match won with | some v => s1.setDyn v | none => s1
  else s
/-- GETSTATUS (Table 15.2). -/
def State.sbStatus (s : State) : Nat :=
  let l := s.svc.latch &&& s.svc.mask
  min 15 ((List.range 5).filter fun i => l.getLsbD i).length + bit1 s.svc.pecFail * 32

/-! ### TAP (R484 to R486, R531) -/

/-- Loads an instruction; one that the mode permits acts on the pins as `drive` says, any other as BYPASS. Log 74, DEDUCED. -/
def State.tapLoad (s : State) (code : BitVec 8) (ok : Bool) (drive : Nat) : State :=
  { s with tap := { s.tap with ir := code, driving := if ok then drive else 0 } }
/-- The TAP has power. Log 57, DEDUCED. -/
def State.tapOn (s : State) : Bool := !s.pwr.off && s.boot.held.getLsbD 0 == false
/-- A scan of the boundary-scan register: the pins are captured and shifted out, and the cells take what was shifted in. -/
def State.scanCells (s : State) (pins shift : BitVec 379) : State :=
  ({ s with tap := { s.tap with cells := pins, held := shift } }).emit (.bytes "TDO" (toBytes 48 pins.toNat))
/-- A scan of the bypass register. -/
def State.scanBypass (s : State) : State := s.emit (.bytes "TDO" [0])
/-- An instruction that only test mode performs, over the boundary-scan register. -/
def State.testScan (s : State) (code : BitVec 8) (drive : Nat) (pins shift : BitVec 379) : State :=
  if s.tapOn then
    let s1 := s.tapLoad code s.svc.testMode drive
    if s.svc.testMode then s1.scanCells pins shift else s1.scanBypass
  else s
/-- CLAMP and HIGHZ: the bypass register is scanned. -/
def State.testHold (s : State) (code : BitVec 8) (drive : Nat) : State :=
  if s.tapOn then (s.tapLoad code s.svc.testMode drive).scanBypass else s
/-- The debugger's operation. An access to CSR space is one aligned word; elsewhere, and while CSR space is not served, a read returns zero and a write is not performed (R489, R494, R511). -/
def State.debug (s : State) (op : DebugOp) : State :=
  match op with
  | .select => s
  | .halt => { s with tap := { s.tap with halted := true } }
  | .step => s
  | .release => { s with tap := { s.tap with halted := false } }
  | .readWord a => s.emit (.bytes "DEBUG" (toBytes 4 (if a.toNat % 4 = 0 ∧ s.comServed = true then (s.csrNat a.toNat).getD 0 else 0)))
  | .writeWord a v => if a.toNat % 4 = 0 ∧ s.comServed = true ∧ csrDecoded s a.toNat = true ∧ inStoreWindow a.toNat = false then s.csrWrite a.toNat v 0 else s
  | .readLocal a n =>
    let ok := (List.range (n / 64 + 2)).all fun j => let x := min (a.toNat + 64 * j) (a.toNat + n - 1); s.kindAt x == 1 || s.kindAt x == 2
    s.emit (.bytes "DEBUG" (if ok then (s.readRaw a.toNat n).1 else List.replicate n 0))
  | .writeLocal a b =>
    let ok := (List.range (b.length / 64 + 2)).all fun j => let x := min (a.toNat + 64 * j) (a.toNat + b.length - 1); s.kindAt x == 1 || s.kindAt x == 2
    if ok then s.placeRaw a.toNat b else s
/-- DEBUG: performed in test mode while unlocked. -/
def State.tapDebug (s : State) (op : DebugOp) : State :=
  if s.tapOn then
    let s1 := s.tapLoad 0x20 false 0
    if s1.debugging then s1.debug op else s1.scanBypass
  else s

end Sys2Proof.Machine
end

