-- ==== Sys2Proof/Machine/ServiceCmds.lean ====
section
/-! DEFINITION. The commands of the sideband and of the TAP (15_service_sideband_errors.md R462 to R473, R484 to R486). Each names the address to
which the controller sends it (R463). -/
namespace Sys2Proof.Machine

/-! ### The mailbox -/

/-- MAILBOX_READ (R468). -/
def execMailboxRead (a : BitVec 7) (ended : Bool) (s : State) : Host.Outcome State Fault Refusal := (s.mailboxRead a ended).ends
/-- GET_STATUS (R468). -/
def execGetStatus (a : BitVec 7) (during : Bool) (s : State) : Host.Outcome State Fault Refusal := (s.mailbox a (sbFrame 1 []) during 0).ends
/-- GET_IDENTITY (R468). -/
def execGetIdentity (a : BitVec 7) (during : Bool) (s : State) : Host.Outcome State Fault Refusal := (s.mailbox a (sbFrame 2 []) during 0).ends
/-- GET_TELEMETRY (R468). -/
def execGetTelemetry (a : BitVec 7) (during : Bool) (s : State) : Host.Outcome State Fault Refusal := (s.mailbox a (sbFrame 3 []) during 0).ends
/-- LOG_READ (R469). -/
def execLogRead (a : BitVec 7) (seq : Word) (count : Byte) (during : Bool) (s : State) : Host.Outcome State Fault Refusal :=
  (s.mailbox a (sbFrame 4 (toBytes 4 seq.toNat ++ [count])) during 0).ends
/-- CSR_READ (R470). -/
def execCsrRead (a : BitVec 7) (addr : BitVec 40) (count : Byte) (during : Bool) (s : State) : Host.Outcome State Fault Refusal :=
  (s.mailbox a (sbFrame 5 (toBytes 5 addr.toNat ++ [count])) during 0).ends
/-- LEDGER_READ (R472). -/
def execLedgerRead (a : BitVec 7) (setting slot : Byte) (during : Bool) (s : State) : Host.Outcome State Fault Refusal :=
  (s.mailbox a (sbFrame 6 [setting, slot]) during 0).ends
/-- SLEEP (R471). -/
def execSleep (a : BitVec 7) (st confirm : Byte) (during : Bool) (s : State) : Host.Outcome State Fault Refusal :=
  (s.mailbox a (sbFrame 7 [st, confirm]) during 0).ends
/-- ALERT_ACK (R473). -/
def execAlertAck (a : BitVec 7) (clear mask : Byte) (same : BitVec 5) (during : Bool) (s : State) : Host.Outcome State Fault Refusal :=
  (s.mailbox a (sbFrame 8 [clear, mask]) during same).ends
/-- COMMAND_FRAME (R467): any bytes of a write transfer. -/
def execCommandFrame (a : BitVec 7) (f : Bytes) (during : Bool) (s : State) : Host.Outcome State Fault Refusal := (s.mailbox a f during 0).ends

/-! ### Common command codes -/

/-- ENEC: only ENINT, bit 0, acts. -/
def execEnec (a : Option (BitVec 7)) (ev : Byte) (s : State) : Host.Outcome State Fault Refusal :=
  (s.ccc a fun s => if ev.getLsbD 0 then { s with svc := { s.svc with ibiEn := true } } else s).ends
/-- DISEC: only DISINT, bit 0, acts. -/
def execDisec (a : Option (BitVec 7)) (ev : Byte) (s : State) : Host.Outcome State Fault Refusal :=
  (s.ccc a fun s => if ev.getLsbD 0 then { s with svc := { s.svc with ibiEn := false } } else s).ends
/-- RSTDAA (R463). -/
def execRstdaa (s : State) : Host.Outcome State Fault Refusal :=
  (s.ccc none fun s => { s with svc := { s.svc with dynAddr := 0, dynValid := false } }).ends
/-- ENTDAA: the address that the controller assigns where the target wins. -/
def execEntdaa (won : Option (BitVec 7)) (s : State) : Host.Outcome State Fault Refusal := (s.entdaa won).ends
/-- SETDASA: to the static address of a target without a dynamic one. -/
def execSetdasa (a v : BitVec 7) (s : State) : Host.Outcome State Fault Refusal := (s.direct a fun s => if s.svc.dynValid then s else s.setDyn v).ends
/-- SETNEWDA: to the dynamic address. -/
def execSetnewda (a v : BitVec 7) (s : State) : Host.Outcome State Fault Refusal := (s.direct a fun s => if s.svc.dynValid then s.setDyn v else s).ends
/-- GETPID. -/
def execGetpid (a : BitVec 7) (s : State) : Host.Outcome State Fault Refusal := (s.direct a fun s => s.emit (.bytes "GETPID" (toBytesBE 6 s.pid))).ends
/-- GETBCR. -/
def execGetbcr (a : BitVec 7) (s : State) : Host.Outcome State Fault Refusal := (s.direct a fun s => s.emit (.bytes "GETBCR" [0x06])).ends
/-- GETDCR. -/
def execGetdcr (a : BitVec 7) (s : State) : Host.Outcome State Fault Refusal := (s.direct a fun s => s.emit (.bytes "GETDCR" [0x00])).ends
/-- GETMWL: 35 bytes. -/
def execGetmwl (a : BitVec 7) (s : State) : Host.Outcome State Fault Refusal := (s.direct a fun s => s.emit (.bytes "GETMWL" (toBytesBE 2 35))).ends
/-- GETMRL: 258 bytes, and IBI payload size 1. -/
def execGetmrl (a : BitVec 7) (s : State) : Host.Outcome State Fault Refusal := (s.direct a fun s => s.emit (.bytes "GETMRL" (toBytesBE 2 258 ++ [1]))).ends
/-- GETSTATUS. -/
def execGetstatus (a : BitVec 7) (s : State) : Host.Outcome State Fault Refusal := (s.direct a fun s => s.emit (.bytes "GETSTATUS" (toBytesBE 2 s.sbStatus))).ends

/-! ### TAP -/

/-- EXTEST: the pins observed, and the cells shifted in. -/
def execExtest (pins shift : BitVec 379) (s : State) : Host.Outcome State Fault Refusal := (s.testScan 0x00 1 pins shift).ends
/-- IDCODE (R486). -/
def execIdcode (s : State) : Host.Outcome State Fault Refusal :=
  (if s.tapOn then (s.tapLoad 0x01 true 0).emit (.bytes "TDO" (toBytes 4 0x12410735)) else s).ends
/-- SAMPLE/PRELOAD: performed in both modes; the pins are not driven. -/
def execSamplePreload (pins shift : BitVec 379) (s : State) : Host.Outcome State Fault Refusal :=
  (if s.tapOn then (s.tapLoad 0x02 true 0).scanCells pins shift else s).ends
/-- CLAMP. -/
def execClamp (s : State) : Host.Outcome State Fault Refusal := (s.testHold 0x04 2).ends
/-- HIGHZ. -/
def execHighz (s : State) : Host.Outcome State Fault Refusal := (s.testHold 0x05 3).ends
/-- EXTEST_PULSE. -/
def execExtestPulse (pins shift : BitVec 379) (s : State) : Host.Outcome State Fault Refusal := (s.testScan 0x09 4 pins shift).ends
/-- EXTEST_TRAIN. -/
def execExtestTrain (pins shift : BitVec 379) (s : State) : Host.Outcome State Fault Refusal := (s.testScan 0x0A 5 pins shift).ends
/-- DEBUG. -/
def execDebug (op : DebugOp) (s : State) : Host.Outcome State Fault Refusal := (s.tapDebug op).ends
/-- BYPASS. -/
def execBypass (s : State) : Host.Outcome State Fault Refusal := (if s.tapOn then (s.tapLoad 0xFF true 0).scanBypass else s).ends
/-- TAP_RESET: TRST_N. The reset selects IDCODE, and the pins return to their functions. -/
def execTapReset (s : State) : Host.Outcome State Fault Refusal := ({ s with tap := { s.tap with ir := 0x01, driving := 0 } }).ends

end Sys2Proof.Machine
end

