-- ==== Sys2Proof/Machine/TransCmds.lean ====
section
/-! DEFINITION. The commands of the transport engine (11_beyfatre_transport.md R347, R349, R353 to R358, R360, R368). -/
namespace Sys2Proof.Machine

/-- The engine takes the work request of kind `k` at the head of queue pair `q`'s send queue. -/
def State.takeWr (s : State) (q k : Nat) (f : State → State) : State :=
  if !s.transportOff && s.mayTake q k then f s else s
/-- It takes a request that is not sent in Beyfatre packets. -/
def State.takeOwn (s : State) (q k : Nat) (f : State → Bytes → State) : State :=
  s.takeWr q k fun s => f (s.popSq q) (s.headSq q)

/-- WR_SEND (R347). -/
def execWrSend (q : Fin 16384) (s : State) : Host.Outcome State Fault Refusal := (s.takeWr q.val 1 fun s => s.takeNet q.val).ends
/-- WR_PUT (R347). -/
def execWrPut (q : Fin 16384) (s : State) : Host.Outcome State Fault Refusal := (s.takeWr q.val 2 fun s => s.takeNet q.val).ends
/-- WR_GET (R353). -/
def execWrGet (q : Fin 16384) (s : State) : Host.Outcome State Fault Refusal := (s.takeWr q.val 3 fun s => s.takeNet q.val).ends
/-- WR_FLUSH (R354). -/
def execWrFlush (q : Fin 16384) (s : State) : Host.Outcome State Fault Refusal := (s.takeWr q.val 4 fun s => s.takeNet q.val).ends
/-- WR_CHPOST (R355). -/
def execWrChpost (q : Fin 16384) (s : State) : Host.Outcome State Fault Refusal := (s.takeWr q.val 5 fun s => s.takeNet q.val).ends
/-- PREFETCH (R356). -/
def execPrefetch (q : Fin 16384) (s : State) : Host.Outcome State Fault Refusal :=
  (s.takeOwn q.val 6 fun s r => s.startPrefetch q.val r).ends
/-- REVOKE (R357). -/
def execRevoke (q : Fin 16384) (s : State) : Host.Outcome State Fault Refusal :=
  (s.takeOwn q.val 7 fun s r => s.startRevoke q.val r).ends
/-- WR_ARM (R358). -/
def execWrArm (q : Fin 16384) (s : State) : Host.Outcome State Fault Refusal :=
  (s.takeOwn q.val 0x10 fun s r => s.runLocal q.val r).ends
/-- CNT_ADD (R358). -/
def execCntAdd (q : Fin 16384) (s : State) : Host.Outcome State Fault Refusal :=
  (s.takeOwn q.val 0x11 fun s r => s.runLocal q.val r).ends
/-- CNT_SET (R358). -/
def execCntSet (q : Fin 16384) (s : State) : Host.Outcome State Fault Refusal :=
  (s.takeOwn q.val 0x12 fun s r => s.runLocal q.val r).ends
/-- FLAG_ADD (R358). -/
def execFlagAdd (q : Fin 16384) (s : State) : Host.Outcome State Fault Refusal :=
  (s.takeOwn q.val 0x13 fun s r => s.runLocal q.val r).ends
/-- RECEIVE_COMPLETE of the matched receive numbered `id` (R349). -/
def execReceiveComplete (id : Nat) (s : State) : Host.Outcome State Fault Refusal :=
  (if s.transportOff then s else s.recvComplete id).ends
/-- REGION_CLOSED (R360): a REG_REMOVE that waits for it is answered, and the registration is gone. -/
def execRegionClosed (i : Fin 65536) (s : State) : Host.Outcome State Fault Refusal :=
  if s.mantelOff || (s.region i.val).state != 2 then s.ends
  else
    let waits := s.boot.waits.any fun w => w.1 == 1 && w.2.1 == i.val
    let s1 := (s.regionClosed i.val).settleLeaving
    let s2 := s1.answerWait 1 i.val {}
    (if waits then s2.setRegion i.val { s2.region i.val with reg := false } else s2).ends
/-- BF_RTO (R368, R343). -/
def execBfRto (q : Fin 16384) (s : State) : Host.Outcome State Fault Refusal :=
  (if s.transportOff then s else s.counted (s.rtoExpire q.val)).ends
/-- RNR_DELAY (R368). -/
def execRnrDelay (q : Fin 16384) (s : State) : Host.Outcome State Fault Refusal :=
  (if s.transportOff then s else s.counted (s.rnrExpire q.val)).ends

end Sys2Proof.Machine
end

