-- ==== Sys2Proof/Machine/Dispatch.lean ====
section
/-! DEFINITION. The meaning of every command: one arm for each constructor of Instr. -/
namespace Sys2Proof.Machine

def exec (i : Instr) (s : State) : Host.Outcome State Fault Refusal :=
  match i with
  | .csrWrite acc a v => Sys2Proof.Machine.execCsrWrite acc a v s
  | .intClassClear acc v same => Sys2Proof.Machine.execIntClassClear acc v same s
  | .intSourceClear acc v same => Sys2Proof.Machine.execIntSourceClear acc v same s
  | .comTagWrite acc v => Sys2Proof.Machine.execComTagWrite acc v s
  | .otpWrite acc a v => Sys2Proof.Machine.execOtpWrite acc a v s
  | .logCursorWrite acc v => Sys2Proof.Machine.execLogCursorWrite acc v s
  | .step h t => Sys2Proof.Machine.execStep h t s
  | .swap h t => Sys2Proof.Machine.execSwap h t s
  | .aslv h t => Sys2Proof.Machine.execAslv h t s
  | .readout h t => Sys2Proof.Machine.execReadout h t s
  | .zero h t => Sys2Proof.Machine.execZero h t s
  | .apset h t => Sys2Proof.Machine.execApset h t s
  | .planeLoad h t => Sys2Proof.Machine.execPlaneLoad h t s
  | .asld h t => Sys2Proof.Machine.execAsld h t s
  | .slotLoad h t l => Sys2Proof.Machine.execSlotLoad h t l s
  | .slotPeek h t l => Sys2Proof.Machine.execSlotPeek h t l s
  | .slotStore h t => Sys2Proof.Machine.execSlotStore h t s
  | .add h t => Sys2Proof.Machine.execAdd h t s
  | .mul h t => Sys2Proof.Machine.execMul h t s
  | .fma h t => Sys2Proof.Machine.execFma h t s
  | .min h t => Sys2Proof.Machine.execMin h t s
  | .max h t => Sys2Proof.Machine.execMax h t s
  | .cmpEq h t => Sys2Proof.Machine.execCmpEq h t s
  | .cmpNe h t => Sys2Proof.Machine.execCmpNe h t s
  | .cmpLt h t => Sys2Proof.Machine.execCmpLt h t s
  | .cmpLe h t => Sys2Proof.Machine.execCmpLe h t s
  | .sel h t => Sys2Proof.Machine.execSel h t s
  | .exp2 h t => Sys2Proof.Machine.execExp2 h t s
  | .log2 h t => Sys2Proof.Machine.execLog2 h t s
  | .rsqrt h t => Sys2Proof.Machine.execRsqrt h t s
  | .rcp h t => Sys2Proof.Machine.execRcp h t s
  | .rsum h t => Sys2Proof.Machine.execRsum h t s
  | .rmax h t => Sys2Proof.Machine.execRmax h t s
  | .rmin h t => Sys2Proof.Machine.execRmin h t s
  | .cvtTo h t => Sys2Proof.Machine.execCvtTo h t s
  | .cvtFrom h t => Sys2Proof.Machine.execCvtFrom h t s
  | .mov h t => Sys2Proof.Machine.execMov h t s
  | .inToSram h t tap => Sys2Proof.Machine.execInToSram h t tap s
  | .inToPlane h t tap => Sys2Proof.Machine.execInToPlane h t tap s
  | .inToVreg h t tap => Sys2Proof.Machine.execInToVreg h t tap s
  | .outFromSram h t tap => Sys2Proof.Machine.execOutFromSram h t tap s
  | .outFromVreg h t tap => Sys2Proof.Machine.execOutFromVreg h t tap s
  | .cxt h t => Sys2Proof.Machine.execCxt h t s
  | .hrelSet h t => Sys2Proof.Machine.execHrelSet h t s
  | .gset h t => Sys2Proof.Machine.execGset h t s
  | .grst h t => Sys2Proof.Machine.execGrst h t s
  | .gapStart h t => Sys2Proof.Machine.execGapStart h t s
  | .group q t ecc => Sys2Proof.Machine.execGroup q t ecc s
  | .lout q t => Sys2Proof.Machine.execLout q t s
  | .win q t => Sys2Proof.Machine.execWin q t s
  | .send q t => Sys2Proof.Machine.execSend q t s
  | .move q t => Sys2Proof.Machine.execMove q t s
  | .qx q t => Sys2Proof.Machine.execQx q t s
  | .cset q t => Sys2Proof.Machine.execCset q t s
  | .loop q t => Sys2Proof.Machine.execLoop q t s
  | .djnz q t => Sys2Proof.Machine.execDjnz q t s
  | .jmp q t => Sys2Proof.Machine.execJmp q t s
  | .flag q t => Sys2Proof.Machine.execFlag q t s
  | .localRun q t => Sys2Proof.Machine.execLocal q t s
  | .localWindowEnd q t => Sys2Proof.Machine.execLocalWindowEnd q t s
  | .bend q t => Sys2Proof.Machine.execBend q t s
  | .wait q t => Sys2Proof.Machine.execWait q t s
  | .waitEnd q t => Sys2Proof.Machine.execWaitEnd q t s
  | .overrun q t => Sys2Proof.Machine.execOverrun q t s
  | .lcset h t => Sys2Proof.Machine.execLcset h t s
  | .lloop h t => Sys2Proof.Machine.execLloop h t s
  | .ldjnz h t => Sys2Proof.Machine.execLdjnz h t s
  | .ljmp h t => Sys2Proof.Machine.execLjmp h t s
  | .loopSlotExpire q t loop slot => Sys2Proof.Machine.execLoopSlotExpire q t loop slot s
  | .moverSlotFill q t st => Sys2Proof.Machine.execMoverSlotFill q t st s
  | .moverLoadArrival q t st loop => Sys2Proof.Machine.execMoverLoadArrival q t st loop s
  | .moverBufferAccess h t => Sys2Proof.Machine.execMoverBufferAccess h t s
  | .spineDelivery src dst => Sys2Proof.Machine.execSpineDelivery src dst s
  | .moverOpIssue q m k => Sys2Proof.Machine.execMoverOpIssue q m k s
  | .descriptorComplete q m => Sys2Proof.Machine.execDescriptorComplete q m s
  | .chainFetchDone q m => Sys2Proof.Machine.execChainFetchDone q m s
  | .moverTimeout q m op => Sys2Proof.Machine.execMoverTimeout q m op s
  | .seamStart mask v => Sys2Proof.Machine.execSeamStart mask v s
  | .quarterResume q bridge station => Sys2Proof.Machine.execQuarterResume q bridge station s
  | .stkBeatTick => Sys2Proof.Machine.execStkBeatTick s
  | .admission => Sys2Proof.Machine.execAdmission s
  | .entryResident e => Sys2Proof.Machine.execEntryResident e s
  | .entryRelease e => Sys2Proof.Machine.execEntryRelease e s
  | .epochOpen => Sys2Proof.Machine.execEpochOpen s
  | .stall l v => Sys2Proof.Machine.execStall l v s
  | .poll l v => Sys2Proof.Machine.execPoll l v s
  | .answer l v => Sys2Proof.Machine.execAnswer l v s
  | .deadlock l v => Sys2Proof.Machine.execDeadlock l v s
  | .flaginc l v => Sys2Proof.Machine.execFlaginc l v s
  | .msg l v => Sys2Proof.Machine.execMsg l v s
  | .messagePlaced c => Sys2Proof.Machine.execMessagePlaced c s
  | .messageAbandon c slot => Sys2Proof.Machine.execMessageAbandon c slot s
  | .contrib l v => Sys2Proof.Machine.execContrib l v s
  | .contributionWrite => Sys2Proof.Machine.execContributionWrite s
  | .roundSum k => Sys2Proof.Machine.execRoundSum k s
  | .roundComplete k => Sys2Proof.Machine.execRoundComplete k s
  | .hbmMoverAccess q p t ecc => Sys2Proof.Machine.execHbmMoverAccess q p t ecc s
  | .refreshTick q p k => Sys2Proof.Machine.execRefreshTick q p k s
  | .hbmTempRead q temp => Sys2Proof.Machine.execHbmTempRead q temp s
  | .stagingConfirm => Sys2Proof.Machine.execStagingConfirm s
  | .stagingRelease => Sys2Proof.Machine.execStagingRelease s
  | .trainStart l => Sys2Proof.Machine.execTrainStart l s
  | .trainComplete l r => Sys2Proof.Machine.execTrainComplete l r s
  | .trainTimeout l => Sys2Proof.Machine.execTrainTimeout l s
  | .controlFlit l b item => Sys2Proof.Machine.execControlFlit l b item s
  | .headerCrcFail l b item => Sys2Proof.Machine.execHeaderCrcFail l b item s
  | .packetTransmit l => Sys2Proof.Machine.execPacketTransmit l s
  | .replayTimeout l => Sys2Proof.Machine.execReplayTimeout l s
  | .silence l => Sys2Proof.Machine.execSilence l s
  | .creditTimeout l v => Sys2Proof.Machine.execCreditTimeout l v s
  | .brokenIdleEnd l => Sys2Proof.Machine.execBrokenIdleEnd l s
  | .laneFailure l m => Sys2Proof.Machine.execLaneFailure l m s
  | .drainTimeout l => Sys2Proof.Machine.execDrainTimeout l s
  | .write l v => Sys2Proof.Machine.execWrite l v s
  | .read l v => Sys2Proof.Machine.execRead l v s
  | .resp l v => Sys2Proof.Machine.execResp l v s
  | .dwrite l v => Sys2Proof.Machine.execDwrite l v s
  | .dfetch l v => Sys2Proof.Machine.execDfetch l v s
  | .dmsg l v => Sys2Proof.Machine.execDmsg l v s
  | .transit l v => Sys2Proof.Machine.execTransit l v s
  | .datagramTransitTimeout l => Sys2Proof.Machine.execDatagramTransitTimeout l s
  | .ping l v => Sys2Proof.Machine.execPing l v s
  | .pong l v => Sys2Proof.Machine.execPong l v s
  | .mgmtLinkDisable l v => Sys2Proof.Machine.execMgmtLinkDisable l v s
  | .mgmtLinkEnable l v => Sys2Proof.Machine.execMgmtLinkEnable l v s
  | .result l v => Sys2Proof.Machine.execResult l v s
  | .bfSend j frame fcsOk => Sys2Proof.Machine.execBfSend j frame fcsOk s
  | .bfPut j frame fcsOk => Sys2Proof.Machine.execBfPut j frame fcsOk s
  | .bfGet j frame fcsOk => Sys2Proof.Machine.execBfGet j frame fcsOk s
  | .getrsp j frame fcsOk => Sys2Proof.Machine.execGetrsp j frame fcsOk s
  | .bfFlush j frame fcsOk => Sys2Proof.Machine.execBfFlush j frame fcsOk s
  | .bfChpost j frame fcsOk => Sys2Proof.Machine.execBfChpost j frame fcsOk s
  | .ack j frame fcsOk => Sys2Proof.Machine.execAck j frame fcsOk s
  | .connect j frame fcsOk => Sys2Proof.Machine.execConnect j frame fcsOk s
  | .accept j frame fcsOk => Sys2Proof.Machine.execAccept j frame fcsOk s
  | .postWorkRequest => Sys2Proof.Machine.execPostWorkRequest s
  | .postReceive => Sys2Proof.Machine.execPostReceive s
  | .postTriggered => Sys2Proof.Machine.execPostTriggered s
  | .wrSend q => Sys2Proof.Machine.execWrSend q s
  | .wrPut q => Sys2Proof.Machine.execWrPut q s
  | .wrGet q => Sys2Proof.Machine.execWrGet q s
  | .wrFlush q => Sys2Proof.Machine.execWrFlush q s
  | .wrChpost q => Sys2Proof.Machine.execWrChpost q s
  | .prefetch q => Sys2Proof.Machine.execPrefetch q s
  | .revoke q => Sys2Proof.Machine.execRevoke q s
  | .wrArm q => Sys2Proof.Machine.execWrArm q s
  | .cntAdd q => Sys2Proof.Machine.execCntAdd q s
  | .cntSet q => Sys2Proof.Machine.execCntSet q s
  | .flagAdd q => Sys2Proof.Machine.execFlagAdd q s
  | .receiveComplete id => Sys2Proof.Machine.execReceiveComplete id s
  | .regionClosed j => Sys2Proof.Machine.execRegionClosed j s
  | .bfRto q => Sys2Proof.Machine.execBfRto q s
  | .rnrDelay q => Sys2Proof.Machine.execRnrDelay q s
  | .arpRequest j frame fcsOk => Sys2Proof.Machine.execArpRequest j frame fcsOk s
  | .neighbourSolicitation j frame fcsOk => Sys2Proof.Machine.execNeighbourSolicitation j frame fcsOk s
  | .echoRequest j frame fcsOk => Sys2Proof.Machine.execEchoRequest j frame fcsOk s
  | .pauseFrame j frame fcsOk => Sys2Proof.Machine.execPauseFrame j frame fcsOk s
  | .ethLinkChange j up => Sys2Proof.Machine.execEthLinkChange j up s
  | .witnessWindow alt ppm => Sys2Proof.Machine.execWitnessWindow alt ppm s
  | .changeover trims => Sys2Proof.Machine.execChangeover trims s
  | .referenceLost r => Sys2Proof.Machine.execReferenceLost r s
  | .referencePresent r => Sys2Proof.Machine.execReferencePresent r s
  | .avsAck slaveAck vdone mv => Sys2Proof.Machine.execAvsAck slaveAck vdone mv s
  | .avsAckTimeout => Sys2Proof.Machine.execAvsAckTimeout s
  | .irailRead amps => Sys2Proof.Machine.execIrailRead amps s
  | .damperStep k => Sys2Proof.Machine.execDamperStep k s
  | .smbalert dev w ack still => Sys2Proof.Machine.execSmbalert dev w ack still s
  | .smbalertRepeat dev w ack still => Sys2Proof.Machine.execSmbalertRepeat dev w ack still s
  | .thermtrip g t => Sys2Proof.Machine.execThermtrip g t s
  | .simmerExit v trims => Sys2Proof.Machine.execSimmerExit v trims s
  | .wakeN ns => Sys2Proof.Machine.execWakeN ns s
  | .sidebandAddressMatch => Sys2Proof.Machine.execSidebandAddressMatch s
  | .coldReset strap jtag v => Sys2Proof.Machine.execColdReset strap jtag v s
  | .warmReset v => Sys2Proof.Machine.execWarmReset v s
  | .powerLoss => Sys2Proof.Machine.execPowerLoss s
  | .flashRetry v => Sys2Proof.Machine.execFlashRetry v s
  | .ethWait => Sys2Proof.Machine.execEthWait s
  | .deploySessionRetry => Sys2Proof.Machine.execDeploySessionRetry s
  | .deployMessage ecc => Sys2Proof.Machine.execDeployMessage ecc s
  | .load => Sys2Proof.Machine.execLoad s
  | .arm => Sys2Proof.Machine.execArm s
  | .disable => Sys2Proof.Machine.execDisable s
  | .enable => Sys2Proof.Machine.execEnable s
  | .remove => Sys2Proof.Machine.execRemove s
  | .areaCreate => Sys2Proof.Machine.execAreaCreate s
  | .areaRelease => Sys2Proof.Machine.execAreaRelease s
  | .data => Sys2Proof.Machine.execData s
  | .dataExpect => Sys2Proof.Machine.execDataExpect s
  | .staging => Sys2Proof.Machine.execStaging s
  | .chOpen => Sys2Proof.Machine.execChOpen s
  | .chClose => Sys2Proof.Machine.execChClose s
  | .chDisable => Sys2Proof.Machine.execChDisable s
  | .chEnable => Sys2Proof.Machine.execChEnable s
  | .qpCreate => Sys2Proof.Machine.execQpCreate s
  | .qpReset => Sys2Proof.Machine.execQpReset s
  | .qpDestroy => Sys2Proof.Machine.execQpDestroy s
  | .regCreate => Sys2Proof.Machine.execRegCreate s
  | .regRemove => Sys2Proof.Machine.execRegRemove s
  | .linkDisable => Sys2Proof.Machine.execLinkDisable s
  | .linkEnable => Sys2Proof.Machine.execLinkEnable s
  | .mgmtRequest => Sys2Proof.Machine.execMgmtRequest s
  | .start => Sys2Proof.Machine.execStart s
  | .restart => Sys2Proof.Machine.execRestart s
  | .restartReset elapsed v => Sys2Proof.Machine.execRestartReset elapsed v s
  | .flashWrite ok => Sys2Proof.Machine.execFlashWrite ok s
  | .ledger res => Sys2Proof.Machine.execLedger res s
  | .watchdog => Sys2Proof.Machine.execWatchdog s
  | .mailboxRead a ended => Sys2Proof.Machine.execMailboxRead a ended s
  | .getStatus a during => Sys2Proof.Machine.execGetStatus a during s
  | .getIdentity a during => Sys2Proof.Machine.execGetIdentity a during s
  | .getTelemetry a during => Sys2Proof.Machine.execGetTelemetry a during s
  | .logRead a seq count during => Sys2Proof.Machine.execLogRead a seq count during s
  | .csrRead a addr count during => Sys2Proof.Machine.execCsrRead a addr count during s
  | .ledgerRead a setting slot during => Sys2Proof.Machine.execLedgerRead a setting slot during s
  | .sleep a st confirm during => Sys2Proof.Machine.execSleep a st confirm during s
  | .alertAck a clear mask same during => Sys2Proof.Machine.execAlertAck a clear mask same during s
  | .enec a ev => Sys2Proof.Machine.execEnec a ev s
  | .disec a ev => Sys2Proof.Machine.execDisec a ev s
  | .rstdaa => Sys2Proof.Machine.execRstdaa s
  | .entdaa won => Sys2Proof.Machine.execEntdaa won s
  | .setdasa a v => Sys2Proof.Machine.execSetdasa a v s
  | .setnewda a v => Sys2Proof.Machine.execSetnewda a v s
  | .getpid a => Sys2Proof.Machine.execGetpid a s
  | .getbcr a => Sys2Proof.Machine.execGetbcr a s
  | .getdcr a => Sys2Proof.Machine.execGetdcr a s
  | .getmwl a => Sys2Proof.Machine.execGetmwl a s
  | .getmrl a => Sys2Proof.Machine.execGetmrl a s
  | .getstatus a => Sys2Proof.Machine.execGetstatus a s
  | .extest pins shift => Sys2Proof.Machine.execExtest pins shift s
  | .idcode => Sys2Proof.Machine.execIdcode s
  | .samplePreload pins shift => Sys2Proof.Machine.execSamplePreload pins shift s
  | .clamp => Sys2Proof.Machine.execClamp s
  | .highz => Sys2Proof.Machine.execHighz s
  | .extestPulse pins shift => Sys2Proof.Machine.execExtestPulse pins shift s
  | .extestTrain pins shift => Sys2Proof.Machine.execExtestTrain pins shift s
  | .debug op => Sys2Proof.Machine.execDebug op s
  | .bypass => Sys2Proof.Machine.execBypass s
  | .tapReset => Sys2Proof.Machine.execTapReset s
  | .linkPacketReceive l b item => Sys2Proof.Machine.execLinkPacketReceive l b item s
  | .receivedFrame j frame fcsOk => Sys2Proof.Machine.execReceivedFrame j frame fcsOk s
  | .commandFrame a f during => Sys2Proof.Machine.execCommandFrame a f during s
  | .coldResetNAssert ns => Sys2Proof.Machine.execColdResetNAssert ns s
  | .warmResetNAssert ns => Sys2Proof.Machine.execWarmResetNAssert ns s
  | .serviceCoreError => Sys2Proof.Machine.execServiceCoreError s
  | .powerGoodTimeout => Sys2Proof.Machine.execPowerGoodTimeout s
  | .powerGoodReport rail a v => Sys2Proof.Machine.execPowerGoodReport rail a v s

end Sys2Proof.Machine
end

