-- ==== Sys2Proof/Safety.lean ====
section
/-! DEFINITION. What the statements say of states: the conditions under which nothing but the command's own effect happens, where a
range or a hob stands when it issues, and the invariants that every step keeps. -/
namespace Sys2Proof.Machine

/-- Nothing waits for the end of a command: no answer has come home, no counter has changed, no epoch is open, no deploy message is in
work, no entry waits for the mirror, no packet waits for the part itself, the part is not on its way down, and no exit from SIMMER can be
decided. -/
def State.settled (s : State) : Bool :=
  s.trn.home.isEmpty && s.trn.chg.isEmpty && s.stk.openEpoch.isNone && s.boot.work.isEmpty && s.svc.toMirror.isEmpty && !s.goingDown
    && s.loopback.isEmpty && (!s.pwr.simmer || s.pwr.exiting.isSome)

/-- The sparse maps of the whole part are in canonical form: keys rise strictly and no listed value is what an unlisted key reads as.
Memory is one of them. -/
def State.canon (s : State) : Bool :=
  Memory.wf s.mem && SMapWf ({} : Hob) s.hobs && SMapWf ({} : Range) s.ranges && SMapWf ({} : Gate) s.gates

/-- Range `q` runs a beat and stands in cycle `t`: the cycle's bundle has issued, and the hobs hold their portions of it. -/
def State.inCycle (s : State) (q t : Nat) : Prop :=
  s.stk.started = true ∧ (s.range q).halted = false ∧ (s.range q).phase = .run ∧ (s.range q).cyc = t ∧ t < s.seamCyc
    ∧ (s.range q).pre = [] ∧ (s.range q).hobsOn = true

/-- Hob `h` issues the portion `iss` in cycle `t`, and operation `k` of it (numbers of HIssue.todo) is still to execute. -/
def State.issues (s : State) (h t k : Nat) (iss : HIssue) : Prop :=
  s.settled = true ∧ s.inCycle (h / 8) t ∧ (s.hob h).cur = some iss ∧ iss.todo.contains k = true
/-- Hob `h` with operation `k` of the portion `iss` executed, and nothing else changed. -/
def State.ticked (s : State) (h k : Nat) (iss : HIssue) : Hob := { s.hob h with cur := some { iss with todo := iss.todo.erase k } }

/-- Range `q` stands in cycle `t`, and part `k` of the bundle of the cycle (numbers of Range.todo) is still to execute. -/
def State.issuesR (s : State) (q t k : Nat) : Prop :=
  s.settled = true ∧ s.canon = true ∧ s.inCycle q t ∧ (s.range q).todo.contains k = true
/-- The address of the bundle that a range issues in the current cycle. -/
def Range.at0 (r : Range) : Nat := r.iss.getD 0
/-- Range `q` with the counters, frames and next issue of a decision of R136 in cycle `t`, the decision's fault logged, and a fall off the
program's end as R139 says: no further bundle issues, and RUNOFF is logged. -/
def State.decided (s : State) (q t : Nat) (r : Range) (res : CtlRes) (delay : Nat) : State :=
  let r1 := { r with sc := res.ctr, stack := res.stack }
  let on := inExtent r.base r.len res.next
  let s1 := s.setRange q (if on then { r1 with nxt := some (t + delay, res.next.toNat), waiting := decide (1 < delay) }
                          else { r1 with nxt := none, bendAt := some t })
  let s2 := match res.flt with | some f => s1.seqFault q 10 f r.at0 t | none => s1
  if on then s2 else s2.seqFault q 10 0x19 r.at0 t

/-- The V operations of Table 4.8 by their commands: hob, cycle and V_OP. -/
def vectorCmd : Instr → Option (Fin 32 × Nat × Nat)
  | .add h t => some (h, t, 1) | .mul h t => some (h, t, 2) | .fma h t => some (h, t, 3) | .min h t => some (h, t, 4)
  | .max h t => some (h, t, 5) | .cmpEq h t => some (h, t, 6) | .cmpNe h t => some (h, t, 7) | .cmpLt h t => some (h, t, 8)
  | .cmpLe h t => some (h, t, 9) | .sel h t => some (h, t, 10) | .exp2 h t => some (h, t, 11) | .log2 h t => some (h, t, 12)
  | .rsqrt h t => some (h, t, 13) | .rcp h t => some (h, t, 14) | .rsum h t => some (h, t, 15) | .rmax h t => some (h, t, 16)
  | .rmin h t => some (h, t, 17) | .cvtTo h t => some (h, t, 18) | .cvtFrom h t => some (h, t, 19) | .mov h t => some (h, t, 20)
  | _ => none

/-- The head of the receive buffer of VC `v` of link `l` is packet `p` with operation `op` for this part, with `rest` behind it, no loads
of it have begun to move, and the link's quarter runs (R277, R296). -/
def State.rxHead (s : State) (l v op : Nat) (p : Packet) (rest : List Packet) : Prop :=
  get [] v (s.gate l).rx = p :: rest ∧ get [] v (s.gate l).moving = [] ∧ p.op = op ∧ p.dst = s.rt.chip ∧ (s.range (l / 5)).halted = false
/-- The head packet has left the receive buffer of VC `v` of link `l`; `rest` is what stood behind it. -/
def State.taken (s : State) (l v : Nat) (rest : List Packet) : State := s.setGate l { s.gate l with rx := put [] v rest (s.gate l).rx }
/-- Only a report epoch is open; nothing else waits for the end of a command. -/
def State.settledBut (s : State) : Bool := ({ s with stk := { s.stk with openEpoch := none } } : State).settled

/-- The one message in work is `m`; its request to be judged next is one of RTYPE `ty` with body `b`, and another of a known RTYPE is behind
it; the service core serves requests, no LOAD is under way, and nothing else waits. -/
def State.nextIs (s : State) (m : DMsg) (ty : Nat) (b : Bytes) : Prop :=
  ({ s with boot := { s.boot with work := [] } } : State).settled = true ∧ s.svc.fatalSvc = false ∧ s.boot.work = [m] ∧ m.restart = false
    ∧ (s.boot.waits.any fun w => w.1 == 0) = false ∧ ∃ r rest, m.reqs = (ty, b) :: r :: rest ∧ knownReq r.1 = true
/-- The RTYPE that a command of Table 14.9 performs. -/
def reqOf : Instr → Option Nat
  | .load => some 0x01 | .arm => some 0x02 | .disable => some 0x03 | .enable => some 0x04 | .remove => some 0x05
  | .areaCreate => some 0x10 | .areaRelease => some 0x11 | .data => some 0x12 | .dataExpect => some 0x13 | .staging => some 0x14
  | .chOpen => some 0x20 | .chClose => some 0x21 | .chDisable => some 0x22 | .chEnable => some 0x23
  | .qpCreate => some 0x30 | .qpReset => some 0x31 | .qpDestroy => some 0x32 | .regCreate => some 0x33 | .regRemove => some 0x34
  | .linkDisable => some 0x40 | .linkEnable => some 0x41 | .mgmtRequest => some 0x42 | .start => some 0x50 | .restart => some 0x51
  | .flashWrite _ => some 0x60 | .ledger (some _) => some 0x70
  | _ => none
/-- The part reads a transfer of the sideband at address `a`, and no command executes there (R463, R467). -/
def State.hears (s : State) (a : BitVec 7) : Bool := s.settled && s.addressed a && !s.svc.executing

/-- A write access that may be performed at a CSR address (R486, R489, R490, R497). -/
def State.mayWriteCsr (s : State) (acc : CsrAccess) (a : Nat) : Bool :=
  match acc.path with
  | .jtag => s.debugging && s.comServed && csrDecoded s a && !inStoreWindow a
  | _ => s.judgeAccess acc.tenant (a / 64 * 64) 1 true == 0 && s.kindAt a == 3 && a % 4 == 0

/-- One lane of a V operation of Table 2.4 that works lane by lane, from the lanes of A, B and C (R54, R118). -/
def vLane (b : Nat) (a x c : Word) : Word :=
  let na := negIf (vNA b) a
  let nb := negIf (vNB b) x
  match vOp b with
  | 1 => fpAdd na nb
  | 2 => fpMul na nb
  | 3 => fpFma na nb (negIf (vNC b) c)
  | 4 => fpMin na nb
  | 5 => fpMax na nb
  | 6 => if isNan32 na || isNan32 nb then 0 else if cmpKey na = cmpKey nb then 0xFFFFFFFF else 0
  | 7 => if isNan32 na || isNan32 nb then 0xFFFFFFFF else if cmpKey na = cmpKey nb then 0 else 0xFFFFFFFF
  | 8 => if isNan32 na || isNan32 nb then 0 else if cmpKey na < cmpKey nb then 0xFFFFFFFF else 0
  | 9 => if isNan32 na || isNan32 nb then 0 else if cmpKey na ≤ cmpKey nb then 0xFFFFFFFF else 0
  | 10 => if c.getLsbD 31 then na else nb
  | 11 => fpExp2 na
  | 12 => fpLog2 na
  | 13 => fpRsqrt na
  | 14 => fpRcp na
  | _ => na
/-- Lane `i` after `n` levels of a reduction of R56: level s combines lane i with lane i + 64 / 2^s. -/
def treeLane (f : Word → Word → Word) (a : Nat → Word) : Nat → Nat → Word
  | 0, i => a i
  | n + 1, i => f (treeLane f a n i) (treeLane f a n (i + 64 / 2 ^ (n + 1)))

end Sys2Proof.Machine
end

