-- ==== Sys2Proof/Certificates/Slice0/Obligations.lean ====
section
/-! DEFINITION. The statements for the provers. Each names the rules of the spec that it formalises. -/
open Sys2Proof Sys2Proof.Machine

/-- The model's form of a step: the command at the front of the queue is performed with the rest of the queue; on an empty queue the part idles
(assumption log 1). -/
def Obligations.StepRunsFront : Prop :=
  (∀ (c : Instr) (rest : List Instr) (s : State), step { s with pending := c :: rest } = exec c { s with pending := rest }) ∧
  ∀ s : State, s.pending = [] → step s = .next s

/-- Every command of the block completes: a step never faults and is never refused. -/
def Obligations.StepNeverStops : Prop := ∀ s : State, ∃ t, step s = .next t

/-- A step takes one command from the front of the queue and no command puts one on it. -/
def Obligations.QueueOrder : Prop := ∀ s t : State, step s = .next t → t.pending = s.pending.tail

/-- Memory and the sparse maps of hobs, ranges and gates keep their canonical form in every step. -/
def Obligations.CanonKept : Prop := ∀ s t : State, s.canon = true → step s = .next t → t.canon = true

/-- Right after reset: the invariant holds, nothing waits, no memory is listed, no hob, range or gate differs from its reset value, and these reset values
are those of the spec's tables. -/
def Obligations.ResetState : Prop :=
  State.reset.canon = true ∧ State.reset.settled = true ∧ State.reset.mem = [] ∧ State.reset.pending = [] ∧
  (∀ h, (State.reset.hob h).emberGap = 0x200 ∧ (State.reset.hob h).aepWrap = 512 ∧ (State.reset.hob h).cur = none) ∧
  (∀ q, (State.reset.range q).phase = .idle ∧ (State.reset.range q).valid = false ∧ (State.reset.range q).movUp = 0xFFFF) ∧
  (∀ q m, (State.reset.mover q m).timeout = 0x3E8) ∧
  (∀ l, (State.reset.gate l).state = .down ∧ (State.reset.gate l).credit = 0x64 ∧ (State.reset.gate l).drain = 0x64) ∧
  (∀ k, (State.reset.routeEntry k 0) = 0x1F) ∧
  State.reset.stk.simmerAfter = 0x40 ∧ State.reset.stk.stallBeats = 0x100 ∧ State.reset.stk.beatK = 4 ∧
  State.reset.svc.mask = 0x07 ∧ State.reset.com.result = 3 ∧ State.reset.tap.ir = 0x01 ∧ State.reset.rt.hopLimit = 0x20 ∧
  State.reset.pwr.dramp = 0x00D ∧ State.reset.pwr.tdn = 0x5F ∧ State.reset.pwr.tup = 0x55 ∧ State.reset.boot.verdictA = 7

/-- The twenty commands of slot V: the operands of the operation are read at offset 2 (Table 4.2), and nothing else changes. -/
def Obligations.VectorIssue : Prop :=
  ∀ (c : Instr) (h : Fin 32) (t code : Nat) (s : State) (iss : HIssue),
    vectorCmd c = some (h, t, code) → s.issues h t 1 iss → vOp (slotV iss.bits) = code →
    exec c s = .next (s.setHob h { s.ticked h 1 iss with pend := insertPend ⟨t + 2, t, 1, .vop (slotV iss.bits)⟩ (s.hob h).pend })

/-- What a V operation of Table 2.4 writes: its one register write comes at the offset of Table 4.9, and in every lane it holds the operation's value of
the operands' lanes, negated where R118 says. R45: a NaN result of the vector unit's arithmetic is the canonical FP32 NaN; SEL and MOV pass patterns
through. -/
def Obligations.VectorLanes : Prop :=
  (∀ (s : State) (h c c' : Nat) (e : HPend) (b : Nat), s.canon = true → SMapWf ({} : VReg) (s.hob h).vregs = true → e.fx = .vop b →
    (1 ≤ vOp b ∧ vOp b ≤ 14 ∨ vOp b = 20) →
    ∃ w, readFx s h c e = [(e.issue + vOffset (vOp b), .vwrite w)] ∧
      ∀ i : Fin 64, (((writeFx s h c' { e with fx := .vwrite w }).hob h).vreg (vD b)).d[i] =
        vLane b (((s.hob h).vreg (vA b)).d[i]) (((s.hob h).vreg (vB b)).d[i]) (((s.hob h).vreg (vC b)).d[i])) ∧
  ((∀ (f : Word → Word → Word) (a b : Word), f ∈ [fpAdd, fpMul, fpMin, fpMax] → isNan32 (f a b) = true → f a b = 0x7FC00000#32) ∧
  (∀ a b c : Word, isNan32 (fpFma a b c) = true → fpFma a b c = 0x7FC00000#32) ∧
  (∀ (f : Word → Word) (a : Word), f ∈ [fpExp2, fpLog2, fpRsqrt, fpRcp] → isNan32 (f a) = true → f a = 0x7FC00000#32) ∧
  ∀ m a b : Word, fpSel m a b = if m.toNat / 2 ^ 31 = 1 then a else b)

/-- R56: the reductions combine lane i with lane i + w at six levels, w = 32, 16, 8, 4, 2, 1, and write lane 0 to all lanes. -/
def Obligations.ReductionTree : Prop :=
  ∀ (b : Nat) (ra rb rc : Lanes) (i : Fin 64),
    (vOp b = 15 → (vResult b ra rb rc)[i] = treeLane fpAdd (fun k => negIf (vNA b) (lane ra k)) 6 0) ∧
    (vOp b = 16 → (vResult b ra rb rc)[i] = treeLane fpMax (fun k => negIf (vNA b) (lane ra k)) 6 0) ∧
    (vOp b = 17 → (vResult b ra rb rc)[i] = treeLane fpMin (fun k => negIf (vNA b) (lane ra k)) 6 0)

/-- The array operations of slot M and its two subfields: each puts its effect at its offset of Table 4.2, moves the entry pointer where AEP selects the
entry, and changes nothing else. -/
def Obligations.ArrayIssue : Prop :=
  ∀ (h : Fin 32) (t : Nat) (s : State) (iss : HIssue),
    (s.issues h t 0 iss →
      (mAop (slotM iss.bits) = 1 → exec (.step h t) s = .next (s.setHob h { s.ticked h 0 iss with
          pend := insertPend (if mAsrc (slotM iss.bits) then
              ⟨t + 2, t, 0, .vread (mAvreg (slotM iss.bits)) ((if mSfmt (slotM iss.bits) = 3 then 128 else 64) * mApos (slotM iss.bits))
                (if mSfmt (slotM iss.bits) = 3 then 128 else 64) (.act (mStepOp (s.hob h) (slotM iss.bits)))⟩
            else ⟨t + 3, t, 0, .sread (feedLines iss (s.hob h) 0 2 (slotL0 iss.bits)) (.act (mStepOp (s.hob h) (slotM iss.bits)))⟩) (s.hob h).pend,
          aep := ((s.hob h).entryOf (slotM iss.bits)).2, gap := .none,
          busyTo := some (if mSfmt (slotM iss.bits) = 3 then t + 3 else t), busyBf := mSfmt (slotM iss.bits) == 3 })) ∧
      (mAop (slotM iss.bits) = 2 → exec (.swap h t) s = .next (s.setHob h { s.ticked h 0 iss with
          pend := insertPend ⟨t + 4, t, 0, .swap⟩ (s.hob h).pend })) ∧
      (mAop (slotM iss.bits) = 3 → exec (.aslv h t) s = .next (s.setHob h { s.ticked h 0 iss with
          pend := insertPend ⟨t + 2, t, 0, .vread (mAvreg (slotM iss.bits)) (64 * mApos (slotM iss.bits)) 64 .asl⟩ (s.hob h).pend })) ∧
      (mAop (slotM iss.bits) = 4 → exec (.readout h t) s = .next (s.setHob h { s.ticked h 0 iss with
          pend := insertPend ⟨t + 12, t, 0, .accRead ((s.hob h).entryOf (slotM iss.bits)).1 (mAvreg (slotM iss.bits))⟩ (s.hob h).pend,
          aep := ((s.hob h).entryOf (slotM iss.bits)).2 })) ∧
      (mAop (slotM iss.bits) = 5 → exec (.zero h t) s = .next (s.setHob h { s.ticked h 0 iss with
          pend := insertPend ⟨t + 12, t, 0, .accZero ((s.hob h).entryOf (slotM iss.bits)).1⟩ (s.hob h).pend,
          aep := ((s.hob h).entryOf (slotM iss.bits)).2 })) ∧
      (mAop (slotM iss.bits) = 6 → exec (.apset h t) s = .next (s.setHob h { s.ticked h 0 iss with
          aep := mStart (slotM iss.bits), aepWrap := mWrap (slotM iss.bits) }))) ∧
    (s.issues h t 8 iss → mPl (slotM iss.bits) = true → exec (.planeLoad h t) s = .next (s.setHob h { s.ticked h 8 iss with
        pend := insertPend ⟨t + 3, t, 0, .sread (accLines (accW (s.hob h) iss.bits) 4) (.plane (mWord (slotM iss.bits)) (mPfmt (slotM iss.bits)))⟩
          (s.hob h).pend })) ∧
    (s.issues h t 9 iss → mAsld (slotM iss.bits) = true → exec (.asld h t) s = .next (s.setHob h { s.ticked h 9 iss with
        pend := insertPend ⟨t + 3, t, 0, .sread (feedLines iss (s.hob h) 1 3 (slotL1 iss.bits)) .asl⟩ (s.hob h).pend }))

/-- R48: a swap occupies the array operation of the one cycle in which it issues; where it falls due, the active and shadow planes change places with
their format tags and words, and nothing else changes; a write of one plane word leaves every other word of the shadow plane as it is. -/
def Obligations.PlaneSwap : Prop :=
  (∀ (h : Fin 32) (t : Nat) (s : State) (iss : HIssue), s.issues h t 0 iss → mAop (slotM iss.bits) = 2 →
    exec (.swap h t) s = .next (s.setHob h { s.ticked h 0 iss with pend := insertPend ⟨t + 4, t, 0, .swap⟩ (s.hob h).pend })) ∧
  (∀ (s : State) (h c : Nat) (e : HPend), e.fx = .swap →
    writeFx s h c e = s.setHob h { s.hob h with active := (s.hob h).shadow, shadow := (s.hob h).active }) ∧
  ∀ (s : State) (h c w f : Nat) (d : Lanes) (p : Bool) (e : HPend), e.fx = .planePut w f d p → s.canon = true → SMapWf zeroLanes (s.hob h).shadow.words = true →
    ((writeFx s h c e).hob h).active = (s.hob h).active ∧ ((writeFx s h c e).hob h).shadow.word w = d ∧ ((writeFx s h c e).hob h).shadow.tag = f ∧
    ∀ k, k ≠ w → ((writeFx s h c e).hob h).shadow.word k = (s.hob h).shadow.word k

/-- R51, R52: a step's commit. Every column of the entry becomes the one rounding of P_n, or of the old value plus P_n; the canonical NaN where the column
has one; and no other entry of the accumulator changes. -/
def Obligations.StepCommit : Prop :=
  ∀ (s : State) (h c : Nat) (e : HPend) (op : StepOp) (data : Bytes) (mark : Bool), s.canon = true → SMapWf zeroLanes (s.hob h).acc = true →
    e.fx = .commit op ((List.range 64).map fun n => colSum (s.hob h).active op data (s.hob h).asl n) mark →
    (∀ n : Fin 64, (get zeroLanes op.entry ((writeFx s h c e).hob h).acc)[n] =
      (if op.ovw then enc32 (colSum (s.hob h).active op data (s.hob h).asl n).val
       else enc32 ((dec32 (get zeroLanes op.entry (s.hob h).acc)[n]).add (colSum (s.hob h).active op data (s.hob h).asl n).val))) ∧
    (∀ k, k ≠ op.entry → get zeroLanes k ((writeFx s h c e).hob h).acc = get zeroLanes k (s.hob h).acc) ∧
    ∀ n : Fin 64, (colSum (s.hob h).active op data (s.hob h).asl n).val = .nan → (get zeroLanes op.entry ((writeFx s h c e).hob h).acc)[n] = 0x7FC00000#32

/-- Slots L0, L1 and S: a LOAD reads its lines at offset 3 for its register, a PEEK only feeds the data path, a STORE reads its register at offset 2 for
its lines; a padding access reads zero bytes and stores nothing. The two taps of slot T: each operation puts its effect at its offset of Table 4.2 and
changes nothing else. -/
def Obligations.SlotIssue : Prop :=
  (∀ (h : Fin 32) (t : Nat) (l : Fin 2) (s : State) (iss : HIssue),
    (s.issues h t (2 + l.val) iss →
      (lsOp (if l.val = 0 then slotL0 iss.bits else slotL1 iss.bits) = 1 → exec (.slotLoad h t l) s = .next (s.setHob h { s.ticked h (2 + l.val) iss with
        pend := insertPend ⟨t + 3, t, 2 + l.val, .sread (accLines (accL (s.hob h) l.val (if l.val = 0 then slotL0 iss.bits else slotL1 iss.bits))
            (lsLines (if l.val = 0 then slotL0 iss.bits else slotL1 iss.bits)))
          (.vreg (lsVreg (if l.val = 0 then slotL0 iss.bits else slotL1 iss.bits)) (lsPos (if l.val = 0 then slotL0 iss.bits else slotL1 iss.bits)))⟩
          (s.hob h).pend })) ∧
      (lsOp (if l.val = 0 then slotL0 iss.bits else slotL1 iss.bits) = 2 → exec (.slotPeek h t l) s = .next (s.setHob h (s.ticked h (2 + l.val) iss)))) ∧
    (s.issues h t 4 iss → lsOp (slotS iss.bits) ≠ 0 → exec (.slotStore h t) s = .next (s.setHob h { s.ticked h 4 iss with
      pend := insertPend ⟨t + 2, t, 4, .vstore (lsVreg (slotS iss.bits)) (lsPos (slotS iss.bits)) (accWrites (accL (s.hob h) 2 (slotS iss.bits)))⟩
        (s.hob h).pend }))) ∧
  (∀ (h : Fin 32) (t : Nat) (k : Fin 2) (s : State) (iss : HIssue), s.issues h t (if k.val = 0 then 5 else 10) iss →
    (tTop (slotT iss.bits) k = 1 → exec (.inToSram h t k) s = .next (s.setHob h { s.ticked h (if k.val = 0 then 5 else 10) iss with
      pend := insertPend ⟨t + 3, t, 5, .tapS (tLoop (slotT iss.bits) k) ((accWrites (accTap (s.hob h) (slotT iss.bits) k)).map some)⟩ (s.hob h).pend })) ∧
    (tTop (slotT iss.bits) k = 2 → exec (.inToPlane h t k) s = .next (s.setHob h { s.ticked h (if k.val = 0 then 5 else 10) iss with
      pend := insertPend ⟨t + 3, t, 5, .tapP (tLoop (slotT iss.bits) k) (tIdx (slotT iss.bits) k) (tFmt (slotT iss.bits))⟩ (s.hob h).pend })) ∧
    (tTop (slotT iss.bits) k = 3 → exec (.inToVreg h t k) s = .next (s.setHob h { s.ticked h (if k.val = 0 then 5 else 10) iss with
      pend := insertPend ⟨t + 3, t, 5, .tapV (tLoop (slotT iss.bits) k) (tIdx (slotT iss.bits) k)⟩ (s.hob h).pend })) ∧
    (tTop (slotT iss.bits) k = 4 → exec (.outFromSram h t k) s = .next (s.setHob h { s.ticked h (if k.val = 0 then 5 else 10) iss with
      pend := insertPend ⟨t + 3, t, 5, .stap (tLoop (slotT iss.bits) k) (accLines (accTap (s.hob h) (slotT iss.bits) k) 4)⟩ (s.hob h).pend })) ∧
    (tTop (slotT iss.bits) k = 5 → exec (.outFromVreg h t k) s = .next (s.setHob h { s.ticked h (if k.val = 0 then 5 else 10) iss with
      pend := insertPend ⟨t + 2, t, 5, .vtap (tLoop (slotT iss.bits) k) (tIdx (slotT iss.bits) k)⟩ (s.hob h).pend })))

/-- Slot C (R85, R113, R121, R122): each operation takes effect at offset 1 (R111), and nothing else changes in its cycle. There, after the advances of the
bundle, CXT writes CX, HREL_SET forms HREL of its operand, the hob's index and CX, GSET writes one generator register with CX, GRST clears the indices; CX
is consumed where R121 says; nothing else changes. -/
def Obligations.SlotC : Prop :=
  (∀ (h : Fin 32) (t : Nat) (s : State) (iss : HIssue) (c : Instr) (op : Nat), s.issues h t 6 iss →
    (c, op) ∈ [(Instr.cxt h t, 1), (.hrelSet h t, 2), (.gset h t, 3), (.grst h t, 4)] → cOp (slotC iss.bits) = op →
    exec c s = .next (s.setHob h { s.ticked h 6 iss with pend := insertPend ⟨t + 1, t, 6, .cop (slotC iss.bits)⟩ (s.hob h).pend })) ∧
  ∀ (s : State) (h c b : Nat) (e : HPend) (g : Gen), e.fx = .cop b → g = (s.hob h).gen (cGen b) →
    (cOp b = 1 → writeFx s h c e = s.setHob h { s.hob h with cx := field b 6 22 }) ∧
    (cOp b = 2 → writeFx s h c e = s.setHob h { s.hob h with hrel := cA b + h % 8 * ((s.hob h).cx % 2 ^ 17), cx := 0 }) ∧
    (cOp b = 3 → writeFx s h c e = s.setHob h { (s.hob h).setGen (cGen b)
      { g with reg := put 0 (cReg b) (BitVec.ofNat 32 ((s.hob h).cx % 2 ^ 17 * 2 ^ 15 + cVlo b)) g.reg } with cx := 0 }) ∧
    (cOp b = 4 → writeFx s h c e = s.setHob h ((s.hob h).setGen (cGen b) { g with idx := [] }))

/-- R144: a legal local sequencing field. LCSET sets its counter and goes on; LLOOP, LDJNZ and LJMP decide as R136 in the hob's local store with four
frames; a fault of the decision is logged with slot number 11; nothing else changes. -/
def Obligations.LocalSequencing : Prop :=
  ∀ (h : Fin 32) (t : Nat) (s : State) (iss : HIssue), s.issues h t 7 iss → iss.isLocal = true → lqLegal iss.lseq = true →
    ∀ (c : Instr) (op : CtlOp) (lc : SMap Nat) (res : CtlRes),
      (c = .lcset h t ∧ lqOp iss.lseq = 1 ∧ op = .none ∧ lc = put 0 (lqCtr iss.lseq) (lqImm iss.lseq) (s.hob h).lc) ∨
      (c = .lloop h t ∧ lqOp iss.lseq = 2 ∧ op = .loop (lqCtr iss.lseq) (lqImm iss.lseq) ∧ lc = (s.hob h).lc) ∨
      (c = .ldjnz h t ∧ lqOp iss.lseq = 3 ∧ op = .djnz (lqCtr iss.lseq) (signed 16 (lqImm iss.lseq)) ∧ lc = (s.hob h).lc) ∨
      (c = .ljmp h t ∧ lqOp iss.lseq = 4 ∧ op = .jmp (signed 16 (lqImm iss.lseq)) ∧ lc = (s.hob h).lc) →
      res = ctlDecide 0 (s.hob h).llen 4 iss.addr op lc (s.hob h).lstack →
      exec c s = .next (match res.flt with
        | none => s.setHob h { s.ticked h 7 iss with lc := res.ctr, lstack := res.stack, lpc := res.next.toNat }
        | some f => (s.setHob h { s.ticked h 7 iss with lc := res.ctr, lstack := res.stack, lpc := res.next.toNat }).fault (h / 8) (h % 8) 11 f iss.addr t true)

/-- Slot Q but for LOCAL and BEND (R129 to R131, R136): QX sets the prefix; CSET sets a counter from it; LOOP, DJNZ and JMP decide as R136; FLAG is a
pending effect 16 cycles on; WAIT delays the next issue; each decides the next bundle, with the faults of the decision and RUNOFF logged; nothing else
changes. R136 on one decision: a branch that leaves the program, a LOOP with eight frames open or one that ends behind the innermost frame is not
taken, logs its fault, and leaves counters and frames to the end tests alone. -/
def Obligations.Sequencing : Prop :=
  (∀ (q : Fin 4) (t : Nat) (s : State) (r : Range) (w : Nat), s.issuesR q t 10 → r = s.range q → w = slotQ r.bits →
    (qOp w = 1 → exec (.qx q t) s = .next (s.decided q t { r.tick 10 with qx := qImm w } (ctlDecide r.base r.len 8 r.at0 .none r.sc r.stack) 1)) ∧
    (qOp w = 2 → exec (.cset q t) s = .next (s.decided q t
      { r.tick 10 with qx := 0, sc := put 0 (qCtr w) (r.qx % 2 ^ 11 * 2 ^ 13 + field (qImm w) 0 13) r.sc }
      (ctlDecide r.base r.len 8 r.at0 .none (put 0 (qCtr w) (r.qx % 2 ^ 11 * 2 ^ 13 + field (qImm w) 0 13) r.sc) r.stack) 1)) ∧
    (qOp w = 3 → exec (.loop q t) s = .next (s.decided q t (r.tick 10) (ctlDecide r.base r.len 8 r.at0 (.loop (qCtr w) (field (qImm w) 0 13)) r.sc r.stack) 1)) ∧
    (qOp w = 4 → exec (.djnz q t) s = .next (s.decided q t (r.tick 10) (ctlDecide r.base r.len 8 r.at0 (.djnz (qCtr w) (signed 13 (qImm w))) r.sc r.stack) 1)) ∧
    (qOp w = 5 → exec (.jmp q t) s = .next (s.decided q t (r.tick 10) (ctlDecide r.base r.len 8 r.at0 (.jmp (signed 16 (qImm w))) r.sc r.stack) 1)) ∧
    (qOp w = 6 → exec (.flag q t) s = .next (s.decided q t
      { (r.tick 10).enq (t + 16) t r.at0 (.flag (field (qImm w) 0 14) (if field (qImm w) 14 2 = 1 then r.qx else 1)) with
        qx := if field (qImm w) 14 2 = 1 then 0 else r.qx } (ctlDecide r.base r.len 8 r.at0 .none r.sc r.stack) 1)) ∧
    (qOp w = 9 → exec (.wait q t) s = .next (s.decided q t { r.tick 10 with qx := 0 } (ctlDecide r.base r.len 8 r.at0 .none r.sc r.stack)
      (1 + (r.qx % 256 * 65536 + qImm w))))) ∧
  (∀ (lo n depth a : Nat) (ctr : SMap Nat) (stack : List Frame) (op : CtlOp) (f : Nat),
    (ctlDecide lo n depth a op ctr stack).flt = some f →
    (ctlDecide lo n depth a op ctr stack).ctr = ctr ∧ (ctlDecide lo n depth a op ctr stack).stack = (endTests a stack).2 ∧
    (ctlDecide lo n depth a op ctr stack).next = (endTests a stack).1 ∧
    ((∃ off : Int, (op = .jmp off ∨ ∃ c, op = .djnz c off) ∧ f = 0x13 ∧ inExtent lo n (a + off) = false) ∨
     (∃ c len, op = .loop c len ∧ (f = 0x14 ∧ depth ≤ stack.length ∨ f = 0x13 ∧ inExtent lo n (a + len) = false ∨
        f = 0x15 ∧ ∃ x r, stack = x :: r ∧ x.fin < a + len))))

/-- R135, R136: no decision opens more frames than the sequencer has, and a frame that a decision opens or goes on with lies inside the program when the
open ones did. -/
def Obligations.FramesBounded : Prop :=
  ∀ (lo n depth a : Nat) (ctr : SMap Nat) (stack : List Frame) (op : CtlOp), stack.length ≤ depth →
    (∀ f ∈ stack, lo ≤ f.start ∧ f.fin < lo + n) → lo ≤ a →
    (ctlDecide lo n depth a op ctr stack).stack.length ≤ depth ∧
    ∀ f ∈ (ctlDecide lo n depth a op ctr stack).stack, lo ≤ f.start ∧ f.fin < lo + n

/-- BEND and the forced BEND (R132, R140): no further bundle issues; OVERRUN is logged at the forced one, under the address and the issue cycle of the bundle
that issues or waits there (Table 5.7), and a local window ends with this cycle. -/
def Obligations.BeatEnd : Prop :=
  ∀ (q : Fin 4) (t : Nat) (s : State) (r : Range), r = s.range q →
    (s.issuesR q t 10 → qOp (slotQ r.bits) = 8 → exec (.bend q t) s = .next (s.setRange q { r.tick 10 with nxt := none, bendAt := some t })) ∧
    (s.issuesR q t 11 → exec (.overrun q t) s = .next ((s.setRange q { r.tick 11 with
      nxt := none, bendAt := some t, lastLocal := r.lastLocal.map fun l => min l t,
      win := r.win.map fun w => { w with count := min w.count (t + 1 - w.start) } }).seqFault q 10 0x18 (r.iss.getD r.pc) r.issAt))

/-- LOCAL (R86, R142, R143): inside a window it is LOCAL_BUSY and only the next bundle is decided; with a zero count it only clears QX; otherwise the
window opens for its cycles, QX is cleared, and each hob of the range starts at the given local bundle with no frame. -/
def Obligations.LocalOpens : Prop :=
  ∀ (q : Fin 4) (t : Nat) (s : State) (r : Range) (n : Nat), s.settled = true → s.canon = true → r = s.range q →
    s.stk.started = true → r.halted = false → r.phase = .run → r.cyc = t → t < s.seamCyc → r.pre = [] → r.todo.contains 10 = true →
    qOp (slotQ r.bits) = 7 → n = r.qx * 128 + field (qImm (slotQ r.bits)) 9 7 →
    (r.inWindow t = true → exec (.localRun q t) s = .next ((((s.setRange q (r.tick 10)).seqFault q 10 0x17 r.at0 t).goOn q 1)) ∧
      ((((s.setRange q (r.tick 10)).seqFault q 10 0x17 r.at0 t).goOn q 1).range q).win = r.win ∧ ((((s.setRange q (r.tick 10)).seqFault q 10 0x17 r.at0 t).goOn q 1).range q).qx = r.qx ∧
      ∀ i, i < 8 → (((s.setRange q (r.tick 10)).seqFault q 10 0x17 r.at0 t).goOn q 1).hob (8 * q + i) = s.hob (8 * q + i)) ∧
    (r.inWindow t = false → n = 0 → exec (.localRun q t) s = .next ((s.setRange q { r.tick 10 with qx := 0 }).goOn q 1)) ∧
    (r.inWindow t = false → n ≠ 0 → ∃ s', exec (.localRun q t) s = .next s' ∧ (s'.range q).win = some ⟨t, n⟩ ∧ (s'.range q).qx = 0 ∧
      (s'.range q).lastLocal = some (t + n - 1) ∧ (s'.range q).hobsOn = true ∧
      ∀ i, i < 8 → (s'.hob (8 * q + i)).lpc = field (qImm (slotQ r.bits)) 0 9 ∧ (s'.hob (8 * q + i)).lstack = [] ∧
        (s'.hob (8 * q + i)).lc = (s.hob (8 * q + i)).lc)

/-- LOUT, WIN and SEND (R104, R246, R247): the tap is a pending effect three cycles on; nothing else changes. MOVE (R99, R111, R125): it falls at offset 1,
where the two bundles at W become the last descriptor of the mover's queue for the range's tenant and entry; a W outside the program is MOVE_RANGE, a full
queue MOVER_FULL, and either is only logged, under the bundle's address and issue cycle. -/
def Obligations.RangeTransfers : Prop :=
  (∀ (q : Fin 4) (t : Nat) (s : State) (r : Range), r = s.range q →
    (s.issuesR q t 8 → hBop (slotH r.bits) = 1 → exec (.lout q t) s = .next (s.setRange q ((r.tick 8).enq (t + 3) t r.at0 (.lout (hLoop (slotH r.bits)) (hSlot (slotH r.bits)))))) ∧
    (s.issuesR q t 8 → hBop (slotH r.bits) = 2 → exec (.win q t) s = .next (s.setRange q ((r.tick 8).enq (t + 3) t r.at0 (.win (hLoop (slotH r.bits)) (hSlot (slotH r.bits)))))) ∧
    (s.issuesR q t 9 → gOp (slotG r.bits) = 1 → exec (.send q t) s = .next (s.setRange q ((r.tick 9).enq (t + 3) t r.at0 (.send (slotG r.bits))))) ∧
    (s.issuesR q t 9 → gOp (slotG r.bits) = 2 → exec (.move q t) s = .next (s.setRange q ((r.tick 9).enq (t + 1) t r.at0 (.move (slotG r.bits)))))) ∧
  (∀ (s : State) (q c b : Nat) (e : RPend) (r : Range) (w : Nat) (m : Mover), e.fx = .move b → r = s.range q → w = gW b → m = r.mover (gMover b) →
    s.rangeFx q c e =
      if inExtent r.base r.len w = true ∧ inExtent r.base r.len (w + 1) = true then
        (if m.q.length + (if m.fetching.isSome then 1 else 0) < 16 then
          s.setRange q (r.setMover (gMover b) { m with q := m.q ++ [{ raw := r.bundleBytes w ++ r.bundleBytes (w + 1), tenant := r.tenant, entry := r.entry }] })
         else s.seqFault q 9 0x0F e.addr e.issue)
      else s.seqFault q 9 0x1A e.addr e.issue)

/-- GROUP (R111, R244, R245): the group passes to the station at offset 1; nothing else changes in its cycle. There a group that fails a rule commits nothing
and is HBM_TIMING (0x11); one that passes commits all of its commands in the order of their SCK, bounds its landing slots, and advances its address
register where ADV is set; nothing else changes. -/
def Obligations.GroupCommits : Prop :=
  (∀ (q : Fin 4) (t : Nat) (ecc : List Nat) (s : State) (r : Range), s.issuesR q t 7 → r = s.range q → hGop (slotH r.bits) = 1 →
    exec (.group q t ecc) s = .next (s.setRange q ((r.tick 7).enq (t + 1) t r.at0 (.group (slotH r.bits) ecc)))) ∧
  ∀ (s : State) (q c w : Nat) (ecc : List Nat) (e : RPend) (r : Range) (o : Option (List HCmd)), e.fx = .group w ecc → r = s.range q →
    o = s.judgeGroup q e.issue (hPc w) (hTpl w) (hAr w) (hAdv w) ecc →
    (o = none → s.rangeFx q c e = s.seqFault q 7 0x11 e.addr e.issue) ∧
    ∀ cs, o = some cs →
      s.rangeFx q c e = s.setRange q { r with stn := { r.stn with
        cmds := cs.foldl (fun l c => insertCmd c l) r.stn.cmds,
        bound := groupBounds e.issue (sckStart (s.grade q) r.stn.phase (e.issue + 1)) cs r.stn.bound,
        ar := if hAdv w then (match s.areaUnits q (get ({} : AReg) (hAr w) r.stn.ar).area with
          | some (_, n) => put {} (hAr w) ((get ({} : AReg) (hAr w) r.stn.ar).advance n) r.stn.ar
          | none => r.stn.ar) else r.stn.ar } }

/-- LOOP_SLOT_EXPIRE (R73): once 16 cycles have passed since a slot was written it stands empty; before, its data stay; and no other slot of the loops
changes. -/
def Obligations.LoopSlotExpires : Prop :=
  ∀ (q : Fin 4) (t : Nat) (loop : Fin 2) (n : Fin 16) (s s1 : State), s.advance q t = some s1 → s1.settled = true → s1.canon = true →
    SMapWf ({} : LoopSlot) (if loop.val = 0 then (s1.range q).up else (s1.range q).dn) = true →
    ∃ s', exec (.loopSlotExpire q t loop n) s = .next s' ∧ s' = s1.setRange q (s'.range q) ∧
      (∀ w, ((s1.range q).slot loop n).live = some w → w + 16 ≤ t → ((s'.range q).slot loop n).live = none ∧ ((s'.range q).slot loop n).blk = {}) ∧
      (∀ w, ((s1.range q).slot loop n).live = some w → t < w + 16 → (s'.range q).slot loop n = (s1.range q).slot loop n) ∧
      ∀ k, k ≠ n.val → (s'.range q).slot loop k = (s1.range q).slot loop k

/-- LOCAL_WINDOW_END and WAIT_END (R136, R146): what stands at the opening of the cycle happens. The window closes and the hobs discard their local
frames; after a WAIT the bundle that was waited for issues. -/
def Obligations.WindowAndWaitEnd : Prop :=
  ∀ (q : Fin 4) (t : Nat) (s : State) (r : Range), s.settled = true → s.canon = true → r = s.range q →
    s.stk.started = true → r.halted = false → r.phase = .run → r.cyc = t → t < s.seamCyc →
    (r.pre = [12] → ∃ s', exec (.localWindowEnd q t) s = .next s' ∧ (s'.range q).win = none ∧ (s'.range q).pre = [] ∧
      ∀ i, i < 8 → (s'.hob (8 * q + i)).lstack = [] ∧ (s'.hob (8 * q + i)).lidle = false) ∧
    (∀ a, r.pre = [13] → r.nxt = some (t, a) → r.bendAt = none → ∃ s', exec (.waitEnd q t) s = .next s' ∧ (s'.range q).iss = some a ∧ (s'.range q).issAt = t ∧
      (s'.range q).pc = a ∧ (s'.range q).waiting = false ∧ (s'.range q).pre = [])

/-- HBM_MOVER_ACCESS (R249, R250): the engine begins the oldest queued access of its pseudo-channel, outside a program once the station's own refresh leaves
the pseudo-channel free, in a program where the access fits in a mover window; it holds the pseudo-channel to its end, and is performed when its last burst
has been written or has landed. One that may not begin waits. A clean write then puts its bytes into the stack, changes no other byte, and queues its
acknowledgement. -/
def Obligations.EngineWrites : Prop :=
  (∀ (q : Fin 4) (p : Fin 8) (t k : Nat) (ecc : List Nat) (s s1 s2 : State) (x : Station) (l : Load) (rest : List Load) (cs : List HCmd) (y : Station),
    s.advance q t = some s1 → s2 = s1.ready q → s2.settled = true → x = s2.stn q → x.inRun = true → (s2.range q).halted = false →
    k = sckStart (s2.grade q) x.phase t → takePc p x.movq = some (l, rest) → cs = engineCmds p k (localAddr l.addr) (2 * l.lines) (l.kind == .write) →
    y = { x with movq := rest, engBusy := put 0 p (engineEnd cs) x.engBusy, serving := insertServ (engineDone cs, l, ecc) x.serving } →
    ((s2.range q).phase ≠ .run → get 0 p x.engBusy ≤ k →
      ((s2.range q).valid = false ∨ (s2.range q).phase = .idle ∨ engineEnd cs ≤ sckStart (s2.grade q) x.phase s2.beatLen) →
      exec (.hbmMoverAccess q p t ecc) s = .next (s2.setStn q y)) ∧
    ((s2.range q).phase ≠ .run → (k < get 0 p x.engBusy ∨
        (s2.range q).valid = true ∧ (s2.range q).phase = .seam ∧ sckStart (s2.grade q) x.phase s2.beatLen < engineEnd cs) →
      exec (.hbmMoverAccess q p t ecc) s = .next s2) ∧
    ((s2.range q).phase = .run → x.engineFits p k (localAddr l.addr) (2 * l.lines) (l.kind == .write) = true →
      exec (.hbmMoverAccess q p t ecc) s = .next (s2.setStn q { y with cmds := cs.foldl (fun l c => insertCmd c l) x.cmds })) ∧
    ((s2.range q).phase = .run → x.engineFits p k (localAddr l.addr) (2 * l.lines) (l.kind == .write) = false →
      exec (.hbmMoverAccess q p t ecc) s = .next s2)) ∧
  (∀ (s : State) (q e : Nat) (l : Load) (ecc : List Nat) (due : Nat → Bool), s.canon = true → (s.stn q).serving = [(e, l, ecc)] →
    (due e = true → s.serveDue q due = (s.setStn q { s.stn q with serving := [] }).serveLoad q l ecc) ∧ (due e = false → (s.serveDue q due).stn q = s.stn q)) ∧
  (∀ (s : State) (q : Nat) (l : Load) (ecc : List Nat), s.canon = true → l.kind = .write → l.poi = List.replicate l.lines false → l.data.length = 64 * l.lines →
    localAddr l.addr + 64 * l.lines ≤ 4 * hbmQuarter →
    readBytes (s.serveLoad q l ecc).mem (localAddr l.addr) (64 * l.lines) = l.data ∧
      (∀ a, a < localAddr l.addr ∨ localAddr l.addr + 64 * l.lines ≤ a → readByte (s.serveLoad q l ecc).mem a = readByte s.mem a) ∧
      ((s.serveLoad q l ecc).stn q).outLoads = (s.stn q).outLoads ++ [{ l with kind := .ack, dq := l.sq, ds := l.ss, sq := q, ss := 5, data := [], poi := [] }] ∧
      (s.serveLoad q l ecc).hobs = s.hobs ∧ (s.serveLoad q l ecc).gates = s.gates ∧ (s.serveLoad q l ecc).stk = s.stk ∧ (s.serveLoad q l ecc).trn = s.trn)

/-- REFRESH_TICK (R254, R255, R256): the refreshes that start before the tick are performed, and the debt of the pseudo-channel rises by one. In an idle beat
the station refreshes at once for all it owes; in a seam, and in a run below a debt of 5, no refresh is added where the pseudo-channel is not in rescue; a
station that is not trained, in self-refresh or withdrawn keeps no debt. HBM_TEMP_READ (R258, R394): where the service core counts its millisecond,
the station's temperature is the one read; HBM_TEMP is logged when it passes 105 degrees, and only then. -/
def Obligations.RefreshAndHeat : Prop :=
  (∀ (q : Fin 4) (p : Fin 8) (k : Nat) (s s1 s2 : State) (x x1 : Station) (d : Int),
    s.advance q (cycOfSck (s.grade q) (s.stn q).phase k - 1) = some s1 → s2 = (s1.ready q).playRefs q k → s2.settled = true → s2.canon = true →
    x = s2.stn q → d = get 0 p x.debt → x1 = { x with debt := put 0 p (d + 1) x.debt } →
    (x.inRun = false → exec (.refreshTick q p k) s = .next s2) ∧
    (x.inRun = true → (s2.range q).phase = .seam → x.rescue.getLsbD p = false → exec (.refreshTick q p k) s = .next (s2.setStn q x1)) ∧
    (x.inRun = true → (s2.range q).phase = .run → x.rescue.getLsbD p = false → d ≠ 4 → exec (.refreshTick q p k) s = .next (s2.setStn q x1)) ∧
    (x.inRun = true → (s2.range q).phase = .idle → exec (.refreshTick q p k) s = .next (s2.setStn q (x1.autoRefresh p k (x1.owed p)))) ∧
    (x.inRun = true → (s2.range q).phase = .run → x.rescue.getLsbD p = false → d = 4 → s2.svc.mirrorEn = false →
      ∃ s', exec (.refreshTick q p k) s = .next s' ∧ (s'.stn q).rescue.getLsbD p = true ∧ s'.svc.head = s2.svc.head + 1 ∧ s'.mem = s2.mem ∧ s'.hobs = s2.hobs)) ∧
  (∀ (x : Station) (p k n : Nat), SMapWf 0 x.engBusy = true → get 0 p x.engBusy ≤ k →
    get 0 p (x.autoRefresh p k n).engBusy = (if n = 0 then get 0 p x.engBusy else k + 420 * n) ∧ (x.autoRefresh p k n).debt = x.debt ∧
    (x.autoRefresh p k n).cmds.length = x.cmds.length + n) ∧
  (∀ (q : Fin 4) (temp : Int) (s : State), s.settled = true → s.svc.mirrorEn = false → s.canon = true → s.onPll = true →
    ∃ s', exec (.hbmTempRead q temp) s = .next s' ∧ s'.ranges = (s.setStn q { s.stn q with temp := temp }).ranges ∧
      s'.svc.head = s.svc.head + (if (s.stn q).temp ≤ 105 ∧ 105 < temp then 1 else 0) ∧ s'.mem = s.mem ∧ s'.hobs = s.hobs ∧ s'.stk = s.stk)

/-- CSR_WRITE (R498, R509): a scratch register takes the word; a write to an address that names no writable register changes nothing; and no more is
changed. COM_TAG and OTP registers (R13, R14): the first write to COM_TAG is taken and locks it; a later one, and any write to an OTP register,
changes no register but is recorded as one LOCKED_WRITE in the event log. LOG_CURSOR (R507; which numbers lie before TAIL is this model's reading, see
the assumption log): a held SEQ captures its entry's eight words; any other leaves zero words and says whether it lies before TAIL or at or beyond
HEAD. -/
def Obligations.CsrWrites : Prop :=
  (∀ (acc : CsrAccess) (a : BitVec 40) (v : Word) (s : State), s.settled = true → s.mayWriteCsr acc a.toNat = true →
    (∀ k, k < 4 → a.toNat = 0xF000000020 + 4 * k → exec (.csrWrite acc a v) s = .next { s with com := { s.com with scratch := put 0 k v s.com.scratch } }) ∧
    (0xF000004000 ≤ a.toNat → exec (.csrWrite acc a v) s = .next s)) ∧
  (∀ (acc : CsrAccess) (a : BitVec 40) (v : Word) (s : State), s.settled = true → s.svc.mirrorEn = false →
    (s.mayWriteCsr acc 0xF000000030 = true → s.com.tagLocked = false →
      exec (.comTagWrite acc v) s = .next { s with com := { s.com with tag := v, tagLocked := true } }) ∧
    (s.mayWriteCsr acc 0xF000000030 = true → s.com.tagLocked = true →
      exec (.comTagWrite acc v) s = .next (s.log 0x0001 .info .service none [0x30, 0xF0])) ∧
    (s.mayWriteCsr acc a.toNat = true → otpAddr (a.toNat - 0xF000000000) = true →
      exec (.otpWrite acc a v) s = .next (s.log 0x0001 .info .service none [a.toNat % 2 ^ 32, a.toNat / 2 ^ 32])) ∧
    (∀ args, (s.log 0x0001 .info .service none args).com.tag = s.com.tag ∧ (s.log 0x0001 .info .service none args).com.tagLocked = s.com.tagLocked ∧
      (s.log 0x0001 .info .service none args).svc.head = s.svc.head + 1 ∧ (s.log 0x0001 .info .service none args).boot = s.boot)) ∧
  (∀ (acc : CsrAccess) (v : Word) (s : State), s.settled = true → s.mayWriteCsr acc 0xF000003000 = true →
    ∃ r m, exec (.logCursorWrite acc v) s = .next { s with com := { s.com with cursor := v, result := r, snap := m } } ∧
      ((v - s.logTail).toNat < (s.svc.head - s.logTail).toNat →
        r = 0 ∧ ∀ w : Fin 8, get 0 w m = (get (Vector.replicate 8 (0 : Word)) (v.toNat % 4096) s.svc.log)[w]) ∧
      ((s.svc.head - s.logTail).toNat ≤ (v - s.logTail).toNat → m = [] ∧ (r = 1 ↔ v ≠ s.logTail ∧ (s.logTail - v).toNat ≤ 2 ^ 31) ∧ (r = 1 ∨ r = 2)))

/-- R505, and R17 for the two registers: a logged entry sets the bit of its class and the bit of its source and no other; a clear takes away the bits
written 1 but those that are set in its cycle; the alert latches and their mask are not touched by a clear, nor the two registers by ALERT_ACK; and
every reset and wake makes both registers and INT_FIRST 0. -/
def Obligations.InterruptBits : Prop :=
  (∀ (s : State) (code : Nat) (cls : EClass) (src : Src) (t : Option Nat) (args : List Nat) (i : Nat), i < 32 →
    (s.log code cls src t args).com.intClass.getLsbD i = (s.com.intClass.getLsbD i || i == cls.code) ∧
    (s.log code cls src t args).com.intSource.getLsbD i = (s.com.intSource.getLsbD i || i == src.intBit)) ∧
  ∀ (acc : CsrAccess) (v same : Word) (s : State), s.settled = true →
    (s.mayWriteCsr acc 0xF000002000 = true → ∃ c, exec (.intClassClear acc v same) s = .next { s with com := { s.com with intClass := c } } ∧
      ∀ i, i < 32 → c.getLsbD i = (same.getLsbD i || (s.com.intClass.getLsbD i && !v.getLsbD i))) ∧
    (s.mayWriteCsr acc 0xF000002004 = true → ∃ c, exec (.intSourceClear acc v same) s = .next { s with com := { s.com with intSource := c } } ∧
      ∀ i, i < 32 → c.getLsbD i = (same.getLsbD i || (s.com.intSource.getLsbD i && !v.getLsbD i))) ∧
    (∀ (a : BitVec 7) (cl mk : Byte) (l : BitVec 5), s.hears a = true → ∃ s', exec (.alertAck a cl mk l false) s = .next s' ∧ s'.com = s.com) ∧
    ∀ k, (s.cleared k).com.intClass = 0 ∧ (s.cleared k).com.intSource = 0 ∧ (s.cleared k).com.intFirst = 0

/-- R510: a refused access of a mover or of Fenxia to CSR space is recorded whole, with the address of the first word refused (for ADDRESS the first of
its words that no span decodes), replaces the record before it, and is counted once; nothing else changes. -/
def Obligations.RefusedAccess : Prop :=
  ∀ (acc : CsrAccess) (a : BitVec 40) (v : Word) (s : State) (c x : Nat), s.settled = true → acc.path ≠ .jtag → x = a.toNat / 64 * 64 → s.kindAt x = 3 →
    s.judgeAccess acc.tenant x 1 true = c → c = 0x07 ∨ c = 0x22 ∨ c = 0x23 →
    (c ≠ 0x23 → s.firstRefused c x = x) ∧
    (c = 0x23 → ∃ i, i < 16 ∧ csrDecoded s (x + 4 * i) = false ∧ (∀ j, j < i → csrDecoded s (x + 4 * j) = true) ∧ s.firstRefused c x = x + 4 * i) ∧
    (∀ w, s.noteRefusal c acc.chip acc.tenant x w =
      { s with com := { s.com with accStatus := c, accChip := acc.chip, accTenant := acc.tenant, accWrite := w,
                                   accAddr := BitVec.ofNat 32 (s.firstRefused c x), accCnt := s.com.accCnt + 1 } }) ∧
    exec (.csrWrite acc a v) s = .next { s with com := { s.com with
      accStatus := c, accChip := acc.chip, accTenant := acc.tenant, accWrite := true, accAddr := BitVec.ofNat 32 (s.firstRefused c x), accCnt := s.com.accCnt + 1 } }

/-- MOVER_OP_ISSUE (R94) for an operation whose own address, the source of a COPY or the destination of a FILL, is HBM or hob SRAM of this part: the
operation is in flight under the next number, its request or its zero lines wait as a load at the bridge, and nothing outside the quarter changes. An
operation of a descriptor with which the stoker loads a program (R89, R100) sends the entry's bundles, for the entry's tenant, to the sequencer's station. -/
def Obligations.MoverIssues : Prop :=
  ∀ (q : Fin 4) (m : Fin 8) (k : Nat) (s : State) (v : Mover) (i : Nat) (d : Desc) (a n : Nat), s.settled = true → s.canon = true →
    SMapWf ({} : Mover) (s.range q).movers = true → (s.range q).halted = false → v = s.mover q m → v.current = some i → d = v.q.getD i {} →
    d.issued.contains k = false → k < d.count → v.inFlight < 128 → n = min (d.bound (k + 1)) d.len - d.bound k →
    (d.load = none → a = (if d.op = 0 then d.src + d.bound k else d.dst + d.bound k) → a / 2 ^ 40 = s.rt.chip → 64 ≤ n →
      ((∀ j, s.kindAt (a % 2 ^ 40 + 64 * j) = 1 ∨ n / 64 ≤ j) ∨ ∀ j, s.kindAt (a % 2 ^ 40 + 64 * j) = 2 ∨ n / 64 ≤ j) →
      ∃ s' l, exec (.moverOpIssue q m k) s = .next s' ∧ s' = s.setRange q (s'.range q) ∧
        s'.mover q m = { v with nextId := v.nextId + 1, q := v.q.set i { d with begun := true, issued := d.issued ++ [k], ops := d.ops ++ [{ id := v.nextId % 65535, dst := d.dst + d.bound k, len := n, reading := d.op == 0, peer := none }] } } ∧
        (l ∈ (s'.range q).movLoads.map Prod.snd ∨ l ∈ (s'.range q).brOut) ∧ l.org = .mover q m (v.nextId % 65535) ∧ l.addr = a % 2 ^ 40 ∧
        l.lines = n / 64 ∧ l.kind = (if d.op = 0 then .readReq else .write) ∧ l.tenant = d.tenant ∧ l.data = (if d.op = 0 then [] else List.replicate n 0)) ∧
    (∀ e x, d.load = some e → x = s.entry e → a = d.dst + d.bound k →
      ∃ s' l, exec (.moverOpIssue q m k) s = .next s' ∧ s' = s.setRange q (s'.range q) ∧ l ∈ (s'.range q).movLoads.map Prod.snd ∧
        l.org = .mover q m (v.nextId % 65535) ∧ l.kind = .write ∧ l.dq = q ∧ l.ds = 15 ∧ l.addr = a % 2 ^ 40 ∧ l.lines = n / 64 ∧ l.tenant = x.tenant ∧
        l.data = x.image q ((a % 2 ^ 40 - pmemWindow q) / 32 - x.pbase) (2 * (n / 64)))

/-- DESCRIPTOR_COMPLETE and CHAIN_FETCH_DONE (R95, R98, R100): a finished head without remote flag, trigger and chain leaves the queue and adds DELTA to
its local flag where LFLAG_EN is set; an aborted one only counts as an error; one with which the stoker has loaded a program makes the entry resident in
the range (R89); then a loading that waits for a mover may take the place that came free. A chained descriptor that has been fetched clean takes the
head's place. MOVER_TIMEOUT (R96, R384): the operation leaves flight and its descriptor keeps TIMEOUT (0x31) as its reason unless it has one; a fetch that
is out fails with it; while a region is stopped the count is held and nothing happens. -/
def Obligations.MoverEnds : Prop :=
  (∀ (q : Fin 4) (m : Fin 8) (s : State) (v : Mover), s.settled = true → s.canon = true → SMapWf ({} : Mover) (s.range q).movers = true →
    (s.range q).halted = false → v = s.mover q m →
    (∀ d rest, v.q = d :: rest → v.fetching = none → d.finished = true → d.aborted = false → d.illegal = false → d.err = none → d.load = none →
      d.ctrl 3 = false → d.ctrl 4 = false → d.chain = false →
      exec (.descriptorComplete q m) s = .next (if d.ctrl 2 then (s.setMover q m { v with q := rest }).flagAdd d.tenant (le d.raw 24 2) d.delta
        else s.setMover q m { v with q := rest }).feedLoads) ∧
    (∀ d rest e, v.q = d :: rest → v.fetching = none → d.finished = true → d.aborted = false → d.illegal = false → d.err = none → d.load = some e →
      d.ctrl 2 = false → d.ctrl 3 = false → d.ctrl 4 = false → d.chain = false → (s.entry e).state = .loading →
      exec (.descriptorComplete q m) s = .next ((s.setMover q m { v with q := rest }).setEntry e { s.entry e with resident := (s.entry e).resident ++ [q.val] }).feedLoads) ∧
    (∀ d rest, v.q = d :: rest → v.fetching = none → d.finished = true → d.aborted = true →
      exec (.descriptorComplete q m) s = .next (s.setMover q m { v with q := rest, errCnt := v.errCnt + 1 }).feedLoads) ∧
    (∀ b, v.fetched = some (b, false, 0) → v.fetchAbort = false →
      exec (.chainFetchDone q m) s = .next (s.setMover q m { v with fetching := none, fetched := none, fetchAbort := false, q := { raw := b, tenant := v.fetchTenant, entry := v.fetchEntry } :: v.q }))) ∧
  (∀ (q : Fin 4) (m : Fin 8) (op : Option Nat) (s : State) (v : Mover), s.settled = true → s.canon = true → v = s.mover q m →
    (s.clk.inStop ≠ 0 ∨ s.mantelOff = true → exec (.moverTimeout q m op) s = .next s) ∧
    (s.clk.inStop = 0 → s.mantelOff = false → ∀ id, op = some id → ∃ l, exec (.moverTimeout q m op) s = .next (s.setMover q m { v with q := l }) ∧ l.length = v.q.length ∧
      ∀ (i : Nat) (d e : Desc), v.q[i]? = some d → l[i]? = some e → (∀ o ∈ e.ops, o.id ≠ id) ∧
        ((∃ o ∈ d.ops, o.id = id) → e.err = some (d.err.getD 0x31)) ∧ ((∀ o ∈ d.ops, o.id ≠ id) → e = d)) ∧
    (s.clk.inStop = 0 → s.mantelOff = false → op = none → v.fetching.isSome = true → v.fetched = none →
      exec (.moverTimeout q m op) s = .next (s.setMover q m { v with fetched := some ([], false, 0x31) })))

/-- MOVER_SLOT_FILL and MOVER_LOAD_ARRIVAL (R81, R82, R83): an empty mover slot takes the oldest load of a station that has one, and the station waits 16
cycles for its next slot; parked loads go first; a load leaves its slot at its station when there is room, and stays in it when there is none or when one
that left the same station for the same station before it is still on the loop. SPINE_DELIVERY (R101, R102, R103): the spine serves the stops that have
a load to deliver in turn; the oldest load for a quarter enters its inbound queue; a full queue accepts nothing, and nothing is dropped; a halted quarter's
bridge sends nothing. -/
def Obligations.MoverTraffic : Prop :=
  (∀ (q : Fin 4) (t : Nat) (s s1 s2 : State), s.advance q t = some s1 → s2 = s1.ready q → s2.settled = true → s2.canon = true →
    (∀ (st : Fin 16) (k : Nat) (l : Load), st.val ≠ 0 → (s2.range q).park = [] →
      (s2.stationHeads q st).find? (fun e => (s2.range q).mayFill q st (s2.range q).cyc e.2) = some (k, l) →
      exec (.moverSlotFill q t st) s = .next ((s2.stationPop q st k).setRange q
        (((s2.stationPop q st k).range q).fill st ((s2.range q).loopFor st (l.exit q)) (s2.range q).cyc l true))) ∧
    (∀ (st : Fin 16), st.val ≠ 0 → (s2.range q).park ≠ [] → exec (.moverSlotFill q t st) s = .next s2) ∧
    (∀ (l : Load) (rest : List Load), (s2.range q).park = l :: rest → (s2.range q).emptyAt 0 0 (s2.range q).cyc = true →
      exec (.moverSlotFill q t 0) s = .next (s2.setRange q { (s2.range q).fill 0 0 (s2.range q).cyc l false with park := rest })) ∧
    (∀ (loop : Fin 2) (l : Load), ((s2.range q).slot loop (slotAt loop 5 (s2.range q).cyc)).load = some l → l.exit q = 5 →
      exec (.moverLoadArrival q t 5 loop) s = .next (if (s2.range q).overtakes q loop l = false ∧ (s2.stn q).movq.length < 64 then
          s2.setRange q { (s2.range q).setSlot loop (slotAt loop 5 (s2.range q).cyc) { (s2.range q).slot loop (slotAt loop 5 (s2.range q).cyc) with load := none } with stn := { s2.stn q with movq := (s2.stn q).movq ++ [l] } }
        else s2))) ∧
  (∀ (src dst : Fin 4) (s : State) (l : Load), s.settled = true → s.canon = true → s.mantelOff = false →
    (s.range src).brOut.find? (fun x => x.dq == dst.val) = some l →
    (s.spineTurn = some src.val → (s.range dst).brIn.length < 64 → ((s.range dst).halted = true ∨ l.ds ≠ 0 ∧ ∀ x ∈ (s.range dst).brIn, x.ds ≠ 0) →
      ∃ s', exec (.spineDelivery (src.castSucc) (dst.castSucc)) s = .next s' ∧ (s'.range dst).brIn = (s.range dst).brIn ++ [l] ∧ s'.spineLast = src.val ∧
        s'.mem = s.mem ∧ s'.hobs = s.hobs ∧ s'.gates = s.gates ∧ s'.mantel = s.mantel) ∧
    ((s.range src).halted = true ∨ 64 ≤ (s.range dst).brIn.length ∨ s.spineTurn ≠ some src.val → exec (.spineDelivery (src.castSucc) (dst.castSucc)) s = .next s) ∧
    ((∀ k : Fin 4, k ≠ src → (s.range k).brOut = []) → s.mantelOut = [] → (s.range src).halted = false → (s.range dst).brIn.length < 64 → s.spineTurn = some src.val))

/-- MOVER_BUFFER_ACCESS (R42): the access that is picked, a write of one line, puts the line and its mark into SRAM, changes no other byte, leaves the
buffer, occupies its bank in the cycle, and its acknowledgement waits at the hob's station. -/
def Obligations.BufferWrites : Prop :=
  ∀ (h : Fin 32) (t : Nat) (s s1 s2 : State) (i : Nat) (l : Load), s.advance (h / 8) t = some s1 → s2 = s1.ready (h / 8) → s2.settled = true → s2.canon = true →
    SMapWf false s2.linePoi = true → bufPick h (get [] t (s2.hob h).bankUse) (s2.hob h).buf [] 0 = some i → (s2.hob h).buf[i]? = some l →
    l.kind = .write → l.lines = 1 →
    ∃ s', exec (.moverBufferAccess h t) s = .next s' ∧ s'.sramLine h (l.nextLine h) = (fit 64 (l.data.take 64), l.poi.headD false) ∧
      (∀ a, a < lineAddr h (l.nextLine h) ∨ lineAddr h (l.nextLine h) + 64 ≤ a → readByte s'.mem a = readByte s2.mem a) ∧
      s'.hob h = { s2.hob h with buf := (s2.hob h).buf.eraseIdx i, bankUse := put [] t (get [] t (s2.hob h).bankUse ++ [l.nextLine h % 48]) (s2.hob h).bankUse, outLoads := (s2.hob h).outLoads ++ [{ l with kind := .ack, dq := l.sq, ds := l.ss, sq := h / 8, ss := hobStation (h % 8), data := [], poi := [] }] } ∧
      s'.ranges = s2.ranges ∧ s'.gates = s2.gates ∧ s'.stk = s2.stk

/-- GAP_START (R67, R68, R123): in the first cycle of a gap the hob takes the treatment that the mark of the cycle's bundle names, none where its C slot
is skipped; an unmarked gap shorter than EMBER_GAP is ember work and a longer one damper work. Nothing but the hob's treatment and its sink changes,
and the sink only where the damper treats the gap or the program's end ends it. A gap begins where the array was busy in the cycle before, or in the
first cycle of the beat, up to the run's last cycle. -/
def Obligations.GapTreated : Prop :=
  ∀ (h : Fin 32) (t : Nat) (s : State) (mark len : Nat) (final : Bool), s.settled = true → s.canon = true → s.inCycle (h / 8) t → s.calm (h / 8) = false →
    (∀ e, (s.range (h / 8)).lastEffect = some e → t ≤ e) → ((s.hob h).busyTo = some (t - 1) ∧ t ≠ 0 ∨ (s.hob h).busyTo = none ∧ t = 0) →
    ((s.finishCycle (h / 8)).hob h).occupied t = false →
    mark = (match (s.hob h).cur with | some iss => if get 0 6 iss.flt = 0 then cMark (slotC iss.bits) else 0 | none => 0) → (len, final) = s.gapEnd (h / 8) h s.beatLen 0 →
    ∃ s' w, exec (.gapStart h t) s = .next s' ∧ s'.hob h = { s.hob h with gap := w, gapFrom := t } ∧
      (mark = 2 → w = .ember) ∧ (mark = 3 → w = .damper) ∧ (mark ≠ 2 → mark ≠ 3 → (w = .ember ↔ len < (s.hob h).emberGap) ∧ (w = .damper ↔ (s.hob h).emberGap ≤ len)) ∧
      s' = { s.setHob h { s.hob h with gap := w, gapFrom := t } with pwr := { s.pwr with sinks := s'.pwr.sinks } } ∧
      (final = false → w = .ember → s'.pwr.sinks = s.pwr.sinks) ∧ (s.pwr.dampHold = true → s'.pwr.sinks = s.pwr.sinks)

/-- SEAM_START (R155, R158, R160, R404): the ranges that run and are aligned come to cycle S together; each stands in its seam, with no bundle, no pending
effect and no fault left to report; the temperatures are those the sensors give; and a seam of range 0 owes an increment of STK_BEAT. A mask that names
other ranges is no event of the part (log 161). -/
def Obligations.SeamBegins : Prop :=
  ∀ (mask : BitVec 4) (v : SeamEnv) (s : State) (qs : List Nat), s.settled = true → s.canon = true → s.stk.started = true → s.stk.tickDue = false →
    SMapWf (0 : Int) s.pwr.tq = true → qs = (List.range 4).filter (fun q => mask.getLsbD q && !(s.range q).halted) →
    (∀ q ∈ qs, qs = s.alignedWith q →
      ∃ s', exec (.seamStart mask v) s = .next s' ∧ s'.pwr.tm = v.tm ∧
        ∀ q ∈ qs, (s'.range q).phase = .seam ∧ (s'.range q).iss = none ∧ (s'.range q).todo = [] ∧ (s'.range q).pend = [] ∧ (s'.range q).fltGain = 0 ∧
          get 0 q s'.pwr.tq = get 0 q v.tq ∧ (q = 0 → s'.stk.tickDue = true)) ∧
    ∀ q ∈ qs, qs ≠ s.alignedWith q → exec (.seamStart mask v) s = .next s

/-- QUARTER_RESUME (R382, R390): a quarter in a calibration or grade stop whose sinks stand where they head restarts at cycle 0 with the calibrated trims
and its new grade, and runs the entry its seam selected; the other quarters' stops go on. SIMMER_EXIT (R178, R419): the exit is decided once a wake event
has come or an entry is ready, and changes nothing but where the sinks of stopped quarters head; once they all stand there the part is in RUN again, all
four quarters stand at cycle S of a seam, aligned, with their clocks running, their calibrated trims and the grade before SIMMER, or G7, and the run of
idle beats starts anew. -/
def Obligations.QuartersResume : Prop :=
  (∀ (q : Fin 4) (b d : Fin 64) (s : State), s.settled = true → s.canon = true → s.clk.inStop.getLsbD q = true → s.clk.stopped = [] →
    s.pwr.simmer = false → s.sinksReady q = true → s.stk.tickDue = false → SMapWf 0 s.clk.trimBridge = true → SMapWf 0 s.clk.trimStation = true →
    SMapWf 0 s.clk.grade = true →
    ∃ s', exec (.quarterResume q b d) s = .next s' ∧ (s'.range q).halted = false ∧ (s'.range q).cyc = 0 ∧
      (s'.range q).phase = (if (s.range q).valid then .run else .idle) ∧ s'.clk.inStop = s.clk.inStop &&& ~~~(BitVec.twoPow 4 q) ∧
      get 0 q s'.clk.trimBridge = b ∧ get 0 q s'.clk.trimStation = d ∧ get 0 q s'.clk.grade = (get none q s.clk.newGrade).getD (get 0 q s.clk.grade)) ∧
  (∀ (v : SeamEnv) (trims : List (Nat × Nat)) (s : State) (m : BitVec 4), s.settled = true → s.canon = true → s.pwr.simmer = true → s.clk.pending = 0 →
    s.clk.inStop = 0 → s.pwr.exiting = some m → (∀ q : Fin 4, (s.range q).halted = true ∧ s.sinksReady q = true) →
    SMapWf 0 s.clk.trimBridge = true → SMapWf 0 s.clk.trimStation = true → SMapWf 0 s.clk.grade = true →
    ∃ s', exec (.simmerExit v trims) s = .next s' ∧ s'.pwr.simmer = false ∧ s'.pwr.wakeEvt = false ∧ s'.svc.mode = 1 ∧ s'.stk.idleBeats = 0 ∧ s'.stk.align = [] ∧
      s'.pwr.tm = v.tm ∧
      ∀ q : Fin 4, (s'.range q).halted = false ∧ (s'.range q).phase = .idle ∧ (s'.range q).cyc = s'.seamCyc ∧
        get 0 q s'.clk.grade = (if m.getLsbD q then 7 else get 0 q s.clk.grade) ∧
        get 0 q s'.clk.trimBridge = (trims.getD q (0, 0)).1 ∧ get 0 q s'.clk.trimStation = (trims.getD q (0, 0)).2) ∧
  (∀ (v : SeamEnv) (trims : List (Nat × Nat)) (s : State), s.settled = true → (s.pwr.exiting = none ∨ ∃ q : Fin 4, s.sinksReady q = false) → exec (.simmerExit v trims) s = .next s) ∧
  ∀ (s : State) (due : Bool), due = (s.pwr.simmer && s.pwr.exiting.isNone && !s.goingDown && !s.mantelOff && (s.readyNow || s.pwr.wakeEvt)) →
    (due = false → s.decideExit = s) ∧
    (due = true → ∃ m sinks, s.decideExit = { s with pwr := { s.pwr with exiting := some m, sinks := sinks } } ∧
      ∀ q : Fin 4, m.getLsbD q = (s.pwr.fault || decide (105 ≤ get 0 q s.pwr.tq) || decide (105 ≤ s.pwr.tm)))

/-- STK_BEAT_TICK (R159, R187, R188): the beat count rises by one at the end of a seam of range 0, and by the stoker's clock while that range's quarter is
stopped in SIMMER; a stall beat (no range ran, no round took an entry, no progress, an entry ARMED) is counted, and any other ends the run of stall beats
and local stall with it. -/
def Obligations.BeatCounts : Prop :=
  ∀ (s : State) (stall : Bool), s.settled = true → s.canon = true → s.mantelOff = false → s.stk.started = true →
    (s.stk.tickDue = true ∨ s.pwr.simmer = true ∧ (s.range 0).halted = true) →
    stall = (!s.stk.ranNow && !(List.range 4).any (fun q => (s.range q).phase == .run || ((s.range q).phase == .seam && (s.range q).valid)) && !s.stk.tookNow && !s.stk.progress &&
      s.stk.entries.any fun e => e.2.state == .armed) →
    ∃ s', exec .stkBeatTick s = .next s' ∧ s'.stk.beat = s.stk.beat + 1 ∧ s'.stk.tickDue = false ∧ s'.stk.ranNow = false ∧ s'.stk.tookNow = false ∧
      s'.stk.sb = (if stall then min (s.stk.sb + 1) 0xFFFF else 0) ∧ (stall = false → s'.stk.localStall = false) ∧
      (stall = true → s.stk.sb = 0 → s'.stk.rid ≠ 0xFFFFFFFF) ∧ s'.rt.hopdropSeen = s'.rt.hopdrop

/-- ADMISSION, ENTRY_RESIDENT and ENTRY_RELEASE (R163, R165, R167, R181): a LOAD that every check passes is LOADING with its cost; one that fails a check
of Table 6.5 leaves its place EMPTY and its code, detail and entry in STK_LASTREF, with one ADMIT_REFUSED; an entry whose bundles stand in
every range of its mask leaves LOADING for ARMED or IDLE, or for DISABLED where a DISABLE or REMOVE is accepted, and no other does; a removed one that
neither runs nor claims becomes EMPTY. -/
def Obligations.EntriesComeAndGo : Prop :=
  ∀ (s : State), s.settled = true → s.canon = true → s.mantelOff = false → SMapWf ({} : Entry) s.stk.entries = true →
    (∀ e rest x1 cost, s.stk.admitQ = e :: rest → s.aborting (s.entry e).tenant = false → s.judgeStatic e = (0, 0, x1) → (s.setEntry e x1).judgeTraces e = (0, 0, cost) →
      ∃ s', exec .admission s = .next s' ∧ s'.entry e = { x1 with state := .loading, cost := cost } ∧ s'.stk.admitQ = rest ∧ (∀ k, k ≠ e → s'.entry k = s.entry k)) ∧
    (∀ e rest c d x1, s.stk.admitQ = e :: rest → s.aborting (s.entry e).tenant = false → s.judgeStatic e = (c, d, x1) → c ≠ 0 → s.svc.mirrorEn = false →
      ∃ s', exec .admission s = .next s' ∧ s'.entry e = {} ∧ s'.stk.lastCode = c ∧ s'.stk.lastDetail = d ∧ s'.stk.lastEntry = e % 1024 ∧
        s'.svc.head = s.svc.head + 1 ∧ (∀ k, k ≠ e → s'.entry k = s.entry k)) ∧
    ∀ e : Fin 1024,
      ((s.entry e).state = .loading → (∀ q : Fin 4, (s.entry e).rmask.testBit q = true → q.val ∈ (s.entry e).resident) → ∃ s', exec (.entryResident e) s = .next s' ∧
        (s'.entry e).state = (if (s.entry e).leaving ≠ 0 then .disabled else if 0 < (s.entry e).arms ∨ (s.entry e).rep = true then .armed else .idle) ∧
        s'.mem = s.mem ∧ s'.hobs = s.hobs ∧ s'.gates = s.gates ∧ ∀ k, k ≠ e.val → s'.entry k = s.entry k) ∧
      (((s.entry e).state ≠ .loading ∨ ∃ q : Fin 4, (s.entry e).rmask.testBit q = true ∧ q.val ∉ (s.entry e).resident) → exec (.entryResident e) s = .next s) ∧
      ((s.entry e).leaving = 2 → (s.entry e).state = .disabled → (s.entry e).runningIn = [] → s.claimed e = false →
        ∃ s', exec (.entryRelease e) s = .next s' ∧ s'.entry e = {} ∧ s'.mem = s.mem ∧ s'.hobs = s.hobs ∧ s'.gates = s.gates ∧ ∀ k, k ≠ e.val → s'.entry k = s.entry k)

/-- EPOCH_OPEN, STALL, POLL, ANSWER and DEADLOCK (R188, R189, R190): the leader opens the next epoch with its own answer in it, and an epoch that every
member has answered closes with no STALL noted; a member's STALL is noted; a POLL is answered with state and RID, also in SIMMER; an answer of a member
to the open epoch is kept, and the epoch stays open while one is missing; and DEADLOCK applies DL_POLICY, which aborts every tenant with an ARMED entry
where it says so. -/
def Obligations.StallProtocol : Prop :=
  ∀ (l : Fin 20) (v : Fin 8) (s : State) (p : Packet) (rest : List Packet), s.canon = true →
    (s.settled = true → s.mayOpen = true → s.mantelOff = false → ∃ s', exec .epochOpen s = .next s' ∧ s'.stk.everOpened = true ∧ s'.stk.sinceOpen = 0 ∧
      ((s'.stk.openEpoch = some (s.stk.epoch + 1) ∧ get none s.rt.chip s'.stk.answers = some s.ownAnswer ∧ s'.stk.stallMsg = s.stk.stallMsg) ∨
       (s'.stk.openEpoch = none ∧ s'.stk.epoch = s.stk.epoch + 1 ∧ s'.stk.stallMsg = false))) ∧
    (s.settled = true → s.rxHead l v opStallp p rest → p.stallType = 1 → s.stk.isLeader = true → s.stk.members.contains p.src = true →
      exec (.stall l v) s = .next { s.taken l v rest with stk := { s.stk with stallMsg := true } }) ∧
    (∀ n w, ({ s with pwr := { s.pwr with simmer := false } } : State).settled = true → (s.pwr.simmer = true → s.pwr.exiting = none → s.readyNow = false ∧ s.pwr.wakeEvt = false) →
      s.mantelOff = false → get [] v (s.gate l).rx = p :: rest → get [] v (s.gate l).moving = [] → p.op = opStallp → p.dst = s.rt.chip → p.src ≠ s.rt.chip →
      (s.range (l / 5)).halted = false ∨ s.pwr.simmer = true → p.stallType = 2 → s.exitFor 3 p.src 3 = some (n, w) →
      exec (.poll l v) s = .next { s.taken l v rest with mantelOut := s.mantelOut ++ [packetLoad n w .own { op := opStallp, vc := 3, dst := p.src, src := s.rt.chip, part := s.rt.part, hops := s.rt.hopLimit, tag := 0x100, sunit := sunitStoker, flits := [(stallFlit 3 (if s.stk.localStall then 1 else 0) s.rt.chip (BitVec.ofNat 32 (le p.flit0 4 4)) s.stk.rid, false)] }] }) ∧
    (∀ c, s.settledBut = true → s.rxHead l v opStallp p rest → p.stallType = 3 → s.stk.openEpoch = some (BitVec.ofNat 32 (le p.flit0 4 4)) →
      s.stk.members.contains p.src = true → get none p.src s.stk.answers = none → SMapWf (none : Option Answer) s.stk.answers = true →
      c ∈ s.stk.members → c ≠ p.src → get none c s.stk.answers = none →
      exec (.answer l v) s = .next { s.taken l v rest with stk := { s.stk with answers := put none p.src (some { stalled := le p.flit0 1 1 == 1, rid := BitVec.ofNat 32 (le p.flit0 8 4) }) s.stk.answers } }) ∧
    (s.settled = true → s.svc.mirrorEn = false → s.rxHead l v opStallp p rest → p.stallType = 4 →
      ∃ s', exec (.deadlock l v) s = .next s' ∧ s'.svc.head = s.svc.head + 1 ∧ (s.stk.dlPolicy ≠ 1 → s'.stk = s.stk) ∧
        (s.stk.dlPolicy = 1 → ∀ e ∈ s.stk.entries, e.2.state = .armed → s'.aborting e.2.tenant = true) ∧ s'.mem = s.mem ∧ s'.hobs = s.hobs ∧ s'.ranges = s.ranges)

/-- FLAGINC (R201, R229, R300): an increment by a tenant that may use the flag adds its delta modulo 2^32; one by another tenant changes no flag; no other
flag changes either way. One behind a WRITE of its sender that has not been placed yet waits. -/
def Obligations.FlagIncrements : Prop :=
  ∀ (l : Fin 20) (v : Fin 8) (s : State) (p : Packet) (rest : List Packet), s.settled = true → s.canon = true → SMapWf (0 : Word) s.flg.val = true →
    s.rxHead l v opFlagInc p rest → p.src ≠ s.rt.chip →
    (s.behindWrite p = true → exec (.flaginc l v) s = .next s) ∧
    (s.behindWrite p = false →
      ∃ s', exec (.flaginc l v) s = .next s' ∧ s' = { s with flg := s'.flg, stk := s'.stk, gates := s'.gates, ranges := s'.ranges, rt := s'.rt } ∧
        s'.flag p.arg0 = (if s.mayUseFlag p.tenant p.arg0 then s.flag p.arg0 + BitVec.ofNat 32 p.arg1 else s.flag p.arg0) ∧
        (∀ f, f ≠ p.arg0 → s'.flag f = s.flag f) ∧ (s.mayUseFlag p.tenant p.arg0 = false → s'.flg = s.flg ∧ s'.stk = s.stk))

/-- MSG (R206, R210, R214, R229, R556): the first packet of a message that its channel admits takes the slot AC names; AC and ACCEPTED rise, and its lines
leave the mantel in loads for that slot, with no byte of memory changed yet. A message refused for a closed channel places nothing and is counted; one
behind a WRITE of its sender that has not been placed yet waits. SPINE_DELIVERY of a line's acknowledgement marks the line as standing in the ring.
MESSAGE_PLACED and MESSAGE_ABANDON (R207, R208, R211): the oldest message, once placed, is counted by WP and raises NOTIFY by 1 where the channel
notifies, and a closing channel whose last message it was becomes CLOSED; an abandoned message has zero lines sent for those that are missing, and is
counted as partial. -/
def Obligations.Messages : Prop :=
  (∀ (l : Fin 20) (v : Fin 8) (s : State) (p : Packet) (rest : List Packet) (x : Channel), s.settled = true → s.canon = true →
    SMapWf ({} : Channel) s.flg.chans = true → s.rxHead l v opMsg p rest → p.src ≠ s.rt.chip → p.moffset = 0 → x = s.chan p.channel →
    (s.behindWrite p = true → exec (.msg l v) s = .next s) ∧
    (s.behindWrite p = false → s.judgeMsg x (some p.tenant) p.mlines = 0 → p.flits.length ≤ p.mlines → (∀ f ∈ p.flits, f.2 = false) →
      ∃ s', exec (.msg l v) s = .next s' ∧
        s'.chan p.channel = { x with ac := x.ac + 1, accepted := x.accepted + 1, msgs := x.msgs ++ [{ slot := x.ac.toNat % x.slots, mlines := p.mlines, src := p.src, unit := p.sunit, tag := p.tag, num := x.ac.toNat, got := List.range p.flits.length }] } ∧
        s'.mantelOut = s.mantelOut ++ lineLoads (x.slotAddr x.ac.toNat) x.tenant (fun k n => .ring p.channel x.ac.toNat k n) p.flits ∧ s'.mem = s.mem ∧
        (∀ c, c ≠ p.channel → s'.chan c = s.chan c) ∧ s'.hobs = s.hobs ∧ s'.stk = s.stk) ∧
    (s.behindWrite p = false → x.everOpen = true → p.flits.length ≤ p.mlines → s.judgeMsg x (some p.tenant) p.mlines = 2 →
      ∃ s', exec (.msg l v) s = .next s' ∧ s'.chan p.channel = { x with dropClosed := x.dropClosed + 1 } ∧ s'.mem = s.mem ∧ s'.hobs = s.hobs ∧ s'.mantelOut = s.mantelOut)) ∧
  (∀ (c : Fin 65536) (s : State) (x : Channel), s.settled = true → s.canon = true → s.mantelOff = false → SMapWf ({} : Channel) s.flg.chans = true →
    SMapWf (0 : Word) s.flg.val = true → x = s.chan c →
    (∀ (src : Fin 5) ld num o n, s.spineTurn = some src.val → (s.spineOut src).find? (fun z => z.dq == 4) = some ld → ld.kind = .ack → ld.org = .ring c num o n →
      ∃ s', exec (.spineDelivery src 4) s = .next s' ∧ s'.chan c = { x with msgs := updFirst (fun m => m.num == num && !m.placed) (fun m => m.fill o n) x.msgs } ∧ s'.mem = s.mem) ∧
    (∀ m rest, x.msgs = m :: rest → m.placed = true → x.chimney = false →
      ∃ s', exec (.messagePlaced c) s = .next s' ∧ s' = { s with flg := s'.flg, stk := s'.stk } ∧
        s'.chan c = (if x.state = .closing ∧ x.wp + 1 = x.ac then { x with wp := x.wp + 1, msgs := rest, state := .closed, frozen := x.wp + 1 - s'.flag x.rpflag } else { x with wp := x.wp + 1, msgs := rest }) ∧
        (x.notifyEn = true → s.mayUseFlag x.tenant x.notify = true → s'.flag x.notify = s.flag x.notify + 1) ∧
        (x.notifyEn = false → s'.flg.val = s.flg.val)) ∧
    (∀ slot m, s.clk.inStop = 0 → x.msgs.find? (fun m => m.slot == slot && !m.whole) = some m →
      ∃ s', exec (.messageAbandon c slot) s = .next s' ∧
        s'.chan c = { x with partials := x.partials + 1, msgs := updFirst (fun m => m.slot == slot && !m.whole) (fun m => { m with got := List.range m.mlines, abandoned := true }) x.msgs } ∧
        s'.mantelOut = s.mantelOut ++ ((List.range m.mlines).filter fun i => !m.got.contains i).flatMap (fun i => lineLoads (x.slotAddr m.slot + 64 * i) x.tenant (fun k n => .ring c m.num (i + k) n) [(List.replicate 64 0, false)]) ∧
        s'.mem = s.mem ∧ s'.hobs = s.hobs ∧ s'.stk = s.stk ∧ s'.flg.val = s.flg.val))

/-- CONTRIB and CONTRIBUTION_WRITE (R218, R219, R220, R229): a line that the channel accepts is held in its contributor's current round and binds the
contributor to the chip it came from; the contributor's count rises when the line completes the contribution, and only then; a write to the window is
acknowledged with the status of its lines; a packet behind a WRITE of its sender that has not been placed yet waits. ROUND_SUM and ROUND_COMPLETE (R223,
R224, R225): the sum of the round's contributions, in contributor order in ordered mode, leaves for the round's ring slot in loads, and stands as written
with the acknowledgement of the last of them; the round that WP names completes once its sum is written, and WP counts it and raises NOTIFY. -/
def Obligations.Chimneys : Prop :=
  (∀ (l : Fin 20) (v : Fin 8) (s : State) (b : Bytes) (x : Channel) (y : Chimney) (c i o src : Nat), s.settled = true → s.canon = true →
    SMapWf ({} : Channel) s.flg.chans = true → SMapWf ({} : Chimney) s.flg.chims = true → x = s.chan c → y = s.chim x.k → SMapWf 0 y.cc = true →
    SMapWf (none : Option Nat) y.bind = true → (∀ r ∈ y.rounds, SMapWf ([] : Bytes) r.lines = true) → b.length = 64 → o < 64 →
    (∀ p rest, s.rxHead l v opContrib p rest → p.src = src → src ≠ s.rt.chip → p.channel = c → p.cindex = i → p.coffset = o → p.flits = [(b, false)] →
      (s.behindWrite p = true → exec (.contrib l v) s = .next s) ∧
      (s.behindWrite p = false → State.judgeLine (s.taken l v rest) (s.taken l v rest) c (some p.tenant) src i o (!decide (p.sunit / 32 = 5) || s.forwardFits c src (p.tag % 4096)) = 0 →
        ∃ s', exec (.contrib l v) s = .next s' ∧ get [] (64 * i + o) ((s'.chim x.k).round (y.ccOf i)).lines = b ∧ get none i (s'.chim x.k).bind = some src ∧
          (s'.chim x.k).ccOf i = y.ccOf i + (if ∀ k, k < y.clines → k ≠ o → ((y.round (y.ccOf i)).lines.any fun e => e.1 == 64 * i + k) = true then 1 else 0) ∧
          (s'.chan c).wp = x.wp ∧ s'.hobs = s.hobs ∧ s'.stk = s.stk)) ∧
    (∀ ld, s.mantelOff = false → s.mantel.find? (fun z => inContribWindow z.addr) = some ld → ld.addr = contribWindow + x.k * 0x100000 + i * 0x1000 + o * 64 → i < 256 → x.k < 4096 →
      ld.lines = 1 → ld.data = b → ld.poi = [false] → s.loadChip ld = src → y.used = true → y.chan = c →
      State.judgeLine { s with mantel := s.mantel.eraseP fun z => inContribWindow z.addr } { s with mantel := s.mantel.eraseP fun z => inContribWindow z.addr } c (some ld.tenant) src i o true = 0 →
      ∃ (s' : State) (ls : List Load), exec .contributionWrite s = .next s' ∧ get [] (64 * i + o) ((s'.chim x.k).round (y.ccOf i)).lines = b ∧ get none i (s'.chim x.k).bind = some src ∧
        s'.mantel = s.mantel.eraseP (fun z => inContribWindow z.addr) ∧ (∀ z ∈ ls, z.kind = .write ∧ z.org = .none) ∧
        s'.mantelOut = s.mantelOut ++ ls ++ [{ ld with kind := .ack, dq := ld.sq, ds := ld.ss, sq := 4, ss := 0, data := [], poi := [], status := 0 }])) ∧
  (∀ (k : Fin 4096) (s : State) (y : Chimney) (x : Channel), s.settled = true → s.canon = true → s.mantelOff = false → SMapWf ({} : Channel) s.flg.chans = true →
    SMapWf ({} : Chimney) s.flg.chims = true → SMapWf (0 : Word) s.flg.val = true → y = s.chim k → x = s.chan y.chan → x.state = .opened →
    (∀ r sum ls, s.sumReady k = some r → sum = (if y.ordered then elemBytes y.fmt (s.orderedSum y r) else r.fold y (r.complete.getLastD 0) (r.complete.length == 1)) →
      ls = lineLoads (x.slotAddr r.num.toNat) x.tenant (fun _ _ => .sum k r.num.toNat) ((List.range (sum.length / 64)).map fun j => ((sum.drop (64 * j)).take 64, r.poison)) →
      ∃ s', exec (.roundSum k) s = .next s' ∧ s'.mantelOut = s.mantelOut ++ ls ∧
        s'.chim k = y.setRound { r with begun := true, formed := true, sum := sum, left := ls.length, written := ls.isEmpty } ∧
        s'.chan y.chan = x ∧ s'.mem = s.mem ∧ s'.hobs = s.hobs ∧ s'.stk = s.stk) ∧
    (∀ (src : Fin 5) ld num r, s.spineTurn = some src.val → (s.spineOut src).find? (fun z => z.dq == 4) = some ld → ld.kind = .ack → ld.org = .sum k num →
      y.rounds.find? (fun r => r.num.toNat == num && r.formed && !r.written) = some r →
      ∃ s', exec (.spineDelivery src 4) s = .next s' ∧ s'.chim k = y.setRound { r with left := r.left - 1, written := decide (r.left ≤ 1) } ∧ s'.chan y.chan = x ∧ s'.mem = s.mem) ∧
    (y.used = true → (y.rounds.any fun r => r.num == x.wp && r.written) = true → y.fwdEn = false → x.chimney = true →
      ∃ s', exec (.roundComplete k) s = .next s' ∧ (s'.chan y.chan).wp = x.wp + 1 ∧ (s'.chan y.chan).ac = x.wp + 1 ∧ s'.chim k = { y with rounds := y.rounds.filter fun z => z.num != x.wp } ∧
        (x.notifyEn = true → s.mayUseFlag x.tenant x.notify = true → s'.flag x.notify = s.flag x.notify + 1) ∧ s'.mem = s.mem ∧ s'.hobs = s.hobs ∧ s'.ranges = s.ranges))

/-- STAGING_CONFIRM and STAGING_RELEASE (R252): a full PROVISIONAL block becomes CONFIRMED and adds 1 to the flag the request names; a CONFIRM of any other
block, and a RELEASE of any block, leaves it EMPTY; the request is acknowledged with OK, and no other block changes. A request refused under Table 8.7
changes nothing but that it is acknowledged with its code. -/
def Obligations.StagingBlocks : Prop :=
  ∀ (s s1 : State) (ld ack : Load) (op blk : Nat), s.settled = true → s.canon = true → s.mantelOff = false → SMapWf ((0, 0) : Nat × Nat) s.stage = true → SMapWf (0 : Word) s.flg.val = true →
    s.mantel.find? (fun z => s.kindAt z.addr == 5 && le z.data 8 1 == op) = some ld → blk = le ld.data 0 8 / 0x10000 →
    s1 = { s with mantel := s.mantel.eraseP fun z => s.kindAt z.addr == 5 && le z.data 8 1 == op } →
    ack = { ld with kind := .ack, dq := ld.sq, ds := ld.ss, sq := 4, ss := 0, data := [], poi := [], status := s.judgeStaging ld.tenant ld.data } →
    (op = 1 → s.judgeStaging ld.tenant ld.data = 0 → get (0, 0) blk s.stage = (1, 0xFFFFFFFF) →
      ∃ s', exec .stagingConfirm s = .next s' ∧ get (0, 0) blk s'.stage = (2, 0xFFFFFFFF) ∧
        (s.mayUseFlag ld.tenant (le ld.data 10 2) = true → s'.flag (le ld.data 10 2) = s.flag (le ld.data 10 2) + 1) ∧
        (s.mayUseFlag ld.tenant (le ld.data 10 2) = false → s'.flg.val = s.flg.val) ∧
        (∀ b, b ≠ blk → get (0, 0) b s'.stage = get (0, 0) b s.stage) ∧ s'.mantelOut = s.mantelOut ++ [ack] ∧ s'.mem = s.mem) ∧
    (op = 1 → s.judgeStaging ld.tenant ld.data = 0 → get (0, 0) blk s.stage ≠ (1, 0xFFFFFFFF) →
      ∃ s', exec .stagingConfirm s = .next s' ∧ s' = { s1 with stage := s'.stage, stageFill := s'.stageFill, mantelOut := s.mantelOut ++ [ack] } ∧
        get (0, 0) blk s'.stage = (0, 0) ∧ (∀ b, b ≠ blk → get (0, 0) b s'.stage = get (0, 0) b s.stage)) ∧
    (op = 2 → s.judgeStaging ld.tenant ld.data = 0 →
      ∃ s', exec .stagingRelease s = .next s' ∧ s' = { s1 with stage := s'.stage, stageFill := s'.stageFill, mantelOut := s.mantelOut ++ [ack] } ∧
        get (0, 0) blk s'.stage = (0, 0) ∧ (∀ b, b ≠ blk → get (0, 0) b s'.stage = get (0, 0) b s.stage)) ∧
    (s.judgeStaging ld.tenant ld.data ≠ 0 → (op = 1 → exec .stagingConfirm s = .next { s1 with mantelOut := s.mantelOut ++ [ack] }) ∧
      (op = 2 → exec .stagingRelease s = .next { s1 with mantelOut := s.mantelOut ++ [ack] }))

/-- TRAIN_START, TRAIN_TIMEOUT and BROKEN_IDLE_END (R272, R273, R274, R303): an enabled link leaves DOWN for TRAIN where links may train, with its training
frames on all lanes; one that is not enabled has been DOWN for 10 ms; a training that times out puts it DOWN and logs LINK_TRAIN_FAIL at the first
failure only; a broken link enters TRAIN, or DOWN when it is disabled. TRAIN_COMPLETE (R268, R275, R276, R279): with frames that show one lane order,
matching parameters and a half of the lanes good the link answers with STEP 7, and enters UP, or HOLD where a cause of HOLD stands, once the partner
sends STEP 7 too, with its width, its partner, the partner's limits, and sequence numbers 0; a mismatch puts it DOWN and logs LINK_PARAM. SILENCE,
CREDIT_TIMEOUT, LANE_FAILURE and DRAIN_TIMEOUT (R280, R281, R287, R299, R303): silence, a starved VC and a failed lane of a link that is narrow already
break the link, with the reason of Table 9.11 and an empty replay buffer; a first failed lane asks for the half that is still whole; a DRAIN that times
out ends in DOWN. -/
def Obligations.LinkStates : Prop :=
  (∀ (l : Fin 20) (s : State) (g : Gate), s.settled = true → s.canon = true → s.svc.mirrorEn = false → g = s.gate l →
    (g.state = .down → g.en = true → s.mayTrain = true → exec (.trainStart l) s = .next { s.setGate l { g with state := .train, rested := false } with out := s.out ++ (List.range 8).map fun m => .lane l m (s.trainFrame l m 1 0) }) ∧
    (g.state = .down → g.en = false ∨ s.mayTrain = false → exec (.trainStart l) s = .next (s.setGate l { g with rested := true })) ∧
    (g.state = .train → g.trainLogged = true → exec (.trainTimeout l) s = .next (s.setGate l { g with state := .down, rested := false, trainLogged := true })) ∧
    (g.state = .train → g.trainLogged = false →
      exec (.trainTimeout l) s = .next ((s.setGate l { g with state := .down, rested := false, trainLogged := true }).log 0x0601 .fabric (.link l) none [l])) ∧
    (g.state = .broken → g.en = true → s.mayTrain = true → exec (.brokenIdleEnd l) s = .next { s.setGate l { g with state := .train, rested := false } with out := s.out ++ (List.range 8).map fun m => .lane l m (s.trainFrame l m 1 0) }) ∧
    (g.state = .broken → g.en = false → exec (.brokenIdleEnd l) s = .next (s.setGate l { g with state := .down, rested := false }))) ∧
  (∀ (l : Fin 20) (r : TrainResult) (s : State) (g : Gate) (f : Bytes), s.settled = true → s.canon = true → s.svc.mirrorEn = false → g = s.gate l → g.state = .train → f = partnerFrame r →
    (∀ rev n hf, laneOrder r.frames = some rev → linkWidth (goodLanes r) = some (n, hf) → 6 ≤ le f 9 1 →
      (le f 19 1 = 1 → le f 16 1 ≠ s.rt.chip → le f 20 1 = g.vcmask.toNat → (∀ v : Fin 8, g.vcmask.getLsbD v = true → 16 ≤ le f (24 + 2 * v) 2) →
        (le f 9 1 ≠ 7 → exec (.trainComplete l r) s = .next { s with out := s.out ++ (List.range 8).map fun m => .lane l m (s.trainFrame l m 7 r.good) }) ∧
        (le f 9 1 = 7 → ∃ s', exec (.trainComplete l r) s = .next s' ∧ (s'.gate l).state = (if g.holdWhy = 0 then .up else .hold) ∧ (s'.gate l).narrow = n ∧ (s'.gate l).half = hf ∧
          (s'.gate l).reversed = rev ∧ (s'.gate l).pchip = le f 16 1 ∧ (s'.gate l).plink = le f 18 1 % 32 ∧ (s'.gate l).nts = 0 ∧ (s'.gate l).ers = 0 ∧
          (s'.gate l).replay = [] ∧ (s'.gate l).rnum = 0 ∧ (∀ v : Fin 8, get 0 v (s'.gate l).plimit = le f (24 + 2 * v) 2 % 2048) ∧ s'.hobs = s.hobs)) ∧
      (le f 19 1 ≠ 1 → exec (.trainComplete l r) s = .next ((s.setGate l { g with state := .down, rested := false }).log 0x0602 .fabric (.link l) none [l, 1]))) ∧
    (laneOrder r.frames = none ∨ linkWidth (goodLanes r) = none → g.trainLogged = true →
      exec (.trainComplete l r) s = .next (s.setGate l { g with state := .down, rested := false, trainLogged := true }))) ∧
  (∀ (l : Fin 20) (v : Fin 8) (m : Fin 8) (s : State) (g : Gate), s.settled = true → s.canon = true → g = s.gate l → s.clk.inStop = 0 → s.mantelOff = false →
    (g.state = .up → g.phold = false →
      ∃ s', exec (.silence l) s = .next s' ∧ (s'.gate l).state = (if g.disDue then .down else .broken) ∧ (s'.gate l).brk = 3 ∧ (s'.gate l).replay = [] ∧ s'.hobs = s.hobs) ∧
    (g.state = .up → g.phold = false → g.starves v = true →
      ∃ s', exec (.creditTimeout l v) s = .next s' ∧ (s'.gate l).state = (if g.disDue then .down else .broken) ∧ (s'.gate l).brk = 2 ∧ (s'.gate l).replay = [] ∧ s'.hobs = s.hobs) ∧
    (g.state = .up → g.narrow = true → g.half = decide (4 ≤ m.val) →
      ∃ s', exec (.laneFailure l m) s = .next s' ∧ (s'.gate l).state = (if g.disDue then .down else .broken) ∧ (s'.gate l).brk = 6 ∧ (s'.gate l).replay = [] ∧ s'.hobs = s.hobs) ∧
    (g.state = .up → g.narrow = false → g.failed = 0 → g.pnarrow = false →
      exec (.laneFailure l m) s = .next (s.setGate l { g with failed := BitVec.twoPow 8 m.val, narrowReq := true, narrowSent := g.narrowSent && g.narrowReq, narrowHalf := decide (m.val < 4) })) ∧
    (g.state = .drain → ∃ s', exec (.drainTimeout l) s = .next s' ∧ (s'.gate l).state = .down ∧ (s'.gate l).replay = [] ∧ s'.hobs = s.hobs))

/-- CONTROL_FLIT (R286, R290): a counted control flit without a NAK frees the packets it acknowledges and keeps the rest in order, and takes over the
partner's ACK, DACK and receive-buffer occupancy. A first flit that does not count is remembered; but for the FEC's counters (R306) nothing else
changes. HEADER_CRC_FAIL and REPLAY_TIMEOUT (R289, R291, R292): a header whose check fails is discarded, counted, and makes the receiver NAK-pending
for the packet it expects; a replay of the packets held begins, or, after eight in succession, the link breaks. -/
def Obligations.LinkFlits : Prop :=
  (∀ (l : Fin 20) (b : Bytes) (n k : Nat) (fec : FecReport) (s : State) (g : Gate), s.settled = true → s.canon = true → g = s.gate l → g.state = .up → g.rxSlot ≤ n → dataSlot n = false →
    b.length = 64 → crc32c (b.take 60) = le b 60 4 →
    (le b 9 1 = n / 32 % 256 → le b 1 1 = 2 → (le b 4 2).testBit 12 = false → k = (BitVec.ofNat 12 (le b 2 2) + 1 - g.oldest).toNat → k ≤ g.replay.length →
      ∃ g', exec (.controlFlit l b ⟨n, fec⟩) s = .next (s.setGate l g') ∧ g'.replay = g.replay.drop k ∧ g'.pack = BitVec.ofNat 12 (le b 2 2) ∧ g'.pdack = BitVec.ofNat 12 (le b 6 2) ∧
        (∀ v : Fin 8, get 0 v g'.pocc = le b (12 + 2 * v) 2) ∧ g'.state = .up ∧ g'.rnum = (if k = 0 then g.rnum else 0) ∧ g'.waiting = g.waiting ∧ g'.rx = g.rx ∧ g'.rxSlot = n + 1 ∧
        g'.cnt = upd 0 4 (· + BitVec.ofNat 32 fec.uncorrectable) (upd 0 3 (· + BitVec.ofNat 32 fec.corrected) g.cnt)) ∧
    (le b 9 1 ≠ n / 32 % 256 → g.cindexBad = 0 → ∃ g', exec (.controlFlit l b ⟨n, fec⟩) s = .next (s.setGate l g') ∧
        g' = { g with cindexBad := 1, rxSlot := n + 1, laneErr := g'.laneErr, cnt := upd 0 4 (· + BitVec.ofNat 32 fec.uncorrectable) (upd 0 3 (· + BitVec.ofNat 32 fec.corrected) g.cnt) })) ∧
  (∀ (l : Fin 20) (s : State) (g : Gate), s.settled = true → s.canon = true → g = s.gate l → g.state = .up →
    (∀ b n fec, g.rxSlot ≤ n → dataSlot n = true → g.lost = false → fec.hit = true ∨ hcrcOk b = false → g.nakPend = false →
      ∃ g', exec (.headerCrcFail l b ⟨n, fec⟩) s = .next (s.setGate l g') ∧
        g' = { g with lost := true, hdrAt := none, nakPend := true, nakSeq := g.ers, nakId := g.nakId + 1, rxSlot := n + 1, laneErr := g'.laneErr,
                      cnt := upd 0 1 (· + 1) (upd 0 4 (· + BitVec.ofNat 32 fec.uncorrectable) (upd 0 3 (· + BitVec.ofNat 32 fec.corrected) g.cnt)) }) ∧
    (s.clk.inStop = 0 → s.mantelOff = false → g.phold = false → g.replay ≠ [] → g.rnum ≠ 8 →
      exec (.replayTimeout l) s = .next (s.setGate l { g with resend := g.replay, rnum := g.rnum + 1, cnt := upd 0 2 (· + 1) g.cnt })) ∧
    (s.clk.inStop = 0 → s.mantelOff = false → g.phold = false → g.replay ≠ [] → g.rnum = 8 →
      ∃ s', exec (.replayTimeout l) s = .next s' ∧ (s'.gate l).state = (if g.disDue then .down else .broken) ∧ (s'.gate l).brk = 1))

/-- LINK_PACKET_RECEIVE (R270, R289, R297, R325): each packet occupies its data slots, and the FEC's report is counted; an IDLE changes nothing more; the
reliable packet that is expected, with good checks and room, advances ERS and waits in its VC's buffer; an earlier one is discarded; one out of sequence
makes the receiver NAK-pending; one of another partition is discarded and counted. -/
def Obligations.PacketsReceived : Prop :=
  ∀ (l : Fin 20) (b : Bytes) (n : Nat) (fec : FecReport) (s : State) (g g1 : Gate) (p : Packet), s.settled = true → s.canon = true → g = s.gate l → g.state = .up → g.lost = false →
    g.rxSlot ≤ n → dataSlot n = true → fec.hit = false → hcrcOk b = true → 64 ≤ b.length → b.length = 64 * (1 + hdrFlits b) → p = parsePacket b →
    g1 = { g with rxSlot := slotAfter n (hdrFlits b) + 1, hdrAt := none, cnt := upd 0 4 (· + BitVec.ofNat 32 fec.uncorrectable) (upd 0 3 (· + BitVec.ofNat 32 fec.corrected) g.cnt),
                  laneErr := fec.lanes.zipIdx.foldl (fun m e => upd 0 e.2 (· + BitVec.ofNat 32 e.1) m) g.laneErr } →
    (isIdle b = true → exec (.linkPacketReceive l b ⟨n, fec⟩) s = .next (s.setGate l g1)) ∧
    (isIdle b = false → p.vc ≠ 5 → BitVec.ofNat 12 p.seq = g.ers → pcrcOk b = true → g.room p = true → p.part = s.rt.part → p.part ≠ 0xF → p.malformed = false →
      ∃ s', exec (.linkPacketReceive l b ⟨n, fec⟩) s = .next s' ∧ s' = { s with gates := s'.gates, stk := { s.stk with progress := s'.stk.progress } } ∧
        s'.gate l = { g1 with ers := g.ers + 1, nakPend := false, rx := upd [] p.vc (· ++ [p]) g.rx } ∧ ∀ k, k ≠ l.val → s'.gate k = s.gate k) ∧
    (isIdle b = false → p.vc ≠ 5 → BitVec.ofNat 12 p.seq = g.ers → pcrcOk b = true → g.room p = true → p.part ≠ s.rt.part → p.part ≠ 0xF →
      exec (.linkPacketReceive l b ⟨n, fec⟩) s = .next { s.setGate l { g1 with ers := g.ers + 1, nakPend := false } with rt := { s.rt with pdrop := s.rt.pdrop + 1 } }) ∧
    (isIdle b = false → p.vc ≠ 5 → 2048 ≤ (BitVec.ofNat 12 p.seq - g.ers).toNat → exec (.linkPacketReceive l b ⟨n, fec⟩) s = .next (s.setGate l g1)) ∧
    (isIdle b = false → p.vc ≠ 5 → 0 < (BitVec.ofNat 12 p.seq - g.ers).toNat → (BitVec.ofNat 12 p.seq - g.ers).toNat < 2048 → g.nakPend = false →
      exec (.linkPacketReceive l b ⟨n, fec⟩) s = .next (s.setGate l { g1 with nakPend := true, nakSeq := g.ers, nakId := g.nakId + 1 }))

/-- PACKET_TRANSMIT (R270, R277, R286, R288, R291, R298): where a control slot is due, the gate's control flit goes first; in the data slot a replay in
progress goes on with its oldest packet; otherwise the first VC in the order of R298 whose head packet has credit and replay room sends it, with the next
sequence number, and a reliable packet stays in the replay buffer; with nothing to send, and in HOLD, the slot carries an IDLE, which is one flit. -/
def Obligations.PacketsSent : Prop :=
  ∀ (l : Fin 20) (s : State) (g : Gate), s.settled = true → s.canon = true → g = s.gate l →
    (g.accepts = true → dataSlot g.txSlot = false → g.pnarrow = false →
      exec (.packetTransmit l) s = exec (.packetTransmit l) { s.setGate l { g with txSlot := g.txSlot + 1, narrowSent := g.narrowReq } with out := s.out ++ [.flit l g.txSlot (g.controlBytes g.txSlot 0)] }) ∧
    (dataSlot g.txSlot = true →
      (g.state = .hold → exec (.packetTransmit l) s = .next { s.setGate l { g with txSlot := g.txSlot + 1 } with out := s.out ++ [.flit l g.txSlot idleBytes] }) ∧
      (∀ p rest, g.state = .up ∨ g.state = .drain → g.resend = p :: rest → exec (.packetTransmit l) s = .next ((s.setGate l { g with resend := rest }).sendBytes l (packetBytes p))) ∧
      (g.state = .up → g.resend = [] → (∀ v : Fin 8, g.sendable v = none) →
        exec (.packetTransmit l) s = .next { s.setGate l { g with txSlot := g.txSlot + 1 } with out := s.out ++ [.flit l g.txSlot idleBytes] }) ∧
      ((∀ k : Fin 20, (s.gate k).upOrHold = true ∧ SMapWf ([] : List Waiting) (s.gate k).waiting = true ∧ ∀ v : Fin 8, ∀ w ∈ get [] v (s.gate k).waiting, w.exit = none) → g.state = .up → g.resend = [] → ∀ v p,
        (g.sendOrder.findSome? fun v => (g.sendable v).map fun p => (v, p)) = some (v, p) →
        (v ≠ 5 → exec (.packetTransmit l) s = .next ((s.setGate l { g with waiting := upd [] v List.tail g.waiting, rr := if v = 3 ∨ v = 1 then g.rr else (rrPlace v + 1) % 6, nts := g.nts + 1, replay := g.replay ++ [{ p with seq := g.nts.toNat }] }).sendBytes l (packetBytes { p with seq := g.nts.toNat }))) ∧
        (v = 5 → ¬(p.op = opDfetch ∧ p.sunit = sunitTransport ∧ p.src = s.rt.chip) →
          exec (.packetTransmit l) s = .next ((s.setGate l { g with waiting := upd [] 5 List.tail g.waiting, rr := 4, nds := g.nds + 1, dgOut := g.dgOut ++ [(g.nds.toNat, p.flitCount)] }).sendBytes l (packetBytes { p with seq := g.nds.toNat })))))

/-- WRITE and READ (R105, R229, R296, R300): an access that is judged good becomes loads that wait at the gate for its mover slots while the packet keeps
its place, and whose lines together are those of the packet, each for the packet's tenant; one that is refused outside CSR space changes nothing but
that a RESP with the code leaves for its source; one behind a WRITE of its sender that has not been placed yet waits. RESP (R96, R285, R301): a
response that a mover's operation awaits travels to the mover's bridge; there an OK acknowledgement ends the operation, and any other status also becomes
its descriptor's reason unless it has one; one of a wrong length is counted as malformed, and one that matches nothing changes nothing. -/
def Obligations.RemoteAccesses : Prop :=
  (∀ (l : Fin 20) (v : Fin 8) (s : State) (p : Packet) (rest : List Packet) (g : Gate), s.settled = true → s.canon = true → SMapWf ({} : Remote) s.remote = true →
    p.src ≠ s.rt.chip → g = s.gate l →
    (s.behindWrite p = true → (s.rxHead l v opWrite p rest → exec (.write l v) s = .next s) ∧ (s.rxHead l v opRead p rest → exec (.read l v) s = .next s)) ∧
    (s.behindWrite p = false → s.rxHead l v opWrite p rest → s.judgeAccess p.tenant p.addr p.flits.length true = 0 → p.flits ≠ [] → (∀ f ∈ p.flits, f.1.length = 64) →
      ∃ (s' : State) (ls : List Load), exec (.write l v) s = .next s' ∧ s' = { s.setGate l { g with moving := put [] v ls g.moving } with remote := s'.remote, nextRemote := s.nextRemote + 1 } ∧
        get {} s.nextRemote s'.remote = { pkt := p, link := l, left := ls.length } ∧ ls.flatMap (fun x => x.data) = p.flits.flatMap (fun f => f.1) ∧
        (ls.map fun x => x.lines).sum = p.flits.length ∧ ∀ x ∈ ls, x.kind = .write ∧ x.tenant = p.tenant ∧ (s.kindAt p.addr < 3 → x.lines ≤ 4)) ∧
    (s.behindWrite p = false → s.rxHead l v opRead p rest → s.judgeAccess p.tenant p.addr p.arg0 false = 0 → 0 < p.arg0 →
      ∃ (s' : State) (ls : List Load), exec (.read l v) s = .next s' ∧ s' = { s.setGate l { g with moving := put [] v ls g.moving } with remote := s'.remote, nextRemote := s.nextRemote + 1 } ∧
        get {} s.nextRemote s'.remote = { pkt := p, link := l, left := ls.length } ∧ (ls.map fun x => x.lines).sum = p.arg0 ∧
        ∀ x ∈ ls, x.kind = .readReq ∧ x.tenant = p.tenant ∧ (s.kindAt p.addr < 3 → x.lines ≤ 4)) ∧
    ∀ c n w, c ≠ 0 → s.kindAt p.addr ≠ 3 → s.behindWrite p = false → s.exitFor 1 p.src 1 = some (n, w) →
      (s.rxHead l v opWrite p rest → s.judgeAccess p.tenant p.addr p.flits.length true = c → exec (.write l v) s = .next ((s.taken l v rest).carry l n w { op := opResp, vc := 1, dst := p.src, src := s.rt.chip, part := p.part, tenant := p.tenant, hops := s.rt.hopLimit, tag := p.tag, sunit := p.sunit, status := c })) ∧
      (s.rxHead l v opRead p rest → s.judgeAccess p.tenant p.addr p.arg0 false = c → exec (.read l v) s = .next ((s.taken l v rest).carry l n w { op := opResp, vc := 1, dst := p.src, src := s.rt.chip, part := p.part, tenant := p.tenant, hops := s.rt.hopLimit, tag := p.tag, sunit := p.sunit, status := c }))) ∧
  (∀ (l : Fin 20) (v : Fin 8) (s : State) (p : Packet) (rest : List Packet) (g : Gate) (q m : Nat) (mv : Mover), s.settled = true → s.canon = true → g = s.gate l →
    s.rxHead l v opResp p rest → s.behindWrite p = false → p.sunit / 32 = 1 → q = p.sunit % 32 / 8 → m = p.sunit % 8 → mv = s.mover q m →
    (mv.q.findSome? (fun d => d.ops.find? fun o => o.id == p.tag) = none → exec (.resp l v) s = .next (s.taken l v rest)) ∧
    (∀ o, mv.q.findSome? (fun d => d.ops.find? fun o => o.id == p.tag) = some o →
      (p.status = 0 ∧ p.flits.length ≠ (if o.reading then o.len / 64 else 0) → exec (.resp l v) s = .next (s.setGate l { (s.taken l v rest).gate l with cnt := upd 0 7 (· + 1) g.cnt })) ∧
      (p.status ≠ 0 ∨ p.flits.length = (if o.reading then o.len / 64 else 0) → exec (.resp l v) s = .next (s.setGate l { g with moving := put [] v [respLoad l q m p.tag p] g.moving })))) ∧
  (∀ (src : Fin 5) (q : Fin 4) (m : Fin 8) (s : State) (ld : Load) (tag : Nat), s.settled = true → s.canon = true → s.mantelOff = false → s.spineTurn = some src.val →
    (s.spineOut src).find? (fun z => z.dq == q.val) = some ld → (s.range q).halted = false → (s.range q).brIn.length < 64 → (∀ x ∈ (s.range q).brIn, x.ds ≠ 0) → ld.ds = 0 → ld.kind = .ack → ld.org = .mover q m tag →
    ∃ s', exec (.spineDelivery src (q.castSucc)) s = .next s' ∧ s'.mem = s.mem ∧ s'.hobs = s.hobs ∧
      (s'.mover q m).q = (s.mover q m).q.map fun d => if (d.ops.any fun o => o.id == tag) = true then
        { d with ops := d.ops.filter fun o => o.id != tag, err := if ld.status = 0 then d.err else some (d.err.getD ld.status) } else d)

/-- DWRITE, DFETCH and DMSG (R229, R251, R294, R556): a datagram write into one block of its tenant's staging area stands in memory and makes the block
PROVISIONAL, one to a CONFIRMED block is dropped and counted; a datagram without a place or a permission is dropped and counted; a good fetch starts as
reads and is counted; the first packet of a message takes its slot, and a later one adds its lines, as for MSG; a message that its channel refuses is
counted there and answered by nothing. Each waits behind a WRITE of its sender that has not been placed yet. -/
def Obligations.Datagrams : Prop :=
  ∀ (l : Fin 20) (v : Fin 8) (s : State) (p : Packet) (rest : List Packet) (g : Gate) (x : Channel), s.settled = true → s.canon = true → g = (s.taken l v rest).gate l → x = s.chan p.channel →
    SMapWf ((0, 0) : Nat × Nat) s.stage = true → SMapWf ({} : Channel) s.flg.chans = true → SMapWf ({} : Remote) s.remote = true →
    (s.behindWrite p = true → (s.rxHead l v opDwrite p rest → exec (.dwrite l v) s = .next s) ∧ (s.rxHead l v opDfetch p rest → exec (.dfetch l v) s = .next s) ∧
      (s.rxHead l v opDmsg p rest → exec (.dmsg l v) s = .next s)) ∧
    (s.behindWrite p = false →
      (∀ a, s.rxHead l v opDwrite p rest → s.stagingArea p.addr = some a → a.tenant = p.tenant → p.addr / 0x10000 = (p.addr + 64 * p.flits.length - 1) / 0x10000 →
        (get (0, 0) (p.addr / 0x10000) s.stage).1 ≠ 2 → (∀ f ∈ p.flits, f.1.length = 64 ∧ f.2 = false) → p.addr + 64 * p.flits.length ≤ 4 * hbmQuarter →
        ∃ s', exec (.dwrite l v) s = .next s' ∧ readBytes s'.mem p.addr (64 * p.flits.length) = p.flits.flatMap (fun f => f.1) ∧ (get (0, 0) (p.addr / 0x10000) s'.stage).1 = 1 ∧
          (∀ b, b < p.addr ∨ p.addr + 64 * p.flits.length ≤ b → readByte s'.mem b = readByte s.mem b) ∧ s'.hobs = s.hobs ∧ s'.flg = s.flg ∧ s'.stk = s.stk) ∧
      (∀ a, s.rxHead l v opDwrite p rest → s.stagingArea p.addr = some a → a.tenant = p.tenant → p.addr / 0x10000 = (p.addr + 64 * p.flits.length - 1) / 0x10000 →
        (get (0, 0) (p.addr / 0x10000) s.stage).1 = 2 →
        exec (.dwrite l v) s = .next ((s.taken l v rest).setStn (p.addr / hbmQuarter) { s.stn (p.addr / hbmQuarter) with stgdrop := (s.stn (p.addr / hbmQuarter)).stgdrop + 1 })) ∧
      (s.rxHead l v opDwrite p rest → s.stagingArea p.addr = none → exec (.dwrite l v) s = .next (s.setGate l { g with cnt := upd 0 10 (· + 1) g.cnt })) ∧
      (s.rxHead l v opDfetch p rest → isHbm p.addr = false ∨ p.addr % 64 ≠ 0 ∨ s.inSharedArea p.tenant p.addr (64 * p.arg0) = false →
        exec (.dfetch l v) s = .next (s.setGate l { g with cnt := upd 0 10 (· + 1) g.cnt })) ∧
      (s.rxHead l v opDfetch p rest → isHbm p.addr = true → p.addr % 64 = 0 → s.inSharedArea p.tenant p.addr (64 * p.arg0) = true → 0 < p.arg0 →
        ∃ (s' : State) (ls : List Load), exec (.dfetch l v) s = .next s' ∧ s' = { s.setGate l { s.gate l with cnt := upd 0 11 (· + 1) g.cnt, moving := put [] v ls (s.gate l).moving } with remote := s'.remote, nextRemote := s.nextRemote + 1 } ∧
          get {} s.nextRemote s'.remote = { pkt := p, link := l, left := ls.length } ∧ (ls.map fun x => x.lines).sum = p.arg0 ∧ ∀ x ∈ ls, x.kind = .readReq ∧ x.tenant = p.tenant) ∧
      (s.rxHead l v opDmsg p rest → p.moffset = 0 → (x.everOpen = true → p.flits.length ≤ p.mlines) → s.judgeMsg x (some p.tenant) p.mlines ≠ 0 →
        exec (.dmsg l v) s = .next ((s.taken l v rest).setChan p.channel (x.countRefusal (s.judgeMsg x (some p.tenant) p.mlines))) ∧
        (s.judgeMsg x (some p.tenant) p.mlines = 2 → x.countRefusal 2 = { x with dropClosed := x.dropClosed + 1 })) ∧
      (s.rxHead l v opDmsg p rest → p.moffset = 0 → p.flits.length ≤ p.mlines → s.judgeMsg x (some p.tenant) p.mlines = 0 → (∀ f ∈ p.flits, f.2 = false) →
        exec (.dmsg l v) s = .next { (s.taken l v rest).setChan p.channel { x with ac := x.ac + 1, accepted := x.accepted + 1, msgs := x.msgs ++ [{ slot := x.ac.toNat % x.slots, mlines := p.mlines, src := p.src, unit := p.sunit, tag := p.tag, num := x.ac.toNat, got := List.range p.flits.length }] } with
          mantelOut := s.mantelOut ++ lineLoads (x.slotAddr x.ac.toNat) x.tenant (fun k n => .ring p.channel x.ac.toNat k n) p.flits }) ∧
      (s.rxHead l v opDmsg p rest → p.moffset ≠ 0 →
        (x.msgs.find? (fun m => m.src == p.src && m.unit == p.sunit && m.tag == p.tag && !m.whole) = none → exec (.dmsg l v) s = .next ((s.taken l v rest).setChan p.channel { x with dropOther := x.dropOther + 1 })) ∧
        (∀ m, x.msgs.find? (fun m => m.src == p.src && m.unit == p.sunit && m.tag == p.tag && !m.whole) = some m → p.moffset + p.flits.length ≤ m.mlines → (∀ f ∈ p.flits, f.2 = false) →
          exec (.dmsg l v) s = .next { (s.taken l v rest).setChan p.channel { x with msgs := updFirst (fun m => m.src == p.src && m.unit == p.sunit && m.tag == p.tag && !m.whole) (fun m => m.take p.moffset p.flits.length) x.msgs } with
            mantelOut := s.mantelOut ++ lineLoads (x.slotAddr m.slot + 64 * p.moffset) x.tenant (fun k n => .ring p.channel m.num (p.moffset + k) n) p.flits })))

/-- TRANSIT and DATAGRAM_TRANSIT_TIMEOUT (R105, R316, R317, R319): a packet for another chip with hops left leaves, with one hop less, for the transit queue
of its exit when that queue has room: at once where the exit is its own gate, else in a load for which the other gate keeps the room; it waits when there
is none, and is discarded and counted with no hops left; a datagram whose wait has timed out is discarded and counted. PING, PONG, RESULT, LINK_DISABLE
and LINK_ENABLE of MGMT (R328): each is counted; a PING is answered with PONG, and a command that Table 10.4 does not allow with RESULT; a PONG or RESULT
is recorded; a disable or enable is answered with its code, and an accepted one disables the link from its quarter's next seam, or enables it. -/
def Obligations.FabricTransit : Prop :=
  (∀ (l : Fin 20) (v : Fin 8) (s : State) (p : Packet) (rest : List Packet) (n w : Nat), s.settled = true → s.canon = true →
    get [] v (s.gate l).rx = p :: rest → get [] v (s.gate l).moving = [] → p.dst ≠ s.rt.chip → s.chooseExit p = some (n, w) →
    ((s.range (l / 5)).halted = false →
      (p.hops ≠ 0 → (s.gate n).transitCount w < 8 → n = l.val → exec (.transit l v) s = .next ((s.taken l v rest).enqueue n w .transit { p with hops := p.hops - 1 })) ∧
      (p.hops ≠ 0 → (s.gate n).transitCount w < 8 → n ≠ l.val →
        exec (.transit l v) s = .next ((s.setGate n { s.gate n with coming := upd 0 w (· + 1) (s.gate n).coming }).setGate l { s.gate l with moving := put [] v [packetLoad n w .transit { p with hops := p.hops - 1 }] (s.gate l).moving })) ∧
      (p.hops ≠ 0 → 8 ≤ (s.gate n).transitCount w → exec (.transit l v) s = .next s) ∧
      (p.hops = 0 → exec (.transit l v) s = .next { s.taken l v rest with rt := { s.rt with hopdrop := s.rt.hopdrop + 1 } })) ∧
    (v = 5 → s.clk.inStop = 0 → s.mantelOff = false → (s.gate l).state ≠ .hold → (s.gate n).state ≠ .hold → 8 ≤ (s.gate n).transitCount w →
      exec (.datagramTransitTimeout l) s = .next { s.taken l v rest with rt := { s.rt with dgwait := s.rt.dgwait + 1 } })) ∧
  (∀ (l : Fin 20) (v : Fin 8) (s s1 : State) (p : Packet) (rest : List Packet) (n w k : Nat) (reply : Bytes → State), s.settled = true → s.canon = true → s.rxHead l v opMgmt p rest →
    p.flits ≠ [] → p.src ≠ s.rt.chip → s.exitFor 3 p.src 3 = some (n, w) → k = le p.flit0 1 1 → s1 = { s.taken l v rest with rt := { s.rt with mgmt := s.rt.mgmt + 1 } } →
    reply = (fun b => { s1 with mantelOut := s.mantelOut ++ [packetLoad n w .own { op := opMgmt, vc := 3, dst := p.src, src := s.rt.chip, part := 0xF, hops := s.rt.hopLimit, tag := p.tag, sunit := sunitService, flits := [(b, false)] }] }) →
    (le p.flit0 0 1 = 1 → mgmtClean p.flit0 false = true → exec (.ping l v) s = .next (reply s.pongFlit)) ∧
    ((le p.flit0 0 1 = 1 ∧ mgmtClean p.flit0 false = false) ∨ le p.flit0 0 1 = 0 ∨ 5 < le p.flit0 0 1 → exec (.ping l v) s = .next (reply (mgmtFlit 5 k 3 s.rt.part [] 0))) ∧
    (le p.flit0 0 1 = 2 → exec (.pong l v) s = .next { s1 with svc := { s.svc with mgmtLog := s.svc.mgmtLog ++ [p.flit0] } }) ∧
    (le p.flit0 0 1 = 5 → exec (.result l v) s = .next { s1 with svc := { s.svc with mgmtLog := s.svc.mgmtLog ++ [p.flit0] } }) ∧
    (le p.flit0 0 1 = 3 → mgmtClean p.flit0 true = true → s.judgeDisable k ≠ 0 → exec (.mgmtLinkDisable l v) s = .next (reply (mgmtFlit 5 k (s.judgeDisable k) s.rt.part [] 0))) ∧
    (le p.flit0 0 1 = 3 → mgmtClean p.flit0 true = true → s.judgeDisable k = 0 → (s.gate k).upOrHold = true →
      exec (.mgmtLinkDisable l v) s = .next ((reply (mgmtFlit 5 k 0 s.rt.part [] 0)).setGate k { (s.taken l v rest).gate k with disPend := true })) ∧
    (le p.flit0 0 1 = 4 → mgmtClean p.flit0 true = true → s.judgeEnable k = 0 →
      ∃ s', exec (.mgmtLinkEnable l v) s = .next s' ∧ (s'.gate k).en = true ∧ (s'.gate k).trainLogged = false ∧
        (s'.gate k).state = (if (s.gate k).state = .down ∧ (s.gate k).rested = true ∧ s.mayTrain = true then .train else (s.gate k).state) ∧
        s'.mantelOut = (reply (mgmtFlit 5 k 0 s.rt.part [] 0)).mantelOut ∧ s'.mem = s.mem ∧ s'.ranges = s.ranges) ∧
    (le p.flit0 0 1 = 4 → mgmtClean p.flit0 true = true → s.judgeEnable k ≠ 0 → exec (.mgmtLinkEnable l v) s = .next (reply (mgmtFlit 5 k (s.judgeEnable k) s.rt.part [] 0))) ∧
    (mgmtClean p.flit0 true = false → (le p.flit0 0 1 = 3 → exec (.mgmtLinkDisable l v) s = .next (reply (mgmtFlit 5 k 3 s.rt.part [] 0))) ∧
      (le p.flit0 0 1 = 4 → exec (.mgmtLinkEnable l v) s = .next (reply (mgmtFlit 5 k 3 s.rt.part [] 0)))))

/-- POST_WORK_REQUEST, POST_RECEIVE and POST_TRIGGERED (R345, R346, R348, R363, R373): a line that is judged good is taken: a work request stands at the
tail of its send queue and in the ring, a receive joins its match list, a triggered entry waits on its counter; each is acknowledged with OK, and one
that is refused only with its code. A line posted to a queue pair in ERROR is acknowledged and joins no queue: it completes at once. -/
def Obligations.Posts : Prop :=
  ∀ (s s1 : State) (k n : Nat) (f : Load → Bool) (ld : Load) (x : Qp) (ack : Load) (b : Bytes), s.settled = true → s.canon = true → s.mantelOff = false →
    SMapWf ({} : Qp) s.trn.qps = true → f = (fun l => inPostWindow l.addr && (match postTarget l.addr with | some t => t.2 == k | none => false)) →
    s.mantel.find? f = some ld → s1 = { s with mantel := s.mantel.eraseP f } → n = (ld.addr - postWindow) / 0x100 → x = s.qp n → b = ld.data.take 64 ++ (if ld.poi.any id then [1] else []) →
    ack = { ld with kind := .ack, dq := ld.sq, ds := ld.ss, sq := 4, ss := 0, data := [], poi := [], status := s1.judgePost ld.tenant ld.addr ld.lines ld.data } →
    (ack.status = 0 → k = 0 → x.state ≠ 4 → ld.data.length = 64 → x.sqbase + (x.sqTail % x.sqdepth) * 64 + 64 ≤ 4 * hbmQuarter →
      ∃ s', exec .postWorkRequest s = .next s' ∧ s'.qp n = { x with sq := x.sq ++ [b], sqTail := x.sqTail + 1 } ∧
        (ld.poi.any id = false → readBytes s'.mem (x.sqbase + (x.sqTail % x.sqdepth) * 64) 64 = ld.data ∧ s'.mantelOut = s.mantelOut ++ [ack]) ∧ s'.mantel = s1.mantel ∧ s'.hobs = s.hobs) ∧
    (ack.status = 0 → k = 1 → x.state ≠ 4 → (s.trn.msgs.find? fun m => m.recv.isNone && m.list == x.matchlist && (m.tag ^^^ rvTag b) &&& rvMask b == 0) = none →
      exec .postReceive s = .next { s1 with trn := { s.trn with nextId := s.trn.nextId + 1, recvs := s.trn.recvs ++ [{ id := s.trn.nextId, qpn := n, list := x.matchlist, raw := b }] }, mantelOut := s.mantelOut ++ [ack] }) ∧
    (ack.status = 0 → k = 2 → x.state ≠ 4 → (∀ e ∈ s.trn.trigs ++ [(n, b)], wrTrig e.2 = wrTrig b → (get (0 : Word) (wrTrig b) s.trn.cnt).toNat < wrThresh e.2) →
      exec .postTriggered s = .next { s1 with trn := { s.trn with trigs := s.trn.trigs ++ [(n, b)] }, mantelOut := s.mantelOut ++ [ack] }) ∧
    (ack.status = 0 → x.state = 4 → s.trn.trigs = [] → ∀ c, (c, k) ∈ [(Instr.postWorkRequest, 0), (.postReceive, 1), (.postTriggered, 2)] →
      ∃ (s' : State) (ls : List Load), exec c s = .next s' ∧ s'.qp n = x ∧ s'.trn.recvs = s.trn.recvs ∧ s'.trn.trigs = [] ∧ s'.mantelOut = s.mantelOut ++ ls ++ [ack] ∧ s'.mem = s.mem ∧ s'.hobs = s.hobs) ∧
    (ack.status ≠ 0 → ∀ c, (c, k) ∈ [(Instr.postWorkRequest, 0), (.postReceive, 1), (.postTriggered, 2)] → exec c s = .next { s1 with mantelOut := s.mantelOut ++ [ack] })

/-- WR_SEND, WR_PUT, WR_GET, WR_FLUSH and WR_CHPOST (R338, R347, R353, R354, R359, R366): the engine takes the work request at the head of its send queue,
and where the window has room its first packet leaves the port with FIRST set, the next PSN, and the data of its source; a request whose local key is
refused sends nothing. PREFETCH, REVOKE, WR_ARM, CNT_ADD, CNT_SET and FLAG_ADD (R356, R357, R358): the request leaves its send queue and has its
effect: the datagram fetch leaves the mantel for the gate of its exit, the region is CLOSING, the entry has one arming more, the counter or the flag its new value. -/
def Obligations.TransportWork : Prop :=
  (∀ (q : Fin 16384) (c : Instr) (k : Nat) (s : State) (x : Qp) (r : Bytes) (rest : List Bytes) (n : Nat), s.settled = true → s.canon = true →
    SMapWf ({} : Qp) s.trn.qps = true → (c, k) ∈ [(Instr.wrSend q, 1), (.wrPut q, 2), (.wrGet q, 3), (.wrFlush q, 4), (.wrChpost q, 5)] →
    q.val ≠ 0 → s.transportOff = false → s.mayTake q k = true → x = s.qp q → x.sq = r :: rest → wrCntEn r = false →
    (k = 4 ∨ s.judgeKey (wrLkey r) x.tenant x.pd 2 (wrLoff r) (wrLen r) = 0 → (k = 1 ∨ k = 2 ∨ k = 5 → (s.opData x r 0).2 = false) → x.rnrWait = none → x.toSend = none →
      n = (if k = 3 then x.packets (wrLen r) else 1) → (x.npsn - x.una).toNat + n ≤ 256 → (s.iface x.iface).up = true → x.maxPay ≤ 4096 →
      ∃ s' more, exec c s = .next s' ∧ s'.out = s.out ++ .frame x.iface (withFcs (bfFrame (s.iface x.iface) s.trn.port x.ipv6 x.peerIp x.dscp { ackreq := decide (1 = (if k = 1 ∨ k = 2 then x.packets (wrLen r) else 1) ∨ (x.npsn - x.una).toNat = 127), first := true, last := decide (1 = (if k = 1 ∨ k = 2 then x.packets (wrLen r) else 1)), opc := kindOpc k, part := x.part, tenant := x.tenant, dqpn := x.peerQp.getD 0, sqpn := q, psn := x.npsn, ext := opExt x r 0, payload := if k = 1 ∨ k = 2 ∨ k = 5 then (s.opData x r 0).1 else [] })) :: more ∧
        ((s'.qp q).sq = rest ∨ (s'.qp q).state = 4) ∧ s'.hobs = s.hobs) ∧
    (k ≠ 4 → s.judgeKey (wrLkey r) x.tenant x.pd 2 (wrLoff r) (wrLen r) ≠ 0 → ∃ s', exec c s = .next s' ∧ s'.qp q = { x with sq := rest } ∧ s'.out = s.out ∧ s'.hobs = s.hobs ∧ s'.gates = s.gates)) ∧
  (∀ (q : Fin 16384) (s : State) (x : Qp) (r : Bytes) (rest : List Bytes) (a : Nat), s.settled = true → s.canon = true → s.transportOff = false → SMapWf ({} : Qp) s.trn.qps = true →
    s.trn.trigs = [] → x = s.qp q → x.sq = r :: rest → wrCntEn r = false → a = wrArg r →
    (s.mayTake q 0x11 = true → SMapWf (0 : Word) s.trn.cnt = true → ∃ s', exec (.cntAdd q) s = .next s' ∧ s'.qp q = { x with sq := rest } ∧
      get 0 a s'.trn.cnt = get 0 a s.trn.cnt + BitVec.ofNat 32 (wrVal r) ∧ (∀ c, c ≠ a → get 0 c s'.trn.cnt = get 0 c s.trn.cnt) ∧ s'.hobs = s.hobs ∧ s'.gates = s.gates) ∧
    (s.mayTake q 0x12 = true → SMapWf (0 : Word) s.trn.cnt = true → ∃ s', exec (.cntSet q) s = .next s' ∧ s'.qp q = { x with sq := rest } ∧
      get 0 a s'.trn.cnt = BitVec.ofNat 32 (wrVal r) ∧ (∀ c, c ≠ a → get 0 c s'.trn.cnt = get 0 c s.trn.cnt) ∧ s'.hobs = s.hobs ∧ s'.gates = s.gates) ∧
    (s.mayTake q 0x13 = true → wrPoi r = false → SMapWf (0 : Word) s.flg.val = true → s.mayUseFlag x.tenant a = true → ∃ s', exec (.flagAdd q) s = .next s' ∧ s'.qp q = { x with sq := rest } ∧
      s'.flag a = s.flag a + BitVec.ofNat 32 (wrVal r) ∧ (∀ c, c ≠ a → s'.flag c = s.flag c) ∧ s'.hobs = s.hobs ∧ s'.gates = s.gates) ∧
    (s.mayTake q 0x10 = true → SMapWf ({} : Entry) s.stk.entries = true → s.judgeArm a x.part x.tenant = 0 → ∃ s', exec (.wrArm q) s = .next s' ∧ s'.qp q = { x with sq := rest } ∧
      (s'.entry a).arms = (s.entry a).arms + 1 ∧ (s'.entry a).state = (if (s.entry a).state = .idle then .armed else (s.entry a).state) ∧ (∀ e, e ≠ a → s'.entry e = s.entry e)) ∧
    (s.mayTake q 7 = true → SMapWf ({} : Region) s.trn.regions = true → ∀ i g, i = wrRkey r / 65536 → g = s.region i → g.reg = true → g.gen = wrRkey r % 65536 → g.tenant = x.tenant → g.state ≠ 0 →
      exec (.revoke q) s = .next { s with trn := { s.trn with regions := put {} i { g with state := 2 } s.trn.regions, nextId := s.trn.nextId + 1, qps := put {} q { x with sq := rest, ops := x.ops ++ [{ id := s.trn.nextId % 65536, raw := r, psn := x.npsn, n := 1, sent := 1 }] } s.trn.qps } }) ∧
    (s.mayTake q 6 = true → ∀ ar n w, s.judgeKey (wrLkey r) x.tenant x.pd 2 (wrLoff r) (wrLen r) = 0 → s.stagingArea (s.keyAddr (wrLkey r) (wrLoff r)) = some ar → ar.tenant = x.tenant →
      ar.base ≤ (s.region (wrLkey r / 65536)).base % hbmQuarter → (s.region (wrLkey r / 65536)).base % hbmQuarter + (s.region (wrLkey r / 65536)).len ≤ ar.base + ar.len →
      a / 2 ^ 40 < 256 → a / 2 ^ 40 ≠ s.rt.chip → s.rt.unreach.getLsbD (a / 2 ^ 40) = false → s.exitFor 4 (a / 2 ^ 40) 5 = some (n, w) →
      ∃ s', exec (.prefetch q) s = .next s' ∧ (s'.qp q).sq = rest ∧ s'.mantelOut = s.mantelOut ++ [packetLoad n w .own { op := opDfetch, vc := 5, dst := a / 2 ^ 40, src := s.rt.chip, part := s.rt.part, hops := s.rt.hopLimit, tenant := x.tenant, tag := s.trn.nextId % 65536, sunit := sunitTransport, addr := a % 2 ^ 40, addr2 := s.keyAddr (wrLkey r) (wrLoff r), arg0 := wrLen r / 64 }] ∧
        s'.gates = s.gates ∧ s'.mem = s.mem ∧ s'.hobs = s.hobs ∧ s'.ranges = s.ranges))

/-- BF_SEND, BF_PUT, BF_GET, GETRSP, BF_FLUSH, BF_CHPOST, ACK, CONNECT and ACCEPT (R343, R344, R348, R352, R353, R354, R355, R366, R557): a packet that
its queue pair does not take is only counted in BF_DROPTAG. In order at a READY queue pair, each is accepted and EPSN advances by its PSNs; a PUT's
bytes and a matched SEND's stand where their keys say; an ACK frees the PSNs up to its APSN, and UNA's advance clears RETRIES; CONNECT and ACCEPT bind the pair and make it READY. -/
def Obligations.BeyfatrePackets : Prop :=
  ∀ (i : Fin 4) (b : Bytes) (ok : Bool) (s : State) (p : BfPkt) (x : Qp), s.settled = true → s.canon = true → SMapWf ({} : Qp) s.trn.qps = true → SMapWf ({} : Iface) s.trn.ifaces = true →
    s.trn.trigs = [] → s.receives i b ok = some (.bf p) → x = s.qp p.dqpn → p.payload.length ≤ x.maxPay ∨ p.opc = 6 →
    (∀ c k, (c, k) ∈ [(Instr.bfSend i b ok, 1), (.bfPut i b ok, 2), (.bfGet i b ok, 3), (.getrsp i b ok, 4), (.bfFlush i b ok, 5), (.bfChpost i b ok, 6), (.ack i b ok, 7), (.connect i b ok, 8), (.accept i b ok, 9)] →
      p.opc = k → s.qpTakes p = false → exec c s = .next { s with trn := { s.trn with ifaces := put {} i { s.iface i with rxfrm := (s.iface i).rxfrm + 1 } s.trn.ifaces, droptag := s.trn.droptag + 1 } }) ∧
    (s.qpTakes p = true → x.state = 3 → p.psn = x.epsn →
      (∀ a, p.opc = 2 → s.packetKey p (be p.ext 0 4) 0 (be p.ext 4 8) p.payload.length = 0 → a = s.keyAddr (be p.ext 0 4) (be p.ext 4 8) →
        ∃ s', exec (.bfPut i b ok) s = .next s' ∧ readBytes s'.mem a p.payload.length = p.payload ∧ (∀ d, d < a ∨ a + p.payload.length ≤ d → readByte s'.mem d = readByte s.mem d) ∧
          (s'.qp p.dqpn).epsn = x.epsn + 1 ∧ s'.hobs = s.hobs ∧ s'.gates = s.gates) ∧
      (∀ v others a, p.opc = 1 → p.dqpn ≠ 0 → p.first = true → p.last = true → be p.ext 8 4 ≤ 16777216 → be p.ext 12 4 = 0 → be p.ext 8 4 = p.payload.length → p.payload.length ≤ rvLen v.raw →
        takeRecv x.matchlist (be p.ext 0 8) s.trn.recvs = some (v, others) → v.qpn = p.dqpn → (∀ w ∈ s.trn.matched, w.id ≠ v.id) →
        s.judgeKey (rvLkey v.raw) x.tenant x.pd 2 (rvLoff v.raw) p.payload.length = 0 → a = s.keyAddr (rvLkey v.raw) (rvLoff v.raw) →
        ∃ s', exec (.bfSend i b ok) s = .next s' ∧ readBytes s'.mem a p.payload.length = p.payload ∧ s'.trn.recvs = others ∧ (s'.qp p.dqpn).epsn = x.epsn + 1 ∧
          (∃ w ∈ s'.trn.matched, w.id = v.id ∧ w.ready = true ∧ w.tag = be p.ext 0 8 ∧ w.mlen = p.payload.length) ∧ s'.hobs = s.hobs ∧ s'.gates = s.gates) ∧
      (p.opc = 3 → s.packetKey p (be p.ext 0 4) 1 (be p.ext 4 8) (be p.ext 12 4) = 0 →
        ∃ s', exec (.bfGet i b ok) s = .next s' ∧ ((s'.qp p.dqpn).epsn = x.epsn + BitVec.ofNat 32 (x.packets (be p.ext 12 4))) ∧ s'.hobs = s.hobs) ∧
      (p.opc = 5 → ∃ s', exec (.bfFlush i b ok) s = .next s' ∧ (s'.qp p.dqpn).epsn = x.epsn + 1 ∧ (s'.qp p.dqpn).sinceAck = 0 ∧ s'.mem = s.mem ∧ s'.hobs = s.hobs ∧ s'.gates = s.gates) ∧
      (p.opc = 6 → ∃ s', exec (.bfChpost i b ok) s = .next s' ∧ (s'.qp p.dqpn).epsn = x.epsn + 1 ∧ (s'.qp p.dqpn).sinceAck = 0 ∧ s'.hobs = s.hobs ∧ s'.gates = s.gates)) ∧
    (s.qpTakes p = true → x.state = 3 → p.opc = 7 → be p.ext 4 1 = 0 → (BitVec.ofNat 32 (be p.ext 0 4) - (x.una - 1)).toNat ≤ (x.npsn - x.una).toNat → (∀ o ∈ x.ops, o.acked = false) →
      ∃ s', exec (.ack i b ok) s = .next s' ∧ (s'.qp p.dqpn).una = BitVec.ofNat 32 (be p.ext 0 4) + 1 ∧ (BitVec.ofNat 32 (be p.ext 0 4) + 1 ≠ x.una → (s'.qp p.dqpn).retries = 0) ∧ s'.hobs = s.hobs ∧ s'.gates = s.gates) ∧
    (∀ o j a, s.qpTakes p = true → x.state = 3 → p.opc = 4 → x.opAt p.psn = some (o, j) → wrKind o.raw = 3 → x.ops.find? (fun z => wrKind z.raw == 3 && z.sent != 0 && !z.done) = some o → j = o.placed →
      s.judgeKey (wrLkey o.raw) x.tenant x.pd 2 (wrLoff o.raw + be p.ext 0 4) p.payload.length = 0 → a = s.keyAddr (wrLkey o.raw) (wrLoff o.raw + be p.ext 0 4) → wrCq o.raw = false → x.toSend = none → (∀ z ∈ x.ops, z.id = o.id → z = o) →
      ∃ s', exec (.getrsp i b ok) s = .next s' ∧ readBytes s'.mem a p.payload.length = p.payload ∧ s'.hobs = s.hobs ∧ s'.gates = s.gates) ∧
    (s.qpTakes p = true → x.state = 1 → p.opc = 8 → x.ops = [] →
      ∃ s', exec (.connect i b ok) s = .next s' ∧ s'.qp p.dqpn = { x with state := 3, peerIp := p.srcIp, peerQp := some p.sqpn, epsn := BitVec.ofNat 32 (be p.ext 0 4), boundBy := some (BitVec.ofNat 32 (be p.ext 0 4), be p.ext 4 1), paylog := min x.paylog0 (be p.ext 4 1) } ∧
        s'.mem = s.mem ∧ s'.hobs = s.hobs ∧ s'.gates = s.gates) ∧
    (s.qpTakes p = true → x.state = 2 → p.opc = 9 → p.dqpn ≠ 0 → x.ops = [] →
      ∃ s', exec (.accept i b ok) s = .next s' ∧ s'.qp p.dqpn = { x with state := 3, epsn := BitVec.ofNat 32 (be p.ext 0 4), paylog := min x.paylog0 (be p.ext 4 1) } ∧
        s'.mem = s.mem ∧ s'.hobs = s.hobs ∧ s'.gates = s.gates)

/-- ARP_REQUEST, NEIGHBOUR_SOLICITATION, ECHO_REQUEST, PAUSE_FRAME and RECEIVED_FRAME (R334, R335, R339): a request for an interface's address is answered
on it, but for an echo whose answer would exceed Table 11.2; a PAUSE is only counted; a frame that fails its checks is discarded and counted, and one of no other kind is only counted as received.
ETH_LINK_CHANGE, RECEIVE_COMPLETE, REGION_CLOSED, BF_RTO and RNR_DELAY (R336, R343, R349, R360, R368, R440): a port follows its link, and the first link
of the repository's interface begins the session; a receive whose bytes are placed leaves the matched ones and is counted on its counter; a CLOSING
region is CLOSED, and its registration goes where a REG_REMOVE waits for that; a retransmission timeout beyond RETRY puts the queue pair in ERROR, one
within it counts in RETRIES and resends, and one of a CONNECT repeats it; after RNR_DELAY the queue pair sends again. Each changes nothing where there
is nothing for it to act on. -/
def Obligations.EthernetEvents : Prop :=
  (∀ (i : Fin 4) (b : Bytes) (ok : Bool) (s : State) (x : Iface), s.settled = true → s.canon = true → SMapWf ({} : Iface) s.trn.ifaces = true → x = s.iface i → x.up = true →
    (∀ mac ip, s.receives i b ok = some (.arp mac ip) →
      exec (.arpRequest i b ok) s = .next { s.setIface i { x with rxfrm := x.rxfrm + 1, txfrm := x.txfrm + 1 } with out := s.out ++ [.frame i (withFcs (arpReply x mac ip))] }) ∧
    (∀ ip, s.receives i b ok = some (.solicit ip) →
      exec (.neighbourSolicitation i b ok) s = .next { s.setIface i { x with rxfrm := x.rxfrm + 1, txfrm := x.txfrm + 1 } with out := s.out ++ [.frame i (withFcs (naReply x ip))] }) ∧
    (∀ v6 ip m, s.receives i b ok = some (.echo v6 ip m) →
      ((echoReply x v6 ip m).length + 4 ≤ 4202 → exec (.echoRequest i b ok) s = .next { s.setIface i { x with rxfrm := x.rxfrm + 1, txfrm := x.txfrm + 1 } with out := s.out ++ [.frame i (withFcs (echoReply x v6 ip m))] }) ∧
      (4202 < (echoReply x v6 ip m).length + 4 → exec (.echoRequest i b ok) s = .next (s.setIface i { x with rxfrm := x.rxfrm + 1 }))) ∧
    ((∀ v6 ip m, s.receives i b ok ≠ some (.echo v6 ip m)) → exec (.echoRequest i b ok) s = .next s) ∧
    (s.receives i b ok = some .pause → exec (.pauseFrame i b ok) s = .next (s.setIface i { x with rxfrm := x.rxfrm + 1, pause := x.pause + 1 })) ∧
    (s.receives i b ok = some .fcs → exec (.receivedFrame i b ok) s = .next ((s.setIface i { x with rxfrm := x.rxfrm + 1, fcs := x.fcs + 1 }).dropHeader)) ∧
    (s.receives i b ok = some .bad → exec (.receivedFrame i b ok) s = .next ((s.setIface i { x with rxfrm := x.rxfrm + 1 }).dropHeader)) ∧
    (s.receives i b ok = some .other → exec (.receivedFrame i b ok) s = .next (s.setIface i { x with rxfrm := x.rxfrm + 1 }))) ∧
  (∀ (s : State), s.settled = true → s.canon = true → s.transportOff = false → s.clk.inStop = 0 → SMapWf ({} : Qp) s.trn.qps = true →
    (∀ (i : Fin 4) (up : Bool) (first : Prop), first = (up = true ∧ s.boot.step = 7 ∧ s.boot.failed = false ∧ s.bringsUp = true ∧ i.val = le s.repo 0 1) → (s.iface i).mode ≠ 0 → 7 ≤ s.boot.step →
      (¬first → exec (.ethLinkChange i up) s = .next (s.setIface i { s.iface i with up := up })) ∧
      (first → ∃ s', exec (.ethLinkChange i up) s = .next s' ∧ (s'.iface i).up = true ∧ s'.boot.step = 8 ∧ s'.boot.session = 1 ∧ (s'.qp 0).state = 2 ∧ s'.mem = s.mem ∧ s'.hobs = s.hobs ∧ s'.gates = s.gates)) ∧
    (∀ (i : Fin 4) (up : Bool), (s.iface i).mode = 0 ∨ s.boot.step < 7 → exec (.ethLinkChange i up) s = .next s) ∧
    (∀ id v, s.trn.matched.find? (fun v => v.id == id && v.ready) = some v →
      ∃ s', exec (.receiveComplete id) s = .next s' ∧ s'.trn.matched = (s.trn.matched.filter fun w => w.id != id) ∧ s'.hobs = s.hobs ∧
        (s.trn.trigs = [] → s'.trn = { s.trn with matched := s.trn.matched.filter fun w => w.id != id, cqdrop := s'.trn.cqdrop, cnt := if rvCntEn v.raw then upd 0 (rvCnt v.raw) (· + 1) s.trn.cnt else s.trn.cnt } ∧
          (rvCq v.raw = false → s'.mantelOut = s.mantelOut ∧ s'.flg = s.flg) ∧ s'.mem = s.mem ∧ s'.gates = s.gates)) ∧
    (∀ id, s.trn.matched.find? (fun v => v.id == id && v.ready) = none → exec (.receiveComplete id) s = .next s) ∧
    (∀ i : Fin 65536, SMapWf ({} : Region) s.trn.regions = true →
      ((s.region i).state = 2 → ∃ s', exec (.regionClosed i) s = .next s' ∧ s'.hobs = s.hobs ∧
        s'.region i = { s.region i with state := 0, reg := if s.boot.waits.any (fun w => w.1 == 1 && w.2.1 == i.val) then false else (s.region i).reg } ∧
        (s.trn.trigs = [] → (∀ k, k ≠ i.val → s'.region k = s.region k) ∧ s'.mem = s.mem ∧ s'.gates = s.gates)) ∧
      ((s.region i).state ≠ 2 → exec (.regionClosed i) s = .next s)) ∧
    (∀ (q : Fin 16384) (x y : Qp), x = s.qp q → y = { x with connTries := x.connTries + 1 } →
      ((x.state = 3 ∧ (x.una ≠ x.npsn ∨ x.lateGets ≠ []) ∧ x.retry < x.retries + 1) ∨ (x.state = 2 ∧ x.retry ≤ x.connTries + 1) →
        ∃ s', exec (.bfRto q) s = .next s' ∧ (s'.qp q).state = 4 ∧ (s'.qp q).errcode = 0x18 ∧ (s'.qp q).sq = [] ∧ (s'.qp q).ops = [] ∧ s'.hobs = s.hobs) ∧
      (x.state = 3 → x.una ≠ x.npsn ∨ x.lateGets ≠ [] → x.retries + 1 ≤ x.retry → (∀ o ∈ x.ops, o.acked = false) →
        ∃ s', exec (.bfRto q) s = .next s' ∧ (s'.qp q).retries = x.retries + 1 ∧ s'.hobs = s.hobs) ∧
      (x.state = 2 → x.connTries + 1 < x.retry → (s.iface x.iface).up = true →
        exec (.bfRto q) s = .next { (s.setQp q y).setIface x.iface { s.iface x.iface with txfrm := (s.iface x.iface).txfrm + 1 } with
          out := s.out ++ [.frame x.iface (withFcs (bfFrame (s.iface x.iface) s.trn.port x.ipv6 x.peerIp x.dscp { opc := 8, part := x.part, tenant := x.tenant, dqpn := x.peerQp.getD 0, sqpn := q, psn := x.npsn, ext := toBytesBE 4 x.ipsn.toNat ++ toBytesBE 1 x.paylog0 }))] }) ∧
      (x.state = 2 → x.connTries + 1 < x.retry → (s.iface x.iface).up = false →
        exec (.bfRto q) s = .next ((s.setQp q y).setIface x.iface { s.iface x.iface with txdrop := (s.iface x.iface).txdrop + 1 })) ∧
      ((x.state ≠ 2 ∧ x.state ≠ 3) ∨ (x.state = 3 ∧ x.una = x.npsn ∧ x.lateGets = []) → exec (.bfRto q) s = .next s)) ∧
    (∀ (q : Fin 16384) (x : Qp), x = s.qp q →
      (∀ c, x.state = 3 → x.rnrWait = some c → ∃ s', exec (.rnrDelay q) s = .next s' ∧ (s'.qp q).rnrWait = none ∧ s'.hobs = s.hobs) ∧
      (x.state ≠ 3 ∨ x.rnrWait = none → exec (.rnrDelay q) s = .next s)))

/-- WITNESS_WINDOW, CHANGEOVER, REFERENCE_LOST and REFERENCE_PRESENT (R385, R387, R388, R389, R390, R393): a window keeps the alternate's offset and
counts its run of disagreement, and decides a changeover only when both runs stand at ten and the alternate may be selected; a changeover selects the
other reference, and marks the one abandoned SUSPECT only where the witnesses decided it, and a relock does neither; the loss of the selected reference
starts holdover, and a changeover to the alternate is decided then or as soon as that can be; where none of these has anything to do, nothing changes. -/
def Obligations.References : Prop :=
  ∀ (s : State), s.settled = true → s.canon = true → s.svc.mirrorEn = false →
    (∀ (v : Int) (run : Nat), s.refInUse = true → s.fitted s.alternate = true → s.refPresent s.alternate = true → run = (if 1500 < v.natAbs then min 10 (s.clk.altRun + 1) else 0) →
      ∃ s', exec (.witnessWindow (some v) []) s = .next s' ∧ s'.clk.altOff = BitVec.ofInt 16 v ∧ s'.clk.altValid = true ∧ s'.clk.altRun = run ∧
        s'.clk.peerValid = decide (3 ≤ s.witnesses.length) ∧ s'.clk.witnesses = s.witnesses.length ∧
        s'.clk.pending = (if run = 10 ∧ s'.clk.peerRun = 10 ∧ s.altUsable = true ∧ s.clk.pending = 0 then 1 else s.clk.pending) ∧ s'.mem = s.mem ∧ s'.hobs = s.hobs ∧ s'.ranges = s.ranges ∧ s'.gates = s.gates) ∧
    (∀ trims : List (Fin 64 × Fin 64), s.mantelOff = true → s.svc.cause = 0 ∨ s.boot.step < 10 → SMapWf 0 s.clk.trimBridge = true → SMapWf 0 s.clk.trimStation = true →
      ∃ s', exec (.changeover trims) s = .next s' ∧ s'.clk.sel = (if s.clk.pending = 2 then s.clk.sel else 1 - s.clk.sel) ∧
        s'.clk.suspect = (if s.clk.pending = 1 then s.clk.suspect ||| BitVec.twoPow 2 s.clk.sel else s.clk.suspect) ∧ s'.clk.changeovers = min 255 (s.clk.changeovers + 1) ∧
        (s.refPresent s'.clk.sel = true → s'.clk.holdover = false ∧ s'.clk.pending = 0) ∧ (s.refPresent s'.clk.sel = false → s'.clk.holdover = true) ∧
        (∀ q : Fin 4, get 0 q s'.clk.trimBridge = (trims.getD q (0, 0)).1.val ∧ get 0 q s'.clk.trimStation = (trims.getD q (0, 0)).2.val) ∧ s'.mem = s.mem ∧ s'.hobs = s.hobs) ∧
    (∀ trims : List (Fin 64 × Fin 64), s.mantelOff = true → s.svc.cause ≠ 0 → 10 ≤ s.boot.step →
      ∃ s', exec (.changeover trims) s = .next s' ∧ s'.svc.mode = 4 ∧ s'.stk.claims = [] ∧ s'.clk.sel = (if s.clk.pending = 2 then s.clk.sel else 1 - s.clk.sel)) ∧
    (∀ r : Fin 2, s.refPresent r = true → r.val ≠ s.clk.sel → exec (.referenceLost r) s = .next { s with clk := { s.clk with present := s.clk.present &&& ~~~(BitVec.twoPow 2 r) } }) ∧
    (∀ r : Fin 2, s.refPresent r = true → r.val = s.clk.sel → s.refInUse = true →
      ∃ s', exec (.referenceLost r) s = .next s' ∧ s'.clk = { s.clk with present := s.clk.present &&& ~~~(BitVec.twoPow 2 r), holdover := true, pending := if s.clk.pending = 0 ∧ s.altUsable = true then 3 else s.clk.pending } ∧
        s'.svc.head = s.svc.head + 1 ∧ s'.mem = s.mem ∧ s'.hobs = s.hobs ∧ s'.ranges = s.ranges) ∧
    (∀ r : Fin 2, s.fitted r = true → (s.clk.holdover = false ∨ s.clk.pending ≠ 0) → exec (.referencePresent r) s = .next { s with clk := { s.clk with present := s.clk.present ||| BitVec.twoPow 2 r } }) ∧
    (∀ r : Fin 2, s.fitted r = true → s.clk.holdover = true → s.clk.pending = 0 → r.val = s.clk.sel →
      exec (.referencePresent r) s = .next { s with clk := { s.clk with present := s.clk.present ||| BitVec.twoPow 2 r, pending := 2 } }) ∧
    (∀ r : Fin 2, s.fitted r = true → s.clk.holdover = true → s.clk.pending = 0 → r.val = s.alternate → r.val ≠ s.clk.sel → s.refPresent s.clk.sel = false → s.clk.suspect.getLsbD r = false →
      exec (.referencePresent r) s = .next { s with clk := { s.clk with present := s.clk.present ||| BitVec.twoPow 2 r, pending := 3 } }) ∧
    (∀ r : Fin 2, (s.fitted r = false → exec (.referencePresent r) s = .next s) ∧ (s.refPresent r = false → exec (.referenceLost r) s = .next s)) ∧
    (s.refInUse = false → ∀ alt ppm, exec (.witnessWindow alt ppm) s = .next s) ∧
    (s.mantelOff = false → ∀ trims, exec (.changeover trims) s = .next s)

/-- AVS_ACK, AVS_ACK_TIMEOUT, IRAIL_READ, SMBALERT, SMBALERT_REPEAT, DAMPER_STEP, THERMTRIP, WATCHDOG and SERVICE_CORE_ERROR (R394, R400, R401, R403,
R406, R409, R413, R414, R461, R481): a write that is done and near is acknowledged; one that times out, a third NAK, a voltage that has left its place and
an alert with a fault bit are power faults, which abandon raises; an alert is read at the Alert Response Address and by STATUS_WORD and the commands it
flags, and cleared; a wall-time count acts only while the service core runs on its PLL; a sink moves one step; a hot sensor asserts THERMTRIP_N; a failure of
the service core is part-fatal; where none of these is due, nothing changes. -/
def Obligations.PowerResponses : Prop :=
  ∀ (s : State), s.settled = true → s.canon = true →
    (∀ (c mv : Nat) (vd : Bool), c = codeMv s.pwr.commanded → s.serving 5 = true →
      (s.pwr.writing = true → mv ≤ c + 15 ∧ c ≤ mv + 15 → (vd = true ∨ s.pwr.vdone = true) →
        exec (.avsAck 0 vd mv) s = .next { s with pwr := { s.pwr with readback := mv % 1024, naks := 0, vdone := true, acked := true, writing := false } }) ∧
      (s.pwr.writing = true → (vd = false ∧ s.pwr.vdone = false) ∨ c + 15 < mv ∨ mv + 15 < c →
        exec (.avsAck 0 vd mv) s = .next { s with pwr := { s.pwr with readback := mv % 1024, naks := 0, vdone := s.pwr.vdone || vd } }) ∧
      (s.pwr.writing = false → s.pwr.acked = false ∨ (mv ≤ c + 15 ∧ c ≤ mv + 15) → exec (.avsAck 0 vd mv) s = .next { s with pwr := { s.pwr with readback := mv % 1024, naks := 0 } }) ∧
      (s.pwr.writing = false → s.pwr.acked = true → c + 15 < mv ∨ mv + 15 < c →
        ∃ s', exec (.avsAck 0 vd mv) s = .next s' ∧ s'.pwr.fault = true ∧ s'.pwr.raise = 0 ∧ s'.pwr.readback = mv % 1024 ∧ s'.pwr.cause = (if s.pwr.cause = 0 then 3 else s.pwr.cause) ∧ s'.hobs = s.hobs) ∧
      ∀ a : Fin 4, a ≠ 0 →
        (s.pwr.writing = true → s.pwr.naks < 2 → exec (.avsAck a vd mv) s = .next { s with pwr := { s.pwr with naks := s.pwr.naks + 1 } }) ∧
        (s.pwr.writing = true → s.pwr.naks = 2 → ∃ s', exec (.avsAck a vd mv) s = .next s' ∧ s'.pwr.fault = true ∧ s'.pwr.raise = 0 ∧ s'.pwr.writing = false ∧
          s'.pwr.cause = (if s.pwr.cause = 0 then 2 else s.pwr.cause) ∧ s'.hobs = s.hobs) ∧
        (s.pwr.writing = false → exec (.avsAck a vd mv) s = .next s)) ∧
    (s.serving 5 = true → s.onPll = true → s.pwr.writing = true →
      ∃ s', exec .avsAckTimeout s = .next s' ∧ s'.pwr.fault = true ∧ s'.pwr.raise = 0 ∧ s'.pwr.writing = false ∧ s'.pwr.cause = (if s.pwr.cause = 0 then 1 else s.pwr.cause) ∧ s'.hobs = s.hobs) ∧
    (∀ a : Fin 1024, s.serving 5 = true → s.onPll = true → exec (.irailRead a) s = .next { s with pwr := { s.pwr with amps := a } }) ∧
    (∀ (dev : Fin 8) (w : BitVec 16) (ack still : Bool) (c : Instr), c = .smbalert dev w ack still ∨ (c = .smbalertRepeat dev w ack still ∧ s.pwr.smbalert = true ∧ s.onPll = true) →
      (s.serving 5 = true → dev.val < s.pwr.regs.length →
        (ack = true → ∃ s', exec c s = .next s' ∧ s'.pwr.status = w.toNat ∧ s'.pwr.device = dev ∧ s'.pwr.smbalert = still ∧ (w &&& ~~~0x40 ≠ 0 → s'.pwr.fault = true) ∧
          (w.getLsbD 6 = true → s.svc.cause = 0 → s'.svc.cause = 2) ∧ s'.hobs = s.hobs ∧
          (w.getLsbD 6 = false → s.svc.ibiEn = false → s.svc.mirrorEn = false → s'.out = s.out ++ ([.bytes "ALERT_RESPONSE" [], .bytes "STATUS_WORD" [BitVec.ofNat 8 dev]] ++
            (flaggedStatus w).map (fun n => .bytes n [BitVec.ofNat 8 dev]) ++ [.bytes "CLEAR_FAULTS" [BitVec.ofNat 8 dev]]))) ∧
        (ack = false → get 0 dev.val s.pwr.pmbNaks ≠ 2 → exec c s = .next { s with pwr := { s.pwr with smbalert := still, pmbNaks := put 0 dev.val (get 0 dev.val s.pwr.pmbNaks + 1) s.pwr.pmbNaks }, out := s.out ++ [.bytes "ALERT_RESPONSE" []] }) ∧
        (ack = false → get 0 dev.val s.pwr.pmbNaks = 2 → ∃ s', exec c s = .next s' ∧ s'.pwr.fault = true ∧ s'.pwr.raise = 0 ∧ s'.pwr.cause = (if s.pwr.cause = 0 then 4 else s.pwr.cause) ∧ s'.hobs = s.hobs)) ∧
      (s.serving 5 = false ∨ s.pwr.regs.length ≤ dev.val → exec c s = .next { s with pwr := { s.pwr with smbalert := true } })) ∧
    (∀ (k : Fin 36) (x : Sink), x = s.sink k →
      (x.down = 0 → x.hold = 0 → x.up = 0 → exec (.damperStep k) s = .next (s.setSink k { x with env := if x.env < x.goal then x.env + 1 else if x.goal < x.env then x.env - 1 else x.env })) ∧
      (0 < x.down → exec (.damperStep k) s = .next (s.setSink k { x with env := x.env - 1, down := x.down - 1 })) ∧
      (x.down = 0 → 0 < x.hold → exec (.damperStep k) s = .next (s.setSink k { x with hold := x.hold - 1 })) ∧
      (x.down = 0 → x.hold = 0 → 0 < x.up → exec (.damperStep k) s = .next (s.setSink k { x with env := x.env + 1, up := x.up - 1 }))) ∧
    (∀ (g : Fin 5) (t : Int), (115 ≤ t → s.pwr.bank = 0 → exec (.thermtrip g t) s = .next { s with pwr := { s.pwr with trip := true } }) ∧
      (t < 115 ∨ s.pwr.bank ≠ 0 → exec (.thermtrip g t) s = .next s)) ∧
    (∀ c, c = .watchdog ∨ c = .serviceCoreError →
      (2 ≤ s.boot.step → s.pwr.bank = 0 → s.boot.held = 0 → ∃ s', exec c s = .next s' ∧ s'.svc.fatalSvc = true ∧ s'.svc.executing = false ∧ s'.svc.cause = (if s.svc.cause = 0 then 3 else s.svc.cause) ∧
        (10 ≤ s.boot.step → s.clk.pending = 0 → s'.svc.mode = 4 ∧ s'.stk.claims = []) ∧ (s.boot.step < 10 ∨ s.clk.pending ≠ 0 → s'.svc.mode = s.svc.mode) ∧ s'.hobs = s.hobs) ∧
      (s.boot.step < 2 ∨ s.pwr.bank ≠ 0 ∨ s.boot.held ≠ 0 → exec c s = .next s)) ∧
    (s.serving 5 = false → ∀ a vd mv, exec (.avsAck a vd mv) s = .next s) ∧
    (s.serving 5 = false ∨ s.onPll = false → exec .avsAckTimeout s = .next s ∧ ∀ a, exec (.irailRead a) s = .next s) ∧
    (s.pwr.smbalert = false ∨ s.onPll = false → ∀ dev w ack still, exec (.smbalertRepeat dev w ack still) s = .next s)

/-- COLD_RESET_N_ASSERT, WARM_RESET_N_ASSERT, POWER_LOSS, COLD_RESET, WARM_RESET and RESTART_RESET (R13, R425, R426, R427, R454, R514, R516, R544): a cold
assertion leaves the state of reset but for the ledger, the rails and what the pins have given; a warm one also keeps the event log and HBM, unless a cold
reset's bring-up is under way; an assertion shorter than 50 ns is filtered; power loss leaves the part off; the last release begins bring-up with COM_TAG 0
and unlocked, which in test mode stops at step 2 and with a rail off waits at step 1. FLASH_RETRY, ETH_WAIT, DEPLOY_SESSION_RETRY, WAKE_N,
SIDEBAND_ADDRESS_MATCH, POWER_GOOD_REPORT and POWER_GOOD_TIMEOUT (R394, R403, R421, R434, R442, R443, R515, R542, R543): a retry that finds no flash header
leaves the part at step 2; one that finds a copy boots it; the wait for the repository's link is logged once; a session in ERROR is created again; a wake
turns the rails on in their order, each after the report of the one before, and bring-up goes on after the last. -/
def Obligations.ResetsAndBringUp : Prop :=
  (∀ (s : State) (ns : Nat) (v : BootEnv), s.pwr.off = false →
    (50 ≤ ns →
      (∃ s', exec (.coldResetNAssert ns) s = .next s' ∧ s'.boot.held = s.boot.held ||| 1 ∧ s'.boot.step = 0 ∧ s'.boot.cause = 0 ∧ s'.boot.ledger = s.boot.ledger ∧
        s'.pwr.rails = s.pwr.rails ∧ s'.mem = [] ∧ s'.hobs = [] ∧ s'.ranges = [] ∧ s'.gates = [] ∧ s'.svc.log = [] ∧ s'.svc.strap = s.svc.strap ∧ s'.flg = {} ∧ s'.stk = {} ∧ s'.clk = {} ∧ s'.com = {}) ∧
      (s.settled = true → s.boot.held.getLsbD 0 = true → exec (.warmResetNAssert ns) s = .next { s with boot := { s.boot with held := s.boot.held ||| 2 } }) ∧
      (s.boot.held.getLsbD 0 = false →
        ∃ s', exec (.warmResetNAssert ns) s = .next s' ∧ s'.boot.held = 2 ∧ s'.boot.step = 0 ∧ s'.boot.ledger = s.boot.ledger ∧ s'.hobs = [] ∧ s'.gates = [] ∧ s'.flg = {} ∧ s'.stk = {} ∧ s'.com = {} ∧
          (∀ q, q < 4 → (s'.stn q).selfref = true) ∧
          (s.coldBringUp = false → s'.boot.cause = 1 ∧ s'.svc.log = s.svc.log ∧ s'.svc.head = s.svc.head ∧
            ((∀ q, q < 4 → (s.stn q).cmds = [] ∧ (s.stn q).serving = []) → s'.mem = s.mem.filter (fun c => decide (c.1 < 4 * hbmQuarter)))) ∧
          (s.coldBringUp = true → s'.boot.cause = 0 ∧ s'.svc.log = [] ∧ s'.mem = []))) ∧
    (ns < 50 → s.settled = true → exec (.coldResetNAssert ns) s = .next s ∧ exec (.warmResetNAssert ns) s = .next s)) ∧
  (∀ (s : State) (v : BootEnv), (∃ s', exec .powerLoss s = .next s' ∧ s'.pwr.off = true ∧ s'.boot.held = 1 ∧ s'.boot.step = 0 ∧ s'.boot.ledger = s.boot.ledger ∧ s'.mem = [] ∧ s'.hobs = [] ∧ s'.ranges = [] ∧
      s'.gates = [] ∧ s'.svc = {} ∧ s'.tap = {}) ∧
    (∀ r, s.pwr.railSeq = [r] → s.pwr.railOn = false → s.boot.held = 0 → ∀ rail : Fin 10, rail.val = r →
      ∃ s', exec (.powerGoodReport rail .off v) s = .next s' ∧ s'.pwr.railSeq = [] ∧ s'.pwr.rails = s.pwr.rails &&& ~~~(BitVec.twoPow 10 r) ∧ s'.pwr.sleeping = true ∧
        s'.pwr.bank = (if s.pwr.cold = true then 2 else 1) ∧ s'.hobs = [] ∧ s'.gates = []) ∧
    (s.settled = true → ∀ (strap : Fin 8) (jtag : Bool) (up : Prop) (seq : List Nat), up = (∀ r, r < 7 → s.pwr.rails.getLsbD r = true) → seq = onOrder.filter (fun r => !s.pwr.rails.getLsbD r) →
      (up → s.boot.held = 1 → ∃ s', exec (.coldReset strap jtag v) s = .next s' ∧ s'.svc.strap = strap ∧ s'.svc.testMode = jtag ∧ s'.boot.held = 0 ∧ s'.boot.cause = 0 ∧ s'.com.tag = 0 ∧
        s'.com.tagLocked = false ∧ 2 ≤ s'.boot.step ∧ s'.boot.step < 8 ∧ (jtag = true → s'.boot.step = 2)) ∧
      (up → s.boot.held = 2 → ∃ s', exec (.warmReset v) s = .next s' ∧ s'.boot.held = 0 ∧ s'.boot.cause = s.boot.cause ∧ s'.com.tag = 0 ∧ s'.com.tagLocked = false ∧ 2 ≤ s'.boot.step ∧ s'.boot.step < 8) ∧
      (∀ r rest, seq = r :: rest →
        (s.boot.held = 1 → ∃ s', exec (.coldReset strap jtag v) s = .next s' ∧ s'.svc.strap = strap ∧ s'.svc.testMode = jtag ∧ s'.boot.held = 0 ∧ s'.boot.cause = 0 ∧ s'.boot.step = 1 ∧ s'.pwr.railSeq = seq ∧
          s'.pwr.railOn = true ∧ s'.out = s.out ++ [.bytes "OPERATION" [BitVec.ofNat 8 r, 0x80]]) ∧
        (s.boot.held = 2 → ∃ s', exec (.warmReset v) s = .next s' ∧ s'.boot.held = 0 ∧ s'.boot.cause = s.boot.cause ∧ s'.boot.step = 1 ∧ s'.pwr.railSeq = seq ∧ s'.pwr.railOn = true ∧
          s'.out = s.out ++ [.bytes "OPERATION" [BitVec.ofNat 8 r, 0x80]])) ∧
      (s.boot.held = 3 → exec (.coldReset strap jtag v) s = .next { s with svc := { s.svc with strap := strap, testMode := jtag }, pwr := { s.pwr with off := false }, boot := { s.boot with held := 2, cause := 0 } } ∧
        exec (.warmReset v) s = .next { s with boot := { s.boot with held := 1 } }) ∧
      (s.boot.held.getLsbD 0 = false → exec (.coldReset strap jtag v) s = .next s) ∧ (s.boot.held.getLsbD 1 = false → exec (.warmReset v) s = .next s) ∧
      (∀ id el, s.boot.restart = some id →
        (up → (el = true ∧ s.onPll = true) ∨ ((s.qp 0).state = 3 ∧ (s.qp 0).ops.any (fun o => o.id == id) = false) →
          ∃ s', exec (.restartReset el v) s = .next s' ∧ s'.boot.cause = 2 ∧ s'.boot.session = 0 ∧ s'.boot.restart = none ∧ s'.com.tag = 0 ∧ s'.com.tagLocked = false ∧ 2 ≤ s'.boot.step ∧ s'.boot.step < 8 ∧
            s'.stk.started = false) ∧
        ((el = false ∨ s.onPll = false) → (s.qp 0).state ≠ 3 ∨ (s.qp 0).ops.any (fun o => o.id == id) = true → exec (.restartReset el v) s = .next s)) ∧
      (s.boot.restart = none → ∀ el, exec (.restartReset el v) s = .next s))) ∧
  (∀ (s : State) (v : BootEnv), s.settled = true → s.canon = true →
    (s.boot.step = 2 → s.boot.failed = true → s.bringsUp = true → s.svc.mirrorEn = false → flashHeader v.flash = none →
      ∃ s', exec (.flashRetry v) s = .next s' ∧ s'.boot.step = 2 ∧ s'.boot.failed = true ∧ s'.boot.verdictA = 7 ∧ s'.boot.verdictB = 7 ∧ s'.svc.head = s.svc.head + 1 ∧ s'.hobs = s.hobs) ∧
    (∀ ca cb k, s.boot.step = 2 → s.boot.failed = true → s.bringsUp = true → (s.readFlash v.flash).2 = some (ca, cb) → chooseCopy ca cb = some k →
      ∃ s', exec (.flashRetry v) s = .next s' ∧ 3 ≤ s'.boot.step ∧ s'.boot.copy = k.1 ∧ s'.boot.gen = (if k.1 = 0 then ca.gen else cb.gen)) ∧
    (s.boot.step ≠ 2 ∨ s.boot.failed = false ∨ s.bringsUp = false → exec (.flashRetry v) s = .next s) ∧
    (s.boot.step = 7 → s.boot.failed = false → s.boot.ethWait = false → s.bringsUp = true → s.onPll = true → s.svc.mirrorEn = false →
      exec .ethWait s = .next (({ s with boot := { s.boot with ethWait := true } }).log 0x0107 .info .service none [le s.repo 0 1])) ∧
    (s.boot.step ≠ 7 ∨ s.boot.failed = true ∨ s.boot.ethWait = true ∨ s.bringsUp = false ∨ s.onPll = false → exec .ethWait s = .next s) ∧
    ((s.qp 0).state = 4 → 8 ≤ s.boot.step → s.svc.fatalSvc = false → s.boot.restart = none → s.onPll = true → SMapWf ({} : Qp) s.trn.qps = true →
      ∃ s', exec .deploySessionRetry s = .next s' ∧ (s'.qp 0).state = 2 ∧ (s'.qp 0).sq = [] ∧ (s'.qp 0).peerQp = some (le s.repo 2 2) ∧ s'.boot.session = 1 ∧ s'.mem = s.mem ∧ s'.hobs = s.hobs ∧ s'.gates = s.gates) ∧
    ((s.qp 0).state ≠ 4 ∨ s.boot.step < 8 ∨ s.svc.fatalSvc = true ∨ s.boot.restart ≠ none ∨ s.onPll = false → exec .deploySessionRetry s = .next s) ∧
    (∀ ns, (s.pwr.bank ≠ 0 → wakeNs ≤ ns →
        ∃ s', exec (.wakeN ns) s = .next s' ∧ s'.pwr.bank = 0 ∧ s'.pwr.sleeping = false ∧ s'.boot.step = 1 ∧ s'.boot.cause = (if s.pwr.bank = 1 then 3 else 4) ∧ s'.pwr.railSeq = onOrder.filter (fun r => !s.pwr.rails.getLsbD r) ∧ s'.boot.held = s.boot.held) ∧
      (s.pwr.bank = 0 ∨ ns < wakeNs → exec (.wakeN ns) s = .next s)) ∧
    (s.pwr.bank = 1 → ∃ s', exec .sidebandAddressMatch s = .next s' ∧ s'.pwr.bank = 0 ∧ s'.pwr.sleeping = false ∧ s'.boot.step = 1 ∧ s'.boot.cause = 3) ∧
    (s.pwr.bank ≠ 1 → exec .sidebandAddressMatch s = .next s) ∧
    (∀ r n rest, s.pwr.railSeq = r :: n :: rest → s.boot.held = 0 → ∀ rail : Fin 10, rail.val = r →
      exec (.powerGoodReport rail (if s.pwr.railOn then .on else .off) v) s = .next { s with pwr := { s.pwr with railSeq := n :: rest, pmbNaks := (match s.railDevice r with | some d => put 0 d 0 s.pwr.pmbNaks | none => s.pwr.pmbNaks), rails := if s.pwr.railOn then s.pwr.rails ||| BitVec.twoPow 10 r else s.pwr.rails &&& ~~~(BitVec.twoPow 10 r) }, out := s.out ++ [.bytes "OPERATION" [BitVec.ofNat 8 n, if s.pwr.railOn then 0x80 else 0x00]] }) ∧
    (∀ r, s.pwr.railSeq = [r] → ∀ rail : Fin 10, rail.val = r →
      (s.pwr.railOn = true → s.bringUpFree = true → ∃ s', exec (.powerGoodReport rail .on v) s = .next s' ∧ s'.pwr.railSeq = [] ∧ s'.pwr.rails = s.pwr.rails ||| BitVec.twoPow 10 r ∧ 2 ≤ s'.boot.step ∧ s'.boot.step < 8 ∧
        (s.svc.testMode = true → s'.boot.step = 2))) ∧
    (∀ r rest, s.pwr.railSeq = r :: rest → s.boot.held = 0 → ∀ rail : Fin 10, rail.val = r →
      exec (.powerGoodReport rail (if s.pwr.railOn then .off else .on) v) s = .next { s with pwr := { s.pwr with pmbNaks := (match s.railDevice r with | some d => put 0 d 0 s.pwr.pmbNaks | none => s.pwr.pmbNaks) } } ∧
      (s.railDevice r = none → exec (.powerGoodReport rail .nak v) s = .next s) ∧
      (∀ d, s.railDevice r = some d → get 0 d s.pwr.pmbNaks ≠ 2 → exec (.powerGoodReport rail .nak v) s = .next { s with pwr := { s.pwr with pmbNaks := put 0 d (get 0 d s.pwr.pmbNaks + 1) s.pwr.pmbNaks } }) ∧
      (∀ d, s.railDevice r = some d → get 0 d s.pwr.pmbNaks = 2 → ∃ s', exec (.powerGoodReport rail .nak v) s = .next s' ∧ s'.pwr.fault = true ∧ s'.pwr.cause = (if s.pwr.cause = 0 then 4 else s.pwr.cause) ∧ s'.pwr.railSeq = s.pwr.railSeq ∧ s'.hobs = s.hobs)) ∧
    (∀ r rest, s.pwr.railSeq = r :: rest → ∀ (rail : Fin 10) (a : RailAnswer), rail.val ≠ r → exec (.powerGoodReport rail a v) s = .next s) ∧
    (∀ r rest, s.pwr.railSeq = r :: rest → s.boot.held = 0 → s.pwr.railOn = true →
      exec .powerGoodTimeout s = .next { s with out := s.out ++ [.bytes "OPERATION" [BitVec.ofNat 8 r, 0x00], .bytes "OPERATION" [BitVec.ofNat 8 r, 0x80]] }) ∧
    (s.pwr.railOn = false → exec .powerGoodTimeout s = .next s) ∧
    (s.pwr.railSeq = [] ∨ s.boot.held ≠ 0 → ∀ rail a, exec .powerGoodTimeout s = .next s ∧ exec (.powerGoodReport rail a v) s = .next s))

/-- DEPLOY_MESSAGE, and how requests are answered (R446, R447, R448): an accepted message advances DSEQ and waits to be performed, and one refused is
counted and leaves DSEQ as it is; the request judged next of any RTYPE whose body breaks its layout is answered MALFORMED with no effect; a command of
another RTYPE than that of the request changes nothing; and once its last request is answered, the message's reply leaves with the results in the
order of the requests. -/
def Obligations.RequestsAnswered : Prop :=
  ∀ (s : State) (m : DMsg) (c : Instr) (ty : Nat) (b : Bytes),
    (∀ k rest, s.settled = true → s.svc.fatalSvc = false → 9 ≤ s.boot.step → s.boot.inbox = (k, b) :: rest → s.linesPoison (s.deployBuf k) (ceilDiv b.length 64) = false →
      ∃ s', exec (.deployMessage []) s = .next s' ∧ s'.boot.inbox = rest ∧
        (s.judgeDeploy b false = 0 → s'.boot.dseq = le b 8 8 ∧ s'.boot.msgs = s.boot.msgs + 1 ∧ s'.boot.refused = s.boot.refused) ∧
        (s.judgeDeploy b false ≠ 0 → s'.boot.dseq = s.boot.dseq ∧ s'.boot.msgs = s.boot.msgs ∧ s'.boot.refused = s.boot.refused + 1)) ∧
    (s.nextIs m ty b → reqOf c = some ty → b.length = 1 → exec c s = .next (s.judged m.dseq (some { code := 2 }))) ∧
    (∀ ty', s.nextIs m ty b → knownReq ty = true → reqOf c = some ty' → ty' ≠ ty → exec c s = .next s) ∧
    (reqOf c = some ty → b.length = 1 → ({ s with boot := { s.boot with work := [] } } : State).settled = true → s.svc.fatalSvc = false → s.boot.work = [m] → m.restart = false →
      s.boot.waits = [] → m.reqs = [(ty, b)] → (m.results.all fun r => r.isSome) = true →
      ∃ s', exec c s = .next s' ∧ s'.boot.work = [] ∧ s'.boot.bufs.getLsbD m.buf = false ∧
        ((s.qp 0).state = 3 → (s.qp 0).rnrWait.isSome = true → m.lost = false → SMapWf ({} : Qp) s.trn.qps = true →
          (s'.qp 0).ops.map (fun o => o.own) = (s.qp 0).ops.map (fun o => o.own) ++ [({ m with results := m.results ++ [some { code := 2 }] } : DMsg).reply]))

/-- LOAD, ARM, DISABLE, ENABLE, REMOVE and START (R157, R162, R163, R164, R166, R167, R453): a LOAD of an empty entry begins its admission; an ARM is
counted in its entry, and the first one stamps it; DISABLE and REMOVE are noted for the seams; ENABLE makes a disabled entry IDLE or ARMED again; a
refused request leaves the entry as it is; START enables the stoker and begins beat 0 of every range. -/
def Obligations.EntryRequests : Prop :=
  ∀ (s : State) (m : DMsg) (b : Bytes) (e t : Nat) (x : Entry), e = le b 0 2 → x = s.entry e → s.canon = true → SMapWf ({} : Entry) s.stk.entries = true →
    (∀ secs, s.nextIs m 0x01 b → 52 ≤ b.length → parseSecs (le b 48 4) (b.drop 52) = some secs → secsOk secs = true → e < 1024 → x.state = .empty → t = field (le b 4 4) 8 8 → s.aborting t = false →
      ∃ s', exec .load s = .next s' ∧ (s'.entry e).state = .admitting ∧ (s'.entry e).tenant = t ∧ (s'.entry e).decl.secs = secs ∧ (s'.entry e).arms = le b 2 2 ∧
        s'.stk.admitQ = s.stk.admitQ ++ [e] ∧ s'.boot.waits = s.boot.waits ++ [(0, e, m.dseq, m.results.length)] ∧ (∀ e', e' ≠ e → s'.entry e' = s.entry e') ∧
        s'.mem = s.mem ∧ s'.hobs = s.hobs ∧ s'.ranges = s.ranges ∧ s'.gates = s.gates) ∧
    (b.length = 4 → le b 3 1 = 0 → t = le b 2 1 → (s.tenantRec t).isSome = true →
      (s.nextIs m 0x02 b → s.judgeArm e s.rt.part t = 0 → 0 < x.arms →
        exec .arm s = .next ((s.setEntry e { x with arms := x.arms + 1, state := if x.state = .idle then .armed else x.state }).judged m.dseq (some { dom := 1, code := 0 }))) ∧
      (s.nextIs m 0x02 b → s.judgeArm e s.rt.part t = 0 → x.arms = 0 →
        ∃ s', exec .arm s = .next s' ∧ s'.stk.nextStamp = s.stk.nextStamp + 1 ∧ (∀ e', e' ≠ e → s'.entry e' = s.entry e') ∧
          s'.entry e = { x with arms := 1, state := (if x.state = .idle then .armed else x.state), stamp := s.stk.nextStamp % 2 ^ 48, armBeat := s.stk.beat, dlDone := false }) ∧
      (∀ c, c ≠ 0 → s.nextIs m 0x02 b → s.judgeArm e s.rt.part t = c →
        exec .arm s = .next (({ s.reqRefused with fresh := s.fresh + 1 } : State).judged m.dseq (some { dom := 1, code := c }))) ∧
      (e < 1024 → x.tenant = t →
        (s.nextIs m 0x03 b → x.state.live = true → exec .disable s = .next ((s.setEntry e { x with leaving := max x.leaving 1 }).judged m.dseq (some { dom := 1, code := 0 }))) ∧
        (s.nextIs m 0x03 b → x.state = .disabled → exec .disable s = .next (s.reqRefused.judged m.dseq (some { dom := 1, code := 0x11 }))) ∧
        (s.nextIs m 0x04 b → x.state = .disabled → x.arms = 0 → x.rep = false →
          exec .enable s = .next ((s.setEntry e { x with state := .idle }).judged m.dseq (some { dom := 1, code := 0 }))) ∧
        (s.nextIs m 0x04 b → x.state = .disabled → 0 < x.arms →
          ∃ s', exec .enable s = .next s' ∧ s'.entry e = { x with state := .armed, stamp := s.stk.nextStamp % 2 ^ 48, armBeat := s.stk.beat, dlDone := false }) ∧
        (s.nextIs m 0x05 b → x.state ≠ .empty → exec .remove s = .next ((s.setEntry e { x with leaving := 2 }).judged m.dseq (some { dom := 1, code := 0 }))) ∧
        (s.nextIs m 0x05 b → x.state = .empty → exec .remove s = .next (s.reqRefused.judged m.dseq (some { dom := 1, code := 0x11 }))))) ∧
    (s.nextIs m 0x50 [] → s.boot.step = 9 → s.stk.started = false → s.svc.cause = 0 → s.stk.tickDue = false → (∀ q, q < 4 → (s.range q).halted = false ∧ (s.range q).valid = false) →
      ∃ s', exec .start s = .next s' ∧ s'.stk.started = true ∧ s'.boot.step = 10 ∧ s'.svc.mode = 1 ∧ s'.mem = s.mem ∧
        ∀ q, q < 4 → (s'.range q).cyc = 0 ∧ (s'.range q).phase = .idle ∧ (s'.range q).beatNo = (s.range q).beatNo) ∧
    (s.nextIs m 0x50 [] → (s.boot.step ≠ 9 ∨ s.stk.started = true ∨ s.svc.cause ≠ 0) → exec .start s = .next (s.judged m.dseq (some { code := 3 })))

/-- AREA_CREATE, AREA_RELEASE, DATA, DATA_EXPECT, STAGING, CH_OPEN, CH_CLOSE, CH_DISABLE and CH_ENABLE (R204, R211, R213, R251, R449, R450, R451): a
created area is listed and its memory zero; data stands at its place and nothing else changes; a channel that may be opened is OPEN with its pointers
at its read-pointer flag's count, and other requests wait for the seam. -/
def Obligations.AreaAndChannelRequests : Prop :=
  ∀ (s : State) (m : DMsg) (b : Bytes) (t : Nat) (a : Area), s.canon = true → (s.tenantRec t).isSome = true →
    (s.nextIs m 0x10 b → b.length = 24 → t = le b 0 1 → a = { id := le b 1 1, hbm := le b 2 1 == 1, tenant := t, ranges := le b 3 1, base := le b 8 8, len := le b 16 8 } →
      le b 2 1 ≤ 1 → a.ranges ≤ 15 → a.ranges ≠ 0 → zeroBytes b 4 4 = true → (a.hbm = true → a.base % 2048 = 0 ∧ a.len % 2048 = 0) →
      (s.sharedArea t a.id = none → s.areaFits a = true →
        ∃ s', exec .areaCreate s = .next s' ∧ s'.shared = s.shared ++ [a] ∧ (∀ e ∈ a.spans, ∀ k, e.1 ≤ k → k < e.1 + e.2 → readByte s'.mem k = 0) ∧
          (∀ k, (∀ e ∈ a.spans, k < e.1 ∨ e.1 + e.2 ≤ k) → readByte s'.mem k = readByte s.mem k) ∧ s'.hobs = s.hobs ∧ s'.flg = s.flg ∧ s'.stk = s.stk) ∧
      (((s.sharedArea t a.id).isSome = true ∨ s.areaFits a = false) → exec .areaCreate s = .next (s.judged m.dseq (some { code := 5 })))) ∧
    (b.length = 8 → zeroBytes b 2 6 = true → t = le b 0 1 →
      (s.nextIs m 0x11 b → s.sharedArea t (le b 1 1) = some a → s.areaBusy a = false →
        ∃ s', exec .areaRelease s = .next s' ∧ s'.shared = s.shared.filter (fun y => y != a) ∧ s'.mem = s.mem ∧ s'.hobs = s.hobs ∧ s'.flg = s.flg) ∧
      (s.nextIs m 0x11 b → s.sharedArea t (le b 1 1) = some a → s.areaBusy a = true → exec .areaRelease s = .next (s.judged m.dseq (some { code := 7 }))) ∧
      (s.nextIs m 0x11 b → s.sharedArea t (le b 1 1) = none → exec .areaRelease s = .next (s.judged m.dseq (some { code := 6 }))) ∧
      (s.nextIs m 0x14 b → s.sharedArea t (le b 1 1) = some a → a.hbm = true → a.base % 0x10000 = 0 → a.len % 0x10000 = 0 →
        exec .staging s = .next (({ s with shared := s.shared.map fun y => if y = a then { a with staging := true } else y } : State).judged m.dseq (some { code := 0 })))) ∧
    (∀ i, i < 4 → s.nextIs m 0x12 b → 16 ≤ b.length → t = le b 0 1 → zeroBytes b 2 2 = true → le b 8 8 % 64 = 0 → b.length % 64 = 16 → s.sharedArea t (le b 1 1) = some a → a.hbm = true →
      le b 4 4 = 2 ^ i → a.ranges.testBit i = true → le b 8 8 + (b.length - 16) ≤ a.len →
      ∃ s', exec .data s = .next s' ∧ readBytes s'.mem (hbmBase i + a.base + le b 8 8) (b.length - 16) = b.drop 16 ∧
        (∀ k, k < hbmBase i + a.base + le b 8 8 ∨ hbmBase i + a.base + le b 8 8 + (b.length - 16) ≤ k → readByte s'.mem k = readByte s.mem k) ∧ s'.hobs = s.hobs ∧ s'.flg = s.flg ∧ s'.stk = s.stk) ∧
    (s.nextIs m 0x13 b → b.length = 56 → m.dseq < le b 0 8 → s.boot.digests.length < 1024 →
      exec .dataExpect s = .next (({ s with boot := { s.boot with digests := (s.boot.digests.filter fun x => x.1 != le b 0 8) ++ [(le b 0 8, (b.drop 8).take 48)] } } : State).judged m.dseq (some { code := 0 }))) ∧
    (s.nextIs m 0x20 b → b.length = 48 → t = le b 2 1 →
      (s.judgeOpen (chAttrOf b) = 0 → SMapWf ({} : Channel) s.flg.chans = true →
        ∃ s', exec .chOpen s = .next s' ∧ (s'.chan (le b 0 2)).state = .opened ∧ (s'.chan (le b 0 2)).tenant = t ∧ (s'.chan (le b 0 2)).wp = s.flag (le b 6 2) ∧ (s'.chan (le b 0 2)).ac = s.flag (le b 6 2) ∧
          (∀ c, c ≠ le b 0 2 → s'.chan c = s.chan c) ∧ s'.mem = s.mem ∧ s'.hobs = s.hobs ∧ s'.stk = { s.stk with progress := s'.stk.progress }) ∧
      (∀ c, c ≠ 0 → s.judgeOpen (chAttrOf b) = c → exec .chOpen s = .next (s.judged m.dseq (some { dom := 2, code := c })))) ∧
    ∀ (c : Nat) (x : Channel), b.length = 4 → t = le b 2 1 → c = le b 0 2 → x = s.chan c →
      (s.nextIs m 0x21 b → s.ownsChan t c = true → (le b 3 1 = 1 ∨ le b 3 1 = 2) → x.state = .opened →
        exec .chClose s = .next ((s.setChan c { x with reqs := x.reqs ++ [.close (le b 3 1)] }).judged m.dseq (some { dom := 2, code := 0 }))) ∧
      (s.nextIs m 0x21 b → s.ownsChan t c = false → (le b 3 1 = 1 ∨ le b 3 1 = 2) → exec .chClose s = .next (s.judged m.dseq (some { dom := 2, code := 3 }))) ∧
      (s.nextIs m 0x22 b → s.ownsChan t c = true → le b 3 1 = 0 → x.state = .opened → x.dis = false →
        exec .chDisable s = .next ((s.setChan c { x with reqs := x.reqs ++ [.disable] }).judged m.dseq (some { dom := 2, code := 0 }))) ∧
      (s.nextIs m 0x23 b → s.ownsChan t c = true → le b 3 1 = 0 → x.state = .opened → x.dis = true →
        exec .chEnable s = .next ((s.setChan c { x with reqs := x.reqs ++ [.enable] }).judged m.dseq (some { dom := 2, code := 0 }))) ∧
      (s.nextIs m 0x23 b → s.ownsChan t c = true → le b 3 1 = 0 → x.dis = false → exec .chEnable s = .next (s.judged m.dseq (some { dom := 2, code := 4 })))

/-- QP_CREATE, QP_RESET, QP_DESTROY, REG_CREATE, REG_REMOVE, LINK_DISABLE, LINK_ENABLE, MGMT_REQUEST, FLASH_WRITE, LEDGER and RESTART (R272, R281, R327,
R341, R342, R359, R360, R454, R455, R457). -/
def Obligations.PairRegionAndPartRequests : Prop :=
  ∀ (s : State) (m : DMsg) (b : Bytes) (t : Nat), s.canon = true → SMapWf ({} : Qp) s.trn.qps = true →
    (∀ n x, s.nextIs m 0x30 b → b.length = 60 → t = le b 2 1 → (s.tenantRec t).isSome = true → n = le b 0 2 → x = qpOf s.rt.part b → n ≠ 0 → n ≤ 16383 → le b 7 1 < 4 → s.ownsChan t x.scq = true →
      s.ownsChan t x.rcq = true →
      ((s.qp n).state = 0 → s.qpLegal x (le b 4 1) = true → x.state ≠ 2 → exec .qpCreate s = .next ((s.setQp n x).judged m.dseq (some { code := 0 }))) ∧
      ((s.qp n).state = 0 → s.qpLegal x (le b 4 1) = true → ∃ s', exec .qpCreate s = .next s' ∧ s'.qp n = x ∧ ∀ k, k ≠ n → s'.qp k = s.qp k) ∧
      (((s.qp n).state ≠ 0 ∨ s.qpLegal x (le b 4 1) = false) → exec .qpCreate s = .next (s.judged m.dseq (some { code := 0xA })))) ∧
    (∀ n x, b.length = 4 → le b 3 1 = 0 → t = le b 2 1 → (s.tenantRec t).isSome = true → n = le b 0 2 → x = s.qp n → n ≠ 0 → n ≤ 16383 → x.tenant = t →
      (s.nextIs m 0x31 b → x.state = 4 → ∃ s', exec .qpReset s = .next s' ∧ (s'.qp n).state = (if x.boundPeer = true then 2 else 1) ∧ (s'.qp n).sq = [] ∧ (s'.qp n).ops = [] ∧ (s'.qp n).npsn = x.ipsn ∧
        (∀ k, k ≠ n → s'.qp k = s.qp k)) ∧
      (s.nextIs m 0x31 b → x.state ≠ 4 → exec .qpReset s = .next (s.judged m.dseq (some { code := 0xA }))) ∧
      (s.nextIs m 0x32 b → (x.state = 4 ∨ x.state = 5) → ∃ s', exec .qpDestroy s = .next s' ∧ s'.qp n = {} ∧ s'.trn.recvs = s.trn.recvs.filter (fun v => v.qpn != n) ∧ s'.trn.matched = s.trn.matched.filter (fun v => v.qpn != n) ∧ s'.trn.trigs = s.trn.trigs.filter (fun v => v.1 != n) ∧ (∀ k, k ≠ n → s'.qp k = s.qp k)) ∧
      (s.nextIs m 0x32 b → x.state ≠ 4 → x.state ≠ 5 → exec .qpDestroy s = .next (s.judged m.dseq (some { code := 0xA })))) ∧
    (∀ i g, s.nextIs m 0x33 b → b.length = 24 → t = le b 2 1 → (s.tenantRec t).isSome = true → i = le b 0 2 → le b 3 1 < 16 → ((le b 3 1).testBit 3 = true → s.ownsCnt t (le b 6 2) = true) → le b 4 2 < 4096 → le b 6 2 < 4096 →
      g = { gen := ((s.region i).gen + 1) % 65536, reg := true, state := 1, tenant := t, pd := le b 4 2, base := le b 8 8, len := le b 16 8, put := (le b 3 1).testBit 0, get := (le b 3 1).testBit 1, loc := (le b 3 1).testBit 2, cntEn := (le b 3 1).testBit 3, cnt := le b 6 2 } →
      ((s.region i).reg = false → le b 8 8 % 64 = 0 → le b 16 8 % 64 = 0 → s.inSharedArea t (le b 8 8) (le b 16 8) = true →
        exec .regCreate s = .next ((s.setRegion i g).judged m.dseq (some { value := regionKey i g }))) ∧
      ((s.region i).reg = true → exec .regCreate s = .next (s.judged m.dseq (some { code := 0xB })))) ∧
    (∀ i g, s.nextIs m 0x34 b → b.length = 8 → t = le b 4 1 → (s.tenantRec t).isSome = true → zeroBytes b 5 3 = true → i = le b 2 2 → g = s.region i →
      (g.reg = true → g.gen = le b 0 2 → g.tenant = t → g.state ≠ 0 →
        exec .regRemove s = .next (({ s.setRegion i { g with state := 2 } with boot := { s.boot with waits := s.boot.waits ++ [(1, i, m.dseq, m.results.length)] } } : State).judged m.dseq none)) ∧
      (g.reg = true → g.gen = le b 0 2 → g.tenant = t → g.state = 0 → exec .regRemove s = .next ((s.setRegion i { g with reg := false }).judged m.dseq (some { code := 0 }))) ∧
      ((g.reg = false ∨ g.gen ≠ le b 0 2) → exec .regRemove s = .next (s.judged m.dseq (some { code := 0xB })))) ∧
    (∀ k, b.length = 8 → zeroBytes b 1 7 = true → k = le b 0 1 →
      (s.nextIs m 0x40 b → s.judgeDisable k = 0 → (s.gate k).upOrHold = true → exec .linkDisable s = .next ((s.setGate k { s.gate k with disPend := true }).judged m.dseq (some { code := 0 }))) ∧
      (s.nextIs m 0x40 b → s.judgeDisable k = 1 → exec .linkDisable s = .next (s.judged m.dseq (some { code := 0x12 }))) ∧
      (s.nextIs m 0x40 b → s.judgeDisable k = 2 → exec .linkDisable s = .next (s.judged m.dseq (some { code := 3 }))) ∧
      (s.nextIs m 0x41 b → s.judgeEnable k = 0 → ∃ s', exec .linkEnable s = .next s' ∧ (s'.gate k).en = true ∧ (s'.gate k).trainLogged = false ∧
        (s'.gate k).state = (if (s.gate k).state = .down ∧ (s.gate k).rested = true ∧ s.mayTrain = true then .train else (s.gate k).state) ∧ (∀ l, l ≠ k → s'.gate l = s.gate l) ∧ s'.mem = s.mem) ∧
      (s.nextIs m 0x41 b → s.judgeEnable k = 1 → exec .linkEnable s = .next (s.judged m.dseq (some { code := 0x12 })))) ∧
    (∀ ty l, s.nextIs m 0x42 b → b.length = 8 → zeroBytes b 3 5 = true → ty = le b 1 1 → l = le b 2 1 →
      (∀ n w, (ty = 1 ∧ l = 0) ∨ ((ty = 3 ∨ ty = 4) ∧ l < 20) → le b 0 1 ≠ s.rt.chip → s.exitFor 3 (le b 0 1) 3 = some (n, w) →
        exec .mgmtRequest s = .next (({ s with mantelOut := s.mantelOut ++ [packetLoad n w .own { op := opMgmt, vc := 3, dst := le b 0 1, src := s.rt.chip, part := 0xF, hops := s.rt.hopLimit, tag := 0, sunit := sunitService, flits := [(mgmtFlit ty l 0 s.rt.part [] 0, false)] }] } : State).judged m.dseq (some { code := 0 }))) ∧
      ((ty = 1 ∧ l = 0) ∨ ((ty = 3 ∨ ty = 4) ∧ l < 20) → le b 0 1 ≠ s.rt.chip → s.exitFor 3 (le b 0 1) 3 = none →
        exec .mgmtRequest s = .next (({ s with rt := { s.rt with noexit := s.rt.noexit + 1 } } : State).judged m.dseq (some { code := 0 }))) ∧
      ((ty = 3 ∨ ty = 4) → 20 ≤ l → exec .mgmtRequest s = .next (s.judged m.dseq (some { code := 0x12 })))) ∧
    (∀ res rest, ({ s with boot := { s.boot with work := [] } } : State).settled = true → s.svc.fatalSvc = false → s.boot.work = [m] → m.restart = false → s.boot.waits = [] →
      m.reqs = (0x51, []) :: rest → (m.results.all fun r => r.isSome) = true → res = s.trn.nextId % 65536 →
      ∃ s', exec .restart s = .next s' ∧ s'.boot.work = [] ∧ s'.boot.restart = some res) ∧
    (∀ ok res, s.nextIs m 0x60 b → 8 ≤ b.length → le b 0 1 ≤ 1 → zeroBytes b 1 3 = true → le b 4 4 % 4096 = 0 → b.length % 256 = 8 → res = (if le b 0 1 = 0 then s.boot.resA else s.boot.resB) →
      (le b 0 1 ≠ s.boot.copy → le b 4 4 + (b.length - 8) ≤ res.2 →
        exec (.flashWrite ok) s = .next (({ s with out := s.out ++ (List.range (ceilDiv ((res.1 + le b 4 4) % 4096 + (b.length - 8)) 4096)).map (fun j =>
          .bytes "FLASH_ERASE" (toBytes 4 ((res.1 + le b 4 4) / 4096 * 4096 + 4096 * j))) ++ [.bytes "FLASH" (toBytes 4 (res.1 + le b 4 4) ++ b.drop 8)] } : State).judged m.dseq (some { code := if ok then 0 else 0xE }))) ∧
      (le b 0 1 = s.boot.copy → exec (.flashWrite ok) s = .next (s.judged m.dseq (some { code := 0xC }))) ∧
      (le b 0 1 ≠ s.boot.copy → res.2 < le b 4 4 + (b.length - 8) → exec (.flashWrite ok) s = .next (s.judged m.dseq (some { code := 0xD })))) ∧
    ∀ v, s.nextIs m 0x70 b → b.length = 52 → le b 0 1 ≠ 0 → le b 0 1 ≤ 4 → zeroBytes b 1 3 = true → v = (b.drop 4).take 48 →
      (ledgerLegal (le b 0 1) v = false → exec (.ledger (some true)) s = .next (s.judged m.dseq (some { code := 0x10 }))) ∧
      ∀ n, ledgerLegal (le b 0 1) v = true → (List.range (ledSlots (le b 0 1))).find? (fun n => !(s.ledSlot (le b 0 1) n).burned) = some n →
        exec (.ledger none) s = .next { s with boot := { s.boot with burning := some (le b 0 1, n, ledgerBytes (le b 0 1) v) } } ∧
        ∃ s', exec (.ledger (some true)) s = .next s' ∧ s'.boot.burning = none ∧
          s'.boot.ledger = put {} (8 * le b 0 1 + n) { burned := true, check := crc8 (ledgerBytes (le b 0 1) v), value := ledgerBytes (le b 0 1) v } s.boot.ledger

/-- MAILBOX_READ, GET_STATUS, GET_IDENTITY, GET_TELEMETRY, LOG_READ, CSR_READ, LEDGER_READ, SLEEP, ALERT_ACK and COMMAND_FRAME (R466 to R473): each
command that passes its checks is counted, executes and leaves its response for a read; one that fails a check is counted as an error and leaves its
status; one sent while another executes is lost and marks an overrun; a read sends the response or says BUSY; SLEEP begins the way to BANKED or COLD
and is logged; a frame for another address changes nothing. ENEC, DISEC, RSTDAA, ENTDAA, SETDASA, SETNEWDA, GETPID, GETBCR, GETDCR, GETMWL, GETMRL and
GETSTATUS (R463, R464): the event enable and the dynamic address are what the last of these commands to the part made them, and each GET sends its
bytes and changes nothing else; a direct one to another address changes nothing. EXTEST, IDCODE, SAMPLE/PRELOAD, CLAMP, HIGHZ, EXTEST_PULSE,
EXTEST_TRAIN, DEBUG, BYPASS and TAP_RESET (R484, R485, R486): outside test mode the test instructions act as BYPASS; in test mode a boundary scan
captures the pins, shifts them out and keeps what was shifted in; a DEBUG operation acts only in test mode while unlocked; no TAP command but DEBUG
changes anything but the TAP. -/
def Obligations.Sideband : Prop :=
  (∀ (s : State) (a : BitVec 7), s.hears a = true →
    (exec (.getStatus a false) s = .next (s.sbAnswer 0 s.statusBytes) ∧ exec (.getIdentity a false) s = .next (s.sbAnswer 0 s.identityBytes) ∧
      exec (.getTelemetry a false) s = .next (s.sbAnswer 0 s.telemetry)) ∧
    (∀ (seq : Word) (n : Byte), (1 ≤ n.toNat → n.toNat ≤ 7 → exec (.logRead a seq n false) s = .next (s.sbAnswer 0 (s.logRead seq n.toNat))) ∧
      ((n = 0 ∨ 7 < n.toNat) → exec (.logRead a seq n false) s = .next (s.sbAnswer 5 []))) ∧
    (∀ (addr : BitVec 40) (n : Byte), addr.toNat % 4 = 0 → 0xF000000000 ≤ addr.toNat →
      (1 ≤ n.toNat → n.toNat ≤ 32 → addr.toNat + 4 * n.toNat ≤ 0xF100000000 → (∀ j, j < n.toNat → csrDecoded s (addr.toNat + 4 * j) = true) →
        exec (.csrRead a addr n false) s = .next (s.sbAnswer 0 (s.csrReadBytes addr.toNat n.toNat))) ∧
      ((n = 0 ∨ 32 < n.toNat) → exec (.csrRead a addr n false) s = .next (s.sbAnswer 5 []))) ∧
    (∀ (t slot : Byte), 1 ≤ t.toNat → t.toNat ≤ 4 → (slot = 0xFF ∨ slot.toNat < ledSlots t.toNat) → exec (.ledgerRead a t slot false) s = .next (s.sbAnswer 0 (s.ledgerRead t.toNat slot.toNat))) ∧
    (∀ st : Byte, (st = 1 ∨ st = 2) → (s.svc.mode = 1 ∨ s.svc.mode = 2) → s.pwr.sleeping = false → s.svc.mirrorEn = false → (∀ q, q < 4 → s.stopped q = false) →
      ∃ s', exec (.sleep a st 0xA5 false) s = .next s' ∧ s'.svc.mode = 3 ∧ s'.pwr.sleeping = true ∧ s'.pwr.cold = (st == 2) ∧ s'.svc.head = s.svc.head + 1 ∧ s'.svc.resp = some (0, []) ∧
        s'.mem = s.mem ∧ s'.hobs = s.hobs ∧ s'.ranges = s.ranges ∧ s'.gates = s.gates) ∧
    (∀ st c : Byte, (st = 1 ∨ st = 2) → c ≠ 0xA5 → exec (.sleep a st c false) s = .next (s.sbAnswer 5 [])) ∧
    (∀ (cl mk : Byte) (same l : BitVec 5), cl.toNat < 32 → mk.toNat < 32 → l = s.svc.latch &&& ~~~(cl.truncate 5 &&& ~~~same) →
      exec (.alertAck a cl mk same false) s = .next (({ s with svc := { s.svc with latch := l, mask := mk.truncate 5 } } : State).sbAnswer 0 [l.zeroExtend 8, mk])) ∧
    (∀ f c, frameCheck f = c → c ≠ 0 → exec (.commandFrame a f false) s = .next (s.sbAnswer c [])) ∧
    (∀ d, s.svc.overrun = false → exec (.mailboxRead a d) s = .next { s with out := s.out ++ [.bytes "MAILBOX" (sbFrame (s.svc.resp.getD (8, [])).1 (s.svc.resp.getD (8, [])).2)] }) ∧
    (∀ d, s.svc.overrun = true → exec (.mailboxRead a d) s = .next { s with out := s.out ++ [.bytes "MAILBOX" (sbFrame 7 [])] }) ∧
    (∀ (b : BitVec 7) (f : Bytes) (d : Bool), b ≠ a → exec (.commandFrame b f d) s = .next s ∧ exec (.mailboxRead b d) s = .next s) ∧
    ∀ t : State, t = { s with svc := { s.svc with executing := true } } →
      (∀ f, s.svc.overrun = false → exec (.commandFrame a f true) t = .next { t with svc := { t.svc with overrun := true, mboxErr := t.svc.mboxErr + 1 } }) ∧
      (s.svc.overrun = false → exec (.mailboxRead a true) t = .next { s with out := s.out ++ [.bytes "MAILBOX" (sbFrame (s.svc.resp.getD (8, [])).1 (s.svc.resp.getD (8, [])).2)] }) ∧
      exec (.mailboxRead a false) t = .next { t with out := t.out ++ [.bytes "MAILBOX" (sbFrame 1 [])] }) ∧
  (∀ (s : State) (a v : BitVec 7), s.settled = true →
    (s.served = true →
      (∀ ev : Byte, ev.getLsbD 0 = true → exec (.enec none ev) s = .next { s with svc := { s.svc with ibiEn := true } } ∧ exec (.disec none ev) s = .next { s with svc := { s.svc with ibiEn := false } }) ∧
      exec .rstdaa s = .next { s with svc := { s.svc with dynAddr := 0, dynValid := false } } ∧
      (s.svc.dynValid = false → exec (.entdaa (some v)) s = .next { s with svc := { s.svc with dynAddr := v.toNat, dynValid := true }, out := s.out ++ [.bytes "ENTDAA" (toBytesBE 6 s.pid ++ [0x06, 0x00])] }) ∧
      (s.svc.dynValid = false → exec (.entdaa none) s = .next { s with out := s.out ++ [.bytes "ENTDAA" (toBytesBE 6 s.pid ++ [0x06, 0x00])] }) ∧
      (s.svc.dynValid = true → ∀ w, exec (.entdaa w) s = .next s)) ∧
    (s.addressed a = true →
      (∀ ev : Byte, ev.getLsbD 0 = true → exec (.enec (some a) ev) s = .next { s with svc := { s.svc with ibiEn := true } } ∧ exec (.disec (some a) ev) s = .next { s with svc := { s.svc with ibiEn := false } }) ∧
      exec (.setdasa a v) s = .next (if s.svc.dynValid = true then s else { s with svc := { s.svc with dynAddr := v.toNat, dynValid := true } }) ∧
      exec (.setnewda a v) s = .next (if s.svc.dynValid = true then { s with svc := { s.svc with dynAddr := v.toNat, dynValid := true } } else s) ∧
      exec (.getpid a) s = .next { s with out := s.out ++ [.bytes "GETPID" (toBytesBE 6 s.pid)] } ∧ exec (.getbcr a) s = .next { s with out := s.out ++ [.bytes "GETBCR" [0x06]] } ∧
      exec (.getdcr a) s = .next { s with out := s.out ++ [.bytes "GETDCR" [0x00]] } ∧ exec (.getmwl a) s = .next { s with out := s.out ++ [.bytes "GETMWL" [0, 35]] } ∧
      exec (.getmrl a) s = .next { s with out := s.out ++ [.bytes "GETMRL" [1, 2, 1]] } ∧ exec (.getstatus a) s = .next { s with out := s.out ++ [.bytes "GETSTATUS" (toBytesBE 2 s.sbStatus)] }) ∧
    (s.addressed a = false → exec (.setdasa a v) s = .next s ∧ exec (.setnewda a v) s = .next s ∧ exec (.getpid a) s = .next s ∧ exec (.getbcr a) s = .next s ∧ exec (.getdcr a) s = .next s ∧
      exec (.getmwl a) s = .next s ∧ exec (.getmrl a) s = .next s ∧ exec (.getstatus a) s = .next s)) ∧
  (∀ (s : State) (pins shift : BitVec 379), s.settled = true →
    exec .tapReset s = .next { s with tap := { s.tap with ir := 0x01, driving := 0 } } ∧
    (s.tapOn = true →
      exec .idcode s = .next { s with tap := { s.tap with ir := 0x01, driving := 0 }, out := s.out ++ [.bytes "TDO" [0x35, 0x07, 0x41, 0x12]] } ∧
      exec .bypass s = .next { s with tap := { s.tap with ir := 0xFF, driving := 0 }, out := s.out ++ [.bytes "TDO" [0]] } ∧
      exec (.samplePreload pins shift) s = .next { s with tap := { s.tap with ir := 0x02, driving := 0, cells := pins, held := shift }, out := s.out ++ [.bytes "TDO" (toBytes 48 pins.toNat)] } ∧
      (s.svc.testMode = true →
        exec (.extest pins shift) s = .next { s with tap := { s.tap with ir := 0x00, driving := 1, cells := pins, held := shift }, out := s.out ++ [.bytes "TDO" (toBytes 48 pins.toNat)] } ∧
        exec (.extestPulse pins shift) s = .next { s with tap := { s.tap with ir := 0x09, driving := 4, cells := pins, held := shift }, out := s.out ++ [.bytes "TDO" (toBytes 48 pins.toNat)] } ∧
        exec (.extestTrain pins shift) s = .next { s with tap := { s.tap with ir := 0x0A, driving := 5, cells := pins, held := shift }, out := s.out ++ [.bytes "TDO" (toBytes 48 pins.toNat)] } ∧
        exec .clamp s = .next { s with tap := { s.tap with ir := 0x04, driving := 2 }, out := s.out ++ [.bytes "TDO" [0]] } ∧
        exec .highz s = .next { s with tap := { s.tap with ir := 0x05, driving := 3 }, out := s.out ++ [.bytes "TDO" [0]] }) ∧
      (s.svc.testMode = false →
        (∀ ir c, (c, ir) ∈ [(Instr.extest pins shift, (0x00 : BitVec 8)), (.extestPulse pins shift, 0x09), (.extestTrain pins shift, 0x0A), (.clamp, 0x04), (.highz, 0x05)] →
          exec c s = .next { s with tap := { s.tap with ir := ir, driving := 0 }, out := s.out ++ [.bytes "TDO" [0]] })) ∧
      (s.svc.testMode = true → s.boot.dbgLocked = false →
        exec (.debug .halt) s = .next { s with tap := { s.tap with ir := 0x20, driving := 0, halted := true } } ∧
        exec (.debug .release) s = .next { s with tap := { s.tap with ir := 0x20, driving := 0, halted := false } } ∧
        exec (.debug .step) s = .next { s with tap := { s.tap with ir := 0x20, driving := 0 } } ∧ exec (.debug .select) s = .next { s with tap := { s.tap with ir := 0x20, driving := 0 } } ∧
        (∀ x : BitVec 40, (x.toNat % 4 = 0 → s.comServed = true → csrDecoded s x.toNat = true →
            exec (.debug (.readWord x)) s = .next { s with tap := { s.tap with ir := 0x20, driving := 0 }, out := s.out ++ [.bytes "DEBUG" (toBytes 4 ((s.csrNat x.toNat).getD 0))] }) ∧
          (x.toNat % 4 ≠ 0 ∨ s.comServed = false → exec (.debug (.readWord x)) s = .next { s with tap := { s.tap with ir := 0x20, driving := 0 }, out := s.out ++ [.bytes "DEBUG" [0, 0, 0, 0]] }) ∧
          (x.toNat % 4 ≠ 0 ∨ s.comServed = false ∨ csrDecoded s x.toNat = false ∨ inStoreWindow x.toNat = true → ∀ v, exec (.debug (.writeWord x v)) s = .next { s with tap := { s.tap with ir := 0x20, driving := 0 } })) ∧
        (∀ (x : BitVec 40) (w : Bytes), 0 < w.length → x.toNat % 64 + w.length ≤ 64 → s.kindAt x.toNat = 1 →
          exec (.debug (.writeLocal x w)) s = .next (({ s with tap := { s.tap with ir := 0x20, driving := 0 } } : State).placeRaw x.toNat w)) ∧
        ∀ (x : BitVec 40) (n : Nat), 0 < n → n ≤ 64 → x.toNat % 64 + n ≤ 64 → s.kindAt x.toNat = 1 →
          exec (.debug (.readLocal x n)) s = .next { s with tap := { s.tap with ir := 0x20, driving := 0 }, out := s.out ++ [.bytes "DEBUG" (s.readRaw x.toNat n).1] }) ∧
      ((s.svc.testMode = false ∨ s.boot.dbgLocked = true) → ∀ op, exec (.debug op) s = .next { s with tap := { s.tap with ir := 0x20, driving := 0 }, out := s.out ++ [.bytes "TDO" [0]] })) ∧
    (s.tapOn = false → ∀ op, exec (.debug op) s = .next s ∧ exec .bypass s = .next s ∧ exec .idcode s = .next s ∧ exec (.extest pins shift) s = .next s ∧ exec (.samplePreload pins shift) s = .next s ∧ exec .clamp s = .next s ∧
      exec .highz s = .next s ∧ exec (.extestPulse pins shift) s = .next s ∧ exec (.extestTrain pins shift) s = .next s))
end

