-- ==== Sys2Proof/Laws/State.lean ====
section
/-! SUPPORT. What the setters of State do to each of its fields: one lemma a field, true by unfolding. -/
namespace Sys2Proof.Machine

/-! ### setHob -/

@[simp] theorem State.setHob_hobs (s : State) (h : Nat) (x : Hob) : (s.setHob h x).hobs = put {} h x s.hobs := rfl
@[simp] theorem State.setHob_ranges (s : State) (h : Nat) (x : Hob) : (s.setHob h x).ranges = s.ranges := rfl
@[simp] theorem State.setHob_gates (s : State) (h : Nat) (x : Hob) : (s.setHob h x).gates = s.gates := rfl
@[simp] theorem State.setHob_mem (s : State) (h : Nat) (x : Hob) : (s.setHob h x).mem = s.mem := rfl
@[simp] theorem State.setHob_linePoi (s : State) (h : Nat) (x : Hob) : (s.setHob h x).linePoi = s.linePoi := rfl
@[simp] theorem State.setHob_stk (s : State) (h : Nat) (x : Hob) : (s.setHob h x).stk = s.stk := rfl
@[simp] theorem State.setHob_flg (s : State) (h : Nat) (x : Hob) : (s.setHob h x).flg = s.flg := rfl
@[simp] theorem State.setHob_tenants (s : State) (h : Nat) (x : Hob) : (s.setHob h x).tenants = s.tenants := rfl
@[simp] theorem State.setHob_shared (s : State) (h : Nat) (x : Hob) : (s.setHob h x).shared = s.shared := rfl
@[simp] theorem State.setHob_leaving (s : State) (h : Nat) (x : Hob) : (s.setHob h x).leaving = s.leaving := rfl
@[simp] theorem State.setHob_stage (s : State) (h : Nat) (x : Hob) : (s.setHob h x).stage = s.stage := rfl
@[simp] theorem State.setHob_stageFill (s : State) (h : Nat) (x : Hob) : (s.setHob h x).stageFill = s.stageFill := rfl
@[simp] theorem State.setHob_mantel (s : State) (h : Nat) (x : Hob) : (s.setHob h x).mantel = s.mantel := rfl
@[simp] theorem State.setHob_mantelOut (s : State) (h : Nat) (x : Hob) : (s.setHob h x).mantelOut = s.mantelOut := rfl
@[simp] theorem State.setHob_remote (s : State) (h : Nat) (x : Hob) : (s.setHob h x).remote = s.remote := rfl
@[simp] theorem State.setHob_nextRemote (s : State) (h : Nat) (x : Hob) : (s.setHob h x).nextRemote = s.nextRemote := rfl
@[simp] theorem State.setHob_spineLast (s : State) (h : Nat) (x : Hob) : (s.setHob h x).spineLast = s.spineLast := rfl
@[simp] theorem State.setHob_loopback (s : State) (h : Nat) (x : Hob) : (s.setHob h x).loopback = s.loopback := rfl
@[simp] theorem State.setHob_svc (s : State) (h : Nat) (x : Hob) : (s.setHob h x).svc = s.svc := rfl
@[simp] theorem State.setHob_com (s : State) (h : Nat) (x : Hob) : (s.setHob h x).com = s.com := rfl
@[simp] theorem State.setHob_tap (s : State) (h : Nat) (x : Hob) : (s.setHob h x).tap = s.tap := rfl
@[simp] theorem State.setHob_rt (s : State) (h : Nat) (x : Hob) : (s.setHob h x).rt = s.rt := rfl
@[simp] theorem State.setHob_clk (s : State) (h : Nat) (x : Hob) : (s.setHob h x).clk = s.clk := rfl
@[simp] theorem State.setHob_pwr (s : State) (h : Nat) (x : Hob) : (s.setHob h x).pwr = s.pwr := rfl
@[simp] theorem State.setHob_boot (s : State) (h : Nat) (x : Hob) : (s.setHob h x).boot = s.boot := rfl
@[simp] theorem State.setHob_trn (s : State) (h : Nat) (x : Hob) : (s.setHob h x).trn = s.trn := rfl
@[simp] theorem State.setHob_fresh (s : State) (h : Nat) (x : Hob) : (s.setHob h x).fresh = s.fresh := rfl
@[simp] theorem State.setHob_out (s : State) (h : Nat) (x : Hob) : (s.setHob h x).out = s.out := rfl
@[simp] theorem State.setHob_pending (s : State) (h : Nat) (x : Hob) : (s.setHob h x).pending = s.pending := rfl

/-! ### setRange -/

@[simp] theorem State.setRange_hobs (s : State) (q : Nat) (x : Range) : (s.setRange q x).hobs = s.hobs := rfl
@[simp] theorem State.setRange_ranges (s : State) (q : Nat) (x : Range) : (s.setRange q x).ranges = put {} q x s.ranges := rfl
@[simp] theorem State.setRange_gates (s : State) (q : Nat) (x : Range) : (s.setRange q x).gates = s.gates := rfl
@[simp] theorem State.setRange_mem (s : State) (q : Nat) (x : Range) : (s.setRange q x).mem = s.mem := rfl
@[simp] theorem State.setRange_linePoi (s : State) (q : Nat) (x : Range) : (s.setRange q x).linePoi = s.linePoi := rfl
@[simp] theorem State.setRange_stk (s : State) (q : Nat) (x : Range) : (s.setRange q x).stk = s.stk := rfl
@[simp] theorem State.setRange_flg (s : State) (q : Nat) (x : Range) : (s.setRange q x).flg = s.flg := rfl
@[simp] theorem State.setRange_tenants (s : State) (q : Nat) (x : Range) : (s.setRange q x).tenants = s.tenants := rfl
@[simp] theorem State.setRange_shared (s : State) (q : Nat) (x : Range) : (s.setRange q x).shared = s.shared := rfl
@[simp] theorem State.setRange_leaving (s : State) (q : Nat) (x : Range) : (s.setRange q x).leaving = s.leaving := rfl
@[simp] theorem State.setRange_stage (s : State) (q : Nat) (x : Range) : (s.setRange q x).stage = s.stage := rfl
@[simp] theorem State.setRange_stageFill (s : State) (q : Nat) (x : Range) : (s.setRange q x).stageFill = s.stageFill := rfl
@[simp] theorem State.setRange_mantel (s : State) (q : Nat) (x : Range) : (s.setRange q x).mantel = s.mantel := rfl
@[simp] theorem State.setRange_mantelOut (s : State) (q : Nat) (x : Range) : (s.setRange q x).mantelOut = s.mantelOut := rfl
@[simp] theorem State.setRange_remote (s : State) (q : Nat) (x : Range) : (s.setRange q x).remote = s.remote := rfl
@[simp] theorem State.setRange_nextRemote (s : State) (q : Nat) (x : Range) : (s.setRange q x).nextRemote = s.nextRemote := rfl
@[simp] theorem State.setRange_spineLast (s : State) (q : Nat) (x : Range) : (s.setRange q x).spineLast = s.spineLast := rfl
@[simp] theorem State.setRange_loopback (s : State) (q : Nat) (x : Range) : (s.setRange q x).loopback = s.loopback := rfl
@[simp] theorem State.setRange_svc (s : State) (q : Nat) (x : Range) : (s.setRange q x).svc = s.svc := rfl
@[simp] theorem State.setRange_com (s : State) (q : Nat) (x : Range) : (s.setRange q x).com = s.com := rfl
@[simp] theorem State.setRange_tap (s : State) (q : Nat) (x : Range) : (s.setRange q x).tap = s.tap := rfl
@[simp] theorem State.setRange_rt (s : State) (q : Nat) (x : Range) : (s.setRange q x).rt = s.rt := rfl
@[simp] theorem State.setRange_clk (s : State) (q : Nat) (x : Range) : (s.setRange q x).clk = s.clk := rfl
@[simp] theorem State.setRange_pwr (s : State) (q : Nat) (x : Range) : (s.setRange q x).pwr = s.pwr := rfl
@[simp] theorem State.setRange_boot (s : State) (q : Nat) (x : Range) : (s.setRange q x).boot = s.boot := rfl
@[simp] theorem State.setRange_trn (s : State) (q : Nat) (x : Range) : (s.setRange q x).trn = s.trn := rfl
@[simp] theorem State.setRange_fresh (s : State) (q : Nat) (x : Range) : (s.setRange q x).fresh = s.fresh := rfl
@[simp] theorem State.setRange_out (s : State) (q : Nat) (x : Range) : (s.setRange q x).out = s.out := rfl
@[simp] theorem State.setRange_pending (s : State) (q : Nat) (x : Range) : (s.setRange q x).pending = s.pending := rfl

/-! ### setGate -/

@[simp] theorem State.setGate_hobs (s : State) (n : Nat) (x : Gate) : (s.setGate n x).hobs = s.hobs := rfl
@[simp] theorem State.setGate_ranges (s : State) (n : Nat) (x : Gate) : (s.setGate n x).ranges = s.ranges := rfl
@[simp] theorem State.setGate_gates (s : State) (n : Nat) (x : Gate) : (s.setGate n x).gates = put {} n x s.gates := rfl
@[simp] theorem State.setGate_mem (s : State) (n : Nat) (x : Gate) : (s.setGate n x).mem = s.mem := rfl
@[simp] theorem State.setGate_linePoi (s : State) (n : Nat) (x : Gate) : (s.setGate n x).linePoi = s.linePoi := rfl
@[simp] theorem State.setGate_stk (s : State) (n : Nat) (x : Gate) : (s.setGate n x).stk = s.stk := rfl
@[simp] theorem State.setGate_flg (s : State) (n : Nat) (x : Gate) : (s.setGate n x).flg = s.flg := rfl
@[simp] theorem State.setGate_tenants (s : State) (n : Nat) (x : Gate) : (s.setGate n x).tenants = s.tenants := rfl
@[simp] theorem State.setGate_shared (s : State) (n : Nat) (x : Gate) : (s.setGate n x).shared = s.shared := rfl
@[simp] theorem State.setGate_leaving (s : State) (n : Nat) (x : Gate) : (s.setGate n x).leaving = s.leaving := rfl
@[simp] theorem State.setGate_stage (s : State) (n : Nat) (x : Gate) : (s.setGate n x).stage = s.stage := rfl
@[simp] theorem State.setGate_stageFill (s : State) (n : Nat) (x : Gate) : (s.setGate n x).stageFill = s.stageFill := rfl
@[simp] theorem State.setGate_mantel (s : State) (n : Nat) (x : Gate) : (s.setGate n x).mantel = s.mantel := rfl
@[simp] theorem State.setGate_mantelOut (s : State) (n : Nat) (x : Gate) : (s.setGate n x).mantelOut = s.mantelOut := rfl
@[simp] theorem State.setGate_remote (s : State) (n : Nat) (x : Gate) : (s.setGate n x).remote = s.remote := rfl
@[simp] theorem State.setGate_nextRemote (s : State) (n : Nat) (x : Gate) : (s.setGate n x).nextRemote = s.nextRemote := rfl
@[simp] theorem State.setGate_spineLast (s : State) (n : Nat) (x : Gate) : (s.setGate n x).spineLast = s.spineLast := rfl
@[simp] theorem State.setGate_loopback (s : State) (n : Nat) (x : Gate) : (s.setGate n x).loopback = s.loopback := rfl
@[simp] theorem State.setGate_svc (s : State) (n : Nat) (x : Gate) : (s.setGate n x).svc = s.svc := rfl
@[simp] theorem State.setGate_com (s : State) (n : Nat) (x : Gate) : (s.setGate n x).com = s.com := rfl
@[simp] theorem State.setGate_tap (s : State) (n : Nat) (x : Gate) : (s.setGate n x).tap = s.tap := rfl
@[simp] theorem State.setGate_rt (s : State) (n : Nat) (x : Gate) : (s.setGate n x).rt = s.rt := rfl
@[simp] theorem State.setGate_clk (s : State) (n : Nat) (x : Gate) : (s.setGate n x).clk = s.clk := rfl
@[simp] theorem State.setGate_pwr (s : State) (n : Nat) (x : Gate) : (s.setGate n x).pwr = s.pwr := rfl
@[simp] theorem State.setGate_boot (s : State) (n : Nat) (x : Gate) : (s.setGate n x).boot = s.boot := rfl
@[simp] theorem State.setGate_trn (s : State) (n : Nat) (x : Gate) : (s.setGate n x).trn = s.trn := rfl
@[simp] theorem State.setGate_fresh (s : State) (n : Nat) (x : Gate) : (s.setGate n x).fresh = s.fresh := rfl
@[simp] theorem State.setGate_out (s : State) (n : Nat) (x : Gate) : (s.setGate n x).out = s.out := rfl
@[simp] theorem State.setGate_pending (s : State) (n : Nat) (x : Gate) : (s.setGate n x).pending = s.pending := rfl

/-! ### emit -/

@[simp] theorem State.emit_hobs (s : State) (o : Out) : (s.emit o).hobs = s.hobs := rfl
@[simp] theorem State.emit_ranges (s : State) (o : Out) : (s.emit o).ranges = s.ranges := rfl
@[simp] theorem State.emit_gates (s : State) (o : Out) : (s.emit o).gates = s.gates := rfl
@[simp] theorem State.emit_mem (s : State) (o : Out) : (s.emit o).mem = s.mem := rfl
@[simp] theorem State.emit_linePoi (s : State) (o : Out) : (s.emit o).linePoi = s.linePoi := rfl
@[simp] theorem State.emit_stk (s : State) (o : Out) : (s.emit o).stk = s.stk := rfl
@[simp] theorem State.emit_flg (s : State) (o : Out) : (s.emit o).flg = s.flg := rfl
@[simp] theorem State.emit_tenants (s : State) (o : Out) : (s.emit o).tenants = s.tenants := rfl
@[simp] theorem State.emit_shared (s : State) (o : Out) : (s.emit o).shared = s.shared := rfl
@[simp] theorem State.emit_leaving (s : State) (o : Out) : (s.emit o).leaving = s.leaving := rfl
@[simp] theorem State.emit_stage (s : State) (o : Out) : (s.emit o).stage = s.stage := rfl
@[simp] theorem State.emit_stageFill (s : State) (o : Out) : (s.emit o).stageFill = s.stageFill := rfl
@[simp] theorem State.emit_mantel (s : State) (o : Out) : (s.emit o).mantel = s.mantel := rfl
@[simp] theorem State.emit_mantelOut (s : State) (o : Out) : (s.emit o).mantelOut = s.mantelOut := rfl
@[simp] theorem State.emit_remote (s : State) (o : Out) : (s.emit o).remote = s.remote := rfl
@[simp] theorem State.emit_nextRemote (s : State) (o : Out) : (s.emit o).nextRemote = s.nextRemote := rfl
@[simp] theorem State.emit_spineLast (s : State) (o : Out) : (s.emit o).spineLast = s.spineLast := rfl
@[simp] theorem State.emit_loopback (s : State) (o : Out) : (s.emit o).loopback = s.loopback := rfl
@[simp] theorem State.emit_svc (s : State) (o : Out) : (s.emit o).svc = s.svc := rfl
@[simp] theorem State.emit_com (s : State) (o : Out) : (s.emit o).com = s.com := rfl
@[simp] theorem State.emit_tap (s : State) (o : Out) : (s.emit o).tap = s.tap := rfl
@[simp] theorem State.emit_rt (s : State) (o : Out) : (s.emit o).rt = s.rt := rfl
@[simp] theorem State.emit_clk (s : State) (o : Out) : (s.emit o).clk = s.clk := rfl
@[simp] theorem State.emit_pwr (s : State) (o : Out) : (s.emit o).pwr = s.pwr := rfl
@[simp] theorem State.emit_boot (s : State) (o : Out) : (s.emit o).boot = s.boot := rfl
@[simp] theorem State.emit_trn (s : State) (o : Out) : (s.emit o).trn = s.trn := rfl
@[simp] theorem State.emit_fresh (s : State) (o : Out) : (s.emit o).fresh = s.fresh := rfl
@[simp] theorem State.emit_out (s : State) (o : Out) : (s.emit o).out = s.out ++ [o] := rfl
@[simp] theorem State.emit_pending (s : State) (o : Out) : (s.emit o).pending = s.pending := rfl

/-! ### setChan -/

@[simp] theorem State.setChan_hobs (s : State) (c : Nat) (x : Channel) : (s.setChan c x).hobs = s.hobs := rfl
@[simp] theorem State.setChan_ranges (s : State) (c : Nat) (x : Channel) : (s.setChan c x).ranges = s.ranges := rfl
@[simp] theorem State.setChan_gates (s : State) (c : Nat) (x : Channel) : (s.setChan c x).gates = s.gates := rfl
@[simp] theorem State.setChan_mem (s : State) (c : Nat) (x : Channel) : (s.setChan c x).mem = s.mem := rfl
@[simp] theorem State.setChan_linePoi (s : State) (c : Nat) (x : Channel) : (s.setChan c x).linePoi = s.linePoi := rfl
@[simp] theorem State.setChan_stk (s : State) (c : Nat) (x : Channel) : (s.setChan c x).stk = s.stk := rfl
@[simp] theorem State.setChan_flg (s : State) (c : Nat) (x : Channel) : (s.setChan c x).flg = { s.flg with chans := put {} c x s.flg.chans } := rfl
@[simp] theorem State.setChan_tenants (s : State) (c : Nat) (x : Channel) : (s.setChan c x).tenants = s.tenants := rfl
@[simp] theorem State.setChan_shared (s : State) (c : Nat) (x : Channel) : (s.setChan c x).shared = s.shared := rfl
@[simp] theorem State.setChan_leaving (s : State) (c : Nat) (x : Channel) : (s.setChan c x).leaving = s.leaving := rfl
@[simp] theorem State.setChan_stage (s : State) (c : Nat) (x : Channel) : (s.setChan c x).stage = s.stage := rfl
@[simp] theorem State.setChan_stageFill (s : State) (c : Nat) (x : Channel) : (s.setChan c x).stageFill = s.stageFill := rfl
@[simp] theorem State.setChan_mantel (s : State) (c : Nat) (x : Channel) : (s.setChan c x).mantel = s.mantel := rfl
@[simp] theorem State.setChan_mantelOut (s : State) (c : Nat) (x : Channel) : (s.setChan c x).mantelOut = s.mantelOut := rfl
@[simp] theorem State.setChan_remote (s : State) (c : Nat) (x : Channel) : (s.setChan c x).remote = s.remote := rfl
@[simp] theorem State.setChan_nextRemote (s : State) (c : Nat) (x : Channel) : (s.setChan c x).nextRemote = s.nextRemote := rfl
@[simp] theorem State.setChan_spineLast (s : State) (c : Nat) (x : Channel) : (s.setChan c x).spineLast = s.spineLast := rfl
@[simp] theorem State.setChan_loopback (s : State) (c : Nat) (x : Channel) : (s.setChan c x).loopback = s.loopback := rfl
@[simp] theorem State.setChan_svc (s : State) (c : Nat) (x : Channel) : (s.setChan c x).svc = s.svc := rfl
@[simp] theorem State.setChan_com (s : State) (c : Nat) (x : Channel) : (s.setChan c x).com = s.com := rfl
@[simp] theorem State.setChan_tap (s : State) (c : Nat) (x : Channel) : (s.setChan c x).tap = s.tap := rfl
@[simp] theorem State.setChan_rt (s : State) (c : Nat) (x : Channel) : (s.setChan c x).rt = s.rt := rfl
@[simp] theorem State.setChan_clk (s : State) (c : Nat) (x : Channel) : (s.setChan c x).clk = s.clk := rfl
@[simp] theorem State.setChan_pwr (s : State) (c : Nat) (x : Channel) : (s.setChan c x).pwr = s.pwr := rfl
@[simp] theorem State.setChan_boot (s : State) (c : Nat) (x : Channel) : (s.setChan c x).boot = s.boot := rfl
@[simp] theorem State.setChan_trn (s : State) (c : Nat) (x : Channel) : (s.setChan c x).trn = s.trn := rfl
@[simp] theorem State.setChan_fresh (s : State) (c : Nat) (x : Channel) : (s.setChan c x).fresh = s.fresh := rfl
@[simp] theorem State.setChan_out (s : State) (c : Nat) (x : Channel) : (s.setChan c x).out = s.out := rfl
@[simp] theorem State.setChan_pending (s : State) (c : Nat) (x : Channel) : (s.setChan c x).pending = s.pending := rfl

/-! ### setChim -/

@[simp] theorem State.setChim_hobs (s : State) (k : Nat) (x : Chimney) : (s.setChim k x).hobs = s.hobs := rfl
@[simp] theorem State.setChim_ranges (s : State) (k : Nat) (x : Chimney) : (s.setChim k x).ranges = s.ranges := rfl
@[simp] theorem State.setChim_gates (s : State) (k : Nat) (x : Chimney) : (s.setChim k x).gates = s.gates := rfl
@[simp] theorem State.setChim_mem (s : State) (k : Nat) (x : Chimney) : (s.setChim k x).mem = s.mem := rfl
@[simp] theorem State.setChim_linePoi (s : State) (k : Nat) (x : Chimney) : (s.setChim k x).linePoi = s.linePoi := rfl
@[simp] theorem State.setChim_stk (s : State) (k : Nat) (x : Chimney) : (s.setChim k x).stk = s.stk := rfl
@[simp] theorem State.setChim_flg (s : State) (k : Nat) (x : Chimney) : (s.setChim k x).flg = { s.flg with chims := put {} k x s.flg.chims } := rfl
@[simp] theorem State.setChim_tenants (s : State) (k : Nat) (x : Chimney) : (s.setChim k x).tenants = s.tenants := rfl
@[simp] theorem State.setChim_shared (s : State) (k : Nat) (x : Chimney) : (s.setChim k x).shared = s.shared := rfl
@[simp] theorem State.setChim_leaving (s : State) (k : Nat) (x : Chimney) : (s.setChim k x).leaving = s.leaving := rfl
@[simp] theorem State.setChim_stage (s : State) (k : Nat) (x : Chimney) : (s.setChim k x).stage = s.stage := rfl
@[simp] theorem State.setChim_stageFill (s : State) (k : Nat) (x : Chimney) : (s.setChim k x).stageFill = s.stageFill := rfl
@[simp] theorem State.setChim_mantel (s : State) (k : Nat) (x : Chimney) : (s.setChim k x).mantel = s.mantel := rfl
@[simp] theorem State.setChim_mantelOut (s : State) (k : Nat) (x : Chimney) : (s.setChim k x).mantelOut = s.mantelOut := rfl
@[simp] theorem State.setChim_remote (s : State) (k : Nat) (x : Chimney) : (s.setChim k x).remote = s.remote := rfl
@[simp] theorem State.setChim_nextRemote (s : State) (k : Nat) (x : Chimney) : (s.setChim k x).nextRemote = s.nextRemote := rfl
@[simp] theorem State.setChim_spineLast (s : State) (k : Nat) (x : Chimney) : (s.setChim k x).spineLast = s.spineLast := rfl
@[simp] theorem State.setChim_loopback (s : State) (k : Nat) (x : Chimney) : (s.setChim k x).loopback = s.loopback := rfl
@[simp] theorem State.setChim_svc (s : State) (k : Nat) (x : Chimney) : (s.setChim k x).svc = s.svc := rfl
@[simp] theorem State.setChim_com (s : State) (k : Nat) (x : Chimney) : (s.setChim k x).com = s.com := rfl
@[simp] theorem State.setChim_tap (s : State) (k : Nat) (x : Chimney) : (s.setChim k x).tap = s.tap := rfl
@[simp] theorem State.setChim_rt (s : State) (k : Nat) (x : Chimney) : (s.setChim k x).rt = s.rt := rfl
@[simp] theorem State.setChim_clk (s : State) (k : Nat) (x : Chimney) : (s.setChim k x).clk = s.clk := rfl
@[simp] theorem State.setChim_pwr (s : State) (k : Nat) (x : Chimney) : (s.setChim k x).pwr = s.pwr := rfl
@[simp] theorem State.setChim_boot (s : State) (k : Nat) (x : Chimney) : (s.setChim k x).boot = s.boot := rfl
@[simp] theorem State.setChim_trn (s : State) (k : Nat) (x : Chimney) : (s.setChim k x).trn = s.trn := rfl
@[simp] theorem State.setChim_fresh (s : State) (k : Nat) (x : Chimney) : (s.setChim k x).fresh = s.fresh := rfl
@[simp] theorem State.setChim_out (s : State) (k : Nat) (x : Chimney) : (s.setChim k x).out = s.out := rfl
@[simp] theorem State.setChim_pending (s : State) (k : Nat) (x : Chimney) : (s.setChim k x).pending = s.pending := rfl

/-! ### setFlag -/

@[simp] theorem State.setFlag_hobs (s : State) (f : Nat) (v : Word) : (s.setFlag f v).hobs = s.hobs := rfl
@[simp] theorem State.setFlag_ranges (s : State) (f : Nat) (v : Word) : (s.setFlag f v).ranges = s.ranges := rfl
@[simp] theorem State.setFlag_gates (s : State) (f : Nat) (v : Word) : (s.setFlag f v).gates = s.gates := rfl
@[simp] theorem State.setFlag_mem (s : State) (f : Nat) (v : Word) : (s.setFlag f v).mem = s.mem := rfl
@[simp] theorem State.setFlag_linePoi (s : State) (f : Nat) (v : Word) : (s.setFlag f v).linePoi = s.linePoi := rfl
@[simp] theorem State.setFlag_stk (s : State) (f : Nat) (v : Word) : (s.setFlag f v).stk = s.stk := rfl
@[simp] theorem State.setFlag_flg (s : State) (f : Nat) (v : Word) : (s.setFlag f v).flg = { s.flg with val := put 0 f v s.flg.val } := rfl
@[simp] theorem State.setFlag_tenants (s : State) (f : Nat) (v : Word) : (s.setFlag f v).tenants = s.tenants := rfl
@[simp] theorem State.setFlag_shared (s : State) (f : Nat) (v : Word) : (s.setFlag f v).shared = s.shared := rfl
@[simp] theorem State.setFlag_leaving (s : State) (f : Nat) (v : Word) : (s.setFlag f v).leaving = s.leaving := rfl
@[simp] theorem State.setFlag_stage (s : State) (f : Nat) (v : Word) : (s.setFlag f v).stage = s.stage := rfl
@[simp] theorem State.setFlag_stageFill (s : State) (f : Nat) (v : Word) : (s.setFlag f v).stageFill = s.stageFill := rfl
@[simp] theorem State.setFlag_mantel (s : State) (f : Nat) (v : Word) : (s.setFlag f v).mantel = s.mantel := rfl
@[simp] theorem State.setFlag_mantelOut (s : State) (f : Nat) (v : Word) : (s.setFlag f v).mantelOut = s.mantelOut := rfl
@[simp] theorem State.setFlag_remote (s : State) (f : Nat) (v : Word) : (s.setFlag f v).remote = s.remote := rfl
@[simp] theorem State.setFlag_nextRemote (s : State) (f : Nat) (v : Word) : (s.setFlag f v).nextRemote = s.nextRemote := rfl
@[simp] theorem State.setFlag_spineLast (s : State) (f : Nat) (v : Word) : (s.setFlag f v).spineLast = s.spineLast := rfl
@[simp] theorem State.setFlag_loopback (s : State) (f : Nat) (v : Word) : (s.setFlag f v).loopback = s.loopback := rfl
@[simp] theorem State.setFlag_svc (s : State) (f : Nat) (v : Word) : (s.setFlag f v).svc = s.svc := rfl
@[simp] theorem State.setFlag_com (s : State) (f : Nat) (v : Word) : (s.setFlag f v).com = s.com := rfl
@[simp] theorem State.setFlag_tap (s : State) (f : Nat) (v : Word) : (s.setFlag f v).tap = s.tap := rfl
@[simp] theorem State.setFlag_rt (s : State) (f : Nat) (v : Word) : (s.setFlag f v).rt = s.rt := rfl
@[simp] theorem State.setFlag_clk (s : State) (f : Nat) (v : Word) : (s.setFlag f v).clk = s.clk := rfl
@[simp] theorem State.setFlag_pwr (s : State) (f : Nat) (v : Word) : (s.setFlag f v).pwr = s.pwr := rfl
@[simp] theorem State.setFlag_boot (s : State) (f : Nat) (v : Word) : (s.setFlag f v).boot = s.boot := rfl
@[simp] theorem State.setFlag_trn (s : State) (f : Nat) (v : Word) : (s.setFlag f v).trn = s.trn := rfl
@[simp] theorem State.setFlag_fresh (s : State) (f : Nat) (v : Word) : (s.setFlag f v).fresh = s.fresh := rfl
@[simp] theorem State.setFlag_out (s : State) (f : Nat) (v : Word) : (s.setFlag f v).out = s.out := rfl
@[simp] theorem State.setFlag_pending (s : State) (f : Nat) (v : Word) : (s.setFlag f v).pending = s.pending := rfl

/-! ### setEntry -/

@[simp] theorem State.setEntry_hobs (s : State) (e : Nat) (x : Entry) : (s.setEntry e x).hobs = s.hobs := rfl
@[simp] theorem State.setEntry_ranges (s : State) (e : Nat) (x : Entry) : (s.setEntry e x).ranges = s.ranges := rfl
@[simp] theorem State.setEntry_gates (s : State) (e : Nat) (x : Entry) : (s.setEntry e x).gates = s.gates := rfl
@[simp] theorem State.setEntry_mem (s : State) (e : Nat) (x : Entry) : (s.setEntry e x).mem = s.mem := rfl
@[simp] theorem State.setEntry_linePoi (s : State) (e : Nat) (x : Entry) : (s.setEntry e x).linePoi = s.linePoi := rfl
@[simp] theorem State.setEntry_stk (s : State) (e : Nat) (x : Entry) : (s.setEntry e x).stk = { s.stk with entries := put {} e x s.stk.entries } := rfl
@[simp] theorem State.setEntry_flg (s : State) (e : Nat) (x : Entry) : (s.setEntry e x).flg = s.flg := rfl
@[simp] theorem State.setEntry_tenants (s : State) (e : Nat) (x : Entry) : (s.setEntry e x).tenants = s.tenants := rfl
@[simp] theorem State.setEntry_shared (s : State) (e : Nat) (x : Entry) : (s.setEntry e x).shared = s.shared := rfl
@[simp] theorem State.setEntry_leaving (s : State) (e : Nat) (x : Entry) : (s.setEntry e x).leaving = s.leaving := rfl
@[simp] theorem State.setEntry_stage (s : State) (e : Nat) (x : Entry) : (s.setEntry e x).stage = s.stage := rfl
@[simp] theorem State.setEntry_stageFill (s : State) (e : Nat) (x : Entry) : (s.setEntry e x).stageFill = s.stageFill := rfl
@[simp] theorem State.setEntry_mantel (s : State) (e : Nat) (x : Entry) : (s.setEntry e x).mantel = s.mantel := rfl
@[simp] theorem State.setEntry_mantelOut (s : State) (e : Nat) (x : Entry) : (s.setEntry e x).mantelOut = s.mantelOut := rfl
@[simp] theorem State.setEntry_remote (s : State) (e : Nat) (x : Entry) : (s.setEntry e x).remote = s.remote := rfl
@[simp] theorem State.setEntry_nextRemote (s : State) (e : Nat) (x : Entry) : (s.setEntry e x).nextRemote = s.nextRemote := rfl
@[simp] theorem State.setEntry_spineLast (s : State) (e : Nat) (x : Entry) : (s.setEntry e x).spineLast = s.spineLast := rfl
@[simp] theorem State.setEntry_loopback (s : State) (e : Nat) (x : Entry) : (s.setEntry e x).loopback = s.loopback := rfl
@[simp] theorem State.setEntry_svc (s : State) (e : Nat) (x : Entry) : (s.setEntry e x).svc = s.svc := rfl
@[simp] theorem State.setEntry_com (s : State) (e : Nat) (x : Entry) : (s.setEntry e x).com = s.com := rfl
@[simp] theorem State.setEntry_tap (s : State) (e : Nat) (x : Entry) : (s.setEntry e x).tap = s.tap := rfl
@[simp] theorem State.setEntry_rt (s : State) (e : Nat) (x : Entry) : (s.setEntry e x).rt = s.rt := rfl
@[simp] theorem State.setEntry_clk (s : State) (e : Nat) (x : Entry) : (s.setEntry e x).clk = s.clk := rfl
@[simp] theorem State.setEntry_pwr (s : State) (e : Nat) (x : Entry) : (s.setEntry e x).pwr = s.pwr := rfl
@[simp] theorem State.setEntry_boot (s : State) (e : Nat) (x : Entry) : (s.setEntry e x).boot = s.boot := rfl
@[simp] theorem State.setEntry_trn (s : State) (e : Nat) (x : Entry) : (s.setEntry e x).trn = s.trn := rfl
@[simp] theorem State.setEntry_fresh (s : State) (e : Nat) (x : Entry) : (s.setEntry e x).fresh = s.fresh := rfl
@[simp] theorem State.setEntry_out (s : State) (e : Nat) (x : Entry) : (s.setEntry e x).out = s.out := rfl
@[simp] theorem State.setEntry_pending (s : State) (e : Nat) (x : Entry) : (s.setEntry e x).pending = s.pending := rfl

/-! ### setQp -/

@[simp] theorem State.setQp_hobs (s : State) (n : Nat) (x : Qp) : (s.setQp n x).hobs = s.hobs := rfl
@[simp] theorem State.setQp_ranges (s : State) (n : Nat) (x : Qp) : (s.setQp n x).ranges = s.ranges := rfl
@[simp] theorem State.setQp_gates (s : State) (n : Nat) (x : Qp) : (s.setQp n x).gates = s.gates := rfl
@[simp] theorem State.setQp_mem (s : State) (n : Nat) (x : Qp) : (s.setQp n x).mem = s.mem := rfl
@[simp] theorem State.setQp_linePoi (s : State) (n : Nat) (x : Qp) : (s.setQp n x).linePoi = s.linePoi := rfl
@[simp] theorem State.setQp_stk (s : State) (n : Nat) (x : Qp) : (s.setQp n x).stk = s.stk := rfl
@[simp] theorem State.setQp_flg (s : State) (n : Nat) (x : Qp) : (s.setQp n x).flg = s.flg := rfl
@[simp] theorem State.setQp_tenants (s : State) (n : Nat) (x : Qp) : (s.setQp n x).tenants = s.tenants := rfl
@[simp] theorem State.setQp_shared (s : State) (n : Nat) (x : Qp) : (s.setQp n x).shared = s.shared := rfl
@[simp] theorem State.setQp_leaving (s : State) (n : Nat) (x : Qp) : (s.setQp n x).leaving = s.leaving := rfl
@[simp] theorem State.setQp_stage (s : State) (n : Nat) (x : Qp) : (s.setQp n x).stage = s.stage := rfl
@[simp] theorem State.setQp_stageFill (s : State) (n : Nat) (x : Qp) : (s.setQp n x).stageFill = s.stageFill := rfl
@[simp] theorem State.setQp_mantel (s : State) (n : Nat) (x : Qp) : (s.setQp n x).mantel = s.mantel := rfl
@[simp] theorem State.setQp_mantelOut (s : State) (n : Nat) (x : Qp) : (s.setQp n x).mantelOut = s.mantelOut := rfl
@[simp] theorem State.setQp_remote (s : State) (n : Nat) (x : Qp) : (s.setQp n x).remote = s.remote := rfl
@[simp] theorem State.setQp_nextRemote (s : State) (n : Nat) (x : Qp) : (s.setQp n x).nextRemote = s.nextRemote := rfl
@[simp] theorem State.setQp_spineLast (s : State) (n : Nat) (x : Qp) : (s.setQp n x).spineLast = s.spineLast := rfl
@[simp] theorem State.setQp_loopback (s : State) (n : Nat) (x : Qp) : (s.setQp n x).loopback = s.loopback := rfl
@[simp] theorem State.setQp_svc (s : State) (n : Nat) (x : Qp) : (s.setQp n x).svc = s.svc := rfl
@[simp] theorem State.setQp_com (s : State) (n : Nat) (x : Qp) : (s.setQp n x).com = s.com := rfl
@[simp] theorem State.setQp_tap (s : State) (n : Nat) (x : Qp) : (s.setQp n x).tap = s.tap := rfl
@[simp] theorem State.setQp_rt (s : State) (n : Nat) (x : Qp) : (s.setQp n x).rt = s.rt := rfl
@[simp] theorem State.setQp_clk (s : State) (n : Nat) (x : Qp) : (s.setQp n x).clk = s.clk := rfl
@[simp] theorem State.setQp_pwr (s : State) (n : Nat) (x : Qp) : (s.setQp n x).pwr = s.pwr := rfl
@[simp] theorem State.setQp_boot (s : State) (n : Nat) (x : Qp) : (s.setQp n x).boot = s.boot := rfl
@[simp] theorem State.setQp_trn (s : State) (n : Nat) (x : Qp) : (s.setQp n x).trn = { s.trn with qps := put {} n x s.trn.qps } := rfl
@[simp] theorem State.setQp_fresh (s : State) (n : Nat) (x : Qp) : (s.setQp n x).fresh = s.fresh := rfl
@[simp] theorem State.setQp_out (s : State) (n : Nat) (x : Qp) : (s.setQp n x).out = s.out := rfl
@[simp] theorem State.setQp_pending (s : State) (n : Nat) (x : Qp) : (s.setQp n x).pending = s.pending := rfl

/-! ### setRegion -/

@[simp] theorem State.setRegion_hobs (s : State) (i : Nat) (x : Region) : (s.setRegion i x).hobs = s.hobs := rfl
@[simp] theorem State.setRegion_ranges (s : State) (i : Nat) (x : Region) : (s.setRegion i x).ranges = s.ranges := rfl
@[simp] theorem State.setRegion_gates (s : State) (i : Nat) (x : Region) : (s.setRegion i x).gates = s.gates := rfl
@[simp] theorem State.setRegion_mem (s : State) (i : Nat) (x : Region) : (s.setRegion i x).mem = s.mem := rfl
@[simp] theorem State.setRegion_linePoi (s : State) (i : Nat) (x : Region) : (s.setRegion i x).linePoi = s.linePoi := rfl
@[simp] theorem State.setRegion_stk (s : State) (i : Nat) (x : Region) : (s.setRegion i x).stk = s.stk := rfl
@[simp] theorem State.setRegion_flg (s : State) (i : Nat) (x : Region) : (s.setRegion i x).flg = s.flg := rfl
@[simp] theorem State.setRegion_tenants (s : State) (i : Nat) (x : Region) : (s.setRegion i x).tenants = s.tenants := rfl
@[simp] theorem State.setRegion_shared (s : State) (i : Nat) (x : Region) : (s.setRegion i x).shared = s.shared := rfl
@[simp] theorem State.setRegion_leaving (s : State) (i : Nat) (x : Region) : (s.setRegion i x).leaving = s.leaving := rfl
@[simp] theorem State.setRegion_stage (s : State) (i : Nat) (x : Region) : (s.setRegion i x).stage = s.stage := rfl
@[simp] theorem State.setRegion_stageFill (s : State) (i : Nat) (x : Region) : (s.setRegion i x).stageFill = s.stageFill := rfl
@[simp] theorem State.setRegion_mantel (s : State) (i : Nat) (x : Region) : (s.setRegion i x).mantel = s.mantel := rfl
@[simp] theorem State.setRegion_mantelOut (s : State) (i : Nat) (x : Region) : (s.setRegion i x).mantelOut = s.mantelOut := rfl
@[simp] theorem State.setRegion_remote (s : State) (i : Nat) (x : Region) : (s.setRegion i x).remote = s.remote := rfl
@[simp] theorem State.setRegion_nextRemote (s : State) (i : Nat) (x : Region) : (s.setRegion i x).nextRemote = s.nextRemote := rfl
@[simp] theorem State.setRegion_spineLast (s : State) (i : Nat) (x : Region) : (s.setRegion i x).spineLast = s.spineLast := rfl
@[simp] theorem State.setRegion_loopback (s : State) (i : Nat) (x : Region) : (s.setRegion i x).loopback = s.loopback := rfl
@[simp] theorem State.setRegion_svc (s : State) (i : Nat) (x : Region) : (s.setRegion i x).svc = s.svc := rfl
@[simp] theorem State.setRegion_com (s : State) (i : Nat) (x : Region) : (s.setRegion i x).com = s.com := rfl
@[simp] theorem State.setRegion_tap (s : State) (i : Nat) (x : Region) : (s.setRegion i x).tap = s.tap := rfl
@[simp] theorem State.setRegion_rt (s : State) (i : Nat) (x : Region) : (s.setRegion i x).rt = s.rt := rfl
@[simp] theorem State.setRegion_clk (s : State) (i : Nat) (x : Region) : (s.setRegion i x).clk = s.clk := rfl
@[simp] theorem State.setRegion_pwr (s : State) (i : Nat) (x : Region) : (s.setRegion i x).pwr = s.pwr := rfl
@[simp] theorem State.setRegion_boot (s : State) (i : Nat) (x : Region) : (s.setRegion i x).boot = s.boot := rfl
@[simp] theorem State.setRegion_trn (s : State) (i : Nat) (x : Region) : (s.setRegion i x).trn = { s.trn with regions := put {} i x s.trn.regions } := rfl
@[simp] theorem State.setRegion_fresh (s : State) (i : Nat) (x : Region) : (s.setRegion i x).fresh = s.fresh := rfl
@[simp] theorem State.setRegion_out (s : State) (i : Nat) (x : Region) : (s.setRegion i x).out = s.out := rfl
@[simp] theorem State.setRegion_pending (s : State) (i : Nat) (x : Region) : (s.setRegion i x).pending = s.pending := rfl

/-! ### setIface -/

@[simp] theorem State.setIface_hobs (s : State) (i : Nat) (x : Iface) : (s.setIface i x).hobs = s.hobs := rfl
@[simp] theorem State.setIface_ranges (s : State) (i : Nat) (x : Iface) : (s.setIface i x).ranges = s.ranges := rfl
@[simp] theorem State.setIface_gates (s : State) (i : Nat) (x : Iface) : (s.setIface i x).gates = s.gates := rfl
@[simp] theorem State.setIface_mem (s : State) (i : Nat) (x : Iface) : (s.setIface i x).mem = s.mem := rfl
@[simp] theorem State.setIface_linePoi (s : State) (i : Nat) (x : Iface) : (s.setIface i x).linePoi = s.linePoi := rfl
@[simp] theorem State.setIface_stk (s : State) (i : Nat) (x : Iface) : (s.setIface i x).stk = s.stk := rfl
@[simp] theorem State.setIface_flg (s : State) (i : Nat) (x : Iface) : (s.setIface i x).flg = s.flg := rfl
@[simp] theorem State.setIface_tenants (s : State) (i : Nat) (x : Iface) : (s.setIface i x).tenants = s.tenants := rfl
@[simp] theorem State.setIface_shared (s : State) (i : Nat) (x : Iface) : (s.setIface i x).shared = s.shared := rfl
@[simp] theorem State.setIface_leaving (s : State) (i : Nat) (x : Iface) : (s.setIface i x).leaving = s.leaving := rfl
@[simp] theorem State.setIface_stage (s : State) (i : Nat) (x : Iface) : (s.setIface i x).stage = s.stage := rfl
@[simp] theorem State.setIface_stageFill (s : State) (i : Nat) (x : Iface) : (s.setIface i x).stageFill = s.stageFill := rfl
@[simp] theorem State.setIface_mantel (s : State) (i : Nat) (x : Iface) : (s.setIface i x).mantel = s.mantel := rfl
@[simp] theorem State.setIface_mantelOut (s : State) (i : Nat) (x : Iface) : (s.setIface i x).mantelOut = s.mantelOut := rfl
@[simp] theorem State.setIface_remote (s : State) (i : Nat) (x : Iface) : (s.setIface i x).remote = s.remote := rfl
@[simp] theorem State.setIface_nextRemote (s : State) (i : Nat) (x : Iface) : (s.setIface i x).nextRemote = s.nextRemote := rfl
@[simp] theorem State.setIface_spineLast (s : State) (i : Nat) (x : Iface) : (s.setIface i x).spineLast = s.spineLast := rfl
@[simp] theorem State.setIface_loopback (s : State) (i : Nat) (x : Iface) : (s.setIface i x).loopback = s.loopback := rfl
@[simp] theorem State.setIface_svc (s : State) (i : Nat) (x : Iface) : (s.setIface i x).svc = s.svc := rfl
@[simp] theorem State.setIface_com (s : State) (i : Nat) (x : Iface) : (s.setIface i x).com = s.com := rfl
@[simp] theorem State.setIface_tap (s : State) (i : Nat) (x : Iface) : (s.setIface i x).tap = s.tap := rfl
@[simp] theorem State.setIface_rt (s : State) (i : Nat) (x : Iface) : (s.setIface i x).rt = s.rt := rfl
@[simp] theorem State.setIface_clk (s : State) (i : Nat) (x : Iface) : (s.setIface i x).clk = s.clk := rfl
@[simp] theorem State.setIface_pwr (s : State) (i : Nat) (x : Iface) : (s.setIface i x).pwr = s.pwr := rfl
@[simp] theorem State.setIface_boot (s : State) (i : Nat) (x : Iface) : (s.setIface i x).boot = s.boot := rfl
@[simp] theorem State.setIface_trn (s : State) (i : Nat) (x : Iface) : (s.setIface i x).trn = { s.trn with ifaces := put {} i x s.trn.ifaces } := rfl
@[simp] theorem State.setIface_fresh (s : State) (i : Nat) (x : Iface) : (s.setIface i x).fresh = s.fresh := rfl
@[simp] theorem State.setIface_out (s : State) (i : Nat) (x : Iface) : (s.setIface i x).out = s.out := rfl
@[simp] theorem State.setIface_pending (s : State) (i : Nat) (x : Iface) : (s.setIface i x).pending = s.pending := rfl

/-! ### setSink -/

@[simp] theorem State.setSink_hobs (s : State) (k : Nat) (x : Sink) : (s.setSink k x).hobs = s.hobs := rfl
@[simp] theorem State.setSink_ranges (s : State) (k : Nat) (x : Sink) : (s.setSink k x).ranges = s.ranges := rfl
@[simp] theorem State.setSink_gates (s : State) (k : Nat) (x : Sink) : (s.setSink k x).gates = s.gates := rfl
@[simp] theorem State.setSink_mem (s : State) (k : Nat) (x : Sink) : (s.setSink k x).mem = s.mem := rfl
@[simp] theorem State.setSink_linePoi (s : State) (k : Nat) (x : Sink) : (s.setSink k x).linePoi = s.linePoi := rfl
@[simp] theorem State.setSink_stk (s : State) (k : Nat) (x : Sink) : (s.setSink k x).stk = s.stk := rfl
@[simp] theorem State.setSink_flg (s : State) (k : Nat) (x : Sink) : (s.setSink k x).flg = s.flg := rfl
@[simp] theorem State.setSink_tenants (s : State) (k : Nat) (x : Sink) : (s.setSink k x).tenants = s.tenants := rfl
@[simp] theorem State.setSink_shared (s : State) (k : Nat) (x : Sink) : (s.setSink k x).shared = s.shared := rfl
@[simp] theorem State.setSink_leaving (s : State) (k : Nat) (x : Sink) : (s.setSink k x).leaving = s.leaving := rfl
@[simp] theorem State.setSink_stage (s : State) (k : Nat) (x : Sink) : (s.setSink k x).stage = s.stage := rfl
@[simp] theorem State.setSink_stageFill (s : State) (k : Nat) (x : Sink) : (s.setSink k x).stageFill = s.stageFill := rfl
@[simp] theorem State.setSink_mantel (s : State) (k : Nat) (x : Sink) : (s.setSink k x).mantel = s.mantel := rfl
@[simp] theorem State.setSink_mantelOut (s : State) (k : Nat) (x : Sink) : (s.setSink k x).mantelOut = s.mantelOut := rfl
@[simp] theorem State.setSink_remote (s : State) (k : Nat) (x : Sink) : (s.setSink k x).remote = s.remote := rfl
@[simp] theorem State.setSink_nextRemote (s : State) (k : Nat) (x : Sink) : (s.setSink k x).nextRemote = s.nextRemote := rfl
@[simp] theorem State.setSink_spineLast (s : State) (k : Nat) (x : Sink) : (s.setSink k x).spineLast = s.spineLast := rfl
@[simp] theorem State.setSink_loopback (s : State) (k : Nat) (x : Sink) : (s.setSink k x).loopback = s.loopback := rfl
@[simp] theorem State.setSink_svc (s : State) (k : Nat) (x : Sink) : (s.setSink k x).svc = s.svc := rfl
@[simp] theorem State.setSink_com (s : State) (k : Nat) (x : Sink) : (s.setSink k x).com = s.com := rfl
@[simp] theorem State.setSink_tap (s : State) (k : Nat) (x : Sink) : (s.setSink k x).tap = s.tap := rfl
@[simp] theorem State.setSink_rt (s : State) (k : Nat) (x : Sink) : (s.setSink k x).rt = s.rt := rfl
@[simp] theorem State.setSink_clk (s : State) (k : Nat) (x : Sink) : (s.setSink k x).clk = s.clk := rfl
@[simp] theorem State.setSink_pwr (s : State) (k : Nat) (x : Sink) : (s.setSink k x).pwr = { s.pwr with sinks := put {} k x s.pwr.sinks } := rfl
@[simp] theorem State.setSink_boot (s : State) (k : Nat) (x : Sink) : (s.setSink k x).boot = s.boot := rfl
@[simp] theorem State.setSink_trn (s : State) (k : Nat) (x : Sink) : (s.setSink k x).trn = s.trn := rfl
@[simp] theorem State.setSink_fresh (s : State) (k : Nat) (x : Sink) : (s.setSink k x).fresh = s.fresh := rfl
@[simp] theorem State.setSink_out (s : State) (k : Nat) (x : Sink) : (s.setSink k x).out = s.out := rfl
@[simp] theorem State.setSink_pending (s : State) (k : Nat) (x : Sink) : (s.setSink k x).pending = s.pending := rfl

/-! ### setDyn -/

@[simp] theorem State.setDyn_hobs (s : State) (v : BitVec 7) : (s.setDyn v).hobs = s.hobs := rfl
@[simp] theorem State.setDyn_ranges (s : State) (v : BitVec 7) : (s.setDyn v).ranges = s.ranges := rfl
@[simp] theorem State.setDyn_gates (s : State) (v : BitVec 7) : (s.setDyn v).gates = s.gates := rfl
@[simp] theorem State.setDyn_mem (s : State) (v : BitVec 7) : (s.setDyn v).mem = s.mem := rfl
@[simp] theorem State.setDyn_linePoi (s : State) (v : BitVec 7) : (s.setDyn v).linePoi = s.linePoi := rfl
@[simp] theorem State.setDyn_stk (s : State) (v : BitVec 7) : (s.setDyn v).stk = s.stk := rfl
@[simp] theorem State.setDyn_flg (s : State) (v : BitVec 7) : (s.setDyn v).flg = s.flg := rfl
@[simp] theorem State.setDyn_tenants (s : State) (v : BitVec 7) : (s.setDyn v).tenants = s.tenants := rfl
@[simp] theorem State.setDyn_shared (s : State) (v : BitVec 7) : (s.setDyn v).shared = s.shared := rfl
@[simp] theorem State.setDyn_leaving (s : State) (v : BitVec 7) : (s.setDyn v).leaving = s.leaving := rfl
@[simp] theorem State.setDyn_stage (s : State) (v : BitVec 7) : (s.setDyn v).stage = s.stage := rfl
@[simp] theorem State.setDyn_stageFill (s : State) (v : BitVec 7) : (s.setDyn v).stageFill = s.stageFill := rfl
@[simp] theorem State.setDyn_mantel (s : State) (v : BitVec 7) : (s.setDyn v).mantel = s.mantel := rfl
@[simp] theorem State.setDyn_mantelOut (s : State) (v : BitVec 7) : (s.setDyn v).mantelOut = s.mantelOut := rfl
@[simp] theorem State.setDyn_remote (s : State) (v : BitVec 7) : (s.setDyn v).remote = s.remote := rfl
@[simp] theorem State.setDyn_nextRemote (s : State) (v : BitVec 7) : (s.setDyn v).nextRemote = s.nextRemote := rfl
@[simp] theorem State.setDyn_spineLast (s : State) (v : BitVec 7) : (s.setDyn v).spineLast = s.spineLast := rfl
@[simp] theorem State.setDyn_loopback (s : State) (v : BitVec 7) : (s.setDyn v).loopback = s.loopback := rfl
@[simp] theorem State.setDyn_svc (s : State) (v : BitVec 7) : (s.setDyn v).svc = { s.svc with dynAddr := v.toNat, dynValid := true } := rfl
@[simp] theorem State.setDyn_com (s : State) (v : BitVec 7) : (s.setDyn v).com = s.com := rfl
@[simp] theorem State.setDyn_tap (s : State) (v : BitVec 7) : (s.setDyn v).tap = s.tap := rfl
@[simp] theorem State.setDyn_rt (s : State) (v : BitVec 7) : (s.setDyn v).rt = s.rt := rfl
@[simp] theorem State.setDyn_clk (s : State) (v : BitVec 7) : (s.setDyn v).clk = s.clk := rfl
@[simp] theorem State.setDyn_pwr (s : State) (v : BitVec 7) : (s.setDyn v).pwr = s.pwr := rfl
@[simp] theorem State.setDyn_boot (s : State) (v : BitVec 7) : (s.setDyn v).boot = s.boot := rfl
@[simp] theorem State.setDyn_trn (s : State) (v : BitVec 7) : (s.setDyn v).trn = s.trn := rfl
@[simp] theorem State.setDyn_fresh (s : State) (v : BitVec 7) : (s.setDyn v).fresh = s.fresh := rfl
@[simp] theorem State.setDyn_out (s : State) (v : BitVec 7) : (s.setDyn v).out = s.out := rfl
@[simp] theorem State.setDyn_pending (s : State) (v : BitVec 7) : (s.setDyn v).pending = s.pending := rfl

/-! ### tapLoad -/

@[simp] theorem State.tapLoad_hobs (s : State) (code : BitVec 8) (ok : Bool) (drive : Nat) : (s.tapLoad code ok drive).hobs = s.hobs := rfl
@[simp] theorem State.tapLoad_ranges (s : State) (code : BitVec 8) (ok : Bool) (drive : Nat) : (s.tapLoad code ok drive).ranges = s.ranges := rfl
@[simp] theorem State.tapLoad_gates (s : State) (code : BitVec 8) (ok : Bool) (drive : Nat) : (s.tapLoad code ok drive).gates = s.gates := rfl
@[simp] theorem State.tapLoad_mem (s : State) (code : BitVec 8) (ok : Bool) (drive : Nat) : (s.tapLoad code ok drive).mem = s.mem := rfl
@[simp] theorem State.tapLoad_linePoi (s : State) (code : BitVec 8) (ok : Bool) (drive : Nat) : (s.tapLoad code ok drive).linePoi = s.linePoi := rfl
@[simp] theorem State.tapLoad_stk (s : State) (code : BitVec 8) (ok : Bool) (drive : Nat) : (s.tapLoad code ok drive).stk = s.stk := rfl
@[simp] theorem State.tapLoad_flg (s : State) (code : BitVec 8) (ok : Bool) (drive : Nat) : (s.tapLoad code ok drive).flg = s.flg := rfl
@[simp] theorem State.tapLoad_tenants (s : State) (code : BitVec 8) (ok : Bool) (drive : Nat) : (s.tapLoad code ok drive).tenants = s.tenants := rfl
@[simp] theorem State.tapLoad_shared (s : State) (code : BitVec 8) (ok : Bool) (drive : Nat) : (s.tapLoad code ok drive).shared = s.shared := rfl
@[simp] theorem State.tapLoad_leaving (s : State) (code : BitVec 8) (ok : Bool) (drive : Nat) : (s.tapLoad code ok drive).leaving = s.leaving := rfl
@[simp] theorem State.tapLoad_stage (s : State) (code : BitVec 8) (ok : Bool) (drive : Nat) : (s.tapLoad code ok drive).stage = s.stage := rfl
@[simp] theorem State.tapLoad_stageFill (s : State) (code : BitVec 8) (ok : Bool) (drive : Nat) : (s.tapLoad code ok drive).stageFill = s.stageFill := rfl
@[simp] theorem State.tapLoad_mantel (s : State) (code : BitVec 8) (ok : Bool) (drive : Nat) : (s.tapLoad code ok drive).mantel = s.mantel := rfl
@[simp] theorem State.tapLoad_mantelOut (s : State) (code : BitVec 8) (ok : Bool) (drive : Nat) : (s.tapLoad code ok drive).mantelOut = s.mantelOut := rfl
@[simp] theorem State.tapLoad_remote (s : State) (code : BitVec 8) (ok : Bool) (drive : Nat) : (s.tapLoad code ok drive).remote = s.remote := rfl
@[simp] theorem State.tapLoad_nextRemote (s : State) (code : BitVec 8) (ok : Bool) (drive : Nat) : (s.tapLoad code ok drive).nextRemote = s.nextRemote := rfl
@[simp] theorem State.tapLoad_spineLast (s : State) (code : BitVec 8) (ok : Bool) (drive : Nat) : (s.tapLoad code ok drive).spineLast = s.spineLast := rfl
@[simp] theorem State.tapLoad_loopback (s : State) (code : BitVec 8) (ok : Bool) (drive : Nat) : (s.tapLoad code ok drive).loopback = s.loopback := rfl
@[simp] theorem State.tapLoad_svc (s : State) (code : BitVec 8) (ok : Bool) (drive : Nat) : (s.tapLoad code ok drive).svc = s.svc := rfl
@[simp] theorem State.tapLoad_com (s : State) (code : BitVec 8) (ok : Bool) (drive : Nat) : (s.tapLoad code ok drive).com = s.com := rfl
@[simp] theorem State.tapLoad_tap (s : State) (code : BitVec 8) (ok : Bool) (drive : Nat) : (s.tapLoad code ok drive).tap = { s.tap with ir := code, driving := if ok then drive else 0 } := rfl
@[simp] theorem State.tapLoad_rt (s : State) (code : BitVec 8) (ok : Bool) (drive : Nat) : (s.tapLoad code ok drive).rt = s.rt := rfl
@[simp] theorem State.tapLoad_clk (s : State) (code : BitVec 8) (ok : Bool) (drive : Nat) : (s.tapLoad code ok drive).clk = s.clk := rfl
@[simp] theorem State.tapLoad_pwr (s : State) (code : BitVec 8) (ok : Bool) (drive : Nat) : (s.tapLoad code ok drive).pwr = s.pwr := rfl
@[simp] theorem State.tapLoad_boot (s : State) (code : BitVec 8) (ok : Bool) (drive : Nat) : (s.tapLoad code ok drive).boot = s.boot := rfl
@[simp] theorem State.tapLoad_trn (s : State) (code : BitVec 8) (ok : Bool) (drive : Nat) : (s.tapLoad code ok drive).trn = s.trn := rfl
@[simp] theorem State.tapLoad_fresh (s : State) (code : BitVec 8) (ok : Bool) (drive : Nat) : (s.tapLoad code ok drive).fresh = s.fresh := rfl
@[simp] theorem State.tapLoad_out (s : State) (code : BitVec 8) (ok : Bool) (drive : Nat) : (s.tapLoad code ok drive).out = s.out := rfl
@[simp] theorem State.tapLoad_pending (s : State) (code : BitVec 8) (ok : Bool) (drive : Nat) : (s.tapLoad code ok drive).pending = s.pending := rfl

/-! ### refuseCsr -/

@[simp] theorem State.refuseCsr_hobs (s : State) (st c t a : Nat) (w : Bool) : (s.refuseCsr st c t a w).hobs = s.hobs := rfl
@[simp] theorem State.refuseCsr_ranges (s : State) (st c t a : Nat) (w : Bool) : (s.refuseCsr st c t a w).ranges = s.ranges := rfl
@[simp] theorem State.refuseCsr_gates (s : State) (st c t a : Nat) (w : Bool) : (s.refuseCsr st c t a w).gates = s.gates := rfl
@[simp] theorem State.refuseCsr_mem (s : State) (st c t a : Nat) (w : Bool) : (s.refuseCsr st c t a w).mem = s.mem := rfl
@[simp] theorem State.refuseCsr_linePoi (s : State) (st c t a : Nat) (w : Bool) : (s.refuseCsr st c t a w).linePoi = s.linePoi := rfl
@[simp] theorem State.refuseCsr_stk (s : State) (st c t a : Nat) (w : Bool) : (s.refuseCsr st c t a w).stk = s.stk := rfl
@[simp] theorem State.refuseCsr_flg (s : State) (st c t a : Nat) (w : Bool) : (s.refuseCsr st c t a w).flg = s.flg := rfl
@[simp] theorem State.refuseCsr_tenants (s : State) (st c t a : Nat) (w : Bool) : (s.refuseCsr st c t a w).tenants = s.tenants := rfl
@[simp] theorem State.refuseCsr_shared (s : State) (st c t a : Nat) (w : Bool) : (s.refuseCsr st c t a w).shared = s.shared := rfl
@[simp] theorem State.refuseCsr_leaving (s : State) (st c t a : Nat) (w : Bool) : (s.refuseCsr st c t a w).leaving = s.leaving := rfl
@[simp] theorem State.refuseCsr_stage (s : State) (st c t a : Nat) (w : Bool) : (s.refuseCsr st c t a w).stage = s.stage := rfl
@[simp] theorem State.refuseCsr_stageFill (s : State) (st c t a : Nat) (w : Bool) : (s.refuseCsr st c t a w).stageFill = s.stageFill := rfl
@[simp] theorem State.refuseCsr_mantel (s : State) (st c t a : Nat) (w : Bool) : (s.refuseCsr st c t a w).mantel = s.mantel := rfl
@[simp] theorem State.refuseCsr_mantelOut (s : State) (st c t a : Nat) (w : Bool) : (s.refuseCsr st c t a w).mantelOut = s.mantelOut := rfl
@[simp] theorem State.refuseCsr_remote (s : State) (st c t a : Nat) (w : Bool) : (s.refuseCsr st c t a w).remote = s.remote := rfl
@[simp] theorem State.refuseCsr_nextRemote (s : State) (st c t a : Nat) (w : Bool) : (s.refuseCsr st c t a w).nextRemote = s.nextRemote := rfl
@[simp] theorem State.refuseCsr_spineLast (s : State) (st c t a : Nat) (w : Bool) : (s.refuseCsr st c t a w).spineLast = s.spineLast := rfl
@[simp] theorem State.refuseCsr_loopback (s : State) (st c t a : Nat) (w : Bool) : (s.refuseCsr st c t a w).loopback = s.loopback := rfl
@[simp] theorem State.refuseCsr_svc (s : State) (st c t a : Nat) (w : Bool) : (s.refuseCsr st c t a w).svc = s.svc := rfl
@[simp] theorem State.refuseCsr_tap (s : State) (st c t a : Nat) (w : Bool) : (s.refuseCsr st c t a w).tap = s.tap := rfl
@[simp] theorem State.refuseCsr_rt (s : State) (st c t a : Nat) (w : Bool) : (s.refuseCsr st c t a w).rt = s.rt := rfl
@[simp] theorem State.refuseCsr_clk (s : State) (st c t a : Nat) (w : Bool) : (s.refuseCsr st c t a w).clk = s.clk := rfl
@[simp] theorem State.refuseCsr_pwr (s : State) (st c t a : Nat) (w : Bool) : (s.refuseCsr st c t a w).pwr = s.pwr := rfl
@[simp] theorem State.refuseCsr_boot (s : State) (st c t a : Nat) (w : Bool) : (s.refuseCsr st c t a w).boot = s.boot := rfl
@[simp] theorem State.refuseCsr_trn (s : State) (st c t a : Nat) (w : Bool) : (s.refuseCsr st c t a w).trn = s.trn := rfl
@[simp] theorem State.refuseCsr_fresh (s : State) (st c t a : Nat) (w : Bool) : (s.refuseCsr st c t a w).fresh = s.fresh := rfl
@[simp] theorem State.refuseCsr_out (s : State) (st c t a : Nat) (w : Bool) : (s.refuseCsr st c t a w).out = s.out := rfl
@[simp] theorem State.refuseCsr_pending (s : State) (st c t a : Nat) (w : Bool) : (s.refuseCsr st c t a w).pending = s.pending := rfl

end Sys2Proof.Machine
end

