-- ==== Sys2Proof/Laws/Ops.lean ====
section
/-! SUPPORT. Sparse maps and memory: a read after a write, and the canonical form. -/
namespace Sys2Proof.Machine

/-! ### Sparse maps -/

/-- Every key of a map in canonical form that starts with `j` or later. -/
theorem smapWf_tail {α : Type} [DecidableEq α] {d : α} {e : Nat × α} {m : SMap α} (h : SMapWf d (e :: m) = true) : SMapWf d m = true := by
  obtain ⟨j, v⟩ := e
  cases m with
  | nil => rfl
  | cons f r => obtain ⟨k, w⟩ := f; simp [SMapWf] at h ⊢; exact h.2
theorem smapWf_head {α : Type} [DecidableEq α] {d : α} {e : Nat × α} {m : SMap α} (h : SMapWf d (e :: m) = true) : e.2 ≠ d := by
  obtain ⟨j, v⟩ := e
  cases m with
  | nil => simpa [SMapWf] using h
  | cons f r => obtain ⟨k, w⟩ := f; simp [SMapWf] at h; exact h.1.1
theorem smapWf_rises {α : Type} [DecidableEq α] {d : α} {e : Nat × α} {m : SMap α} (h : SMapWf d (e :: m) = true) : ∀ x ∈ m, e.1 < x.1 := by
  induction m generalizing e with
  | nil => simp
  | cons f r ih =>
    intro x hx
    have hf : e.1 < f.1 := by obtain ⟨j, v⟩ := e; obtain ⟨k, w⟩ := f; simp [SMapWf] at h; exact h.1.2
    rcases List.mem_cons.mp hx with rfl | hx
    · exact hf
    · exact Nat.lt_trans hf (ih (smapWf_tail h) x hx)
/-- A map is canonical when its head is not the default, lies below the rest, and the rest is canonical. -/
theorem smapWf_cons {α : Type} [DecidableEq α] {d : α} {e : Nat × α} {m : SMap α} (hd : e.2 ≠ d) (hr : ∀ x ∈ m, e.1 < x.1) (hm : SMapWf d m = true) :
    SMapWf d (e :: m) = true := by
  obtain ⟨j, v⟩ := e
  cases m with
  | nil => simpa [SMapWf] using hd
  | cons f r =>
    obtain ⟨k, w⟩ := f
    have := hr (k, w) (by simp)
    simp [SMapWf]; exact ⟨⟨hd, this⟩, by simpa [SMapWf] using hm⟩
/-- Keys that `put` leaves in a map are its own or those of the map. -/
theorem put_mem {α : Type} [DecidableEq α] {d : α} {k : Nat} {v : α} {m : SMap α} {x : Nat × α} (h : x ∈ put d k v m) : x.1 = k ∨ x ∈ m := by
  induction m with
  | nil => simp only [put] at h; split at h <;> simp_all
  | cons e r ih =>
    obtain ⟨j, w⟩ := e
    simp only [put] at h
    split at h
    · split at h
      · exact .inr h
      · rcases List.mem_cons.mp h with rfl | h
        · exact .inl rfl
        · exact .inr h
    · split at h
      · split at h
        · exact .inr (List.mem_cons_of_mem _ ((List.dropWhile_sublist _).mem h))
        · rcases List.mem_cons.mp h with rfl | h
          · exact .inl rfl
          · exact .inr (List.mem_cons_of_mem _ h)
      · rcases List.mem_cons.mp h with rfl | h
        · exact .inr (by simp)
        · rcases ih h with h | h
          · exact .inl h
          · exact .inr (List.mem_cons_of_mem _ h)
/-- A sublist of a canonical map that drops its front keeps the form. -/
theorem smapWf_dropWhile {α : Type} [DecidableEq α] {d : α} {m : SMap α} (p : Nat × α → Bool) (h : SMapWf d m = true) : SMapWf d (m.dropWhile p) = true := by
  induction m with
  | nil => rfl
  | cons e r ih => simp only [List.dropWhile]; split; · exact ih (smapWf_tail h)
                   · exact h
/-- `put` keeps the canonical form. -/
theorem put_wf {α : Type} [DecidableEq α] {d : α} {k : Nat} {v : α} {m : SMap α} (h : SMapWf d m = true) : SMapWf d (put d k v m) = true := by
  induction m with
  | nil => simp only [put]; split; · rfl
           · simpa [SMapWf] using ‹_›
  | cons e r ih =>
    obtain ⟨j, w⟩ := e
    simp only [put]
    split
    · rename_i hk
      split
      · exact h
      · refine smapWf_cons ‹_› (fun x hx => ?_) h
        rcases List.mem_cons.mp hx with rfl | hx
        · exact hk
        · exact Nat.lt_trans hk (smapWf_rises h x hx)
    · split
      · rename_i hk
        split
        · exact smapWf_dropWhile _ (smapWf_tail h)
        · exact smapWf_cons ‹_› (fun x hx => by simpa [hk] using smapWf_rises h x hx) (smapWf_tail h)
      · rename_i h1 h2
        refine smapWf_cons (smapWf_head h) (fun x hx => ?_) (ih (smapWf_tail h))
        rcases put_mem hx with hx | hx
        · simp only [hx]; omega
        · exact smapWf_rises h x hx
/-- In a canonical map a key below every listed one reads the default. -/
theorem get_below {α : Type} {d : α} {k : Nat} {m : SMap α} (h : ∀ x ∈ m, k < x.1) : get d k m = d := by
  cases m with
  | nil => rfl
  | cons e r => obtain ⟨j, w⟩ := e; have := h (j, w) (by simp); simp only [get]; rw [if_neg (by simp at this; omega), if_pos (by simpa using this)]
/-- In a canonical map the keys after `k` have nothing to drop. -/
theorem dropWhile_above {α : Type} {k : Nat} {m : SMap α} (h : ∀ x ∈ m, k < x.1) : m.dropWhile (fun e => decide (e.1 ≤ k)) = m := by
  cases m with
  | nil => rfl
  | cons e r => have := h e (by simp); rw [List.dropWhile_cons_of_neg]; simp; omega
/-- A read after a write of the same key. -/
theorem get_put_self {α : Type} [DecidableEq α] (d : α) (k : Nat) (v : α) (m : SMap α) (h : SMapWf d m = true) : get d k (put d k v m) = v := by
  induction m with
  | nil => simp only [put]; split <;> simp_all [get]
  | cons e r ih =>
    obtain ⟨j, w⟩ := e
    simp only [put]
    split
    · split
      · rename_i hk hv
        rw [get_below, hv]
        intro x hx
        rcases List.mem_cons.mp hx with rfl | hx
        · exact hk
        · exact Nat.lt_trans hk (smapWf_rises h x hx)
      · simp [get]
    · split
      · rename_i hk
        subst hk
        split
        · rename_i hv
          rw [dropWhile_above (by simpa using smapWf_rises h), get_below (by simpa using smapWf_rises h), hv]
        · simp [get]
      · rename_i h1 h2
        simp only [get, if_neg h2, if_neg h1]
        exact ih (smapWf_tail h)
/-- A read of another key. -/
theorem get_put_ne {α : Type} [DecidableEq α] (d : α) (k k' : Nat) (v : α) (m : SMap α) (h : SMapWf d m = true) (hne : k' ≠ k) :
    get d k' (put d k v m) = get d k' m := by
  induction m with
  | nil => simp only [put]; split <;> simp [get, hne]
  | cons e r ih =>
    obtain ⟨j, w⟩ := e
    simp only [put]
    split
    · rename_i hk
      split
      · rfl
      · simp only [get, if_neg hne]
        split
        · rename_i hlt
          rw [if_neg (by omega), if_pos (by omega)]
        · rfl
    · split
      · rename_i hk
        subst hk
        split
        · rw [dropWhile_above (by simpa using smapWf_rises h)]
          simp only [get, if_neg hne]
          split
          · exact get_below (fun x hx => Nat.lt_trans ‹_› (by simpa using smapWf_rises h x hx))
          · rfl
        · simp only [get, if_neg hne]
      · simp only [get]
        split
        · rfl
        · split
          · rfl
          · exact ih (smapWf_tail h)
/-- Updating a key keeps the form. -/
theorem upd_wf {α : Type} [DecidableEq α] {d : α} {k : Nat} {f : α → α} {m : SMap α} (h : SMapWf d m = true) : SMapWf d (upd d k f m) = true := put_wf h

/-! ### Memory -/

theorem writeByte_wf {m : List Host.Cell} {a : Nat} {b : Byte} (h : Memory.wf m = true) : Memory.wf (writeByte m a b) = true := put_wf h
/-- Every write of bytes keeps the canonical form. -/
theorem writeBytes_wf {m : List Host.Cell} {a : Nat} {b : Bytes} (h : Memory.wf m = true) : Memory.wf (writeBytes m a b) = true := by
  induction b generalizing m a with
  | nil => exact h
  | cons x r ih => exact ih (writeByte_wf h)
theorem readByte_writeByte (m : List Host.Cell) (a : Nat) (b : Byte) (h : Memory.wf m = true) : readByte (writeByte m a b) a = b := get_put_self _ _ _ _ h
/-- A byte outside the stretch written reads as before. -/
theorem readByte_writeBytes_out (m : List Host.Cell) (a k : Nat) (b : Bytes) (h : Memory.wf m = true) (hk : k < a ∨ a + b.length ≤ k) :
    readByte (writeBytes m a b) k = readByte m k := by
  induction b generalizing m a with
  | nil => rfl
  | cons x r ih =>
    simp only [writeBytes]
    rw [ih _ _ (writeByte_wf h) (by simp only [List.length_cons] at hk; omega)]
    exact get_put_ne _ _ _ _ _ h (by simp only [List.length_cons] at hk; omega)
/-- A byte of the stretch written reads as written. -/
theorem readByte_writeBytes_in (m : List Host.Cell) (a i : Nat) (b : Bytes) (h : Memory.wf m = true) (hi : i < b.length) :
    readByte (writeBytes m a b) (a + i) = b[i] := by
  induction b generalizing m a i with
  | nil => simp at hi
  | cons x r ih =>
    simp only [writeBytes]
    cases i with
    | zero => rw [readByte_writeBytes_out _ _ _ _ (writeByte_wf h) (by omega)]; exact readByte_writeByte _ _ _ h
    | succ n =>
      have := ih (writeByte m a x) (a + 1) n (writeByte_wf h) (by simpa using hi)
      rw [show a + (n + 1) = a + 1 + n by omega, this]; simp
/-- Bytes read back as they were written. -/
theorem readBytes_writeBytes (m : List Host.Cell) (a : Nat) (b : Bytes) (h : Memory.wf m = true) : readBytes (writeBytes m a b) a b.length = b := by
  induction b generalizing m a with
  | nil => rfl
  | cons x r ih =>
    simp only [List.length_cons, readBytes, writeBytes]
    rw [ih _ _ (writeByte_wf h), readByte_writeBytes_out _ _ _ _ (writeByte_wf h) (by omega), readByte_writeByte _ _ _ h]

/-- The last of two settings of a key stands. -/
theorem put_put {α : Type} [DecidableEq α] (d : α) (k : Nat) (v w : α) (m : SMap α) (h : SMapWf d m = true) :
    put d k v (put d k w m) = put d k v m := by
  induction m with
  | nil => by_cases hw : w = d <;> by_cases hv : v = d <;> simp [put, hw, hv]
  | cons e r ih =>
    obtain ⟨j, u⟩ := e
    have hr := smapWf_rises h
    have hd : r.dropWhile (fun e => decide (e.1 ≤ j)) = r := dropWhile_above hr
    have ihr := ih (smapWf_tail h)
    by_cases h1 : k < j
    · by_cases hw : w = d <;> by_cases hv : v = d <;> simp [put, h1, hw, hv]
    · by_cases h2 : k = j
      · subst h2
        by_cases hw : w = d
        · simp only [put, Nat.lt_irrefl, if_false, if_true, hw, hd]
          cases r with
          | nil => by_cases hv : v = d <;> simp [put, hv]
          | cons e r =>
            have hk : k < e.1 := hr e (by simp)
            by_cases hv : v = d <;> simp [put, hv, hk]
        · by_cases hv : v = d <;> simp [put, hw, hv]
      · by_cases hw : w = d <;> simp [put, h1, h2, ihr]

end Sys2Proof.Machine
end

