-- ==== Sys2Proof/Laws/Settle.lean ====
section
/-! SUPPORT. The end of a command adds nothing to a settled state. -/
namespace Sys2Proof.Machine

theorem settled_iff (s : State) : s.settled = true ↔
    s.trn.home = [] ∧ s.trn.chg = [] ∧ s.stk.openEpoch = none ∧ s.boot.work = [] ∧ s.svc.toMirror = [] ∧ s.goingDown = false
      ∧ s.loopback = [] ∧ (!s.pwr.simmer || s.pwr.exiting.isSome) = true := by
  simp only [State.settled, Bool.and_eq_true, List.isEmpty_iff, Option.isNone_iff_eq_none, Bool.not_eq_true', and_assoc]
theorem runTriggers_quiet (s : State) (n : Nat) (h : s.trn.chg = []) : s.runTriggers n = s := by
  cases n with
  | zero => rfl
  | succ n => unfold State.runTriggers; rw [h]
theorem triggers_quiet (s : State) (h : s.trn.chg = []) : s.triggers = s := runTriggers_quiet s _ h
theorem transHome_quiet (s : State) (h : s.trn.home = []) : s.transHome = s := by
  simp only [State.transHome, h, List.foldl_nil]
  rw [← h]
theorem closeEpoch_quiet (s : State) (h : s.stk.openEpoch = none) : s.closeEpoch = s := by simp [State.closeEpoch, h]
theorem flush_quiet (s : State) (h : s.svc.toMirror = []) : s.flush = s := by
  simp only [State.flush, h, List.foldl_nil]
  rw [← h]
theorem nextReq_quiet (s : State) (h : s.boot.work = []) : s.nextReq = none := by
  simp only [State.nextReq, h, List.find?_nil]; split <;> rfl
/-- The end of a command changes nothing of a settled state. -/
theorem done_settled (s : State) (h : s.settled = true) : s.done = s := by
  obtain ⟨h1, h2, h3, h4, h5, -, -, -⟩ := (settled_iff s).mp h
  simp only [State.done, transHome_quiet s h1, triggers_quiet s h2, closeEpoch_quiet s h3, h4, List.map_nil, List.sum_nil, State.answerUnknown,
    List.length_nil, State.sendReplies, flush_quiet s h5]
theorem shutdown_settled (s : State) (h : s.settled = true) : s.shutdown = s := by
  obtain ⟨-, -, -, -, -, h6, -, -⟩ := (settled_iff s).mp h
  simp [State.shutdown, h6]
theorem deliverLocal_quiet (s : State) (n : Nat) (h : s.loopback = []) : s.deliverLocal n = s := by
  cases n with
  | zero => rfl
  | succ n => rw [State.deliverLocal, if_pos h]
theorem decideExit_quiet (s : State) (h : (!s.pwr.simmer || s.pwr.exiting.isSome) = true) : s.decideExit = s := by
  unfold State.decideExit
  split
  · next e => cases h1 : s.pwr.simmer <;> cases h2 : s.pwr.exiting <;> simp [h1, h2] at h e
  · rfl
theorem deliverLocal_settled (s : State) (n : Nat) (h : s.settled = true) : s.deliverLocal n = s :=
  deliverLocal_quiet s n ((settled_iff s).mp h).2.2.2.2.2.2.1
theorem decideExit_settled (s : State) (h : s.settled = true) : s.decideExit = s :=
  decideExit_quiet s ((settled_iff s).mp h).2.2.2.2.2.2.2
/-- A command that leaves a settled state answers just that state. -/
theorem ends_settled (s : State) (h : s.settled = true) : s.ends = .next s := by
  rw [State.ends, deliverLocal_settled s 4 h, shutdown_settled s h, done_settled s h, deliverLocal_settled s 4 h, decideExit_settled s h]

end Sys2Proof.Machine
end

