-- ==== Sys2Proof/Laws/Cycle.lean ====
section
/-! SUPPORT. A command of a slot that is due in the current cycle: no cycle passes, and the slot's operation is performed at once. -/
namespace Sys2Proof.Machine

theorem settle_inCycle {s : State} {q t : Nat} (h : s.inCycle q t) : s.settle q = s := by
  have hp := h.2.2.2.2.2.1
  have h1 : s.doWindowEnd q = s := by rw [State.doWindowEnd, hp]; rfl
  have h2 : s.doWaitEnd q = s := by rw [State.doWaitEnd, hp]; rfl
  rw [State.settle, h1, h2]
theorem ready_inCycle {s : State} {q t : Nat} (h : s.inCycle q t) : s.ready q = s := by
  have hs := settle_inCycle h
  have ho := h.2.2.2.2.2.2
  simp [State.ready, hs, ho]
theorem advance_inCycle {s : State} {q t : Nat} (h : s.inCycle q t) (hc : s.calm q = false) : s.advance q t = some s := by
  obtain ⟨h1, h2, h3, h4, h5, -, -⟩ := h
  have h6 : s.passTo q t = s := by rw [State.passTo, hc, h4, Nat.sub_self]; rfl
  unfold State.advance
  simp only [h1, h2, h3, h4, h5, h6, Nat.le_refl, and_self, if_true, Bool.false_eq_true, Bool.not_true, if_false]
theorem calm_of_cur {s : State} {h : Nat} {iss : HIssue} (hcur : (s.hob h).cur = some iss) : s.calm (h / 8) = false := by
  have h1 : (s.hob (8 * (h / 8) + h % 8)).cur.isNone = false := by rw [Nat.div_add_mod, hcur]; rfl
  unfold State.calm
  simp only [Bool.and_eq_false_iff, List.all_eq_false]
  right
  exact ⟨h % 8, by simp; omega, by simp [h1]⟩
theorem calm_of_todo {s : State} {q k : Nat} (h : (s.range q).todo.contains k = true) : s.calm q = false := by
  have h1 : (s.range q).todo.isEmpty = false := by
    cases h2 : (s.range q).todo with
    | nil => simp [h2] at h
    | cons a r => rfl
  simp [State.calm, h1]
/-- A hob's command that is due performs its operation. -/
theorem hobCmd_issues {s : State} {h t k : Nat} {iss : HIssue} {ok : Nat → Bool} (hi : s.issues h t k iss) (hk : ok iss.bits = true) :
    s.hobCmd h t k ok = (s.doHobOp (h / 8) (h % 8) k).done := by
  obtain ⟨-, hc, hcur, ht⟩ := hi
  simp only [State.hobCmd, advance_inCycle hc (calm_of_cur hcur), ready_inCycle hc, hcur, HIssue.has, ht, hk, Bool.and_self, if_true]
/-- A local sequencing command that is due performs its field. -/
theorem localCmd_issues {s : State} {h t op : Nat} {iss : HIssue} (hi : s.issues h t 7 iss) (hl : iss.isLocal = true) (ho : lqOp iss.lseq = op) :
    s.localCmd h t op = (s.doHobOp (h / 8) (h % 8) 7).done := by
  obtain ⟨-, hc, hcur, ht⟩ := hi
  simp only [State.localCmd, advance_inCycle hc (calm_of_cur hcur), ready_inCycle hc, hcur, HIssue.has, ht, hl, ho, beq_self_eq_true, Bool.and_self, if_true]
/-- A range's command that is due performs its part of the bundle. -/
theorem rangeCmd_issues {s : State} {q t k : Nat} {ok : Nat → Bool} {f : State → State} (hi : s.issuesR q t k) (hk : ok (s.range q).bits = true) :
    s.rangeCmd q t k ok f = (f s).done := by
  obtain ⟨-, -, hc, ht⟩ := hi
  simp only [State.rangeCmd, advance_inCycle hc (calm_of_todo ht), ready_inCycle hc, ht, hk, Bool.and_self, if_true]
theorem done_setHob {s : State} (h : s.settled = true) (i : Nat) (x : Hob) : (s.setHob i x).done = s.setHob i x := done_settled _ h
theorem done_setRange {s : State} (h : s.settled = true) (q : Nat) (x : Range) : (s.setRange q x).done = s.setRange q x := done_settled _ h

/-! ### Reading back what was set -/

theorem canon_iff (s : State) : s.canon = true ↔
    Memory.wf s.mem = true ∧ SMapWf ({} : Hob) s.hobs = true ∧ SMapWf ({} : Range) s.ranges = true ∧ SMapWf ({} : Gate) s.gates = true := by
  simp [State.canon, and_assoc]
theorem range_setRange {s : State} (h : s.canon = true) (q : Nat) (x : Range) : (s.setRange q x).range q = x :=
  get_put_self _ _ _ _ ((canon_iff s).mp h).2.2.1
theorem hob_setHob {s : State} (h : s.canon = true) (i : Nat) (x : Hob) : (s.setHob i x).hob i = x :=
  get_put_self _ _ _ _ ((canon_iff s).mp h).2.1
theorem gate_setGate {s : State} (h : s.canon = true) (l : Nat) (x : Gate) : (s.setGate l x).gate l = x :=
  get_put_self _ _ _ _ ((canon_iff s).mp h).2.2.2
theorem range_setRange_ne {s : State} (h : s.canon = true) {q k : Nat} (x : Range) (hne : k ≠ q) : (s.setRange q x).range k = s.range k :=
  get_put_ne _ _ _ _ _ ((canon_iff s).mp h).2.2.1 hne
theorem hob_setHob_ne {s : State} (h : s.canon = true) {i k : Nat} (x : Hob) (hne : k ≠ i) : (s.setHob i x).hob k = s.hob k :=
  get_put_ne _ _ _ _ _ ((canon_iff s).mp h).2.1 hne
theorem gate_setGate_ne {s : State} (h : s.canon = true) {l k : Nat} (x : Gate) (hne : k ≠ l) : (s.setGate l x).gate k = s.gate k :=
  get_put_ne _ _ _ _ _ ((canon_iff s).mp h).2.2.2 hne
theorem setRange_setRange {s : State} (h : s.canon = true) (q : Nat) (x y : Range) : (s.setRange q x).setRange q y = s.setRange q y := by
  simp only [State.setRange, put_put _ _ _ _ _ ((canon_iff s).mp h).2.2.1]
theorem setHob_setHob {s : State} (h : s.canon = true) (i : Nat) (x y : Hob) : (s.setHob i x).setHob i y = s.setHob i y := by
  simp only [State.setHob, put_put _ _ _ _ _ ((canon_iff s).mp h).2.1]
theorem setGate_setGate {s : State} (h : s.canon = true) (l : Nat) (x y : Gate) : (s.setGate l x).setGate l y = s.setGate l y := by
  simp only [State.setGate, put_put _ _ _ _ _ ((canon_iff s).mp h).2.2.2]
theorem canon_setRange {s : State} (h : s.canon = true) (q : Nat) (x : Range) : (s.setRange q x).canon = true := by
  obtain ⟨h1, h2, h3, h4⟩ := (canon_iff s).mp h
  exact (canon_iff _).mpr ⟨h1, h2, put_wf h3, h4⟩
theorem canon_setHob {s : State} (h : s.canon = true) (i : Nat) (x : Hob) : (s.setHob i x).canon = true := by
  obtain ⟨h1, h2, h3, h4⟩ := (canon_iff s).mp h
  exact (canon_iff _).mpr ⟨h1, put_wf h2, h3, h4⟩
theorem canon_setGate {s : State} (h : s.canon = true) (l : Nat) (x : Gate) : (s.setGate l x).canon = true := by
  obtain ⟨h1, h2, h3, h4⟩ := (canon_iff s).mp h
  exact (canon_iff _).mpr ⟨h1, h2, h3, put_wf h4⟩

end Sys2Proof.Machine
end

