-- ==== Sys2Proof/Laws/Keeps.lean ====
section
/-! SUPPORT. The relation Keeps: the queue is untouched and the canonical form survives; and how it passes through the shapes a meaning is written in. -/
namespace Sys2Proof.Machine

/-- The queue of `t` is that of `a`, and `t` is canonical if `a` is. -/
def Keeps (a t : State) : Prop := t.pending = a.pending ∧ (a.canon = true → t.canon = true)
/-- `Keeps` for the state of a pair. -/
def KeepsP {α : Type} (a : State) (p : State × α) : Prop := Keeps a p.1
/-- `Keeps` for a state that may be absent. -/
def KeepsO (a : State) : Option State → Prop
  | some t => Keeps a t
  | none => True
/-- `Keeps` for a value with a state, which may be absent. -/
def KeepsQ {α : Type} (a : State) : Option (α × State) → Prop
  | some p => Keeps a p.2
  | none => True
/-- `Keeps` for a state with a value, which may be absent. -/
def KeepsR {α : Type} (a : State) : Option (State × α) → Prop
  | some p => Keeps a p.1
  | none => True
/-- `Keeps` for the outcome of a command. -/
def KeepsX (a : State) (o : Host.Outcome State Fault Refusal) : Prop := ∀ t, o = .next t → Keeps a t

theorem keeps_refl (a : State) : Keeps a a := ⟨rfl, id⟩
theorem Keeps.trans {a s t : State} (h : Keeps a s) (g : Keeps s t) : Keeps a t := ⟨g.1.trans h.1, fun c => g.2 (h.2 c)⟩
theorem keeps_step {a s : State} {P : Prop} (h : Keeps a s) (g : Keeps a s → P) : P := g h
theorem keeps_stepP {α : Type} {a : State} {p : State × α} {P : Prop} (h : KeepsP a p) (g : KeepsP a p → P) : P := g h
theorem keeps_stepF {a : State} {f : State → State} {P : Prop} (h : ∀ t, Keeps a t → Keeps a (f t)) (g : (∀ t, Keeps a t → Keeps a (f t)) → P) : P := g h
theorem keeps_stepF2 {α : Type} {a : State} {f : State → α → State} {P : Prop} (h : ∀ t x, Keeps a t → Keeps a (f t x)) (g : (∀ t x, Keeps a t → Keeps a (f t x)) → P) : P := g h
theorem keepsP_mk {α : Type} {a t : State} {x : α} (h : Keeps a t) : KeepsP a (t, x) := h
theorem keepsO_some {a t : State} (h : Keeps a t) : KeepsO a (some t) := h
theorem keepsO_none {a : State} : KeepsO a none := trivial
theorem keepsQ_some {α : Type} {a t : State} {x : α} (h : Keeps a t) : KeepsQ a (some (x, t)) := h
theorem keepsQ_none {α : Type} {a : State} : KeepsQ (α := α) a none := trivial
theorem keepsR_some {α : Type} {a t : State} {x : α} (h : Keeps a t) : KeepsR a (some (t, x)) := h
theorem keepsR_none {α : Type} {a : State} : KeepsR (α := α) a none := trivial
theorem keepsX_next {a t : State} (h : Keeps a t) : KeepsX a (.next t) := by intro u hu; cases hu; exact h
theorem keeps_fst {α : Type} {a : State} {p : State × α} (h : KeepsP a p) : Keeps a p.1 := h
theorem keeps_of_some {a t : State} {o : Option State} (e : o = some t) (h : KeepsO a o) : Keeps a t := by subst e; exact h
theorem keeps_of_pair {α : Type} {a t : State} {x : α} {p : State × α} (e : p = (t, x)) (h : KeepsP a p) : Keeps a t := by subst e; exact h
theorem keeps_of_someQ {α : Type} {a t : State} {x : α} {o : Option (α × State)} (e : o = some (x, t)) (h : KeepsQ a o) : Keeps a t := by subst e; exact h
theorem keeps_of_someR {α : Type} {a t : State} {x : α} {o : Option (State × α)} (e : o = some (t, x)) (h : KeepsR a o) : Keeps a t := by subst e; exact h
theorem keeps_getD {a s : State} {o : Option State} (h : KeepsO a o) (g : Keeps a s) : Keeps a (o.getD s) := by cases o <;> assumption
theorem keeps_id {a s : State} (h : Keeps a s) : Keeps a (id s) := h
theorem keeps_foldl {α : Type} {a s : State} {f : State → α → State} {l : List α} (h : Keeps a s) (hf : ∀ t x, Keeps a t → Keeps a (f t x)) :
    Keeps a (l.foldl f s) := by
  induction l generalizing s with
  | nil => exact h
  | cons x r ih => exact ih (hf s x h)
theorem keepsP_foldl {α β : Type} {a : State} {p : State × β} {f : State × β → α → State × β} {l : List α} (h : KeepsP a p)
    (hf : ∀ t x, KeepsP a t → KeepsP a (f t x)) : KeepsP a (l.foldl f p) := by
  induction l generalizing p with
  | nil => exact h
  | cons x r ih => exact ih (hf p x h)
/-- A change of any other field. -/
theorem keeps_mk {a s : State} {linePoi : SMap Bool} {stk : Stoker} {flg : Flags} {tenants : List Tenant} {shared leaving : List Area} {stage : SMap (Nat × Nat)} {stageFill : SMap Bool} {mantel : List Load} {mantelOut : List Load} {remote : SMap Remote} {nextRemote spineLast : Nat} {loopback : List Packet} {svc : Service} {com : Common} {tap : Tap} {rt : Routing} {clk : Clocks} {pwr : Power} {boot : Boot} {trn : Transport} {fresh : Nat} {out : List Out}
    (h : Keeps a s) : Keeps a (State.mk s.hobs s.ranges s.gates s.mem linePoi stk flg tenants shared leaving stage stageFill mantel mantelOut remote nextRemote spineLast loopback svc com tap rt clk pwr boot trn fresh out s.pending) := h
/-- A change of memory, and of fields but the other maps and the queue. -/
theorem keeps_mkMem {a s : State} {linePoi : SMap Bool} {stk : Stoker} {flg : Flags} {tenants : List Tenant} {shared leaving : List Area} {stage : SMap (Nat × Nat)} {stageFill : SMap Bool} {mantel : List Load} {mantelOut : List Load} {remote : SMap Remote} {nextRemote spineLast : Nat} {loopback : List Packet} {svc : Service} {com : Common} {tap : Tap} {rt : Routing} {clk : Clocks} {pwr : Power} {boot : Boot} {trn : Transport} {fresh : Nat} {out : List Out} {m : List Host.Cell}
    (h : Keeps a s) (hm : Memory.wf s.mem = true → Memory.wf m = true) : Keeps a (State.mk s.hobs s.ranges s.gates m linePoi stk flg tenants shared leaving stage stageFill mantel mantelOut remote nextRemote spineLast loopback svc com tap rt clk pwr boot trn fresh out s.pending) :=
  ⟨h.1, fun c => by
    have := (canon_iff _).mp (h.2 c)
    exact (canon_iff _).mpr ⟨hm this.1, this.2⟩⟩
theorem smapWf_filter {α : Type} [DecidableEq α] {d : α} {m : SMap α} (p : Nat × α → Bool) (h : SMapWf d m = true) : SMapWf d (m.filter p) = true := by
  induction m with
  | nil => exact h
  | cons e r ih =>
    have hr := ih (smapWf_tail h)
    by_cases hp : p e = true
    · rw [List.filter_cons_of_pos hp]
      exact smapWf_cons (smapWf_head h) (fun x hx => smapWf_rises h x (List.mem_filter.mp hx).1) hr
    · rw [List.filter_cons_of_neg hp]; exact hr
theorem keeps_setHob {a : State} (s : State) (h : Nat) (x : Hob) (h0 : Keeps a s) : Keeps a (s.setHob h x) := ⟨h0.1, fun c => canon_setHob (h0.2 c) h x⟩
theorem keeps_setRange {a : State} (s : State) (q : Nat) (x : Range) (h0 : Keeps a s) : Keeps a (s.setRange q x) := ⟨h0.1, fun c => canon_setRange (h0.2 c) q x⟩
theorem keeps_setGate {a : State} (s : State) (n : Nat) (x : Gate) (h0 : Keeps a s) : Keeps a (s.setGate n x) := ⟨h0.1, fun c => canon_setGate (h0.2 c) n x⟩

end Sys2Proof.Machine
end

