-- ==== Sys2Proof/Laws/KeepsUnits.lean ====
section
/-! SUPPORT. Keeps for the definitions of Machine/: the flags, logs, gates, channels, stations and the stoker. -/
namespace Sys2Proof.Machine
set_option linter.unusedVariables false
set_option linter.tactic.unusedName false

/-! ### Machine/Ops.lean -/

theorem keeps_emit {z0 : State} (s : State) (o : Out) (h0 : Keeps z0 s) :
    Keeps z0 (State.emit s o) := by
  unfold State.emit
  repeat' first
    | with_reducible assumption
    | with_reducible refine keeps_mk ?_

theorem keeps_counted {z0 : State} (s : State) (t : State) (h0 : Keeps z0 s) (h1 : Keeps z0 t) :
    Keeps z0 (State.counted s t) := by
  unfold State.counted
  repeat' first
    | with_reducible assumption
    | split

theorem keeps_timed {z0 : State} (s : State) (t : State) (h0 : Keeps z0 s) (h1 : Keeps z0 t) :
    Keeps z0 (State.timed s t) := by
  unfold State.timed
  repeat' first
    | with_reducible assumption
    | with_reducible intro _
    | with_reducible apply keeps_fst
    | with_reducible apply h0
    | with_reducible apply h1
    | with_reducible apply hf
    | split
    | (with_reducible refine keeps_of_pair ‹_ = (_, _)› ?_)
    | with_reducible refine keeps_mk ?_
    | with_reducible apply keeps_refl

theorem keeps_setSramLine {z0 : State} (s : State) (h : Nat) (l : Nat) (b : Bytes) (p : Bool) (h0 : Keeps z0 s) :
    Keeps z0 (State.setSramLine s h l b p) := by
  unfold State.setSramLine
  repeat' first
    | with_reducible assumption
    | with_reducible intro _
    | with_reducible refine keeps_mkMem ?_ ?_
    | with_reducible exact writeBytes_wf (by assumption)

theorem keeps_setSramLines {z0 : State} (s : State) (h : Nat) (x0 : List Nat) (x1 : Bytes) (x2 : List Bool) (h0 : Keeps z0 s) :
    Keeps z0 (State.setSramLines s h x0 x1 x2) := by
  induction x0 generalizing s h x1 x2 with
  | nil =>
   unfold State.setSramLines
   repeat' first
    | with_reducible assumption
    | with_reducible apply keeps_setSramLine
  | cons x r ih =>
   unfold State.setSramLines
   repeat' first
    | with_reducible assumption
    | with_reducible apply keeps_setSramLine
    | with_reducible apply ih

/-! ### Machine/Flags.lean -/

theorem keeps_setFlag {z0 : State} (s : State) (f : Nat) (v : Word) (h0 : Keeps z0 s) :
    Keeps z0 (State.setFlag s f v) := by
  unfold State.setFlag
  repeat' first
    | with_reducible assumption
    | (extract_lets +onlyGivenNames x; clear_value x)
    | with_reducible refine keeps_mk ?_

theorem keeps_setFlagPoi {z0 : State} (s : State) (f : Nat) (b : Bool) (h0 : Keeps z0 s) :
    Keeps z0 (State.setFlagPoi s f b) := by
  unfold State.setFlagPoi
  repeat' first
    | with_reducible assumption
    | (extract_lets +onlyGivenNames x; clear_value x)
    | with_reducible refine keeps_mk ?_

theorem keeps_bumpFlag {z0 : State} (s : State) (f : Nat) (d : Word) (h0 : Keeps z0 s) :
    Keeps z0 (State.bumpFlag s f d) := by
  unfold State.bumpFlag
  repeat' first
    | with_reducible assumption
    | with_reducible apply keeps_setFlag

theorem keeps_noteProgress {z0 : State} (s : State) (h0 : Keeps z0 s) :
    Keeps z0 (State.noteProgress s) := by
  unfold State.noteProgress
  repeat' first
    | with_reducible assumption
    | (extract_lets +onlyGivenNames x; clear_value x)
    | with_reducible refine keeps_mk ?_

theorem keeps_bumpFlagP {z0 : State} (s : State) (f : Nat) (d : Word) (h0 : Keeps z0 s) :
    Keeps z0 (State.bumpFlagP s f d) := by
  unfold State.bumpFlagP
  repeat' first
    | with_reducible assumption
    | (extract_lets +onlyGivenNames x; refine keeps_step (a := z0) (s := x) ?_ (fun hx => ?_); subst x; rotate_left; clear_value x; rotate_left)
    | with_reducible apply keeps_bumpFlag
    | with_reducible apply keeps_noteProgress
    | split

theorem keeps_flagAdd {z0 : State} (s : State) (t : Nat) (f : Nat) (d : Word) (h0 : Keeps z0 s) :
    Keeps z0 (State.flagAdd s t f d) := by
  unfold State.flagAdd
  repeat' first
    | with_reducible assumption
    | (extract_lets +onlyGivenNames x; clear_value x)
    | with_reducible apply keeps_bumpFlagP
    | split
    | with_reducible refine keeps_mk ?_

theorem keeps_clearFlag {z0 : State} (s : State) (f : Nat) (h0 : Keeps z0 s) :
    Keeps z0 (State.clearFlag s f) := by
  unfold State.clearFlag
  repeat' first
    | with_reducible assumption
    | with_reducible apply keeps_setFlag
    | with_reducible apply keeps_setFlagPoi

theorem keeps_clearFlags {z0 : State} (s : State) (lo : Nat) (n : Nat) (h0 : Keeps z0 s) :
    Keeps z0 (State.clearFlags s lo n) := by
  unfold State.clearFlags
  repeat' first
    | with_reducible assumption
    | (extract_lets +onlyGivenNames x; refine keeps_step (a := z0) (s := x) ?_ (fun hx => ?_); subst x; rotate_left; clear_value x; rotate_left)
    | with_reducible apply keeps_noteProgress
    | split
    | with_reducible refine keeps_mk ?_

/-! ### Machine/Hob.lean -/

theorem keeps_writeFx {z0 : State} (s : State) (h : Nat) (c : Nat) (e : HPend) (h0 : Keeps z0 s) :
    Keeps z0 (writeFx s h c e) := by
  unfold writeFx
  repeat' first
    | with_reducible assumption
    | (extract_lets +onlyGivenNames x; clear_value x)
    | with_reducible apply keeps_setHob
    | with_reducible apply keeps_setRange
    | with_reducible apply keeps_setSramLines
    | split

theorem keeps_drainReads {z0 : State} (s : State) (h : Nat) (c : Nat) (h0 : Keeps z0 s) :
    Keeps z0 (drainReads s h c) := by
  unfold drainReads
  repeat' first
    | with_reducible assumption
    | (extract_lets +onlyGivenNames x; clear_value x)
    | with_reducible apply keeps_setHob

theorem keeps_drainWrites {z0 : State} (s : State) (h : Nat) (c : Nat) (h0 : Keeps z0 s) :
    Keeps z0 (drainWrites s h c) := by
  unfold drainWrites
  repeat' first
    | with_reducible assumption
    | with_reducible intro _
    | (extract_lets +onlyGivenNames x; refine keeps_step (a := z0) (s := x) ?_ (fun hx => ?_); subst x; rotate_left; clear_value x; rotate_left)
    | (extract_lets +onlyGivenNames x; clear_value x)
    | with_reducible apply keeps_setHob
    | with_reducible apply keeps_writeFx
    | with_reducible apply keeps_foldl

/-! ### Machine/Bundle.lean -/

theorem keeps_fault {z0 : State} (s : State) (q : Nat) (u : Nat) (slot : Nat) (reason : Nat) (addr : Nat) (cyc : Nat) (loc : Bool) (h0 : Keeps z0 s) :
    Keeps z0 (State.fault s q u slot reason addr cyc loc) := by
  unfold State.fault
  repeat' first
    | with_reducible assumption
    | (extract_lets +onlyGivenNames x; clear_value x)
    | with_reducible apply keeps_setRange

theorem keeps_seqFault {z0 : State} (s : State) (q : Nat) (slot : Nat) (reason : Nat) (addr : Nat) (cyc : Nat) (h0 : Keeps z0 s) :
    Keeps z0 (State.seqFault s q slot reason addr cyc) := by
  unfold State.seqFault
  repeat' first
    | with_reducible assumption
    | with_reducible apply keeps_fault

theorem keeps_logFaults {z0 : State} (s : State) (q : Nat) (u : Nat) (addr : Nat) (cyc : Nat) (loc : Bool) (x0 : SMap Nat) (h0 : Keeps z0 s) :
    Keeps z0 (State.logFaults s q u addr cyc loc x0) := by
  induction x0 generalizing s q u addr cyc loc with
  | nil =>
   unfold State.logFaults
   repeat' first
    | with_reducible assumption
    | with_reducible apply keeps_fault
  | cons x r ih =>
   unfold State.logFaults
   repeat' first
    | with_reducible assumption
    | with_reducible apply keeps_fault
    | with_reducible apply ih

/-! ### Machine/Log.lean -/

theorem keeps_log {z0 : State} (s : State) (code : Nat) (cls : EClass) (src : Src) (tenant : Option Nat) (args : List Nat) (h0 : Keeps z0 s) :
    Keeps z0 (State.log s code cls src tenant args) := by
  unfold State.log
  repeat' first
    | with_reducible assumption
    | (extract_lets +onlyGivenNames x; refine keeps_step (a := z0) (s := x) ?_ (fun hx => ?_); subst x; rotate_left; clear_value x; rotate_left)
    | (extract_lets +onlyGivenNames x; clear_value x)
    | with_reducible apply keeps_emit
    | split
    | with_reducible refine keeps_mk ?_

theorem keeps_decideAbort {z0 : State} (s : State) (t : Nat) (reason : Nat) (h0 : Keeps z0 s) :
    Keeps z0 (State.decideAbort s t reason) := by
  unfold State.decideAbort
  repeat' first
    | with_reducible assumption
    | (extract_lets +onlyGivenNames x; clear_value x)
    | with_reducible refine keeps_mk ?_

theorem keeps_consumePoison {z0 : State} (s : State) (t : Nat) (point : Nat) (h0 : Keeps z0 s) :
    Keeps z0 (State.consumePoison s t point) := by
  unfold State.consumePoison
  repeat' first
    | with_reducible assumption
    | with_reducible apply keeps_log
    | with_reducible apply keeps_decideAbort
    | split

theorem keeps_fatalStop {z0 : State} (s : State) (h0 : Keeps z0 s) :
    Keeps z0 (State.fatalStop s) := by
  unfold State.fatalStop
  repeat' first
    | with_reducible assumption
    | with_reducible intro _
    | with_reducible apply keeps_fst
    | with_reducible apply h0
    | with_reducible apply hf
    | (with_reducible refine keeps_of_pair ‹_ = (_, _)› ?_)
    | with_reducible refine keeps_mk ?_
    | with_reducible apply keeps_refl

theorem keeps_partFatal {z0 : State} (s : State) (cause : Nat) (h0 : Keeps z0 s) :
    Keeps z0 (State.partFatal s cause) := by
  unfold State.partFatal
  repeat' first
    | with_reducible assumption
    | with_reducible intro _
    | (extract_lets +onlyGivenNames x; refine keeps_step (a := z0) (s := x) ?_ (fun hx => ?_); subst x; rotate_left; clear_value x; rotate_left)
    | (extract_lets +onlyGivenNames x; clear_value x)
    | with_reducible apply keeps_log
    | with_reducible apply keeps_fatalStop
    | with_reducible apply keeps_fst
    | with_reducible apply h0
    | with_reducible apply hf
    | split
    | (with_reducible refine keeps_of_pair ‹_ = (_, _)› ?_)
    | with_reducible refine keeps_mk ?_
    | with_reducible apply keeps_refl

theorem keeps_ptabEnter {z0 : State} (s : State) (a : Nat) (h0 : Keeps z0 s) :
    Keeps z0 (State.ptabEnter s a) := by
  unfold State.ptabEnter
  repeat' first
    | with_reducible assumption
    | (extract_lets +onlyGivenNames x; clear_value x)
    | with_reducible apply keeps_setRange
    | with_reducible apply keeps_log
    | with_reducible apply keeps_partFatal
    | split

theorem keeps_ptabClean {z0 : State} (s : State) (a : Nat) (h0 : Keeps z0 s) :
    Keeps z0 (State.ptabClean s a) := by
  unfold State.ptabClean
  repeat' first
    | with_reducible assumption
    | (extract_lets +onlyGivenNames x; clear_value x)
    | with_reducible apply keeps_setRange
    | split

theorem keeps_placeBurst {z0 : State} (s : State) (a : Nat) (b : Bytes) (poi : Bool) (h0 : Keeps z0 s) :
    Keeps z0 (State.placeBurst s a b poi) := by
  unfold State.placeBurst
  repeat' first
    | with_reducible assumption
    | with_reducible intro _
    | (extract_lets +onlyGivenNames x; refine keeps_step (a := z0) (s := x) ?_ (fun hx => ?_); subst x; rotate_left; clear_value x; rotate_left)
    | with_reducible apply keeps_ptabEnter
    | with_reducible apply keeps_ptabClean
    | split
    | with_reducible refine keeps_mkMem ?_ ?_
    | with_reducible exact writeBytes_wf (by assumption)

theorem keeps_placeLine {z0 : State} (s : State) (a : Nat) (b : Bytes) (poi : Bool) (h0 : Keeps z0 s) :
    Keeps z0 (State.placeLine s a b poi) := by
  unfold State.placeLine
  repeat' first
    | with_reducible assumption
    | with_reducible intro _
    | (extract_lets +onlyGivenNames x; refine keeps_step (a := z0) (s := x) ?_ (fun hx => ?_); subst x; rotate_left; clear_value x; rotate_left)
    | (extract_lets +onlyGivenNames x; clear_value x)
    | with_reducible apply keeps_placeBurst
    | split
    | with_reducible refine keeps_mkMem ?_ ?_
    | with_reducible exact writeBytes_wf (by assumption)

theorem keeps_placeLines {z0 : State} (s : State) (a : Nat) (x0 : Nat) (x1 : List (Bytes × Bool)) (h0 : Keeps z0 s) :
    Keeps z0 (State.placeLines s a x0 x1) := by
  induction x1 generalizing s a x0 with
  | nil =>
   unfold State.placeLines
   repeat' first
    | with_reducible assumption
    | with_reducible apply keeps_placeLine
  | cons x r ih =>
   unfold State.placeLines
   repeat' first
    | with_reducible assumption
    | with_reducible apply keeps_placeLine
    | with_reducible apply ih

/-! ### Machine/Fabric.lean -/

theorem keeps_bumpGate {z0 : State} (s : State) (l : Nat) (off : Nat) (d : Word) (h0 : Keeps z0 s) :
    Keeps z0 (State.bumpGate s l off d) := by
  unfold State.bumpGate
  repeat' first
    | with_reducible assumption
    | (extract_lets +onlyGivenNames x; clear_value x)
    | with_reducible apply keeps_setGate

theorem keeps_setChan {z0 : State} (s : State) (c : Nat) (x : Channel) (h0 : Keeps z0 s) :
    Keeps z0 (State.setChan s c x) := by
  unfold State.setChan
  repeat' first
    | with_reducible assumption
    | (extract_lets +onlyGivenNames x; clear_value x)
    | with_reducible refine keeps_mk ?_

theorem keeps_setChim {z0 : State} (s : State) (k : Nat) (x : Chimney) (h0 : Keeps z0 s) :
    Keeps z0 (State.setChim s k x) := by
  unfold State.setChim
  repeat' first
    | with_reducible assumption
    | (extract_lets +onlyGivenNames x; clear_value x)
    | with_reducible refine keeps_mk ?_

theorem keeps_moverEnd {z0 : State} (s : State) (q : Nat) (m : Nat) (op : Nat) (err : Option Nat) (h0 : Keeps z0 s) :
    Keeps z0 (State.moverEnd s q m op err) := by
  unfold State.moverEnd
  repeat' first
    | with_reducible assumption
    | (extract_lets +onlyGivenNames x; clear_value x)
    | with_reducible apply keeps_setRange

theorem keeps_unitFail {z0 : State} (s : State) (unit : Nat) (tag : Nat) (status : Nat) (h0 : Keeps z0 s) :
    Keeps z0 (State.unitFail s unit tag status) := by
  unfold State.unitFail
  repeat' first
    | with_reducible assumption
    | (extract_lets +onlyGivenNames x; clear_value x)
    | with_reducible apply keeps_bumpGate
    | with_reducible apply keeps_setChim
    | with_reducible apply keeps_moverEnd
    | split
    | with_reducible refine keeps_mk ?_

theorem keeps_enqueue {z0 : State} (s : State) (l : Nat) (vc : Nat) (src : PSrc) (p : Packet) (h0 : Keeps z0 s) :
    Keeps z0 (State.enqueue s l vc src p) := by
  unfold State.enqueue
  repeat' first
    | with_reducible assumption
    | with_reducible apply keeps_setGate

theorem keeps_mantelSend {z0 : State} (s : State) (ls : List Load) (h0 : Keeps z0 s) :
    Keeps z0 (State.mantelSend s ls) := by
  unfold State.mantelSend
  repeat' first
    | with_reducible assumption
    | with_reducible intro _
    | with_reducible apply keeps_fst
    | with_reducible apply h0
    | with_reducible apply hf
    | (with_reducible refine keeps_of_pair ‹_ = (_, _)› ?_)
    | with_reducible refine keeps_mk ?_
    | with_reducible apply keeps_refl

theorem keeps_settleBridge {z0 : State} (s : State) (q : Nat) (h0 : Keeps z0 s) :
    Keeps z0 (State.settleBridge s q) := by
  unfold State.settleBridge
  repeat' first
    | with_reducible assumption
    | (extract_lets +onlyGivenNames x; clear_value x)
    | with_reducible apply keeps_setRange

theorem keeps_moverLoad {z0 : State} (s : State) (q : Nat) (m : Nat) (l : Load) (h0 : Keeps z0 s) :
    Keeps z0 (State.moverLoad s q m l) := by
  unfold State.moverLoad
  repeat' first
    | with_reducible assumption
    | (extract_lets +onlyGivenNames x; clear_value x)
    | with_reducible apply keeps_setRange
    | with_reducible apply keeps_settleBridge

theorem keeps_carry {z0 : State} (s : State) (u : Nat) (l : Nat) (vc : Nat) (p : Packet) (h0 : Keeps z0 s) :
    Keeps z0 (State.carry s u l vc p) := by
  unfold State.carry
  repeat' first
    | with_reducible assumption
    | with_reducible apply keeps_setRange
    | with_reducible apply keeps_enqueue
    | with_reducible apply keeps_moverLoad
    | split
    | with_reducible refine keeps_mk ?_

theorem keeps_noExitOwn {z0 : State} (s : State) (p : Packet) (h0 : Keeps z0 s) :
    Keeps z0 (State.noExitOwn s p) := by
  unfold State.noExitOwn
  repeat' first
    | with_reducible assumption
    | (extract_lets +onlyGivenNames x; refine keeps_step (a := z0) (s := x) ?_ (fun hx => ?_); subst x; rotate_left; clear_value x; rotate_left)
    | (extract_lets +onlyGivenNames x; clear_value x)
    | with_reducible apply keeps_unitFail
    | split
    | with_reducible refine keeps_mk ?_

theorem keeps_sendFrom {z0 : State} (s : State) (u : Nat) (p : Packet) (h0 : Keeps z0 s) :
    Keeps z0 (State.sendFrom s u p) := by
  unfold State.sendFrom
  repeat' first
    | with_reducible assumption
    | with_reducible apply keeps_carry
    | with_reducible apply keeps_noExitOwn
    | split
    | with_reducible refine keeps_mk ?_

theorem keeps_sendOwn {z0 : State} (s : State) (p : Packet) (h0 : Keeps z0 s) :
    Keeps z0 (State.sendOwn s p) := by
  unfold State.sendOwn
  repeat' first
    | with_reducible assumption
    | with_reducible apply keeps_sendFrom

theorem keeps_respond {z0 : State} (s : State) (u : Nat) (p : Packet) (status : Nat) (flits : List (Bytes × Bool)) (h0 : Keeps z0 s) :
    Keeps z0 (State.respond s u p status flits) := by
  unfold State.respond
  repeat' first
    | with_reducible assumption
    | with_reducible apply keeps_unitFail
    | with_reducible apply keeps_carry
    | split
    | with_reducible refine keeps_mk ?_

theorem keeps_refuse {z0 : State} (s : State) (u : Nat) (p : Packet) (status : Nat) (h0 : Keeps z0 s) :
    Keeps z0 (State.refuse s u p status) := by
  unfold State.refuse
  repeat' first
    | with_reducible assumption
    | with_reducible intro _
    | with_reducible apply keeps_respond
    | with_reducible apply keeps_fst
    | with_reducible apply h0
    | with_reducible apply hf
    | (with_reducible refine keeps_of_pair ‹_ = (_, _)› ?_)
    | with_reducible refine keeps_mk ?_
    | with_reducible apply keeps_refl

theorem keeps_accept {z0 : State} (s : State) (u : Nat) (p : Packet) (h0 : Keeps z0 s) :
    Keeps z0 (State.accept s u p) := by
  unfold State.accept
  repeat' first
    | with_reducible assumption
    | with_reducible intro _
    | with_reducible apply keeps_respond
    | with_reducible apply keeps_fst
    | with_reducible apply h0
    | with_reducible apply hf
    | split
    | (with_reducible refine keeps_of_pair ‹_ = (_, _)› ?_)
    | with_reducible refine keeps_mk ?_
    | with_reducible apply keeps_refl

theorem keeps_noExitTransit {z0 : State} (s : State) (u : Nat) (p : Packet) (h0 : Keeps z0 s) :
    Keeps z0 (State.noExitTransit s u p) := by
  unfold State.noExitTransit
  repeat' first
    | with_reducible assumption
    | with_reducible apply keeps_respond
    | split
    | with_reducible refine keeps_mk ?_

theorem keeps_sendGate {z0 : State} (s : State) (l : Nat) (p : Packet) (h0 : Keeps z0 s) :
    Keeps z0 (State.sendGate s l p) := by
  unfold State.sendGate
  repeat' first
    | with_reducible assumption
    | (extract_lets +onlyGivenNames x; clear_value x)
    | with_reducible apply keeps_bumpGate
    | with_reducible apply keeps_enqueue
    | split

theorem keeps_replace {z0 : State} (s : State) (l : Nat) (vc : Nat) (down : Bool) (w : Waiting) (h0 : Keeps z0 s) :
    Keeps z0 (State.replace s l vc down w) := by
  unfold State.replace
  repeat' first
    | with_reducible assumption
    | with_reducible intro _
    | (extract_lets +onlyGivenNames x; refine keeps_step (a := z0) (s := x) ?_ (fun hx => ?_); subst x; rotate_left; clear_value x; rotate_left)
    | (extract_lets +onlyGivenNames x; refine keeps_stepF (a := z0) (f := x) ?_ (fun hf => ?_); intro _ _; subst x; rotate_left; clear_value x; rotate_left)
    | (extract_lets +onlyGivenNames x; refine keeps_stepF2 (a := z0) (f := x) ?_ (fun hf => ?_); intro _ _ _; subst x; rotate_left; clear_value x; rotate_left)
    | (extract_lets +onlyGivenNames x; subst x)
    | with_reducible apply keeps_setGate
    | with_reducible apply keeps_bumpGate
    | with_reducible apply keeps_noExitOwn
    | with_reducible apply keeps_noExitTransit
    | with_reducible apply keeps_fst
    | with_reducible apply h0
    | with_reducible apply hf
    | split
    | with_reducible apply keepsP_mk
    | (with_reducible refine keeps_of_pair ‹_ = (_, _)› ?_)
    | (with_reducible refine keeps_of_some ‹_ = some _› ?_)
    | (with_reducible refine keeps_of_someQ ‹_ = some (_, _)› ?_)
    | (with_reducible refine keeps_of_someR ‹_ = some (_, _)› ?_)
    | with_reducible refine keeps_mk ?_
    | with_reducible apply keeps_refl

theorem keeps_moveOut {z0 : State} (s : State) (l : Nat) (vc : Nat) (x0 : Nat) (h0 : Keeps z0 s) :
    Keeps z0 (State.moveOut s l vc x0) := by
  induction x0 generalizing s l vc with
  | zero =>
   unfold State.moveOut
   repeat' first
     | with_reducible assumption
  | succ n ih =>
   unfold State.moveOut
   repeat' first
     | with_reducible assumption
     | with_reducible apply keeps_setGate
     | with_reducible apply keeps_enqueue
     | with_reducible apply ih
     | split

theorem keeps_rechooseVc {z0 : State} (s : State) (l : Nat) (vc : Nat) (h0 : Keeps z0 s) :
    Keeps z0 (State.rechooseVc s l vc) := by
  unfold State.rechooseVc
  repeat' first
    | with_reducible assumption
    | with_reducible intro _
    | (extract_lets +onlyGivenNames x; refine keeps_step (a := z0) (s := x) ?_ (fun hx => ?_); subst x; rotate_left; clear_value x; rotate_left)
    | with_reducible apply keeps_setGate
    | with_reducible apply keeps_replace
    | with_reducible apply keeps_moveOut
    | with_reducible apply keeps_foldl

theorem keeps_rechoose {z0 : State} (s : State) (l : Nat) (h0 : Keeps z0 s) :
    Keeps z0 (State.rechoose s l) := by
  unfold State.rechoose
  repeat' first
    | with_reducible assumption
    | with_reducible intro _
    | with_reducible apply keeps_rechooseVc
    | with_reducible apply keeps_foldl

theorem keeps_rechooseAll {z0 : State} (s : State) (h0 : Keeps z0 s) :
    Keeps z0 (State.rechooseAll s) := by
  unfold State.rechooseAll
  repeat' first
    | with_reducible assumption
    | with_reducible intro _
    | with_reducible apply keeps_rechoose
    | with_reducible apply keeps_foldl
    | split

/-! ### Machine/Channels.lean -/

theorem keeps_poisonChan {z0 : State} (s : State) (c : Nat) (h0 : Keeps z0 s) :
    Keeps z0 (State.poisonChan s c) := by
  unfold State.poisonChan
  repeat' first
    | with_reducible assumption
    | (extract_lets +onlyGivenNames x; clear_value x)
    | with_reducible apply keeps_consumePoison
    | with_reducible apply keeps_setChan

theorem keeps_ringLines {z0 : State} (s : State) (c : Nat) (num : Nat) (t : Nat) (a : Nat) (o : Nat) (ls : List (Bytes × Bool)) (h0 : Keeps z0 s) :
    Keeps z0 (State.ringLines s c num t a o ls) := by
  unfold State.ringLines
  repeat' first
    | with_reducible assumption
    | with_reducible intro _
    | with_reducible apply keeps_mantelSend
    | with_reducible apply keeps_fst
    | with_reducible apply h0
    | with_reducible apply hf
    | with_reducible apply keepsP_mk
    | (with_reducible refine keeps_of_pair ‹_ = (_, _)› ?_)
    | with_reducible refine keeps_mk ?_
    | with_reducible apply keeps_refl

theorem keeps_ringPlaced {z0 : State} (s : State) (c : Nat) (num : Nat) (o : Nat) (n : Nat) (h0 : Keeps z0 s) :
    Keeps z0 (State.ringPlaced s c num o n) := by
  unfold State.ringPlaced
  repeat' first
    | with_reducible assumption
    | with_reducible apply keeps_setChan

theorem keeps_chanProgress {z0 : State} (s : State) (c : Nat) (h0 : Keeps z0 s) :
    Keeps z0 (State.chanProgress s c) := by
  unfold State.chanProgress
  repeat' first
    | with_reducible assumption
    | with_reducible apply keeps_noteProgress
    | split

theorem keeps_msgArrive {z0 : State} (s : State) (c : Nat) (chip : Nat) (unit : Nat) (tag : Nat) (t : Option Nat) (mlines : Nat) (o : Nat) (ls : List (Bytes × Bool)) (h0 : Keeps z0 s) :
    KeepsP z0 (State.msgArrive s c chip unit tag t mlines o ls) := by
  unfold State.msgArrive
  repeat' first
    | with_reducible assumption
    | (extract_lets +onlyGivenNames x; refine keeps_step (a := z0) (s := x) ?_ (fun hx => ?_); subst x; rotate_left; clear_value x; rotate_left)
    | with_reducible apply keeps_setChan
    | with_reducible apply keeps_poisonChan
    | with_reducible apply keeps_ringLines
    | split
    | with_reducible apply keepsP_mk

theorem keeps_settleChan {z0 : State} (s : State) (c : Nat) (h0 : Keeps z0 s) :
    Keeps z0 (State.settleChan s c) := by
  unfold State.settleChan
  repeat' first
    | with_reducible assumption
    | (extract_lets +onlyGivenNames x; clear_value x)
    | with_reducible apply keeps_setChan
    | split

theorem keeps_advanceWp {z0 : State} (s : State) (c : Nat) (h0 : Keeps z0 s) :
    Keeps z0 (State.advanceWp s c) := by
  unfold State.advanceWp
  repeat' first
    | with_reducible assumption
    | (extract_lets +onlyGivenNames x; refine keeps_step (a := z0) (s := x) ?_ (fun hx => ?_); subst x; rotate_left; clear_value x; rotate_left)
    | (extract_lets +onlyGivenNames x; clear_value x)
    | with_reducible apply keeps_flagAdd
    | with_reducible apply keeps_setChan
    | with_reducible apply keeps_chanProgress
    | split

theorem keeps_messagePlaced {z0 : State} (s : State) (c : Nat) (h0 : Keeps z0 s) :
    Keeps z0 (State.messagePlaced s c) := by
  unfold State.messagePlaced
  repeat' first
    | with_reducible assumption
    | (extract_lets +onlyGivenNames x; clear_value x)
    | with_reducible apply keeps_setChan
    | with_reducible apply keeps_settleChan
    | with_reducible apply keeps_advanceWp
    | split

theorem keeps_messageAbandon {z0 : State} (s : State) (c : Nat) (slot : Nat) (h0 : Keeps z0 s) :
    Keeps z0 (State.messageAbandon s c slot) := by
  unfold State.messageAbandon
  repeat' first
    | with_reducible assumption
    | with_reducible intro _
    | (extract_lets +onlyGivenNames x; refine keeps_step (a := z0) (s := x) ?_ (fun hx => ?_); subst x; rotate_left; clear_value x; rotate_left)
    | with_reducible apply keeps_setChan
    | with_reducible apply keeps_ringLines
    | with_reducible apply keeps_foldl
    | split
    | with_reducible refine keeps_mk ?_

theorem keeps_closeChimney {z0 : State} (s : State) (c : Nat) (h0 : Keeps z0 s) :
    Keeps z0 (State.closeChimney s c) := by
  unfold State.closeChimney
  repeat' first
    | with_reducible assumption
    | (extract_lets +onlyGivenNames x; clear_value x)
    | with_reducible apply keeps_setChan
    | with_reducible apply keeps_setChim

theorem keeps_settleChimney {z0 : State} (s : State) (c : Nat) (h0 : Keeps z0 s) :
    Keeps z0 (State.settleChimney s c) := by
  unfold State.settleChimney
  repeat' first
    | with_reducible assumption
    | (extract_lets +onlyGivenNames x; clear_value x)
    | with_reducible apply keeps_closeChimney
    | split

theorem keeps_openChan {z0 : State} (s : State) (a : ChAttr) (h0 : Keeps z0 s) :
    Keeps z0 (State.openChan s a) := by
  unfold State.openChan
  repeat' first
    | with_reducible assumption
    | with_reducible intro _
    | (extract_lets +onlyGivenNames x; refine keeps_step (a := z0) (s := x) ?_ (fun hx => ?_); subst x; rotate_left; clear_value x; rotate_left)
    | (extract_lets +onlyGivenNames x; clear_value x)
    | with_reducible apply keeps_setChan
    | with_reducible apply keeps_setChim
    | with_reducible apply keeps_chanProgress
    | with_reducible apply keeps_fst
    | with_reducible apply h0
    | with_reducible apply hf
    | split
    | with_reducible apply keepsP_mk
    | (with_reducible refine keeps_of_pair ‹_ = (_, _)› ?_)
    | with_reducible refine keeps_mk ?_
    | with_reducible apply keeps_refl

theorem keeps_chOpen {z0 : State} (s : State) (a : ChAttr) (h0 : Keeps z0 s) :
    KeepsP z0 (State.chOpen s a) := by
  unfold State.chOpen
  repeat' first
    | with_reducible assumption
    | with_reducible apply keeps_openChan
    | split
    | with_reducible apply keepsP_mk

theorem keeps_chRequest {z0 : State} (s : State) (c : Nat) (t : Nat) (r : ChReq) (illegal : Bool) (h0 : Keeps z0 s) :
    KeepsP z0 (State.chRequest s c t r illegal) := by
  unfold State.chRequest
  repeat' first
    | with_reducible assumption
    | (extract_lets +onlyGivenNames x; clear_value x)
    | with_reducible apply keeps_setChan
    | split
    | with_reducible apply keepsP_mk

theorem keeps_closeChan {z0 : State} (s : State) (c : Nat) (why : Nat) (h0 : Keeps z0 s) :
    Keeps z0 (State.closeChan s c why) := by
  unfold State.closeChan
  repeat' first
    | with_reducible assumption
    | with_reducible apply keeps_setChan
    | with_reducible apply keeps_setChim
    | with_reducible apply keeps_settleChan
    | with_reducible apply keeps_settleChimney
    | split
    | with_reducible refine keeps_mk ?_

theorem keeps_chApply {z0 : State} (s : State) (c : Nat) (h0 : Keeps z0 s) :
    Keeps z0 (State.chApply s c) := by
  unfold State.chApply
  repeat' first
    | with_reducible assumption
    | with_reducible intro _
    | (extract_lets +onlyGivenNames x; clear_value x)
    | with_reducible apply keeps_setChan
    | with_reducible apply keeps_closeChan
    | with_reducible apply keeps_foldl
    | split

theorem keeps_flagAddMarked {z0 : State} (s : State) (t : Nat) (f : Nat) (d : Word) (poi : Bool) (h0 : Keeps z0 s) :
    Keeps z0 (State.flagAddMarked s t f d poi) := by
  unfold State.flagAddMarked
  repeat' first
    | with_reducible assumption
    | with_reducible apply keeps_setFlagPoi
    | with_reducible apply keeps_flagAdd
    | with_reducible apply keeps_consumePoison
    | split

theorem keeps_flagRemote {z0 : State} (s : State) (t : Nat) (f : Nat) (d : Word) (h0 : Keeps z0 s) :
    KeepsP z0 (State.flagRemote s t f d) := by
  unfold State.flagRemote
  repeat' first
    | with_reducible assumption
    | with_reducible apply keeps_bumpFlagP
    | split
    | with_reducible apply keepsP_mk

theorem keeps_ownMsg {z0 : State} (s : State) (c : Nat) (unit : Nat) (b : Bytes) (h0 : Keeps z0 s) :
    KeepsP z0 (State.ownMsg s c unit b) := by
  unfold State.ownMsg
  repeat' first
    | with_reducible assumption
    | with_reducible apply keeps_msgArrive

theorem keeps_flush {z0 : State} (s : State) (h0 : Keeps z0 s) :
    Keeps z0 (State.flush s) := by
  unfold State.flush
  repeat' first
    | with_reducible assumption
    | with_reducible intro _
    | (extract_lets +onlyGivenNames x; clear_value x)
    | with_reducible apply keeps_ownMsg
    | with_reducible apply keeps_foldl
    | split
    | (with_reducible refine keeps_of_pair ‹_ = (_, _)› ?_)
    | with_reducible refine keeps_mk ?_

/-! ### Machine/Hbm.lean -/

theorem keeps_group {z0 : State} (s : State) (q : Nat) (t : Nat) (sl : Nat) (ecc : List Nat) (h0 : Keeps z0 s) :
    KeepsO z0 (State.group s q t sl ecc) := by
  unfold State.group
  repeat' first
    | with_reducible assumption
    | (extract_lets +onlyGivenNames x; clear_value x)
    | (with_reducible show KeepsO _ _; first | split | with_reducible apply keepsO_some | with_reducible exact keepsO_none)
    | with_reducible apply keeps_setRange

theorem keeps_setStn {z0 : State} (s : State) (q : Nat) (x : Station) (h0 : Keeps z0 s) :
    Keeps z0 (State.setStn s q x) := by
  unfold State.setStn
  repeat' first
    | with_reducible assumption
    | (extract_lets +onlyGivenNames x; clear_value x)
    | with_reducible apply keeps_setRange

theorem keeps_burstSeverity {z0 : State} (s : State) (q : Nat) (p : Nat) (a : Nat) (sev : Nat) (h0 : Keeps z0 s) :
    Keeps z0 (State.burstSeverity s q p a sev) := by
  unfold State.burstSeverity
  repeat' first
    | with_reducible assumption
    | (extract_lets +onlyGivenNames x; clear_value x)
    | with_reducible apply keeps_log
    | with_reducible apply keeps_setStn
    | split

theorem keeps_readBurst {z0 : State} (s : State) (q : Nat) (p : Nat) (a : Nat) (sev : Nat) (h0 : Keeps z0 s) :
    KeepsP z0 (State.readBurst s q p a sev) := by
  unfold State.readBurst
  repeat' first
    | with_reducible assumption
    | with_reducible apply keeps_burstSeverity
    | split
    | with_reducible apply keepsP_mk

theorem keeps_playCmd {z0 : State} (s : State) (q : Nat) (c : HCmd) (h0 : Keeps z0 s) :
    Keeps z0 (State.playCmd s q c) := by
  fun_cases State.playCmd s q c
  · exact keeps_setStn _ _ _ (keeps_of_pair ‹_ = (_, _)› (keeps_readBurst _ _ _ _ _ h0))
  · exact keeps_consumePoison _ _ _ (keeps_placeBurst _ _ _ _ h0)
  · exact keeps_placeBurst _ _ _ _ h0
  · exact keeps_setStn _ _ _ h0
  · exact keeps_setStn _ _ _ h0
  · exact h0

theorem keeps_readLinesHbm {z0 : State} (s : State) (q : Nat) (p : Nat) (a : Nat) (x0 : Nat) (x1 : List Nat) (h0 : Keeps z0 s) :
    KeepsP z0 (State.readLinesHbm s q p a x0 x1) := by
  induction x0 generalizing s q p a x1 with
  | zero =>
   unfold State.readLinesHbm
   repeat' first
    | with_reducible assumption
    | with_reducible apply keepsP_mk
  | succ n ih =>
   unfold State.readLinesHbm
   repeat' first
    | with_reducible assumption
    | with_reducible apply keeps_readBurst
    | with_reducible apply ih
    | split
    | with_reducible apply keepsP_mk
    | (with_reducible refine keeps_of_pair ‹_ = (_, _)› ?_)

theorem keeps_writeLines {z0 : State} (s : State) (a : Nat) (x0 : Bytes) (x1 : List Bool) (h0 : Keeps z0 s) :
    Keeps z0 (State.writeLines s a x0 x1) := by
  induction x1 generalizing s a x0 with
  | nil =>
   unfold State.writeLines
   repeat' first
    | with_reducible assumption
    | with_reducible apply keeps_placeLine
  | cons x r ih =>
   unfold State.writeLines
   repeat' first
    | with_reducible assumption
    | with_reducible apply keeps_placeLine
    | with_reducible apply ih

theorem keeps_serveLoad {z0 : State} (s : State) (q : Nat) (l : Load) (ecc : List Nat) (h0 : Keeps z0 s) :
    Keeps z0 (State.serveLoad s q l ecc) := by
  unfold State.serveLoad
  repeat' first
    | with_reducible assumption
    | (extract_lets +onlyGivenNames x; refine keeps_step (a := z0) (s := x) ?_ (fun hx => ?_); subst x; rotate_left; clear_value x; rotate_left)
    | (extract_lets +onlyGivenNames x; clear_value x)
    | with_reducible apply keeps_consumePoison
    | with_reducible apply keeps_setStn
    | with_reducible apply keeps_readLinesHbm
    | with_reducible apply keeps_writeLines
    | with_reducible apply keeps_fst
    | split

theorem keeps_serveDue {z0 : State} (s : State) (q : Nat) (due : Nat → Bool) (h0 : Keeps z0 s) :
    Keeps z0 (State.serveDue s q due) := by
  unfold State.serveDue
  repeat' first
    | with_reducible assumption
    | with_reducible intro _
    | (extract_lets +onlyGivenNames x; refine keeps_step (a := z0) (s := x) ?_ (fun hx => ?_); subst x; rotate_left; clear_value x; rotate_left)
    | with_reducible apply keeps_setStn
    | with_reducible apply keeps_serveLoad
    | with_reducible apply keeps_foldl

theorem keeps_playDue {z0 : State} (s : State) (q : Nat) (due : Nat → Bool) (h0 : Keeps z0 s) :
    Keeps z0 (State.playDue s q due) := by
  unfold State.playDue
  repeat' first
    | with_reducible assumption
    | with_reducible intro _
    | (extract_lets +onlyGivenNames x; refine keeps_step (a := z0) (s := x) ?_ (fun hx => ?_); subst x; rotate_left; clear_value x; rotate_left)
    | with_reducible apply keeps_setStn
    | with_reducible apply keeps_playCmd
    | with_reducible apply keeps_serveDue
    | with_reducible apply keeps_foldl

theorem keeps_playRefs {z0 : State} (s : State) (q : Nat) (k : Nat) (h0 : Keeps z0 s) :
    Keeps z0 (State.playRefs s q k) := by
  unfold State.playRefs
  repeat' first
    | with_reducible assumption
    | with_reducible intro _
    | (extract_lets +onlyGivenNames x; refine keeps_step (a := z0) (s := x) ?_ (fun hx => ?_); subst x; rotate_left; clear_value x; rotate_left)
    | with_reducible apply keeps_setStn
    | with_reducible apply keeps_playCmd
    | with_reducible apply keeps_foldl

theorem keeps_playTo {z0 : State} (s : State) (q : Nat) (c : Nat) (h0 : Keeps z0 s) :
    Keeps z0 (State.playTo s q c) := by
  unfold State.playTo
  repeat' first
    | with_reducible assumption
    | (extract_lets +onlyGivenNames x; clear_value x)
    | with_reducible apply keeps_playDue

theorem keeps_playAll {z0 : State} (s : State) (q : Nat) (h0 : Keeps z0 s) :
    Keeps z0 (State.playAll s q) := by
  unfold State.playAll
  repeat' first
    | with_reducible assumption
    | with_reducible apply keeps_playDue

theorem keeps_refreshTick {z0 : State} (s : State) (q : Nat) (p : Nat) (k : Nat) (h0 : Keeps z0 s) :
    Keeps z0 (State.refreshTick s q p k) := by
  unfold State.refreshTick
  repeat' first
    | with_reducible assumption
    | (extract_lets +onlyGivenNames x; refine keeps_step (a := z0) (s := x) ?_ (fun hx => ?_); subst x; rotate_left; clear_value x; rotate_left)
    | (extract_lets +onlyGivenNames x; clear_value x)
    | with_reducible apply keeps_log
    | with_reducible apply keeps_setStn
    | with_reducible apply keeps_playRefs
    | split

theorem keeps_seamRefresh {z0 : State} (s : State) (q : Nat) (h0 : Keeps z0 s) :
    Keeps z0 (State.seamRefresh s q) := by
  unfold State.seamRefresh
  repeat' first
    | with_reducible assumption
    | (extract_lets +onlyGivenNames x; refine keeps_step (a := z0) (s := x) ?_ (fun hx => ?_); subst x; rotate_left; clear_value x; rotate_left)
    | (extract_lets +onlyGivenNames x; clear_value x)
    | with_reducible apply keeps_setStn
    | with_reducible apply keeps_playAll
    | split

theorem keeps_idleRefresh {z0 : State} (s : State) (q : Nat) (h0 : Keeps z0 s) :
    Keeps z0 (State.idleRefresh s q) := by
  unfold State.idleRefresh
  repeat' first
    | with_reducible assumption
    | (extract_lets +onlyGivenNames x; clear_value x)
    | with_reducible apply keeps_setStn
    | split

theorem keeps_tempRead {z0 : State} (s : State) (q : Nat) (temp : Int) (h0 : Keeps z0 s) :
    Keeps z0 (State.tempRead s q temp) := by
  unfold State.tempRead
  repeat' first
    | with_reducible assumption
    | (extract_lets +onlyGivenNames x; refine keeps_step (a := z0) (s := x) ?_ (fun hx => ?_); subst x; rotate_left; clear_value x; rotate_left)
    | (extract_lets +onlyGivenNames x; clear_value x)
    | with_reducible apply keeps_log
    | with_reducible apply keeps_setStn
    | split

theorem keeps_enterSelfref {z0 : State} (s : State) (q : Nat) (h0 : Keeps z0 s) :
    Keeps z0 (State.enterSelfref s q) := by
  unfold State.enterSelfref
  repeat' first
    | with_reducible assumption
    | (extract_lets +onlyGivenNames x; refine keeps_step (a := z0) (s := x) ?_ (fun hx => ?_); subst x; rotate_left; clear_value x; rotate_left)
    | (extract_lets +onlyGivenNames x; clear_value x)
    | with_reducible apply keeps_setStn
    | with_reducible apply keeps_playAll

theorem keeps_leaveSelfref {z0 : State} (s : State) (q : Nat) (h0 : Keeps z0 s) :
    Keeps z0 (State.leaveSelfref s q) := by
  unfold State.leaveSelfref
  repeat' first
    | with_reducible assumption
    | (extract_lets +onlyGivenNames x; clear_value x)
    | with_reducible apply keeps_setStn
    | split

theorem keeps_engineAccess {z0 : State} (s : State) (q : Nat) (p : Nat) (k : Nat) (ecc : List Nat) (h0 : Keeps z0 s) :
    Keeps z0 (State.engineAccess s q p k ecc) := by
  unfold State.engineAccess
  repeat' first
    | with_reducible assumption
    | (extract_lets +onlyGivenNames x; clear_value x)
    | with_reducible apply keeps_setStn
    | with_reducible apply keeps_serveLoad
    | split

theorem keeps_emptyBlock {z0 : State} (s : State) (b : Nat) (h0 : Keeps z0 s) :
    Keeps z0 (State.emptyBlock s b) := by
  unfold State.emptyBlock
  repeat' first
    | with_reducible assumption
    | with_reducible refine keeps_mk ?_

theorem keeps_stageWrite {z0 : State} (s : State) (a : Nat) (ls : List (Bytes × Bool)) (h0 : Keeps z0 s) :
    Keeps z0 (State.stageWrite s a ls) := by
  unfold State.stageWrite
  repeat' first
    | with_reducible assumption
    | (extract_lets +onlyGivenNames x; refine keeps_step (a := z0) (s := x) ?_ (fun hx => ?_); subst x; rotate_left; clear_value x; rotate_left)
    | (extract_lets +onlyGivenNames x; clear_value x)
    | with_reducible apply keeps_placeLines
    | with_reducible apply keeps_setStn
    | split
    | with_reducible refine keeps_mk ?_

theorem keeps_stageConfirm {z0 : State} (s : State) (t : Nat) (d : Bytes) (h0 : Keeps z0 s) :
    Keeps z0 (State.stageConfirm s t d) := by
  unfold State.stageConfirm
  repeat' first
    | with_reducible assumption
    | (extract_lets +onlyGivenNames x; clear_value x)
    | with_reducible apply keeps_flagAdd
    | with_reducible apply keeps_emptyBlock
    | split
    | with_reducible refine keeps_mk ?_

theorem keeps_stageRelease {z0 : State} (s : State) (d : Bytes) (h0 : Keeps z0 s) :
    Keeps z0 (State.stageRelease s d) := by
  unfold State.stageRelease
  repeat' first
    | with_reducible assumption
    | with_reducible apply keeps_emptyBlock

/-! ### Machine/Chimneys.lean -/

theorem keeps_placeBytes {z0 : State} (s : State) (a : Nat) (b : Bytes) (poi : Bool) (h0 : Keeps z0 s) :
    Keeps z0 (State.placeBytes s a b poi) := by
  unfold State.placeBytes
  repeat' first
    | with_reducible assumption
    | with_reducible intro _
    | with_reducible apply keeps_placeLine
    | with_reducible apply keeps_foldl

theorem keeps_takeLine {z0 : State} (s : State) (c : Nat) (chip : Nat) (i : Nat) (o : Nat) (b : Bytes) (poi : Bool) (h0 : Keeps z0 s) :
    Keeps z0 (State.takeLine s c chip i o b poi) := by
  unfold State.takeLine
  repeat' first
    | with_reducible assumption
    | with_reducible intro _
    | (extract_lets +onlyGivenNames x; refine keeps_step (a := z0) (s := x) ?_ (fun hx => ?_); subst x; rotate_left; clear_value x; rotate_left)
    | (extract_lets +onlyGivenNames x; refine keeps_stepF (a := z0) (f := x) ?_ (fun hf => ?_); intro _ _; subst x; rotate_left; clear_value x; rotate_left)
    | (extract_lets +onlyGivenNames x; refine keeps_stepF2 (a := z0) (f := x) ?_ (fun hf => ?_); intro _ _ _; subst x; rotate_left; clear_value x; rotate_left)
    | (extract_lets +onlyGivenNames x; clear_value x)
    | with_reducible apply keeps_placeLine
    | with_reducible apply keeps_setChan
    | with_reducible apply keeps_setChim
    | with_reducible apply keeps_mantelSend
    | with_reducible apply keeps_poisonChan
    | with_reducible apply keeps_accepted
    | with_reducible apply keeps_fst
    | with_reducible apply h0
    | with_reducible apply hf
    | split
    | with_reducible apply keepsP_mk
    | (with_reducible refine keeps_of_pair ‹_ = (_, _)› ?_)
    | (with_reducible refine keeps_of_some ‹_ = some _› ?_)
    | (with_reducible refine keeps_of_someQ ‹_ = some (_, _)› ?_)
    | (with_reducible refine keeps_of_someR ‹_ = some (_, _)› ?_)
    | with_reducible refine keeps_mk ?_
    | with_reducible apply keeps_refl

theorem keeps_countRefusal {z0 : State} (s : State) (c : Nat) (code : Nat) (h0 : Keeps z0 s) :
    Keeps z0 (State.countRefusal s c code) := by
  unfold State.countRefusal
  repeat' first
    | with_reducible assumption
    | (extract_lets +onlyGivenNames x; refine keeps_step (a := z0) (s := x) ?_ (fun hx => ?_); subst x; rotate_left; clear_value x; rotate_left)
    | (extract_lets +onlyGivenNames x; clear_value x)
    | with_reducible apply keeps_setChan
    | with_reducible apply keeps_setChim
    | split

theorem keeps_takeLines {z0 : State} (s0 : State) (c : Nat) (t : Option Nat) (chip : Nat) (i : Nat) (sizeOk : Bool) (x0 : Nat) (x1 : List (Bytes × Bool)) (x2 : State × Nat) (h0 : Keeps z0 s0) (h1 : KeepsP z0 x2) :
    KeepsP z0 (State.takeLines s0 c t chip i sizeOk x0 x1 x2) := by
  induction x1 generalizing s0 c t chip i sizeOk x0 x2 with
  | nil =>
   unfold State.takeLines
   repeat' first
    | with_reducible assumption
  | cons x r ih =>
   unfold State.takeLines
   repeat' first
    | with_reducible assumption
    | with_reducible apply keeps_takeLine
    | with_reducible apply keeps_fst
    | with_reducible apply ih
    | split
    | with_reducible apply keepsP_mk

theorem keeps_contribArrive {z0 : State} (s : State) (c : Nat) (t : Option Nat) (chip : Nat) (i : Nat) (o : Nat) (ls : List (Bytes × Bool)) (sizeOk : Bool) (h0 : Keeps z0 s) :
    KeepsP z0 (State.contribArrive s c t chip i o ls sizeOk) := by
  unfold State.contribArrive
  repeat' first
    | with_reducible assumption
    | with_reducible apply keeps_countRefusal
    | with_reducible apply keeps_takeLines
    | split
    | with_reducible apply keepsP_mk
    | (with_reducible refine keeps_of_pair ‹_ = (_, _)› ?_)

theorem keeps_windowLines {z0 : State} (s0 : State) (t : Nat) (chip : Nat) (x0 : Nat) (x1 : List (Bytes × Bool)) (x2 : List Nat) (x3 : State × Nat) (h0 : Keeps z0 s0) (h1 : KeepsP z0 x3) :
    KeepsP z0 (State.windowLines s0 t chip x0 x1 x2 x3) := by
  induction x1 generalizing s0 t chip x0 x2 x3 with
  | nil =>
   unfold State.windowLines
   repeat' first
    | with_reducible assumption
  | cons x r ih =>
   unfold State.windowLines
   repeat' first
    | with_reducible assumption
    | with_reducible apply keeps_takeLine
    | with_reducible apply keeps_countRefusal
    | with_reducible apply keeps_fst
    | with_reducible apply ih
    | split
    | with_reducible apply keepsP_mk

theorem keeps_windowWrite {z0 : State} (s : State) (t : Nat) (chip : Nat) (a : Nat) (ls : List (Bytes × Bool)) (h0 : Keeps z0 s) :
    KeepsP z0 (State.windowWrite s t chip a ls) := by
  unfold State.windowWrite
  repeat' first
    | with_reducible assumption
    | with_reducible apply keeps_windowLines
    | with_reducible apply keepsP_mk

theorem keeps_roundSum {z0 : State} (s : State) (k : Nat) (h0 : Keeps z0 s) :
    Keeps z0 (State.roundSum s k) := by
  unfold State.roundSum
  repeat' first
    | with_reducible assumption
    | with_reducible apply keeps_setChim
    | with_reducible apply keeps_mantelSend
    | split

theorem keeps_sumPlaced {z0 : State} (s : State) (k : Nat) (num : Nat) (h0 : Keeps z0 s) :
    Keeps z0 (State.sumPlaced s k num) := by
  unfold State.sumPlaced
  repeat' first
    | with_reducible assumption
    | (extract_lets +onlyGivenNames x; clear_value x)
    | with_reducible apply keeps_setChim
    | with_reducible apply keeps_settleChimney
    | split

theorem keeps_forward {z0 : State} (s : State) (k : Nat) (y : Chimney) (tenant : Nat) (j : Nat) (total : Nat) (x0 : Nat) (x1 : Nat) (x2 : List (Bytes × Bool)) (h0 : Keeps z0 s) :
    Keeps z0 (State.forward s k y tenant j total x0 x1 x2) := by
  induction x0 generalizing s k y tenant j total x1 x2 with
  | zero =>
   unfold State.forward
   repeat' first
    | with_reducible assumption
  | succ n ih =>
   unfold State.forward
   repeat' first
    | with_reducible assumption
    | (extract_lets +onlyGivenNames x; refine keeps_step (a := z0) (s := x) ?_ (fun hx => ?_); subst x; rotate_left; clear_value x; rotate_left)
    | with_reducible apply keeps_unitFail
    | with_reducible apply keeps_sendOwn
    | with_reducible apply keeps_contribArrive
    | with_reducible apply ih
    | split
    | (with_reducible refine keeps_of_pair ‹_ = (_, _)› ?_)

theorem keeps_roundComplete {z0 : State} (s : State) (k : Nat) (h0 : Keeps z0 s) :
    Keeps z0 (State.roundComplete s k) := by
  unfold State.roundComplete
  repeat' first
    | with_reducible assumption
    | (extract_lets +onlyGivenNames x; refine keeps_step (a := z0) (s := x) ?_ (fun hx => ?_); subst x; rotate_left; clear_value x; rotate_left)
    | (extract_lets +onlyGivenNames x; clear_value x)
    | with_reducible apply keeps_setChim
    | with_reducible apply keeps_advanceWp
    | with_reducible apply keeps_settleChimney
    | with_reducible apply keeps_forward
    | split

/-! ### Machine/Stoker.lean -/

theorem keeps_setEntry {z0 : State} (s : State) (e : Nat) (x : Entry) (h0 : Keeps z0 s) :
    Keeps z0 (State.setEntry s e x) := by
  unfold State.setEntry
  repeat' first
    | with_reducible assumption
    | (extract_lets +onlyGivenNames x; clear_value x)
    | with_reducible refine keeps_mk ?_

theorem keeps_stampEntry {z0 : State} (s : State) (e : Nat) (h0 : Keeps z0 s) :
    Keeps z0 (State.stampEntry s e) := by
  unfold State.stampEntry
  repeat' first
    | with_reducible assumption
    | (extract_lets +onlyGivenNames x; refine keeps_step (a := z0) (s := x) ?_ (fun hx => ?_); subst x; rotate_left; clear_value x; rotate_left)
    | (extract_lets +onlyGivenNames x; clear_value x)
    | with_reducible apply keeps_setEntry
    | with_reducible refine keeps_mk ?_

theorem keeps_beginArming {z0 : State} (s : State) (e : Nat) (h0 : Keeps z0 s) :
    Keeps z0 (State.beginArming s e) := by
  unfold State.beginArming
  repeat' first
    | with_reducible assumption
    | (extract_lets +onlyGivenNames x; refine keeps_step (a := z0) (s := x) ?_ (fun hx => ?_); subst x; rotate_left; clear_value x; rotate_left)
    | (extract_lets +onlyGivenNames x; clear_value x)
    | with_reducible apply keeps_setEntry
    | with_reducible apply keeps_stampEntry

theorem keeps_reqRefused {z0 : State} (s : State) (h0 : Keeps z0 s) :
    Keeps z0 (State.reqRefused s) := by
  unfold State.reqRefused
  repeat' first
    | with_reducible assumption
    | (extract_lets +onlyGivenNames x; clear_value x)
    | with_reducible refine keeps_mk ?_

theorem keeps_armEntry {z0 : State} (s : State) (e : Nat) (p : Nat) (t : Nat) (h0 : Keeps z0 s) :
    KeepsP z0 (State.armEntry s e p t) := by
  unfold State.armEntry
  repeat' first
    | with_reducible assumption
    | (extract_lets +onlyGivenNames x; refine keeps_step (a := z0) (s := x) ?_ (fun hx => ?_); subst x; rotate_left; clear_value x; rotate_left)
    | (extract_lets +onlyGivenNames x; clear_value x)
    | with_reducible apply keeps_setEntry
    | with_reducible apply keeps_beginArming
    | with_reducible apply keeps_reqRefused
    | split
    | with_reducible apply keepsP_mk
    | with_reducible refine keeps_mk ?_

theorem keeps_disableEntry {z0 : State} (s : State) (e : Nat) (t : Nat) (h0 : Keeps z0 s) :
    KeepsP z0 (State.disableEntry s e t) := by
  unfold State.disableEntry
  repeat' first
    | with_reducible assumption
    | (extract_lets +onlyGivenNames x; clear_value x)
    | (extract_lets +onlyGivenNames x; subst x)
    | with_reducible apply keeps_setEntry
    | with_reducible apply keeps_reqRefused
    | split
    | with_reducible apply keepsP_mk

theorem keeps_enableEntry {z0 : State} (s : State) (e : Nat) (t : Nat) (h0 : Keeps z0 s) :
    KeepsP z0 (State.enableEntry s e t) := by
  unfold State.enableEntry
  repeat' first
    | with_reducible assumption
    | (extract_lets +onlyGivenNames x; refine keeps_step (a := z0) (s := x) ?_ (fun hx => ?_); subst x; rotate_left; clear_value x; rotate_left)
    | (extract_lets +onlyGivenNames x; clear_value x)
    | with_reducible apply keeps_setEntry
    | with_reducible apply keeps_beginArming
    | with_reducible apply keeps_reqRefused
    | split
    | with_reducible apply keepsP_mk

theorem keeps_removeEntry {z0 : State} (s : State) (e : Nat) (t : Nat) (h0 : Keeps z0 s) :
    KeepsP z0 (State.removeEntry s e t) := by
  unfold State.removeEntry
  repeat' first
    | with_reducible assumption
    | (extract_lets +onlyGivenNames x; clear_value x)
    | (extract_lets +onlyGivenNames x; subst x)
    | with_reducible apply keeps_setEntry
    | with_reducible apply keeps_reqRefused
    | split
    | with_reducible apply keepsP_mk

theorem keeps_entryReady {z0 : State} (s : State) (e : Nat) (h0 : Keeps z0 s) :
    Keeps z0 (State.entryReady s e) := by
  unfold State.entryReady
  repeat' first
    | with_reducible assumption
    | (extract_lets +onlyGivenNames x; refine keeps_step (a := z0) (s := x) ?_ (fun hx => ?_); subst x; rotate_left; clear_value x; rotate_left)
    | (extract_lets +onlyGivenNames x; clear_value x)
    | with_reducible apply keeps_setEntry
    | with_reducible apply keeps_beginArming
    | split

theorem keeps_consumeTerm {z0 : State} (s : State) (t : Term) (h0 : Keeps z0 s) :
    Keeps z0 (State.consumeTerm s t) := by
  unfold State.consumeTerm
  repeat' first
    | with_reducible assumption
    | (extract_lets +onlyGivenNames x; clear_value x)
    | with_reducible apply keeps_bumpFlagP
    | split
    | with_reducible refine keeps_mk ?_

theorem keeps_select {z0 : State} (s : State) (r : Nat) (e : Nat) (h0 : Keeps z0 s) :
    Keeps z0 (State.select s r e) := by
  unfold State.select
  repeat' first
    | with_reducible assumption
    | (extract_lets +onlyGivenNames x; clear_value x)
    | with_reducible apply keeps_setRange

theorem keeps_takeEntry {z0 : State} (s : State) (served : List Nat) (e : Nat) (h0 : Keeps z0 s) :
    Keeps z0 (State.takeEntry s served e) := by
  unfold State.takeEntry
  repeat' first
    | with_reducible assumption
    | with_reducible intro _
    | with_reducible apply keeps_setEntry
    | with_reducible apply keeps_stampEntry
    | with_reducible apply keeps_beginArming
    | with_reducible apply keeps_consumeTerm
    | with_reducible apply keeps_select
    | with_reducible apply keeps_foldl
    | split
    | with_reducible refine keeps_mk ?_

theorem keeps_noteFailed {z0 : State} (s : State) (c : Nat) (h0 : Keeps z0 s) :
    Keeps z0 (State.noteFailed s c) := by
  unfold State.noteFailed
  repeat' first
    | with_reducible assumption
    | (extract_lets +onlyGivenNames x; clear_value x)
    | with_reducible apply keeps_setChan
    | split

theorem keeps_occupy {z0 : State} (s : State) (r : Nat) (t : Nat) (h0 : Keeps z0 s) :
    Keeps z0 (State.occupy s r t) := by
  unfold State.occupy
  repeat' first
    | with_reducible assumption
    | (extract_lets +onlyGivenNames x; refine keeps_step (a := z0) (s := x) ?_ (fun hx => ?_); subst x; rotate_left; clear_value x; rotate_left)
    | (extract_lets +onlyGivenNames x; clear_value x)
    | with_reducible apply keeps_clearFlags
    | split
    | with_reducible refine keeps_mk ?_

theorem keeps_selectionRound {z0 : State} (s : State) (sn : State) (served : List Nat) (h0 : Keeps z0 s) (h1 : Keeps z0 sn) :
    Keeps z0 (State.selectionRound s sn served) := by
  unfold State.selectionRound
  repeat' first
    | with_reducible assumption
    | with_reducible intro _
    | with_reducible apply keeps_select
    | with_reducible apply keeps_takeEntry
    | with_reducible apply keeps_noteFailed
    | with_reducible apply keeps_occupy
    | with_reducible apply keeps_foldl
    | split
    | with_reducible refine keeps_mk ?_

theorem keeps_endBeat {z0 : State} (s : State) (r : Nat) (h0 : Keeps z0 s) :
    Keeps z0 (State.endBeat s r) := by
  unfold State.endBeat
  repeat' first
    | with_reducible assumption
    | (extract_lets +onlyGivenNames x; refine keeps_step (a := z0) (s := x) ?_ (fun hx => ?_); subst x; rotate_left; clear_value x; rotate_left)
    | (extract_lets +onlyGivenNames x; clear_value x)
    | with_reducible apply keeps_setRange
    | with_reducible apply keeps_setEntry
    | split

theorem keeps_applyLeaving {z0 : State} (s : State) (served : List Nat) (h0 : Keeps z0 s) :
    Keeps z0 (State.applyLeaving s served) := by
  unfold State.applyLeaving
  repeat' first
    | with_reducible assumption
    | with_reducible intro _
    | (extract_lets +onlyGivenNames x; clear_value x)
    | with_reducible apply keeps_setEntry
    | with_reducible apply keeps_foldl
    | split

theorem keeps_judgeDeadlines {z0 : State} (s : State) (h0 : Keeps z0 s) :
    Keeps z0 (State.judgeDeadlines s) := by
  unfold State.judgeDeadlines
  repeat' first
    | with_reducible assumption
    | with_reducible intro _
    | (extract_lets +onlyGivenNames x; refine keeps_step (a := z0) (s := x) ?_ (fun hx => ?_); subst x; rotate_left; clear_value x; rotate_left)
    | (extract_lets +onlyGivenNames x; clear_value x)
    | with_reducible apply keeps_ownMsg
    | with_reducible apply keeps_setEntry
    | with_reducible apply keeps_foldl
    | with_reducible apply keeps_fst
    | split
    | with_reducible refine keeps_mk ?_

theorem keeps_sendStall {z0 : State} (s : State) (dst : Nat) (ty : Nat) (st : Nat) (epoch : Word) (rid : Word) (h0 : Keeps z0 s) :
    Keeps z0 (State.sendStall s dst ty st epoch rid) := by
  unfold State.sendStall
  repeat' first
    | with_reducible assumption
    | with_reducible apply keeps_sendOwn

theorem keeps_checkLeader {z0 : State} (s : State) (h0 : Keeps z0 s) :
    Keeps z0 (State.checkLeader s) := by
  unfold State.checkLeader
  repeat' first
    | with_reducible assumption
    | (extract_lets +onlyGivenNames x; clear_value x)
    | with_reducible apply keeps_log
    | split
    | with_reducible refine keeps_mk ?_

theorem keeps_enterStall {z0 : State} (s : State) (h0 : Keeps z0 s) :
    Keeps z0 (State.enterStall s) := by
  unfold State.enterStall
  repeat' first
    | with_reducible assumption
    | (extract_lets +onlyGivenNames x; refine keeps_step (a := z0) (s := x) ?_ (fun hx => ?_); subst x; rotate_left; clear_value x; rotate_left)
    | (extract_lets +onlyGivenNames x; clear_value x)
    | with_reducible apply keeps_sendStall
    | split
    | with_reducible refine keeps_mk ?_

theorem keeps_countStall {z0 : State} (s : State) (stallBeat : Bool) (h0 : Keeps z0 s) :
    Keeps z0 (State.countStall s stallBeat) := by
  unfold State.countStall
  repeat' first
    | with_reducible assumption
    | (extract_lets +onlyGivenNames x; refine keeps_step (a := z0) (s := x) ?_ (fun hx => ?_); subst x; rotate_left; clear_value x; rotate_left)
    | (extract_lets +onlyGivenNames x; clear_value x)
    | with_reducible apply keeps_enterStall
    | split
    | with_reducible refine keeps_mk ?_

theorem keeps_applyPolicy {z0 : State} (s : State) (epoch : Word) (h0 : Keeps z0 s) :
    Keeps z0 (State.applyPolicy s epoch) := by
  unfold State.applyPolicy
  repeat' first
    | with_reducible assumption
    | with_reducible intro _
    | (extract_lets +onlyGivenNames x; refine keeps_step (a := z0) (s := x) ?_ (fun hx => ?_); subst x; rotate_left; clear_value x; rotate_left)
    | with_reducible apply keeps_log
    | with_reducible apply keeps_decideAbort
    | with_reducible apply keeps_foldl
    | split

theorem keeps_closeEpoch {z0 : State} (s : State) (h0 : Keeps z0 s) :
    Keeps z0 (State.closeEpoch s) := by
  unfold State.closeEpoch
  repeat' first
    | with_reducible assumption
    | with_reducible intro _
    | (extract_lets +onlyGivenNames x; refine keeps_step (a := z0) (s := x) ?_ (fun hx => ?_); subst x; rotate_left; clear_value x; rotate_left)
    | (extract_lets +onlyGivenNames x; clear_value x)
    | with_reducible apply keeps_log
    | with_reducible apply keeps_sendStall
    | with_reducible apply keeps_applyPolicy
    | with_reducible apply keeps_foldl
    | split
    | with_reducible refine keeps_mk ?_

theorem keeps_openEpochNow {z0 : State} (s : State) (h0 : Keeps z0 s) :
    Keeps z0 (State.openEpochNow s) := by
  unfold State.openEpochNow
  repeat' first
    | with_reducible assumption
    | with_reducible intro _
    | (extract_lets +onlyGivenNames x; refine keeps_step (a := z0) (s := x) ?_ (fun hx => ?_); subst x; rotate_left; clear_value x; rotate_left)
    | (extract_lets +onlyGivenNames x; clear_value x)
    | with_reducible apply keeps_sendStall
    | with_reducible apply keeps_closeEpoch
    | with_reducible apply keeps_foldl
    | with_reducible refine keeps_mk ?_

/-! ### Machine/Damper.lean -/

theorem keeps_setSink {z0 : State} (s : State) (k : Nat) (x : Sink) (h0 : Keeps z0 s) :
    Keeps z0 (State.setSink s k x) := by
  unfold State.setSink
  repeat' first
    | with_reducible assumption
    | (extract_lets +onlyGivenNames x; clear_value x)
    | with_reducible refine keeps_mk ?_

theorem keeps_quiet {z0 : State} (s : State) (h : Nat) (g : Nat) (h0 : Keeps z0 s) :
    Keeps z0 (State.quiet s h g) := by
  unfold State.quiet
  repeat' first
    | with_reducible assumption
    | (extract_lets +onlyGivenNames x; clear_value x)
    | with_reducible apply keeps_setSink
    | split

theorem keeps_sinkFull {z0 : State} (s : State) (k : Nat) (g : Nat) (h0 : Keeps z0 s) :
    Keeps z0 (State.sinkFull s k g) := by
  unfold State.sinkFull
  repeat' first
    | with_reducible assumption
    | with_reducible apply keeps_setSink

theorem keeps_sinkGoal {z0 : State} (s : State) (k : Nat) (goal : Nat) (h0 : Keeps z0 s) :
    Keeps z0 (State.sinkGoal s k goal) := by
  unfold State.sinkGoal
  repeat' first
    | with_reducible assumption
    | (extract_lets +onlyGivenNames x; clear_value x)
    | with_reducible apply keeps_setSink

theorem keeps_sinksTo {z0 : State} (s : State) (q : Nat) (g : Nat) (h0 : Keeps z0 s) :
    Keeps z0 (State.sinksTo s q g) := by
  unfold State.sinksTo
  repeat' first
    | with_reducible assumption
    | with_reducible intro _
    | with_reducible apply keeps_sinkGoal
    | with_reducible apply keeps_foldl

theorem keeps_sinksRest {z0 : State} (s : State) (q : Nat) (h0 : Keeps z0 s) :
    Keeps z0 (State.sinksRest s q) := by
  unfold State.sinksRest
  repeat' first
    | with_reducible assumption
    | with_reducible intro _
    | with_reducible apply keeps_sinkGoal
    | with_reducible apply keeps_sinksTo
    | with_reducible apply keeps_foldl
    | split

theorem keeps_haltQuarter {z0 : State} (s : State) (q : Nat) (c : Nat) (h0 : Keeps z0 s) :
    Keeps z0 (State.haltQuarter s q c) := by
  unfold State.haltQuarter
  repeat' first
    | with_reducible assumption
    | with_reducible intro _
    | (extract_lets +onlyGivenNames x; refine keeps_step (a := z0) (s := x) ?_ (fun hx => ?_); subst x; rotate_left; clear_value x; rotate_left)
    | (extract_lets +onlyGivenNames x; refine keeps_stepF (a := z0) (f := x) ?_ (fun hf => ?_); intro _ _; subst x; rotate_left; clear_value x; rotate_left)
    | (extract_lets +onlyGivenNames x; refine keeps_stepF2 (a := z0) (f := x) ?_ (fun hf => ?_); intro _ _ _; subst x; rotate_left; clear_value x; rotate_left)
    | (extract_lets +onlyGivenNames x; clear_value x)
    | with_reducible apply keeps_setRange
    | with_reducible apply keeps_setGate
    | with_reducible apply keeps_enterSelfref
    | with_reducible apply keeps_sinksRest
    | with_reducible apply keeps_fst
    | with_reducible apply h0
    | with_reducible apply hf
    | with_reducible apply keeps_foldl
    | with_reducible apply keepsP_foldl
    | split
    | with_reducible apply keepsP_mk
    | (with_reducible refine keeps_of_pair ‹_ = (_, _)› ?_)
    | with_reducible refine keeps_mk ?_
    | with_reducible apply keeps_refl

theorem keeps_sendTelemetry {z0 : State} (s : State) (h0 : Keeps z0 s) :
    Keeps z0 (State.sendTelemetry s) := by
  unfold State.sendTelemetry
  repeat' first
    | with_reducible assumption
    | (extract_lets +onlyGivenNames x; clear_value x)
    | with_reducible apply keeps_sendOwn
    | split
    | with_reducible refine keeps_mk ?_

theorem keeps_beatEvents {z0 : State} (s : State) (h0 : Keeps z0 s) :
    Keeps z0 (State.beatEvents s) := by
  unfold State.beatEvents
  repeat' first
    | with_reducible assumption
    | with_reducible intro _
    | (extract_lets +onlyGivenNames x; refine keeps_step (a := z0) (s := x) ?_ (fun hx => ?_); subst x; rotate_left; clear_value x; rotate_left)
    | (extract_lets +onlyGivenNames x; clear_value x)
    | (extract_lets +onlyGivenNames x; subst x)
    | with_reducible apply keeps_log
    | with_reducible apply keeps_setStn
    | with_reducible apply keeps_foldl
    | split
    | with_reducible refine keeps_mk ?_

theorem keeps_requestSimmer {z0 : State} (s : State) (h0 : Keeps z0 s) :
    Keeps z0 (State.requestSimmer s) := by
  unfold State.requestSimmer
  repeat' first
    | with_reducible assumption
    | with_reducible intro _
    | with_reducible apply keeps_setGate
    | with_reducible apply keeps_sinksRest
    | with_reducible apply keeps_haltQuarter
    | with_reducible apply keeps_foldl
    | split
    | with_reducible refine keeps_mk ?_

theorem keeps_simmerIfDue {z0 : State} (s : State) (h0 : Keeps z0 s) :
    Keeps z0 (State.simmerIfDue s) := by
  unfold State.simmerIfDue
  repeat' first
    | with_reducible assumption
    | with_reducible apply keeps_requestSimmer
    | split

theorem keeps_beatTick {z0 : State} (s : State) (h0 : Keeps z0 s) :
    Keeps z0 (State.beatTick s) := by
  unfold State.beatTick
  repeat' first
    | with_reducible assumption
    | with_reducible intro _
    | with_reducible apply keeps_chApply
    | with_reducible apply keeps_judgeDeadlines
    | with_reducible apply keeps_checkLeader
    | with_reducible apply keeps_countStall
    | with_reducible apply keeps_sendTelemetry
    | with_reducible apply keeps_beatEvents
    | with_reducible apply keeps_simmerIfDue
    | with_reducible apply keeps_foldl
    | with_reducible refine keeps_mk ?_

end Sys2Proof.Machine
end

