-- ==== Sys2Proof/Laws/KeepsCycles.lean ====
section
/-! SUPPORT. Keeps for the definitions of Machine/: the passing of cycles, CSRs, movers, links and the transport. -/
namespace Sys2Proof.Machine
set_option linter.unusedVariables false
set_option linter.tactic.unusedName false

/-! ### Machine/Seq.lean -/

theorem keeps_sendTap {z0 : State} (s : State) (q : Nat) (c : Nat) (e : RPend) (bits : Nat) (h0 : Keeps z0 s) :
    Keeps z0 (State.sendTap s q c e bits) := by
  unfold State.sendTap
  repeat' first
    | with_reducible assumption
    | (extract_lets +onlyGivenNames x; clear_value x)
    | with_reducible apply keeps_setGate
    | with_reducible apply keeps_seqFault
    | with_reducible apply keeps_sendGate
    | split

theorem keeps_moveAt {z0 : State} (s : State) (q : Nat) (e : RPend) (g : Nat) (h0 : Keeps z0 s) :
    Keeps z0 (State.moveAt s q e g) := by
  unfold State.moveAt
  repeat' first
    | with_reducible assumption
    | (extract_lets +onlyGivenNames x; clear_value x)
    | with_reducible apply keeps_setRange
    | with_reducible apply keeps_seqFault
    | split

theorem keeps_groupAt {z0 : State} (s : State) (q : Nat) (e : RPend) (w : Nat) (ecc : List Nat) (h0 : Keeps z0 s) :
    Keeps z0 (State.groupAt s q e w ecc) := by
  unfold State.groupAt
  repeat' first
    | with_reducible assumption
    | with_reducible apply keeps_seqFault
    | with_reducible apply keeps_group
    | split
    | (with_reducible refine keeps_of_some ‹_ = some _› ?_)

theorem keeps_loutTap {z0 : State} (s : State) (q : Nat) (c : Nat) (e : RPend) (loop : Nat) (slot : Nat) (h0 : Keeps z0 s) :
    Keeps z0 (State.loutTap s q c e loop slot) := by
  unfold State.loutTap
  repeat' first
    | with_reducible assumption
    | (extract_lets +onlyGivenNames x; clear_value x)
    | with_reducible apply keeps_setRange
    | with_reducible apply keeps_seqFault
    | split

theorem keeps_winTap {z0 : State} (s : State) (q : Nat) (c : Nat) (loop : Nat) (slot : Nat) (h0 : Keeps z0 s) :
    Keeps z0 (State.winTap s q c loop slot) := by
  unfold State.winTap
  repeat' first
    | with_reducible assumption
    | with_reducible apply keeps_setRange

theorem keeps_rangeFx {z0 : State} (s : State) (q : Nat) (c : Nat) (e : RPend) (h0 : Keeps z0 s) :
    Keeps z0 (State.rangeFx s q c e) := by
  unfold State.rangeFx
  repeat' first
    | with_reducible assumption
    | with_reducible apply keeps_flagAdd
    | with_reducible apply keeps_sendTap
    | with_reducible apply keeps_moveAt
    | with_reducible apply keeps_groupAt
    | with_reducible apply keeps_loutTap
    | with_reducible apply keeps_winTap
    | split

theorem keeps_rangeEffects {z0 : State} (s : State) (q : Nat) (c : Nat) (h0 : Keeps z0 s) :
    Keeps z0 (State.rangeEffects s q c) := by
  unfold State.rangeEffects
  repeat' first
    | with_reducible assumption
    | with_reducible intro _
    | (extract_lets +onlyGivenNames x; refine keeps_step (a := z0) (s := x) ?_ (fun hx => ?_); subst x; rotate_left; clear_value x; rotate_left)
    | with_reducible apply keeps_setRange
    | with_reducible apply keeps_rangeFx
    | with_reducible apply keeps_foldl

theorem keeps_drain {z0 : State} (s : State) (q : Nat) (c : Nat) (h0 : Keeps z0 s) :
    Keeps z0 (State.drain s q c) := by
  unfold State.drain
  repeat' first
    | with_reducible assumption
    | with_reducible intro _
    | with_reducible apply keeps_setRange
    | with_reducible apply keeps_drainReads
    | with_reducible apply keeps_drainWrites
    | with_reducible apply keeps_playTo
    | with_reducible apply keeps_rangeEffects
    | with_reducible apply keeps_foldl

theorem keeps_startLocal {z0 : State} (s : State) (q : Nat) (c : Nat) (i : Nat) (h0 : Keeps z0 s) :
    Keeps z0 (State.startLocal s q c i) := by
  unfold State.startLocal
  repeat' first
    | with_reducible assumption
    | (extract_lets +onlyGivenNames x; clear_value x)
    | with_reducible apply keeps_setHob
    | with_reducible apply keeps_fault
    | with_reducible apply keeps_logFaults
    | split

theorem keeps_startBroadcast {z0 : State} (s : State) (q : Nat) (c : Nat) (i : Nat) (a : Nat) (bits : Nat) (h0 : Keeps z0 s) :
    Keeps z0 (State.startBroadcast s q c i a bits) := by
  unfold State.startBroadcast
  repeat' first
    | with_reducible assumption
    | (extract_lets +onlyGivenNames x; clear_value x)
    | with_reducible apply keeps_setHob
    | with_reducible apply keeps_logFaults

theorem keeps_reserveTaps {z0 : State} (s : State) (q : Nat) (c : Nat) (i : Nat) (h0 : Keeps z0 s) :
    Keeps z0 (State.reserveTaps s q c i) := by
  unfold State.reserveTaps
  repeat' first
    | with_reducible assumption
    | (extract_lets +onlyGivenNames x; clear_value x)
    | with_reducible apply keeps_setRange
    | split

theorem keeps_startHobs {z0 : State} (s : State) (q : Nat) (c : Nat) (h0 : Keeps z0 s) :
    Keeps z0 (State.startHobs s q c) := by
  unfold State.startHobs
  repeat' first
    | with_reducible assumption
    | with_reducible intro _
    | (extract_lets +onlyGivenNames x; refine keeps_step (a := z0) (s := x) ?_ (fun hx => ?_); subst x; rotate_left; clear_value x; rotate_left)
    | with_reducible apply keeps_setHob
    | with_reducible apply keeps_setRange
    | with_reducible apply keeps_logFaults
    | with_reducible apply keeps_startLocal
    | with_reducible apply keeps_startBroadcast
    | with_reducible apply keeps_reserveTaps
    | with_reducible apply keeps_foldl
    | split

theorem keeps_setNext {z0 : State} (s : State) (q : Nat) (res : CtlRes) (delay : Nat) (h0 : Keeps z0 s) :
    Keeps z0 (State.setNext s q res delay) := by
  unfold State.setNext
  repeat' first
    | with_reducible assumption
    | (extract_lets +onlyGivenNames x; refine keeps_step (a := z0) (s := x) ?_ (fun hx => ?_); subst x; rotate_left; clear_value x; rotate_left)
    | (extract_lets +onlyGivenNames x; clear_value x)
    | with_reducible apply keeps_setRange
    | with_reducible apply keeps_seqFault
    | split

theorem keeps_goOn {z0 : State} (s : State) (q : Nat) (delay : Nat) (h0 : Keeps z0 s) :
    Keeps z0 (State.goOn s q delay) := by
  unfold State.goOn
  repeat' first
    | with_reducible assumption
    | (extract_lets +onlyGivenNames x; clear_value x)
    | with_reducible apply keeps_setNext

theorem keeps_issueBundle {z0 : State} (s : State) (q : Nat) (a : Nat) (h0 : Keeps z0 s) :
    Keeps z0 (State.issueBundle s q a) := by
  unfold State.issueBundle
  repeat' first
    | with_reducible assumption
    | (extract_lets +onlyGivenNames x; refine keeps_step (a := z0) (s := x) ?_ (fun hx => ?_); subst x; rotate_left; clear_value x; rotate_left)
    | (extract_lets +onlyGivenNames x; clear_value x)
    | (extract_lets +onlyGivenNames x; subst x)
    | with_reducible apply keeps_setRange
    | with_reducible apply keeps_seqFault
    | with_reducible apply keeps_goOn
    | split

theorem keeps_issueNow {z0 : State} (s : State) (q : Nat) (h0 : Keeps z0 s) :
    Keeps z0 (State.issueNow s q) := by
  unfold State.issueNow
  repeat' first
    | with_reducible assumption
    | (extract_lets +onlyGivenNames x; refine keeps_step (a := z0) (s := x) ?_ (fun hx => ?_); subst x; rotate_left; clear_value x; rotate_left)
    | (extract_lets +onlyGivenNames x; clear_value x)
    | (extract_lets +onlyGivenNames x; subst x)
    | with_reducible apply keeps_setRange
    | with_reducible apply keeps_startHobs
    | with_reducible apply keeps_issueBundle
    | split

theorem keeps_openCycle {z0 : State} (s : State) (q : Nat) (c : Nat) (h0 : Keeps z0 s) :
    Keeps z0 (State.openCycle s q c) := by
  unfold State.openCycle
  repeat' first
    | with_reducible assumption
    | (extract_lets +onlyGivenNames x; refine keeps_step (a := z0) (s := x) ?_ (fun hx => ?_); subst x; rotate_left; clear_value x; rotate_left)
    | (extract_lets +onlyGivenNames x; clear_value x)
    | with_reducible apply keeps_setRange
    | with_reducible apply keeps_drain
    | with_reducible apply keeps_issueNow
    | split

theorem keeps_tickR {z0 : State} (s : State) (q : Nat) (i : Nat) (h0 : Keeps z0 s) :
    Keeps z0 (State.tickR s q i) := by
  unfold State.tickR
  repeat' first
    | with_reducible assumption
    | with_reducible apply keeps_setRange

theorem keeps_windowEnd {z0 : State} (s : State) (q : Nat) (h0 : Keeps z0 s) :
    Keeps z0 (State.windowEnd s q) := by
  unfold State.windowEnd
  repeat' first
    | with_reducible assumption
    | with_reducible intro _
    | (extract_lets +onlyGivenNames x; refine keeps_step (a := z0) (s := x) ?_ (fun hx => ?_); subst x; rotate_left; clear_value x; rotate_left)
    | (extract_lets +onlyGivenNames x; clear_value x)
    | with_reducible apply keeps_setHob
    | with_reducible apply keeps_setRange
    | with_reducible apply keeps_foldl

theorem keeps_afterPre {z0 : State} (s : State) (q : Nat) (h0 : Keeps z0 s) :
    Keeps z0 (State.afterPre s q) := by
  unfold State.afterPre
  repeat' first
    | with_reducible assumption
    | with_reducible apply keeps_issueNow
    | split

theorem keeps_doWindowEnd {z0 : State} (s : State) (q : Nat) (h0 : Keeps z0 s) :
    Keeps z0 (State.doWindowEnd s q) := by
  unfold State.doWindowEnd
  repeat' first
    | with_reducible assumption
    | with_reducible apply keeps_windowEnd
    | with_reducible apply keeps_afterPre
    | split

theorem keeps_doWaitEnd {z0 : State} (s : State) (q : Nat) (h0 : Keeps z0 s) :
    Keeps z0 (State.doWaitEnd s q) := by
  unfold State.doWaitEnd
  repeat' first
    | with_reducible assumption
    | with_reducible apply keeps_tickR
    | with_reducible apply keeps_afterPre
    | split

theorem keeps_settle {z0 : State} (s : State) (q : Nat) (h0 : Keeps z0 s) :
    Keeps z0 (State.settle s q) := by
  unfold State.settle
  repeat' first
    | with_reducible assumption
    | with_reducible apply keeps_doWindowEnd
    | with_reducible apply keeps_doWaitEnd

theorem keeps_doGroup {z0 : State} (s : State) (q : Nat) (ecc : List Nat) (h0 : Keeps z0 s) :
    Keeps z0 (State.doGroup s q ecc) := by
  unfold State.doGroup
  repeat' first
    | with_reducible assumption
    | with_reducible apply keeps_setRange

theorem keeps_doTap {z0 : State} (s : State) (q : Nat) (h0 : Keeps z0 s) :
    Keeps z0 (State.doTap s q) := by
  unfold State.doTap
  repeat' first
    | with_reducible assumption
    | (extract_lets +onlyGivenNames x; clear_value x)
    | with_reducible apply keeps_setRange

theorem keeps_doSend {z0 : State} (s : State) (q : Nat) (h0 : Keeps z0 s) :
    Keeps z0 (State.doSend s q) := by
  unfold State.doSend
  repeat' first
    | with_reducible assumption
    | (extract_lets +onlyGivenNames x; clear_value x)
    | with_reducible apply keeps_setRange

theorem keeps_doMove {z0 : State} (s : State) (q : Nat) (h0 : Keeps z0 s) :
    Keeps z0 (State.doMove s q) := by
  unfold State.doMove
  repeat' first
    | with_reducible assumption
    | (extract_lets +onlyGivenNames x; refine keeps_step (a := z0) (s := x) ?_ (fun hx => ?_); subst x; rotate_left; clear_value x; rotate_left)
    | (extract_lets +onlyGivenNames x; clear_value x)
    | with_reducible apply keeps_setRange
    | with_reducible apply keeps_seqFault
    | with_reducible apply keeps_tickR
    | split

theorem keeps_setQx {z0 : State} (s : State) (q : Nat) (v : Nat) (h0 : Keeps z0 s) :
    Keeps z0 (State.setQx s q v) := by
  unfold State.setQx
  repeat' first
    | with_reducible assumption
    | (extract_lets +onlyGivenNames x; clear_value x)
    | with_reducible apply keeps_setRange

theorem keeps_doQx {z0 : State} (s : State) (q : Nat) (h0 : Keeps z0 s) :
    Keeps z0 (State.doQx s q) := by
  unfold State.doQx
  repeat' first
    | with_reducible assumption
    | (extract_lets +onlyGivenNames x; clear_value x)
    | with_reducible apply keeps_goOn
    | with_reducible apply keeps_tickR
    | with_reducible apply keeps_setQx

theorem keeps_doCset {z0 : State} (s : State) (q : Nat) (h0 : Keeps z0 s) :
    Keeps z0 (State.doCset s q) := by
  unfold State.doCset
  repeat' first
    | with_reducible assumption
    | (extract_lets +onlyGivenNames x; refine keeps_step (a := z0) (s := x) ?_ (fun hx => ?_); subst x; rotate_left; clear_value x; rotate_left)
    | (extract_lets +onlyGivenNames x; clear_value x)
    | with_reducible apply keeps_setRange
    | with_reducible apply keeps_goOn

theorem keeps_doCtl {z0 : State} (s : State) (q : Nat) (op : CtlOp) (h0 : Keeps z0 s) :
    Keeps z0 (State.doCtl s q op) := by
  unfold State.doCtl
  repeat' first
    | with_reducible assumption
    | (extract_lets +onlyGivenNames x; clear_value x)
    | with_reducible apply keeps_setNext
    | with_reducible apply keeps_tickR

theorem keeps_doFlag {z0 : State} (s : State) (q : Nat) (h0 : Keeps z0 s) :
    Keeps z0 (State.doFlag s q) := by
  unfold State.doFlag
  repeat' first
    | with_reducible assumption
    | (extract_lets +onlyGivenNames x; clear_value x)
    | (extract_lets +onlyGivenNames x; subst x)
    | with_reducible apply keeps_setRange
    | with_reducible apply keeps_goOn

theorem keeps_doLocal {z0 : State} (s : State) (q : Nat) (h0 : Keeps z0 s) :
    Keeps z0 (State.doLocal s q) := by
  unfold State.doLocal
  repeat' first
    | with_reducible assumption
    | with_reducible intro _
    | (extract_lets +onlyGivenNames x; refine keeps_step (a := z0) (s := x) ?_ (fun hx => ?_); subst x; rotate_left; clear_value x; rotate_left)
    | (extract_lets +onlyGivenNames x; clear_value x)
    | with_reducible apply keeps_setHob
    | with_reducible apply keeps_setRange
    | with_reducible apply keeps_seqFault
    | with_reducible apply keeps_startHobs
    | with_reducible apply keeps_goOn
    | with_reducible apply keeps_tickR
    | with_reducible apply keeps_setQx
    | with_reducible apply keeps_foldl
    | split

theorem keeps_doBend {z0 : State} (s : State) (q : Nat) (h0 : Keeps z0 s) :
    Keeps z0 (State.doBend s q) := by
  unfold State.doBend
  repeat' first
    | with_reducible assumption
    | (extract_lets +onlyGivenNames x; clear_value x)
    | with_reducible apply keeps_setRange

theorem keeps_doWait {z0 : State} (s : State) (q : Nat) (h0 : Keeps z0 s) :
    Keeps z0 (State.doWait s q) := by
  unfold State.doWait
  repeat' first
    | with_reducible assumption
    | (extract_lets +onlyGivenNames x; clear_value x)
    | with_reducible apply keeps_goOn
    | with_reducible apply keeps_tickR
    | with_reducible apply keeps_setQx

theorem keeps_doOverrun {z0 : State} (s : State) (q : Nat) (h0 : Keeps z0 s) :
    Keeps z0 (State.doOverrun s q) := by
  unfold State.doOverrun
  repeat' first
    | with_reducible assumption
    | (extract_lets +onlyGivenNames x; clear_value x)
    | with_reducible apply keeps_setRange
    | with_reducible apply keeps_seqFault

theorem keeps_doQ {z0 : State} (s : State) (q : Nat) (h0 : Keeps z0 s) :
    Keeps z0 (State.doQ s q) := by
  unfold State.doQ
  repeat' first
    | with_reducible assumption
    | (extract_lets +onlyGivenNames x; clear_value x)
    | with_reducible apply keeps_tickR
    | with_reducible apply keeps_doQx
    | with_reducible apply keeps_doCset
    | with_reducible apply keeps_doCtl
    | with_reducible apply keeps_doFlag
    | with_reducible apply keeps_doLocal
    | with_reducible apply keeps_doBend
    | with_reducible apply keeps_doWait
    | split

theorem keeps_doLseq {z0 : State} (s : State) (q : Nat) (i : Nat) (h0 : Keeps z0 s) :
    Keeps z0 (State.doLseq s q i) := by
  unfold State.doLseq
  repeat' first
    | with_reducible assumption
    | (extract_lets +onlyGivenNames x; refine keeps_step (a := z0) (s := x) ?_ (fun hx => ?_); subst x; rotate_left; clear_value x; rotate_left)
    | (extract_lets +onlyGivenNames x; clear_value x)
    | with_reducible apply keeps_setHob
    | with_reducible apply keeps_fault
    | split

theorem keeps_doHobOp {z0 : State} (s : State) (q : Nat) (i : Nat) (k : Nat) (h0 : Keeps z0 s) :
    Keeps z0 (State.doHobOp s q i k) := by
  unfold State.doHobOp
  repeat' first
    | with_reducible assumption
    | (extract_lets +onlyGivenNames x; clear_value x)
    | with_reducible apply keeps_setHob
    | with_reducible apply keeps_doLseq
    | split

theorem keeps_finishHob {z0 : State} (s : State) (q : Nat) (i : Nat) (h0 : Keeps z0 s) :
    Keeps z0 (State.finishHob s q i) := by
  unfold State.finishHob
  repeat' first
    | with_reducible assumption
    | with_reducible intro _
    | (extract_lets +onlyGivenNames x; refine keeps_step (a := z0) (s := x) ?_ (fun hx => ?_); subst x; rotate_left; clear_value x; rotate_left)
    | (extract_lets +onlyGivenNames x; clear_value x)
    | with_reducible apply keeps_setHob
    | with_reducible apply keeps_doHobOp
    | with_reducible apply keeps_foldl

theorem keeps_ready {z0 : State} (s : State) (q : Nat) (h0 : Keeps z0 s) :
    Keeps z0 (State.ready s q) := by
  unfold State.ready
  repeat' first
    | with_reducible assumption
    | (extract_lets +onlyGivenNames x; refine keeps_step (a := z0) (s := x) ?_ (fun hx => ?_); subst x; rotate_left; clear_value x; rotate_left)
    | with_reducible apply keeps_settle
    | with_reducible apply keeps_doLocal
    | split

theorem keeps_finishCycle {z0 : State} (s : State) (q : Nat) (h0 : Keeps z0 s) :
    Keeps z0 (State.finishCycle s q) := by
  unfold State.finishCycle
  repeat' first
    | with_reducible assumption
    | with_reducible intro _
    | (extract_lets +onlyGivenNames x; refine keeps_step (a := z0) (s := x) ?_ (fun hx => ?_); subst x; rotate_left; clear_value x; rotate_left)
    | (extract_lets +onlyGivenNames x; clear_value x)
    | with_reducible apply keeps_doGroup
    | with_reducible apply keeps_doTap
    | with_reducible apply keeps_doSend
    | with_reducible apply keeps_doMove
    | with_reducible apply keeps_doOverrun
    | with_reducible apply keeps_doQ
    | with_reducible apply keeps_finishHob
    | with_reducible apply keeps_ready
    | with_reducible apply keeps_foldl
    | split

theorem keeps_pass {z0 : State} (s : State) (q : Nat) (x0 : Nat) (h0 : Keeps z0 s) :
    Keeps z0 (State.pass s q x0) := by
  induction x0 generalizing s q with
  | zero =>
   unfold State.pass
   repeat' first
    | with_reducible assumption
  | succ n ih =>
   unfold State.pass
   repeat' first
    | with_reducible assumption
    | with_reducible apply keeps_openCycle
    | with_reducible apply keeps_finishCycle
    | with_reducible apply ih

theorem keeps_passTo {z0 : State} (s : State) (q : Nat) (t : Nat) (h0 : Keeps z0 s) :
    Keeps z0 (State.passTo s q t) := by
  unfold State.passTo
  repeat' first
    | with_reducible assumption
    | (extract_lets +onlyGivenNames x; clear_value x)
    | with_reducible apply keeps_setRange
    | with_reducible apply keeps_playTo
    | with_reducible apply keeps_pass
    | split

theorem keeps_startBeat {z0 : State} (s : State) (q : Nat) (phase : Nat) (h0 : Keeps z0 s) :
    Keeps z0 (State.startBeat s q phase) := by
  unfold State.startBeat
  repeat' first
    | with_reducible assumption
    | with_reducible intro _
    | with_reducible apply keeps_setHob
    | with_reducible apply keeps_setRange
    | with_reducible apply keeps_setGate
    | with_reducible apply keeps_playTo
    | with_reducible apply keeps_idleRefresh
    | with_reducible apply keeps_quiet
    | with_reducible apply keeps_beatTick
    | with_reducible apply keeps_openCycle
    | with_reducible apply keeps_foldl
    | split
    | with_reducible refine keeps_mk ?_

theorem keeps_advance {z0 : State} (s : State) (q : Nat) (t : Nat) (h0 : Keeps z0 s) :
    KeepsO z0 (State.advance s q t) := by
  have h2 (b : Bool) (x y : State) (hx : Keeps z0 x) : KeepsO z0 (if b = true then none else some x) := by
    cases b
    · exact keepsO_some hx
    · exact keepsO_none
  have h3 (p : Prop) [Decidable p] (x : State) (hx : Keeps z0 x) : KeepsO z0 (if p then some x else none) := by
    by_cases h : p
    · rw [if_pos h]; exact keepsO_some hx
    · rw [if_neg h]; exact keepsO_none
  have h4 (p : Prop) [Decidable p] (a b : Option State) (ha : KeepsO z0 a) (hb : KeepsO z0 b) : KeepsO z0 (if p then a else b) := by
    by_cases h : p
    · rw [if_pos h]; exact ha
    · rw [if_neg h]; exact hb
  have hp := keeps_passTo s q t h0
  unfold State.advance
  extract_lets r b s1
  refine h4 _ _ _ keepsO_none (h4 _ _ _ (h3 _ _ hp) ?_)
  generalize s.seamCyc = S
  generalize s.beatLen = B
  have h1 : Keeps z0 s1 := keeps_startBeat _ _ _ h0
  clear_value b r s1
  cases r.phase
  · exact h3 _ _ hp
  · exact h3 _ _ hp
  · exact h4 _ _ _ (h3 _ _ (keeps_setRange _ _ _ (keeps_playTo _ _ _ h0))) (h2 _ _ s (keeps_passTo _ _ _ h1))

/-! ### Machine/Csr.lean -/

theorem keeps_lockedWrite {z0 : State} (s : State) (a : Nat) (h0 : Keeps z0 s) :
    Keeps z0 (State.lockedWrite s a) := by
  unfold State.lockedWrite
  repeat' first
    | with_reducible assumption
    | with_reducible apply keeps_log

theorem keeps_clearIntClass {z0 : State} (s : State) (v : Word) (same : Word) (h0 : Keeps z0 s) :
    Keeps z0 (State.clearIntClass s v same) := by
  unfold State.clearIntClass
  repeat' first
    | with_reducible assumption
    | (extract_lets +onlyGivenNames x; clear_value x)
    | with_reducible refine keeps_mk ?_

theorem keeps_clearIntSource {z0 : State} (s : State) (v : Word) (same : Word) (h0 : Keeps z0 s) :
    Keeps z0 (State.clearIntSource s v same) := by
  unfold State.clearIntSource
  repeat' first
    | with_reducible assumption
    | (extract_lets +onlyGivenNames x; clear_value x)
    | with_reducible refine keeps_mk ?_

theorem keeps_writeTag {z0 : State} (s : State) (v : Word) (h0 : Keeps z0 s) :
    Keeps z0 (State.writeTag s v) := by
  unfold State.writeTag
  repeat' first
    | with_reducible assumption
    | (extract_lets +onlyGivenNames x; clear_value x)
    | with_reducible apply keeps_lockedWrite
    | split
    | with_reducible refine keeps_mk ?_

theorem keeps_writeCursor {z0 : State} (s : State) (v : Word) (h0 : Keeps z0 s) :
    Keeps z0 (State.writeCursor s v) := by
  unfold State.writeCursor
  repeat' first
    | with_reducible assumption
    | (extract_lets +onlyGivenNames x; clear_value x)
    | split
    | with_reducible refine keeps_mk ?_

theorem keeps_csrWrite {z0 : State} (s : State) (a : Nat) (v : Word) (same : Word) (h0 : Keeps z0 s) :
    Keeps z0 (State.csrWrite s a v same) := by
  unfold State.csrWrite
  repeat' first
    | with_reducible assumption
    | (extract_lets +onlyGivenNames x; clear_value x)
    | with_reducible apply keeps_lockedWrite
    | with_reducible apply keeps_clearIntClass
    | with_reducible apply keeps_clearIntSource
    | with_reducible apply keeps_writeTag
    | with_reducible apply keeps_writeCursor
    | split
    | with_reducible refine keeps_mk ?_

theorem keeps_refuseCsr {z0 : State} (s : State) (status : Nat) (chip : Nat) (tenant : Nat) (a : Nat) (write : Bool) (h0 : Keeps z0 s) :
    Keeps z0 (State.refuseCsr s status chip tenant a write) := by
  unfold State.refuseCsr
  repeat' first
    | with_reducible assumption
    | (extract_lets +onlyGivenNames x; clear_value x)
    | with_reducible refine keeps_mk ?_

theorem keeps_csrWriteBytes {z0 : State} (s : State) (a : Nat) (b : Bytes) (h0 : Keeps z0 s) :
    Keeps z0 (State.csrWriteBytes s a b) := by
  unfold State.csrWriteBytes
  repeat' first
    | with_reducible assumption
    | with_reducible intro _
    | with_reducible apply keeps_csrWrite
    | with_reducible apply keeps_foldl

/-! ### Machine/Ether.lean -/

theorem keeps_setIface {z0 : State} (s : State) (i : Nat) (x : Iface) (h0 : Keeps z0 s) :
    Keeps z0 (State.setIface s i x) := by
  unfold State.setIface
  repeat' first
    | with_reducible assumption
    | (extract_lets +onlyGivenNames x; clear_value x)
    | with_reducible refine keeps_mk ?_

theorem keeps_ethSend {z0 : State} (s : State) (i : Nat) (b : Bytes) (h0 : Keeps z0 s) :
    Keeps z0 (State.ethSend s i b) := by
  unfold State.ethSend
  repeat' first
    | with_reducible assumption
    | (extract_lets +onlyGivenNames x; clear_value x)
    | with_reducible apply keeps_emit
    | with_reducible apply keeps_setIface
    | split

/-! ### Machine/Trans.lean -/

theorem keeps_setQp {z0 : State} (s : State) (n : Nat) (x : Qp) (h0 : Keeps z0 s) :
    Keeps z0 (State.setQp s n x) := by
  unfold State.setQp
  repeat' first
    | with_reducible assumption
    | (extract_lets +onlyGivenNames x; clear_value x)
    | with_reducible refine keeps_mk ?_

theorem keeps_setRegion {z0 : State} (s : State) (i : Nat) (x : Region) (h0 : Keeps z0 s) :
    Keeps z0 (State.setRegion s i x) := by
  unfold State.setRegion
  repeat' first
    | with_reducible assumption
    | (extract_lets +onlyGivenNames x; clear_value x)
    | with_reducible refine keeps_mk ?_

theorem keeps_dropTag {z0 : State} (s : State) (h0 : Keeps z0 s) :
    Keeps z0 (State.dropTag s) := by
  unfold State.dropTag
  repeat' first
    | with_reducible assumption
    | (extract_lets +onlyGivenNames x; clear_value x)
    | with_reducible refine keeps_mk ?_

theorem keeps_placeRaw {z0 : State} (s : State) (a : Nat) (b : Bytes) (h0 : Keeps z0 s) :
    Keeps z0 (State.placeRaw s a b) := by
  unfold State.placeRaw
  repeat' first
    | with_reducible assumption
    | with_reducible intro _
    | (extract_lets +onlyGivenNames x; refine keeps_step (a := z0) (s := x) ?_ (fun hx => ?_); subst x; rotate_left; clear_value x; rotate_left)
    | (extract_lets +onlyGivenNames x; clear_value x)
    | with_reducible apply keeps_ptabClean
    | with_reducible apply keeps_foldl
    | split
    | with_reducible refine keeps_mk ?_
    | with_reducible refine keeps_mkMem ?_ ?_
    | with_reducible exact writeBytes_wf (by assumption)

theorem keeps_setCnt {z0 : State} (s : State) (c : Nat) (v : Word) (h0 : Keeps z0 s) :
    Keeps z0 (State.setCnt s c v) := by
  unfold State.setCnt
  repeat' first
    | with_reducible assumption
    | (extract_lets +onlyGivenNames x; refine keeps_step (a := z0) (s := x) ?_ (fun hx => ?_); subst x; rotate_left; clear_value x; rotate_left)
    | (extract_lets +onlyGivenNames x; clear_value x)
    | with_reducible apply keeps_noteProgress
    | split
    | with_reducible refine keeps_mk ?_

theorem keeps_cntAdd {z0 : State} (s : State) (c : Nat) (d : Word) (h0 : Keeps z0 s) :
    Keeps z0 (State.cntAdd s c d) := by
  unfold State.cntAdd
  repeat' first
    | with_reducible assumption
    | with_reducible apply keeps_setCnt

theorem keeps_cqWrite {z0 : State} (s : State) (c : Nat) (tenant : Nat) (b : Bytes) (h0 : Keeps z0 s) :
    Keeps z0 (State.cqWrite s c tenant b) := by
  unfold State.cqWrite
  repeat' first
    | with_reducible assumption
    | (extract_lets +onlyGivenNames x; clear_value x)
    | with_reducible apply keeps_msgArrive
    | split
    | (with_reducible refine keeps_of_pair ‹_ = (_, _)› ?_)
    | with_reducible refine keeps_mk ?_

theorem keeps_wrComplete {z0 : State} (s : State) (qpn : Nat) (r : Bytes) (status : Nat) (len : Nat) (psn : Nat) (h0 : Keeps z0 s) :
    Keeps z0 (State.wrComplete s qpn r status len psn) := by
  unfold State.wrComplete
  repeat' first
    | with_reducible assumption
    | (extract_lets +onlyGivenNames x; refine keeps_step (a := z0) (s := x) ?_ (fun hx => ?_); subst x; rotate_left; clear_value x; rotate_left)
    | (extract_lets +onlyGivenNames x; clear_value x)
    | with_reducible apply keeps_noteProgress
    | with_reducible apply keeps_cntAdd
    | with_reducible apply keeps_cqWrite
    | split

theorem keeps_rvComplete {z0 : State} (s : State) (v : Recv) (status : Nat) (h0 : Keeps z0 s) :
    Keeps z0 (State.rvComplete s v status) := by
  unfold State.rvComplete
  repeat' first
    | with_reducible assumption
    | (extract_lets +onlyGivenNames x; refine keeps_step (a := z0) (s := x) ?_ (fun hx => ?_); subst x; rotate_left; clear_value x; rotate_left)
    | (extract_lets +onlyGivenNames x; clear_value x)
    | with_reducible apply keeps_noteProgress
    | with_reducible apply keeps_cntAdd
    | with_reducible apply keeps_cqWrite
    | split

theorem keeps_newOp {z0 : State} (s : State) (h0 : Keeps z0 s) :
    KeepsP z0 (State.newOp s) := by
  unfold State.newOp
  repeat' first
    | with_reducible assumption
    | (extract_lets +onlyGivenNames x; clear_value x)
    | with_reducible apply keepsP_mk
    | with_reducible refine keeps_mk ?_

theorem keeps_qpSend {z0 : State} (s : State) (qpn : Nat) (opc : Nat) (psn : Word) (ackreq : Bool) (first : Bool) (last : Bool) (ext : Bytes) (payload : Bytes) (h0 : Keeps z0 s) :
    Keeps z0 (State.qpSend s qpn opc psn ackreq first last ext payload) := by
  unfold State.qpSend
  repeat' first
    | with_reducible assumption
    | (extract_lets +onlyGivenNames x; clear_value x)
    | with_reducible apply keeps_ethSend

theorem keeps_sendAck {z0 : State} (s : State) (qpn : Nat) (code : Nat) (cpsn : Word) (h0 : Keeps z0 s) :
    Keeps z0 (State.sendAck s qpn code cpsn) := by
  unfold State.sendAck
  repeat' first
    | with_reducible assumption
    | (extract_lets +onlyGivenNames x; refine keeps_step (a := z0) (s := x) ?_ (fun hx => ?_); subst x; rotate_left; clear_value x; rotate_left)
    | (extract_lets +onlyGivenNames x; clear_value x)
    | with_reducible apply keeps_setQp
    | with_reducible apply keeps_qpSend
    | split
    | with_reducible refine keeps_mk ?_

theorem keeps_sendConnect {z0 : State} (s : State) (qpn : Nat) (opc : Nat) (h0 : Keeps z0 s) :
    Keeps z0 (State.sendConnect s qpn opc) := by
  unfold State.sendConnect
  repeat' first
    | with_reducible assumption
    | (extract_lets +onlyGivenNames x; clear_value x)
    | with_reducible apply keeps_qpSend

theorem keeps_sendPacketOf {z0 : State} (s : State) (qpn : Nat) (o : TOp) (j : Nat) (h0 : Keeps z0 s) :
    KeepsP z0 (State.sendPacketOf s qpn o j) := by
  unfold State.sendPacketOf
  repeat' first
    | with_reducible assumption
    | (extract_lets +onlyGivenNames x; clear_value x)
    | (extract_lets +onlyGivenNames x; subst x)
    | with_reducible apply keeps_qpSend
    | split
    | with_reducible apply keepsP_mk

theorem keeps_endOp {z0 : State} (s : State) (qpn : Nat) (id : Nat) (status : Nat) (h0 : Keeps z0 s) :
    Keeps z0 (State.endOp s qpn id status) := by
  unfold State.endOp
  repeat' first
    | with_reducible assumption
    | (extract_lets +onlyGivenNames x; refine keeps_step (a := z0) (s := x) ?_ (fun hx => ?_); subst x; rotate_left; clear_value x; rotate_left)
    | (extract_lets +onlyGivenNames x; clear_value x)
    | with_reducible apply keeps_setQp
    | with_reducible apply keeps_wrComplete
    | split

theorem keeps_opCut {z0 : State} (s : State) (qpn : Nat) (id : Nat) (code : Nat) (h0 : Keeps z0 s) :
    Keeps z0 (State.opCut s qpn id code) := by
  unfold State.opCut
  repeat' first
    | with_reducible assumption
    | with_reducible apply keeps_setQp
    | with_reducible apply keeps_endOp

theorem keeps_lateError {z0 : State} (s : State) (qpn : Nat) (o : TOp) (status : Nat) (psn : Word) (h0 : Keeps z0 s) :
    Keeps z0 (State.lateError s qpn o status psn) := by
  unfold State.lateError
  repeat' first
    | with_reducible assumption
    | (extract_lets +onlyGivenNames x; clear_value x)
    | with_reducible apply keeps_cqWrite
    | split

theorem keeps_qpError {z0 : State} (s : State) (qpn : Nat) (code : Nat) (h0 : Keeps z0 s) :
    Keeps z0 (State.qpError s qpn code) := by
  unfold State.qpError
  repeat' first
    | with_reducible assumption
    | with_reducible intro _
    | (extract_lets +onlyGivenNames x; refine keeps_step (a := z0) (s := x) ?_ (fun hx => ?_); subst x; rotate_left; clear_value x; rotate_left)
    | (extract_lets +onlyGivenNames x; clear_value x)
    | with_reducible apply keeps_log
    | with_reducible apply keeps_setQp
    | with_reducible apply keeps_wrComplete
    | with_reducible apply keeps_rvComplete
    | with_reducible apply keeps_endOp
    | with_reducible apply keeps_foldl
    | split
    | with_reducible refine keeps_mk ?_

theorem keeps_qpPoison {z0 : State} (s : State) (qpn : Nat) (id : Nat) (h0 : Keeps z0 s) :
    Keeps z0 (State.qpPoison s qpn id) := by
  unfold State.qpPoison
  repeat' first
    | with_reducible assumption
    | (extract_lets +onlyGivenNames x; clear_value x)
    | with_reducible apply keeps_consumePoison
    | with_reducible apply keeps_endOp
    | with_reducible apply keeps_qpError

theorem keeps_pump1 {z0 : State} (s : State) (qpn : Nat) (h0 : Keeps z0 s) :
    KeepsO z0 (State.pump1 s qpn) := by
  unfold State.pump1
  repeat' first
    | with_reducible assumption
    | (extract_lets +onlyGivenNames x; refine keeps_step (a := z0) (s := x) ?_ (fun hx => ?_); subst x; rotate_left; clear_value x; rotate_left)
    | (extract_lets +onlyGivenNames x; clear_value x)
    | with_reducible apply keeps_setQp
    | with_reducible apply keeps_sendPacketOf
    | with_reducible apply keeps_endOp
    | with_reducible apply keeps_opCut
    | with_reducible apply keeps_qpPoison
    | (with_reducible refine keeps_of_pair ‹_ = (_, _)› ?_)
    | (with_reducible show KeepsO _ _; first | split | with_reducible apply keepsO_some | with_reducible exact keepsO_none)

theorem keeps_pump {z0 : State} (s : State) (qpn : Nat) (x0 : Nat) (h0 : Keeps z0 s) :
    Keeps z0 (State.pump s qpn x0) := by
  induction x0 generalizing s qpn with
  | zero =>
   unfold State.pump
   repeat' first
    | with_reducible assumption
  | succ n ih =>
   unfold State.pump
   repeat' first
    | with_reducible assumption
    | with_reducible apply keeps_pump1
    | with_reducible apply ih
    | split
    | (with_reducible refine keeps_of_some ‹_ = some _› ?_)

theorem keeps_resendFrom {z0 : State} (s : State) (qpn : Nat) (p : Word) (x0 : Nat) (h0 : Keeps z0 s) :
    Keeps z0 (State.resendFrom s qpn p x0) := by
  induction x0 generalizing s qpn p with
  | zero =>
   unfold State.resendFrom
   repeat' first
     | with_reducible assumption
     | with_reducible intro _
     | (extract_lets +onlyGivenNames x; refine keeps_step (a := z0) (s := x) ?_ (fun hx => ?_); subst x; rotate_left; clear_value x; rotate_left)
     | (extract_lets +onlyGivenNames x; refine keeps_stepF (a := z0) (f := x) ?_ (fun hf => ?_); intro _ _; subst x; rotate_left; clear_value x; rotate_left)
     | (extract_lets +onlyGivenNames x; refine keeps_stepF2 (a := z0) (f := x) ?_ (fun hf => ?_); intro _ _ _; subst x; rotate_left; clear_value x; rotate_left)
     | (extract_lets +onlyGivenNames x; clear_value x)
     | with_reducible apply keeps_setQp
     | with_reducible apply keeps_sendPacketOf
     | with_reducible apply keeps_endOp
     | with_reducible apply keeps_opCut
     | with_reducible apply keeps_qpPoison
     | with_reducible apply keeps_fst
     | with_reducible apply ih
     | with_reducible apply h0
     | with_reducible apply hf
     | split
     | with_reducible apply keepsP_mk
     | (with_reducible refine keeps_of_pair ‹_ = (_, _)› ?_)
     | (with_reducible refine keeps_of_some ‹_ = some _› ?_)
     | (with_reducible refine keeps_of_someQ ‹_ = some (_, _)› ?_)
     | (with_reducible refine keeps_of_someR ‹_ = some (_, _)› ?_)
     | with_reducible refine keeps_mk ?_
     | with_reducible apply keeps_refl
  | succ n ih =>
   unfold State.resendFrom
   repeat' first
     | with_reducible assumption
     | with_reducible intro _
     | (extract_lets +onlyGivenNames x; refine keeps_step (a := z0) (s := x) ?_ (fun hx => ?_); subst x; rotate_left; clear_value x; rotate_left)
     | (extract_lets +onlyGivenNames x; refine keeps_stepF (a := z0) (f := x) ?_ (fun hf => ?_); intro _ _; subst x; rotate_left; clear_value x; rotate_left)
     | (extract_lets +onlyGivenNames x; refine keeps_stepF2 (a := z0) (f := x) ?_ (fun hf => ?_); intro _ _ _; subst x; rotate_left; clear_value x; rotate_left)
     | (extract_lets +onlyGivenNames x; clear_value x)
     | with_reducible apply keeps_setQp
     | with_reducible apply keeps_sendPacketOf
     | with_reducible apply keeps_endOp
     | with_reducible apply keeps_opCut
     | with_reducible apply keeps_qpPoison
     | with_reducible apply keeps_fst
     | with_reducible apply ih
     | with_reducible apply h0
     | with_reducible apply hf
     | split
     | with_reducible apply keepsP_mk
     | (with_reducible refine keeps_of_pair ‹_ = (_, _)› ?_)
     | (with_reducible refine keeps_of_some ‹_ = some _› ?_)
     | (with_reducible refine keeps_of_someQ ‹_ = some (_, _)› ?_)
     | (with_reducible refine keeps_of_someR ‹_ = some (_, _)› ?_)
     | with_reducible refine keeps_mk ?_
     | with_reducible apply keeps_refl

theorem keeps_resend {z0 : State} (s : State) (qpn : Nat) (p : Word) (h0 : Keeps z0 s) :
    Keeps z0 (State.resend s qpn p) := by
  unfold State.resend
  repeat' first
    | with_reducible assumption
    | with_reducible apply keeps_pump
    | with_reducible apply keeps_resendFrom

theorem keeps_resendGets {z0 : State} (s : State) (qpn : Nat) (h0 : Keeps z0 s) :
    Keeps z0 (State.resendGets s qpn) := by
  unfold State.resendGets
  repeat' first
    | with_reducible assumption
    | with_reducible intro _
    | with_reducible apply keeps_sendPacketOf
    | with_reducible apply keeps_fst
    | with_reducible apply keeps_foldl
    | with_reducible refine keeps_mk ?_

theorem keeps_popSq {z0 : State} (s : State) (qpn : Nat) (h0 : Keeps z0 s) :
    Keeps z0 (State.popSq s qpn) := by
  unfold State.popSq
  repeat' first
    | with_reducible assumption
    | (extract_lets +onlyGivenNames x; clear_value x)
    | with_reducible apply keeps_setQp

theorem keeps_takeNet {z0 : State} (s : State) (qpn : Nat) (h0 : Keeps z0 s) :
    Keeps z0 (State.takeNet s qpn) := by
  unfold State.takeNet
  repeat' first
    | with_reducible assumption
    | (extract_lets +onlyGivenNames x; refine keeps_step (a := z0) (s := x) ?_ (fun hx => ?_); subst x; rotate_left; clear_value x; rotate_left)
    | (extract_lets +onlyGivenNames x; clear_value x)
    | with_reducible apply keeps_setQp
    | with_reducible apply keeps_wrComplete
    | with_reducible apply keeps_newOp
    | with_reducible apply keeps_pump
    | with_reducible apply keeps_popSq
    | with_reducible apply keeps_fst
    | split

theorem keeps_startPrefetch {z0 : State} (s : State) (qpn : Nat) (r : Bytes) (h0 : Keeps z0 s) :
    Keeps z0 (State.startPrefetch s qpn r) := by
  unfold State.startPrefetch
  repeat' first
    | with_reducible assumption
    | (extract_lets +onlyGivenNames x; clear_value x)
    | with_reducible apply keeps_sendOwn
    | with_reducible apply keeps_setQp
    | with_reducible apply keeps_wrComplete
    | with_reducible apply keeps_newOp
    | with_reducible apply keeps_fst
    | split

theorem keeps_startRevoke {z0 : State} (s : State) (qpn : Nat) (r : Bytes) (h0 : Keeps z0 s) :
    Keeps z0 (State.startRevoke s qpn r) := by
  unfold State.startRevoke
  repeat' first
    | with_reducible assumption
    | (extract_lets +onlyGivenNames x; clear_value x)
    | with_reducible apply keeps_setQp
    | with_reducible apply keeps_setRegion
    | with_reducible apply keeps_wrComplete
    | with_reducible apply keeps_newOp
    | with_reducible apply keeps_fst
    | split

theorem keeps_runLocal {z0 : State} (s : State) (qpn : Nat) (r : Bytes) (h0 : Keeps z0 s) :
    Keeps z0 (State.runLocal s qpn r) := by
  unfold State.runLocal
  repeat' first
    | with_reducible assumption
    | with_reducible apply keeps_flagAddMarked
    | with_reducible apply keeps_armEntry
    | with_reducible apply keeps_setCnt
    | with_reducible apply keeps_cntAdd
    | with_reducible apply keeps_wrComplete
    | split
    | with_reducible apply keepsP_mk
    | (with_reducible refine keeps_of_pair ‹_ = (_, _)› ?_)

theorem keeps_fire {z0 : State} (s : State) (qpn : Nat) (r : Bytes) (h0 : Keeps z0 s) :
    Keeps z0 (State.fire s qpn r) := by
  unfold State.fire
  repeat' first
    | with_reducible assumption
    | (extract_lets +onlyGivenNames x; clear_value x)
    | with_reducible apply keeps_placeLine
    | with_reducible apply keeps_setQp
    | with_reducible apply keeps_wrComplete
    | with_reducible apply keeps_startPrefetch
    | with_reducible apply keeps_startRevoke
    | with_reducible apply keeps_runLocal
    | split

theorem keeps_runTriggers {z0 : State} (s : State) (x0 : Nat) (h0 : Keeps z0 s) :
    Keeps z0 (State.runTriggers s x0) := by
  induction x0 generalizing s with
  | zero =>
   unfold State.runTriggers
   repeat' first
    | with_reducible assumption
  | succ n ih =>
   unfold State.runTriggers
   repeat' first
    | with_reducible assumption
    | with_reducible intro _
    | with_reducible apply keeps_fire
    | with_reducible apply keeps_foldl
    | with_reducible apply ih
    | split
    | with_reducible refine keeps_mk ?_

theorem keeps_triggers {z0 : State} (s : State) (h0 : Keeps z0 s) :
    Keeps z0 (State.triggers s) := by
  unfold State.triggers
  repeat' first
    | with_reducible assumption
    | with_reducible apply keeps_runTriggers

theorem keeps_poolPlace {z0 : State} (s : State) (blocks : List Nat) (off : Nat) (b : Bytes) (h0 : Keeps z0 s) :
    Keeps z0 (State.poolPlace s blocks off b) := by
  unfold State.poolPlace
  repeat' first
    | with_reducible assumption
    | with_reducible intro _
    | (extract_lets +onlyGivenNames x; clear_value x)
    | with_reducible apply keeps_placeRaw
    | with_reducible apply keeps_foldl
    | split

theorem keeps_mapMatched {z0 : State} (s : State) (id : Nat) (f : Recv → Recv) (h0 : Keeps z0 s) :
    Keeps z0 (State.mapMatched s id f) := by
  unfold State.mapMatched
  repeat' first
    | with_reducible assumption
    | (extract_lets +onlyGivenNames x; clear_value x)
    | with_reducible refine keeps_mk ?_

theorem keeps_recvPlace {z0 : State} (s : State) (id : Nat) (off : Nat) (b : Bytes) (h0 : Keeps z0 s) :
    KeepsP z0 (State.recvPlace s id off b) := by
  unfold State.recvPlace
  repeat' first
    | with_reducible assumption
    | (extract_lets +onlyGivenNames x; clear_value x)
    | with_reducible apply keeps_placeRaw
    | with_reducible apply keeps_mapMatched
    | split
    | with_reducible apply keepsP_mk

theorem keeps_recvDone {z0 : State} (s : State) (id : Nat) (h0 : Keeps z0 s) :
    Keeps z0 (State.recvDone s id) := by
  unfold State.recvDone
  repeat' first
    | with_reducible assumption
    | with_reducible apply keeps_mapMatched

theorem keeps_poolDeliver {z0 : State} (s : State) (m : PoolMsg) (id : Nat) (h0 : Keeps z0 s) :
    Keeps z0 (State.poolDeliver s m id) := by
  unfold State.poolDeliver
  repeat' first
    | with_reducible assumption
    | (extract_lets +onlyGivenNames x; refine keeps_step (a := z0) (s := x) ?_ (fun hx => ?_); subst x; rotate_left; clear_value x; rotate_left)
    | (extract_lets +onlyGivenNames x; clear_value x)
    | with_reducible apply keeps_recvPlace
    | with_reducible apply keeps_recvDone
    | with_reducible apply keeps_fst
    | with_reducible refine keeps_mk ?_

theorem keeps_dropRx {z0 : State} (s : State) (qpn : Nat) (h0 : Keeps z0 s) :
    Keeps z0 (State.dropRx s qpn) := by
  unfold State.dropRx
  repeat' first
    | with_reducible assumption
    | with_reducible intro _
    | (extract_lets +onlyGivenNames x; refine keeps_step (a := z0) (s := x) ?_ (fun hx => ?_); subst x; rotate_left; clear_value x; rotate_left)
    | (extract_lets +onlyGivenNames x; refine keeps_stepF (a := z0) (f := x) ?_ (fun hf => ?_); intro _ _; subst x; rotate_left; clear_value x; rotate_left)
    | (extract_lets +onlyGivenNames x; refine keeps_stepF2 (a := z0) (f := x) ?_ (fun hf => ?_); intro _ _ _; subst x; rotate_left; clear_value x; rotate_left)
    | (extract_lets +onlyGivenNames x; clear_value x)
    | with_reducible apply keeps_fst
    | with_reducible apply h0
    | with_reducible apply hf
    | split
    | with_reducible apply keepsP_mk
    | (with_reducible refine keeps_of_pair ‹_ = (_, _)› ?_)
    | (with_reducible refine keeps_of_some ‹_ = some _› ?_)
    | (with_reducible refine keeps_of_someQ ‹_ = some (_, _)› ?_)
    | (with_reducible refine keeps_of_someR ‹_ = some (_, _)› ?_)
    | with_reducible refine keeps_mk ?_
    | with_reducible apply keeps_refl

theorem keeps_sendFirst {z0 : State} (s : State) (qpn : Nat) (tag : Nat) (mlen : Nat) (psn : Word) (h0 : Keeps z0 s) :
    KeepsR z0 (State.sendFirst s qpn tag mlen psn) := by
  unfold State.sendFirst
  repeat' first
    | with_reducible assumption
    | (extract_lets +onlyGivenNames x; clear_value x)
    | (with_reducible show KeepsR _ _; first | split | with_reducible apply keepsR_some | with_reducible exact keepsR_none)
    | with_reducible refine keeps_mk ?_

theorem keeps_sendPlace {z0 : State} (s : State) (qpn : Nat) (mlen : Nat) (off : Nat) (last : Bool) (b : Bytes) (h0 : Keeps z0 s) :
    Keeps z0 (State.sendPlace s qpn mlen off last b) := by
  unfold State.sendPlace
  repeat' first
    | with_reducible assumption
    | with_reducible apply keeps_setQp
    | with_reducible apply keeps_placeRaw
    | with_reducible apply keeps_poolPlace
    | with_reducible apply keeps_recvPlace
    | with_reducible apply keeps_recvDone
    | with_reducible apply keeps_poolDeliver
    | with_reducible apply keeps_fst
    | split
    | with_reducible refine keeps_mk ?_

theorem keeps_addRecv {z0 : State} (s : State) (qpn : Nat) (r : Bytes) (h0 : Keeps z0 s) :
    Keeps z0 (State.addRecv s qpn r) := by
  unfold State.addRecv
  repeat' first
    | with_reducible assumption
    | (extract_lets +onlyGivenNames x; refine keeps_step (a := z0) (s := x) ?_ (fun hx => ?_); subst x; rotate_left; clear_value x; rotate_left)
    | (extract_lets +onlyGivenNames x; clear_value x)
    | with_reducible apply keeps_poolDeliver
    | split
    | with_reducible refine keeps_mk ?_

/-! ### Machine/TransRx.lean -/

theorem keeps_advanced {z0 : State} (s : State) (p : BfPkt) (n : Nat) (h0 : Keeps z0 s) :
    Keeps z0 (State.advanced s p n) := by
  unfold State.advanced
  repeat' first
    | with_reducible assumption
    | with_reducible apply keeps_setQp

theorem keeps_accepted {z0 : State} (s : State) (p : BfPkt) (n : Nat) (h0 : Keeps z0 s) :
    Keeps z0 (State.accepted s p n) := by
  unfold State.accepted
  repeat' first
    | with_reducible assumption
    | with_reducible intro _
    | (extract_lets +onlyGivenNames x; refine keeps_step (a := z0) (s := x) ?_ (fun hx => ?_); subst x; rotate_left; clear_value x; rotate_left)
    | (extract_lets +onlyGivenNames x; clear_value x)
    | with_reducible apply keeps_sendAck
    | with_reducible apply keeps_advanced
    | with_reducible apply keeps_fst
    | with_reducible apply h0
    | with_reducible apply hf
    | split
    | with_reducible apply keepsP_mk
    | (with_reducible refine keeps_of_pair ‹_ = (_, _)› ?_)
    | with_reducible refine keeps_mk ?_
    | with_reducible apply keeps_refl

theorem keeps_abortedAnswer {z0 : State} (s : State) (p : BfPkt) (h0 : Keeps z0 s) :
    Keeps z0 (State.abortedAnswer s p) := by
  unfold State.abortedAnswer
  repeat' first
    | with_reducible assumption
    | with_reducible apply keeps_sendAck
    | with_reducible apply keeps_advanced
    | split

theorem keeps_takePacket {z0 : State} (s : State) (p : BfPkt) (k : State → State) (h0 : Keeps z0 s) (h1 : ∀ (y0 : State), Keeps z0 y0 → Keeps z0 (k y0)) :
    Keeps z0 (State.takePacket s p k) := by
  unfold State.takePacket
  repeat' first
    | with_reducible assumption
    | with_reducible apply keeps_dropTag
    | with_reducible apply keeps_abortedAnswer
    | with_reducible apply h1
    | split

theorem keeps_sequenced {z0 : State} (s : State) (p : BfPkt) (k : State → State) (dup : State → State) (h0 : Keeps z0 s) (h1 : ∀ (y0 : State), Keeps z0 y0 → Keeps z0 (k y0)) (h2 : ∀ (y0 : State), Keeps z0 y0 → Keeps z0 (dup y0)) :
    Keeps z0 (State.sequenced s p k dup) := by
  unfold State.sequenced
  repeat' first
    | with_reducible assumption
    | (extract_lets +onlyGivenNames x; refine keeps_step (a := z0) (s := x) ?_ (fun hx => ?_); subst x; rotate_left; clear_value x; rotate_left)
    | (extract_lets +onlyGivenNames x; clear_value x)
    | with_reducible apply keeps_setQp
    | with_reducible apply keeps_dropTag
    | with_reducible apply keeps_sendAck
    | with_reducible apply h1
    | with_reducible apply h2
    | split

theorem keeps_dupAck {z0 : State} (s : State) (p : BfPkt) (h0 : Keeps z0 s) :
    Keeps z0 (State.dupAck s p) := by
  unfold State.dupAck
  repeat' first
    | with_reducible assumption
    | with_reducible apply keeps_sendAck

theorem keeps_rxSend {z0 : State} (s : State) (p : BfPkt) (h0 : Keeps z0 s) :
    Keeps z0 (State.rxSend s p) := by
  unfold State.rxSend
  repeat' first
    | with_reducible assumption
    | with_reducible intro _
    | (extract_lets +onlyGivenNames x; refine keeps_step (a := z0) (s := x) ?_ (fun hx => ?_); subst x; rotate_left; clear_value x; rotate_left)
    | (extract_lets +onlyGivenNames x; refine keeps_stepF (a := z0) (f := x) ?_ (fun hf => ?_); intro _ _; subst x; rotate_left; clear_value x; rotate_left)
    | (extract_lets +onlyGivenNames x; refine keeps_stepF2 (a := z0) (f := x) ?_ (fun hf => ?_); intro _ _ _; subst x; rotate_left; clear_value x; rotate_left)
    | (extract_lets +onlyGivenNames x; clear_value x)
    | with_reducible apply keeps_setQp
    | with_reducible apply keeps_sendAck
    | with_reducible apply keeps_dropRx
    | with_reducible apply keeps_sendFirst
    | with_reducible apply keeps_sendPlace
    | with_reducible apply keeps_accepted
    | with_reducible apply keeps_takePacket
    | with_reducible apply keeps_sequenced
    | with_reducible apply keeps_dupAck
    | with_reducible apply keeps_fst
    | with_reducible apply h0
    | with_reducible apply hf
    | split
    | with_reducible apply keepsP_mk
    | (with_reducible refine keeps_of_pair ‹_ = (_, _)› ?_)
    | (with_reducible refine keeps_of_some ‹_ = some _› ?_)
    | (with_reducible refine keeps_of_someQ ‹_ = some (_, _)› ?_)
    | (with_reducible refine keeps_of_someR ‹_ = some (_, _)› ?_)
    | with_reducible refine keeps_mk ?_
    | with_reducible apply keeps_refl

theorem keeps_rxPut {z0 : State} (s : State) (p : BfPkt) (h0 : Keeps z0 s) :
    Keeps z0 (State.rxPut s p) := by
  unfold State.rxPut
  repeat' first
    | with_reducible assumption
    | with_reducible intro _
    | (extract_lets +onlyGivenNames x; refine keeps_step (a := z0) (s := x) ?_ (fun hx => ?_); subst x; rotate_left; clear_value x; rotate_left)
    | with_reducible apply keeps_placeRaw
    | with_reducible apply keeps_cntAdd
    | with_reducible apply keeps_sendAck
    | with_reducible apply keeps_takePacket
    | with_reducible apply keeps_accepted
    | with_reducible apply keeps_sequenced
    | with_reducible apply keeps_dupAck
    | split

theorem keeps_getResponse {z0 : State} (s : State) (qpn : Nat) (psn : Word) (a : Nat) (len : Nat) (j : Nat) (x0 : Nat) (h0 : Keeps z0 s) :
    Keeps z0 (State.getResponse s qpn psn a len j x0) := by
  induction x0 generalizing s qpn psn a len j with
  | zero =>
   unfold State.getResponse
   repeat' first
    | with_reducible assumption
  | succ n ih =>
   unfold State.getResponse
   repeat' first
    | with_reducible assumption
    | (extract_lets +onlyGivenNames x; clear_value x)
    | with_reducible apply keeps_consumePoison
    | with_reducible apply keeps_qpSend
    | with_reducible apply keeps_sendAck
    | with_reducible apply keeps_qpError
    | with_reducible apply ih
    | split

theorem keeps_rxGet {z0 : State} (s : State) (p : BfPkt) (h0 : Keeps z0 s) :
    Keeps z0 (State.rxGet s p) := by
  unfold State.rxGet
  repeat' first
    | with_reducible assumption
    | with_reducible intro _
    | with_reducible apply keeps_sendAck
    | with_reducible apply keeps_advanced
    | with_reducible apply keeps_accepted
    | with_reducible apply keeps_takePacket
    | with_reducible apply keeps_sequenced
    | with_reducible apply keeps_dupAck
    | with_reducible apply keeps_getResponse
    | with_reducible apply hf
    | split

theorem keeps_rxGetrsp {z0 : State} (s : State) (p : BfPkt) (h0 : Keeps z0 s) :
    Keeps z0 (State.rxGetrsp s p) := by
  unfold State.rxGetrsp
  repeat' first
    | with_reducible assumption
    | with_reducible intro _
    | (extract_lets +onlyGivenNames x; refine keeps_step (a := z0) (s := x) ?_ (fun hx => ?_); subst x; rotate_left; clear_value x; rotate_left)
    | (extract_lets +onlyGivenNames x; clear_value x)
    | with_reducible apply keeps_setQp
    | with_reducible apply keeps_placeRaw
    | with_reducible apply keeps_endOp
    | with_reducible apply keeps_opCut
    | with_reducible apply keeps_pump
    | with_reducible apply keeps_takePacket
    | split

theorem keeps_rxFlush {z0 : State} (s : State) (p : BfPkt) (h0 : Keeps z0 s) :
    Keeps z0 (State.rxFlush s p) := by
  unfold State.rxFlush
  repeat' first
    | with_reducible assumption
    | with_reducible intro _
    | with_reducible apply keeps_takePacket
    | with_reducible apply keeps_accepted
    | with_reducible apply keeps_sequenced
    | with_reducible apply keeps_dupAck

theorem keeps_chpost {z0 : State} (s : State) (p : BfPkt) (h0 : Keeps z0 s) :
    KeepsP z0 (State.chpost s p) := by
  unfold State.chpost
  repeat' first
    | with_reducible assumption
    | (extract_lets +onlyGivenNames x; clear_value x)
    | with_reducible apply keeps_msgArrive
    | with_reducible apply keeps_contribArrive
    | split
    | with_reducible apply keepsP_mk

theorem keeps_rxChpost {z0 : State} (s : State) (p : BfPkt) (h0 : Keeps z0 s) :
    Keeps z0 (State.rxChpost s p) := by
  unfold State.rxChpost
  repeat' first
    | with_reducible assumption
    | with_reducible intro _
    | with_reducible apply keeps_sendAck
    | with_reducible apply keeps_advanced
    | with_reducible apply keeps_takePacket
    | with_reducible apply keeps_sequenced
    | with_reducible apply keeps_dupAck
    | with_reducible apply keeps_chpost
    | with_reducible apply keeps_fst

theorem keeps_ackUpTo {z0 : State} (s : State) (qpn : Nat) (a : Word) (h0 : Keeps z0 s) :
    Keeps z0 (State.ackUpTo s qpn a) := by
  unfold State.ackUpTo
  repeat' first
    | with_reducible assumption
    | with_reducible intro _
    | (extract_lets +onlyGivenNames x; refine keeps_step (a := z0) (s := x) ?_ (fun hx => ?_); subst x; rotate_left; clear_value x; rotate_left)
    | (extract_lets +onlyGivenNames x; clear_value x)
    | with_reducible apply keeps_setQp
    | with_reducible apply keeps_endOp
    | with_reducible apply keeps_foldl

theorem keeps_opRefused {z0 : State} (s : State) (qpn : Nat) (o : TOp) (code : Nat) (h0 : Keeps z0 s) :
    Keeps z0 (State.opRefused s qpn o code) := by
  unfold State.opRefused
  repeat' first
    | with_reducible assumption
    | (extract_lets +onlyGivenNames x; refine keeps_step (a := z0) (s := x) ?_ (fun hx => ?_); subst x; rotate_left; clear_value x; rotate_left)
    | with_reducible apply keeps_setQp
    | with_reducible apply keeps_endOp
    | with_reducible apply keeps_qpError
    | split

theorem keeps_nakRnr {z0 : State} (s : State) (qpn : Nat) (c : Word) (h0 : Keeps z0 s) :
    Keeps z0 (State.nakRnr s qpn c) := by
  unfold State.nakRnr
  repeat' first
    | with_reducible assumption
    | (extract_lets +onlyGivenNames x; clear_value x)
    | with_reducible apply keeps_setQp
    | with_reducible apply keeps_qpError
    | split

theorem keeps_endByCode {z0 : State} (s : State) (qpn : Nat) (op : Option TOp) (code : Nat) (c : Word) (h0 : Keeps z0 s) :
    Keeps z0 (State.endByCode s qpn op code c) := by
  unfold State.endByCode
  repeat' first
    | with_reducible assumption
    | with_reducible apply keeps_endOp
    | with_reducible apply keeps_lateError
    | with_reducible apply keeps_opRefused
    | split

theorem keeps_rxAck {z0 : State} (s : State) (p : BfPkt) (h0 : Keeps z0 s) :
    Keeps z0 (State.rxAck s p) := by
  unfold State.rxAck
  repeat' first
    | with_reducible assumption
    | with_reducible intro _
    | (extract_lets +onlyGivenNames x; refine keeps_step (a := z0) (s := x) ?_ (fun hx => ?_); subst x; rotate_left; clear_value x; rotate_left)
    | (extract_lets +onlyGivenNames x; refine keeps_stepF (a := z0) (f := x) ?_ (fun hf => ?_); intro _ _; subst x; rotate_left; clear_value x; rotate_left)
    | (extract_lets +onlyGivenNames x; clear_value x)
    | with_reducible apply keeps_dropTag
    | with_reducible apply keeps_qpError
    | with_reducible apply keeps_pump
    | with_reducible apply keeps_resend
    | with_reducible apply keeps_takePacket
    | with_reducible apply keeps_ackUpTo
    | with_reducible apply keeps_nakRnr
    | with_reducible apply keeps_endByCode
    | with_reducible apply hf
    | split

theorem keeps_sendOn0 {z0 : State} (s : State) (tag : Nat) (b : Bytes) (h0 : Keeps z0 s) :
    Keeps z0 (State.sendOn0 s tag b) := by
  unfold State.sendOn0
  repeat' first
    | with_reducible assumption
    | (extract_lets +onlyGivenNames x; clear_value x)
    | with_reducible apply keeps_setQp
    | with_reducible apply keeps_newOp
    | with_reducible apply keeps_pump
    | with_reducible apply keeps_fst
    | split

theorem keeps_openSession {z0 : State} (s : State) (h0 : Keeps z0 s) :
    Keeps z0 (State.openSession s) := by
  unfold State.openSession
  repeat' first
    | with_reducible assumption
    | (extract_lets +onlyGivenNames x; refine keeps_step (a := z0) (s := x) ?_ (fun hx => ?_); subst x; rotate_left; clear_value x; rotate_left)
    | (extract_lets +onlyGivenNames x; clear_value x)
    | with_reducible apply keeps_sendOn0
    | with_reducible refine keeps_mk ?_

theorem keeps_rxConnect {z0 : State} (s : State) (p : BfPkt) (h0 : Keeps z0 s) :
    Keeps z0 (State.rxConnect s p) := by
  unfold State.rxConnect
  repeat' first
    | with_reducible assumption
    | with_reducible intro _
    | (extract_lets +onlyGivenNames x; refine keeps_step (a := z0) (s := x) ?_ (fun hx => ?_); subst x; rotate_left; clear_value x; rotate_left)
    | (extract_lets +onlyGivenNames x; clear_value x)
    | with_reducible apply keeps_setQp
    | with_reducible apply keeps_sendConnect
    | with_reducible apply keeps_pump
    | with_reducible apply keeps_takePacket
    | split

theorem keeps_rxAccept {z0 : State} (s : State) (p : BfPkt) (h0 : Keeps z0 s) :
    Keeps z0 (State.rxAccept s p) := by
  unfold State.rxAccept
  repeat' first
    | with_reducible assumption
    | with_reducible intro _
    | (extract_lets +onlyGivenNames x; refine keeps_step (a := z0) (s := x) ?_ (fun hx => ?_); subst x; rotate_left; clear_value x; rotate_left)
    | (extract_lets +onlyGivenNames x; clear_value x)
    | with_reducible apply keeps_setQp
    | with_reducible apply keeps_pump
    | with_reducible apply keeps_takePacket
    | with_reducible apply keeps_openSession
    | split

theorem keeps_rtoExpire {z0 : State} (s : State) (qpn : Nat) (h0 : Keeps z0 s) :
    Keeps z0 (State.rtoExpire s qpn) := by
  unfold State.rtoExpire
  repeat' first
    | with_reducible assumption
    | with_reducible intro _
    | (extract_lets +onlyGivenNames x; refine keeps_step (a := z0) (s := x) ?_ (fun hx => ?_); subst x; rotate_left; clear_value x; rotate_left)
    | (extract_lets +onlyGivenNames x; clear_value x)
    | with_reducible apply keeps_setQp
    | with_reducible apply keeps_sendConnect
    | with_reducible apply keeps_qpError
    | with_reducible apply keeps_resend
    | with_reducible apply keeps_resendGets
    | with_reducible apply keeps_fst
    | with_reducible apply h0
    | with_reducible apply hf
    | split
    | with_reducible apply keepsP_mk
    | (with_reducible refine keeps_of_pair ‹_ = (_, _)› ?_)
    | with_reducible refine keeps_mk ?_
    | with_reducible apply keeps_refl

theorem keeps_rnrExpire {z0 : State} (s : State) (qpn : Nat) (h0 : Keeps z0 s) :
    Keeps z0 (State.rnrExpire s qpn) := by
  unfold State.rnrExpire
  repeat' first
    | with_reducible assumption
    | (extract_lets +onlyGivenNames x; clear_value x)
    | with_reducible apply keeps_setQp
    | with_reducible apply keeps_resend
    | split

theorem keeps_postSend {z0 : State} (s : State) (n : Nat) (b : Bytes) (h0 : Keeps z0 s) :
    Keeps z0 (State.postSend s n b) := by
  unfold State.postSend
  repeat' first
    | with_reducible assumption
    | (extract_lets +onlyGivenNames x; clear_value x)
    | with_reducible apply keeps_placeLine
    | with_reducible apply keeps_setQp
    | with_reducible apply keeps_wrComplete
    | split

theorem keeps_postRecv {z0 : State} (s : State) (n : Nat) (b : Bytes) (h0 : Keeps z0 s) :
    Keeps z0 (State.postRecv s n b) := by
  unfold State.postRecv
  repeat' first
    | with_reducible assumption
    | with_reducible apply keeps_rvComplete
    | with_reducible apply keeps_addRecv
    | split

theorem keeps_postTrig {z0 : State} (s : State) (n : Nat) (b : Bytes) (h0 : Keeps z0 s) :
    Keeps z0 (State.postTrig s n b) := by
  unfold State.postTrig
  repeat' first
    | with_reducible assumption
    | (extract_lets +onlyGivenNames x; clear_value x)
    | with_reducible apply keeps_wrComplete
    | split
    | with_reducible refine keeps_mk ?_

theorem keeps_recvComplete {z0 : State} (s : State) (id : Nat) (h0 : Keeps z0 s) :
    Keeps z0 (State.recvComplete s id) := by
  unfold State.recvComplete
  repeat' first
    | with_reducible assumption
    | (extract_lets +onlyGivenNames x; refine keeps_step (a := z0) (s := x) ?_ (fun hx => ?_); subst x; rotate_left; clear_value x; rotate_left)
    | (extract_lets +onlyGivenNames x; clear_value x)
    | with_reducible apply keeps_rvComplete
    | split
    | with_reducible refine keeps_mk ?_

theorem keeps_regionClosed {z0 : State} (s : State) (i : Nat) (h0 : Keeps z0 s) :
    Keeps z0 (State.regionClosed s i) := by
  unfold State.regionClosed
  repeat' first
    | with_reducible assumption
    | with_reducible intro _
    | (extract_lets +onlyGivenNames x; refine keeps_step (a := z0) (s := x) ?_ (fun hx => ?_); subst x; rotate_left; clear_value x; rotate_left)
    | (extract_lets +onlyGivenNames x; clear_value x)
    | with_reducible apply keeps_setQp
    | with_reducible apply keeps_setRegion
    | with_reducible apply keeps_endOp
    | with_reducible apply keeps_foldl
    | split

theorem keeps_prefetchEnd {z0 : State} (s : State) (tag : Nat) (status : Nat) (h0 : Keeps z0 s) :
    Keeps z0 (State.prefetchEnd s tag status) := by
  unfold State.prefetchEnd
  repeat' first
    | with_reducible assumption
    | (extract_lets +onlyGivenNames x; refine keeps_step (a := z0) (s := x) ?_ (fun hx => ?_); subst x; rotate_left; clear_value x; rotate_left)
    | with_reducible apply keeps_setQp
    | with_reducible apply keeps_endOp
    | split

theorem keeps_transHome {z0 : State} (s : State) (h0 : Keeps z0 s) :
    Keeps z0 (State.transHome s) := by
  unfold State.transHome
  repeat' first
    | with_reducible assumption
    | with_reducible intro _
    | (extract_lets +onlyGivenNames x; clear_value x)
    | with_reducible apply keeps_prefetchEnd
    | with_reducible apply keeps_foldl
    | with_reducible refine keeps_mk ?_

theorem keeps_abortTransport {z0 : State} (s : State) (t : Nat) (h0 : Keeps z0 s) :
    Keeps z0 (State.abortTransport s t) := by
  unfold State.abortTransport
  repeat' first
    | with_reducible assumption
    | (extract_lets +onlyGivenNames x; refine keeps_step (a := z0) (s := x) ?_ (fun hx => ?_); subst x; rotate_left; clear_value x; rotate_left)
    | (extract_lets +onlyGivenNames x; clear_value x)
    | split
    | with_reducible refine keeps_mk ?_

/-! ### Machine/Done.lean -/

theorem keeps_sendReply {z0 : State} (s : State) (m : DMsg) (h0 : Keeps z0 s) :
    Keeps z0 (State.sendReply s m) := by
  unfold State.sendReply
  repeat' first
    | with_reducible assumption
    | (extract_lets +onlyGivenNames x; refine keeps_step (a := z0) (s := x) ?_ (fun hx => ?_); subst x; rotate_left; clear_value x; rotate_left)
    | (extract_lets +onlyGivenNames x; clear_value x)
    | with_reducible apply keeps_sendOn0
    | split
    | with_reducible refine keeps_mk ?_

theorem keeps_sendReplies {z0 : State} (s : State) (x0 : Nat) (h0 : Keeps z0 s) :
    Keeps z0 (State.sendReplies s x0) := by
  induction x0 generalizing s with
  | zero =>
   unfold State.sendReplies
   repeat' first
    | with_reducible assumption
  | succ n ih =>
   unfold State.sendReplies
   repeat' first
    | with_reducible assumption
    | with_reducible apply keeps_sendReply
    | with_reducible apply ih
    | split

theorem keeps_judged {z0 : State} (s : State) (d : Nat) (r : Option DResult) (h0 : Keeps z0 s) :
    Keeps z0 (State.judged s d r) := by
  unfold State.judged
  repeat' first
    | with_reducible assumption
    | (extract_lets +onlyGivenNames x; clear_value x)
    | with_reducible refine keeps_mk ?_

theorem keeps_answerUnknown {z0 : State} (s : State) (x0 : Nat) (h0 : Keeps z0 s) :
    Keeps z0 (State.answerUnknown s x0) := by
  induction x0 generalizing s with
  | zero =>
   unfold State.answerUnknown
   repeat' first
    | with_reducible assumption
  | succ n ih =>
   unfold State.answerUnknown
   repeat' first
    | with_reducible assumption
    | with_reducible apply keeps_judged
    | with_reducible apply ih
    | split

theorem keeps_done {z0 : State} (s : State) (h0 : Keeps z0 s) :
    Keeps z0 (State.done s) := by
  unfold State.done
  repeat' first
    | with_reducible assumption
    | (extract_lets +onlyGivenNames x; refine keeps_step (a := z0) (s := x) ?_ (fun hx => ?_); subst x; rotate_left; clear_value x; rotate_left)
    | with_reducible apply keeps_flush
    | with_reducible apply keeps_closeEpoch
    | with_reducible apply keeps_triggers
    | with_reducible apply keeps_transHome
    | with_reducible apply keeps_sendReplies
    | with_reducible apply keeps_answerUnknown

/-! ### Machine/Movers.lean -/

theorem keeps_noteRefusal {z0 : State} (s : State) (status : Nat) (chip : Nat) (t : Nat) (a : Nat) (write : Bool) (h0 : Keeps z0 s) :
    Keeps z0 (State.noteRefusal s status chip t a write) := by
  unfold State.noteRefusal
  repeat' first
    | with_reducible assumption
    | with_reducible apply keeps_refuseCsr
    | split

theorem keeps_setMover {z0 : State} (s : State) (q : Nat) (m : Nat) (v : Mover) (h0 : Keeps z0 s) :
    Keeps z0 (State.setMover s q m v) := by
  unfold State.setMover
  repeat' first
    | with_reducible assumption
    | with_reducible apply keeps_setRange

theorem keeps_moverWrite {z0 : State} (s : State) (q : Nat) (m : Nat) (op : Nat) (t : Nat) (dst : Nat) (data : Bytes) (poi : List Bool) (h0 : Keeps z0 s) :
    Keeps z0 (State.moverWrite s q m op t dst data poi) := by
  unfold State.moverWrite
  repeat' first
    | with_reducible assumption
    | (extract_lets +onlyGivenNames x; refine keeps_step (a := z0) (s := x) ?_ (fun hx => ?_); subst x; rotate_left; clear_value x; rotate_left)
    | (extract_lets +onlyGivenNames x; clear_value x)
    | with_reducible apply keeps_moverEnd
    | with_reducible apply keeps_sendOwn
    | with_reducible apply keeps_noteRefusal
    | with_reducible apply keeps_setMover
    | with_reducible apply keeps_moverLoad
    | split

theorem keeps_moverRead {z0 : State} (s : State) (q : Nat) (m : Nat) (op : Nat) (t : Nat) (src : Nat) (n : Nat) (h0 : Keeps z0 s) :
    Keeps z0 (State.moverRead s q m op t src n) := by
  unfold State.moverRead
  repeat' first
    | with_reducible assumption
    | (extract_lets +onlyGivenNames x; refine keeps_step (a := z0) (s := x) ?_ (fun hx => ?_); subst x; rotate_left; clear_value x; rotate_left)
    | (extract_lets +onlyGivenNames x; clear_value x)
    | with_reducible apply keeps_moverEnd
    | with_reducible apply keeps_sendOwn
    | with_reducible apply keeps_noteRefusal
    | with_reducible apply keeps_setMover
    | with_reducible apply keeps_moverLoad
    | split

theorem keeps_moverData {z0 : State} (s : State) (q : Nat) (m : Nat) (op : Nat) (data : Bytes) (poi : List Bool) (h0 : Keeps z0 s) :
    Keeps z0 (State.moverData s q m op data poi) := by
  unfold State.moverData
  repeat' first
    | with_reducible assumption
    | (extract_lets +onlyGivenNames x; clear_value x)
    | with_reducible apply keeps_setMover
    | with_reducible apply keeps_moverWrite
    | split

theorem keeps_feedLoad {z0 : State} (s : State) (q : Nat) (e : Nat) (h0 : Keeps z0 s) :
    Keeps z0 (State.feedLoad s q e) := by
  unfold State.feedLoad
  repeat' first
    | with_reducible assumption
    | with_reducible apply keeps_setMover
    | split
    | with_reducible refine keeps_mk ?_

theorem keeps_feedLoads {z0 : State} (s : State) (h0 : Keeps z0 s) :
    Keeps z0 (State.feedLoads s) := by
  unfold State.feedLoads
  repeat' first
    | with_reducible assumption
    | with_reducible intro _
    | with_reducible apply keeps_feedLoad
    | with_reducible apply keeps_foldl
    | with_reducible refine keeps_mk ?_

theorem keeps_loadWrite {z0 : State} (s : State) (q : Nat) (m : Nat) (op : Nat) (e : Nat) (dst : Nat) (n : Nat) (h0 : Keeps z0 s) :
    Keeps z0 (State.loadWrite s q m op e dst n) := by
  unfold State.loadWrite
  repeat' first
    | with_reducible assumption
    | with_reducible apply keeps_moverLoad

theorem keeps_loadDone {z0 : State} (s : State) (q : Nat) (e : Nat) (ok : Bool) (h0 : Keeps z0 s) :
    Keeps z0 (State.loadDone s q e ok) := by
  unfold State.loadDone
  repeat' first
    | with_reducible assumption
    | with_reducible apply keeps_setEntry
    | split
    | with_reducible refine keeps_mk ?_

theorem keeps_moverIssue {z0 : State} (s : State) (q : Nat) (m : Nat) (k : Nat) (h0 : Keeps z0 s) :
    Keeps z0 (State.moverIssue s q m k) := by
  unfold State.moverIssue
  repeat' first
    | with_reducible assumption
    | with_reducible intro _
    | (extract_lets +onlyGivenNames x; refine keeps_step (a := z0) (s := x) ?_ (fun hx => ?_); subst x; rotate_left; clear_value x; rotate_left)
    | (extract_lets +onlyGivenNames x; clear_value x)
    | with_reducible apply keeps_setMover
    | with_reducible apply keeps_moverWrite
    | with_reducible apply keeps_moverRead
    | with_reducible apply keeps_loadWrite
    | with_reducible apply keeps_fst
    | with_reducible apply h0
    | with_reducible apply hf
    | split
    | with_reducible apply keepsP_mk
    | with_reducible apply keeps_getD
    | (with_reducible refine keeps_of_pair ‹_ = (_, _)› ?_)
    | (with_reducible refine keeps_of_some ‹_ = some _› ?_)
    | (with_reducible refine keeps_of_someQ ‹_ = some (_, _)› ?_)
    | (with_reducible refine keeps_of_someR ‹_ = some (_, _)› ?_)
    | with_reducible refine keeps_mk ?_
    | with_reducible apply keeps_refl

theorem keeps_trigAction {z0 : State} (s : State) (t : Nat) (c : Nat) (h0 : Keeps z0 s) :
    Keeps z0 (State.trigAction s t c) := by
  unfold State.trigAction
  repeat' first
    | with_reducible assumption
    | (extract_lets +onlyGivenNames x; clear_value x)
    | with_reducible apply keeps_cntAdd
    | split
    | with_reducible refine keeps_mk ?_

theorem keeps_moverSuccess {z0 : State} (s : State) (q : Nat) (m : Nat) (d : Desc) (h0 : Keeps z0 s) :
    Keeps z0 (State.moverSuccess s q m d) := by
  unfold State.moverSuccess
  repeat' first
    | with_reducible assumption
    | (extract_lets +onlyGivenNames x; refine keeps_step (a := z0) (s := x) ?_ (fun hx => ?_); subst x; rotate_left; clear_value x; rotate_left)
    | (extract_lets +onlyGivenNames x; clear_value x)
    | with_reducible apply keeps_flagAdd
    | with_reducible apply keeps_sendOwn
    | with_reducible apply keeps_trigAction
    | split

theorem keeps_moverError {z0 : State} (s : State) (q : Nat) (m : Nat) (reason : Nat) (d : Desc) (h0 : Keeps z0 s) :
    Keeps z0 (State.moverError s q m reason d) := by
  unfold State.moverError
  repeat' first
    | with_reducible assumption
    | (extract_lets +onlyGivenNames x; refine keeps_step (a := z0) (s := x) ?_ (fun hx => ?_); subst x; rotate_left; clear_value x; rotate_left)
    | with_reducible apply keeps_flagAdd
    | with_reducible apply keeps_log
    | split

theorem keeps_countMoverError {z0 : State} (s : State) (q : Nat) (m : Nat) (h0 : Keeps z0 s) :
    Keeps z0 (State.countMoverError s q m) := by
  unfold State.countMoverError
  repeat' first
    | with_reducible assumption
    | (extract_lets +onlyGivenNames x; clear_value x)
    | with_reducible apply keeps_setMover

theorem keeps_startFetch {z0 : State} (s : State) (q : Nat) (m : Nat) (d : Desc) (h0 : Keeps z0 s) :
    Keeps z0 (State.startFetch s q m d) := by
  unfold State.startFetch
  repeat' first
    | with_reducible assumption
    | (extract_lets +onlyGivenNames x; clear_value x)
    | with_reducible apply keeps_noteRefusal
    | with_reducible apply keeps_setMover
    | with_reducible apply keeps_moverLoad
    | split

theorem keeps_descActions {z0 : State} (s : State) (q : Nat) (m : Nat) (d : Desc) (h0 : Keeps z0 s) :
    Keeps z0 (State.descActions s q m d) := by
  unfold State.descActions
  repeat' first
    | with_reducible assumption
    | with_reducible intro _
    | (extract_lets +onlyGivenNames x; refine keeps_step (a := z0) (s := x) ?_ (fun hx => ?_); subst x; rotate_left; clear_value x; rotate_left)
    | (extract_lets +onlyGivenNames x; clear_value x)
    | with_reducible apply keeps_loadDone
    | with_reducible apply keeps_moverSuccess
    | with_reducible apply keeps_moverError
    | with_reducible apply keeps_countMoverError
    | with_reducible apply keeps_startFetch
    | with_reducible apply keeps_fst
    | with_reducible apply h0
    | with_reducible apply hf
    | split
    | with_reducible apply keepsP_mk
    | (with_reducible refine keeps_of_pair ‹_ = (_, _)› ?_)
    | (with_reducible refine keeps_of_some ‹_ = some _› ?_)
    | (with_reducible refine keeps_of_someQ ‹_ = some (_, _)› ?_)
    | (with_reducible refine keeps_of_someR ‹_ = some (_, _)› ?_)
    | with_reducible refine keeps_mk ?_
    | with_reducible apply keeps_refl

theorem keeps_descComplete {z0 : State} (s : State) (q : Nat) (m : Nat) (h0 : Keeps z0 s) :
    Keeps z0 (State.descComplete s q m) := by
  unfold State.descComplete
  repeat' first
    | with_reducible assumption
    | (extract_lets +onlyGivenNames x; clear_value x)
    | with_reducible apply keeps_setMover
    | with_reducible apply keeps_feedLoads
    | with_reducible apply keeps_descActions
    | split

theorem keeps_chainDone {z0 : State} (s : State) (q : Nat) (m : Nat) (h0 : Keeps z0 s) :
    Keeps z0 (State.chainDone s q m) := by
  unfold State.chainDone
  repeat' first
    | with_reducible assumption
    | (extract_lets +onlyGivenNames x; clear_value x)
    | with_reducible apply keeps_log
    | with_reducible apply keeps_setMover
    | with_reducible apply keeps_countMoverError
    | split

theorem keeps_abortMovers {z0 : State} (s : State) (q : Nat) (t : Nat) (h0 : Keeps z0 s) :
    Keeps z0 (State.abortMovers s q t) := by
  unfold State.abortMovers
  repeat' first
    | with_reducible assumption
    | with_reducible intro _
    | with_reducible apply keeps_setMover
    | with_reducible apply keeps_foldl

theorem keeps_popRx {z0 : State} (s : State) (l : Nat) (v : Nat) (h0 : Keeps z0 s) :
    Keeps z0 (State.popRx s l v) := by
  unfold State.popRx
  repeat' first
    | with_reducible assumption
    | with_reducible apply keeps_setGate

theorem keeps_sendIn {z0 : State} (s : State) (l : Nat) (v : Nat) (ls : List Load) (h0 : Keeps z0 s) :
    Keeps z0 (State.sendIn s l v ls) := by
  unfold State.sendIn
  repeat' first
    | with_reducible assumption
    | with_reducible apply keeps_setGate
    | with_reducible apply keeps_mantelSend
    | with_reducible apply keeps_popRx
    | split

theorem keeps_finishRemote {z0 : State} (s : State) (id : Nat) (x : Remote) (h0 : Keeps z0 s) :
    Keeps z0 (State.finishRemote s id x) := by
  unfold State.finishRemote
  repeat' first
    | with_reducible assumption
    | with_reducible intro _
    | (extract_lets +onlyGivenNames x; refine keeps_step (a := z0) (s := x) ?_ (fun hx => ?_); subst x; rotate_left; clear_value x; rotate_left)
    | (extract_lets +onlyGivenNames x; clear_value x)
    | with_reducible apply keeps_sendFrom
    | with_reducible apply keeps_respond
    | with_reducible apply keeps_refuse
    | with_reducible apply keeps_accept
    | with_reducible apply keeps_foldl
    | split
    | with_reducible refine keeps_mk ?_

theorem keeps_remotePiece {z0 : State} (s : State) (id : Nat) (idx : Nat) (l : Load) (h0 : Keeps z0 s) :
    Keeps z0 (State.remotePiece s id idx l) := by
  unfold State.remotePiece
  repeat' first
    | with_reducible assumption
    | (extract_lets +onlyGivenNames x; subst x)
    | with_reducible apply keeps_finishRemote
    | split
    | with_reducible refine keeps_mk ?_

theorem keeps_home {z0 : State} (s : State) (l : Load) (h0 : Keeps z0 s) :
    Keeps z0 (State.home s l) := by
  unfold State.home
  repeat' first
    | with_reducible assumption
    | (extract_lets +onlyGivenNames x; clear_value x)
    | with_reducible apply keeps_moverEnd
    | with_reducible apply keeps_unitFail
    | with_reducible apply keeps_ringPlaced
    | with_reducible apply keeps_sumPlaced
    | with_reducible apply keeps_setMover
    | with_reducible apply keeps_moverData
    | with_reducible apply keeps_remotePiece
    | split

theorem keeps_startRemote {z0 : State} (s : State) (l : Nat) (v : Nat) (p : Packet) (kind : LoadKind) (n : Nat) (h0 : Keeps z0 s) :
    Keeps z0 (State.startRemote s l v p kind n) := by
  unfold State.startRemote
  repeat' first
    | with_reducible assumption
    | with_reducible apply keeps_sendIn
    | with_reducible refine keeps_mk ?_

theorem keeps_stationPop {z0 : State} (s : State) (q : Nat) (st : Nat) (k : Nat) (h0 : Keeps z0 s) :
    Keeps z0 (State.stationPop s q st k) := by
  unfold State.stationPop
  repeat' first
    | with_reducible assumption
    | (extract_lets +onlyGivenNames x; refine keeps_step (a := z0) (s := x) ?_ (fun hx => ?_); subst x; rotate_left; clear_value x; rotate_left)
    | (extract_lets +onlyGivenNames x; clear_value x)
    | with_reducible apply keeps_setHob
    | with_reducible apply keeps_setRange
    | with_reducible apply keeps_setGate
    | with_reducible apply keeps_setStn
    | with_reducible apply keeps_popRx
    | split

theorem keeps_slotFill {z0 : State} (s : State) (q : Nat) (st : Nat) (h0 : Keeps z0 s) :
    Keeps z0 (State.slotFill s q st) := by
  unfold State.slotFill
  repeat' first
    | with_reducible assumption
    | (extract_lets +onlyGivenNames x; refine keeps_step (a := z0) (s := x) ?_ (fun hx => ?_); subst x; rotate_left; clear_value x; rotate_left)
    | (extract_lets +onlyGivenNames x; clear_value x)
    | with_reducible apply keeps_setRange
    | with_reducible apply keeps_stationPop
    | split

theorem keeps_packetHome {z0 : State} (s : State) (l : Nat) (src : PSrc) (p : Packet) (h0 : Keeps z0 s) :
    Keeps z0 (State.packetHome s l src p) := by
  unfold State.packetHome
  repeat' first
    | with_reducible assumption
    | with_reducible intro _
    | (extract_lets +onlyGivenNames x; refine keeps_step (a := z0) (s := x) ?_ (fun hx => ?_); subst x; rotate_left; clear_value x; rotate_left)
    | (extract_lets +onlyGivenNames x; clear_value x)
    | with_reducible apply keeps_setGate
    | with_reducible apply keeps_enqueue
    | with_reducible apply keeps_rechooseVc
    | with_reducible apply keeps_transit
    | with_reducible apply keeps_fst
    | with_reducible apply h0
    | with_reducible apply hf
    | split
    | with_reducible apply keepsP_mk
    | (with_reducible refine keeps_of_pair ‹_ = (_, _)› ?_)
    | with_reducible refine keeps_mk ?_
    | with_reducible apply keeps_refl

theorem keeps_pmemTake {z0 : State} (s : State) (q : Nat) (l : Load) (h0 : Keeps z0 s) :
    Keeps z0 (State.pmemTake s q l) := by
  unfold State.pmemTake
  repeat' first
    | with_reducible assumption
    | with_reducible apply keeps_setRange

theorem keeps_loadArrival {z0 : State} (s : State) (q : Nat) (st : Nat) (loop : Nat) (h0 : Keeps z0 s) :
    Keeps z0 (State.loadArrival s q st loop) := by
  unfold State.loadArrival
  repeat' first
    | with_reducible assumption
    | (extract_lets +onlyGivenNames x; refine keeps_step (a := z0) (s := x) ?_ (fun hx => ?_); subst x; rotate_left; clear_value x; rotate_left)
    | (extract_lets +onlyGivenNames x; clear_value x)
    | with_reducible apply keeps_setHob
    | with_reducible apply keeps_setRange
    | with_reducible apply keeps_setStn
    | with_reducible apply keeps_home
    | with_reducible apply keeps_packetHome
    | with_reducible apply keeps_pmemTake
    | split

theorem keeps_bufLine {z0 : State} (s : State) (h : Nat) (i : Nat) (h0 : Keeps z0 s) :
    Keeps z0 (State.bufLine s h i) := by
  unfold State.bufLine
  repeat' first
    | with_reducible assumption
    | (extract_lets +onlyGivenNames x; refine keeps_step (a := z0) (s := x) ?_ (fun hx => ?_); subst x; rotate_left; clear_value x; rotate_left)
    | (extract_lets +onlyGivenNames x; clear_value x)
    | with_reducible apply keeps_setHob
    | with_reducible apply keeps_setSramLine
    | split

theorem keeps_bufAccess {z0 : State} (s : State) (h : Nat) (c : Nat) (h0 : Keeps z0 s) :
    Keeps z0 (State.bufAccess s h c) := by
  unfold State.bufAccess
  repeat' first
    | with_reducible assumption
    | (extract_lets +onlyGivenNames x; refine keeps_step (a := z0) (s := x) ?_ (fun hx => ?_); subst x; rotate_left; clear_value x; rotate_left)
    | (extract_lets +onlyGivenNames x; clear_value x)
    | with_reducible apply keeps_setHob
    | with_reducible apply keeps_bufLine
    | split

theorem keeps_bufFlush {z0 : State} (s : State) (h : Nat) (x0 : Nat) (h0 : Keeps z0 s) :
    Keeps z0 (State.bufFlush s h x0) := by
  induction x0 generalizing s h with
  | zero =>
   unfold State.bufFlush
   repeat' first
    | with_reducible assumption
  | succ n ih =>
   unfold State.bufFlush
   repeat' first
    | with_reducible assumption
    | with_reducible apply keeps_bufLine
    | with_reducible apply ih
    | split

theorem keeps_answer {z0 : State} (s : State) (l : Load) (status : Nat) (k : LoadKind) (d : Bytes) (p : List Bool) (h0 : Keeps z0 s) :
    Keeps z0 (State.answer s l status k d p) := by
  unfold State.answer
  repeat' first
    | with_reducible assumption
    | with_reducible refine keeps_mk ?_

theorem keeps_mantelTake {z0 : State} (s : State) (l : Load) (h0 : Keeps z0 s) :
    Keeps z0 (State.mantelTake s l) := by
  unfold State.mantelTake
  repeat' first
    | with_reducible assumption
    | (extract_lets +onlyGivenNames x; clear_value x)
    | with_reducible apply keeps_csrWriteBytes
    | with_reducible apply keeps_answer
    | split
    | with_reducible refine keeps_mk ?_

theorem keeps_popMantel {z0 : State} (s : State) (f : Load → Bool) (h0 : Keeps z0 s) :
    KeepsQ z0 (State.popMantel s f) := by
  unfold State.popMantel
  split
  · exact keepsQ_none
  · cases s.mantel.find? f with
    | none => exact keepsQ_none
    | some l => exact keepsQ_some (keeps_mk h0)

theorem keeps_settleIn {z0 : State} (s : State) (q : Nat) (h0 : Keeps z0 s) :
    Keeps z0 (State.settleIn s q) := by
  unfold State.settleIn
  repeat' first
    | with_reducible assumption
    | (extract_lets +onlyGivenNames x; clear_value x)
    | with_reducible apply keeps_setRange
    | with_reducible apply keeps_home
    | with_reducible apply keeps_foldl
    | split

theorem keeps_spineTo {z0 : State} (s : State) (d : Nat) (l : Load) (h0 : Keeps z0 s) :
    Keeps z0 (State.spineTo s d l) := by
  unfold State.spineTo
  repeat' first
    | with_reducible assumption
    | with_reducible apply keeps_setRange
    | with_reducible apply keeps_home
    | with_reducible apply keeps_mantelTake
    | with_reducible apply keeps_settleIn
    | split

theorem keeps_spineDeliver {z0 : State} (s : State) (src : Nat) (dst : Nat) (h0 : Keeps z0 s) :
    Keeps z0 (State.spineDeliver s src dst) := by
  unfold State.spineDeliver
  repeat' first
    | with_reducible assumption
    | (extract_lets +onlyGivenNames x; refine keeps_step (a := z0) (s := x) ?_ (fun hx => ?_); subst x; rotate_left; clear_value x; rotate_left)
    | (extract_lets +onlyGivenNames x; clear_value x)
    | with_reducible apply keeps_setRange
    | with_reducible apply keeps_settleBridge
    | with_reducible apply keeps_spineTo
    | with_reducible apply keeps_getD
    | split
    | with_reducible refine keeps_mk ?_

/-! ### Machine/Link.lean -/

theorem keeps_moversPeerLost {z0 : State} (s : State) (x : Nat) (h0 : Keeps z0 s) :
    Keeps z0 (State.moversPeerLost s x) := by
  unfold State.moversPeerLost
  repeat' first
    | with_reducible assumption
    | with_reducible intro _
    | with_reducible apply keeps_setMover
    | with_reducible apply keeps_foldl

theorem keeps_pollLost {z0 : State} (s : State) (x : Nat) (h0 : Keeps z0 s) :
    Keeps z0 (State.pollLost s x) := by
  unfold State.pollLost
  repeat' first
    | with_reducible assumption
    | (extract_lets +onlyGivenNames x; clear_value x)
    | split
    | with_reducible refine keeps_mk ?_

theorem keeps_prefetchLost {z0 : State} (s : State) (x : Nat) (h0 : Keeps z0 s) :
    Keeps z0 (State.prefetchLost s x) := by
  unfold State.prefetchLost
  repeat' first
    | with_reducible assumption
    | (extract_lets +onlyGivenNames x; clear_value x)
    | with_reducible refine keeps_mk ?_

theorem keeps_peerLost {z0 : State} (s : State) (x : Nat) (h0 : Keeps z0 s) :
    Keeps z0 (State.peerLost s x) := by
  unfold State.peerLost
  repeat' first
    | with_reducible assumption
    | with_reducible apply keeps_log
    | with_reducible apply keeps_moversPeerLost
    | with_reducible apply keeps_pollLost
    | with_reducible apply keeps_prefetchLost

theorem keeps_refreshReach {z0 : State} (s : State) (event : State → State) (h0 : Keeps z0 s) (h1 : ∀ (y0 : State), Keeps z0 y0 → Keeps z0 (event y0)) :
    Keeps z0 (State.refreshReach s event) := by
  unfold State.refreshReach
  repeat' first
    | with_reducible assumption
    | with_reducible intro _
    | (extract_lets +onlyGivenNames x; clear_value x)
    | with_reducible apply keeps_checkLeader
    | with_reducible apply keeps_peerLost
    | with_reducible apply keeps_foldl
    | with_reducible apply h1
    | with_reducible refine keeps_mk ?_

theorem keeps_linkChangedBy {z0 : State} (s : State) (l : Nat) (event : State → State) (h0 : Keeps z0 s) (h1 : ∀ (y0 : State), Keeps z0 y0 → Keeps z0 (event y0)) :
    Keeps z0 (State.linkChangedBy s l event) := by
  unfold State.linkChangedBy
  repeat' first
    | with_reducible assumption
    | with_reducible apply keeps_rechoose
    | with_reducible apply keeps_rechooseAll
    | with_reducible apply keeps_refreshReach

theorem keeps_linkChanged {z0 : State} (s : State) (l : Nat) (h0 : Keeps z0 s) :
    Keeps z0 (State.linkChanged s l) := by
  unfold State.linkChanged
  repeat' first
    | with_reducible assumption
    | with_reducible intro _
    | with_reducible apply keeps_linkChangedBy
    | with_reducible apply keeps_id

theorem keeps_linkDown {z0 : State} (s : State) (l : Nat) (h0 : Keeps z0 s) :
    Keeps z0 (State.linkDown s l) := by
  unfold State.linkDown
  repeat' first
    | with_reducible assumption
    | (extract_lets +onlyGivenNames x; clear_value x)
    | with_reducible apply keeps_setGate
    | with_reducible apply keeps_linkChanged

theorem keeps_declareLost {z0 : State} (s : State) (l : Nat) (ps : List Packet) (h0 : Keeps z0 s) :
    Keeps z0 (State.declareLost s l ps) := by
  unfold State.declareLost
  repeat' first
    | with_reducible assumption
    | with_reducible intro _
    | with_reducible apply keeps_bumpGate
    | with_reducible apply keeps_respond
    | with_reducible apply keeps_foldl

theorem keeps_linkBreak {z0 : State} (s : State) (l : Nat) (reason : Nat) (h0 : Keeps z0 s) :
    Keeps z0 (State.linkBreak s l reason) := by
  unfold State.linkBreak
  repeat' first
    | with_reducible assumption
    | with_reducible intro _
    | (extract_lets +onlyGivenNames x; refine keeps_step (a := z0) (s := x) ?_ (fun hx => ?_); subst x; rotate_left; clear_value x; rotate_left)
    | (extract_lets +onlyGivenNames x; clear_value x)
    | with_reducible apply keeps_setGate
    | with_reducible apply keeps_log
    | with_reducible apply keeps_bumpGate
    | with_reducible apply keeps_linkChangedBy
    | with_reducible apply keeps_declareLost
    | split

theorem keeps_sendFrames {z0 : State} (s : State) (l : Nat) (step : Nat) (good : BitVec 8) (h0 : Keeps z0 s) :
    Keeps z0 (State.sendFrames s l step good) := by
  unfold State.sendFrames
  repeat' first
    | with_reducible assumption
    | with_reducible intro _
    | with_reducible apply keeps_emit
    | with_reducible apply keeps_foldl

theorem keeps_enterTrain {z0 : State} (s : State) (l : Nat) (h0 : Keeps z0 s) :
    Keeps z0 (State.enterTrain s l) := by
  unfold State.enterTrain
  repeat' first
    | with_reducible assumption
    | with_reducible apply keeps_setGate
    | with_reducible apply keeps_sendFrames

theorem keeps_linkUp {z0 : State} (s : State) (l : Nat) (f : Bytes) (reversed : Bool) (polarity : BitVec 8) (narrow : Bool) (half : Bool) (h0 : Keeps z0 s) :
    Keeps z0 (State.linkUp s l f reversed polarity narrow half) := by
  unfold State.linkUp
  repeat' first
    | with_reducible assumption
    | with_reducible apply keeps_setGate
    | with_reducible apply keeps_linkChanged

theorem keeps_trainFail {z0 : State} (s : State) (l : Nat) (h0 : Keeps z0 s) :
    Keeps z0 (State.trainFail s l) := by
  unfold State.trainFail
  repeat' first
    | with_reducible assumption
    | (extract_lets +onlyGivenNames x; refine keeps_step (a := z0) (s := x) ?_ (fun hx => ?_); subst x; rotate_left; clear_value x; rotate_left)
    | (extract_lets +onlyGivenNames x; clear_value x)
    | with_reducible apply keeps_setGate
    | with_reducible apply keeps_log
    | split

theorem keeps_trainStart {z0 : State} (s : State) (l : Nat) (h0 : Keeps z0 s) :
    Keeps z0 (State.trainStart s l) := by
  unfold State.trainStart
  repeat' first
    | with_reducible assumption
    | (extract_lets +onlyGivenNames x; clear_value x)
    | with_reducible apply keeps_setGate
    | with_reducible apply keeps_enterTrain
    | split

theorem keeps_trainComplete {z0 : State} (s : State) (l : Nat) (r : TrainResult) (h0 : Keeps z0 s) :
    Keeps z0 (State.trainComplete s l r) := by
  unfold State.trainComplete
  repeat' first
    | with_reducible assumption
    | with_reducible intro _
    | (extract_lets +onlyGivenNames x; refine keeps_step (a := z0) (s := x) ?_ (fun hx => ?_); subst x; rotate_left; clear_value x; rotate_left)
    | (extract_lets +onlyGivenNames x; clear_value x)
    | with_reducible apply keeps_setGate
    | with_reducible apply keeps_log
    | with_reducible apply keeps_sendFrames
    | with_reducible apply keeps_linkUp
    | with_reducible apply keeps_trainFail
    | with_reducible apply keeps_fst
    | with_reducible apply h0
    | with_reducible apply hf
    | split
    | with_reducible apply keepsP_mk
    | (with_reducible refine keeps_of_pair ‹_ = (_, _)› ?_)
    | (with_reducible refine keeps_of_some ‹_ = some _› ?_)
    | (with_reducible refine keeps_of_someQ ‹_ = some (_, _)› ?_)
    | (with_reducible refine keeps_of_someR ‹_ = some (_, _)› ?_)
    | with_reducible refine keeps_mk ?_
    | with_reducible apply keeps_refl

theorem keeps_trainTimeout {z0 : State} (s : State) (l : Nat) (h0 : Keeps z0 s) :
    Keeps z0 (State.trainTimeout s l) := by
  unfold State.trainTimeout
  repeat' first
    | with_reducible assumption
    | with_reducible apply keeps_trainFail
    | split

theorem keeps_brokenEnd {z0 : State} (s : State) (l : Nat) (h0 : Keeps z0 s) :
    Keeps z0 (State.brokenEnd s l) := by
  unfold State.brokenEnd
  repeat' first
    | with_reducible assumption
    | (extract_lets +onlyGivenNames x; clear_value x)
    | with_reducible apply keeps_setGate
    | with_reducible apply keeps_enterTrain
    | split

theorem keeps_enterDrain {z0 : State} (s : State) (l : Nat) (h0 : Keeps z0 s) :
    Keeps z0 (State.enterDrain s l) := by
  unfold State.enterDrain
  repeat' first
    | with_reducible assumption
    | (extract_lets +onlyGivenNames x; clear_value x)
    | with_reducible apply keeps_setGate
    | with_reducible apply keeps_linkChanged

theorem keeps_disableLink {z0 : State} (s : State) (l : Nat) (h0 : Keeps z0 s) :
    Keeps z0 (State.disableLink s l) := by
  unfold State.disableLink
  repeat' first
    | with_reducible assumption
    | (extract_lets +onlyGivenNames x; clear_value x)
    | with_reducible apply keeps_setGate
    | with_reducible apply keeps_linkDown
    | with_reducible apply keeps_enterDrain
    | split

theorem keeps_askDisable {z0 : State} (s : State) (l : Nat) (h0 : Keeps z0 s) :
    Keeps z0 (State.askDisable s l) := by
  unfold State.askDisable
  repeat' first
    | with_reducible assumption
    | (extract_lets +onlyGivenNames x; clear_value x)
    | with_reducible apply keeps_setGate
    | with_reducible apply keeps_disableLink
    | split

theorem keeps_drainEnd {z0 : State} (s : State) (l : Nat) (h0 : Keeps z0 s) :
    Keeps z0 (State.drainEnd s l) := by
  unfold State.drainEnd
  repeat' first
    | with_reducible assumption
    | (extract_lets +onlyGivenNames x; clear_value x)
    | with_reducible apply keeps_linkDown
    | split

theorem keeps_drainTimeout {z0 : State} (s : State) (l : Nat) (h0 : Keeps z0 s) :
    Keeps z0 (State.drainTimeout s l) := by
  unfold State.drainTimeout
  repeat' first
    | with_reducible assumption
    | (extract_lets +onlyGivenNames x; refine keeps_step (a := z0) (s := x) ?_ (fun hx => ?_); subst x; rotate_left; clear_value x; rotate_left)
    | (extract_lets +onlyGivenNames x; clear_value x)
    | with_reducible apply keeps_linkDown
    | with_reducible apply keeps_declareLost
    | split

theorem keeps_packetProgress {z0 : State} (s : State) (p : Packet) (h0 : Keeps z0 s) :
    Keeps z0 (State.packetProgress s p) := by
  unfold State.packetProgress
  repeat' first
    | with_reducible assumption
    | with_reducible apply keeps_noteProgress
    | split

theorem keeps_packetWake {z0 : State} (s : State) (l : Nat) (p : Packet) (h0 : Keeps z0 s) :
    Keeps z0 (State.packetWake s l p) := by
  unfold State.packetWake
  repeat' first
    | with_reducible assumption
    | (extract_lets +onlyGivenNames x; clear_value x)
    | split
    | with_reducible refine keeps_mk ?_

theorem keeps_arrive {z0 : State} (s : State) (l : Nat) (p : Packet) (h0 : Keeps z0 s) :
    Keeps z0 (State.arrive s l p) := by
  unfold State.arrive
  repeat' first
    | with_reducible assumption
    | (extract_lets +onlyGivenNames x; refine keeps_step (a := z0) (s := x) ?_ (fun hx => ?_); subst x; rotate_left; clear_value x; rotate_left)
    | (extract_lets +onlyGivenNames x; clear_value x)
    | with_reducible apply keeps_setGate
    | with_reducible apply keeps_bumpGate
    | with_reducible apply keeps_refuse
    | with_reducible apply keeps_packetProgress
    | with_reducible apply keeps_packetWake
    | split
    | with_reducible refine keeps_mk ?_

theorem keeps_rxDatagram {z0 : State} (s : State) (l : Nat) (p : Packet) (ok : Bool) (h0 : Keeps z0 s) :
    Keeps z0 (State.rxDatagram s l p ok) := by
  unfold State.rxDatagram
  repeat' first
    | with_reducible assumption
    | (extract_lets +onlyGivenNames x; refine keeps_step (a := z0) (s := x) ?_ (fun hx => ?_); subst x; rotate_left; clear_value x; rotate_left)
    | (extract_lets +onlyGivenNames x; clear_value x)
    | with_reducible apply keeps_setGate
    | with_reducible apply keeps_bumpGate
    | with_reducible apply keeps_linkBreak
    | with_reducible apply keeps_arrive
    | split

theorem keeps_rxReliable {z0 : State} (s : State) (l : Nat) (p : Packet) (ok : Bool) (h0 : Keeps z0 s) :
    Keeps z0 (State.rxReliable s l p ok) := by
  unfold State.rxReliable
  repeat' first
    | with_reducible assumption
    | (extract_lets +onlyGivenNames x; clear_value x)
    | (extract_lets +onlyGivenNames x; subst x)
    | with_reducible apply keeps_setGate
    | with_reducible apply keeps_bumpGate
    | with_reducible apply keeps_linkBreak
    | with_reducible apply keeps_arrive
    | split

theorem keeps_noteFec {z0 : State} (s : State) (l : Nat) (f : FecReport) (h0 : Keeps z0 s) :
    Keeps z0 (State.noteFec s l f) := by
  unfold State.noteFec
  repeat' first
    | with_reducible assumption
    | (extract_lets +onlyGivenNames x; refine keeps_step (a := z0) (s := x) ?_ (fun hx => ?_); subst x; rotate_left; clear_value x; rotate_left)
    | with_reducible apply keeps_setGate
    | with_reducible apply keeps_bumpGate

theorem keeps_linkReceive {z0 : State} (s : State) (l : Nat) (b : Bytes) (n : Nat) (f : FecReport) (h0 : Keeps z0 s) :
    Keeps z0 (State.linkReceive s l b n f) := by
  unfold State.linkReceive
  repeat' first
    | with_reducible assumption
    | (extract_lets +onlyGivenNames x; refine keeps_step (a := z0) (s := x) ?_ (fun hx => ?_); subst x; rotate_left; clear_value x; rotate_left)
    | (extract_lets +onlyGivenNames x; clear_value x)
    | with_reducible apply keeps_setGate
    | with_reducible apply keeps_rxDatagram
    | with_reducible apply keeps_rxReliable
    | with_reducible apply keeps_noteFec
    | split

theorem keeps_headerFail {z0 : State} (s : State) (l : Nat) (b : Bytes) (n : Nat) (f : FecReport) (h0 : Keeps z0 s) :
    Keeps z0 (State.headerFail s l b n f) := by
  unfold State.headerFail
  repeat' first
    | with_reducible assumption
    | (extract_lets +onlyGivenNames x; refine keeps_step (a := z0) (s := x) ?_ (fun hx => ?_); subst x; rotate_left; clear_value x; rotate_left)
    | (extract_lets +onlyGivenNames x; clear_value x)
    | with_reducible apply keeps_setGate
    | with_reducible apply keeps_bumpGate
    | with_reducible apply keeps_noteFec
    | split

theorem keeps_startReplay {z0 : State} (s : State) (l : Nat) (ps : List Packet) (h0 : Keeps z0 s) :
    Keeps z0 (State.startReplay s l ps) := by
  unfold State.startReplay
  repeat' first
    | with_reducible assumption
    | (extract_lets +onlyGivenNames x; clear_value x)
    | with_reducible apply keeps_setGate
    | with_reducible apply keeps_bumpGate
    | with_reducible apply keeps_linkBreak
    | split

theorem keeps_narrowLink {z0 : State} (s : State) (l : Nat) (h0 : Keeps z0 s) :
    Keeps z0 (State.narrowLink s l) := by
  unfold State.narrowLink
  repeat' first
    | with_reducible assumption
    | (extract_lets +onlyGivenNames x; clear_value x)
    | with_reducible apply keeps_setGate
    | with_reducible apply keeps_log
    | with_reducible apply keeps_linkBreak
    | split

theorem keeps_actNak {z0 : State} (s : State) (l : Nat) (n : BitVec 12) (h0 : Keeps z0 s) :
    Keeps z0 (State.actNak s l n) := by
  unfold State.actNak
  repeat' first
    | with_reducible assumption
    | (extract_lets +onlyGivenNames x; clear_value x)
    | with_reducible apply keeps_setGate
    | with_reducible apply keeps_startReplay
    | split

theorem keeps_resumeReplay {z0 : State} (s : State) (l : Nat) (h0 : Keeps z0 s) :
    Keeps z0 (State.resumeReplay s l) := by
  unfold State.resumeReplay
  repeat' first
    | with_reducible assumption
    | (extract_lets +onlyGivenNames x; clear_value x)
    | with_reducible apply keeps_setGate
    | with_reducible apply keeps_actNak
    | split

theorem keeps_controlCounts {z0 : State} (s : State) (l : Nat) (b : Bytes) (n : Nat) (h0 : Keeps z0 s) :
    Keeps z0 (State.controlCounts s l b n) := by
  unfold State.controlCounts
  repeat' first
    | with_reducible assumption
    | (extract_lets +onlyGivenNames x; refine keeps_step (a := z0) (s := x) ?_ (fun hx => ?_); subst x; rotate_left; clear_value x; rotate_left)
    | (extract_lets +onlyGivenNames x; clear_value x)
    | with_reducible apply keeps_setGate
    | with_reducible apply keeps_linkBreak
    | with_reducible apply keeps_enterDrain
    | with_reducible apply keeps_drainEnd
    | with_reducible apply keeps_narrowLink
    | with_reducible apply keeps_actNak
    | split

theorem keeps_controlFlit {z0 : State} (s : State) (l : Nat) (b : Bytes) (n : Nat) (f : FecReport) (h0 : Keeps z0 s) :
    Keeps z0 (State.controlFlit s l b n f) := by
  unfold State.controlFlit
  repeat' first
    | with_reducible assumption
    | (extract_lets +onlyGivenNames x; refine keeps_step (a := z0) (s := x) ?_ (fun hx => ?_); subst x; rotate_left; clear_value x; rotate_left)
    | (extract_lets +onlyGivenNames x; clear_value x)
    | with_reducible apply keeps_setGate
    | with_reducible apply keeps_linkBreak
    | with_reducible apply keeps_noteFec
    | with_reducible apply keeps_controlCounts
    | split

theorem keeps_replayTimeout {z0 : State} (s : State) (l : Nat) (h0 : Keeps z0 s) :
    Keeps z0 (State.replayTimeout s l) := by
  unfold State.replayTimeout
  repeat' first
    | with_reducible assumption
    | (extract_lets +onlyGivenNames x; clear_value x)
    | with_reducible apply keeps_startReplay
    | split

theorem keeps_silence {z0 : State} (s : State) (l : Nat) (h0 : Keeps z0 s) :
    Keeps z0 (State.silence s l) := by
  unfold State.silence
  repeat' first
    | with_reducible assumption
    | (extract_lets +onlyGivenNames x; clear_value x)
    | with_reducible apply keeps_linkBreak
    | split

theorem keeps_sendControl {z0 : State} (s : State) (l : Nat) (k : Nat) (h0 : Keeps z0 s) :
    Keeps z0 (State.sendControl s l k) := by
  unfold State.sendControl
  repeat' first
    | with_reducible assumption
    | (extract_lets +onlyGivenNames x; clear_value x)
    | with_reducible apply keeps_setGate
    | with_reducible apply keeps_emit
    | with_reducible apply keeps_narrowLink
    | split

theorem keeps_sendPayload {z0 : State} (s : State) (l : Nat) (x0 : List Bytes) (h0 : Keeps z0 s) :
    Keeps z0 (State.sendPayload s l x0) := by
  induction x0 generalizing s l with
  | nil =>
   unfold State.sendPayload
   repeat' first
     | with_reducible assumption
  | cons x r ih =>
   unfold State.sendPayload
   repeat' first
     | with_reducible assumption
     | with_reducible apply keeps_setGate
     | with_reducible apply keeps_emit
     | with_reducible apply keeps_sendControl
     | with_reducible apply ih

theorem keeps_sendBytes {z0 : State} (s : State) (l : Nat) (b : Bytes) (h0 : Keeps z0 s) :
    Keeps z0 (State.sendBytes s l b) := by
  unfold State.sendBytes
  repeat' first
    | with_reducible assumption
    | with_reducible apply keeps_setGate
    | with_reducible apply keeps_emit
    | with_reducible apply keeps_sendPayload

theorem keeps_startPacket {z0 : State} (s : State) (l : Nat) (v : Nat) (p : Packet) (h0 : Keeps z0 s) :
    Keeps z0 (State.startPacket s l v p) := by
  unfold State.startPacket
  repeat' first
    | with_reducible assumption
    | (extract_lets +onlyGivenNames x; refine keeps_step (a := z0) (s := x) ?_ (fun hx => ?_); subst x; rotate_left; clear_value x; rotate_left)
    | with_reducible apply keeps_setGate
    | with_reducible apply keeps_sendBytes
    | split
    | with_reducible refine keeps_mk ?_

theorem keeps_startSlot {z0 : State} (s : State) (l : Nat) (h0 : Keeps z0 s) :
    Keeps z0 (State.startSlot s l) := by
  unfold State.startSlot
  repeat' first
    | with_reducible assumption
    | (extract_lets +onlyGivenNames x; clear_value x)
    | with_reducible apply keeps_setGate
    | with_reducible apply keeps_rechooseAll
    | with_reducible apply keeps_sendBytes
    | with_reducible apply keeps_startPacket
    | split

theorem keeps_transmit {z0 : State} (s : State) (l : Nat) (h0 : Keeps z0 s) :
    Keeps z0 (State.transmit s l) := by
  unfold State.transmit
  repeat' first
    | with_reducible assumption
    | (extract_lets +onlyGivenNames x; refine keeps_step (a := z0) (s := x) ?_ (fun hx => ?_); subst x; rotate_left; clear_value x; rotate_left)
    | with_reducible apply keeps_sendControl
    | with_reducible apply keeps_startSlot
    | split

theorem keeps_creditTimeout {z0 : State} (s : State) (l : Nat) (v : Nat) (h0 : Keeps z0 s) :
    Keeps z0 (State.creditTimeout s l v) := by
  unfold State.creditTimeout
  repeat' first
    | with_reducible assumption
    | (extract_lets +onlyGivenNames x; clear_value x)
    | with_reducible apply keeps_linkBreak
    | split

theorem keeps_laneFail {z0 : State} (s : State) (l : Nat) (m : Fin 8) (h0 : Keeps z0 s) :
    Keeps z0 (State.laneFail s l m) := by
  unfold State.laneFail
  repeat' first
    | with_reducible assumption
    | (extract_lets +onlyGivenNames x; clear_value x)
    | with_reducible apply keeps_setGate
    | with_reducible apply keeps_linkBreak
    | with_reducible apply keeps_narrowLink
    | split

/-! ### Machine/Inbound.lean -/

theorem keeps_takeRx {z0 : State} (s : State) (l : Nat) (v : Nat) (halted : Bool) (f : Packet → Bool) (h0 : Keeps z0 s) :
    KeepsQ z0 (State.takeRx s l v halted f) := by
  unfold State.takeRx
  cases s.headRx l v halted f with
  | none => exact keepsQ_none
  | some p => exact keepsQ_some (keeps_popRx _ _ _ h0)

theorem keeps_onPacket {z0 : State} (s : State) (l : Nat) (v : Nat) (op : Nat) (f : State → Packet → State) (h0 : Keeps z0 s) (h1 : ∀ (y0 : State) (y1 : Packet), Keeps z0 y0 → Keeps z0 (f y0 y1)) :
    Keeps z0 (State.onPacket s l v op f) := by
  unfold State.onPacket
  repeat' first
    | with_reducible assumption
    | with_reducible apply keeps_takeRx
    | with_reducible apply h1
    | split
    | (with_reducible refine keeps_of_someQ ‹_ = some (_, _)› ?_)

theorem keeps_onHead {z0 : State} (s : State) (l : Nat) (v : Nat) (op : Nat) (f : State → Packet → State) (h0 : Keeps z0 s) (h1 : ∀ (y0 : State) (y1 : Packet), Keeps z0 y0 → Keeps z0 (f y0 y1)) :
    Keeps z0 (State.onHead s l v op f) := by
  unfold State.onHead
  repeat' first
    | with_reducible assumption
    | with_reducible apply h1
    | split

theorem keeps_leaveRx {z0 : State} (s : State) (l : Nat) (v : Nat) (h0 : Keeps z0 s) :
    Keeps z0 (State.leaveRx s l v) := by
  unfold State.leaveRx
  repeat' first
    | with_reducible assumption
    | with_reducible intro _
    | with_reducible apply keeps_popRx
    | with_reducible apply keeps_fst
    | with_reducible apply h0
    | with_reducible apply hf
    | split
    | (with_reducible refine keeps_of_pair ‹_ = (_, _)› ?_)
    | with_reducible refine keeps_mk ?_
    | with_reducible apply keeps_refl

theorem keeps_bumpLink {z0 : State} (s : State) (l : Nat) (off : Nat) (h0 : Keeps z0 s) :
    Keeps z0 (State.bumpLink s l off) := by
  unfold State.bumpLink
  repeat' first
    | with_reducible assumption
    | with_reducible intro _
    | with_reducible apply keeps_bumpGate
    | with_reducible apply keeps_fst
    | with_reducible apply h0
    | with_reducible apply hf
    | split
    | (with_reducible refine keeps_of_pair ‹_ = (_, _)› ?_)
    | with_reducible refine keeps_mk ?_
    | with_reducible apply keeps_refl

theorem keeps_settleReq {z0 : State} (r : State × Nat) (l : Nat) (p : Packet) (h0 : KeepsP z0 r) :
    Keeps z0 (State.settleReq r l p) := by
  unfold State.settleReq
  repeat' first
    | with_reducible assumption
    | with_reducible apply keeps_refuse
    | with_reducible apply keeps_accept
    | with_reducible apply keeps_fst
    | split

theorem keeps_rxWrite {z0 : State} (s : State) (l : Nat) (v : Nat) (p : Packet) (h0 : Keeps z0 s) :
    Keeps z0 (State.rxWrite s l v p) := by
  unfold State.rxWrite
  repeat' first
    | with_reducible assumption
    | with_reducible apply keeps_refuse
    | with_reducible apply keeps_noteRefusal
    | with_reducible apply keeps_startRemote
    | with_reducible apply keeps_leaveRx
    | split

theorem keeps_rxRead {z0 : State} (s : State) (l : Nat) (v : Nat) (p : Packet) (h0 : Keeps z0 s) :
    Keeps z0 (State.rxRead s l v p) := by
  unfold State.rxRead
  repeat' first
    | with_reducible assumption
    | with_reducible intro _
    | with_reducible apply keeps_refuse
    | with_reducible apply keeps_noteRefusal
    | with_reducible apply keeps_startRemote
    | with_reducible apply keeps_leaveRx
    | with_reducible apply keeps_fst
    | with_reducible apply h0
    | with_reducible apply hf
    | split
    | with_reducible apply keepsP_mk
    | (with_reducible refine keeps_of_pair ‹_ = (_, _)› ?_)
    | with_reducible refine keeps_mk ?_
    | with_reducible apply keeps_refl

theorem keeps_rxResp {z0 : State} (s : State) (l : Nat) (v : Nat) (p : Packet) (h0 : Keeps z0 s) :
    Keeps z0 (State.rxResp s l v p) := by
  unfold State.rxResp
  repeat' first
    | with_reducible assumption
    | (extract_lets +onlyGivenNames x; clear_value x)
    | with_reducible apply keeps_unitFail
    | with_reducible apply keeps_sendIn
    | with_reducible apply keeps_leaveRx
    | with_reducible apply keeps_bumpLink
    | split

theorem keeps_rxMsg {z0 : State} (s : State) (l : Nat) (p : Packet) (h0 : Keeps z0 s) :
    Keeps z0 (State.rxMsg s l p) := by
  unfold State.rxMsg
  repeat' first
    | with_reducible assumption
    | with_reducible apply keeps_msgArrive
    | with_reducible apply keeps_settleReq

theorem keeps_rxContrib {z0 : State} (s : State) (l : Nat) (p : Packet) (h0 : Keeps z0 s) :
    Keeps z0 (State.rxContrib s l p) := by
  unfold State.rxContrib
  repeat' first
    | with_reducible assumption
    | with_reducible apply keeps_contribArrive
    | with_reducible apply keeps_settleReq
    | with_reducible apply keeps_fst
    | split
    | with_reducible apply keepsP_mk
    | with_reducible refine keeps_mk ?_

theorem keeps_rxFlagInc {z0 : State} (s : State) (l : Nat) (p : Packet) (h0 : Keeps z0 s) :
    Keeps z0 (State.rxFlagInc s l p) := by
  unfold State.rxFlagInc
  repeat' first
    | with_reducible assumption
    | with_reducible apply keeps_flagRemote
    | with_reducible apply keeps_settleReq

theorem keeps_rxDwrite {z0 : State} (s : State) (l : Nat) (p : Packet) (h0 : Keeps z0 s) :
    Keeps z0 (State.rxDwrite s l p) := by
  unfold State.rxDwrite
  repeat' first
    | with_reducible assumption
    | (extract_lets +onlyGivenNames x; clear_value x)
    | with_reducible apply keeps_stageWrite
    | with_reducible apply keeps_bumpLink
    | split

theorem keeps_rxDfetch {z0 : State} (s : State) (l : Nat) (v : Nat) (p : Packet) (h0 : Keeps z0 s) :
    Keeps z0 (State.rxDfetch s l v p) := by
  unfold State.rxDfetch
  repeat' first
    | with_reducible assumption
    | with_reducible apply keeps_startRemote
    | with_reducible apply keeps_leaveRx
    | with_reducible apply keeps_bumpLink
    | split

theorem keeps_rxDmsg {z0 : State} (s : State) (p : Packet) (h0 : Keeps z0 s) :
    Keeps z0 (State.rxDmsg s p) := by
  unfold State.rxDmsg
  repeat' first
    | with_reducible assumption
    | with_reducible apply keeps_msgArrive
    | with_reducible apply keeps_fst

theorem keeps_onStall {z0 : State} (s : State) (l : Nat) (v : Nat) (halted : Bool) (f : Nat → Bool) (g : State → Packet → State) (h0 : Keeps z0 s) (h1 : ∀ (y0 : State) (y1 : Packet), Keeps z0 y0 → Keeps z0 (g y0 y1)) :
    Keeps z0 (State.onStall s l v halted f g) := by
  unfold State.onStall
  repeat' first
    | with_reducible assumption
    | with_reducible apply keeps_takeRx
    | with_reducible apply h1
    | split
    | (with_reducible refine keeps_of_someQ ‹_ = some (_, _)› ?_)

theorem keeps_rxStall {z0 : State} (s : State) (p : Packet) (h0 : Keeps z0 s) :
    Keeps z0 (State.rxStall s p) := by
  unfold State.rxStall
  repeat' first
    | with_reducible assumption
    | (extract_lets +onlyGivenNames x; clear_value x)
    | split
    | with_reducible refine keeps_mk ?_

theorem keeps_rxPoll {z0 : State} (s : State) (p : Packet) (h0 : Keeps z0 s) :
    Keeps z0 (State.rxPoll s p) := by
  unfold State.rxPoll
  repeat' first
    | with_reducible assumption
    | with_reducible apply keeps_sendStall

theorem keeps_rxAnswer {z0 : State} (s : State) (p : Packet) (h0 : Keeps z0 s) :
    Keeps z0 (State.rxAnswer s p) := by
  unfold State.rxAnswer
  repeat' first
    | with_reducible assumption
    | (extract_lets +onlyGivenNames x; clear_value x)
    | split
    | with_reducible refine keeps_mk ?_

theorem keeps_rxDeadlock {z0 : State} (s : State) (p : Packet) (h0 : Keeps z0 s) :
    Keeps z0 (State.rxDeadlock s p) := by
  unfold State.rxDeadlock
  repeat' first
    | with_reducible assumption
    | with_reducible apply keeps_applyPolicy

theorem keeps_transit {z0 : State} (s : State) (l : Nat) (v : Nat) (h0 : Keeps z0 s) :
    Keeps z0 (State.transit s l v) := by
  unfold State.transit
  repeat' first
    | with_reducible assumption
    | with_reducible apply keeps_setGate
    | with_reducible apply keeps_enqueue
    | with_reducible apply keeps_noExitTransit
    | with_reducible apply keeps_popRx
    | with_reducible apply keeps_sendIn
    | split
    | with_reducible refine keeps_mk ?_

theorem keeps_datagramTimeout {z0 : State} (s : State) (l : Nat) (h0 : Keeps z0 s) :
    Keeps z0 (State.datagramTimeout s l) := by
  unfold State.datagramTimeout
  repeat' first
    | with_reducible assumption
    | (extract_lets +onlyGivenNames x; clear_value x)
    | with_reducible apply keeps_takeRx
    | split
    | (with_reducible refine keeps_of_someQ ‹_ = some (_, _)› ?_)
    | with_reducible refine keeps_mk ?_

theorem keeps_sendMgmt {z0 : State} (s : State) (dst : Nat) (tag : Nat) (b : Bytes) (h0 : Keeps z0 s) :
    Keeps z0 (State.sendMgmt s dst tag b) := by
  unfold State.sendMgmt
  repeat' first
    | with_reducible assumption
    | with_reducible apply keeps_sendOwn

theorem keeps_mgmtResult {z0 : State} (s : State) (p : Packet) (link : Nat) (code : Nat) (h0 : Keeps z0 s) :
    Keeps z0 (State.mgmtResult s p link code) := by
  unfold State.mgmtResult
  repeat' first
    | with_reducible assumption
    | with_reducible apply keeps_sendMgmt

theorem keeps_takeMgmt {z0 : State} (s : State) (p : Packet) (g : State → Packet → State) (h0 : Keeps z0 s) (h1 : ∀ (y0 : State) (y1 : Packet), Keeps z0 y0 → Keeps z0 (g y0 y1)) :
    Keeps z0 (State.takeMgmt s p g) := by
  unfold State.takeMgmt
  repeat' first
    | with_reducible assumption
    | with_reducible intro _
    | with_reducible apply keeps_fst
    | with_reducible apply h0
    | with_reducible apply h1
    | with_reducible apply hf
    | split
    | (with_reducible refine keeps_of_pair ‹_ = (_, _)› ?_)
    | with_reducible refine keeps_mk ?_
    | with_reducible apply keeps_refl

theorem keeps_onMgmt {z0 : State} (s : State) (l : Nat) (v : Nat) (f : Nat → Bool) (g : State → Packet → State) (h0 : Keeps z0 s) (h1 : ∀ (y0 : State) (y1 : Packet), Keeps z0 y0 → Keeps z0 (g y0 y1)) :
    Keeps z0 (State.onMgmt s l v f g) := by
  unfold State.onMgmt
  repeat' first
    | with_reducible assumption
    | with_reducible apply keeps_takeRx
    | with_reducible apply keeps_takeMgmt
    | split
    | (with_reducible refine keeps_of_someQ ‹_ = some (_, _)› ?_)

theorem keeps_rxPing {z0 : State} (s : State) (p : Packet) (h0 : Keeps z0 s) :
    Keeps z0 (State.rxPing s p) := by
  unfold State.rxPing
  repeat' first
    | with_reducible assumption
    | with_reducible apply keeps_sendMgmt
    | with_reducible apply keeps_mgmtResult
    | split

theorem keeps_recordMgmt {z0 : State} (s : State) (p : Packet) (h0 : Keeps z0 s) :
    Keeps z0 (State.recordMgmt s p) := by
  unfold State.recordMgmt
  repeat' first
    | with_reducible assumption
    | (extract_lets +onlyGivenNames x; clear_value x)
    | with_reducible refine keeps_mk ?_

theorem keeps_enableLink {z0 : State} (s : State) (n : Nat) (h0 : Keeps z0 s) :
    Keeps z0 (State.enableLink s n) := by
  unfold State.enableLink
  repeat' first
    | with_reducible assumption
    | with_reducible intro _
    | (extract_lets +onlyGivenNames x; refine keeps_step (a := z0) (s := x) ?_ (fun hx => ?_); subst x; rotate_left; clear_value x; rotate_left)
    | (extract_lets +onlyGivenNames x; clear_value x)
    | with_reducible apply keeps_setGate
    | with_reducible apply keeps_enterTrain
    | with_reducible apply keeps_fst
    | with_reducible apply h0
    | with_reducible apply hf
    | split
    | (with_reducible refine keeps_of_pair ‹_ = (_, _)› ?_)
    | with_reducible refine keeps_mk ?_
    | with_reducible apply keeps_refl

theorem keeps_rxLinkDisable {z0 : State} (s : State) (p : Packet) (h0 : Keeps z0 s) :
    Keeps z0 (State.rxLinkDisable s p) := by
  unfold State.rxLinkDisable
  repeat' first
    | with_reducible assumption
    | (extract_lets +onlyGivenNames x; refine keeps_step (a := z0) (s := x) ?_ (fun hx => ?_); subst x; rotate_left; clear_value x; rotate_left)
    | (extract_lets +onlyGivenNames x; clear_value x)
    | with_reducible apply keeps_askDisable
    | with_reducible apply keeps_mgmtResult
    | split

theorem keeps_rxLinkEnable {z0 : State} (s : State) (p : Packet) (h0 : Keeps z0 s) :
    Keeps z0 (State.rxLinkEnable s p) := by
  unfold State.rxLinkEnable
  repeat' first
    | with_reducible assumption
    | (extract_lets +onlyGivenNames x; refine keeps_step (a := z0) (s := x) ?_ (fun hx => ?_); subst x; rotate_left; clear_value x; rotate_left)
    | (extract_lets +onlyGivenNames x; clear_value x)
    | with_reducible apply keeps_mgmtResult
    | with_reducible apply keeps_enableLink
    | split

theorem keeps_rxMgmt {z0 : State} (s : State) (p : Packet) (h0 : Keeps z0 s) :
    Keeps z0 (State.rxMgmt s p) := by
  unfold State.rxMgmt
  repeat' first
    | with_reducible assumption
    | with_reducible intro _
    | with_reducible apply keeps_takeMgmt
    | with_reducible apply keeps_rxPing
    | with_reducible apply keeps_recordMgmt
    | with_reducible apply keeps_rxLinkDisable
    | with_reducible apply keeps_rxLinkEnable
    | with_reducible apply keeps_fst
    | with_reducible apply h0
    | with_reducible apply hf
    | split
    | (with_reducible refine keeps_of_pair ‹_ = (_, _)› ?_)
    | with_reducible refine keeps_mk ?_
    | with_reducible apply keeps_refl

theorem keeps_rxStallp {z0 : State} (s : State) (p : Packet) (h0 : Keeps z0 s) :
    Keeps z0 (State.rxStallp s p) := by
  unfold State.rxStallp
  repeat' first
    | with_reducible assumption
    | with_reducible apply keeps_rxStall
    | with_reducible apply keeps_rxPoll
    | with_reducible apply keeps_rxAnswer
    | with_reducible apply keeps_rxDeadlock
    | split

theorem keeps_localPacket {z0 : State} (s : State) (p : Packet) (h0 : Keeps z0 s) :
    Keeps z0 (State.localPacket s p) := by
  unfold State.localPacket
  repeat' first
    | with_reducible assumption
    | with_reducible apply keeps_rxWrite
    | with_reducible apply keeps_rxRead
    | with_reducible apply keeps_rxMsg
    | with_reducible apply keeps_rxContrib
    | with_reducible apply keeps_rxFlagInc
    | with_reducible apply keeps_rxDwrite
    | with_reducible apply keeps_rxDfetch
    | with_reducible apply keeps_rxDmsg
    | with_reducible apply keeps_rxMgmt
    | with_reducible apply keeps_rxStallp
    | split

theorem keeps_deliverLocal {z0 : State} (s : State) (x0 : Nat) (h0 : Keeps z0 s) :
    Keeps z0 (State.deliverLocal s x0) := by
  induction x0 generalizing s with
  | zero =>
   unfold State.deliverLocal
   repeat' first
     | with_reducible assumption
  | succ n ih =>
   unfold State.deliverLocal
   repeat' first
     | with_reducible assumption
     | with_reducible apply keeps_localPacket
     | with_reducible apply ih
     | with_reducible apply keeps_foldl
     | split
     | with_reducible refine keeps_mk ?_

/-! ### Machine/Ends.lean -/

theorem keeps_shutLinks {z0 : State} (s : State) (q : Nat) (h0 : Keeps z0 s) :
    Keeps z0 (State.shutLinks s q) := by
  unfold State.shutLinks
  repeat' first
    | with_reducible assumption
    | with_reducible intro _
    | with_reducible apply keeps_linkDown
    | with_reducible apply keeps_enterDrain
    | with_reducible apply keeps_foldl
    | split

theorem keeps_dropTransport {z0 : State} (s : State) (h0 : Keeps z0 s) :
    Keeps z0 (State.dropTransport s) := by
  unfold State.dropTransport
  repeat' first
    | with_reducible assumption
    | (extract_lets +onlyGivenNames x; clear_value x)
    | with_reducible refine keeps_mk ?_

theorem keeps_commandRail {z0 : State} (s : State) (rail : Nat) (on : Bool) (h0 : Keeps z0 s) :
    Keeps z0 (State.commandRail s rail on) := by
  unfold State.commandRail
  repeat' first
    | with_reducible assumption
    | with_reducible apply keeps_emit

theorem keeps_cleared {z0 : State} (s : State) (k : ResetKind) (h0 : Keeps z0 s) :
    Keeps z0 (State.cleared s k) := by
  refine ⟨h0.1, fun c => (canon_iff _).mpr ⟨?_, rfl, rfl, rfl⟩⟩
  show Memory.wf (if k = 1 ∨ k = 2 then s.mem.filter fun c => decide (c.1 < 4 * hbmQuarter) else []) = true
  split
  · exact smapWf_filter _ ((canon_iff s).mp (h0.2 c)).1
  · rfl

theorem keeps_stationsRest {z0 : State} (s : State) (h0 : Keeps z0 s) :
    Keeps z0 (State.stationsRest s) := by
  unfold State.stationsRest
  repeat' first
    | with_reducible assumption
    | with_reducible intro _
    | (extract_lets +onlyGivenNames x; clear_value x)
    | with_reducible apply keeps_setStn
    | with_reducible apply keeps_foldl

theorem keeps_powerDown {z0 : State} (s : State) (h0 : Keeps z0 s) :
    Keeps z0 (State.powerDown s) := by
  unfold State.powerDown
  repeat' first
    | with_reducible assumption
    | with_reducible intro _
    | (extract_lets +onlyGivenNames x; refine keeps_step (a := z0) (s := x) ?_ (fun hx => ?_); subst x; rotate_left; clear_value x; rotate_left)
    | (extract_lets +onlyGivenNames x; clear_value x)
    | with_reducible apply keeps_cleared
    | with_reducible apply keeps_stationsRest
    | with_reducible apply keeps_fst
    | with_reducible apply h0
    | with_reducible apply hf
    | split
    | with_reducible apply keepsP_mk
    | (with_reducible refine keeps_of_pair ‹_ = (_, _)› ?_)
    | with_reducible refine keeps_mk ?_
    | with_reducible apply keeps_refl

theorem keeps_railsDown {z0 : State} (s : State) (h0 : Keeps z0 s) :
    Keeps z0 (State.railsDown s) := by
  unfold State.railsDown
  repeat' first
    | with_reducible assumption
    | (extract_lets +onlyGivenNames x; refine keeps_step (a := z0) (s := x) ?_ (fun hx => ?_); subst x; rotate_left; clear_value x; rotate_left)
    | (extract_lets +onlyGivenNames x; clear_value x)
    | with_reducible apply keeps_commandRail
    | with_reducible apply keeps_powerDown
    | split
    | with_reducible refine keeps_mk ?_

theorem keeps_dropExit {z0 : State} (s : State) (qs : List Nat) (h0 : Keeps z0 s) :
    Keeps z0 (State.dropExit s qs) := by
  unfold State.dropExit
  repeat' first
    | with_reducible assumption
    | with_reducible apply keeps_sinksRest
    | with_reducible apply keeps_foldl
    | split
    | with_reducible refine keeps_mk ?_

theorem keeps_shutdown {z0 : State} (s : State) (h0 : Keeps z0 s) :
    Keeps z0 (State.shutdown s) := by
  unfold State.shutdown
  repeat' first
    | with_reducible assumption
    | (extract_lets +onlyGivenNames x; refine keeps_step (a := z0) (s := x) ?_ (fun hx => ?_); subst x; rotate_left; clear_value x; rotate_left)
    | (extract_lets +onlyGivenNames x; clear_value x)
    | with_reducible apply keeps_shutLinks
    | with_reducible apply keeps_dropTransport
    | with_reducible apply keeps_railsDown
    | with_reducible apply keeps_dropExit
    | with_reducible apply keeps_foldl
    | split

theorem keeps_decideExit {z0 : State} (s : State) (h0 : Keeps z0 s) :
    Keeps z0 (State.decideExit s) := by
  unfold State.decideExit
  repeat' first
    | with_reducible assumption
    | with_reducible apply keeps_sinksRest
    | with_reducible apply keeps_foldl
    | split
    | with_reducible refine keeps_mk ?_

theorem keeps_ends {z0 : State} (s : State) (h0 : Keeps z0 s) :
    KeepsX z0 (State.ends s) := by
  unfold State.ends
  repeat' first
    | with_reducible assumption
    | with_reducible intro _
    | with_reducible apply keeps_done
    | with_reducible apply keeps_deliverLocal
    | with_reducible apply keeps_shutdown
    | with_reducible apply keeps_decideExit
    | with_reducible apply keeps_fst
    | with_reducible apply h0
    | with_reducible apply hf
    | with_reducible apply keepsX_next
    | with_reducible apply keepsP_mk
    | (with_reducible refine keeps_of_pair ‹_ = (_, _)› ?_)
    | with_reducible refine keeps_mk ?_
    | with_reducible apply keeps_refl

end Sys2Proof.Machine
end

