-- ==== Sys2Proof/Laws/KeepsWork.lean ====
section
/-! SUPPORT. Keeps for the definitions of Machine/: admission, beats, images, clocks, power and boot. -/
namespace Sys2Proof.Machine
set_option linter.unusedVariables false
set_option linter.tactic.unusedName false

/-! ### Machine/Admit.lean -/

theorem keeps_zeroRange {z0 : State} (s : State) (a : Nat) (n : Nat) (h0 : Keeps z0 s) :
    Keeps z0 (State.zeroRange s a n) := by
  unfold State.zeroRange
  repeat' first
    | with_reducible assumption
    | with_reducible intro _
    | (extract_lets +onlyGivenNames x; refine keeps_step (a := z0) (s := x) ?_ (fun hx => ?_); subst x; rotate_left; clear_value x; rotate_left)
    | (extract_lets +onlyGivenNames x; clear_value x)
    | with_reducible apply keeps_setStn
    | split
    | with_reducible refine keeps_mkMem ?_ ?_
    | exact smapWf_filter _ (by assumption)

theorem keeps_zeroArea {z0 : State} (s : State) (x : Area) (h0 : Keeps z0 s) :
    Keeps z0 (State.zeroArea s x) := by
  unfold State.zeroArea
  repeat' first
    | with_reducible assumption
    | with_reducible intro _
    | with_reducible apply keeps_zeroRange
    | with_reducible apply keeps_foldl

theorem keeps_releaseArea {z0 : State} (s : State) (x : Area) (h0 : Keeps z0 s) :
    Keeps z0 (State.releaseArea s x) := by
  unfold State.releaseArea
  repeat' first
    | with_reducible assumption
    | with_reducible intro _
    | (extract_lets +onlyGivenNames x; refine keeps_step (a := z0) (s := x) ?_ (fun hx => ?_); subst x; rotate_left; clear_value x; rotate_left)
    | (extract_lets +onlyGivenNames x; clear_value x)
    | with_reducible apply keeps_setStn
    | with_reducible apply keeps_foldl
    | split
    | with_reducible refine keeps_mk ?_

theorem keeps_settleLeaving {z0 : State} (s : State) (h0 : Keeps z0 s) :
    Keeps z0 (State.settleLeaving s) := by
  unfold State.settleLeaving
  repeat' first
    | with_reducible assumption
    | with_reducible apply keeps_releaseArea
    | with_reducible apply keeps_foldl
    | with_reducible refine keeps_mk ?_

theorem keeps_emptyEntry {z0 : State} (s : State) (e : Nat) (h0 : Keeps z0 s) :
    Keeps z0 (State.emptyEntry s e) := by
  unfold State.emptyEntry
  repeat' first
    | with_reducible assumption
    | with_reducible intro _
    | (extract_lets +onlyGivenNames x; refine keeps_step (a := z0) (s := x) ?_ (fun hx => ?_); subst x; rotate_left; clear_value x; rotate_left)
    | (extract_lets +onlyGivenNames x; clear_value x)
    | with_reducible apply keeps_setEntry
    | with_reducible apply keeps_releaseArea
    | with_reducible apply keeps_foldl
    | with_reducible refine keeps_mk ?_

theorem keeps_answerWait {z0 : State} (s : State) (kind : Nat) (key : Nat) (r : DResult) (h0 : Keeps z0 s) :
    Keeps z0 (State.answerWait s kind key r) := by
  unfold State.answerWait
  repeat' first
    | with_reducible assumption
    | (extract_lets +onlyGivenNames x; clear_value x)
    | split
    | with_reducible refine keeps_mk ?_

theorem keeps_noteRefused {z0 : State} (s : State) (e : Nat) (code : Nat) (detail : Nat) (tenant : Nat) (h0 : Keeps z0 s) :
    Keeps z0 (State.noteRefused s e code detail tenant) := by
  unfold State.noteRefused
  repeat' first
    | with_reducible assumption
    | (extract_lets +onlyGivenNames x; clear_value x)
    | with_reducible apply keeps_log
    | with_reducible refine keeps_mk ?_

theorem keeps_admitRefuse {z0 : State} (s : State) (e : Nat) (code : Nat) (detail : Nat) (h0 : Keeps z0 s) :
    Keeps z0 (State.admitRefuse s e code detail) := by
  unfold State.admitRefuse
  repeat' first
    | with_reducible assumption
    | (extract_lets +onlyGivenNames x; clear_value x)
    | with_reducible apply keeps_emptyEntry
    | with_reducible apply keeps_answerWait
    | with_reducible apply keeps_noteRefused

theorem keeps_loadBundles {z0 : State} (s : State) (e : Nat) (h0 : Keeps z0 s) :
    Keeps z0 (State.loadBundles s e) := by
  unfold State.loadBundles
  repeat' first
    | with_reducible assumption
    | with_reducible intro _
    | (extract_lets +onlyGivenNames x; clear_value x)
    | with_reducible apply keeps_setRange
    | with_reducible apply keeps_foldl

theorem keeps_seamLoads {z0 : State} (s : State) (q : Nat) (h0 : Keeps z0 s) :
    Keeps z0 (State.seamLoads s q) := by
  unfold State.seamLoads
  repeat' first
    | with_reducible assumption
    | with_reducible intro _
    | (extract_lets +onlyGivenNames x; refine keeps_step (a := z0) (s := x) ?_ (fun hx => ?_); subst x; rotate_left; clear_value x; rotate_left)
    | (extract_lets +onlyGivenNames x; clear_value x)
    | with_reducible apply keeps_setHob
    | with_reducible apply keeps_setGate
    | with_reducible apply keeps_setStn
    | with_reducible apply keeps_foldl
    | split

theorem keeps_takeFaults {z0 : State} (s : State) (q : Nat) (a : TraceRes) (h0 : Keeps z0 s) :
    KeepsP z0 (State.takeFaults s q a) := by
  unfold State.takeFaults
  repeat' first
    | with_reducible assumption
    | (extract_lets +onlyGivenNames x; clear_value x)
    | with_reducible apply keeps_setRange
    | with_reducible apply keepsP_mk

theorem keeps_traceStart {z0 : State} (s : State) (e : Nat) (q : Nat) (g : Nat) (ph : Nat) (h0 : Keeps z0 s) :
    Keeps z0 (State.traceStart s e q g ph) := by
  unfold State.traceStart
  repeat' first
    | with_reducible assumption
    | with_reducible intro _
    | with_reducible apply keeps_setHob
    | with_reducible apply keeps_setRange
    | with_reducible apply keeps_setGate
    | with_reducible apply keeps_select
    | with_reducible apply keeps_startBeat
    | with_reducible apply keeps_loadBundles
    | with_reducible apply keeps_seamLoads
    | with_reducible apply keeps_foldl
    | with_reducible refine keeps_mk ?_

theorem keeps_admission {z0 : State} (s : State) (h0 : Keeps z0 s) :
    Keeps z0 (State.admission s) := by
  unfold State.admission
  repeat' first
    | with_reducible assumption
    | with_reducible intro _
    | with_reducible apply keeps_setEntry
    | with_reducible apply keeps_feedLoads
    | with_reducible apply keeps_zeroArea
    | with_reducible apply keeps_answerWait
    | with_reducible apply keeps_admitRefuse
    | with_reducible apply keeps_foldl
    | split
    | with_reducible refine keeps_mk ?_

theorem keeps_entryResident {z0 : State} (s : State) (e : Nat) (h0 : Keeps z0 s) :
    Keeps z0 (State.entryResident s e) := by
  unfold State.entryResident
  repeat' first
    | with_reducible assumption
    | (extract_lets +onlyGivenNames x; clear_value x)
    | with_reducible apply keeps_entryReady
    | split

theorem keeps_entryLeaves {z0 : State} (s : State) (e : Nat) (h0 : Keeps z0 s) :
    Keeps z0 (State.entryLeaves s e) := by
  unfold State.entryLeaves
  repeat' first
    | with_reducible assumption
    | (extract_lets +onlyGivenNames x; clear_value x)
    | with_reducible apply keeps_emptyEntry
    | split

/-! ### Machine/Beats.lean -/

theorem keeps_sampleTemp {z0 : State} (s : State) (group : Nat) (t : Int) (h0 : Keeps z0 s) :
    Keeps z0 (State.sampleTemp s group t) := by
  unfold State.sampleTemp
  repeat' first
    | with_reducible assumption
    | (extract_lets +onlyGivenNames x; refine keeps_step (a := z0) (s := x) ?_ (fun hx => ?_); subst x; rotate_left; clear_value x; rotate_left)
    | (extract_lets +onlyGivenNames x; clear_value x)
    | with_reducible apply keeps_log
    | split
    | with_reducible refine keeps_mk ?_

theorem keeps_decideGrade {z0 : State} (s : State) (q : Nat) (h0 : Keeps z0 s) :
    Keeps z0 (State.decideGrade s q) := by
  unfold State.decideGrade
  repeat' first
    | with_reducible assumption
    | (extract_lets +onlyGivenNames x; refine keeps_step (a := z0) (s := x) ?_ (fun hx => ?_); subst x; rotate_left; clear_value x; rotate_left)
    | (extract_lets +onlyGivenNames x; clear_value x)
    | split
    | with_reducible refine keeps_mk ?_

theorem keeps_decideVoltage {z0 : State} (s : State) (h0 : Keeps z0 s) :
    Keeps z0 (State.decideVoltage s) := by
  unfold State.decideVoltage
  repeat' first
    | with_reducible assumption
    | (extract_lets +onlyGivenNames x; refine keeps_step (a := z0) (s := x) ?_ (fun hx => ?_); subst x; rotate_left; clear_value x; rotate_left)
    | (extract_lets +onlyGivenNames x; clear_value x)
    | with_reducible apply keeps_emit
    | split
    | with_reducible refine keeps_mk ?_

theorem keeps_decideRaise {z0 : State} (s : State) (q : Nat) (h0 : Keeps z0 s) :
    Keeps z0 (State.decideRaise s q) := by
  unfold State.decideRaise
  repeat' first
    | with_reducible assumption
    | (extract_lets +onlyGivenNames x; clear_value x)
    | split
    | with_reducible refine keeps_mk ?_

theorem keeps_refreshTrims {z0 : State} (s : State) (q : Nat) (b : Int) (st : Int) (h0 : Keeps z0 s) :
    Keeps z0 (State.refreshTrims s q b st) := by
  unfold State.refreshTrims
  repeat' first
    | with_reducible assumption
    | (extract_lets +onlyGivenNames x; refine keeps_step (a := z0) (s := x) ?_ (fun hx => ?_); subst x; rotate_left; clear_value x; rotate_left)
    | (extract_lets +onlyGivenNames x; clear_value x)
    | with_reducible apply keeps_log
    | split
    | with_reducible refine keeps_mk ?_

theorem keeps_abortRange {z0 : State} (s : State) (q : Nat) (t : Nat) (h0 : Keeps z0 s) :
    KeepsP z0 (State.abortRange s q t) := by
  unfold State.abortRange
  repeat' first
    | with_reducible assumption
    | (extract_lets +onlyGivenNames x; refine keeps_step (a := z0) (s := x) ?_ (fun hx => ?_); subst x; rotate_left; clear_value x; rotate_left)
    | (extract_lets +onlyGivenNames x; clear_value x)
    | (extract_lets +onlyGivenNames x; subst x)
    | with_reducible apply keeps_clearFlags
    | with_reducible apply keeps_setEntry
    | with_reducible apply keeps_abortMovers
    | split
    | with_reducible apply keepsP_mk
    | with_reducible refine keeps_mk ?_

theorem keeps_parkAreas {z0 : State} (s : State) (t : Nat) (es : List Nat) (h0 : Keeps z0 s) :
    Keeps z0 (State.parkAreas s t es) := by
  unfold State.parkAreas
  repeat' first
    | with_reducible assumption
    | with_reducible intro _
    | (extract_lets +onlyGivenNames x; refine keeps_step (a := z0) (s := x) ?_ (fun hx => ?_); subst x; rotate_left; clear_value x; rotate_left)
    | with_reducible apply keeps_setEntry
    | with_reducible apply keeps_foldl
    | with_reducible refine keeps_mk ?_

theorem keeps_abortPart {z0 : State} (s : State) (t : Nat) (reason : Nat) (h0 : Keeps z0 s) :
    Keeps z0 (State.abortPart s t reason) := by
  unfold State.abortPart
  repeat' first
    | with_reducible assumption
    | with_reducible intro _
    | with_reducible apply keeps_clearFlags
    | with_reducible apply keeps_log
    | with_reducible apply keeps_closeChan
    | with_reducible apply keeps_abortTransport
    | with_reducible apply keeps_releaseArea
    | with_reducible apply keeps_emptyEntry
    | with_reducible apply keeps_admitRefuse
    | with_reducible apply keeps_parkAreas
    | with_reducible apply keeps_foldl
    | split
    | with_reducible refine keeps_mk ?_

theorem keeps_seamAborts {z0 : State} (s : State) (q : Nat) (h0 : Keeps z0 s) :
    KeepsP z0 (State.seamAborts s q) := by
  unfold State.seamAborts
  repeat' first
    | with_reducible assumption
    | with_reducible intro _
    | with_reducible apply keeps_abortRange
    | with_reducible apply keeps_abortPart
    | with_reducible apply keeps_foldl
    | with_reducible apply keepsP_foldl
    | with_reducible apply keeps_fst
    | with_reducible apply keepsP_mk
    | (with_reducible refine keeps_of_pair ‹_ = (_, _)› ?_)
    | with_reducible refine keeps_mk ?_

theorem keeps_toSeam {z0 : State} (s : State) (q : Nat) (h0 : Keeps z0 s) :
    Keeps z0 (State.toSeam s q) := by
  unfold State.toSeam
  repeat' first
    | with_reducible assumption
    | with_reducible intro _
    | with_reducible apply keeps_setRange
    | with_reducible apply keeps_sinkFull
    | with_reducible apply keeps_passTo
    | with_reducible apply keeps_startBeat
    | with_reducible apply keeps_bufFlush
    | with_reducible apply keeps_foldl
    | split
    | with_reducible refine keeps_mk ?_

theorem keeps_instrFaults {z0 : State} (s : State) (q : Nat) (h0 : Keeps z0 s) :
    Keeps z0 (State.instrFaults s q) := by
  unfold State.instrFaults
  repeat' first
    | with_reducible assumption
    | (extract_lets +onlyGivenNames x; clear_value x)
    | with_reducible apply keeps_setRange
    | with_reducible apply keeps_log
    | split

theorem keeps_seamStep3 {z0 : State} (s : State) (q : Nat) (h0 : Keeps z0 s) :
    KeepsP z0 (State.seamStep3 s q) := by
  unfold State.seamStep3
  repeat' first
    | with_reducible assumption
    | with_reducible intro _
    | (extract_lets +onlyGivenNames x; refine keeps_step (a := z0) (s := x) ?_ (fun hx => ?_); subst x; rotate_left; clear_value x; rotate_left)
    | with_reducible apply keeps_disableLink
    | with_reducible apply keeps_seamAborts
    | with_reducible apply keeps_foldl
    | split

theorem keeps_seamStop {z0 : State} (s : State) (q : Nat) (cal : Bool) (h0 : Keeps z0 s) :
    Keeps z0 (State.seamStop s q cal) := by
  unfold State.seamStop
  repeat' first
    | with_reducible assumption
    | with_reducible apply keeps_sinksTo
    | with_reducible apply keeps_haltQuarter
    | split
    | with_reducible refine keeps_mk ?_

theorem keeps_realign {z0 : State} (s : State) (qs : List Nat) (h0 : Keeps z0 s) :
    Keeps z0 (State.realign s qs) := by
  unfold State.realign
  repeat' first
    | with_reducible assumption
    | with_reducible refine keeps_mk ?_

theorem keeps_seamRound {z0 : State} (s : State) (qs : List Nat) (v : SeamEnv) (h0 : Keeps z0 s) :
    Keeps z0 (State.seamRound s qs v) := by
  unfold State.seamRound
  repeat' first
    | with_reducible assumption
    | with_reducible intro _
    | with_reducible apply keeps_seamRefresh
    | with_reducible apply keeps_selectionRound
    | with_reducible apply keeps_endBeat
    | with_reducible apply keeps_applyLeaving
    | with_reducible apply keeps_seamLoads
    | with_reducible apply keeps_sampleTemp
    | with_reducible apply keeps_decideGrade
    | with_reducible apply keeps_decideVoltage
    | with_reducible apply keeps_decideRaise
    | with_reducible apply keeps_refreshTrims
    | with_reducible apply keeps_toSeam
    | with_reducible apply keeps_instrFaults
    | with_reducible apply keeps_seamStep3
    | with_reducible apply keeps_seamStop
    | with_reducible apply keeps_realign
    | with_reducible apply keeps_fst
    | with_reducible apply keeps_foldl
    | with_reducible apply keepsP_foldl
    | split
    | with_reducible apply keepsP_mk
    | (with_reducible refine keeps_of_pair ‹_ = (_, _)› ?_)

theorem keeps_seamStart {z0 : State} (s : State) (mask : BitVec 4) (v : SeamEnv) (h0 : Keeps z0 s) :
    Keeps z0 (State.seamStart s mask v) := by
  unfold State.seamStart
  repeat' first
    | with_reducible assumption
    | (extract_lets +onlyGivenNames x; refine keeps_step (a := z0) (s := x) ?_ (fun hx => ?_); subst x; rotate_left; clear_value x; rotate_left)
    | (extract_lets +onlyGivenNames x; clear_value x)
    | with_reducible apply keeps_beatTick
    | with_reducible apply keeps_seamRound
    | split

theorem keeps_tick {z0 : State} (s : State) (h0 : Keeps z0 s) :
    Keeps z0 (State.tick s) := by
  unfold State.tick
  repeat' first
    | with_reducible assumption
    | with_reducible apply keeps_beatTick
    | split

theorem keeps_changeGrade {z0 : State} (s : State) (q : Nat) (h0 : Keeps z0 s) :
    Keeps z0 (State.changeGrade s q) := by
  unfold State.changeGrade
  repeat' first
    | with_reducible assumption
    | (extract_lets +onlyGivenNames x; clear_value x)
    | split
    | with_reducible refine keeps_mk ?_

theorem keeps_calibrate {z0 : State} (s : State) (q : Nat) (bridge : Nat) (station : Nat) (h0 : Keeps z0 s) :
    Keeps z0 (State.calibrate s q bridge station) := by
  unfold State.calibrate
  repeat' first
    | with_reducible assumption
    | (extract_lets +onlyGivenNames x; clear_value x)
    | with_reducible refine keeps_mk ?_

theorem keeps_holdEnds {z0 : State} (s : State) (q : Nat) (c : Nat) (h0 : Keeps z0 s) :
    Keeps z0 (State.holdEnds s q c) := by
  unfold State.holdEnds
  repeat' first
    | with_reducible assumption
    | with_reducible intro _
    | with_reducible apply keeps_setGate
    | with_reducible apply keeps_linkChanged
    | with_reducible apply keeps_resumeReplay
    | with_reducible apply keeps_foldl
    | split

theorem keeps_clockOn {z0 : State} (s : State) (q : Nat) (c : Nat) (h0 : Keeps z0 s) :
    Keeps z0 (State.clockOn s q c) := by
  unfold State.clockOn
  repeat' first
    | with_reducible assumption
    | with_reducible apply keeps_setRange
    | with_reducible apply keeps_leaveSelfref
    | with_reducible apply keeps_settleIn
    | with_reducible apply keeps_holdEnds

theorem keeps_quarterResume {z0 : State} (s : State) (q : Nat) (bridge : Nat) (station : Nat) (h0 : Keeps z0 s) :
    Keeps z0 (State.quarterResume s q bridge station) := by
  unfold State.quarterResume
  repeat' first
    | with_reducible assumption
    | with_reducible apply keeps_startBeat
    | with_reducible apply keeps_changeGrade
    | with_reducible apply keeps_calibrate
    | with_reducible apply keeps_holdEnds
    | with_reducible apply keeps_clockOn
    | split
    | with_reducible refine keeps_mk ?_

theorem keeps_simmerExit {z0 : State} (s : State) (v : SeamEnv) (trims : List (Nat × Nat)) (h0 : Keeps z0 s) :
    Keeps z0 (State.simmerExit s v trims) := by
  unfold State.simmerExit
  repeat' first
    | with_reducible assumption
    | with_reducible intro _
    | with_reducible apply keeps_setRange
    | with_reducible apply keeps_sampleTemp
    | with_reducible apply keeps_changeGrade
    | with_reducible apply keeps_calibrate
    | with_reducible apply keeps_clockOn
    | with_reducible apply keeps_foldl
    | split
    | with_reducible refine keeps_mk ?_

/-! ### Machine/BeatCmds.lean -/

theorem keeps_execSeamStart {z0 : State} (mask : BitVec 4) (v : SeamEnv) (s : State) (h0 : Keeps z0 s) :
    KeepsX z0 (execSeamStart mask v s) := by
  unfold execSeamStart
  repeat' first
    | with_reducible assumption
    | with_reducible apply keeps_ends
    | with_reducible apply keeps_seamStart

theorem keeps_execStkBeatTick {z0 : State} (s : State) (h0 : Keeps z0 s) :
    KeepsX z0 (execStkBeatTick s) := by
  unfold execStkBeatTick
  repeat' first
    | with_reducible assumption
    | with_reducible apply keeps_ends
    | with_reducible apply keeps_tick
    | split

theorem keeps_execQuarterResume {z0 : State} (q : Fin 4) (bridge : Fin 64) (station : Fin 64) (s : State) (h0 : Keeps z0 s) :
    KeepsX z0 (execQuarterResume q bridge station s) := by
  unfold execQuarterResume
  repeat' first
    | with_reducible assumption
    | with_reducible apply keeps_ends
    | with_reducible apply keeps_quarterResume

theorem keeps_execAdmission {z0 : State} (s : State) (h0 : Keeps z0 s) :
    KeepsX z0 (execAdmission s) := by
  unfold execAdmission
  repeat' first
    | with_reducible assumption
    | with_reducible apply keeps_ends
    | with_reducible apply keeps_admission
    | split

theorem keeps_execEntryResident {z0 : State} (e : Fin 1024) (s : State) (h0 : Keeps z0 s) :
    KeepsX z0 (execEntryResident e s) := by
  unfold execEntryResident
  repeat' first
    | with_reducible assumption
    | with_reducible apply keeps_ends
    | with_reducible apply keeps_entryResident
    | split

theorem keeps_execEntryRelease {z0 : State} (e : Fin 1024) (s : State) (h0 : Keeps z0 s) :
    KeepsX z0 (execEntryRelease e s) := by
  unfold execEntryRelease
  repeat' first
    | with_reducible assumption
    | with_reducible apply keeps_ends
    | with_reducible apply keeps_entryLeaves
    | split

theorem keeps_execSimmerExit {z0 : State} (v : SeamEnv) (trims : List (Nat × Nat)) (s : State) (h0 : Keeps z0 s) :
    KeepsX z0 (execSimmerExit v trims s) := by
  unfold execSimmerExit
  repeat' first
    | with_reducible assumption
    | with_reducible apply keeps_ends
    | with_reducible apply keeps_simmerExit

/-! ### Machine/Image.lean -/

theorem keeps_applyImage {z0 : State} (s : State) (rs : List (Nat × Bytes)) (h0 : Keeps z0 s) :
    Keeps z0 (State.applyImage s rs) := by
  unfold State.applyImage
  repeat' first
    | with_reducible assumption
    | with_reducible intro _
    | (extract_lets +onlyGivenNames x; refine keeps_step (a := z0) (s := x) ?_ (fun hx => ?_); subst x; rotate_left; clear_value x; rotate_left)
    | (extract_lets +onlyGivenNames x; clear_value x)
    | with_reducible apply keeps_setHob
    | with_reducible apply keeps_setRange
    | with_reducible apply keeps_setGate
    | with_reducible apply keeps_foldl
    | with_reducible refine keeps_mk ?_

/-! ### Machine/Clocks.lean -/

theorem keeps_decideChange {z0 : State} (s : State) (k : Nat) (h0 : Keeps z0 s) :
    Keeps z0 (State.decideChange s k) := by
  unfold State.decideChange
  repeat' first
    | with_reducible assumption
    | (extract_lets +onlyGivenNames x; clear_value x)
    | split
    | with_reducible refine keeps_mk ?_

theorem keeps_judgeHoldover {z0 : State} (s : State) (h0 : Keeps z0 s) :
    Keeps z0 (State.judgeHoldover s) := by
  unfold State.judgeHoldover
  repeat' first
    | with_reducible assumption
    | with_reducible apply keeps_decideChange
    | split

theorem keeps_refLost {z0 : State} (s : State) (r : Nat) (h0 : Keeps z0 s) :
    Keeps z0 (State.refLost s r) := by
  unfold State.refLost
  repeat' first
    | with_reducible assumption
    | (extract_lets +onlyGivenNames x; refine keeps_step (a := z0) (s := x) ?_ (fun hx => ?_); subst x; rotate_left; clear_value x; rotate_left)
    | (extract_lets +onlyGivenNames x; clear_value x)
    | with_reducible apply keeps_log
    | with_reducible apply keeps_judgeHoldover
    | split
    | with_reducible refine keeps_mk ?_

theorem keeps_refBack {z0 : State} (s : State) (r : Nat) (h0 : Keeps z0 s) :
    Keeps z0 (State.refBack s r) := by
  unfold State.refBack
  repeat' first
    | with_reducible assumption
    | (extract_lets +onlyGivenNames x; clear_value x)
    | with_reducible apply keeps_judgeHoldover
    | split
    | with_reducible refine keeps_mk ?_

theorem keeps_judgeWitness {z0 : State} (s : State) (k : Nat) (off : Option Int) (h0 : Keeps z0 s) :
    Keeps z0 (State.judgeWitness s k off) := by
  unfold State.judgeWitness
  repeat' first
    | with_reducible assumption
    | (extract_lets +onlyGivenNames x; refine keeps_step (a := z0) (s := x) ?_ (fun hx => ?_); subst x; rotate_left; clear_value x; rotate_left)
    | (extract_lets +onlyGivenNames x; clear_value x)
    | with_reducible apply keeps_log
    | split
    | with_reducible refine keeps_mk ?_

theorem keeps_witnessWindow {z0 : State} (s : State) (alt : Option Int) (ppm : List (Nat × Int)) (h0 : Keeps z0 s) :
    Keeps z0 (State.witnessWindow s alt ppm) := by
  unfold State.witnessWindow
  repeat' first
    | with_reducible assumption
    | with_reducible intro _
    | (extract_lets +onlyGivenNames x; clear_value x)
    | (extract_lets +onlyGivenNames x; subst x)
    | with_reducible apply keeps_setGate
    | with_reducible apply keeps_decideChange
    | with_reducible apply keeps_judgeWitness
    | with_reducible apply keeps_foldl
    | split
    | with_reducible refine keeps_mk ?_

theorem keeps_changeover {z0 : State} (s : State) (trims : List (Fin 64 × Fin 64)) (h0 : Keeps z0 s) :
    Keeps z0 (State.changeover s trims) := by
  unfold State.changeover
  repeat' first
    | with_reducible assumption
    | with_reducible intro _
    | (extract_lets +onlyGivenNames x; refine keeps_step (a := z0) (s := x) ?_ (fun hx => ?_); subst x; rotate_left; clear_value x; rotate_left)
    | (extract_lets +onlyGivenNames x; refine keeps_stepF (a := z0) (f := x) ?_ (fun hf => ?_); intro _ _; subst x; rotate_left; clear_value x; rotate_left)
    | (extract_lets +onlyGivenNames x; refine keeps_stepF2 (a := z0) (f := x) ?_ (fun hf => ?_); intro _ _ _; subst x; rotate_left; clear_value x; rotate_left)
    | (extract_lets +onlyGivenNames x; clear_value x)
    | with_reducible apply keeps_log
    | with_reducible apply keeps_fatalStop
    | with_reducible apply keeps_calibrate
    | with_reducible apply keeps_judgeHoldover
    | with_reducible apply keeps_fst
    | with_reducible apply h0
    | with_reducible apply hf
    | with_reducible apply keeps_foldl
    | with_reducible apply keepsP_foldl
    | split
    | with_reducible apply keepsP_mk
    | with_reducible apply keeps_getD
    | (with_reducible refine keeps_of_pair ‹_ = (_, _)› ?_)
    | with_reducible refine keeps_mk ?_
    | with_reducible apply keeps_refl

theorem keeps_execWitnessWindow {z0 : State} (alt : Option Int) (ppm : List (Nat × Int)) (s : State) (h0 : Keeps z0 s) :
    KeepsX z0 (execWitnessWindow alt ppm s) := by
  unfold execWitnessWindow
  repeat' first
    | with_reducible assumption
    | with_reducible apply keeps_ends
    | with_reducible apply keeps_witnessWindow

theorem keeps_execChangeover {z0 : State} (trims : List (Fin 64 × Fin 64)) (s : State) (h0 : Keeps z0 s) :
    KeepsX z0 (execChangeover trims s) := by
  unfold execChangeover
  repeat' first
    | with_reducible assumption
    | with_reducible apply keeps_ends
    | with_reducible apply keeps_changeover

theorem keeps_execReferenceLost {z0 : State} (r : Fin 2) (s : State) (h0 : Keeps z0 s) :
    KeepsX z0 (execReferenceLost r s) := by
  unfold execReferenceLost
  repeat' first
    | with_reducible assumption
    | with_reducible apply keeps_ends
    | with_reducible apply keeps_refLost

theorem keeps_execReferencePresent {z0 : State} (r : Fin 2) (s : State) (h0 : Keeps z0 s) :
    KeepsX z0 (execReferencePresent r s) := by
  unfold execReferencePresent
  repeat' first
    | with_reducible assumption
    | with_reducible apply keeps_ends
    | with_reducible apply keeps_refBack

/-! ### Machine/Power.lean -/

theorem keeps_powerFault {z0 : State} (s : State) (cause : Nat) (h0 : Keeps z0 s) :
    Keeps z0 (State.powerFault s cause) := by
  unfold State.powerFault
  repeat' first
    | with_reducible assumption
    | with_reducible intro _
    | (extract_lets +onlyGivenNames x; refine keeps_step (a := z0) (s := x) ?_ (fun hx => ?_); subst x; rotate_left; clear_value x; rotate_left)
    | with_reducible apply keeps_log
    | with_reducible apply keeps_sinksTo
    | with_reducible apply keeps_foldl
    | split
    | with_reducible refine keeps_mk ?_

theorem keeps_avsPoll {z0 : State} (s : State) (slaveAck : Nat) (vdone : Bool) (mv : Nat) (h0 : Keeps z0 s) :
    Keeps z0 (State.avsPoll s slaveAck vdone mv) := by
  unfold State.avsPoll
  repeat' first
    | with_reducible assumption
    | (extract_lets +onlyGivenNames x; refine keeps_step (a := z0) (s := x) ?_ (fun hx => ?_); subst x; rotate_left; clear_value x; rotate_left)
    | (extract_lets +onlyGivenNames x; clear_value x)
    | with_reducible apply keeps_powerFault
    | split
    | with_reducible refine keeps_mk ?_

theorem keeps_avsTimeout {z0 : State} (s : State) (h0 : Keeps z0 s) :
    Keeps z0 (State.avsTimeout s) := by
  unfold State.avsTimeout
  repeat' first
    | with_reducible assumption
    | with_reducible apply keeps_timed
    | with_reducible apply keeps_powerFault
    | split

theorem keeps_readAlert {z0 : State} (s : State) (dev : Nat) (w : BitVec 16) (h0 : Keeps z0 s) :
    Keeps z0 (State.readAlert s dev w) := by
  unfold State.readAlert
  repeat' first
    | with_reducible assumption
    | with_reducible intro _
    | with_reducible apply keeps_emit
    | with_reducible apply keeps_log
    | with_reducible apply keeps_partFatal
    | with_reducible apply keeps_powerFault
    | with_reducible apply keeps_foldl
    | split
    | with_reducible refine keeps_mk ?_

theorem keeps_pmbusNak {z0 : State} (s : State) (dev : Nat) (k : Nat) (h0 : Keeps z0 s) :
    Keeps z0 (State.pmbusNak s dev k) := by
  unfold State.pmbusNak
  repeat' first
    | with_reducible assumption
    | with_reducible apply keeps_powerFault
    | split
    | with_reducible refine keeps_mk ?_

theorem keeps_alertReading {z0 : State} (s : State) (dev : Nat) (w : BitVec 16) (ack : Bool) (still : Bool) (h0 : Keeps z0 s) :
    Keeps z0 (State.alertReading s dev w ack still) := by
  unfold State.alertReading
  repeat' first
    | with_reducible assumption
    | with_reducible apply keeps_emit
    | with_reducible apply keeps_readAlert
    | with_reducible apply keeps_pmbusNak
    | split
    | with_reducible refine keeps_mk ?_

theorem keeps_damperStep {z0 : State} (s : State) (k : Nat) (h0 : Keeps z0 s) :
    Keeps z0 (State.damperStep s k) := by
  unfold State.damperStep
  repeat' first
    | with_reducible assumption
    | with_reducible apply keeps_setSink

theorem keeps_thermTrip {z0 : State} (s : State) (t : Int) (h0 : Keeps z0 s) :
    Keeps z0 (State.thermTrip s t) := by
  unfold State.thermTrip
  repeat' first
    | with_reducible assumption
    | (extract_lets +onlyGivenNames x; clear_value x)
    | split
    | with_reducible refine keeps_mk ?_

theorem keeps_serviceFails {z0 : State} (s : State) (h0 : Keeps z0 s) :
    Keeps z0 (State.serviceFails s) := by
  unfold State.serviceFails
  repeat' first
    | with_reducible assumption
    | (extract_lets +onlyGivenNames x; refine keeps_step (a := z0) (s := x) ?_ (fun hx => ?_); subst x; rotate_left; clear_value x; rotate_left)
    | (extract_lets +onlyGivenNames x; clear_value x)
    | with_reducible apply keeps_partFatal
    | split
    | with_reducible refine keeps_mk ?_

theorem keeps_execAvsAck {z0 : State} (slaveAck : Fin 4) (vdone : Bool) (mv : Nat) (s : State) (h0 : Keeps z0 s) :
    KeepsX z0 (execAvsAck slaveAck vdone mv s) := by
  unfold execAvsAck
  repeat' first
    | with_reducible assumption
    | with_reducible apply keeps_ends
    | with_reducible apply keeps_avsPoll

theorem keeps_execAvsAckTimeout {z0 : State} (s : State) (h0 : Keeps z0 s) :
    KeepsX z0 (execAvsAckTimeout s) := by
  unfold execAvsAckTimeout
  repeat' first
    | with_reducible assumption
    | with_reducible apply keeps_ends
    | with_reducible apply keeps_avsTimeout

theorem keeps_execIrailRead {z0 : State} (amps : Fin 1024) (s : State) (h0 : Keeps z0 s) :
    KeepsX z0 (execIrailRead amps s) := by
  unfold execIrailRead
  repeat' first
    | with_reducible assumption
    | with_reducible apply keeps_timed
    | with_reducible apply keeps_ends
    | split
    | with_reducible refine keeps_mk ?_

theorem keeps_execDamperStep {z0 : State} (k : Fin 36) (s : State) (h0 : Keeps z0 s) :
    KeepsX z0 (execDamperStep k s) := by
  unfold execDamperStep
  repeat' first
    | with_reducible assumption
    | with_reducible apply keeps_ends
    | with_reducible apply keeps_damperStep

theorem keeps_execSmbalert {z0 : State} (dev : Fin 8) (w : BitVec 16) (ack : Bool) (still : Bool) (s : State) (h0 : Keeps z0 s) :
    KeepsX z0 (execSmbalert dev w ack still s) := by
  unfold execSmbalert
  repeat' first
    | with_reducible assumption
    | with_reducible apply keeps_ends
    | with_reducible apply keeps_alertReading

theorem keeps_execSmbalertRepeat {z0 : State} (dev : Fin 8) (w : BitVec 16) (ack : Bool) (still : Bool) (s : State) (h0 : Keeps z0 s) :
    KeepsX z0 (execSmbalertRepeat dev w ack still s) := by
  unfold execSmbalertRepeat
  repeat' first
    | with_reducible assumption
    | with_reducible apply keeps_timed
    | with_reducible apply keeps_ends
    | with_reducible apply keeps_alertReading
    | split

theorem keeps_execThermtrip {z0 : State} (_g : Fin 5) (t : Int) (s : State) (h0 : Keeps z0 s) :
    KeepsX z0 (execThermtrip _g t s) := by
  unfold execThermtrip
  repeat' first
    | with_reducible assumption
    | with_reducible apply keeps_ends
    | with_reducible apply keeps_thermTrip

theorem keeps_execWatchdog {z0 : State} (s : State) (h0 : Keeps z0 s) :
    KeepsX z0 (execWatchdog s) := by
  unfold execWatchdog
  repeat' first
    | with_reducible assumption
    | with_reducible apply keeps_ends
    | with_reducible apply keeps_serviceFails

theorem keeps_execServiceCoreError {z0 : State} (s : State) (h0 : Keeps z0 s) :
    KeepsX z0 (execServiceCoreError s) := by
  unfold execServiceCoreError
  repeat' first
    | with_reducible assumption
    | with_reducible apply keeps_ends
    | with_reducible apply keeps_serviceFails

/-! ### Machine/EthCmds.lean -/

theorem keeps_countRx {z0 : State} (s : State) (i : Nat) (h0 : Keeps z0 s) :
    Keeps z0 (State.countRx s i) := by
  unfold State.countRx
  repeat' first
    | with_reducible assumption
    | (extract_lets +onlyGivenNames x; clear_value x)
    | with_reducible apply keeps_setIface

theorem keeps_dropHeader {z0 : State} (s : State) (h0 : Keeps z0 s) :
    Keeps z0 (State.dropHeader s) := by
  unfold State.dropHeader
  repeat' first
    | with_reducible assumption
    | (extract_lets +onlyGivenNames x; clear_value x)
    | with_reducible refine keeps_mk ?_

theorem keeps_bfPacket {z0 : State} (s : State) (i : Nat) (b : Bytes) (fcsOk : Bool) (opc : Nat) (k : State → BfPkt → State) (h0 : Keeps z0 s) (h1 : ∀ (y0 : State) (y1 : BfPkt), Keeps z0 y0 → Keeps z0 (k y0 y1)) :
    Keeps z0 (State.bfPacket s i b fcsOk opc k) := by
  unfold State.bfPacket
  repeat' first
    | with_reducible assumption
    | (extract_lets +onlyGivenNames x; refine keeps_step (a := z0) (s := x) ?_ (fun hx => ?_); subst x; rotate_left; clear_value x; rotate_left)
    | with_reducible apply keeps_countRx
    | with_reducible apply keeps_dropHeader
    | with_reducible apply h1
    | split

theorem keeps_execBfSend {z0 : State} (i : Fin 4) (frame : Bytes) (fcsOk : Bool) (s : State) (h0 : Keeps z0 s) :
    KeepsX z0 (execBfSend i frame fcsOk s) := by
  unfold execBfSend
  repeat' first
    | with_reducible assumption
    | with_reducible intro _
    | with_reducible apply keeps_rxSend
    | with_reducible apply keeps_ends
    | with_reducible apply keeps_bfPacket

theorem keeps_execBfPut {z0 : State} (i : Fin 4) (frame : Bytes) (fcsOk : Bool) (s : State) (h0 : Keeps z0 s) :
    KeepsX z0 (execBfPut i frame fcsOk s) := by
  unfold execBfPut
  repeat' first
    | with_reducible assumption
    | with_reducible intro _
    | with_reducible apply keeps_rxPut
    | with_reducible apply keeps_ends
    | with_reducible apply keeps_bfPacket

theorem keeps_execBfGet {z0 : State} (i : Fin 4) (frame : Bytes) (fcsOk : Bool) (s : State) (h0 : Keeps z0 s) :
    KeepsX z0 (execBfGet i frame fcsOk s) := by
  unfold execBfGet
  repeat' first
    | with_reducible assumption
    | with_reducible intro _
    | with_reducible apply keeps_rxGet
    | with_reducible apply keeps_ends
    | with_reducible apply keeps_bfPacket

theorem keeps_execGetrsp {z0 : State} (i : Fin 4) (frame : Bytes) (fcsOk : Bool) (s : State) (h0 : Keeps z0 s) :
    KeepsX z0 (execGetrsp i frame fcsOk s) := by
  unfold execGetrsp
  repeat' first
    | with_reducible assumption
    | with_reducible intro _
    | with_reducible apply keeps_rxGetrsp
    | with_reducible apply keeps_ends
    | with_reducible apply keeps_bfPacket

theorem keeps_execBfFlush {z0 : State} (i : Fin 4) (frame : Bytes) (fcsOk : Bool) (s : State) (h0 : Keeps z0 s) :
    KeepsX z0 (execBfFlush i frame fcsOk s) := by
  unfold execBfFlush
  repeat' first
    | with_reducible assumption
    | with_reducible intro _
    | with_reducible apply keeps_rxFlush
    | with_reducible apply keeps_ends
    | with_reducible apply keeps_bfPacket

theorem keeps_execBfChpost {z0 : State} (i : Fin 4) (frame : Bytes) (fcsOk : Bool) (s : State) (h0 : Keeps z0 s) :
    KeepsX z0 (execBfChpost i frame fcsOk s) := by
  unfold execBfChpost
  repeat' first
    | with_reducible assumption
    | with_reducible intro _
    | with_reducible apply keeps_rxChpost
    | with_reducible apply keeps_ends
    | with_reducible apply keeps_bfPacket

theorem keeps_execAck {z0 : State} (i : Fin 4) (frame : Bytes) (fcsOk : Bool) (s : State) (h0 : Keeps z0 s) :
    KeepsX z0 (execAck i frame fcsOk s) := by
  unfold execAck
  repeat' first
    | with_reducible assumption
    | with_reducible intro _
    | with_reducible apply keeps_rxAck
    | with_reducible apply keeps_ends
    | with_reducible apply keeps_bfPacket

theorem keeps_execConnect {z0 : State} (i : Fin 4) (frame : Bytes) (fcsOk : Bool) (s : State) (h0 : Keeps z0 s) :
    KeepsX z0 (execConnect i frame fcsOk s) := by
  unfold execConnect
  repeat' first
    | with_reducible assumption
    | with_reducible intro _
    | with_reducible apply keeps_rxConnect
    | with_reducible apply keeps_ends
    | with_reducible apply keeps_bfPacket

theorem keeps_execAccept {z0 : State} (i : Fin 4) (frame : Bytes) (fcsOk : Bool) (s : State) (h0 : Keeps z0 s) :
    KeepsX z0 (execAccept i frame fcsOk s) := by
  unfold execAccept
  repeat' first
    | with_reducible assumption
    | with_reducible intro _
    | with_reducible apply keeps_rxAccept
    | with_reducible apply keeps_ends
    | with_reducible apply keeps_bfPacket

theorem keeps_execArpRequest {z0 : State} (i : Fin 4) (frame : Bytes) (fcsOk : Bool) (s : State) (h0 : Keeps z0 s) :
    KeepsX z0 (execArpRequest i frame fcsOk s) := by
  unfold execArpRequest
  repeat' first
    | with_reducible assumption
    | with_reducible apply keeps_ethSend
    | with_reducible apply keeps_ends
    | with_reducible apply keeps_countRx
    | split

theorem keeps_execNeighbourSolicitation {z0 : State} (i : Fin 4) (frame : Bytes) (fcsOk : Bool) (s : State) (h0 : Keeps z0 s) :
    KeepsX z0 (execNeighbourSolicitation i frame fcsOk s) := by
  unfold execNeighbourSolicitation
  repeat' first
    | with_reducible assumption
    | with_reducible apply keeps_ethSend
    | with_reducible apply keeps_ends
    | with_reducible apply keeps_countRx
    | split

theorem keeps_execEchoRequest {z0 : State} (i : Fin 4) (frame : Bytes) (fcsOk : Bool) (s : State) (h0 : Keeps z0 s) :
    KeepsX z0 (execEchoRequest i frame fcsOk s) := by
  unfold execEchoRequest
  repeat' first
    | with_reducible assumption
    | with_reducible apply keeps_ethSend
    | with_reducible apply keeps_ends
    | with_reducible apply keeps_countRx
    | split

theorem keeps_execPauseFrame {z0 : State} (i : Fin 4) (frame : Bytes) (fcsOk : Bool) (s : State) (h0 : Keeps z0 s) :
    KeepsX z0 (execPauseFrame i frame fcsOk s) := by
  unfold execPauseFrame
  repeat' first
    | with_reducible assumption
    | (extract_lets +onlyGivenNames x; refine keeps_step (a := z0) (s := x) ?_ (fun hx => ?_); subst x; rotate_left; clear_value x; rotate_left)
    | (extract_lets +onlyGivenNames x; clear_value x)
    | with_reducible apply keeps_setIface
    | with_reducible apply keeps_ends
    | with_reducible apply keeps_countRx
    | split

theorem keeps_execReceivedFrame {z0 : State} (i : Fin 4) (frame : Bytes) (fcsOk : Bool) (s : State) (h0 : Keeps z0 s) :
    KeepsX z0 (execReceivedFrame i frame fcsOk s) := by
  unfold execReceivedFrame
  repeat' first
    | with_reducible assumption
    | (extract_lets +onlyGivenNames x; refine keeps_step (a := z0) (s := x) ?_ (fun hx => ?_); subst x; rotate_left; clear_value x; rotate_left)
    | (extract_lets +onlyGivenNames x; clear_value x)
    | with_reducible apply keeps_setIface
    | with_reducible apply keeps_ends
    | with_reducible apply keeps_countRx
    | with_reducible apply keeps_dropHeader
    | split

/-! ### Machine/Boot.lean -/

theorem keeps_settleBurn {z0 : State} (s : State) (h0 : Keeps z0 s) :
    Keeps z0 (State.settleBurn s) := by
  unfold State.settleBurn
  repeat' first
    | with_reducible assumption
    | (extract_lets +onlyGivenNames x; clear_value x)
    | split
    | with_reducible refine keeps_mk ?_

theorem keeps_bootStep1 {z0 : State} (s : State) (h0 : Keeps z0 s) :
    Keeps z0 (State.bootStep1 s) := by
  unfold State.bootStep1
  repeat' first
    | with_reducible assumption
    | (extract_lets +onlyGivenNames x; refine keeps_step (a := z0) (s := x) ?_ (fun hx => ?_); subst x; rotate_left; clear_value x; rotate_left)
    | (extract_lets +onlyGivenNames x; clear_value x)
    | with_reducible apply keeps_settleBurn
    | with_reducible refine keeps_mk ?_

theorem keeps_readFlash {z0 : State} (s : State) (f : Flash) (h0 : Keeps z0 s) :
    KeepsP z0 (State.readFlash s f) := by
  unfold State.readFlash
  repeat' first
    | with_reducible assumption
    | (extract_lets +onlyGivenNames x; refine keeps_step (a := z0) (s := x) ?_ (fun hx => ?_); subst x; rotate_left; clear_value x; rotate_left)
    | (extract_lets +onlyGivenNames x; clear_value x)
    | with_reducible apply keeps_log
    | split
    | with_reducible apply keepsP_mk
    | with_reducible refine keeps_mk ?_

theorem keeps_bootStep3 {z0 : State} (s : State) (f : Flash) (h0 : Keeps z0 s) :
    Keeps z0 (State.bootStep3 s f) := by
  unfold State.bootStep3
  repeat' first
    | with_reducible assumption
    | (extract_lets +onlyGivenNames x; refine keeps_step (a := z0) (s := x) ?_ (fun hx => ?_); subst x; rotate_left; clear_value x; rotate_left)
    | (extract_lets +onlyGivenNames x; clear_value x)
    | with_reducible apply keeps_log
    | with_reducible apply keeps_applyImage
    | with_reducible apply keeps_readFlash
    | split
    | (with_reducible refine keeps_of_pair ‹_ = (_, _)› ?_)
    | with_reducible refine keeps_mk ?_

theorem keeps_bootStep4 {z0 : State} (s : State) (v : BootEnv) (h0 : Keeps z0 s) :
    Keeps z0 (State.bootStep4 s v) := by
  unfold State.bootStep4
  repeat' first
    | with_reducible assumption
    | with_reducible intro _
    | (extract_lets +onlyGivenNames x; refine keeps_stepF2 (a := z0) (f := x) ?_ (fun hf => ?_); intro _ _ _; subst x; rotate_left; clear_value x; rotate_left)
    | (extract_lets +onlyGivenNames x; refine keeps_step (a := z0) (s := x) ?_ (fun hx => ?_); subst x; rotate_left; clear_value x; rotate_left)
    | (extract_lets +onlyGivenNames x; clear_value x)
    | with_reducible apply keeps_log
    | with_reducible apply keeps_sinkFull
    | with_reducible apply keeps_calibrate
    | with_reducible apply keeps_foldl
    | with_reducible apply hf
    | split
    | with_reducible refine keeps_mk ?_

theorem keeps_bootStep5 {z0 : State} (s : State) (v : BootEnv) (h0 : Keeps z0 s) :
    Keeps z0 (State.bootStep5 s v) := by
  unfold State.bootStep5
  repeat' first
    | with_reducible assumption
    | (extract_lets +onlyGivenNames x; refine keeps_step (a := z0) (s := x) ?_ (fun hx => ?_); subst x; rotate_left; clear_value x; rotate_left)
    | (extract_lets +onlyGivenNames x; clear_value x)
    | with_reducible apply keeps_emit
    | with_reducible apply keeps_powerFault
    | split
    | with_reducible refine keeps_mk ?_

theorem keeps_bootStep6 {z0 : State} (s : State) (v : BootEnv) (h0 : Keeps z0 s) :
    Keeps z0 (State.bootStep6 s v) := by
  unfold State.bootStep6
  repeat' first
    | with_reducible assumption
    | with_reducible intro _
    | with_reducible apply keeps_log
    | with_reducible apply keeps_setStn
    | with_reducible apply keeps_foldl
    | split
    | with_reducible refine keeps_mkMem ?_ ?_
    | exact smapWf_filter _ (by assumption)

theorem keeps_bootStep7 {z0 : State} (s : State) (h0 : Keeps z0 s) :
    Keeps z0 (State.bootStep7 s) := by
  unfold State.bootStep7
  repeat' first
    | with_reducible assumption
    | with_reducible intro _
    | with_reducible apply keeps_enterTrain
    | with_reducible apply keeps_foldl
    | split
    | with_reducible refine keeps_mk ?_

theorem keeps_bootStep8 {z0 : State} (s : State) (h0 : Keeps z0 s) :
    Keeps z0 (State.bootStep8 s) := by
  unfold State.bootStep8
  repeat' first
    | with_reducible assumption
    | (extract_lets +onlyGivenNames x; refine keeps_step (a := z0) (s := x) ?_ (fun hx => ?_); subst x; rotate_left; clear_value x; rotate_left)
    | (extract_lets +onlyGivenNames x; clear_value x)
    | with_reducible apply keeps_log
    | split
    | with_reducible refine keeps_mk ?_

theorem keeps_bringUp4 {z0 : State} (s : State) (v : BootEnv) (h0 : Keeps z0 s) :
    Keeps z0 (State.bringUp4 s v) := by
  unfold State.bringUp4
  repeat' first
    | with_reducible assumption
    | (extract_lets +onlyGivenNames x; refine keeps_step (a := z0) (s := x) ?_ (fun hx => ?_); subst x; rotate_left; clear_value x; rotate_left)
    | with_reducible apply keeps_bootStep4
    | with_reducible apply keeps_bootStep5
    | with_reducible apply keeps_bootStep6
    | with_reducible apply keeps_bootStep7
    | with_reducible apply keeps_bootStep8
    | split

theorem keeps_bringUp2 {z0 : State} (s : State) (v : BootEnv) (h0 : Keeps z0 s) :
    Keeps z0 (State.bringUp2 s v) := by
  unfold State.bringUp2
  repeat' first
    | with_reducible assumption
    | (extract_lets +onlyGivenNames x; refine keeps_step (a := z0) (s := x) ?_ (fun hx => ?_); subst x; rotate_left; clear_value x; rotate_left)
    | (extract_lets +onlyGivenNames x; clear_value x)
    | with_reducible apply keeps_bootStep3
    | with_reducible apply keeps_bringUp4
    | split
    | with_reducible refine keeps_mk ?_

theorem keeps_railsUp {z0 : State} (s : State) (h0 : Keeps z0 s) :
    Keeps z0 (State.railsUp s) := by
  unfold State.railsUp
  repeat' first
    | with_reducible assumption
    | (extract_lets +onlyGivenNames x; refine keeps_step (a := z0) (s := x) ?_ (fun hx => ?_); subst x; rotate_left; clear_value x; rotate_left)
    | (extract_lets +onlyGivenNames x; clear_value x)
    | with_reducible apply keeps_commandRail
    | split
    | with_reducible refine keeps_mk ?_

theorem keeps_freshTag {z0 : State} (s : State) (h0 : Keeps z0 s) :
    Keeps z0 (State.freshTag s) := by
  unfold State.freshTag
  repeat' first
    | with_reducible assumption
    | with_reducible intro _
    | with_reducible apply keeps_fst
    | with_reducible apply h0
    | with_reducible apply hf
    | (with_reducible refine keeps_of_pair ‹_ = (_, _)› ?_)
    | with_reducible refine keeps_mk ?_
    | with_reducible apply keeps_refl

theorem keeps_bringUp {z0 : State} (s : State) (v : BootEnv) (h0 : Keeps z0 s) :
    Keeps z0 (State.bringUp s v) := by
  unfold State.bringUp
  repeat' first
    | with_reducible assumption
    | (extract_lets +onlyGivenNames x; refine keeps_step (a := z0) (s := x) ?_ (fun hx => ?_); subst x; rotate_left; clear_value x; rotate_left)
    | with_reducible apply keeps_bootStep1
    | with_reducible apply keeps_bringUp2
    | with_reducible apply keeps_railsUp
    | with_reducible apply keeps_freshTag
    | split

theorem keeps_createQp0 {z0 : State} (s : State) (h0 : Keeps z0 s) :
    Keeps z0 (State.createQp0 s) := by
  unfold State.createQp0
  repeat' first
    | with_reducible assumption
    | (extract_lets +onlyGivenNames x; clear_value x)
    | with_reducible apply keeps_setQp
    | with_reducible apply keeps_sendConnect
    | with_reducible refine keeps_mk ?_

theorem keeps_ethLink {z0 : State} (s : State) (i : Nat) (up : Bool) (h0 : Keeps z0 s) :
    Keeps z0 (State.ethLink s i up) := by
  unfold State.ethLink
  repeat' first
    | with_reducible assumption
    | (extract_lets +onlyGivenNames x; refine keeps_step (a := z0) (s := x) ?_ (fun hx => ?_); subst x; rotate_left; clear_value x; rotate_left)
    | (extract_lets +onlyGivenNames x; clear_value x)
    | with_reducible apply keeps_setIface
    | with_reducible apply keeps_createQp0
    | split
    | with_reducible refine keeps_mk ?_

theorem keeps_ethWaits {z0 : State} (s : State) (h0 : Keeps z0 s) :
    Keeps z0 (State.ethWaits s) := by
  unfold State.ethWaits
  repeat' first
    | with_reducible assumption
    | (extract_lets +onlyGivenNames x; clear_value x)
    | with_reducible apply keeps_log
    | split
    | with_reducible refine keeps_mk ?_

theorem keeps_sessionRetry {z0 : State} (s : State) (h0 : Keeps z0 s) :
    Keeps z0 (State.sessionRetry s) := by
  unfold State.sessionRetry
  repeat' first
    | with_reducible assumption
    | with_reducible apply keeps_createQp0
    | split

theorem keeps_scramble {z0 : State} (s : State) (h0 : Keeps z0 s) :
    Keeps z0 (State.scramble s) := by
  unfold State.scramble
  repeat' first
    | with_reducible assumption
    | with_reducible intro _
    | (extract_lets +onlyGivenNames x; refine keeps_step (a := z0) (s := x) ?_ (fun hx => ?_); subst x; rotate_left; clear_value x; rotate_left)
    | (extract_lets +onlyGivenNames x; clear_value x)
    | with_reducible apply keeps_foldl
    | with_reducible refine keeps_mk ?_
    | with_reducible refine keeps_mkMem ?_ ?_
    | with_reducible exact writeBytes_wf (by assumption)

theorem keeps_coldAssert {z0 : State} (s : State) (h0 : Keeps z0 s) :
    Keeps z0 (State.coldAssert s) := by
  unfold State.coldAssert
  repeat' first
    | with_reducible assumption
    | (extract_lets +onlyGivenNames x; refine keeps_step (a := z0) (s := x) ?_ (fun hx => ?_); subst x; rotate_left; clear_value x; rotate_left)
    | (extract_lets +onlyGivenNames x; clear_value x)
    | with_reducible apply keeps_cleared
    | with_reducible refine keeps_mk ?_

theorem keeps_warmAssert {z0 : State} (s : State) (h0 : Keeps z0 s) :
    Keeps z0 (State.warmAssert s) := by
  unfold State.warmAssert
  repeat' first
    | with_reducible assumption
    | (extract_lets +onlyGivenNames x; refine keeps_step (a := z0) (s := x) ?_ (fun hx => ?_); subst x; rotate_left; clear_value x; rotate_left)
    | (extract_lets +onlyGivenNames x; clear_value x)
    | with_reducible apply keeps_cleared
    | with_reducible apply keeps_scramble
    | with_reducible apply keeps_stationsRest
    | split
    | with_reducible refine keeps_mk ?_

theorem keeps_coldPin {z0 : State} (s : State) (ns : Nat) (h0 : Keeps z0 s) :
    Keeps z0 (State.coldPin s ns) := by
  unfold State.coldPin
  repeat' first
    | with_reducible assumption
    | with_reducible apply keeps_coldAssert
    | split

theorem keeps_warmPin {z0 : State} (s : State) (ns : Nat) (h0 : Keeps z0 s) :
    Keeps z0 (State.warmPin s ns) := by
  unfold State.warmPin
  repeat' first
    | with_reducible assumption
    | (extract_lets +onlyGivenNames x; refine keeps_step (a := z0) (s := x) ?_ (fun hx => ?_); subst x; rotate_left; clear_value x; rotate_left)
    | (extract_lets +onlyGivenNames x; clear_value x)
    | with_reducible apply keeps_warmAssert
    | split
    | with_reducible refine keeps_mk ?_

theorem keeps_coldRelease {z0 : State} (s : State) (strap : Nat) (jtag : Bool) (v : BootEnv) (h0 : Keeps z0 s) :
    Keeps z0 (State.coldRelease s strap jtag v) := by
  unfold State.coldRelease
  repeat' first
    | with_reducible assumption
    | (extract_lets +onlyGivenNames x; clear_value x)
    | (extract_lets +onlyGivenNames x; subst x)
    | with_reducible apply keeps_bringUp
    | split
    | with_reducible refine keeps_mk ?_

theorem keeps_warmRelease {z0 : State} (s : State) (v : BootEnv) (h0 : Keeps z0 s) :
    Keeps z0 (State.warmRelease s v) := by
  unfold State.warmRelease
  repeat' first
    | with_reducible assumption
    | (extract_lets +onlyGivenNames x; clear_value x)
    | (extract_lets +onlyGivenNames x; subst x)
    | with_reducible apply keeps_bringUp
    | split
    | with_reducible refine keeps_mk ?_

theorem keeps_restartNow {z0 : State} (s : State) (elapsed : Bool) (v : BootEnv) (h0 : Keeps z0 s) :
    Keeps z0 (State.restartNow s elapsed v) := by
  unfold State.restartNow
  repeat' first
    | with_reducible assumption
    | (extract_lets +onlyGivenNames x; refine keeps_step (a := z0) (s := x) ?_ (fun hx => ?_); subst x; rotate_left; clear_value x; rotate_left)
    | (extract_lets +onlyGivenNames x; clear_value x)
    | with_reducible apply keeps_cleared
    | with_reducible apply keeps_bringUp
    | with_reducible apply keeps_scramble
    | with_reducible apply keeps_stationsRest
    | split
    | with_reducible refine keeps_mk ?_

theorem keeps_flashRetry {z0 : State} (s : State) (v : BootEnv) (h0 : Keeps z0 s) :
    Keeps z0 (State.flashRetry s v) := by
  unfold State.flashRetry
  repeat' first
    | with_reducible assumption
    | (extract_lets +onlyGivenNames x; refine keeps_step (a := z0) (s := x) ?_ (fun hx => ?_); subst x; rotate_left; clear_value x; rotate_left)
    | with_reducible apply keeps_bootStep3
    | with_reducible apply keeps_bringUp4
    | split

theorem keeps_powerLoss {z0 : State} (s : State) (h0 : Keeps z0 s) :
    Keeps z0 (State.powerLoss s) := by
  unfold State.powerLoss
  repeat' first
    | with_reducible assumption
    | (extract_lets +onlyGivenNames x; refine keeps_step (a := z0) (s := x) ?_ (fun hx => ?_); subst x; rotate_left; clear_value x; rotate_left)
    | (extract_lets +onlyGivenNames x; clear_value x)
    | with_reducible apply keeps_cleared
    | with_reducible refine keeps_mk ?_

theorem keeps_wake {z0 : State} (s : State) (h0 : Keeps z0 s) :
    Keeps z0 (State.wake s) := by
  unfold State.wake
  repeat' first
    | with_reducible assumption
    | with_reducible apply keeps_cleared
    | with_reducible apply keeps_stationsRest
    | with_reducible apply keeps_bootStep1
    | with_reducible apply keeps_railsUp
    | split
    | with_reducible refine keeps_mk ?_

theorem keeps_wakePin {z0 : State} (s : State) (ns : Nat) (h0 : Keeps z0 s) :
    Keeps z0 (State.wakePin s ns) := by
  unfold State.wakePin
  repeat' first
    | with_reducible assumption
    | with_reducible apply keeps_wake
    | split

theorem keeps_railNaks {z0 : State} (s : State) (r : Nat) (k : Nat) (h0 : Keeps z0 s) :
    Keeps z0 (State.railNaks s r k) := by
  unfold State.railNaks
  repeat' first
    | with_reducible assumption
    | with_reducible intro _
    | with_reducible apply keeps_pmbusNak
    | with_reducible apply keeps_fst
    | with_reducible apply h0
    | with_reducible apply hf
    | split
    | (with_reducible refine keeps_of_pair ‹_ = (_, _)› ?_)
    | (with_reducible refine keeps_of_some ‹_ = some _› ?_)
    | (with_reducible refine keeps_of_someQ ‹_ = some (_, _)› ?_)
    | (with_reducible refine keeps_of_someR ‹_ = some (_, _)› ?_)
    | with_reducible refine keeps_mk ?_
    | with_reducible apply keeps_refl

theorem keeps_railOutput {z0 : State} (s : State) (r : Nat) (rest : List Nat) (on : Bool) (v : BootEnv) (h0 : Keeps z0 s) :
    Keeps z0 (State.railOutput s r rest on v) := by
  unfold State.railOutput
  repeat' first
    | with_reducible assumption
    | with_reducible intro _
    | (extract_lets +onlyGivenNames x; refine keeps_step (a := z0) (s := x) ?_ (fun hx => ?_); subst x; rotate_left; clear_value x; rotate_left)
    | (extract_lets +onlyGivenNames x; clear_value x)
    | with_reducible apply keeps_commandRail
    | with_reducible apply keeps_powerDown
    | with_reducible apply keeps_bringUp2
    | with_reducible apply keeps_railNaks
    | with_reducible apply keeps_fst
    | with_reducible apply h0
    | with_reducible apply hf
    | split
    | with_reducible apply keepsP_mk
    | (with_reducible refine keeps_of_pair ‹_ = (_, _)› ?_)
    | with_reducible refine keeps_mk ?_
    | with_reducible apply keeps_refl

theorem keeps_railReport {z0 : State} (s : State) (rail : Nat) (a : RailAnswer) (v : BootEnv) (h0 : Keeps z0 s) :
    Keeps z0 (State.railReport s rail a v) := by
  unfold State.railReport
  repeat' first
    | with_reducible assumption
    | with_reducible intro _
    | with_reducible apply keeps_railNaks
    | with_reducible apply keeps_railOutput
    | with_reducible apply keeps_fst
    | with_reducible apply h0
    | with_reducible apply hf
    | split
    | (with_reducible refine keeps_of_pair ‹_ = (_, _)› ?_)
    | with_reducible refine keeps_mk ?_
    | with_reducible apply keeps_refl

theorem keeps_railRetry {z0 : State} (s : State) (h0 : Keeps z0 s) :
    Keeps z0 (State.railRetry s) := by
  unfold State.railRetry
  repeat' first
    | with_reducible assumption
    | with_reducible apply keeps_commandRail
    | split

theorem keeps_execColdReset {z0 : State} (strap : Fin 8) (jtag : Bool) (v : BootEnv) (s : State) (h0 : Keeps z0 s) :
    KeepsX z0 (execColdReset strap jtag v s) := by
  unfold execColdReset
  repeat' first
    | with_reducible assumption
    | with_reducible apply keeps_ends
    | with_reducible apply keeps_coldRelease

theorem keeps_execWarmReset {z0 : State} (v : BootEnv) (s : State) (h0 : Keeps z0 s) :
    KeepsX z0 (execWarmReset v s) := by
  unfold execWarmReset
  repeat' first
    | with_reducible assumption
    | with_reducible apply keeps_ends
    | with_reducible apply keeps_warmRelease

theorem keeps_execColdResetNAssert {z0 : State} (ns : Nat) (s : State) (h0 : Keeps z0 s) :
    KeepsX z0 (execColdResetNAssert ns s) := by
  unfold execColdResetNAssert
  repeat' first
    | with_reducible assumption
    | with_reducible apply keeps_ends
    | with_reducible apply keeps_coldPin

theorem keeps_execWarmResetNAssert {z0 : State} (ns : Nat) (s : State) (h0 : Keeps z0 s) :
    KeepsX z0 (execWarmResetNAssert ns s) := by
  unfold execWarmResetNAssert
  repeat' first
    | with_reducible assumption
    | with_reducible apply keeps_ends
    | with_reducible apply keeps_warmPin

theorem keeps_execPowerLoss {z0 : State} (s : State) (h0 : Keeps z0 s) :
    KeepsX z0 (execPowerLoss s) := by
  unfold execPowerLoss
  repeat' first
    | with_reducible assumption
    | with_reducible apply keeps_ends
    | with_reducible apply keeps_powerLoss

theorem keeps_execFlashRetry {z0 : State} (v : BootEnv) (s : State) (h0 : Keeps z0 s) :
    KeepsX z0 (execFlashRetry v s) := by
  unfold execFlashRetry
  repeat' first
    | with_reducible assumption
    | with_reducible apply keeps_ends
    | with_reducible apply keeps_flashRetry

theorem keeps_execEthWait {z0 : State} (s : State) (h0 : Keeps z0 s) :
    KeepsX z0 (execEthWait s) := by
  unfold execEthWait
  repeat' first
    | with_reducible assumption
    | with_reducible apply keeps_ends
    | with_reducible apply keeps_ethWaits

theorem keeps_execEthLinkChange {z0 : State} (i : Fin 4) (up : Bool) (s : State) (h0 : Keeps z0 s) :
    KeepsX z0 (execEthLinkChange i up s) := by
  unfold execEthLinkChange
  repeat' first
    | with_reducible assumption
    | with_reducible apply keeps_ends
    | with_reducible apply keeps_ethLink

theorem keeps_execDeploySessionRetry {z0 : State} (s : State) (h0 : Keeps z0 s) :
    KeepsX z0 (execDeploySessionRetry s) := by
  unfold execDeploySessionRetry
  repeat' first
    | with_reducible assumption
    | with_reducible apply keeps_ends
    | with_reducible apply keeps_sessionRetry

theorem keeps_execRestartReset {z0 : State} (elapsed : Bool) (v : BootEnv) (s : State) (h0 : Keeps z0 s) :
    KeepsX z0 (execRestartReset elapsed v s) := by
  unfold execRestartReset
  repeat' first
    | with_reducible assumption
    | with_reducible apply keeps_ends
    | with_reducible apply keeps_restartNow

theorem keeps_execWakeN {z0 : State} (ns : Nat) (s : State) (h0 : Keeps z0 s) :
    KeepsX z0 (execWakeN ns s) := by
  unfold execWakeN
  repeat' first
    | with_reducible assumption
    | with_reducible apply keeps_ends
    | with_reducible apply keeps_wakePin

theorem keeps_execSidebandAddressMatch {z0 : State} (s : State) (h0 : Keeps z0 s) :
    KeepsX z0 (execSidebandAddressMatch s) := by
  unfold execSidebandAddressMatch
  repeat' first
    | with_reducible assumption
    | with_reducible apply keeps_ends
    | with_reducible apply keeps_wake
    | split

theorem keeps_execPowerGoodReport {z0 : State} (rail : Fin 10) (a : RailAnswer) (v : BootEnv) (s : State) (h0 : Keeps z0 s) :
    KeepsX z0 (execPowerGoodReport rail a v s) := by
  unfold execPowerGoodReport
  repeat' first
    | with_reducible assumption
    | with_reducible intro _
    | with_reducible apply keeps_ends
    | with_reducible apply keeps_railReport
    | with_reducible apply keeps_fst
    | with_reducible apply h0
    | with_reducible apply hf
    | with_reducible apply keepsX_next
    | with_reducible apply keepsP_mk
    | (with_reducible refine keeps_of_pair ‹_ = (_, _)› ?_)
    | with_reducible refine keeps_mk ?_
    | with_reducible apply keeps_refl

theorem keeps_execPowerGoodTimeout {z0 : State} (s : State) (h0 : Keeps z0 s) :
    KeepsX z0 (execPowerGoodTimeout s) := by
  unfold execPowerGoodTimeout
  repeat' first
    | with_reducible assumption
    | with_reducible apply keeps_ends
    | with_reducible apply keeps_railRetry

end Sys2Proof.Machine
end

