-- ==== Sys2Proof/Laws/KeepsCmds.lean ====
section
/-! SUPPORT. Keeps for the definitions of Machine/: the meanings of the commands. -/
namespace Sys2Proof.Machine
set_option linter.unusedVariables false
set_option linter.tactic.unusedName false

/-! ### Machine/HobCmds.lean -/

theorem keeps_hobCmd {z0 : State} (s : State) (h : Nat) (t : Nat) (k : Nat) (ok : Nat → Bool) (h0 : Keeps z0 s) :
    Keeps z0 (State.hobCmd s h t k ok) := by
  unfold State.hobCmd
  repeat' first
    | with_reducible assumption
    | (extract_lets +onlyGivenNames x; refine keeps_step (a := z0) (s := x) ?_ (fun hx => ?_); subst x; rotate_left; clear_value x; rotate_left)
    | with_reducible apply keeps_doHobOp
    | with_reducible apply keeps_ready
    | with_reducible apply keeps_advance
    | with_reducible apply keeps_done
    | split
    | (with_reducible refine keeps_of_some ‹_ = some _› ?_)

theorem keeps_localCmd {z0 : State} (s : State) (h : Nat) (t : Nat) (op : Nat) (h0 : Keeps z0 s) :
    Keeps z0 (State.localCmd s h t op) := by
  unfold State.localCmd
  repeat' first
    | with_reducible assumption
    | (extract_lets +onlyGivenNames x; refine keeps_step (a := z0) (s := x) ?_ (fun hx => ?_); subst x; rotate_left; clear_value x; rotate_left)
    | with_reducible apply keeps_doHobOp
    | with_reducible apply keeps_ready
    | with_reducible apply keeps_advance
    | with_reducible apply keeps_done
    | split
    | (with_reducible refine keeps_of_some ‹_ = some _› ?_)

theorem keeps_execStep {z0 : State} (h : Fin 32) (t : Nat) (s : State) (h0 : Keeps z0 s) :
    KeepsX z0 (execStep h t s) := by
  unfold execStep
  repeat' first
    | with_reducible assumption
    | with_reducible apply keepsX_next
    | with_reducible apply keeps_hobCmd

theorem keeps_execSwap {z0 : State} (h : Fin 32) (t : Nat) (s : State) (h0 : Keeps z0 s) :
    KeepsX z0 (execSwap h t s) := by
  unfold execSwap
  repeat' first
    | with_reducible assumption
    | with_reducible apply keepsX_next
    | with_reducible apply keeps_hobCmd

theorem keeps_execAslv {z0 : State} (h : Fin 32) (t : Nat) (s : State) (h0 : Keeps z0 s) :
    KeepsX z0 (execAslv h t s) := by
  unfold execAslv
  repeat' first
    | with_reducible assumption
    | with_reducible apply keepsX_next
    | with_reducible apply keeps_hobCmd

theorem keeps_execReadout {z0 : State} (h : Fin 32) (t : Nat) (s : State) (h0 : Keeps z0 s) :
    KeepsX z0 (execReadout h t s) := by
  unfold execReadout
  repeat' first
    | with_reducible assumption
    | with_reducible apply keepsX_next
    | with_reducible apply keeps_hobCmd

theorem keeps_execZero {z0 : State} (h : Fin 32) (t : Nat) (s : State) (h0 : Keeps z0 s) :
    KeepsX z0 (execZero h t s) := by
  unfold execZero
  repeat' first
    | with_reducible assumption
    | with_reducible apply keepsX_next
    | with_reducible apply keeps_hobCmd

theorem keeps_execApset {z0 : State} (h : Fin 32) (t : Nat) (s : State) (h0 : Keeps z0 s) :
    KeepsX z0 (execApset h t s) := by
  unfold execApset
  repeat' first
    | with_reducible assumption
    | with_reducible apply keepsX_next
    | with_reducible apply keeps_hobCmd

theorem keeps_execPlaneLoad {z0 : State} (h : Fin 32) (t : Nat) (s : State) (h0 : Keeps z0 s) :
    KeepsX z0 (execPlaneLoad h t s) := by
  unfold execPlaneLoad
  repeat' first
    | with_reducible assumption
    | with_reducible apply keepsX_next
    | with_reducible apply keeps_hobCmd

theorem keeps_execAsld {z0 : State} (h : Fin 32) (t : Nat) (s : State) (h0 : Keeps z0 s) :
    KeepsX z0 (execAsld h t s) := by
  unfold execAsld
  repeat' first
    | with_reducible assumption
    | with_reducible apply keepsX_next
    | with_reducible apply keeps_hobCmd

theorem keeps_execSlotLoad {z0 : State} (h : Fin 32) (t : Nat) (l : Fin 2) (s : State) (h0 : Keeps z0 s) :
    KeepsX z0 (execSlotLoad h t l s) := by
  unfold execSlotLoad
  repeat' first
    | with_reducible assumption
    | with_reducible apply keepsX_next
    | with_reducible apply keeps_hobCmd

theorem keeps_execSlotPeek {z0 : State} (h : Fin 32) (t : Nat) (l : Fin 2) (s : State) (h0 : Keeps z0 s) :
    KeepsX z0 (execSlotPeek h t l s) := by
  unfold execSlotPeek
  repeat' first
    | with_reducible assumption
    | with_reducible apply keepsX_next
    | with_reducible apply keeps_hobCmd

theorem keeps_execSlotStore {z0 : State} (h : Fin 32) (t : Nat) (s : State) (h0 : Keeps z0 s) :
    KeepsX z0 (execSlotStore h t s) := by
  unfold execSlotStore
  repeat' first
    | with_reducible assumption
    | with_reducible apply keepsX_next
    | with_reducible apply keeps_hobCmd

theorem keeps_execAdd {z0 : State} (h : Fin 32) (t : Nat) (s : State) (h0 : Keeps z0 s) :
    KeepsX z0 (execAdd h t s) := by
  unfold execAdd
  repeat' first
    | with_reducible assumption
    | with_reducible apply keepsX_next
    | with_reducible apply keeps_hobCmd

theorem keeps_execMul {z0 : State} (h : Fin 32) (t : Nat) (s : State) (h0 : Keeps z0 s) :
    KeepsX z0 (execMul h t s) := by
  unfold execMul
  repeat' first
    | with_reducible assumption
    | with_reducible apply keepsX_next
    | with_reducible apply keeps_hobCmd

theorem keeps_execFma {z0 : State} (h : Fin 32) (t : Nat) (s : State) (h0 : Keeps z0 s) :
    KeepsX z0 (execFma h t s) := by
  unfold execFma
  repeat' first
    | with_reducible assumption
    | with_reducible apply keepsX_next
    | with_reducible apply keeps_hobCmd

theorem keeps_execMin {z0 : State} (h : Fin 32) (t : Nat) (s : State) (h0 : Keeps z0 s) :
    KeepsX z0 (execMin h t s) := by
  unfold execMin
  repeat' first
    | with_reducible assumption
    | with_reducible apply keepsX_next
    | with_reducible apply keeps_hobCmd

theorem keeps_execMax {z0 : State} (h : Fin 32) (t : Nat) (s : State) (h0 : Keeps z0 s) :
    KeepsX z0 (execMax h t s) := by
  unfold execMax
  repeat' first
    | with_reducible assumption
    | with_reducible apply keepsX_next
    | with_reducible apply keeps_hobCmd

theorem keeps_execCmpEq {z0 : State} (h : Fin 32) (t : Nat) (s : State) (h0 : Keeps z0 s) :
    KeepsX z0 (execCmpEq h t s) := by
  unfold execCmpEq
  repeat' first
    | with_reducible assumption
    | with_reducible apply keepsX_next
    | with_reducible apply keeps_hobCmd

theorem keeps_execCmpNe {z0 : State} (h : Fin 32) (t : Nat) (s : State) (h0 : Keeps z0 s) :
    KeepsX z0 (execCmpNe h t s) := by
  unfold execCmpNe
  repeat' first
    | with_reducible assumption
    | with_reducible apply keepsX_next
    | with_reducible apply keeps_hobCmd

theorem keeps_execCmpLt {z0 : State} (h : Fin 32) (t : Nat) (s : State) (h0 : Keeps z0 s) :
    KeepsX z0 (execCmpLt h t s) := by
  unfold execCmpLt
  repeat' first
    | with_reducible assumption
    | with_reducible apply keepsX_next
    | with_reducible apply keeps_hobCmd

theorem keeps_execCmpLe {z0 : State} (h : Fin 32) (t : Nat) (s : State) (h0 : Keeps z0 s) :
    KeepsX z0 (execCmpLe h t s) := by
  unfold execCmpLe
  repeat' first
    | with_reducible assumption
    | with_reducible apply keepsX_next
    | with_reducible apply keeps_hobCmd

theorem keeps_execSel {z0 : State} (h : Fin 32) (t : Nat) (s : State) (h0 : Keeps z0 s) :
    KeepsX z0 (execSel h t s) := by
  unfold execSel
  repeat' first
    | with_reducible assumption
    | with_reducible apply keepsX_next
    | with_reducible apply keeps_hobCmd

theorem keeps_execExp2 {z0 : State} (h : Fin 32) (t : Nat) (s : State) (h0 : Keeps z0 s) :
    KeepsX z0 (execExp2 h t s) := by
  unfold execExp2
  repeat' first
    | with_reducible assumption
    | with_reducible apply keepsX_next
    | with_reducible apply keeps_hobCmd

theorem keeps_execLog2 {z0 : State} (h : Fin 32) (t : Nat) (s : State) (h0 : Keeps z0 s) :
    KeepsX z0 (execLog2 h t s) := by
  unfold execLog2
  repeat' first
    | with_reducible assumption
    | with_reducible apply keepsX_next
    | with_reducible apply keeps_hobCmd

theorem keeps_execRsqrt {z0 : State} (h : Fin 32) (t : Nat) (s : State) (h0 : Keeps z0 s) :
    KeepsX z0 (execRsqrt h t s) := by
  unfold execRsqrt
  repeat' first
    | with_reducible assumption
    | with_reducible apply keepsX_next
    | with_reducible apply keeps_hobCmd

theorem keeps_execRcp {z0 : State} (h : Fin 32) (t : Nat) (s : State) (h0 : Keeps z0 s) :
    KeepsX z0 (execRcp h t s) := by
  unfold execRcp
  repeat' first
    | with_reducible assumption
    | with_reducible apply keepsX_next
    | with_reducible apply keeps_hobCmd

theorem keeps_execRsum {z0 : State} (h : Fin 32) (t : Nat) (s : State) (h0 : Keeps z0 s) :
    KeepsX z0 (execRsum h t s) := by
  unfold execRsum
  repeat' first
    | with_reducible assumption
    | with_reducible apply keepsX_next
    | with_reducible apply keeps_hobCmd

theorem keeps_execRmax {z0 : State} (h : Fin 32) (t : Nat) (s : State) (h0 : Keeps z0 s) :
    KeepsX z0 (execRmax h t s) := by
  unfold execRmax
  repeat' first
    | with_reducible assumption
    | with_reducible apply keepsX_next
    | with_reducible apply keeps_hobCmd

theorem keeps_execRmin {z0 : State} (h : Fin 32) (t : Nat) (s : State) (h0 : Keeps z0 s) :
    KeepsX z0 (execRmin h t s) := by
  unfold execRmin
  repeat' first
    | with_reducible assumption
    | with_reducible apply keepsX_next
    | with_reducible apply keeps_hobCmd

theorem keeps_execCvtTo {z0 : State} (h : Fin 32) (t : Nat) (s : State) (h0 : Keeps z0 s) :
    KeepsX z0 (execCvtTo h t s) := by
  unfold execCvtTo
  repeat' first
    | with_reducible assumption
    | with_reducible apply keepsX_next
    | with_reducible apply keeps_hobCmd

theorem keeps_execCvtFrom {z0 : State} (h : Fin 32) (t : Nat) (s : State) (h0 : Keeps z0 s) :
    KeepsX z0 (execCvtFrom h t s) := by
  unfold execCvtFrom
  repeat' first
    | with_reducible assumption
    | with_reducible apply keepsX_next
    | with_reducible apply keeps_hobCmd

theorem keeps_execMov {z0 : State} (h : Fin 32) (t : Nat) (s : State) (h0 : Keeps z0 s) :
    KeepsX z0 (execMov h t s) := by
  unfold execMov
  repeat' first
    | with_reducible assumption
    | with_reducible apply keepsX_next
    | with_reducible apply keeps_hobCmd

theorem keeps_execInToSram {z0 : State} (h : Fin 32) (t : Nat) (tap : Fin 2) (s : State) (h0 : Keeps z0 s) :
    KeepsX z0 (execInToSram h t tap s) := by
  unfold execInToSram
  repeat' first
    | with_reducible assumption
    | with_reducible apply keepsX_next
    | with_reducible apply keeps_hobCmd

theorem keeps_execInToPlane {z0 : State} (h : Fin 32) (t : Nat) (tap : Fin 2) (s : State) (h0 : Keeps z0 s) :
    KeepsX z0 (execInToPlane h t tap s) := by
  unfold execInToPlane
  repeat' first
    | with_reducible assumption
    | with_reducible apply keepsX_next
    | with_reducible apply keeps_hobCmd

theorem keeps_execInToVreg {z0 : State} (h : Fin 32) (t : Nat) (tap : Fin 2) (s : State) (h0 : Keeps z0 s) :
    KeepsX z0 (execInToVreg h t tap s) := by
  unfold execInToVreg
  repeat' first
    | with_reducible assumption
    | with_reducible apply keepsX_next
    | with_reducible apply keeps_hobCmd

theorem keeps_execOutFromSram {z0 : State} (h : Fin 32) (t : Nat) (tap : Fin 2) (s : State) (h0 : Keeps z0 s) :
    KeepsX z0 (execOutFromSram h t tap s) := by
  unfold execOutFromSram
  repeat' first
    | with_reducible assumption
    | with_reducible apply keepsX_next
    | with_reducible apply keeps_hobCmd

theorem keeps_execOutFromVreg {z0 : State} (h : Fin 32) (t : Nat) (tap : Fin 2) (s : State) (h0 : Keeps z0 s) :
    KeepsX z0 (execOutFromVreg h t tap s) := by
  unfold execOutFromVreg
  repeat' first
    | with_reducible assumption
    | with_reducible apply keepsX_next
    | with_reducible apply keeps_hobCmd

theorem keeps_execCxt {z0 : State} (h : Fin 32) (t : Nat) (s : State) (h0 : Keeps z0 s) :
    KeepsX z0 (execCxt h t s) := by
  unfold execCxt
  repeat' first
    | with_reducible assumption
    | with_reducible apply keepsX_next
    | with_reducible apply keeps_hobCmd

theorem keeps_execHrelSet {z0 : State} (h : Fin 32) (t : Nat) (s : State) (h0 : Keeps z0 s) :
    KeepsX z0 (execHrelSet h t s) := by
  unfold execHrelSet
  repeat' first
    | with_reducible assumption
    | with_reducible apply keepsX_next
    | with_reducible apply keeps_hobCmd

theorem keeps_execGset {z0 : State} (h : Fin 32) (t : Nat) (s : State) (h0 : Keeps z0 s) :
    KeepsX z0 (execGset h t s) := by
  unfold execGset
  repeat' first
    | with_reducible assumption
    | with_reducible apply keepsX_next
    | with_reducible apply keeps_hobCmd

theorem keeps_execGrst {z0 : State} (h : Fin 32) (t : Nat) (s : State) (h0 : Keeps z0 s) :
    KeepsX z0 (execGrst h t s) := by
  unfold execGrst
  repeat' first
    | with_reducible assumption
    | with_reducible apply keepsX_next
    | with_reducible apply keeps_hobCmd

theorem keeps_execLcset {z0 : State} (h : Fin 32) (t : Nat) (s : State) (h0 : Keeps z0 s) :
    KeepsX z0 (execLcset h t s) := by
  unfold execLcset
  repeat' first
    | with_reducible assumption
    | with_reducible apply keepsX_next
    | with_reducible apply keeps_localCmd

theorem keeps_execLloop {z0 : State} (h : Fin 32) (t : Nat) (s : State) (h0 : Keeps z0 s) :
    KeepsX z0 (execLloop h t s) := by
  unfold execLloop
  repeat' first
    | with_reducible assumption
    | with_reducible apply keepsX_next
    | with_reducible apply keeps_localCmd

theorem keeps_execLdjnz {z0 : State} (h : Fin 32) (t : Nat) (s : State) (h0 : Keeps z0 s) :
    KeepsX z0 (execLdjnz h t s) := by
  unfold execLdjnz
  repeat' first
    | with_reducible assumption
    | with_reducible apply keepsX_next
    | with_reducible apply keeps_localCmd

theorem keeps_execLjmp {z0 : State} (h : Fin 32) (t : Nat) (s : State) (h0 : Keeps z0 s) :
    KeepsX z0 (execLjmp h t s) := by
  unfold execLjmp
  repeat' first
    | with_reducible assumption
    | with_reducible apply keepsX_next
    | with_reducible apply keeps_localCmd

theorem keeps_gapStart {z0 : State} (s : State) (h : Nat) (h0 : Keeps z0 s) :
    Keeps z0 (State.gapStart s h) := by
  unfold State.gapStart
  repeat' first
    | with_reducible assumption
    | (extract_lets +onlyGivenNames x; refine keeps_step (a := z0) (s := x) ?_ (fun hx => ?_); subst x; rotate_left; clear_value x; rotate_left)
    | (extract_lets +onlyGivenNames x; clear_value x)
    | (extract_lets +onlyGivenNames x; subst x)
    | with_reducible apply keeps_setHob
    | with_reducible apply keeps_quiet
    | split

theorem keeps_execGapStart {z0 : State} (h : Fin 32) (t : Nat) (s : State) (h0 : Keeps z0 s) :
    KeepsX z0 (execGapStart h t s) := by
  unfold execGapStart
  repeat' first
    | with_reducible assumption
    | with_reducible apply keepsX_next
    | with_reducible apply keeps_ready
    | with_reducible apply keeps_advance
    | with_reducible apply keeps_done
    | with_reducible apply keeps_gapStart
    | split
    | (with_reducible refine keeps_of_some ‹_ = some _› ?_)

/-! ### Machine/RangeCmds.lean -/

theorem keeps_rangeCmd {z0 : State} (s : State) (q : Nat) (t : Nat) (k : Nat) (ok : Nat → Bool) (f : State → State) (h0 : Keeps z0 s) (h1 : ∀ (y0 : State), Keeps z0 y0 → Keeps z0 (f y0)) :
    Keeps z0 (State.rangeCmd s q t k ok f) := by
  unfold State.rangeCmd
  repeat' first
    | with_reducible assumption
    | (extract_lets +onlyGivenNames x; refine keeps_step (a := z0) (s := x) ?_ (fun hx => ?_); subst x; rotate_left; clear_value x; rotate_left)
    | with_reducible apply keeps_ready
    | with_reducible apply keeps_advance
    | with_reducible apply keeps_done
    | with_reducible apply h1
    | split
    | (with_reducible refine keeps_of_some ‹_ = some _› ?_)

theorem keeps_windowCmd {z0 : State} (s : State) (q : Nat) (t : Nat) (ok : State → Bool) (f : State → State) (h0 : Keeps z0 s) (h1 : ∀ (y0 : State), Keeps z0 y0 → Keeps z0 (f y0)) :
    Keeps z0 (State.windowCmd s q t ok f) := by
  unfold State.windowCmd
  repeat' first
    | with_reducible assumption
    | with_reducible apply keeps_advance
    | with_reducible apply keeps_done
    | with_reducible apply h1
    | split
    | (with_reducible refine keeps_of_some ‹_ = some _› ?_)

theorem keeps_execGroup {z0 : State} (q : Fin 4) (t : Nat) (ecc : List Nat) (s : State) (h0 : Keeps z0 s) :
    KeepsX z0 (execGroup q t ecc s) := by
  unfold execGroup
  repeat' first
    | with_reducible assumption
    | with_reducible intro _
    | with_reducible apply keepsX_next
    | with_reducible apply keeps_doGroup
    | with_reducible apply keeps_rangeCmd

theorem keeps_execLout {z0 : State} (q : Fin 4) (t : Nat) (s : State) (h0 : Keeps z0 s) :
    KeepsX z0 (execLout q t s) := by
  unfold execLout
  repeat' first
    | with_reducible assumption
    | with_reducible intro _
    | with_reducible apply keepsX_next
    | with_reducible apply keeps_doTap
    | with_reducible apply keeps_rangeCmd

theorem keeps_execWin {z0 : State} (q : Fin 4) (t : Nat) (s : State) (h0 : Keeps z0 s) :
    KeepsX z0 (execWin q t s) := by
  unfold execWin
  repeat' first
    | with_reducible assumption
    | with_reducible intro _
    | with_reducible apply keepsX_next
    | with_reducible apply keeps_doTap
    | with_reducible apply keeps_rangeCmd

theorem keeps_execSend {z0 : State} (q : Fin 4) (t : Nat) (s : State) (h0 : Keeps z0 s) :
    KeepsX z0 (execSend q t s) := by
  unfold execSend
  repeat' first
    | with_reducible assumption
    | with_reducible intro _
    | with_reducible apply keepsX_next
    | with_reducible apply keeps_doSend
    | with_reducible apply keeps_rangeCmd

theorem keeps_execMove {z0 : State} (q : Fin 4) (t : Nat) (s : State) (h0 : Keeps z0 s) :
    KeepsX z0 (execMove q t s) := by
  unfold execMove
  repeat' first
    | with_reducible assumption
    | with_reducible intro _
    | with_reducible apply keepsX_next
    | with_reducible apply keeps_doMove
    | with_reducible apply keeps_rangeCmd

theorem keeps_execQx {z0 : State} (q : Fin 4) (t : Nat) (s : State) (h0 : Keeps z0 s) :
    KeepsX z0 (execQx q t s) := by
  unfold execQx
  repeat' first
    | with_reducible assumption
    | with_reducible intro _
    | with_reducible apply keepsX_next
    | with_reducible apply keeps_doQx
    | with_reducible apply keeps_rangeCmd

theorem keeps_execCset {z0 : State} (q : Fin 4) (t : Nat) (s : State) (h0 : Keeps z0 s) :
    KeepsX z0 (execCset q t s) := by
  unfold execCset
  repeat' first
    | with_reducible assumption
    | with_reducible intro _
    | with_reducible apply keepsX_next
    | with_reducible apply keeps_doCset
    | with_reducible apply keeps_rangeCmd

theorem keeps_execLoop {z0 : State} (q : Fin 4) (t : Nat) (s : State) (h0 : Keeps z0 s) :
    KeepsX z0 (execLoop q t s) := by
  unfold execLoop
  repeat' first
    | with_reducible assumption
    | with_reducible intro _
    | with_reducible apply keepsX_next
    | with_reducible apply keeps_doCtl
    | with_reducible apply keeps_rangeCmd

theorem keeps_execDjnz {z0 : State} (q : Fin 4) (t : Nat) (s : State) (h0 : Keeps z0 s) :
    KeepsX z0 (execDjnz q t s) := by
  unfold execDjnz
  repeat' first
    | with_reducible assumption
    | with_reducible intro _
    | with_reducible apply keepsX_next
    | with_reducible apply keeps_doCtl
    | with_reducible apply keeps_rangeCmd

theorem keeps_execJmp {z0 : State} (q : Fin 4) (t : Nat) (s : State) (h0 : Keeps z0 s) :
    KeepsX z0 (execJmp q t s) := by
  unfold execJmp
  repeat' first
    | with_reducible assumption
    | with_reducible intro _
    | with_reducible apply keepsX_next
    | with_reducible apply keeps_doCtl
    | with_reducible apply keeps_rangeCmd

theorem keeps_execFlag {z0 : State} (q : Fin 4) (t : Nat) (s : State) (h0 : Keeps z0 s) :
    KeepsX z0 (execFlag q t s) := by
  unfold execFlag
  repeat' first
    | with_reducible assumption
    | with_reducible intro _
    | with_reducible apply keepsX_next
    | with_reducible apply keeps_doFlag
    | with_reducible apply keeps_rangeCmd

theorem keeps_execBend {z0 : State} (q : Fin 4) (t : Nat) (s : State) (h0 : Keeps z0 s) :
    KeepsX z0 (execBend q t s) := by
  unfold execBend
  repeat' first
    | with_reducible assumption
    | with_reducible intro _
    | with_reducible apply keepsX_next
    | with_reducible apply keeps_doBend
    | with_reducible apply keeps_rangeCmd

theorem keeps_execWait {z0 : State} (q : Fin 4) (t : Nat) (s : State) (h0 : Keeps z0 s) :
    KeepsX z0 (execWait q t s) := by
  unfold execWait
  repeat' first
    | with_reducible assumption
    | with_reducible intro _
    | with_reducible apply keepsX_next
    | with_reducible apply keeps_doWait
    | with_reducible apply keeps_rangeCmd

theorem keeps_execLocal {z0 : State} (q : Fin 4) (t : Nat) (s : State) (h0 : Keeps z0 s) :
    KeepsX z0 (execLocal q t s) := by
  unfold execLocal
  repeat' first
    | with_reducible assumption
    | with_reducible intro _
    | with_reducible apply keepsX_next
    | with_reducible apply keeps_settle
    | with_reducible apply keeps_doLocal
    | with_reducible apply keeps_windowCmd

theorem keeps_execLocalWindowEnd {z0 : State} (q : Fin 4) (t : Nat) (s : State) (h0 : Keeps z0 s) :
    KeepsX z0 (execLocalWindowEnd q t s) := by
  unfold execLocalWindowEnd
  repeat' first
    | with_reducible assumption
    | with_reducible intro _
    | with_reducible apply keepsX_next
    | with_reducible apply keeps_doWindowEnd
    | with_reducible apply keeps_windowCmd

theorem keeps_execWaitEnd {z0 : State} (q : Fin 4) (t : Nat) (s : State) (h0 : Keeps z0 s) :
    KeepsX z0 (execWaitEnd q t s) := by
  unfold execWaitEnd
  repeat' first
    | with_reducible assumption
    | with_reducible intro _
    | with_reducible apply keepsX_next
    | with_reducible apply keeps_doWaitEnd
    | with_reducible apply keeps_windowCmd

theorem keeps_execOverrun {z0 : State} (q : Fin 4) (t : Nat) (s : State) (h0 : Keeps z0 s) :
    KeepsX z0 (execOverrun q t s) := by
  unfold execOverrun
  repeat' first
    | with_reducible assumption
    | with_reducible intro _
    | with_reducible apply keepsX_next
    | with_reducible apply keeps_doOverrun
    | with_reducible apply keeps_rangeCmd

theorem keeps_execLoopSlotExpire {z0 : State} (q : Fin 4) (t : Nat) (loop : Fin 2) (slot : Fin 16) (s : State) (h0 : Keeps z0 s) :
    KeepsX z0 (execLoopSlotExpire q t loop slot s) := by
  unfold execLoopSlotExpire
  repeat' first
    | with_reducible assumption
    | with_reducible apply keepsX_next
    | with_reducible apply keeps_setRange
    | with_reducible apply keeps_advance
    | with_reducible apply keeps_done
    | split
    | (with_reducible refine keeps_of_some ‹_ = some _› ?_)

theorem keeps_execHbmMoverAccess {z0 : State} (q : Fin 4) (p : Fin 8) (t : Nat) (ecc : List Nat) (s : State) (h0 : Keeps z0 s) :
    KeepsX z0 (execHbmMoverAccess q p t ecc s) := by
  unfold execHbmMoverAccess
  repeat' first
    | with_reducible assumption
    | with_reducible apply keepsX_next
    | with_reducible apply keeps_engineAccess
    | with_reducible apply keeps_ready
    | with_reducible apply keeps_advance
    | with_reducible apply keeps_done
    | split
    | (with_reducible refine keeps_of_some ‹_ = some _› ?_)

theorem keeps_execRefreshTick {z0 : State} (q : Fin 4) (p : Fin 8) (k : Nat) (s : State) (h0 : Keeps z0 s) :
    KeepsX z0 (execRefreshTick q p k s) := by
  unfold execRefreshTick
  repeat' first
    | with_reducible assumption
    | with_reducible apply keepsX_next
    | with_reducible apply keeps_refreshTick
    | with_reducible apply keeps_ready
    | with_reducible apply keeps_advance
    | with_reducible apply keeps_done
    | split
    | (with_reducible refine keeps_of_some ‹_ = some _› ?_)

theorem keeps_execHbmTempRead {z0 : State} (q : Fin 4) (temp : Int) (s : State) (h0 : Keeps z0 s) :
    KeepsX z0 (execHbmTempRead q temp s) := by
  unfold execHbmTempRead
  repeat' first
    | with_reducible assumption
    | with_reducible apply keeps_timed
    | with_reducible apply keeps_tempRead
    | with_reducible apply keeps_done
    | with_reducible apply keepsX_next

/-! ### Machine/MoverCmds.lean -/

theorem keeps_csrAccess {z0 : State} (s : State) (acc : CsrAccess) (a : Nat) (f : State → State) (h0 : Keeps z0 s) (h1 : ∀ (y0 : State), Keeps z0 y0 → Keeps z0 (f y0)) :
    Keeps z0 (State.csrAccess s acc a f) := by
  unfold State.csrAccess
  repeat' first
    | with_reducible assumption
    | with_reducible apply keeps_noteRefusal
    | with_reducible apply h1
    | split

theorem keeps_execCsrWrite {z0 : State} (acc : CsrAccess) (a : BitVec 40) (v : Word) (s : State) (h0 : Keeps z0 s) :
    KeepsX z0 (execCsrWrite acc a v s) := by
  unfold execCsrWrite
  repeat' first
    | with_reducible assumption
    | with_reducible intro _
    | with_reducible apply keeps_csrWrite
    | with_reducible apply keeps_ends
    | with_reducible apply keeps_csrAccess

theorem keeps_execIntClassClear {z0 : State} (acc : CsrAccess) (v : Word) (same : Word) (s : State) (h0 : Keeps z0 s) :
    KeepsX z0 (execIntClassClear acc v same s) := by
  unfold execIntClassClear
  repeat' first
    | with_reducible assumption
    | with_reducible intro _
    | with_reducible apply keeps_clearIntClass
    | with_reducible apply keeps_ends
    | with_reducible apply keeps_csrAccess

theorem keeps_execIntSourceClear {z0 : State} (acc : CsrAccess) (v : Word) (same : Word) (s : State) (h0 : Keeps z0 s) :
    KeepsX z0 (execIntSourceClear acc v same s) := by
  unfold execIntSourceClear
  repeat' first
    | with_reducible assumption
    | with_reducible intro _
    | with_reducible apply keeps_clearIntSource
    | with_reducible apply keeps_ends
    | with_reducible apply keeps_csrAccess

theorem keeps_execComTagWrite {z0 : State} (acc : CsrAccess) (v : Word) (s : State) (h0 : Keeps z0 s) :
    KeepsX z0 (execComTagWrite acc v s) := by
  unfold execComTagWrite
  repeat' first
    | with_reducible assumption
    | with_reducible intro _
    | with_reducible apply keeps_writeTag
    | with_reducible apply keeps_ends
    | with_reducible apply keeps_csrAccess

theorem keeps_execOtpWrite {z0 : State} (acc : CsrAccess) (a : BitVec 40) (_v : Word) (s : State) (h0 : Keeps z0 s) :
    KeepsX z0 (execOtpWrite acc a _v s) := by
  unfold execOtpWrite
  repeat' first
    | with_reducible assumption
    | with_reducible intro _
    | with_reducible apply keeps_lockedWrite
    | with_reducible apply keeps_ends
    | with_reducible apply keeps_csrAccess
    | split

theorem keeps_execLogCursorWrite {z0 : State} (acc : CsrAccess) (v : Word) (s : State) (h0 : Keeps z0 s) :
    KeepsX z0 (execLogCursorWrite acc v s) := by
  unfold execLogCursorWrite
  repeat' first
    | with_reducible assumption
    | with_reducible intro _
    | with_reducible apply keeps_writeCursor
    | with_reducible apply keeps_ends
    | with_reducible apply keeps_csrAccess

theorem keeps_execMoverSlotFill {z0 : State} (q : Fin 4) (t : Nat) (st : Fin 16) (s : State) (h0 : Keeps z0 s) :
    KeepsX z0 (execMoverSlotFill q t st s) := by
  unfold execMoverSlotFill
  repeat' first
    | with_reducible assumption
    | with_reducible apply keepsX_next
    | with_reducible apply keeps_ready
    | with_reducible apply keeps_advance
    | with_reducible apply keeps_slotFill
    | with_reducible apply keeps_ends
    | split
    | (with_reducible refine keeps_of_some ‹_ = some _› ?_)

theorem keeps_execMoverLoadArrival {z0 : State} (q : Fin 4) (t : Nat) (st : Fin 16) (loop : Fin 2) (s : State) (h0 : Keeps z0 s) :
    KeepsX z0 (execMoverLoadArrival q t st loop s) := by
  unfold execMoverLoadArrival
  repeat' first
    | with_reducible assumption
    | with_reducible apply keepsX_next
    | with_reducible apply keeps_ready
    | with_reducible apply keeps_advance
    | with_reducible apply keeps_loadArrival
    | with_reducible apply keeps_ends
    | split
    | (with_reducible refine keeps_of_some ‹_ = some _› ?_)

theorem keeps_execMoverBufferAccess {z0 : State} (h : Fin 32) (t : Nat) (s : State) (h0 : Keeps z0 s) :
    KeepsX z0 (execMoverBufferAccess h t s) := by
  unfold execMoverBufferAccess
  repeat' first
    | with_reducible assumption
    | with_reducible apply keepsX_next
    | with_reducible apply keeps_ready
    | with_reducible apply keeps_advance
    | with_reducible apply keeps_bufAccess
    | with_reducible apply keeps_ends
    | split
    | (with_reducible refine keeps_of_some ‹_ = some _› ?_)

theorem keeps_execSpineDelivery {z0 : State} (src : Fin 5) (dst : Fin 5) (s : State) (h0 : Keeps z0 s) :
    KeepsX z0 (execSpineDelivery src dst s) := by
  unfold execSpineDelivery
  repeat' first
    | with_reducible assumption
    | with_reducible apply keeps_spineDeliver
    | with_reducible apply keeps_ends

theorem keeps_clocked {z0 : State} (s : State) (q : Nat) (f : State → State) (h0 : Keeps z0 s) (h1 : ∀ (y0 : State), Keeps z0 y0 → Keeps z0 (f y0)) :
    Keeps z0 (State.clocked s q f) := by
  unfold State.clocked
  repeat' first
    | with_reducible assumption
    | with_reducible apply h1
    | split

theorem keeps_execMoverOpIssue {z0 : State} (q : Fin 4) (m : Fin 8) (k : Nat) (s : State) (h0 : Keeps z0 s) :
    KeepsX z0 (execMoverOpIssue q m k s) := by
  unfold execMoverOpIssue
  repeat' first
    | with_reducible assumption
    | with_reducible intro _
    | with_reducible apply keeps_moverIssue
    | with_reducible apply keeps_ends
    | with_reducible apply keeps_clocked

theorem keeps_execDescriptorComplete {z0 : State} (q : Fin 4) (m : Fin 8) (s : State) (h0 : Keeps z0 s) :
    KeepsX z0 (execDescriptorComplete q m s) := by
  unfold execDescriptorComplete
  repeat' first
    | with_reducible assumption
    | with_reducible intro _
    | with_reducible apply keeps_descComplete
    | with_reducible apply keeps_ends
    | with_reducible apply keeps_clocked

theorem keeps_execChainFetchDone {z0 : State} (q : Fin 4) (m : Fin 8) (s : State) (h0 : Keeps z0 s) :
    KeepsX z0 (execChainFetchDone q m s) := by
  unfold execChainFetchDone
  repeat' first
    | with_reducible assumption
    | with_reducible intro _
    | with_reducible apply keeps_chainDone
    | with_reducible apply keeps_ends
    | with_reducible apply keeps_clocked

theorem keeps_moverTimeout {z0 : State} (s : State) (q : Nat) (m : Nat) (op : Option Nat) (h0 : Keeps z0 s) :
    Keeps z0 (State.moverTimeout s q m op) := by
  unfold State.moverTimeout
  repeat' first
    | with_reducible assumption
    | (extract_lets +onlyGivenNames x; clear_value x)
    | with_reducible apply keeps_moverEnd
    | with_reducible apply keeps_setMover
    | split

theorem keeps_execMoverTimeout {z0 : State} (q : Fin 4) (m : Fin 8) (op : Option Nat) (s : State) (h0 : Keeps z0 s) :
    KeepsX z0 (execMoverTimeout q m op s) := by
  unfold execMoverTimeout
  repeat' first
    | with_reducible assumption
    | with_reducible apply keeps_counted
    | with_reducible apply keeps_ends
    | with_reducible apply keeps_moverTimeout

theorem keeps_contributionWrite {z0 : State} (s : State) (h0 : Keeps z0 s) :
    Keeps z0 (State.contributionWrite s) := by
  unfold State.contributionWrite
  repeat' first
    | with_reducible assumption
    | (extract_lets +onlyGivenNames x; clear_value x)
    | with_reducible apply keeps_windowWrite
    | with_reducible apply keeps_answer
    | with_reducible apply keeps_popMantel
    | with_reducible apply keeps_fst
    | split
    | (with_reducible refine keeps_of_someQ ‹_ = some (_, _)› ?_)

theorem keeps_execContributionWrite {z0 : State} (s : State) (h0 : Keeps z0 s) :
    KeepsX z0 (execContributionWrite s) := by
  unfold execContributionWrite
  repeat' first
    | with_reducible assumption
    | with_reducible apply keeps_ends
    | with_reducible apply keeps_contributionWrite

theorem keeps_stagingRequest {z0 : State} (s : State) (op : Nat) (f : State → Load → State) (h0 : Keeps z0 s) (h1 : ∀ (y0 : State) (y1 : Load), Keeps z0 y0 → Keeps z0 (f y0 y1)) :
    Keeps z0 (State.stagingRequest s op f) := by
  unfold State.stagingRequest
  repeat' first
    | with_reducible assumption
    | with_reducible apply keeps_answer
    | with_reducible apply keeps_popMantel
    | with_reducible apply h1
    | split
    | (with_reducible refine keeps_of_someQ ‹_ = some (_, _)› ?_)

theorem keeps_execStagingConfirm {z0 : State} (s : State) (h0 : Keeps z0 s) :
    KeepsX z0 (execStagingConfirm s) := by
  unfold execStagingConfirm
  repeat' first
    | with_reducible assumption
    | with_reducible intro _
    | with_reducible apply keeps_stageConfirm
    | with_reducible apply keeps_ends
    | with_reducible apply keeps_stagingRequest

theorem keeps_execStagingRelease {z0 : State} (s : State) (h0 : Keeps z0 s) :
    KeepsX z0 (execStagingRelease s) := by
  unfold execStagingRelease
  repeat' first
    | with_reducible assumption
    | with_reducible intro _
    | with_reducible apply keeps_stageRelease
    | with_reducible apply keeps_ends
    | with_reducible apply keeps_stagingRequest

theorem keeps_postLine {z0 : State} (s : State) (k : Nat) (f : State → Nat → Bytes → State) (h0 : Keeps z0 s) (h1 : ∀ (y0 : State) (y1 : Nat) (y2 : Bytes), Keeps z0 y0 → Keeps z0 (f y0 y1 y2)) :
    Keeps z0 (State.postLine s k f) := by
  unfold State.postLine
  repeat' first
    | with_reducible assumption
    | with_reducible apply keeps_answer
    | with_reducible apply keeps_popMantel
    | with_reducible apply h1
    | split
    | (with_reducible refine keeps_of_someQ ‹_ = some (_, _)› ?_)

theorem keeps_execPostWorkRequest {z0 : State} (s : State) (h0 : Keeps z0 s) :
    KeepsX z0 (execPostWorkRequest s) := by
  unfold execPostWorkRequest
  repeat' first
    | with_reducible assumption
    | with_reducible intro _
    | with_reducible apply keeps_postSend
    | with_reducible apply keeps_ends
    | with_reducible apply keeps_postLine

theorem keeps_execPostReceive {z0 : State} (s : State) (h0 : Keeps z0 s) :
    KeepsX z0 (execPostReceive s) := by
  unfold execPostReceive
  repeat' first
    | with_reducible assumption
    | with_reducible intro _
    | with_reducible apply keeps_postRecv
    | with_reducible apply keeps_ends
    | with_reducible apply keeps_postLine

theorem keeps_execPostTriggered {z0 : State} (s : State) (h0 : Keeps z0 s) :
    KeepsX z0 (execPostTriggered s) := by
  unfold execPostTriggered
  repeat' first
    | with_reducible assumption
    | with_reducible intro _
    | with_reducible apply keeps_postTrig
    | with_reducible apply keeps_ends
    | with_reducible apply keeps_postLine

/-! ### Machine/LinkCmds.lean -/

theorem keeps_execTrainStart {z0 : State} (l : Fin 20) (s : State) (h0 : Keeps z0 s) :
    KeepsX z0 (execTrainStart l s) := by
  unfold execTrainStart
  repeat' first
    | with_reducible assumption
    | with_reducible apply keeps_trainStart
    | with_reducible apply keeps_ends

theorem keeps_execTrainComplete {z0 : State} (l : Fin 20) (r : TrainResult) (s : State) (h0 : Keeps z0 s) :
    KeepsX z0 (execTrainComplete l r s) := by
  unfold execTrainComplete
  repeat' first
    | with_reducible assumption
    | with_reducible apply keeps_trainComplete
    | with_reducible apply keeps_ends

theorem keeps_execTrainTimeout {z0 : State} (l : Fin 20) (s : State) (h0 : Keeps z0 s) :
    KeepsX z0 (execTrainTimeout l s) := by
  unfold execTrainTimeout
  repeat' first
    | with_reducible assumption
    | with_reducible apply keeps_trainTimeout
    | with_reducible apply keeps_ends

theorem keeps_execControlFlit {z0 : State} (l : Fin 20) (b : Bytes) (item : LinkItem) (s : State) (h0 : Keeps z0 s) :
    KeepsX z0 (execControlFlit l b item s) := by
  unfold execControlFlit
  repeat' first
    | with_reducible assumption
    | with_reducible intro _
    | with_reducible apply keeps_controlFlit
    | with_reducible apply keeps_ends
    | with_reducible apply keeps_fst
    | with_reducible apply h0
    | with_reducible apply hf
    | with_reducible apply keepsX_next
    | with_reducible apply keepsP_mk
    | (with_reducible refine keeps_of_pair ‹_ = (_, _)› ?_)
    | with_reducible refine keeps_mk ?_
    | with_reducible apply keeps_refl

theorem keeps_execHeaderCrcFail {z0 : State} (l : Fin 20) (b : Bytes) (item : LinkItem) (s : State) (h0 : Keeps z0 s) :
    KeepsX z0 (execHeaderCrcFail l b item s) := by
  unfold execHeaderCrcFail
  repeat' first
    | with_reducible assumption
    | with_reducible intro _
    | with_reducible apply keeps_headerFail
    | with_reducible apply keeps_ends
    | with_reducible apply keeps_fst
    | with_reducible apply h0
    | with_reducible apply hf
    | with_reducible apply keepsX_next
    | with_reducible apply keepsP_mk
    | (with_reducible refine keeps_of_pair ‹_ = (_, _)› ?_)
    | with_reducible refine keeps_mk ?_
    | with_reducible apply keeps_refl

theorem keeps_execLinkPacketReceive {z0 : State} (l : Fin 20) (b : Bytes) (item : LinkItem) (s : State) (h0 : Keeps z0 s) :
    KeepsX z0 (execLinkPacketReceive l b item s) := by
  unfold execLinkPacketReceive
  repeat' first
    | with_reducible assumption
    | with_reducible intro _
    | with_reducible apply keeps_linkReceive
    | with_reducible apply keeps_ends
    | with_reducible apply keeps_fst
    | with_reducible apply h0
    | with_reducible apply hf
    | with_reducible apply keepsX_next
    | with_reducible apply keepsP_mk
    | (with_reducible refine keeps_of_pair ‹_ = (_, _)› ?_)
    | with_reducible refine keeps_mk ?_
    | with_reducible apply keeps_refl

theorem keeps_execPacketTransmit {z0 : State} (l : Fin 20) (s : State) (h0 : Keeps z0 s) :
    KeepsX z0 (execPacketTransmit l s) := by
  unfold execPacketTransmit
  repeat' first
    | with_reducible assumption
    | with_reducible apply keeps_transmit
    | with_reducible apply keeps_ends

theorem keeps_execReplayTimeout {z0 : State} (l : Fin 20) (s : State) (h0 : Keeps z0 s) :
    KeepsX z0 (execReplayTimeout l s) := by
  unfold execReplayTimeout
  repeat' first
    | with_reducible assumption
    | with_reducible apply keeps_counted
    | with_reducible apply keeps_replayTimeout
    | with_reducible apply keeps_ends

theorem keeps_execSilence {z0 : State} (l : Fin 20) (s : State) (h0 : Keeps z0 s) :
    KeepsX z0 (execSilence l s) := by
  unfold execSilence
  repeat' first
    | with_reducible assumption
    | with_reducible apply keeps_silence
    | with_reducible apply keeps_ends

theorem keeps_execCreditTimeout {z0 : State} (l : Fin 20) (v : Fin 8) (s : State) (h0 : Keeps z0 s) :
    KeepsX z0 (execCreditTimeout l v s) := by
  unfold execCreditTimeout
  repeat' first
    | with_reducible assumption
    | with_reducible apply keeps_counted
    | with_reducible apply keeps_creditTimeout
    | with_reducible apply keeps_ends

theorem keeps_execBrokenIdleEnd {z0 : State} (l : Fin 20) (s : State) (h0 : Keeps z0 s) :
    KeepsX z0 (execBrokenIdleEnd l s) := by
  unfold execBrokenIdleEnd
  repeat' first
    | with_reducible assumption
    | with_reducible apply keeps_brokenEnd
    | with_reducible apply keeps_ends

theorem keeps_execLaneFailure {z0 : State} (l : Fin 20) (m : Fin 8) (s : State) (h0 : Keeps z0 s) :
    KeepsX z0 (execLaneFailure l m s) := by
  unfold execLaneFailure
  repeat' first
    | with_reducible assumption
    | with_reducible apply keeps_laneFail
    | with_reducible apply keeps_ends

theorem keeps_execDrainTimeout {z0 : State} (l : Fin 20) (s : State) (h0 : Keeps z0 s) :
    KeepsX z0 (execDrainTimeout l s) := by
  unfold execDrainTimeout
  repeat' first
    | with_reducible assumption
    | with_reducible apply keeps_counted
    | with_reducible apply keeps_drainTimeout
    | with_reducible apply keeps_ends

theorem keeps_execWrite {z0 : State} (l : Fin 20) (v : Fin 8) (s : State) (h0 : Keeps z0 s) :
    KeepsX z0 (execWrite l v s) := by
  unfold execWrite
  repeat' first
    | with_reducible assumption
    | with_reducible intro _
    | with_reducible apply keeps_onHead
    | with_reducible apply keeps_rxWrite
    | with_reducible apply keeps_ends

theorem keeps_execRead {z0 : State} (l : Fin 20) (v : Fin 8) (s : State) (h0 : Keeps z0 s) :
    KeepsX z0 (execRead l v s) := by
  unfold execRead
  repeat' first
    | with_reducible assumption
    | with_reducible intro _
    | with_reducible apply keeps_onHead
    | with_reducible apply keeps_rxRead
    | with_reducible apply keeps_ends

theorem keeps_execResp {z0 : State} (l : Fin 20) (v : Fin 8) (s : State) (h0 : Keeps z0 s) :
    KeepsX z0 (execResp l v s) := by
  unfold execResp
  repeat' first
    | with_reducible assumption
    | with_reducible intro _
    | with_reducible apply keeps_onHead
    | with_reducible apply keeps_rxResp
    | with_reducible apply keeps_ends

theorem keeps_execMsg {z0 : State} (l : Fin 20) (v : Fin 8) (s : State) (h0 : Keeps z0 s) :
    KeepsX z0 (execMsg l v s) := by
  unfold execMsg
  repeat' first
    | with_reducible assumption
    | with_reducible intro _
    | with_reducible apply keeps_ends
    | with_reducible apply keeps_onPacket
    | with_reducible apply keeps_rxMsg

theorem keeps_execContrib {z0 : State} (l : Fin 20) (v : Fin 8) (s : State) (h0 : Keeps z0 s) :
    KeepsX z0 (execContrib l v s) := by
  unfold execContrib
  repeat' first
    | with_reducible assumption
    | with_reducible intro _
    | with_reducible apply keeps_ends
    | with_reducible apply keeps_onPacket
    | with_reducible apply keeps_rxContrib

theorem keeps_execFlaginc {z0 : State} (l : Fin 20) (v : Fin 8) (s : State) (h0 : Keeps z0 s) :
    KeepsX z0 (execFlaginc l v s) := by
  unfold execFlaginc
  repeat' first
    | with_reducible assumption
    | with_reducible intro _
    | with_reducible apply keeps_ends
    | with_reducible apply keeps_onPacket
    | with_reducible apply keeps_rxFlagInc

theorem keeps_execDwrite {z0 : State} (l : Fin 20) (v : Fin 8) (s : State) (h0 : Keeps z0 s) :
    KeepsX z0 (execDwrite l v s) := by
  unfold execDwrite
  repeat' first
    | with_reducible assumption
    | with_reducible intro _
    | with_reducible apply keeps_ends
    | with_reducible apply keeps_onPacket
    | with_reducible apply keeps_rxDwrite

theorem keeps_execDfetch {z0 : State} (l : Fin 20) (v : Fin 8) (s : State) (h0 : Keeps z0 s) :
    KeepsX z0 (execDfetch l v s) := by
  unfold execDfetch
  repeat' first
    | with_reducible assumption
    | with_reducible intro _
    | with_reducible apply keeps_onHead
    | with_reducible apply keeps_rxDfetch
    | with_reducible apply keeps_ends

theorem keeps_execDmsg {z0 : State} (l : Fin 20) (v : Fin 8) (s : State) (h0 : Keeps z0 s) :
    KeepsX z0 (execDmsg l v s) := by
  unfold execDmsg
  repeat' first
    | with_reducible assumption
    | with_reducible intro _
    | with_reducible apply keeps_ends
    | with_reducible apply keeps_onPacket
    | with_reducible apply keeps_rxDmsg

theorem keeps_execStall {z0 : State} (l : Fin 20) (v : Fin 8) (s : State) (h0 : Keeps z0 s) :
    KeepsX z0 (execStall l v s) := by
  unfold execStall
  repeat' first
    | with_reducible assumption
    | with_reducible intro _
    | with_reducible apply keeps_ends
    | with_reducible apply keeps_onStall
    | with_reducible apply keeps_rxStall

theorem keeps_execPoll {z0 : State} (l : Fin 20) (v : Fin 8) (s : State) (h0 : Keeps z0 s) :
    KeepsX z0 (execPoll l v s) := by
  unfold execPoll
  repeat' first
    | with_reducible assumption
    | with_reducible intro _
    | with_reducible apply keeps_ends
    | with_reducible apply keeps_onStall
    | with_reducible apply keeps_rxPoll

theorem keeps_execAnswer {z0 : State} (l : Fin 20) (v : Fin 8) (s : State) (h0 : Keeps z0 s) :
    KeepsX z0 (execAnswer l v s) := by
  unfold execAnswer
  repeat' first
    | with_reducible assumption
    | with_reducible intro _
    | with_reducible apply keeps_ends
    | with_reducible apply keeps_onStall
    | with_reducible apply keeps_rxAnswer

theorem keeps_execDeadlock {z0 : State} (l : Fin 20) (v : Fin 8) (s : State) (h0 : Keeps z0 s) :
    KeepsX z0 (execDeadlock l v s) := by
  unfold execDeadlock
  repeat' first
    | with_reducible assumption
    | with_reducible intro _
    | with_reducible apply keeps_ends
    | with_reducible apply keeps_onStall
    | with_reducible apply keeps_rxDeadlock

theorem keeps_execEpochOpen {z0 : State} (s : State) (h0 : Keeps z0 s) :
    KeepsX z0 (execEpochOpen s) := by
  unfold execEpochOpen
  repeat' first
    | with_reducible assumption
    | with_reducible apply keeps_openEpochNow
    | with_reducible apply keeps_ends
    | split

theorem keeps_execTransit {z0 : State} (l : Fin 20) (v : Fin 8) (s : State) (h0 : Keeps z0 s) :
    KeepsX z0 (execTransit l v s) := by
  unfold execTransit
  repeat' first
    | with_reducible assumption
    | with_reducible apply keeps_ends
    | with_reducible apply keeps_transit

theorem keeps_execDatagramTransitTimeout {z0 : State} (l : Fin 20) (s : State) (h0 : Keeps z0 s) :
    KeepsX z0 (execDatagramTransitTimeout l s) := by
  unfold execDatagramTransitTimeout
  repeat' first
    | with_reducible assumption
    | with_reducible apply keeps_counted
    | with_reducible apply keeps_ends
    | with_reducible apply keeps_datagramTimeout

theorem keeps_execPing {z0 : State} (l : Fin 20) (v : Fin 8) (s : State) (h0 : Keeps z0 s) :
    KeepsX z0 (execPing l v s) := by
  unfold execPing
  repeat' first
    | with_reducible assumption
    | with_reducible intro _
    | with_reducible apply keeps_ends
    | with_reducible apply keeps_onMgmt
    | with_reducible apply keeps_rxPing

theorem keeps_execPong {z0 : State} (l : Fin 20) (v : Fin 8) (s : State) (h0 : Keeps z0 s) :
    KeepsX z0 (execPong l v s) := by
  unfold execPong
  repeat' first
    | with_reducible assumption
    | with_reducible intro _
    | with_reducible apply keeps_ends
    | with_reducible apply keeps_onMgmt
    | with_reducible apply keeps_recordMgmt

theorem keeps_execResult {z0 : State} (l : Fin 20) (v : Fin 8) (s : State) (h0 : Keeps z0 s) :
    KeepsX z0 (execResult l v s) := by
  unfold execResult
  repeat' first
    | with_reducible assumption
    | with_reducible intro _
    | with_reducible apply keeps_ends
    | with_reducible apply keeps_onMgmt
    | with_reducible apply keeps_recordMgmt

theorem keeps_execMgmtLinkDisable {z0 : State} (l : Fin 20) (v : Fin 8) (s : State) (h0 : Keeps z0 s) :
    KeepsX z0 (execMgmtLinkDisable l v s) := by
  unfold execMgmtLinkDisable
  repeat' first
    | with_reducible assumption
    | with_reducible intro _
    | with_reducible apply keeps_ends
    | with_reducible apply keeps_onMgmt
    | with_reducible apply keeps_rxLinkDisable

theorem keeps_execMgmtLinkEnable {z0 : State} (l : Fin 20) (v : Fin 8) (s : State) (h0 : Keeps z0 s) :
    KeepsX z0 (execMgmtLinkEnable l v s) := by
  unfold execMgmtLinkEnable
  repeat' first
    | with_reducible assumption
    | with_reducible intro _
    | with_reducible apply keeps_ends
    | with_reducible apply keeps_onMgmt
    | with_reducible apply keeps_rxLinkEnable

theorem keeps_execMessagePlaced {z0 : State} (c : Fin 65536) (s : State) (h0 : Keeps z0 s) :
    KeepsX z0 (execMessagePlaced c s) := by
  unfold execMessagePlaced
  repeat' first
    | with_reducible assumption
    | with_reducible apply keeps_messagePlaced
    | with_reducible apply keeps_ends
    | split

theorem keeps_execMessageAbandon {z0 : State} (c : Fin 65536) (slot : Nat) (s : State) (h0 : Keeps z0 s) :
    KeepsX z0 (execMessageAbandon c slot s) := by
  unfold execMessageAbandon
  repeat' first
    | with_reducible assumption
    | with_reducible apply keeps_counted
    | with_reducible apply keeps_messageAbandon
    | with_reducible apply keeps_ends
    | split

theorem keeps_execRoundSum {z0 : State} (k : Fin 4096) (s : State) (h0 : Keeps z0 s) :
    KeepsX z0 (execRoundSum k s) := by
  unfold execRoundSum
  repeat' first
    | with_reducible assumption
    | with_reducible apply keeps_roundSum
    | with_reducible apply keeps_ends
    | split

theorem keeps_execRoundComplete {z0 : State} (k : Fin 4096) (s : State) (h0 : Keeps z0 s) :
    KeepsX z0 (execRoundComplete k s) := by
  unfold execRoundComplete
  repeat' first
    | with_reducible assumption
    | with_reducible apply keeps_roundComplete
    | with_reducible apply keeps_ends
    | split

/-! ### Machine/TransCmds.lean -/

theorem keeps_takeWr {z0 : State} (s : State) (q : Nat) (k : Nat) (f : State → State) (h0 : Keeps z0 s) (h1 : ∀ (y0 : State), Keeps z0 y0 → Keeps z0 (f y0)) :
    Keeps z0 (State.takeWr s q k f) := by
  unfold State.takeWr
  repeat' first
    | with_reducible assumption
    | with_reducible apply h1
    | split

theorem keeps_takeOwn {z0 : State} (s : State) (q : Nat) (k : Nat) (f : State → Bytes → State) (h0 : Keeps z0 s) (h1 : ∀ (y0 : State) (y1 : Bytes), Keeps z0 y0 → Keeps z0 (f y0 y1)) :
    Keeps z0 (State.takeOwn s q k f) := by
  unfold State.takeOwn
  repeat' first
    | with_reducible assumption
    | with_reducible intro _
    | with_reducible apply keeps_popSq
    | with_reducible apply keeps_takeWr
    | with_reducible apply h1

theorem keeps_execWrSend {z0 : State} (q : Fin 16384) (s : State) (h0 : Keeps z0 s) :
    KeepsX z0 (execWrSend q s) := by
  unfold execWrSend
  repeat' first
    | with_reducible assumption
    | with_reducible intro _
    | with_reducible apply keeps_takeNet
    | with_reducible apply keeps_ends
    | with_reducible apply keeps_takeWr

theorem keeps_execWrPut {z0 : State} (q : Fin 16384) (s : State) (h0 : Keeps z0 s) :
    KeepsX z0 (execWrPut q s) := by
  unfold execWrPut
  repeat' first
    | with_reducible assumption
    | with_reducible intro _
    | with_reducible apply keeps_takeNet
    | with_reducible apply keeps_ends
    | with_reducible apply keeps_takeWr

theorem keeps_execWrGet {z0 : State} (q : Fin 16384) (s : State) (h0 : Keeps z0 s) :
    KeepsX z0 (execWrGet q s) := by
  unfold execWrGet
  repeat' first
    | with_reducible assumption
    | with_reducible intro _
    | with_reducible apply keeps_takeNet
    | with_reducible apply keeps_ends
    | with_reducible apply keeps_takeWr

theorem keeps_execWrFlush {z0 : State} (q : Fin 16384) (s : State) (h0 : Keeps z0 s) :
    KeepsX z0 (execWrFlush q s) := by
  unfold execWrFlush
  repeat' first
    | with_reducible assumption
    | with_reducible intro _
    | with_reducible apply keeps_takeNet
    | with_reducible apply keeps_ends
    | with_reducible apply keeps_takeWr

theorem keeps_execWrChpost {z0 : State} (q : Fin 16384) (s : State) (h0 : Keeps z0 s) :
    KeepsX z0 (execWrChpost q s) := by
  unfold execWrChpost
  repeat' first
    | with_reducible assumption
    | with_reducible intro _
    | with_reducible apply keeps_takeNet
    | with_reducible apply keeps_ends
    | with_reducible apply keeps_takeWr

theorem keeps_execPrefetch {z0 : State} (q : Fin 16384) (s : State) (h0 : Keeps z0 s) :
    KeepsX z0 (execPrefetch q s) := by
  unfold execPrefetch
  repeat' first
    | with_reducible assumption
    | with_reducible intro _
    | with_reducible apply keeps_startPrefetch
    | with_reducible apply keeps_ends
    | with_reducible apply keeps_takeOwn

theorem keeps_execRevoke {z0 : State} (q : Fin 16384) (s : State) (h0 : Keeps z0 s) :
    KeepsX z0 (execRevoke q s) := by
  unfold execRevoke
  repeat' first
    | with_reducible assumption
    | with_reducible intro _
    | with_reducible apply keeps_startRevoke
    | with_reducible apply keeps_ends
    | with_reducible apply keeps_takeOwn

theorem keeps_execWrArm {z0 : State} (q : Fin 16384) (s : State) (h0 : Keeps z0 s) :
    KeepsX z0 (execWrArm q s) := by
  unfold execWrArm
  repeat' first
    | with_reducible assumption
    | with_reducible intro _
    | with_reducible apply keeps_runLocal
    | with_reducible apply keeps_ends
    | with_reducible apply keeps_takeOwn

theorem keeps_execCntAdd {z0 : State} (q : Fin 16384) (s : State) (h0 : Keeps z0 s) :
    KeepsX z0 (execCntAdd q s) := by
  unfold execCntAdd
  repeat' first
    | with_reducible assumption
    | with_reducible intro _
    | with_reducible apply keeps_runLocal
    | with_reducible apply keeps_ends
    | with_reducible apply keeps_takeOwn

theorem keeps_execCntSet {z0 : State} (q : Fin 16384) (s : State) (h0 : Keeps z0 s) :
    KeepsX z0 (execCntSet q s) := by
  unfold execCntSet
  repeat' first
    | with_reducible assumption
    | with_reducible intro _
    | with_reducible apply keeps_runLocal
    | with_reducible apply keeps_ends
    | with_reducible apply keeps_takeOwn

theorem keeps_execFlagAdd {z0 : State} (q : Fin 16384) (s : State) (h0 : Keeps z0 s) :
    KeepsX z0 (execFlagAdd q s) := by
  unfold execFlagAdd
  repeat' first
    | with_reducible assumption
    | with_reducible intro _
    | with_reducible apply keeps_runLocal
    | with_reducible apply keeps_ends
    | with_reducible apply keeps_takeOwn

theorem keeps_execReceiveComplete {z0 : State} (id : Nat) (s : State) (h0 : Keeps z0 s) :
    KeepsX z0 (execReceiveComplete id s) := by
  unfold execReceiveComplete
  repeat' first
    | with_reducible assumption
    | with_reducible apply keeps_recvComplete
    | with_reducible apply keeps_ends
    | split

theorem keeps_execRegionClosed {z0 : State} (i : Fin 65536) (s : State) (h0 : Keeps z0 s) :
    KeepsX z0 (execRegionClosed i s) := by
  unfold execRegionClosed
  repeat' first
    | with_reducible assumption
    | (extract_lets +onlyGivenNames x; refine keeps_step (a := z0) (s := x) ?_ (fun hx => ?_); subst x; rotate_left; clear_value x; rotate_left)
    | with_reducible apply keeps_setRegion
    | with_reducible apply keeps_regionClosed
    | with_reducible apply keeps_ends
    | with_reducible apply keeps_settleLeaving
    | with_reducible apply keeps_answerWait
    | split

theorem keeps_execBfRto {z0 : State} (q : Fin 16384) (s : State) (h0 : Keeps z0 s) :
    KeepsX z0 (execBfRto q s) := by
  unfold execBfRto
  repeat' first
    | with_reducible assumption
    | with_reducible apply keeps_counted
    | with_reducible apply keeps_rtoExpire
    | with_reducible apply keeps_ends
    | split

theorem keeps_execRnrDelay {z0 : State} (q : Fin 16384) (s : State) (h0 : Keeps z0 s) :
    KeepsX z0 (execRnrDelay q s) := by
  unfold execRnrDelay
  repeat' first
    | with_reducible assumption
    | with_reducible apply keeps_counted
    | with_reducible apply keeps_rnrExpire
    | with_reducible apply keeps_ends
    | split

/-! ### Machine/Deploy.lean -/

theorem keeps_readBuffer {z0 : State} (s : State) (a : Nat) (n : Nat) (ecc : List Nat) (h0 : Keeps z0 s) :
    Keeps z0 (State.readBuffer s a n ecc) := by
  unfold State.readBuffer
  repeat' first
    | with_reducible assumption
    | with_reducible intro _
    | with_reducible apply keeps_burstSeverity
    | with_reducible apply keeps_foldl

theorem keeps_deployMessage {z0 : State} (s : State) (ecc : List Nat) (h0 : Keeps z0 s) :
    Keeps z0 (State.deployMessage s ecc) := by
  unfold State.deployMessage
  repeat' first
    | with_reducible assumption
    | (extract_lets +onlyGivenNames x; refine keeps_step (a := z0) (s := x) ?_ (fun hx => ?_); subst x; rotate_left; clear_value x; rotate_left)
    | (extract_lets +onlyGivenNames x; clear_value x)
    | with_reducible apply keeps_log
    | with_reducible apply keeps_readBuffer
    | split
    | with_reducible refine keeps_mk ?_

theorem keeps_perform {z0 : State} (s : State) (ty : Nat) (f : State → Nat → Nat → Bytes → State × Option DResult) (h0 : Keeps z0 s) (h1 : ∀ (y0 : State) (y1 : Nat) (y2 : Nat) (y3 : Bytes), Keeps z0 y0 → KeepsP z0 (f y0 y1 y2 y3)) :
    Keeps z0 (State.perform s ty f) := by
  unfold State.perform
  repeat' first
    | with_reducible assumption
    | with_reducible apply keeps_judged
    | with_reducible apply keeps_fst
    | with_reducible apply h1
    | split

theorem keeps_bodyFor {z0 : State} (s : State) (b : Bytes) (n : Nat) (o : Nat) (k : Nat → State × Option DResult) (h0 : Keeps z0 s) (h1 : ∀ (y0 : Nat), KeepsP z0 (k y0)) :
    KeepsP z0 (State.bodyFor s b n o k) := by
  unfold State.bodyFor
  repeat' first
    | with_reducible assumption
    | with_reducible apply h1
    | split
    | with_reducible apply keepsP_mk

theorem keeps_doArm {z0 : State} (s : State) (b : Bytes) (h0 : Keeps z0 s) :
    KeepsP z0 (State.doArm s b) := by
  unfold State.doArm
  repeat' first
    | with_reducible assumption
    | with_reducible intro _
    | with_reducible apply keeps_reqRefused
    | with_reducible apply keeps_armEntry
    | with_reducible apply keeps_bodyFor
    | split
    | with_reducible apply keepsP_mk
    | (with_reducible refine keeps_of_pair ‹_ = (_, _)› ?_)

theorem keeps_doDisable {z0 : State} (s : State) (b : Bytes) (h0 : Keeps z0 s) :
    KeepsP z0 (State.doDisable s b) := by
  unfold State.doDisable
  repeat' first
    | with_reducible assumption
    | with_reducible intro _
    | with_reducible apply keeps_reqRefused
    | with_reducible apply keeps_disableEntry
    | with_reducible apply keeps_bodyFor
    | split
    | with_reducible apply keepsP_mk
    | (with_reducible refine keeps_of_pair ‹_ = (_, _)› ?_)

theorem keeps_doEnable {z0 : State} (s : State) (b : Bytes) (h0 : Keeps z0 s) :
    KeepsP z0 (State.doEnable s b) := by
  unfold State.doEnable
  repeat' first
    | with_reducible assumption
    | with_reducible intro _
    | with_reducible apply keeps_reqRefused
    | with_reducible apply keeps_enableEntry
    | with_reducible apply keeps_bodyFor
    | split
    | with_reducible apply keepsP_mk
    | (with_reducible refine keeps_of_pair ‹_ = (_, _)› ?_)

theorem keeps_doRemove {z0 : State} (s : State) (b : Bytes) (h0 : Keeps z0 s) :
    KeepsP z0 (State.doRemove s b) := by
  unfold State.doRemove
  repeat' first
    | with_reducible assumption
    | with_reducible intro _
    | with_reducible apply keeps_reqRefused
    | with_reducible apply keeps_removeEntry
    | with_reducible apply keeps_bodyFor
    | split
    | with_reducible apply keepsP_mk
    | (with_reducible refine keeps_of_pair ‹_ = (_, _)› ?_)

theorem keeps_doLoad {z0 : State} (s : State) (d : Nat) (i : Nat) (b : Bytes) (h0 : Keeps z0 s) :
    KeepsP z0 (State.doLoad s d i b) := by
  unfold State.doLoad
  repeat' first
    | with_reducible assumption
    | (extract_lets +onlyGivenNames x; refine keeps_step (a := z0) (s := x) ?_ (fun hx => ?_); subst x; rotate_left; clear_value x; rotate_left)
    | (extract_lets +onlyGivenNames x; clear_value x)
    | with_reducible apply keeps_setEntry
    | with_reducible apply keeps_noteRefused
    | split
    | with_reducible apply keepsP_mk
    | with_reducible refine keeps_mk ?_

theorem keeps_doAreaCreate {z0 : State} (s : State) (b : Bytes) (h0 : Keeps z0 s) :
    KeepsP z0 (State.doAreaCreate s b) := by
  unfold State.doAreaCreate
  repeat' first
    | with_reducible assumption
    | with_reducible intro _
    | (extract_lets +onlyGivenNames x; clear_value x)
    | with_reducible apply keeps_zeroArea
    | with_reducible apply keeps_bodyFor
    | split
    | with_reducible apply keepsP_mk
    | with_reducible refine keeps_mk ?_

theorem keeps_doAreaRelease {z0 : State} (s : State) (b : Bytes) (h0 : Keeps z0 s) :
    KeepsP z0 (State.doAreaRelease s b) := by
  unfold State.doAreaRelease
  repeat' first
    | with_reducible assumption
    | with_reducible intro _
    | with_reducible apply keeps_releaseArea
    | with_reducible apply keeps_bodyFor
    | split
    | with_reducible apply keepsP_mk
    | with_reducible refine keeps_mk ?_

theorem keeps_doData {z0 : State} (s : State) (b : Bytes) (h0 : Keeps z0 s) :
    KeepsP z0 (State.doData s b) := by
  unfold State.doData
  repeat' first
    | with_reducible assumption
    | with_reducible intro _
    | (extract_lets +onlyGivenNames x; clear_value x)
    | with_reducible apply keeps_placeRaw
    | with_reducible apply keeps_bodyFor
    | with_reducible apply keeps_foldl
    | split
    | with_reducible apply keepsP_mk

theorem keeps_doDataExpect {z0 : State} (s : State) (d : Nat) (b : Bytes) (h0 : Keeps z0 s) :
    KeepsP z0 (State.doDataExpect s d b) := by
  unfold State.doDataExpect
  repeat' first
    | with_reducible assumption
    | (extract_lets +onlyGivenNames x; clear_value x)
    | split
    | with_reducible apply keepsP_mk
    | with_reducible refine keeps_mk ?_

theorem keeps_doStaging {z0 : State} (s : State) (b : Bytes) (h0 : Keeps z0 s) :
    KeepsP z0 (State.doStaging s b) := by
  unfold State.doStaging
  repeat' first
    | with_reducible assumption
    | with_reducible intro _
    | with_reducible apply keeps_bodyFor
    | split
    | with_reducible apply keepsP_mk
    | with_reducible refine keeps_mk ?_

theorem keeps_doChOpen {z0 : State} (s : State) (b : Bytes) (h0 : Keeps z0 s) :
    KeepsP z0 (State.doChOpen s b) := by
  unfold State.doChOpen
  repeat' first
    | with_reducible assumption
    | with_reducible intro _
    | with_reducible apply keeps_chOpen
    | with_reducible apply keeps_bodyFor
    | split
    | with_reducible apply keepsP_mk
    | (with_reducible refine keeps_of_pair ‹_ = (_, _)› ?_)

theorem keeps_doChClose {z0 : State} (s : State) (b : Bytes) (h0 : Keeps z0 s) :
    KeepsP z0 (State.doChClose s b) := by
  unfold State.doChClose
  repeat' first
    | with_reducible assumption
    | with_reducible intro _
    | (extract_lets +onlyGivenNames x; clear_value x)
    | with_reducible apply keeps_chRequest
    | with_reducible apply keeps_bodyFor
    | split
    | with_reducible apply keepsP_mk
    | (with_reducible refine keeps_of_pair ‹_ = (_, _)› ?_)

theorem keeps_doChDisable {z0 : State} (s : State) (b : Bytes) (h0 : Keeps z0 s) :
    KeepsP z0 (State.doChDisable s b) := by
  unfold State.doChDisable
  repeat' first
    | with_reducible assumption
    | with_reducible intro _
    | with_reducible apply keeps_chRequest
    | with_reducible apply keeps_bodyFor
    | split
    | with_reducible apply keepsP_mk
    | (with_reducible refine keeps_of_pair ‹_ = (_, _)› ?_)

theorem keeps_doChEnable {z0 : State} (s : State) (b : Bytes) (h0 : Keeps z0 s) :
    KeepsP z0 (State.doChEnable s b) := by
  unfold State.doChEnable
  repeat' first
    | with_reducible assumption
    | with_reducible intro _
    | with_reducible apply keeps_chRequest
    | with_reducible apply keeps_bodyFor
    | split
    | with_reducible apply keepsP_mk
    | (with_reducible refine keeps_of_pair ‹_ = (_, _)› ?_)

theorem keeps_doQpCreate {z0 : State} (s : State) (b : Bytes) (h0 : Keeps z0 s) :
    KeepsP z0 (State.doQpCreate s b) := by
  unfold State.doQpCreate
  repeat' first
    | with_reducible assumption
    | with_reducible intro _
    | (extract_lets +onlyGivenNames x; refine keeps_step (a := z0) (s := x) ?_ (fun hx => ?_); subst x; rotate_left; clear_value x; rotate_left)
    | (extract_lets +onlyGivenNames x; clear_value x)
    | with_reducible apply keeps_setQp
    | with_reducible apply keeps_sendConnect
    | with_reducible apply keeps_bodyFor
    | split
    | with_reducible apply keepsP_mk

theorem keeps_resetQp {z0 : State} (s : State) (n : Nat) (h0 : Keeps z0 s) :
    Keeps z0 (State.resetQp s n) := by
  unfold State.resetQp
  repeat' first
    | with_reducible assumption
    | (extract_lets +onlyGivenNames x; refine keeps_step (a := z0) (s := x) ?_ (fun hx => ?_); subst x; rotate_left; clear_value x; rotate_left)
    | (extract_lets +onlyGivenNames x; clear_value x)
    | with_reducible apply keeps_setQp
    | with_reducible apply keeps_sendConnect
    | split

theorem keeps_doQpReset {z0 : State} (s : State) (b : Bytes) (h0 : Keeps z0 s) :
    KeepsP z0 (State.doQpReset s b) := by
  unfold State.doQpReset
  repeat' first
    | with_reducible assumption
    | with_reducible intro _
    | (extract_lets +onlyGivenNames x; clear_value x)
    | with_reducible apply keeps_bodyFor
    | with_reducible apply keeps_resetQp
    | split
    | with_reducible apply keepsP_mk

theorem keeps_dropQp {z0 : State} (s : State) (n : Nat) (h0 : Keeps z0 s) :
    Keeps z0 (State.dropQp s n) := by
  unfold State.dropQp
  repeat' first
    | with_reducible assumption
    | (extract_lets +onlyGivenNames x; refine keeps_step (a := z0) (s := x) ?_ (fun hx => ?_); subst x; rotate_left; clear_value x; rotate_left)
    | (extract_lets +onlyGivenNames x; clear_value x)
    | with_reducible apply keeps_setQp
    | with_reducible refine keeps_mk ?_

theorem keeps_doQpDestroy {z0 : State} (s : State) (b : Bytes) (h0 : Keeps z0 s) :
    KeepsP z0 (State.doQpDestroy s b) := by
  unfold State.doQpDestroy
  repeat' first
    | with_reducible assumption
    | with_reducible intro _
    | (extract_lets +onlyGivenNames x; clear_value x)
    | with_reducible apply keeps_bodyFor
    | with_reducible apply keeps_dropQp
    | split
    | with_reducible apply keepsP_mk

theorem keeps_doRegCreate {z0 : State} (s : State) (b : Bytes) (h0 : Keeps z0 s) :
    KeepsP z0 (State.doRegCreate s b) := by
  unfold State.doRegCreate
  repeat' first
    | with_reducible assumption
    | with_reducible intro _
    | (extract_lets +onlyGivenNames x; clear_value x)
    | with_reducible apply keeps_setRegion
    | with_reducible apply keeps_bodyFor
    | split
    | with_reducible apply keepsP_mk

theorem keeps_doRegRemove {z0 : State} (s : State) (d : Nat) (j : Nat) (b : Bytes) (h0 : Keeps z0 s) :
    KeepsP z0 (State.doRegRemove s d j b) := by
  unfold State.doRegRemove
  repeat' first
    | with_reducible assumption
    | with_reducible intro _
    | (extract_lets +onlyGivenNames x; refine keeps_step (a := z0) (s := x) ?_ (fun hx => ?_); subst x; rotate_left; clear_value x; rotate_left)
    | (extract_lets +onlyGivenNames x; clear_value x)
    | with_reducible apply keeps_setRegion
    | with_reducible apply keeps_bodyFor
    | split
    | with_reducible apply keepsP_mk
    | with_reducible refine keeps_mk ?_

theorem keeps_doLinkDisable {z0 : State} (s : State) (b : Bytes) (h0 : Keeps z0 s) :
    KeepsP z0 (State.doLinkDisable s b) := by
  unfold State.doLinkDisable
  repeat' first
    | with_reducible assumption
    | with_reducible apply keeps_askDisable
    | split
    | with_reducible apply keepsP_mk

theorem keeps_doLinkEnable {z0 : State} (s : State) (b : Bytes) (h0 : Keeps z0 s) :
    KeepsP z0 (State.doLinkEnable s b) := by
  unfold State.doLinkEnable
  repeat' first
    | with_reducible assumption
    | with_reducible apply keeps_enableLink
    | split
    | with_reducible apply keepsP_mk

theorem keeps_doMgmt {z0 : State} (s : State) (b : Bytes) (h0 : Keeps z0 s) :
    KeepsP z0 (State.doMgmt s b) := by
  unfold State.doMgmt
  repeat' first
    | with_reducible assumption
    | (extract_lets +onlyGivenNames x; clear_value x)
    | with_reducible apply keeps_sendMgmt
    | split
    | with_reducible apply keepsP_mk

theorem keeps_startStoker {z0 : State} (s : State) (h0 : Keeps z0 s) :
    Keeps z0 (State.startStoker s) := by
  unfold State.startStoker
  repeat' first
    | with_reducible assumption
    | with_reducible intro _
    | (extract_lets +onlyGivenNames x; refine keeps_step (a := z0) (s := x) ?_ (fun hx => ?_); subst x; rotate_left; clear_value x; rotate_left)
    | (extract_lets +onlyGivenNames x; clear_value x)
    | with_reducible apply keeps_setRange
    | with_reducible apply keeps_sinkFull
    | with_reducible apply keeps_startBeat
    | with_reducible apply keeps_foldl
    | with_reducible refine keeps_mk ?_

theorem keeps_doStart {z0 : State} (s : State) (b : Bytes) (h0 : Keeps z0 s) :
    KeepsP z0 (State.doStart s b) := by
  unfold State.doStart
  repeat' first
    | with_reducible assumption
    | with_reducible apply keeps_startStoker
    | split
    | with_reducible apply keepsP_mk

theorem keeps_doRestart {z0 : State} (s : State) (d : Nat) (b : Bytes) (h0 : Keeps z0 s) :
    KeepsP z0 (State.doRestart s d b) := by
  unfold State.doRestart
  repeat' first
    | with_reducible assumption
    | (extract_lets +onlyGivenNames x; clear_value x)
    | split
    | with_reducible apply keepsP_mk
    | with_reducible refine keeps_mk ?_

theorem keeps_eraseSectors {z0 : State} (s : State) (a : Nat) (n : Nat) (h0 : Keeps z0 s) :
    Keeps z0 (State.eraseSectors s a n) := by
  unfold State.eraseSectors
  repeat' first
    | with_reducible assumption
    | with_reducible intro _
    | with_reducible apply keeps_fst
    | with_reducible apply h0
    | with_reducible apply hf
    | with_reducible apply keepsP_mk
    | (with_reducible refine keeps_of_pair ‹_ = (_, _)› ?_)
    | with_reducible refine keeps_mk ?_
    | with_reducible apply keeps_refl

theorem keeps_doFlash {z0 : State} (s : State) (ok : Bool) (b : Bytes) (h0 : Keeps z0 s) :
    KeepsP z0 (State.doFlash s ok b) := by
  unfold State.doFlash
  repeat' first
    | with_reducible assumption
    | with_reducible intro _
    | (extract_lets +onlyGivenNames x; refine keeps_step (a := z0) (s := x) ?_ (fun hx => ?_); subst x; rotate_left; clear_value x; rotate_left)
    | (extract_lets +onlyGivenNames x; clear_value x)
    | with_reducible apply keeps_emit
    | with_reducible apply keeps_eraseSectors
    | with_reducible apply keeps_fst
    | with_reducible apply h0
    | with_reducible apply hf
    | split
    | with_reducible apply keepsP_mk
    | (with_reducible refine keeps_of_pair ‹_ = (_, _)› ?_)
    | with_reducible refine keeps_mk ?_
    | with_reducible apply keeps_refl

theorem keeps_doLedger {z0 : State} (s : State) (verified : Bool) (b : Bytes) (h0 : Keeps z0 s) :
    KeepsP z0 (State.doLedger s verified b) := by
  unfold State.doLedger
  repeat' first
    | with_reducible assumption
    | (extract_lets +onlyGivenNames x; refine keeps_step (a := z0) (s := x) ?_ (fun hx => ?_); subst x; rotate_left; clear_value x; rotate_left)
    | (extract_lets +onlyGivenNames x; clear_value x)
    | with_reducible apply keeps_log
    | split
    | with_reducible apply keepsP_mk
    | with_reducible refine keeps_mk ?_

theorem keeps_beginBurn {z0 : State} (s : State) (h0 : Keeps z0 s) :
    Keeps z0 (State.beginBurn s) := by
  unfold State.beginBurn
  repeat' first
    | with_reducible assumption
    | (extract_lets +onlyGivenNames x; clear_value x)
    | split
    | with_reducible refine keeps_mk ?_

/-! ### Machine/DeployCmds.lean -/

theorem keeps_execDeployMessage {z0 : State} (ecc : List Nat) (s : State) (h0 : Keeps z0 s) :
    KeepsX z0 (execDeployMessage ecc s) := by
  unfold execDeployMessage
  repeat' first
    | with_reducible assumption
    | with_reducible apply keeps_ends
    | with_reducible apply keeps_deployMessage

theorem keeps_execLoad {z0 : State} (s : State) (h0 : Keeps z0 s) :
    KeepsX z0 (execLoad s) := by
  unfold execLoad
  repeat' first
    | with_reducible assumption
    | with_reducible intro _
    | with_reducible apply keeps_ends
    | with_reducible apply keeps_perform
    | with_reducible apply keeps_doLoad

theorem keeps_execArm {z0 : State} (s : State) (h0 : Keeps z0 s) :
    KeepsX z0 (execArm s) := by
  unfold execArm
  repeat' first
    | with_reducible assumption
    | with_reducible intro _
    | with_reducible apply keeps_ends
    | with_reducible apply keeps_perform
    | with_reducible apply keeps_doArm

theorem keeps_execDisable {z0 : State} (s : State) (h0 : Keeps z0 s) :
    KeepsX z0 (execDisable s) := by
  unfold execDisable
  repeat' first
    | with_reducible assumption
    | with_reducible intro _
    | with_reducible apply keeps_ends
    | with_reducible apply keeps_perform
    | with_reducible apply keeps_doDisable

theorem keeps_execEnable {z0 : State} (s : State) (h0 : Keeps z0 s) :
    KeepsX z0 (execEnable s) := by
  unfold execEnable
  repeat' first
    | with_reducible assumption
    | with_reducible intro _
    | with_reducible apply keeps_ends
    | with_reducible apply keeps_perform
    | with_reducible apply keeps_doEnable

theorem keeps_execRemove {z0 : State} (s : State) (h0 : Keeps z0 s) :
    KeepsX z0 (execRemove s) := by
  unfold execRemove
  repeat' first
    | with_reducible assumption
    | with_reducible intro _
    | with_reducible apply keeps_ends
    | with_reducible apply keeps_perform
    | with_reducible apply keeps_doRemove

theorem keeps_execAreaCreate {z0 : State} (s : State) (h0 : Keeps z0 s) :
    KeepsX z0 (execAreaCreate s) := by
  unfold execAreaCreate
  repeat' first
    | with_reducible assumption
    | with_reducible intro _
    | with_reducible apply keeps_ends
    | with_reducible apply keeps_perform
    | with_reducible apply keeps_doAreaCreate

theorem keeps_execAreaRelease {z0 : State} (s : State) (h0 : Keeps z0 s) :
    KeepsX z0 (execAreaRelease s) := by
  unfold execAreaRelease
  repeat' first
    | with_reducible assumption
    | with_reducible intro _
    | with_reducible apply keeps_ends
    | with_reducible apply keeps_perform
    | with_reducible apply keeps_doAreaRelease

theorem keeps_execData {z0 : State} (s : State) (h0 : Keeps z0 s) :
    KeepsX z0 (execData s) := by
  unfold execData
  repeat' first
    | with_reducible assumption
    | with_reducible intro _
    | with_reducible apply keeps_ends
    | with_reducible apply keeps_perform
    | with_reducible apply keeps_doData

theorem keeps_execDataExpect {z0 : State} (s : State) (h0 : Keeps z0 s) :
    KeepsX z0 (execDataExpect s) := by
  unfold execDataExpect
  repeat' first
    | with_reducible assumption
    | with_reducible intro _
    | with_reducible apply keeps_ends
    | with_reducible apply keeps_perform
    | with_reducible apply keeps_doDataExpect

theorem keeps_execStaging {z0 : State} (s : State) (h0 : Keeps z0 s) :
    KeepsX z0 (execStaging s) := by
  unfold execStaging
  repeat' first
    | with_reducible assumption
    | with_reducible intro _
    | with_reducible apply keeps_ends
    | with_reducible apply keeps_perform
    | with_reducible apply keeps_doStaging

theorem keeps_execChOpen {z0 : State} (s : State) (h0 : Keeps z0 s) :
    KeepsX z0 (execChOpen s) := by
  unfold execChOpen
  repeat' first
    | with_reducible assumption
    | with_reducible intro _
    | with_reducible apply keeps_ends
    | with_reducible apply keeps_perform
    | with_reducible apply keeps_doChOpen

theorem keeps_execChClose {z0 : State} (s : State) (h0 : Keeps z0 s) :
    KeepsX z0 (execChClose s) := by
  unfold execChClose
  repeat' first
    | with_reducible assumption
    | with_reducible intro _
    | with_reducible apply keeps_ends
    | with_reducible apply keeps_perform
    | with_reducible apply keeps_doChClose

theorem keeps_execChDisable {z0 : State} (s : State) (h0 : Keeps z0 s) :
    KeepsX z0 (execChDisable s) := by
  unfold execChDisable
  repeat' first
    | with_reducible assumption
    | with_reducible intro _
    | with_reducible apply keeps_ends
    | with_reducible apply keeps_perform
    | with_reducible apply keeps_doChDisable

theorem keeps_execChEnable {z0 : State} (s : State) (h0 : Keeps z0 s) :
    KeepsX z0 (execChEnable s) := by
  unfold execChEnable
  repeat' first
    | with_reducible assumption
    | with_reducible intro _
    | with_reducible apply keeps_ends
    | with_reducible apply keeps_perform
    | with_reducible apply keeps_doChEnable

theorem keeps_execQpCreate {z0 : State} (s : State) (h0 : Keeps z0 s) :
    KeepsX z0 (execQpCreate s) := by
  unfold execQpCreate
  repeat' first
    | with_reducible assumption
    | with_reducible intro _
    | with_reducible apply keeps_ends
    | with_reducible apply keeps_perform
    | with_reducible apply keeps_doQpCreate

theorem keeps_execQpReset {z0 : State} (s : State) (h0 : Keeps z0 s) :
    KeepsX z0 (execQpReset s) := by
  unfold execQpReset
  repeat' first
    | with_reducible assumption
    | with_reducible intro _
    | with_reducible apply keeps_ends
    | with_reducible apply keeps_perform
    | with_reducible apply keeps_doQpReset

theorem keeps_execQpDestroy {z0 : State} (s : State) (h0 : Keeps z0 s) :
    KeepsX z0 (execQpDestroy s) := by
  unfold execQpDestroy
  repeat' first
    | with_reducible assumption
    | with_reducible intro _
    | with_reducible apply keeps_ends
    | with_reducible apply keeps_perform
    | with_reducible apply keeps_doQpDestroy

theorem keeps_execRegCreate {z0 : State} (s : State) (h0 : Keeps z0 s) :
    KeepsX z0 (execRegCreate s) := by
  unfold execRegCreate
  repeat' first
    | with_reducible assumption
    | with_reducible intro _
    | with_reducible apply keeps_ends
    | with_reducible apply keeps_perform
    | with_reducible apply keeps_doRegCreate

theorem keeps_execRegRemove {z0 : State} (s : State) (h0 : Keeps z0 s) :
    KeepsX z0 (execRegRemove s) := by
  unfold execRegRemove
  repeat' first
    | with_reducible assumption
    | with_reducible intro _
    | with_reducible apply keeps_ends
    | with_reducible apply keeps_perform
    | with_reducible apply keeps_doRegRemove

theorem keeps_execLinkDisable {z0 : State} (s : State) (h0 : Keeps z0 s) :
    KeepsX z0 (execLinkDisable s) := by
  unfold execLinkDisable
  repeat' first
    | with_reducible assumption
    | with_reducible intro _
    | with_reducible apply keeps_ends
    | with_reducible apply keeps_perform
    | with_reducible apply keeps_doLinkDisable

theorem keeps_execLinkEnable {z0 : State} (s : State) (h0 : Keeps z0 s) :
    KeepsX z0 (execLinkEnable s) := by
  unfold execLinkEnable
  repeat' first
    | with_reducible assumption
    | with_reducible intro _
    | with_reducible apply keeps_ends
    | with_reducible apply keeps_perform
    | with_reducible apply keeps_doLinkEnable

theorem keeps_execMgmtRequest {z0 : State} (s : State) (h0 : Keeps z0 s) :
    KeepsX z0 (execMgmtRequest s) := by
  unfold execMgmtRequest
  repeat' first
    | with_reducible assumption
    | with_reducible intro _
    | with_reducible apply keeps_ends
    | with_reducible apply keeps_perform
    | with_reducible apply keeps_doMgmt

theorem keeps_execStart {z0 : State} (s : State) (h0 : Keeps z0 s) :
    KeepsX z0 (execStart s) := by
  unfold execStart
  repeat' first
    | with_reducible assumption
    | with_reducible intro _
    | with_reducible apply keeps_ends
    | with_reducible apply keeps_perform
    | with_reducible apply keeps_doStart

theorem keeps_execRestart {z0 : State} (s : State) (h0 : Keeps z0 s) :
    KeepsX z0 (execRestart s) := by
  unfold execRestart
  repeat' first
    | with_reducible assumption
    | with_reducible intro _
    | with_reducible apply keeps_ends
    | with_reducible apply keeps_perform
    | with_reducible apply keeps_doRestart

theorem keeps_execFlashWrite {z0 : State} (ok : Bool) (s : State) (h0 : Keeps z0 s) :
    KeepsX z0 (execFlashWrite ok s) := by
  unfold execFlashWrite
  repeat' first
    | with_reducible assumption
    | with_reducible intro _
    | with_reducible apply keeps_ends
    | with_reducible apply keeps_perform
    | with_reducible apply keeps_doFlash

theorem keeps_execLedger {z0 : State} (res : Option Bool) (s : State) (h0 : Keeps z0 s) :
    KeepsX z0 (execLedger res s) := by
  unfold execLedger
  repeat' first
    | with_reducible assumption
    | with_reducible intro _
    | with_reducible apply keeps_ends
    | with_reducible apply keeps_perform
    | with_reducible apply keeps_doLedger
    | with_reducible apply keeps_beginBurn
    | split

/-! ### Machine/Service.lean -/

theorem keeps_sbCsrRead {z0 : State} (s : State) (a : Nat) (n : Nat) (h0 : Keeps z0 s) :
    KeepsP z0 (State.sbCsrRead s a n) := by
  unfold State.sbCsrRead
  repeat' first
    | with_reducible assumption
    | split
    | with_reducible apply keepsP_mk

theorem keeps_sbSleep {z0 : State} (s : State) (st : Nat) (confirm : Nat) (h0 : Keeps z0 s) :
    KeepsP z0 (State.sbSleep s st confirm) := by
  unfold State.sbSleep
  repeat' first
    | with_reducible assumption
    | (extract_lets +onlyGivenNames x; refine keeps_step (a := z0) (s := x) ?_ (fun hx => ?_); subst x; rotate_left; clear_value x; rotate_left)
    | (extract_lets +onlyGivenNames x; clear_value x)
    | with_reducible apply keeps_log
    | split
    | with_reducible apply keepsP_mk
    | with_reducible refine keeps_mk ?_

theorem keeps_sbAlertAck {z0 : State} (s : State) (clear : Nat) (mask : Nat) (same : BitVec 5) (h0 : Keeps z0 s) :
    KeepsP z0 (State.sbAlertAck s clear mask same) := by
  unfold State.sbAlertAck
  repeat' first
    | with_reducible assumption
    | (extract_lets +onlyGivenNames x; clear_value x)
    | split
    | with_reducible apply keepsP_mk
    | with_reducible refine keeps_mk ?_

theorem keeps_sbPerform {z0 : State} (s : State) (c : Nat) (p : Bytes) (same : BitVec 5) (h0 : Keeps z0 s) :
    KeepsP z0 (State.sbPerform s c p same) := by
  unfold State.sbPerform
  repeat' first
    | with_reducible assumption
    | with_reducible apply keeps_sbCsrRead
    | with_reducible apply keeps_sbSleep
    | with_reducible apply keeps_sbAlertAck
    | split
    | with_reducible apply keepsP_mk

theorem keeps_sbAnswer {z0 : State} (s : State) (status : Nat) (p : Bytes) (h0 : Keeps z0 s) :
    Keeps z0 (State.sbAnswer s status p) := by
  unfold State.sbAnswer
  repeat' first
    | with_reducible assumption
    | (extract_lets +onlyGivenNames x; clear_value x)
    | split
    | with_reducible refine keeps_mk ?_

theorem keeps_mailbox {z0 : State} (s : State) (a : BitVec 7) (f : Bytes) (during : Bool) (same : BitVec 5) (h0 : Keeps z0 s) :
    Keeps z0 (State.mailbox s a f during same) := by
  fun_cases State.mailbox s a f during same
  · exact h0
  · exact h0
  · exact keeps_mk h0
  · exact keeps_sbAnswer _ _ _ (keeps_of_pair ‹_ = (_, _)› (keeps_sbPerform _ _ _ _ h0))
  · exact keeps_sbAnswer _ _ _ h0

theorem keeps_mailboxRead {z0 : State} (s : State) (a : BitVec 7) (ended : Bool) (h0 : Keeps z0 s) :
    Keeps z0 (State.mailboxRead s a ended) := by
  unfold State.mailboxRead
  repeat' first
    | with_reducible assumption
    | (extract_lets +onlyGivenNames x; clear_value x)
    | with_reducible apply keeps_emit
    | split
    | with_reducible refine keeps_mk ?_

theorem keeps_direct {z0 : State} (s : State) (a : BitVec 7) (f : State → State) (h0 : Keeps z0 s) (h1 : ∀ (y0 : State), Keeps z0 y0 → Keeps z0 (f y0)) :
    Keeps z0 (State.direct s a f) := by
  unfold State.direct
  repeat' first
    | with_reducible assumption
    | with_reducible apply h1
    | split

theorem keeps_ccc {z0 : State} (s : State) (a : Option (BitVec 7)) (f : State → State) (h0 : Keeps z0 s) (h1 : ∀ (y0 : State), Keeps z0 y0 → Keeps z0 (f y0)) :
    Keeps z0 (State.ccc s a f) := by
  unfold State.ccc
  repeat' first
    | with_reducible assumption
    | with_reducible apply keeps_direct
    | with_reducible apply h1
    | split

theorem keeps_setDyn {z0 : State} (s : State) (v : BitVec 7) (h0 : Keeps z0 s) :
    Keeps z0 (State.setDyn s v) := by
  unfold State.setDyn
  repeat' first
    | with_reducible assumption
    | (extract_lets +onlyGivenNames x; clear_value x)
    | with_reducible refine keeps_mk ?_

theorem keeps_entdaa {z0 : State} (s : State) (won : Option (BitVec 7)) (h0 : Keeps z0 s) :
    Keeps z0 (State.entdaa s won) := by
  unfold State.entdaa
  repeat' first
    | with_reducible assumption
    | (extract_lets +onlyGivenNames x; refine keeps_step (a := z0) (s := x) ?_ (fun hx => ?_); subst x; rotate_left; clear_value x; rotate_left)
    | with_reducible apply keeps_emit
    | with_reducible apply keeps_setDyn
    | split

theorem keeps_tapLoad {z0 : State} (s : State) (code : BitVec 8) (ok : Bool) (drive : Nat) (h0 : Keeps z0 s) :
    Keeps z0 (State.tapLoad s code ok drive) := by
  unfold State.tapLoad
  repeat' first
    | with_reducible assumption
    | (extract_lets +onlyGivenNames x; clear_value x)
    | split
    | with_reducible refine keeps_mk ?_

theorem keeps_scanCells {z0 : State} (s : State) (pins : BitVec 379) (shift : BitVec 379) (h0 : Keeps z0 s) :
    Keeps z0 (State.scanCells s pins shift) := by
  unfold State.scanCells
  repeat' first
    | with_reducible assumption
    | (extract_lets +onlyGivenNames x; clear_value x)
    | with_reducible apply keeps_emit
    | with_reducible refine keeps_mk ?_

theorem keeps_scanBypass {z0 : State} (s : State) (h0 : Keeps z0 s) :
    Keeps z0 (State.scanBypass s) := by
  unfold State.scanBypass
  repeat' first
    | with_reducible assumption
    | with_reducible apply keeps_emit

theorem keeps_testScan {z0 : State} (s : State) (code : BitVec 8) (drive : Nat) (pins : BitVec 379) (shift : BitVec 379) (h0 : Keeps z0 s) :
    Keeps z0 (State.testScan s code drive pins shift) := by
  unfold State.testScan
  repeat' first
    | with_reducible assumption
    | (extract_lets +onlyGivenNames x; refine keeps_step (a := z0) (s := x) ?_ (fun hx => ?_); subst x; rotate_left; clear_value x; rotate_left)
    | with_reducible apply keeps_tapLoad
    | with_reducible apply keeps_scanCells
    | with_reducible apply keeps_scanBypass
    | split

theorem keeps_testHold {z0 : State} (s : State) (code : BitVec 8) (drive : Nat) (h0 : Keeps z0 s) :
    Keeps z0 (State.testHold s code drive) := by
  unfold State.testHold
  repeat' first
    | with_reducible assumption
    | with_reducible apply keeps_tapLoad
    | with_reducible apply keeps_scanBypass
    | split

theorem keeps_debug {z0 : State} (s : State) (op : DebugOp) (h0 : Keeps z0 s) :
    Keeps z0 (State.debug s op) := by
  unfold State.debug
  repeat' first
    | with_reducible assumption
    | (extract_lets +onlyGivenNames x; clear_value x)
    | with_reducible apply keeps_emit
    | with_reducible apply keeps_csrWrite
    | with_reducible apply keeps_placeRaw
    | split
    | with_reducible refine keeps_mk ?_

theorem keeps_tapDebug {z0 : State} (s : State) (op : DebugOp) (h0 : Keeps z0 s) :
    Keeps z0 (State.tapDebug s op) := by
  unfold State.tapDebug
  repeat' first
    | with_reducible assumption
    | (extract_lets +onlyGivenNames x; refine keeps_step (a := z0) (s := x) ?_ (fun hx => ?_); subst x; rotate_left; clear_value x; rotate_left)
    | with_reducible apply keeps_tapLoad
    | with_reducible apply keeps_scanBypass
    | with_reducible apply keeps_debug
    | split

/-! ### Machine/ServiceCmds.lean -/

theorem keeps_execMailboxRead {z0 : State} (a : BitVec 7) (ended : Bool) (s : State) (h0 : Keeps z0 s) :
    KeepsX z0 (execMailboxRead a ended s) := by
  unfold execMailboxRead
  repeat' first
    | with_reducible assumption
    | with_reducible apply keeps_ends
    | with_reducible apply keeps_mailboxRead

theorem keeps_execGetStatus {z0 : State} (a : BitVec 7) (during : Bool) (s : State) (h0 : Keeps z0 s) :
    KeepsX z0 (execGetStatus a during s) := by
  unfold execGetStatus
  repeat' first
    | with_reducible assumption
    | with_reducible apply keeps_ends
    | with_reducible apply keeps_mailbox

theorem keeps_execGetIdentity {z0 : State} (a : BitVec 7) (during : Bool) (s : State) (h0 : Keeps z0 s) :
    KeepsX z0 (execGetIdentity a during s) := by
  unfold execGetIdentity
  repeat' first
    | with_reducible assumption
    | with_reducible apply keeps_ends
    | with_reducible apply keeps_mailbox

theorem keeps_execGetTelemetry {z0 : State} (a : BitVec 7) (during : Bool) (s : State) (h0 : Keeps z0 s) :
    KeepsX z0 (execGetTelemetry a during s) := by
  unfold execGetTelemetry
  repeat' first
    | with_reducible assumption
    | with_reducible apply keeps_ends
    | with_reducible apply keeps_mailbox

theorem keeps_execLogRead {z0 : State} (a : BitVec 7) (seq : Word) (count : Byte) (during : Bool) (s : State) (h0 : Keeps z0 s) :
    KeepsX z0 (execLogRead a seq count during s) := by
  unfold execLogRead
  repeat' first
    | with_reducible assumption
    | with_reducible apply keeps_ends
    | with_reducible apply keeps_mailbox

theorem keeps_execCsrRead {z0 : State} (a : BitVec 7) (addr : BitVec 40) (count : Byte) (during : Bool) (s : State) (h0 : Keeps z0 s) :
    KeepsX z0 (execCsrRead a addr count during s) := by
  unfold execCsrRead
  repeat' first
    | with_reducible assumption
    | with_reducible apply keeps_ends
    | with_reducible apply keeps_mailbox

theorem keeps_execLedgerRead {z0 : State} (a : BitVec 7) (setting : Byte) (slot : Byte) (during : Bool) (s : State) (h0 : Keeps z0 s) :
    KeepsX z0 (execLedgerRead a setting slot during s) := by
  unfold execLedgerRead
  repeat' first
    | with_reducible assumption
    | with_reducible apply keeps_ends
    | with_reducible apply keeps_mailbox

theorem keeps_execSleep {z0 : State} (a : BitVec 7) (st : Byte) (confirm : Byte) (during : Bool) (s : State) (h0 : Keeps z0 s) :
    KeepsX z0 (execSleep a st confirm during s) := by
  unfold execSleep
  repeat' first
    | with_reducible assumption
    | with_reducible apply keeps_ends
    | with_reducible apply keeps_mailbox

theorem keeps_execAlertAck {z0 : State} (a : BitVec 7) (clear : Byte) (mask : Byte) (same : BitVec 5) (during : Bool) (s : State) (h0 : Keeps z0 s) :
    KeepsX z0 (execAlertAck a clear mask same during s) := by
  unfold execAlertAck
  repeat' first
    | with_reducible assumption
    | with_reducible apply keeps_ends
    | with_reducible apply keeps_mailbox

theorem keeps_execCommandFrame {z0 : State} (a : BitVec 7) (f : Bytes) (during : Bool) (s : State) (h0 : Keeps z0 s) :
    KeepsX z0 (execCommandFrame a f during s) := by
  unfold execCommandFrame
  repeat' first
    | with_reducible assumption
    | with_reducible apply keeps_ends
    | with_reducible apply keeps_mailbox

theorem keeps_execEnec {z0 : State} (a : Option (BitVec 7)) (ev : Byte) (s : State) (h0 : Keeps z0 s) :
    KeepsX z0 (execEnec a ev s) := by
  unfold execEnec
  repeat' first
    | with_reducible assumption
    | with_reducible intro _
    | (extract_lets +onlyGivenNames x; clear_value x)
    | with_reducible apply keeps_ends
    | with_reducible apply keeps_ccc
    | split
    | with_reducible refine keeps_mk ?_

theorem keeps_execDisec {z0 : State} (a : Option (BitVec 7)) (ev : Byte) (s : State) (h0 : Keeps z0 s) :
    KeepsX z0 (execDisec a ev s) := by
  unfold execDisec
  repeat' first
    | with_reducible assumption
    | with_reducible intro _
    | (extract_lets +onlyGivenNames x; clear_value x)
    | with_reducible apply keeps_ends
    | with_reducible apply keeps_ccc
    | split
    | with_reducible refine keeps_mk ?_

theorem keeps_execRstdaa {z0 : State} (s : State) (h0 : Keeps z0 s) :
    KeepsX z0 (execRstdaa s) := by
  unfold execRstdaa
  repeat' first
    | with_reducible assumption
    | with_reducible intro _
    | (extract_lets +onlyGivenNames x; clear_value x)
    | with_reducible apply keeps_ends
    | with_reducible apply keeps_ccc
    | with_reducible refine keeps_mk ?_

theorem keeps_execEntdaa {z0 : State} (won : Option (BitVec 7)) (s : State) (h0 : Keeps z0 s) :
    KeepsX z0 (execEntdaa won s) := by
  unfold execEntdaa
  repeat' first
    | with_reducible assumption
    | with_reducible apply keeps_ends
    | with_reducible apply keeps_entdaa

theorem keeps_execSetdasa {z0 : State} (a : BitVec 7) (v : BitVec 7) (s : State) (h0 : Keeps z0 s) :
    KeepsX z0 (execSetdasa a v s) := by
  unfold execSetdasa
  repeat' first
    | with_reducible assumption
    | with_reducible intro _
    | with_reducible apply keeps_ends
    | with_reducible apply keeps_direct
    | with_reducible apply keeps_setDyn
    | split

theorem keeps_execSetnewda {z0 : State} (a : BitVec 7) (v : BitVec 7) (s : State) (h0 : Keeps z0 s) :
    KeepsX z0 (execSetnewda a v s) := by
  unfold execSetnewda
  repeat' first
    | with_reducible assumption
    | with_reducible intro _
    | with_reducible apply keeps_ends
    | with_reducible apply keeps_direct
    | with_reducible apply keeps_setDyn
    | split

theorem keeps_execGetpid {z0 : State} (a : BitVec 7) (s : State) (h0 : Keeps z0 s) :
    KeepsX z0 (execGetpid a s) := by
  unfold execGetpid
  repeat' first
    | with_reducible assumption
    | with_reducible intro _
    | with_reducible apply keeps_emit
    | with_reducible apply keeps_ends
    | with_reducible apply keeps_direct

theorem keeps_execGetbcr {z0 : State} (a : BitVec 7) (s : State) (h0 : Keeps z0 s) :
    KeepsX z0 (execGetbcr a s) := by
  unfold execGetbcr
  repeat' first
    | with_reducible assumption
    | with_reducible intro _
    | with_reducible apply keeps_emit
    | with_reducible apply keeps_ends
    | with_reducible apply keeps_direct

theorem keeps_execGetdcr {z0 : State} (a : BitVec 7) (s : State) (h0 : Keeps z0 s) :
    KeepsX z0 (execGetdcr a s) := by
  unfold execGetdcr
  repeat' first
    | with_reducible assumption
    | with_reducible intro _
    | with_reducible apply keeps_emit
    | with_reducible apply keeps_ends
    | with_reducible apply keeps_direct

theorem keeps_execGetmwl {z0 : State} (a : BitVec 7) (s : State) (h0 : Keeps z0 s) :
    KeepsX z0 (execGetmwl a s) := by
  unfold execGetmwl
  repeat' first
    | with_reducible assumption
    | with_reducible intro _
    | with_reducible apply keeps_emit
    | with_reducible apply keeps_ends
    | with_reducible apply keeps_direct

theorem keeps_execGetmrl {z0 : State} (a : BitVec 7) (s : State) (h0 : Keeps z0 s) :
    KeepsX z0 (execGetmrl a s) := by
  unfold execGetmrl
  repeat' first
    | with_reducible assumption
    | with_reducible intro _
    | with_reducible apply keeps_emit
    | with_reducible apply keeps_ends
    | with_reducible apply keeps_direct

theorem keeps_execGetstatus {z0 : State} (a : BitVec 7) (s : State) (h0 : Keeps z0 s) :
    KeepsX z0 (execGetstatus a s) := by
  unfold execGetstatus
  repeat' first
    | with_reducible assumption
    | with_reducible intro _
    | with_reducible apply keeps_emit
    | with_reducible apply keeps_ends
    | with_reducible apply keeps_direct

theorem keeps_execExtest {z0 : State} (pins : BitVec 379) (shift : BitVec 379) (s : State) (h0 : Keeps z0 s) :
    KeepsX z0 (execExtest pins shift s) := by
  unfold execExtest
  repeat' first
    | with_reducible assumption
    | with_reducible apply keeps_ends
    | with_reducible apply keeps_testScan

theorem keeps_execIdcode {z0 : State} (s : State) (h0 : Keeps z0 s) :
    KeepsX z0 (execIdcode s) := by
  unfold execIdcode
  repeat' first
    | with_reducible assumption
    | with_reducible apply keeps_emit
    | with_reducible apply keeps_ends
    | with_reducible apply keeps_tapLoad
    | split

theorem keeps_execSamplePreload {z0 : State} (pins : BitVec 379) (shift : BitVec 379) (s : State) (h0 : Keeps z0 s) :
    KeepsX z0 (execSamplePreload pins shift s) := by
  unfold execSamplePreload
  repeat' first
    | with_reducible assumption
    | with_reducible apply keeps_ends
    | with_reducible apply keeps_tapLoad
    | with_reducible apply keeps_scanCells
    | split

theorem keeps_execClamp {z0 : State} (s : State) (h0 : Keeps z0 s) :
    KeepsX z0 (execClamp s) := by
  unfold execClamp
  repeat' first
    | with_reducible assumption
    | with_reducible apply keeps_ends
    | with_reducible apply keeps_testHold

theorem keeps_execHighz {z0 : State} (s : State) (h0 : Keeps z0 s) :
    KeepsX z0 (execHighz s) := by
  unfold execHighz
  repeat' first
    | with_reducible assumption
    | with_reducible apply keeps_ends
    | with_reducible apply keeps_testHold

theorem keeps_execExtestPulse {z0 : State} (pins : BitVec 379) (shift : BitVec 379) (s : State) (h0 : Keeps z0 s) :
    KeepsX z0 (execExtestPulse pins shift s) := by
  unfold execExtestPulse
  repeat' first
    | with_reducible assumption
    | with_reducible apply keeps_ends
    | with_reducible apply keeps_testScan

theorem keeps_execExtestTrain {z0 : State} (pins : BitVec 379) (shift : BitVec 379) (s : State) (h0 : Keeps z0 s) :
    KeepsX z0 (execExtestTrain pins shift s) := by
  unfold execExtestTrain
  repeat' first
    | with_reducible assumption
    | with_reducible apply keeps_ends
    | with_reducible apply keeps_testScan

theorem keeps_execDebug {z0 : State} (op : DebugOp) (s : State) (h0 : Keeps z0 s) :
    KeepsX z0 (execDebug op s) := by
  unfold execDebug
  repeat' first
    | with_reducible assumption
    | with_reducible apply keeps_ends
    | with_reducible apply keeps_tapDebug

theorem keeps_execBypass {z0 : State} (s : State) (h0 : Keeps z0 s) :
    KeepsX z0 (execBypass s) := by
  unfold execBypass
  repeat' first
    | with_reducible assumption
    | with_reducible apply keeps_ends
    | with_reducible apply keeps_tapLoad
    | with_reducible apply keeps_scanBypass
    | split

theorem keeps_execTapReset {z0 : State} (s : State) (h0 : Keeps z0 s) :
    KeepsX z0 (execTapReset s) := by
  unfold execTapReset
  repeat' first
    | with_reducible assumption
    | (extract_lets +onlyGivenNames x; clear_value x)
    | with_reducible apply keeps_ends
    | with_reducible refine keeps_mk ?_

end Sys2Proof.Machine
end

