-- ==== Sys2Proof/Tests/Slice0.lean ====
section
/-! SUPPORT. Tests of the model: ill-formed terms that the checks refuse, values worked out from the spec, and for every statement with hypotheses a
concrete state and operands that meet them together: `witness_<Statement>`, and where a statement has several parts one for each: GroupCommits (also MoveMade,
RangeTransfers), CsrWrites (CsrWritesMover, CsrWritesLater, otp), MoverIssues (LoadIssues), MoverEnds (DescriptorEnds, MoverTimeouts), MoverTraffic (MoverSlots, Overtakes, SpineDelivers),
GapTreated (GapEnd, GapEnd2), QuartersResume (QuarterResumes, SimmerEnds), StallProtocol (PollInSimmer, LoneLeader), Messages (MessagesArrive, MessagesCount), Chimneys
(Contributions, RoundsComplete), StagingBlocks (StagingRefused), LinkStates (LinkTimers, LinkTrained, LinksBreak), LinkFlits (ControlFlits, Replays), RemoteAccesses
(ResponsesComeHome), FabricTransit (TransitMoves, Management), TransportWork (WorkBegins, OwnWork), BeyfatrePackets (received, refused, bigPost), EthernetEvents (EthernetFrames,
EchoTooLong, TransportEvents), ResetsAndBringUp (ResetsAct, BringUpGoesOn, WakeN, CopyBoots), PairRegionAndPartRequests (PairRequests, RegionRequests, PartRequests),
Sideband (Mailbox, CommonCommandCodes, TestAccess). CanonKept's also meets the hypothesis of QueueOrder. -/
namespace Sys2Proof.Tests
open Sys2Proof Sys2Proof.Machine
set_option Elab.async false

/-! ### Ill-formed terms -/

def okFlash : Flash := { sfdp := true, quad := true, addr4 := true, size := 27, parts := [] }
def okBoot : BootEnv := { flash := okFlash, refs := 3, trims := List.replicate 4 (32, 32), naks := [], avsOk := true, avsMv := 700, failing := 0 }
def okSeam : SeamEnv := { tq := [(0, 40), (3, 41)], tm := 38, bridge := [(1, 0)], station := [] }
def okTrain : TrainResult := { frames := List.replicate 8 (List.replicate 64 0), good := 0xFF, polarity := 0 }
/-- Nothing for the FEC to report. -/
def noFec : FecReport := { corrected := 0, uncorrectable := 0, lanes := List.replicate 8 0, hit := false }

theorem smoke_good : okBoot.wf = true ∧ okSeam.wf = true ∧ okTrain.wf = true ∧ (Instr.coldReset 5 false okBoot).wf = true ∧ (Instr.seamStart 1 okSeam).wf = true := by decide +kernel
theorem smoke_csrWrite : (Instr.csrWrite ⟨.jtag, 0, 0⟩ 0xF000000021 7).wf = false ∧ (Instr.otpWrite ⟨.jtag, 0, 0⟩ 0xF000000022 7).wf = false := by decide +kernel
theorem smoke_ecc : (Instr.group 0 0 [3]).wf = false ∧ (Instr.hbmMoverAccess 0 0 0 [0, 7]).wf = false ∧ (Instr.deployMessage [3]).wf = false := by decide +kernel
theorem smoke_seam : (Instr.seamStart 1 { okSeam with tq := [(4, 40)] }).wf = false ∧ (Instr.seamStart 1 { okSeam with bridge := [(1, 0), (1, 2)] }).wf = false ∧
  (Instr.seamStart 1 { okSeam with station := [(7, 0)] }).wf = false := by decide +kernel
theorem smoke_simmerExit : (Instr.simmerExit okSeam [(1, 1)]).wf = false ∧ (Instr.simmerExit okSeam [(1, 1), (1, 1), (64, 1), (1, 1)]).wf = false ∧
  (Instr.simmerExit okSeam [(1, 1), (1, 1), (63, 0), (1, 1)]).wf = true := by decide +kernel
theorem smoke_train : (Instr.trainComplete 0 { okTrain with frames := [[]] }).wf = false ∧ (Instr.trainComplete 0 { okTrain with frames := List.replicate 8 [1] }).wf = false ∧
  (Instr.trainComplete 0 { okTrain with frames := List.replicate 8 [] }).wf = true := by decide +kernel
theorem smoke_flits : (Instr.controlFlit 0 (List.replicate 63 0) ⟨31, noFec⟩).wf = false ∧ (Instr.controlFlit 0 (List.replicate 64 0) ⟨32, noFec⟩).wf = false ∧
  (Instr.controlFlit 0 (List.replicate 64 0) ⟨31, noFec⟩).wf = true ∧ (Instr.headerCrcFail 0 [] ⟨0, noFec⟩).wf = false ∧ (Instr.headerCrcFail 0 (List.replicate 64 0) ⟨31, noFec⟩).wf = false ∧
  (Instr.linkPacketReceive 0 (List.replicate 100 0) ⟨0, noFec⟩).wf = false ∧ (Instr.linkPacketReceive 0 (List.replicate 128 0) ⟨63, noFec⟩).wf = false ∧
  (Instr.linkPacketReceive 0 (List.replicate 128 0) ⟨0, noFec⟩).wf = true := by decide +kernel
theorem smoke_fec : (Instr.controlFlit 0 (List.replicate 64 0) ⟨31, { noFec with lanes := [0] }⟩).wf = false ∧ (Instr.headerCrcFail 0 (List.replicate 64 0) ⟨0, { noFec with hit := true }⟩).wf = false ∧
  (Instr.linkPacketReceive 0 (List.replicate 64 0) ⟨0, { noFec with hit := true, uncorrectable := 1 }⟩).wf = true := by decide +kernel
theorem smoke_frames : (Instr.bfSend 0 [] true).wf = false ∧ (Instr.bfPut 0 [] true).wf = false ∧ (Instr.bfGet 0 [] true).wf = false ∧ (Instr.getrsp 0 [] true).wf = false ∧
  (Instr.bfFlush 0 [] true).wf = false ∧ (Instr.bfChpost 0 [] true).wf = false ∧ (Instr.ack 0 [] true).wf = false ∧ (Instr.connect 0 [] true).wf = false ∧
  (Instr.accept 0 [] true).wf = false ∧ (Instr.arpRequest 0 [] true).wf = false ∧ (Instr.neighbourSolicitation 0 [] true).wf = false ∧ (Instr.echoRequest 0 [] true).wf = false ∧
  (Instr.pauseFrame 0 [] true).wf = false ∧ (Instr.receivedFrame 0 (List.replicate 13 0) true).wf = false := by decide +kernel
theorem smoke_clock : (Instr.witnessWindow none [(20, 0)]).wf = false ∧ (Instr.changeover [(0, 0)]).wf = false := by decide +kernel
theorem smoke_flash : (Instr.flashRetry { okBoot with flash := { okFlash with size := 32 } }).wf = false ∧
  (Instr.warmReset { okBoot with flash := { okFlash with size := 4, parts := [(1, [0, 0])] } }).wf = false ∧
  (Instr.restartReset true { okBoot with flash := { okFlash with parts := [(0, [1, 2]), (1, [3])] } }).wf = false := by decide +kernel
theorem smoke_boot : (Instr.coldReset 5 false { okBoot with trims := [] }).wf = false ∧ (Instr.warmReset { okBoot with naks := [8] }).wf = false ∧
  (Instr.powerGoodReport 0 .on { okBoot with naks := [1, 1] }).wf = false ∧ (Instr.flashRetry { okBoot with avsMv := 1024 }).wf = false := by decide +kernel
theorem smoke_debug : (Instr.debug (.readWord 3)).wf = false ∧ (Instr.debug (.writeWord 2 0)).wf = false ∧ (Instr.debug (.readLocal 0xFFFFFFFFFF 2)).wf = false ∧
  (Instr.debug (.writeLocal 0xFFFFFFFFFF [0, 0])).wf = false ∧ (Instr.debug .halt).wf = true := by decide +kernel

/-! ### Values that the spec works out -/

def digits9 : Bytes := [0x31, 0x32, 0x33, 0x34, 0x35, 0x36, 0x37, 0x38, 0x39]
/-- R282: the check value of HCRC. -/
theorem test_hcrc : crc16 digits9 = 0x29B1 := by decide +kernel
/-- R282: the check value of PCRC. -/
theorem test_pcrc : crc32c digits9 = 0xE3069283 := by decide +kernel
/-- Chapter 15, reading across the log's wrap: the PEC of the LOG_READ frame. -/
theorem test_pec : sbFrame 4 [0x3E, 0x1F, 0, 0, 2] = [0x04, 0x05, 0x3E, 0x1F, 0, 0, 0x02, 0x47] ∧ frameCheck [0x04, 0x05, 0x3E, 0x1F, 0, 0, 0x02, 0x47] = 0 := by decide +kernel
/-- Chapter 15, the same example: two entries from 0x1F3E of a full log start at TAIL. -/
theorem test_logRead : (({ State.reset with svc := { State.reset.svc with head := 0x2F40, count := 0x2F40 } } : State).logRead 0x1F3E 2).take 5 = [0x40, 0x1F, 0, 0, 2] := by decide +kernel
/-- Chapter 3, one transfer across four stations: the slot at station 4 in cycle 40, and where it stands later. -/
theorem test_slotAt : slotAt 0 4 40 = 12 ∧ slotAt 0 8 44 = 12 ∧ slotAt 0 12 48 = 12 ∧ slotAt 0 4 56 = 12 ∧ slotAt 1 4 40 = 12 ∧ slotAt 1 8 52 = 12 := by decide +kernel
/-- Chapter 4, a matrix tile step: the bundle written out field by field. -/
theorem test_tileStep : slotM 0x1200000000004160008001 = 0x4160008001 ∧ slotL0 0x1200000000004160008001 = 0x12 ∧
  mAop 0x4160008001 = 1 ∧ mEmode 0x4160008001 = true ∧ mPl 0x4160008001 = true ∧ mWord 0x4160008001 = 5 ∧ mWadv 0x4160008001 = true ∧ mLegal 0x4160008001 = true ∧
  lsOp 0x12 = 2 ∧ lsAdv 0x12 = true ∧ lsLines 0x12 = 1 ∧ loadLegal 0x12 = true := by decide +kernel
/-- Table 4.19: the V slots of the softmax row. -/
theorem test_softmax : (vOp 0x450, vD 0x450, vA 0x450) = (0x10, 2, 1) ∧ (vOp 0x4010461, vD 0x4010461, vA 0x4010461, vB 0x4010461, vNB 0x4010461) = (1, 3, 1, 2, true) ∧
  (vOp 0x20C62, vD 0x20C62, vA 0x20C62, vB 0x20C62) = (2, 3, 3, 4) ∧ (vOp 0xCAB, vD 0xCAB, vA 0xCAB) = (0xB, 5, 3) ∧ (vOp 0x14CF, vD 0x14CF, vA 0x14CF) = (0xF, 6, 5) ∧
  (vOp 0x18EE, vD 0x18EE, vA 0x18EE) = (0xE, 7, 6) ∧ (vOp 0x39502, vD 0x39502, vA 0x39502, vB 0x39502) = (2, 8, 5, 7) := by decide +kernel
/-- Table 4.19: the offsets that its result cycles imply. -/
theorem test_vOffset : vOffset 0x10 = 10 ∧ vOffset 1 = 5 ∧ vOffset 2 = 5 ∧ vOffset 0xB = 10 ∧ vOffset 0xF = 10 ∧ vOffset 0xE = 10 ∧ vOffset 3 = 6 := by decide +kernel
/-- Table 2.7: generator L0 of the dilated convolution at step `n`. -/
def convGen (n : Nat) : Gen :=
  { reg := [(0, 1024), (1, 0x4631), (3, 16), (4, 16), (5, 3), (6, 3), (7, 1), (13, 0x100010), (14, 0x222211), (15, 1), (16, 16)],
    idx := (List.range 5).foldl (fun m i => put 0 i ([n % 16, n / 16 % 16, n / 256 % 3, n / 768, 0].getD i 0) m) [] }
theorem test_convolution : ((convGen 0).access 0 1, (convGen 34).access 0 1, (convGen 782).access 0 1) = (.pad, .lines [1024], .lines [1036]) ∧
  ((convGen 1300).access 0 1, (convGen 1310).access 0 1, (convGen 2303).access 0 1) = (.lines [1046], .pad, .pad) := by decide +kernel
/-- Chapter 13, R400: 0.80 V with 10 mV, 50 µΩ and 520 A gives code 44. -/
theorem test_targetCode (h : vmapCode 0 = 36) :
    ({ State.reset with pwr := { State.reset.pwr with voffset := 2, rll := 50, amps := 520 } } : State).targetCode 0 = 44 := by
  simp only [State.targetCode, h, ceilDiv]
/-- Chapter 8: address 0x02_4000_1A40 lies in quarter 1, pseudo-channel 2. -/
theorem test_hbmAddress : 0x0240001A40 / hbmQuarter = 1 ∧ 0x0240001A40 % hbmQuarter = 6720 ∧ addrPc 0x0240001A40 = 2 ∧ burstAddr 1 2 3 2 = 0x0240001A40 := by decide +kernel
/-- Chapter 9: the block of link FX7 begins at 0xF0_16A0_0000, and chapter 2: hob 13's at its block. -/
theorem test_csrBlocks : 0xF000000000 + 0x10000000 + 1 * 0x4000000 + 0x2800000 + 2 * 0x100000 = 0xF016A00000 := by decide +kernel
/-- Table 2.4, R45, R54, R55: corners of the vector unit. -/
theorem test_fp : fpAdd 0x3F800000 0x3F800000 = 0x40000000 ∧ fpMul 0x3F800000 0xBF800000 = 0xBF800000 ∧ fpAdd 0x7F800000 0xFF800000 = 0x7FC00000 ∧
  fpFma 0x3F800000 0x3F800000 0xBF800000 = 0 ∧ fpExp2 0x3F800000 = 0x40000000 ∧ fpExp2 0xFF800000 = 0 ∧ fpRcp 0x40000000 = 0x3F000000 ∧ fpMin 0x80000000 0 = 0x80000000 := by decide +kernel

/-! ### States for the tests -/

/-- A part in service: step 10, mode RUN. -/
def base : State :=
  { State.reset with stk := { State.reset.stk with started := true }, svc := { State.reset.svc with mode := 1 }, boot := { State.reset.boot with held := 0, step := 10 } }
/-- The same part with its service core on its PLL. -/
def ticking : State := { base with clk := { base.clk with scPll := true } }
theorem base_settled : base.settled = true ∧ base.canon = true := by decide +kernel
/-- Range 0 stands in cycle 5 of a beat with bundle `bits` issued, parts `todo` of it to execute. -/
def inRange (bits : Nat) (todo : List Nat) : State :=
  base.setRange 0 { phase := .run, valid := true, len := 16, cyc := 5, hobsOn := true, iss := some 0, pmem := [(0, BitVec.ofNat 256 bits)], todo := todo, issAt := 5 }
/-- Hob 3 of that range issues a portion with the given bits, in broadcast or in local mode. -/
def inHob (bits : Nat) (todo : List Nat) : State := (inRange bits []).setHob 3 { cur := some { bits := bits, todo := todo } }
def inLocal (lseq : Nat) : State := (inRange 0 []).setHob 3 { cur := some { lseq := lseq, todo := [7], isLocal := true }, llen := 8 }
theorem inHob_issues (bits k : Nat) (todo : List Nat) (h : todo.contains k = true) : (inHob bits todo).issues 3 5 k { bits := bits, todo := todo } :=
  ⟨rfl, ⟨rfl, rfl, rfl, rfl, show (5 : Nat) < 1024 * 4 - 1024 by decide, rfl, rfl⟩, rfl, h⟩
theorem inHob_canon (bits : Nat) (todo : List Nat) : (inHob bits todo).canon = true := rfl
theorem inRange_issues (bits k : Nat) (todo : List Nat) (h : todo.contains k = true) : (inRange bits todo).issuesR 0 5 k :=
  ⟨rfl, rfl, ⟨rfl, rfl, rfl, rfl, show (5 : Nat) < 1024 * 4 - 1024 by decide, rfl, rfl⟩, h⟩
theorem inLocal_issues (lseq : Nat) : (inLocal lseq).issues 3 5 7 { lseq := lseq, todo := [7], isLocal := true } :=
  ⟨rfl, ⟨rfl, rfl, rfl, rfl, show (5 : Nat) < 1024 * 4 - 1024 by decide, rfl, rfl⟩, rfl, rfl⟩

/-! ### Witnesses: the hob and the bundles -/

/-- The operation codes of the twenty V commands. -/
theorem witness_VectorIssue : ([.add 3 5, .mul 3 5, .fma 3 5, .min 3 5, .max 3 5, .cmpEq 3 5, .cmpNe 3 5, .cmpLt 3 5, .cmpLe 3 5, .sel 3 5, .exp2 3 5, .log2 3 5, .rsqrt 3 5, .rcp 3 5, .rsum 3 5,
      .rmax 3 5, .rmin 3 5, .cvtTo 3 5, .cvtFrom 3 5, .mov 3 5] : List Instr).map vectorCmd = ((List.range 20).map fun k => some (3, 5, k + 1)) ∧
    (∀ k : Fin 20, vOp (slotV ((k.val + 1) * 2 ^ 40)) = k + 1) ∧ ∀ k : Fin 20, (inHob ((k.val + 1) * 2 ^ 40) [1]).issues 3 5 1 { bits := (k.val + 1) * 2 ^ 40, todo := [1] } :=
  ⟨by decide +kernel, by decide +kernel, fun _ => inHob_issues _ 1 [1] rfl⟩
theorem witness_VectorLanes : base.canon = true ∧ SMapWf ({} : VReg) (base.hob 3).vregs = true ∧ (1 ≤ vOp 1 ∧ vOp 1 ≤ 14) ∧ vOp 0x14 = 20 ∧ vOp 0xE = 14 ∧
    isNan32 (fpAdd 0x7F800000 0xFF800000) = true ∧ isNan32 (fpMul 0x7F800000 0) = true ∧ isNan32 (fpMin 0x7F800001 0) = true ∧ isNan32 (fpMax 0 0xFFC00001) = true ∧
    isNan32 (fpFma 0x7F800000 0 0x3F800000) = true ∧ isNan32 (fpExp2 0x7F800001) = true ∧ isNan32 (fpLog2 0xBF800000) = true ∧ isNan32 (fpRsqrt 0xBF800000) = true ∧
    isNan32 (fpRcp 0x7FC00000) = true := by decide +kernel
theorem witness_ReductionTree : vOp 15 = 15 ∧ vOp 16 = 16 ∧ vOp 17 = 17 := by decide +kernel
theorem witness_ArrayIssue : (∀ k : Fin 6, (inHob (k.val + 1) [0]).issues 3 5 0 { bits := k.val + 1, todo := [0] } ∧ mAop (slotM (k.val + 1)) = k + 1) ∧
    ((inHob (2 ^ 29) [8]).issues 3 5 8 { bits := 2 ^ 29, todo := [8] } ∧ mPl (slotM (2 ^ 29)) = true) ∧
    (inHob (2 ^ 39) [9]).issues 3 5 9 { bits := 2 ^ 39, todo := [9] } ∧ mAsld (slotM (2 ^ 39)) = true :=
  ⟨fun k => ⟨inHob_issues _ 0 [0] rfl, by revert k; decide +kernel⟩, ⟨inHob_issues _ 8 [8] rfl, by decide +kernel⟩, inHob_issues _ 9 [9] rfl, by decide +kernel⟩
theorem witness_PlaneSwap : ((inHob 2 [0]).issues 3 5 0 { bits := 2, todo := [0] } ∧ mAop (slotM 2) = 2) ∧ ({ at_ := 9, issue := 5, slot := 0, fx := .swap } : HPend).fx = .swap ∧
    base.canon = true ∧ SMapWf zeroLanes (base.hob 3).shadow.words = true ∧ (31 : Nat) ≠ 0 :=
  ⟨⟨inHob_issues _ 0 [0] rfl, by decide +kernel⟩, rfl, by decide +kernel, by decide +kernel, by decide⟩
/-- An activation of one NaN element makes every column NaN; of zeros, none. -/
theorem witness_StepCommit : base.canon = true ∧ SMapWf zeroLanes (base.hob 3).acc = true ∧
    (colSum (base.hob 3).active {} (0x7F :: List.replicate 63 0) (base.hob 3).asl 63).val = .nan ∧
    (colSum (base.hob 3).active {} (List.replicate 64 0) (base.hob 3).asl 0).val ≠ .nan := by decide +kernel
theorem witness_SlotIssue : ((inHob (2 ^ 80) [2]).issues 3 5 2 { bits := 2 ^ 80, todo := [2] } ∧ lsOp (slotL0 (2 ^ 80)) = 1) ∧
    ((inHob (2 * 2 ^ 100) [3]).issues 3 5 3 { bits := 2 * 2 ^ 100, todo := [3] } ∧ lsOp (slotL1 (2 * 2 ^ 100)) = 2) ∧
    ((inHob (2 ^ 120) [4]).issues 3 5 4 { bits := 2 ^ 120, todo := [4] } ∧ lsOp (slotS (2 ^ 120)) ≠ 0) ∧
    (∀ k : Fin 5, (inHob ((k.val + 1) * 2 ^ 140) [5]).issues 3 5 5 { bits := (k.val + 1) * 2 ^ 140, todo := [5] } ∧ tTop (slotT ((k.val + 1) * 2 ^ 140)) 0 = k + 1) ∧
    ∀ k : Fin 5, (inHob ((k.val + 1) * 2 ^ 150) [10]).issues 3 5 10 { bits := (k.val + 1) * 2 ^ 150, todo := [10] } ∧ tTop (slotT ((k.val + 1) * 2 ^ 150)) 1 = k + 1 :=
  ⟨⟨inHob_issues _ 2 [2] rfl, by decide +kernel⟩, ⟨inHob_issues _ 3 [3] rfl, by decide +kernel⟩, ⟨inHob_issues _ 4 [4] rfl, by decide +kernel⟩,
   fun k => ⟨inHob_issues _ 5 [5] rfl, by revert k; decide +kernel⟩, fun k => ⟨inHob_issues _ 10 [10] rfl, by revert k; decide +kernel⟩⟩
theorem witness_SlotC : ∀ k : Fin 4, (inHob ((k.val + 1) * 2 ^ 166) [6]).issues 3 5 6 { bits := (k.val + 1) * 2 ^ 166, todo := [6] } ∧ cOp (slotC ((k.val + 1) * 2 ^ 166)) = k + 1 :=
  fun k => ⟨inHob_issues _ 6 [6] rfl, by revert k; decide +kernel⟩
/-- LCSET, LLOOP of length 1, LDJNZ and LJMP by +1, and an LJMP that leaves the local program. -/
theorem witness_LocalSequencing : (∀ x ∈ [1, 2 + 64, 3 + 64, 4 + 64, 4 + 511 * 64], (inLocal x).issues 3 5 7 { lseq := x, todo := [7], isLocal := true } ∧ lqLegal x = true) ∧
    [1, 2 + 64, 3 + 64, 4 + 64].map lqOp = [1, 2, 3, 4] ∧ (ctlDecide 0 8 4 0 (.jmp (signed 16 (lqImm (4 + 511 * 64)))) [] []).flt = some 0x13 :=
  ⟨fun x hx => ⟨inLocal_issues x, by revert x; decide +kernel⟩, by decide +kernel, by decide +kernel⟩

/-! ### Witnesses: the range -/

def qWord (op imm : Nat) : Nat := (op + imm * 16) * 2 ^ 236
theorem witness_Sequencing : (∀ k ∈ [1, 2, 3, 4, 5, 6, 9], (inRange (qWord k 1) [10]).issuesR 0 5 10 ∧ qOp (slotQ ((inRange (qWord k 1) [10]).range 0).bits) = k) ∧
    (ctlDecide 0 4 8 3 (.jmp 1) [] []).flt = some 0x13 ∧ (ctlDecide 0 4 8 0 (.djnz 0 (-1)) [(0, 2)] []).flt = some 0x13 ∧ (ctlDecide 0 4 0 0 (.loop 0 1) [(0, 2)] []).flt = some 0x14 ∧
    (ctlDecide 0 4 8 3 (.loop 0 1) [(0, 2)] []).flt = some 0x13 ∧ (ctlDecide 0 9 8 0 (.loop 0 5) [(0, 2)] [{ start := 0, fin := 2, ctr := 1, left := 2 }]).flt = some 0x15 :=
  ⟨fun k hk => ⟨inRange_issues _ 10 [10] rfl, by revert k; decide +kernel⟩, by decide +kernel, by decide +kernel, by decide +kernel, by decide +kernel, by decide +kernel⟩
theorem witness_FramesBounded : ([{ start := 4, fin := 7, ctr := 0, left := 1 }] : List Frame).length ≤ 1 ∧ (∀ f ∈ [({ start := 4, fin := 7, ctr := 0, left := 1 } : Frame)], 4 ≤ f.start ∧ f.fin < 4 + 4) := by
  decide
theorem witness_BeatEnd : ((inRange (qWord 8 0) [10]).issuesR 0 5 10 ∧ qOp (slotQ ((inRange (qWord 8 0) [10]).range 0).bits) = 8) ∧ (inRange 0 [11]).issuesR 0 5 11 :=
  ⟨⟨inRange_issues _ 10 [10] rfl, by decide +kernel⟩, inRange_issues _ 11 [11] rfl⟩
/-- A LOCAL of n cycles; within a window or not. -/
def inLocalRun (n : Nat) (w : Option Window) : State := base.setRange 0 { ((inRange (qWord 7 (n * 2 ^ 9)) [10]).range 0) with win := w }
theorem witness_LocalOpens : (∀ x ∈ [(0, none), (1, none), (1, some ⟨0, 6⟩)], (inLocalRun x.1 x.2).settled = true ∧ (inLocalRun x.1 x.2).canon = true ∧ (inLocalRun x.1 x.2).stk.started = true ∧
      ((inLocalRun x.1 x.2).range 0).halted = false ∧ ((inLocalRun x.1 x.2).range 0).phase = .run ∧ ((inLocalRun x.1 x.2).range 0).cyc = 5 ∧ 5 < (inLocalRun x.1 x.2).seamCyc ∧
      ((inLocalRun x.1 x.2).range 0).pre = [] ∧ ((inLocalRun x.1 x.2).range 0).todo.contains 10 = true ∧ qOp (slotQ ((inLocalRun x.1 x.2).range 0).bits) = 7 ∧
      field (qImm (slotQ ((inLocalRun x.1 x.2).range 0).bits)) 9 7 = x.1) ∧
    ((inLocalRun 1 (some ⟨0, 6⟩)).range 0).inWindow 5 = true ∧ ((inLocalRun 1 none).range 0).inWindow 5 = false := by decide +kernel
theorem witness_RangeTransfers : ((inRange (2 ^ 14 * 2 ^ 192) [8]).issuesR 0 5 8 ∧ hBop (slotH ((inRange (2 ^ 14 * 2 ^ 192) [8]).range 0).bits) = 1) ∧
    ((inRange (2 ^ 15 * 2 ^ 192) [8]).issuesR 0 5 8 ∧ hBop (slotH ((inRange (2 ^ 15 * 2 ^ 192) [8]).range 0).bits) = 2) ∧
    ((inRange (2 ^ 216) [9]).issuesR 0 5 9 ∧ gOp (slotG ((inRange (2 ^ 216) [9]).range 0).bits) = 1) ∧
    (inRange (2 * 2 ^ 216) [9]).issuesR 0 5 9 ∧ gOp (slotG ((inRange (2 * 2 ^ 216) [9]).range 0).bits) = 2 :=
  ⟨⟨inRange_issues _ 8 [8] rfl, by decide +kernel⟩, ⟨inRange_issues _ 8 [8] rfl, by decide +kernel⟩, ⟨inRange_issues _ 9 [9] rfl, by decide +kernel⟩,
   inRange_issues _ 9 [9] rfl, by decide +kernel⟩
/-- A group of template 0, which holds no command, and one whose template names an ACT without an area. -/
def inGroup (tpl : SMap Word) : State :=
  (inRange (2 ^ 192) [7]).setRange 0 { ((inRange (2 ^ 192) [7]).range 0) with stn := { tpl := tpl } }

/-- An effect that is due at the end of a cycle. -/
def due (f : RFx) : RPend := { at_ := 6, issue := 5, addr := 0, fx := f }
theorem witness_GroupCommits : ((inGroup []).issuesR 0 5 7 ∧ hGop (slotH ((inGroup []).range 0).bits) = 1) ∧ (due (.group 1 [])).fx = .group 1 [] ∧
    ((inGroup []).judgeGroup 0 5 (hPc 1) (hTpl 1) (hAr 1) (hAdv 1) []).isSome = true ∧ (inGroup [(0, 0x10), (1, 0x10)]).judgeGroup 0 5 (hPc 1) (hTpl 1) (hAr 1) (hAdv 1) [] = none :=
  ⟨⟨⟨rfl, rfl, ⟨rfl, rfl, rfl, rfl, show (5 : Nat) < 1024 * 4 - 1024 by decide, rfl, rfl⟩, rfl⟩, by decide +kernel⟩, rfl, by decide +kernel, by decide +kernel⟩
theorem witness_MoveMade : (due (.move 2)).fx = .move 2 := rfl

/-! ### Witnesses: time, HBM -/

/-- What the cycles passed by `advance` come to, or nothing. -/
def passed (s : State) (q t : Nat) (f : State → Bool) : Bool := match s.advance q t with | some x => f x | none => false
/-- Range 0 in a cycle with a live slot 3 of the updraft; and range 0 in its seam with a slot written in cycle 3060. -/
def withSlot (c : Nat) : State := base.setRange 0 { cyc := c, up := [(3, { live := some 2 })] }
def seamSlot : State := base.setRange 0 { phase := .seam, cyc := 3072, up := [(3, { live := some 3060 })] }
theorem witness_LoopSlotExpires : (∀ t ∈ [4, 17], passed (withSlot 4) 0 t (fun x => x.settled && x.canon && SMapWf ({} : LoopSlot) (x.range 0).up &&
      SMapWf ({} : LoopSlot) (x.range 0).dn && ((x.range 0).slot 0 3).live == some 2) = true) ∧ 17 < 2 + 16 ∧
    passed seamSlot 0 3076 (fun x => x.settled && x.canon && SMapWf ({} : LoopSlot) (x.range 0).up && ((x.range 0).slot 0 3).live == some 3060) = true ∧ 3060 + 16 ≤ 3076 := by
  decide +kernel
def inPre (k : Nat) : State := base.setRange 0 { ((inRange 0 []).range 0) with pre := [k], nxt := some (5, 2), win := some ⟨1, 4⟩ }
theorem witness_WindowAndWaitEnd : ∀ k ∈ [12, 13], (inPre k).settled = true ∧ (inPre k).canon = true ∧ (inPre k).stk.started = true ∧ ((inPre k).range 0).halted = false ∧
    ((inPre k).range 0).phase = .run ∧ ((inPre k).range 0).cyc = 5 ∧ 5 < (inPre k).seamCyc ∧ ((inPre k).range 0).pre = [k] ∧ ((inPre k).range 0).nxt = some (5, 2) ∧
    ((inPre k).range 0).bendAt = none := by decide +kernel
/-- A clean write of one line at the top of quarter 0's HBM waits at its station, whose range is idle, in its seam, or in a run with or without a mover window. -/
def topLine : Load := { kind := .write, addr := hbmQuarter - 64, lines := 1, data := List.replicate 64 7, poi := [false] }
def withWrite (p : Phase) (busy : Nat) (w : Bool) : State :=
  base.setRange 0 { phase := p, valid := p == .seam, cyc := if p = .seam then 4090 else if p = .run then 5 else 0, hobsOn := true, stn := { trained := 15, movq := [topLine], engBusy := if busy = 0 then [] else [(7, busy)], cmds := if w then [{ at_ := 0, pc := 7, cmd := 8, len := 400, done := true }] else [] } }
/-- Facts of the station of range 0 after the cycles to t: its clock's SCK, whether the engine is free, and whether the access fits. -/
def engineState (s : State) (t : Nat) (free fits : Bool) : Bool := passed s 0 t (fun x =>
  let y := x.ready 0
  let k := sckStart (y.grade 0) (y.stn 0).phase t
  let cs := engineCmds 7 k (localAddr topLine.addr) (2 * topLine.lines) true
  y.settled && y.canon && (y.stn 0).inRun && !(y.range 0).halted && takePc 7 (y.stn 0).movq == some (topLine, []) && topLine.kind == .write &&
  (decide (get 0 7 (y.stn 0).engBusy ≤ k) == free) &&
  (match (y.range 0).phase with
    | .run => (y.stn 0).engineFits 7 k (localAddr topLine.addr) (2 * topLine.lines) true == fits
    | .seam => (y.range 0).valid && decide (engineEnd cs ≤ sckStart (y.grade 0) (y.stn 0).phase y.beatLen) == fits
    | .idle => fits))
theorem witness_EngineWrites : engineState (withWrite .idle 0 false) 9 true true = true ∧ engineState (withWrite .idle 9000 false) 9 false true = true ∧
    engineState (withWrite .seam 0 false) 4091 true false = true ∧ engineState (withWrite .run 0 true) 9 true true = true ∧ engineState (withWrite .run 0 false) 9 true false = true ∧
    topLine.kind = .write ∧ topLine.poi = List.replicate topLine.lines false ∧ topLine.data.length = 64 * topLine.lines ∧ localAddr topLine.addr + 64 * topLine.lines ≤ 4 * hbmQuarter ∧
    (let s := base.setStn 0 { serving := [(7, topLine, [])] }; s.canon = true ∧ (s.stn 0).serving = [(7, topLine, [])]) := by
  decide +kernel
/-- A station in self-refresh, a range in its seam, an idle range, a range in a run; with the given debt. -/
def refreshing (k : Nat) (d : Int) : State :=
  base.setRange 0 { phase := if k = 1 then .seam else if k = 3 then .run else .idle, cyc := if k = 1 then 3072 else if k = 3 then 5 else 0, hobsOn := k == 3, bendAt := if k = 3 then some 0 else none, stn := { trained := 15, selfref := k == 0, debt := [(0, d)] } }
theorem witness_RefreshAndHeat : (∀ x ∈ [(0, 2), (1, 2), (2, 2), (3, 2), (3, 4)], ∀ t ∈ [if x.1 = 1 then 3073 else 5], passed (refreshing x.1 x.2) 0 t (fun s =>
      let y := (s.ready 0).playRefs 0 (if x.1 = 1 then 2305 else 4)
      y.settled && y.canon && SMapWf (0 : Int) (y.stn 0).debt && (y.stn 0).inRun == (x.1 != 0) && get 0 0 (y.stn 0).debt == x.2 && !(y.stn 0).rescue.getLsbD 0 && !y.svc.mirrorEn &&
      (y.range 0).phase == (if x.1 = 1 then .seam else if x.1 = 3 then .run else .idle)) = true) ∧
    cycOfSck ((refreshing 1 2).grade 0) ((refreshing 1 2).stn 0).phase 2305 - 1 = 3073 ∧ cycOfSck ((refreshing 2 2).grade 0) ((refreshing 2 2).stn 0).phase 4 - 1 = 5 ∧
    ticking.settled = true ∧ ticking.onPll = true ∧ ticking.svc.mirrorEn = false ∧ ticking.canon = true ∧ (ticking.stn 0).temp ≤ 105 ∧ (105 : Int) < 106 ∧
    SMapWf 0 ({} : Station).engBusy = true ∧ get 0 0 ({} : Station).engBusy ≤ 4 := by decide +kernel

/-! ### Witnesses: CSR space -/

def jtagBase : State := { base with tap := { base.tap with ir := 0x20 }, svc := { base.svc with testMode := true } }
def viaJtag : CsrAccess := ⟨.jtag, 0, 0⟩
theorem witness_CsrWrites : jtagBase.settled = true ∧ jtagBase.svc.mirrorEn = false ∧ jtagBase.mayWriteCsr viaJtag 0xF000000020 = true ∧ jtagBase.mayWriteCsr viaJtag 0xF00000002C = true ∧
    jtagBase.mayWriteCsr viaJtag 0xF001000000 = true ∧ jtagBase.mayWriteCsr viaJtag 0xF000000030 = true ∧ jtagBase.mayWriteCsr viaJtag 0xF000003000 = true ∧ jtagBase.com.tagLocked = false := by
  decide +kernel
theorem witness_CsrWritesMover : base.mayWriteCsr ⟨.mover, 0, 0⟩ 0xF000000020 = true ∧ base.mayWriteCsr ⟨.fenxia, 9, 0⟩ 0xF000000030 = true := by decide +kernel
/-- The tag locked; and a log of 4,097 entries, whose TAIL is 1. -/
def lateBase : State := { jtagBase with com := { jtagBase.com with tagLocked := true }, svc := { jtagBase.svc with head := 4097, count := 4097 } }
theorem witness_CsrWritesLater : lateBase.settled = true ∧ lateBase.com.tagLocked = true ∧ lateBase.logTail = 1 ∧ ((1 : Word) - lateBase.logTail).toNat < (lateBase.svc.head - lateBase.logTail).toNat ∧
    (lateBase.svc.head - lateBase.logTail).toNat ≤ ((0 : Word) - lateBase.logTail).toNat ∧ (lateBase.svc.head - lateBase.logTail).toNat ≤ ((4097 : Word) - lateBase.logTail).toNat := by decide +kernel
theorem witness_otp : jtagBase.mayWriteCsr viaJtag 0xF000001000 = true ∧ otpAddr (0xF000001000 - 0xF000000000) = true := by decide +kernel
theorem witness_InterruptBits : jtagBase.mayWriteCsr viaJtag 0xF000002000 = true ∧ jtagBase.mayWriteCsr viaJtag 0xF000002004 = true ∧ (31 : Nat) < 32 ∧ base.hears (BitVec.ofNat 7 base.sbAddr) = true := by
  decide +kernel
theorem witness_RefusedAccess : base.settled = true ∧ base.kindAt 0xF000000020 = 3 ∧ base.judgeAccess 5 (0xF000000020 / 64 * 64) 1 true = 0x07 ∧ base.kindAt (0xF000000020 / 64 * 64) = 3 ∧ base.kindAt 0xF0FFFFFFC0 = 3 ∧
    base.judgeAccess 0 (0xF0FFFFFFC0 / 64 * 64) 1 true = 0x23 ∧ csrDecoded base 0xF0FFFFFFC0 = false ∧ base.firstRefused 0x23 0xF0FFFFFFC0 = 0xF0FFFFFFC0 := by decide +kernel

/-! ### Witnesses: movers, mover buffer, gaps -/

/-- A descriptor with source, destination, length, OP and CTRL as given. -/
def descOf (src dst len op ctrl : Nat) : Desc := { raw := fit 64 (toBytes 8 src ++ toBytes 8 dst ++ toBytes 4 len ++ toBytes 1 op ++ toBytes 1 ctrl) }
def withMover (v : Mover) : State := base.setRange 0 { movers := [(7, v)] }
/-- A COPY of 64 bytes from HBM, a FILL of 64 bytes of hob SRAM. -/
def copy64 : Desc := descOf (2 ^ 14) 0xE000000000 64 0 0
def fill64 : Desc := descOf 0 0xE000000000 64 1 0
theorem witness_MoverIssues : (∀ d ∈ [copy64, fill64], let s := withMover { q := [d] }
      s.settled = true ∧ s.canon = true ∧ SMapWf ({} : Mover) (s.range 0).movers = true ∧ (s.range 0).halted = false ∧ (s.mover 0 7).current = some 0 ∧ (s.mover 0 7).q.getD 0 {} = d ∧
      d.issued.contains 0 = false ∧ 0 < d.count ∧ (s.mover 0 7).inFlight < 128 ∧ min (d.bound 1) d.len - d.bound 0 = 64 ∧ s.rt.chip = 0) ∧
    copy64.src + copy64.bound 0 = 2 ^ 14 ∧ fill64.dst + fill64.bound 0 = 0xE000000000 ∧ base.kindAt (2 ^ 14 + 64 * 0) = 1 ∧ base.kindAt (0xE000000000 + 64 * 0) = 2 := by decide +kernel
/-- A descriptor with which the stoker loads the one bundle of entry 5. -/
def loadDesc : Desc := { descOf 0 (pmemWindow 0) 64 1 0 with tenant := 0, entry := 5, load := some 5 }
def loadingEntry : Entry := { state := .loading, tenant := 9, rmask := 1, decl := { secs := [(1, 0, List.replicate 32 3)] } }
def withLoading (v : Mover) : State := { withMover v with stk := { base.stk with entries := [(5, loadingEntry)] } }
theorem witness_LoadIssues : let s := withLoading { q := [loadDesc] }
    s.settled = true ∧ s.canon = true ∧ SMapWf ({} : Mover) (s.range 0).movers = true ∧ (s.range 0).halted = false ∧ (s.mover 0 7).current = some 0 ∧ (s.mover 0 7).q.getD 0 {} = loadDesc ∧
    loadDesc.issued.contains 0 = false ∧ 0 < loadDesc.count ∧ (s.mover 0 7).inFlight < 128 ∧ min (loadDesc.bound 1) loadDesc.len - loadDesc.bound 0 = 64 ∧ s.entry 5 = loadingEntry := by decide +kernel
def ended (ctrl : Nat) (ab : Bool) : Desc := { descOf 0 0 64 0 ctrl with issued := [0], begun := true, aborted := ab }
def loadEnded : Desc := { loadDesc with issued := [0], begun := true }
theorem witness_DescriptorEnds : (∀ x ∈ [ended 0 false, ended 4 false, loadEnded], x.finished = true ∧ x.aborted = false ∧ x.illegal = false ∧ x.err = none ∧ x.ctrl 3 = false ∧ x.ctrl 4 = false ∧ x.chain = false) ∧
    (ended 4 false).ctrl 2 = true ∧ (ended 0 true).finished = true ∧ (ended 0 false).load = none ∧ loadEnded.load = some 5 ∧ loadEnded.ctrl 2 = false ∧ ((withLoading { q := [loadEnded] }).entry 5).state = .loading ∧
    ∀ v ∈ [({ q := [ended 0 false] } : Mover), { q := [ended 0 true] }, { q := [loadEnded] }, { fetching := some 64, fetched := some (List.replicate 64 0, false, 0) }],
      (withLoading v).settled = true ∧ (withLoading v).canon = true ∧ SMapWf ({} : Mover) ((withLoading v).range 0).movers = true ∧ ((withLoading v).range 0).halted = false ∧ (withLoading v).mover 0 7 = v := by
  decide +kernel
/-- A mover whose operation 3 is out, and one whose fetch is out. -/
def awaiting : Mover := { q := [{ copy64 with begun := true, issued := [0], ops := [{ id := 3, dst := 0xE000000000, len := 64, reading := true, peer := none }] }, copy64] }
def fetchingOne : Mover := { fetching := some 64 }
theorem witness_MoverTimeouts : (withMover awaiting).settled = true ∧ (withMover awaiting).canon = true ∧ (withMover awaiting).clk.inStop = 0 ∧ (withMover awaiting).mantelOff = false ∧
    (withMover awaiting).mover 0 7 = awaiting ∧ (∃ o ∈ (awaiting.q.getD 0 {}).ops, o.id = 3) ∧ (∀ o ∈ (awaiting.q.getD 1 {}).ops, o.id ≠ 3) ∧ (withMover fetchingOne).settled = true ∧
    (withMover fetchingOne).canon = true ∧ (withMover fetchingOne).mover 0 7 = fetchingOne ∧ { base with clk := { base.clk with inStop := 1 } }.settled = true ∧ { base with clk := { base.clk with inStop := 1 } }.canon = true := by
  decide +kernel
/-- Hob station 1 of range 0 holds an acknowledgement; a load is parked at the bridge; a load stands in the slot that passes station 5. -/
def ackLoad : Load := { kind := .ack, dq := 0, ds := 0, sq := 0, ss := 1 }
def withOut : State := base.setHob 0 { outLoads := [ackLoad] }
def withPark : State := base.setRange 0 { park := [{ topLine with ds := 5 }] }
def atStation (n : Nat) : State := base.setRange 0 { cyc := 5, up := [(slotAt 0 5 5, { load := some { topLine with ds := 5 } })], stn := { movq := List.replicate n topLine } }
theorem witness_MoverSlots : passed withOut 0 5 (fun x => let y := x.ready 0
      y.settled && y.canon && (y.range 0).park == [] && (y.stationHeads 0 1).find? (fun e => (y.range 0).mayFill 0 1 (y.range 0).cyc e.2) == some (0, ackLoad)) = true ∧
    passed withPark 0 5 (fun x => let y := x.ready 0
      y.settled && y.canon && decide ((y.range 0).park = [{ topLine with ds := 5 }]) && (y.range 0).emptyAt 0 0 (y.range 0).cyc) = true ∧
    ∀ n ∈ [0, 63, 64], passed (atStation n) 0 5 (fun x => let y := x.ready 0
      y.settled && y.canon && ((y.range 0).slot 0 (slotAt 0 5 (y.range 0).cyc)).load == some { topLine with ds := 5 } && decide ({ topLine with ds := 5 }.exit 0 = 5) &&
      !(y.range 0).overtakes 0 0 { topLine with ds := 5 }) = true := by decide +kernel
/-- An earlier load of the same station for the same station is still on the loop. -/
def behind : State := base.setRange 0 { cyc := 5, up := [(0, { load := some { topLine with ds := 5, inj := 1 } }), (1, { load := some { topLine with ds := 5 } })] }
theorem witness_Overtakes : passed behind 0 5 (fun x => let y := x.ready 0
      y.settled && y.canon && ((y.range 0).slot 0 (slotAt 0 5 (y.range 0).cyc)).load == some { topLine with ds := 5, inj := 1 } && (y.range 0).overtakes 0 0 { topLine with ds := 5, inj := 1 }) = true := by decide +kernel
/-- A write of the last line of hob 3's SRAM waits in its mover buffer. -/
def lineLoad : Load := { kind := .write, addr := sramBase 3 + 64 * 98303, lines := 1, data := List.replicate 64 9, poi := [true] }
theorem witness_BufferWrites : passed (base.setHob 3 { buf := [lineLoad] }) 0 5 (fun x => let y := x.ready 0
      y.settled && y.canon && SMapWf false y.linePoi && bufPick 3 (get [] 5 (y.hob 3).bankUse) (y.hob 3).buf [] 0 == some 0 && (y.hob 3).buf[0]? == some lineLoad) = true ∧
    lineLoad.kind = .write ∧ lineLoad.lines = 1 := by decide +kernel
/-- The bridge of range 1 holds a load for station 5 of range 2, whose inbound queue holds n loads. -/
def acrossLoad : Load := { kind := .ack, dq := 2, ds := 5, sq := 1, ss := 0 }
def across (n : Nat) (halt : Bool) : State := (base.setRange 1 { brOut := [acrossLoad], halted := halt }).setRange 2 { brIn := List.replicate n { acrossLoad with sq := 3 }, halted := decide (n = 63) }
theorem witness_SpineDelivers : (∀ x ∈ [(0, false), (63, false), (64, false), (0, true)], (across x.1 x.2).settled = true ∧ (across x.1 x.2).canon = true ∧ (across x.1 x.2).mantelOff = false ∧
      ((across x.1 x.2).range 1).brOut.find? (fun y => y.dq == 2) = some acrossLoad ∧ ((across x.1 x.2).range 1).halted = x.2 ∧ ((across x.1 x.2).range 2).brIn.length = x.1) ∧ acrossLoad.ds ≠ 0 ∧
    (∀ n ∈ [0, 63], (across n false).spineTurn = some 1) ∧ (∀ k : Fin 4, k ≠ 1 → ((across 0 false).range k).brOut = []) ∧ (across 0 false).mantelOut = [] ∧
    (let s := (across 0 false).setRange 2 { brOut := [{ acrossLoad with dq := 3 }] }; { s with spineLast := 1 }.spineTurn = some 2 ∧ s.settled = true) := by decide +kernel
/-- Hob 3 in the first cycle of a gap, after a step that ended in cycle 4, under a bundle with the given mark and before the given bundle. -/
def inGap (mark eg next : Nat) : State :=
  (base.setRange 0 { ((inRange 0 []).range 0) with nxt := some (6, 1), pmem := [(1, BitVec.ofNat 256 next)] }).setHob 3
    { cur := some { bits := mark * 2 ^ 164 }, busyTo := some 4, emberGap := eg }
theorem inGap_inCycle (mark eg next : Nat) : (inGap mark eg next).inCycle 0 5 := ⟨rfl, rfl, rfl, rfl, show (5 : Nat) < 1024 * 4 - 1024 by decide, rfl, rfl⟩
/-- Before a BEND the gap is the program's last and 17 cycles long; before a STEP it is one cycle long. -/
theorem witness_GapTreated : (∀ x ∈ [(0, 17, qWord 8 0), (0, 18, qWord 8 0), (2, 1, qWord 8 0), (3, 0x200, qWord 8 0), (0, 1, 65), (0, 2, 65)],
    let s := inGap x.1 x.2.1 x.2.2
    s.settled = true ∧ s.canon = true ∧ s.calm 0 = false ∧ (s.range 0).lastEffect = none ∧ (s.hob 3).busyTo = some (5 - 1) ∧ ((s.finishCycle 0).hob 3).occupied 5 = false ∧
    (s.hob 3).cur = some { bits := x.1 * 2 ^ 164 } ∧ cMark (slotC (x.1 * 2 ^ 164)) = x.1) := by decide +kernel
theorem witness_GapEnd : (inGap 0 1 (qWord 8 0)).gapEnd 0 3 20 0 = (18, true) := by decide +kernel
theorem witness_GapEnd2 : (inGap 0 1 65).gapEnd 0 3 20 0 = (1, false) := by decide +kernel

/-! ### Witnesses: seams, beats, entries -/

def hotEnv : SeamEnv := { tq := [(0, 71)], tm := 66, bridge := [(0, 3)], station := [(0, 4)] }
def atSeam : State := base.setRange 0 { cyc := 3071 }
theorem witness_SeamBegins : atSeam.settled = true ∧ atSeam.canon = true ∧ atSeam.stk.started = true ∧ atSeam.stk.tickDue = false ∧ SMapWf (0 : Int) atSeam.pwr.tq = true ∧
    (List.range 4).filter (fun q => (15 : BitVec 4).getLsbD q && !(atSeam.range q).halted) = atSeam.alignedWith 0 ∧ 0 ∈ atSeam.alignedWith 0 ∧
    (List.range 4).filter (fun q => (1 : BitVec 4).getLsbD q && !(atSeam.range q).halted) = [0] ∧ [0] ≠ atSeam.alignedWith 0 := by decide +kernel
/-- Quarter 0 in a stop, with a new grade pending, with and without a selected entry. -/
def inStop (v : Bool) : State :=
  { base.setRange 0 { phase := .seam, halted := true, cyc := 3072, valid := v, len := 1 } with clk := { base.clk with inStop := 1, newGrade := [(0, some 2)] } }
theorem witness_QuarterResumes : ∀ v ∈ [false, true], (inStop v).settled = true ∧ (inStop v).canon = true ∧ (inStop v).clk.inStop.getLsbD 0 = true ∧ (inStop v).clk.stopped = [] ∧
    (inStop v).pwr.simmer = false ∧ (inStop v).sinksReady 0 = true ∧ (inStop v).stk.tickDue = false ∧ SMapWf 0 (inStop v).clk.trimBridge = true ∧
    SMapWf 0 (inStop v).clk.trimStation = true ∧ SMapWf 0 (inStop v).clk.grade = true := by decide +kernel
/-- The part in SIMMER after a wake event, with its exit decided or not; its sinks stand at rest. -/
def simmering (m : Option (BitVec 4)) : State :=
  { (((base.setRange 0 { halted := true }).setRange 1 { halted := true }).setRange 2 { halted := true }).setRange 3 { halted := true } with
    pwr := { base.pwr with simmer := true, wakeEvt := true, exiting := m }, svc := { base.svc with mode := 2 } }
theorem witness_SimmerEnds : (let s := simmering (some 1); s.settled = true ∧ s.canon = true ∧ s.pwr.simmer = true ∧ s.clk.pending = 0 ∧ s.clk.inStop = 0 ∧ s.pwr.exiting = some 1 ∧
      (∀ q : Fin 4, (s.range q).halted = true ∧ s.sinksReady q = true) ∧ SMapWf 0 s.clk.trimBridge = true ∧ SMapWf 0 s.clk.trimStation = true ∧ SMapWf 0 s.clk.grade = true) ∧
    base.settled = true ∧ base.pwr.exiting = none ∧
    (let s := simmering none; (s.pwr.simmer && s.pwr.exiting.isNone && !s.goingDown && !s.mantelOff && (s.readyNow || s.pwr.wakeEvt)) = true) ∧
    (base.pwr.simmer && base.pwr.exiting.isNone && !base.goingDown && !base.mantelOff && (base.readyNow || base.pwr.wakeEvt)) = false := by decide +kernel
/-- A beat of range 0 has ended, with no entry ARMED, or with one. -/
def beatEnded (st : EState) : State := { base with stk := { base.stk with tickDue := true, entries := [(5, { state := st, rmask := 1 })] } }
/-- The same in SIMMER, its exit decided, where the stoker's clock counts. -/
def beatSimmer : State := let s := simmering (some 0); { s with stk := { s.stk with entries := [(5, { state := .armed, rmask := 1 })] } }
theorem witness_BeatCounts : (beatSimmer.settled = true ∧ beatSimmer.canon = true ∧ beatSimmer.mantelOff = false ∧ beatSimmer.stk.started = true ∧ beatSimmer.pwr.simmer = true ∧ (beatSimmer.range 0).halted = true) ∧
    ∀ x ∈ [(EState.idle, false), (EState.armed, true)], (beatEnded x.1).settled = true ∧ (beatEnded x.1).canon = true ∧ (beatEnded x.1).mantelOff = false ∧
    (beatEnded x.1).stk.started = true ∧ (beatEnded x.1).stk.tickDue = true ∧ (beatEnded x.1).stk.sb = 0 ∧
    x.2 = (!(beatEnded x.1).stk.ranNow && !(List.range 4).any (fun q => ((beatEnded x.1).range q).phase == .run || (((beatEnded x.1).range q).phase == .seam && ((beatEnded x.1).range q).valid)) &&
      !(beatEnded x.1).stk.tookNow && !(beatEnded x.1).stk.progress && (beatEnded x.1).stk.entries.any fun e => e.2.state == .armed) := by decide +kernel
/-- Entry 5 waits for its admission or stands in another state; tenant 9 exists. -/
def withEntry (x : Entry) : State := { base with tenants := [{ id := 9, chanCount := 1 }], stk := { base.stk with entries := [(5, x)], admitQ := if x.state = .admitting then [5] else [] } }
def entryOk (x : Entry) : Bool := (withEntry x).settled && (withEntry x).canon && !(withEntry x).mantelOff && SMapWf ({} : Entry) (withEntry x).stk.entries && (withEntry x).entry 5 == x
def ownedBy9 : Entry := { state := .admitting, tenant := 9, report := 0 }
/-- An entry without ranges passes every check; one with a malformed declaration and one of an unknown tenant do not. -/
theorem witness_EntriesComeAndGo : (∀ x ∈ [ownedBy9, { ownedBy9 with decl := { bad := true } }, { ownedBy9 with tenant := 7 },
      { state := .loading, arms := 1, rmask := 3, resident := [1, 0] }, { state := .loading, rmask := 3, resident := [1] }, { state := .disabled, leaving := 2 }],
      entryOk x = true ∧ (withEntry x).claimed 5 = false ∧ (withEntry x).svc.mirrorEn = false) ∧
    (withEntry ownedBy9).aborting 9 = false ∧ ((withEntry ownedBy9).judgeStatic 5).1 = 0 ∧ ((withEntry ownedBy9).judgeStatic 5).2.1 = 0 ∧
    (((withEntry ownedBy9).setEntry 5 ((withEntry ownedBy9).judgeStatic 5).2.2).judgeTraces 5).1 = 0 ∧
    (((withEntry ownedBy9).setEntry 5 ((withEntry ownedBy9).judgeStatic 5).2.2).judgeTraces 5).2.1 = 0 ∧
    ((withEntry { ownedBy9 with decl := { bad := true } }).judgeStatic 5).1 = 1 ∧ ((withEntry { ownedBy9 with tenant := 7 }).judgeStatic 5).1 = 3 := by decide +kernel

/-! ### Witnesses: stall protocol, flags, channels, chimneys, staging -/

/-- Packet `p` stands alone in the receive buffer of VC `v` of link 2. -/
def recv (s : State) (v : Nat) (p : Packet) : State := s.setGate 2 { s.gate 2 with rx := put [] v [p] (s.gate 2).rx }
/-- What State.rxHead asks, for link 2. -/
def headOk (s : State) (v op : Nat) (p : Packet) : Bool :=
  s.settled && s.canon && get [] v (s.gate 2).rx == [p] && get [] v (s.gate 2).moving == [] && p.op == op && p.dst == s.rt.chip && !(s.range 0).halted && p.src != s.rt.chip
/-- A stall-protocol message of chip 4. -/
def stallFrom (ty : Nat) : Packet := { op := opStallp, vc := 3, src := 4, flits := [(stallFlit ty 1 4 7 9, false)] }
/-- The leader of chips 0, 4 and 5; link 2 leads to chip 4. -/
def leader : State :=
  { base.setGate 2 { en := true, state := .up, vcmask := 0xFF } with
    stk := { base.stk with isLeader := true, members := [0, 4, 5], stallMsg := true, dlPolicy := 1, entries := [(5, { state := .armed, tenant := 9, rmask := 1 })] },
    rt := { base.rt with route := [(3 * 256 + 4, 2)] } }
def epochOpen : State := { leader with stk := { leader.stk with openEpoch := some 7, everOpened := true } }
theorem witness_StallProtocol : leader.settled = true ∧ leader.canon = true ∧ leader.mayOpen = true ∧ leader.mantelOff = false ∧ leader.svc.mirrorEn = false ∧
    (∀ ty ∈ [1, 2, 4], headOk (recv leader 3 (stallFrom ty)) 3 opStallp (stallFrom ty) = true ∧ (stallFrom ty).stallType = ty) ∧
    leader.stk.members.contains (stallFrom 1).src = true ∧ ((recv leader 3 (stallFrom 2)).exitFor 3 4 3).isSome = true ∧
    (let s := recv epochOpen 3 (stallFrom 3);
     s.settledBut = true ∧ s.canon = true ∧ get [] 3 (s.gate 2).rx = [stallFrom 3] ∧ (stallFrom 3).dst = s.rt.chip ∧ (s.range 0).halted = false ∧ (stallFrom 3).stallType = 3 ∧
     s.stk.openEpoch = some (BitVec.ofNat 32 (le (stallFrom 3).flit0 4 4)) ∧ get none 4 s.stk.answers = none ∧ SMapWf (none : Option Answer) s.stk.answers = true ∧ 5 ∈ s.stk.members ∧ get none 5 s.stk.answers = none) := by
  decide +kernel
/-- A POLL that comes in SIMMER. -/
theorem witness_PollInSimmer : let s := recv { simmering none with pwr := { (simmering none).pwr with wakeEvt := false }, rt := leader.rt } 3 (stallFrom 2);
    ({ s with pwr := { s.pwr with simmer := false } } : State).settled = true ∧ s.pwr.simmer = true ∧ s.readyNow = false ∧ s.pwr.wakeEvt = false ∧ s.mantelOff = false ∧ s.canon = true ∧ get [] 3 (s.gate 2).moving = [] := by
  decide +kernel
/-- A leader that is the only member: its epoch closes with its own answer. -/
theorem witness_LoneLeader : let s : State := { leader with stk := { leader.stk with members := [0], everOpened := false } };
    s.settled = true ∧ s.canon = true ∧ s.mantelOff = false ∧ s.mayOpen = true := by decide +kernel
/-- A WRITE of chip 4 on VC v that has not been placed yet. -/
def unplaced (v : Nat) (s : State) : State := { s with remote := [(0, { pkt := { op := opWrite, src := 4, vc := v }, left := 1 })] }
/-- Tenant 9 holds flags 16 to 31 and channels 0 to 255. -/
def owned : State := { base with tenants := [{ id := 9, flagBase := 16, flagCount := 16, chanCount := 256 }] }
def incBy (t : Nat) : Packet := { op := opFlagInc, src := 4, tenant := t, arg0 := 31, arg1 := 5 }
theorem witness_FlagIncrements : (∀ t ∈ [9, 7], headOk (recv owned 0 (incBy t)) 0 opFlagInc (incBy t) = true) ∧ SMapWf (0 : Word) owned.flg.val = true ∧
    owned.mayUseFlag 9 31 = true ∧ owned.mayUseFlag 7 31 = false ∧ (recv owned 0 (incBy 9)).behindWrite (incBy 9) = false ∧
    headOk (recv (unplaced 0 owned) 0 (incBy 9)) 0 opFlagInc (incBy 9) = true ∧ (recv (unplaced 0 owned) 0 (incBy 9)).behindWrite (incBy 9) = true := by decide +kernel
/-- Channel 3 of tenant 9: 64 slots of 64 bytes, notifying flag 16. -/
def chan3 : Channel := { state := .opened, tenant := 9, msglog := 6, ringlog := 12, base := 0x1000, rpflag := 17, notify := 16, notifyEn := true, everOpen := true }
def withChan (x : Channel) : State := { owned with flg := { owned.flg with chans := [(3, x)] } }
def msg1 : Packet := { op := opMsg, src := 4, tenant := 9, arg0 := 3 + 1 * 2 ^ 16, flits := [(List.replicate 64 8, false)] }
def closed3 : Channel := { chan3 with state := .closed }
theorem witness_MessagesArrive : (∀ x ∈ [chan3, closed3], headOk (recv (withChan x) 0 msg1) 0 opMsg msg1 = true ∧ SMapWf ({} : Channel) (withChan x).flg.chans = true ∧
      (recv (withChan x) 0 msg1).chan msg1.channel = x ∧ x.everOpen = true ∧ (recv (withChan x) 0 msg1).behindWrite msg1 = false ∧
      headOk (recv (unplaced 0 (withChan x)) 0 msg1) 0 opMsg msg1 = true ∧ (recv (unplaced 0 (withChan x)) 0 msg1).behindWrite msg1 = true) ∧ msg1.moffset = 0 ∧ msg1.flits.length ≤ msg1.mlines ∧ (∀ f ∈ msg1.flits, f.1.length = 64 ∧ f.2 = false) ∧
    (recv (withChan chan3) 0 msg1).judgeMsg chan3 (some 9) 1 = 0 ∧ (recv (withChan closed3) 0 msg1).judgeMsg closed3 (some 9) 1 = 2 := by decide +kernel
def placedMsg : ChMsg := { slot := 0, mlines := 1, src := 4, unit := 0, tag := 0, filled := [0], placed := true }
/-- A message of two lines of which one has come. -/
def partMsg : ChMsg := { slot := 1, mlines := 2, src := 4, unit := 0, tag := 0, num := 1, got := [0], filled := [0] }
def counted (n : Bool) : Channel := { chan3 with msglog := 7, ac := 1, accepted := 1, msgs := [placedMsg], notifyEn := n }
def missing : Channel := { chan3 with msglog := 7, ac := 2, wp := 1, accepted := 2, msgs := [partMsg] }
/-- The last message of a closing channel. -/
def closingChan : Channel := { counted false with state := .closing }
/-- The mantel's spine has the acknowledgement of a load of quarter 1. -/
def homing (s : State) (o : Origin) : State := s.setRange 1 { brOut := [{ kind := .ack, dq := 4, sq := 1, ss := 5, org := o }] }
theorem witness_MessagesCount : (∀ x ∈ [counted true, counted false, closingChan, missing], (withChan x).settled = true ∧ (withChan x).canon = true ∧ (withChan x).mantelOff = false ∧
      SMapWf ({} : Channel) (withChan x).flg.chans = true ∧ SMapWf (0 : Word) (withChan x).flg.val = true ∧ (withChan x).chan 3 = x ∧ x.chimney = false ∧ (withChan x).mayUseFlag x.tenant x.notify = true ∧
      (withChan x).clk.inStop = 0) ∧
    placedMsg.placed = true ∧ closingChan.wp + 1 = closingChan.ac ∧ (missing.msgs.find? fun m => m.slot == 1 && !m.whole) = some partMsg ∧ partMsg.got.contains 0 = true ∧ partMsg.got.contains 1 = false ∧
    (let s := homing (withChan missing) (.ring 3 1 1 1); s.settled = true ∧ s.canon = true ∧ s.mantelOff = false ∧ s.chan 3 = missing ∧ s.spineTurn = some 1 ∧
      ((s.spineOut 1).find? (fun z => z.dq == 4)).map (fun z => (z.kind, z.org)) = some (.ack, .ring 3 1 1 1)) := by
  decide +kernel
/-- Chimney 2 behind channel 3: one contributor of one line, float32, ordered. -/
def chim2 : Chimney := { used := true, fmt := 0, ordered := true, n := 1, clines := 1, stages := 2, stage := 0x8000, chan := 3 }
def ring3 : Channel := { chan3 with chimney := true, k := 2, kValid := true, kn := 1, klines := 1 }
def withChim (y : Chimney) : State := { withChan ring3 with flg := { (withChan ring3).flg with chims := [(2, y)] } }
def line1 : Bytes := List.replicate 64 1
def contrib1 : Packet := { op := opContrib, src := 4, tenant := 9, arg0 := 3, flits := [(line1, false)] }
def window1 : Load := { kind := .write, dq := 4, sq := 1, ss := 5, addr := 0xF800000000 + 2 * 0x100000, lines := 1, data := line1, poi := [false], tenant := 9 }
theorem witness_Contributions : (let s := recv (withChim chim2) 0 contrib1;
      headOk s 0 opContrib contrib1 = true ∧ SMapWf ({} : Channel) s.flg.chans = true ∧ SMapWf ({} : Chimney) s.flg.chims = true ∧ s.chan 3 = ring3 ∧ s.chim ring3.k = chim2 ∧
      contrib1.channel = 3 ∧ contrib1.cindex = 0 ∧ contrib1.coffset = 0 ∧ State.judgeLine (s.taken 2 0 []) (s.taken 2 0 []) 3 (some 9) 4 0 0 (!decide (contrib1.sunit / 32 = 5) || s.forwardFits 3 4 (contrib1.tag % 4096)) = 0 ∧ s.behindWrite contrib1 = false) ∧
    (let s := recv (unplaced 0 (withChim chim2)) 0 contrib1; headOk s 0 opContrib contrib1 = true ∧ s.behindWrite contrib1 = true) ∧
    SMapWf 0 chim2.cc = true ∧ SMapWf (none : Option Nat) chim2.bind = true ∧ (∀ r ∈ chim2.rounds, SMapWf ([] : Bytes) r.lines = true) ∧ line1.length = 64 ∧
    (let s := { withChim chim2 with mantel := [window1] };
      s.settled = true ∧ s.canon = true ∧ s.mantelOff = false ∧ s.mantel.find? (fun z => inContribWindow z.addr) = some window1 ∧ window1.addr = contribWindow + 2 * 0x100000 + 0 * 0x1000 + 0 * 64 ∧
      s.loadChip window1 = 0 ∧ State.judgeLine { s with mantel := s.mantel.eraseP fun z => inContribWindow z.addr } { s with mantel := s.mantel.eraseP fun z => inContribWindow z.addr } 3 (some 9) 0 0 0 true = 0) := by
  decide +kernel
/-- Round 0 is complete and its sum not formed; or written. -/
def roundDone (w : Bool) : Chimney := { chim2 with rounds := [{ num := 0, complete := [0], begun := w, formed := w, written := w }] }
/-- Round 0 of an unordered chimney; a sum on its way to the ring. -/
def roundLoose : Chimney := { roundDone false with ordered := false, rounds := [{ num := 0, lines := [(0, line1)], complete := [0] }] }
def roundSent : Chimney := { chim2 with rounds := [{ num := 0, complete := [0], begun := true, formed := true, left := 1 }] }
theorem witness_RoundsComplete : (∀ w ∈ [false, true], let s := withChim (roundDone w);
      s.settled = true ∧ s.canon = true ∧ s.mantelOff = false ∧ SMapWf ({} : Channel) s.flg.chans = true ∧ SMapWf ({} : Chimney) s.flg.chims = true ∧ SMapWf (0 : Word) s.flg.val = true ∧
      s.chim 2 = roundDone w ∧ s.chan (roundDone w).chan = ring3 ∧ ring3.k = 2 ∧ ring3.state = .opened ∧ (roundDone w).used = true ∧ (roundDone w).ordered = true ∧ (roundDone w).fwdEn = false) ∧
    ((withChim (roundDone false)).sumReady 2).isSome = true ∧ ((withChim roundLoose).sumReady 2).isSome = true ∧ ((withChim roundLoose).settled = true ∧ (withChim roundLoose).chim 2 = roundLoose) ∧
    (let s := homing (withChim roundSent) (.sum 2 0); s.settled = true ∧ s.canon = true ∧ s.mantelOff = false ∧ s.chim 2 = roundSent ∧ s.spineTurn = some 1 ∧
      ((s.spineOut 1).find? (fun z => z.dq == 4)).map (fun z => (z.kind, z.org)) = some (.ack, .sum 2 0) ∧ (roundSent.rounds.any fun r => r.num.toNat == 0 && r.formed && !r.written) = true) ∧
    ((roundDone true).rounds.any fun r => r.num == ring3.wp && r.written) = true ∧ ring3.chimney = true ∧ ring3.notifyEn = true ∧ owned.mayUseFlag ring3.tenant ring3.notify = true := by decide +kernel
/-- A request of tenant 9 for block 1 of its staging area. -/
def stageReq (op : Nat) : Load := { kind := .write, dq := 4, sq := 1, ss := 5, addr := 0xF900000000, lines := 1, tenant := 9, poi := [false], data := fit 64 (toBytes 8 0x10000 ++ toBytes 1 op ++ [0] ++ toBytes 2 20) }
def withStage (op : Nat) (b : Nat × Nat) : State :=
  { owned with shared := [{ hbm := true, tenant := 9, ranges := 1, base := 0, len := 0x40000, staging := true }], stage := if b = (0, 0) then [] else [(1, b)], mantel := [stageReq op] }
theorem witness_StagingBlocks : ∀ x ∈ [(1, 1, 0xFFFFFFFF), (1, 0, 0), (1, 2, 0xFFFFFFFF), (2, 2, 0xFFFFFFFF)], let s := withStage x.1 x.2;
    s.settled = true ∧ s.canon = true ∧ s.mantelOff = false ∧ SMapWf ((0, 0) : Nat × Nat) s.stage = true ∧ SMapWf (0 : Word) s.flg.val = true ∧
    s.mantel.find? (fun z => s.kindAt z.addr == 5 && le z.data 8 1 == x.1) = some (stageReq x.1) ∧ s.judgeStaging 9 (stageReq x.1).data = 0 ∧ le (stageReq x.1).data 0 8 / 0x10000 = 1 ∧
    get (0, 0) 1 s.stage = x.2 ∧ s.mayUseFlag 9 (le (stageReq x.1).data 10 2) = true := by decide +kernel
/-- A request of tenant 7, which has no such area. -/
theorem witness_StagingRefused : ∀ op ∈ [1, 2], let s := { withStage op (0, 0) with mantel := [{ stageReq op with tenant := 7 }] };
    s.settled = true ∧ s.canon = true ∧ s.mantelOff = false ∧ s.mantel.find? (fun z => s.kindAt z.addr == 5 && le z.data 8 1 == op) = some { stageReq op with tenant := 7 } ∧
    s.judgeStaging 7 (stageReq op).data ≠ 0 := by decide +kernel

/-! ### Witnesses: links -/

def withGate (g : Gate) : State := base.setGate 2 g
def gateOk (g : Gate) : Bool := (withGate g).settled && (withGate g).canon && (withGate g).gate 2 == g && !(withGate g).svc.mirrorEn && decide ((withGate g).clk.inStop = 0)
theorem witness_LinkTimers : (∀ g ∈ [({ state := .down, en := true } : Gate), { state := .train, trainLogged := true }, { state := .train }, { state := .broken, en := true }, { state := .broken }, {}],
    gateOk g = true) ∧ ({} : Gate).state = .down ∧ ({} : Gate).en = false ∧ base.mayTrain = true := by decide +kernel
/-- The far end's frame on a logical lane, of chip 4 and link 7: its step, what it receives well, and its version. -/
def farFrame (lane step : Nat) (good v : Byte) : Bytes :=
  let b := toBytes 8 trainMarker ++ [BitVec.ofNat 8 lane, BitVec.ofNat 8 step] ++ List.replicate 6 0 ++ [4, 0, 7, v, 3, good, 0, 0] ++ ((List.range 8).flatMap fun _ => toBytes 2 16) ++ List.replicate 22 0
  b ++ toBytes 2 (crc16 b)
/-- What a gate has received: frames of one step on every lane, straight or reversed, good on the given lanes in both directions. -/
def trained (step : Nat) (good v : Byte) (rev : Bool) : TrainResult :=
  { frames := (List.range 8).map fun m => farFrame (if rev then 7 - m else m) step good v, good := good, polarity := 0 }
theorem witness_LinkTrained : (∀ g ∈ [({ state := .train } : Gate), { state := .train, holdWhy := 1 }, { state := .train, trainLogged := true }], gateOk g = true ∧ g.state = .train ∧ g.vcmask = 3) ∧ base.rt.chip ≠ 4 ∧
    (∀ x ∈ [(6, (0xFF : Byte), (1 : Byte), false), (7, 0xFF, 1, false), (7, 0xFF, 1, true), (7, 0xF7, 1, false), (6, 0xFF, 2, false)], let r := trained x.1 x.2.1 x.2.2.1 x.2.2.2; let f := partnerFrame r;
      laneOrder r.frames = some x.2.2.2 ∧ goodLanes r = x.2.1 ∧ (linkWidth (goodLanes r)).isSome = true ∧ le f 9 1 = x.1 ∧ le f 19 1 = x.2.2.1.toNat ∧ le f 16 1 = 4 ∧ le f 20 1 = 3 ∧
      ∀ v : Fin 8, 16 ≤ le f (24 + 2 * v) 2) ∧
    linkWidth 0xFF = some (false, false) ∧ linkWidth 0xF7 = some (true, true) ∧ linkWidth (goodLanes (trained 7 0xEE 1 false)) = none ∧ laneOrder (List.replicate 8 (farFrame 0 7 0xFF 1)) = none := by decide +kernel
/-- A packet waiting on VC 0 without credit; with credit. -/
def waiting1 : Waiting := { src := .own, pkt := { op := opFlagInc, src := 0, dst := 4 } }
def starved : Gate := { state := .up, waiting := [(0, [waiting1])] }
theorem witness_LinksBreak : (∀ g ∈ [({ state := .up } : Gate), { state := .up, en := true, disDue := true }, starved, { state := .up, narrow := true, half := true }, { state := .drain, replay := [{}] }], gateOk g = true) ∧
    base.mantelOff = false ∧
    starved.starves 0 = true ∧ ({ state := .up, narrow := true, half := true } : Gate).half = decide (4 ≤ 4) ∧ ({ state := .up } : Gate).failed = 0 ∧ ({ state := .up } : Gate).pnarrow = false ∧
    starved.phold = false := by decide +kernel
/-- A control flit with CINDEX c that acknowledges sequence a and brings its CRC. -/
def ctlFlit (c a : Nat) : Bytes :=
  let b := fit 60 ([0, 2] ++ toBytes 2 a ++ toBytes 2 0 ++ toBytes 2 0xFFF ++ [0, BitVec.ofNat 8 c])
  b ++ toBytes 4 (crc32c b)
def unacked : Gate := { state := .up, nts := 3, replay := [{ seq := 1 }, { seq := 2 }] }
theorem witness_ControlFlits : gateOk unacked = true ∧ unacked.cindexBad = 0 ∧ unacked.oldest = 1 ∧ unacked.rxSlot = 0 ∧
    (∀ x ∈ [(0, 0, 0), (0, 1, 1), (0, 2, 2), (1, 1, 1)], let b := ctlFlit x.1 x.2.1
      b.length = 64 ∧ crc32c (b.take 60) = le b 60 4 ∧ le b 1 1 = 2 ∧ (le b 4 2).testBit 12 = false ∧ (BitVec.ofNat 12 (le b 2 2) + 1 - unacked.oldest).toNat = x.2.2 ∧ x.2.2 ≤ unacked.replay.length ∧
      le b 9 1 = x.1) ∧ (∀ n ∈ [31, 32 * 256 + 31], dataSlot n = false ∧ n / 32 % 256 = 0) := by decide +kernel
theorem witness_Replays : (∀ g ∈ [unacked, { unacked with rnum := 8 }], gateOk g = true ∧ g.lost = false ∧ g.nakPend = false ∧ g.phold = false ∧ g.replay ≠ [] ∧ g.rxSlot = 0) ∧ base.mantelOff = false ∧
    unacked.rnum ≠ 8 ∧ hcrcOk (List.replicate 64 1) = false ∧ noFec.hit = false ∧ ({ noFec with hit := true, uncorrectable := 1 } : FecReport).hit = true ∧ (∀ n ∈ [0, 30, 32], dataSlot n = true) := by decide +kernel
/-- A packet of one flit, a FLAGINC on VC 3 with its checks, of sequence n and partition p. -/
def wire (n p : Nat) : Bytes :=
  let b := fit 58 ([5, 3] ++ toBytes 2 n ++ [0, 4, BitVec.ofNat 8 p, 9, 3, 0])
  let h := b ++ toBytes 2 (crc16 b)
  h ++ toBytes 4 (crc32c h)
def idleFlit : Bytes := let h := List.replicate 58 0; h ++ toBytes 2 (crc16 h) ++ [0, 0, 0, 0]
def expecting : Gate := { state := .up, ers := 7, limit := [(3, 16)] }
theorem witness_PacketsReceived : gateOk expecting = true ∧ expecting.lost = false ∧ expecting.rxSlot = 0 ∧ dataSlot 0 = true ∧ dataSlot 30 = true ∧ noFec.hit = false ∧ expecting.nakPend = false ∧ base.pwr.simmer = false ∧ base.rt.part = 0 ∧
    (∀ b ∈ [wire 7 0, wire 7 1, wire 6 0, wire 8 0, idleFlit], hcrcOk b = true ∧ 64 ≤ b.length ∧ b.length = 64 * (1 + hdrFlits b)) ∧ isIdle idleFlit = true ∧
    (∀ b ∈ [wire 7 0, wire 7 1], isIdle b = false ∧ (parsePacket b).vc ≠ 5 ∧ BitVec.ofNat 12 (parsePacket b).seq = expecting.ers ∧ pcrcOk b = true ∧ expecting.room (parsePacket b) = true ∧ (parsePacket b).part ≠ 0xF) ∧
    (parsePacket (wire 7 0)).part = 0 ∧ (parsePacket (wire 7 0)).malformed = false ∧ (parsePacket (wire 7 1)).part ≠ 0 ∧
    2048 ≤ (BitVec.ofNat 12 (parsePacket (wire 6 0)).seq - expecting.ers).toNat ∧ (BitVec.ofNat 12 (parsePacket (wire 8 0)).seq - expecting.ers).toNat = 1 := by decide +kernel
/-- All links UP; link 2 holds what the given gate holds. -/
def allUp (g : Gate) : State := ((List.range 20).foldl (fun s k => s.setGate k { state := .up }) base).setGate 2 g
def credited (v : Nat) (op : Nat) : Gate := { state := .up, plimit := [(v, 16)], waiting := [(v, [{ src := .own, pkt := { op := op, vc := v, dst := 4 } }])] }
theorem witness_PacketsSent : (∀ g ∈ [unacked, { unacked with resend := unacked.replay }, { unacked with state := .drain, resend := unacked.replay }, { unacked with state := .hold }, { unacked with txSlot := 31 },
      credited 0 5, credited 3 6, credited 5 8], (allUp g).settled = true ∧ (allUp g).canon = true ∧ (allUp g).gate 2 = g ∧ (g.txSlot = 31 → g.accepts = true ∧ g.pnarrow = false) ∧ dataSlot g.txSlot = decide (g.txSlot ≠ 31)) ∧
    (∀ g ∈ [credited 0 5, credited 3 6, credited 5 8], ∀ k : Fin 20, ((allUp g).gate k).upOrHold = true ∧ SMapWf ([] : List Waiting) ((allUp g).gate k).waiting = true ∧
      ∀ v : Fin 8, ∀ w ∈ get [] v ((allUp g).gate k).waiting, w.exit = none) ∧ (∀ v : Fin 8, unacked.sendable v = none) ∧ unacked.resend = [] ∧
    (∀ x ∈ [(0, 5), (3, 6), (5, 8)], (credited x.1 x.2).resend = [] ∧ (((credited x.1 x.2).sendOrder.findSome? fun v => ((credited x.1 x.2).sendable v).map fun p => (v, p)).map Prod.fst) = some x.1) ∧ 8 ≠ opDfetch := by
  decide +kernel

/-! ### Witnesses: the fabric -/

/-- Chip 4 is reached over link 2, in every class. -/
def routed (s : State) : State :=
  { s.setGate 2 { en := true, state := .up, vcmask := 0xFF } with rt := { s.rt with route := [(4, 2), (256 + 4, 2), (3 * 256 + 4, 2), (4 * 256 + 4, 2)] } }
def remoteWrite (a : Nat) : Packet := { op := opWrite, src := 4, tenant := 9, addr := a, flits := [(line1, false), (line1, false)] }
def remoteRead (a : Nat) : Packet := { op := opRead, src := 4, tenant := 9, addr := a, arg0 := 8 }
/-- The last two lines of the part's HBM; an address beyond every window. -/
def topHbm : Nat := 4 * hbmQuarter - 128
theorem witness_RemoteAccesses : (let s := recv (routed owned) 0 (remoteWrite topHbm); headOk s 0 opWrite (remoteWrite topHbm) = true ∧ SMapWf ({} : Remote) s.remote = true ∧
      s.kindAt topHbm < 3 ∧ s.judgeAccess 9 topHbm 2 true = 0) ∧ (∀ f ∈ (remoteWrite topHbm).flits, f.1.length = 64) ∧
    (let s := recv (routed owned) 0 (remoteRead (2 ^ 14)); headOk s 0 opRead (remoteRead (2 ^ 14)) = true ∧ s.kindAt (2 ^ 14) < 3 ∧ s.judgeAccess 9 (2 ^ 14) 8 false = 0) ∧
    (let s := recv (routed owned) 0 (remoteRead topHbm); headOk s 0 opRead (remoteRead topHbm) = true ∧ s.judgeAccess 9 topHbm 8 false ≠ 0 ∧ (s.exitFor 1 4 1).isSome = true) ∧
    (let s := recv (routed owned) 0 (remoteWrite (4 * hbmQuarter)); headOk s 0 opWrite (remoteWrite (4 * hbmQuarter)) = true ∧ s.kindAt (4 * hbmQuarter) < 3 ∧
      s.judgeAccess 9 (4 * hbmQuarter) 2 true ≠ 0 ∧ (s.exitFor 1 4 1).isSome = true) ∧
    (∀ p ∈ [remoteWrite topHbm, remoteRead topHbm], (recv (routed owned) 0 p).behindWrite p = false ∧ (recv (unplaced 0 (routed owned)) 0 p).behindWrite p = true ∧
      headOk (recv (unplaced 0 (routed owned)) 0 p) 0 p.op p = true ∧ SMapWf ({} : Remote) (recv (unplaced 0 (routed owned)) 0 p).remote = true) := by decide +kernel
/-- A response for operation 3 of mover 7 of quarter 0, with k lines. -/
def respTo (tag st k : Nat) : Packet := { op := opResp, vc := 1, src := 4, tag := tag, sunit := 32 + 7, status := st, flits := List.replicate k (line1, false) }
def writing : Mover := { q := [{ copy64 with begun := true, issued := [0], ops := [{ id := 3, dst := 4 * 2 ^ 40, len := 64, reading := false, peer := some 4 }] }] }
/-- An acknowledgement for that operation waits in the bridge of quarter 1. -/
def ackHome (st : Nat) : State := (withMover writing).setRange 1 { brOut := [{ kind := .ack, dq := 0, sq := 1, ss := 5, status := st, org := .mover 0 7 3 }] }
theorem witness_ResponsesComeHome : (∀ x ∈ [(3, 0, 0), (3, 0, 1), (3, 8, 0), (4, 0, 0)], let p := respTo x.1 x.2.1 x.2.2; let s := recv (withMover writing) 1 p
      headOk s 1 opResp p = true ∧ s.behindWrite p = false ∧ p.sunit / 32 = 1 ∧ p.sunit % 32 / 8 = 0 ∧ p.sunit % 8 = 7 ∧ s.mover 0 7 = writing) ∧
    (∃ o ∈ writing.q.findSome? (fun d => d.ops.find? fun o => o.id == 3), o.reading = false) ∧ writing.q.findSome? (fun d => d.ops.find? fun o => o.id == 4) = none ∧
    (∀ st ∈ [0, 8], let s := ackHome st; s.settled = true ∧ s.canon = true ∧ s.mantelOff = false ∧ s.spineTurn = some 1 ∧ (s.range 0).halted = false ∧ (s.range 0).brIn = [] ∧
      ((s.spineOut 1).find? (fun z => z.dq == 0)).map (fun z => (z.kind, z.ds, z.org)) = some (.ack, 0, .mover 0 7 3) ∧ s.mover 0 7 = writing) := by decide +kernel
/-- Tenant 9 owns a staging area of four blocks in quarter 0, with block 1 in the given state; and closed channel 3. -/
def staged (st : Nat) : State :=
  { withChan closed3 with shared := [{ hbm := true, tenant := 9, ranges := 1, base := 0, len := 0x40000, staging := true }], stage := if st = 0 then [] else [(1, st, 0xFFFFFFFF)] }
def datagram (op a : Nat) : Packet := { op := op, vc := 5, src := 4, tenant := 9, addr := a, flits := if op = opDfetch then [] else [(line1, false)], arg0 := if op = opDfetch then 1024 else if op = opDmsg then 3 + 2 ^ 16 else 0 }
/-- The two packets of a DMSG of two lines to channel 3; a slot for it that has its first line. -/
def dmsgPart (off : Nat) : Packet := { op := opDmsg, vc := 5, src := 4, tenant := 9, tag := 6, arg0 := 3 + 2 * 2 ^ 16 + off * 2 ^ 23, flits := [(line1, false)] }
def slot2 : Channel := { chan3 with msglog := 7, ac := 1, accepted := 1, msgs := [{ slot := 0, mlines := 2, src := 4, unit := 0, tag := 6, num := 0, got := [0] }] }
theorem witness_Datagrams : (∀ x ∈ [(0, opDwrite, 0x1FFC0), (1, opDwrite, 0x1FFC0), (2, opDwrite, 0x1FFC0), (0, opDwrite, 0x40000), (0, opDfetch, 0xE000000000), (0, opDfetch, 0x30000), (0, opDmsg, 0)],
      let p := datagram x.2.1 x.2.2; let s := recv (staged x.1) 5 p; headOk s 5 x.2.1 p = true ∧ SMapWf ((0, 0) : Nat × Nat) s.stage = true ∧ SMapWf ({} : Channel) s.flg.chans = true ∧
        SMapWf ({} : Remote) s.remote = true ∧ s.behindWrite p = false ∧ headOk (recv (unplaced 5 (staged x.1)) 5 p) 5 x.2.1 p = true ∧ (recv (unplaced 5 (staged x.1)) 5 p).behindWrite p = true) ∧
    ((staged 0).stagingArea 0x1FFC0).map (fun a => a.tenant) = some 9 ∧ 0x1FFC0 / 0x10000 = (0x1FFC0 + 64 - 1) / 0x10000 ∧ (staged 0).stagingArea 0x40000 = none ∧ isHbm 0xE000000000 = false ∧
    isHbm 0x30000 = true ∧ (staged 0).inSharedArea 9 0x30000 (64 * 1024) = true ∧ (datagram opDmsg 0).moffset = 0 ∧ (datagram opDmsg 0).channel = 3 ∧
    (staged 0).judgeMsg ((staged 0).chan 3) (some 9) (datagram opDmsg 0).mlines = 2 ∧ ((staged 0).chan 3).everOpen = true ∧ (datagram opDmsg 0).flits.length ≤ (datagram opDmsg 0).mlines ∧
    (∀ x ∈ [(({ chan3 with msglog := 7 } : Channel), 0), ({ chan3 with msglog := 7 }, 1), (slot2, 1)], let s := recv (withChan x.1) 5 (dmsgPart x.2); headOk s 5 opDmsg (dmsgPart x.2) = true ∧ s.chan (dmsgPart x.2).channel = x.1 ∧
      s.behindWrite (dmsgPart x.2) = false ∧ (dmsgPart x.2).moffset = x.2 ∧ (dmsgPart x.2).mlines = 2 ∧ SMapWf ({} : Channel) s.flg.chans = true) ∧
    (recv (withChan { chan3 with msglog := 7 }) 5 (dmsgPart 0)).judgeMsg { chan3 with msglog := 7 } (some 9) 2 = 0 ∧ ({ chan3 with msglog := 7 } : Channel).msgs = [] ∧
    (slot2.msgs.find? fun m => m.src == 4 && m.unit == 0 && m.tag == 6 && !m.whole).isSome = true := by decide +kernel
/-- A packet for chip 4 on its way, with n hops left, at link 2, whose exit queue holds k packets in transit. -/
def passing (n : Nat) (vc : Nat) : Packet := { op := if vc = 5 then opDwrite else opFlagInc, vc := vc, src := 6, dst := 4, hops := n }
def onWay (n k vc : Nat) : State :=
  let s := recv (routed base) vc (passing n vc)
  s.setGate 2 { s.gate 2 with waiting := if k = 0 then [] else [(vc, List.replicate k { src := .transit, pkt := passing 5 vc })] }
/-- The same packet at link 3, whence it moves on to the gate of link 2. -/
def onWay3 (n k vc : Nat) : State :=
  let s := (routed base).setGate 3 { state := .up, rx := put [] vc [passing n vc] [] }
  s.setGate 2 { s.gate 2 with waiting := if k = 0 then [] else [(vc, List.replicate k { src := .transit, pkt := passing 5 vc })] }
theorem witness_TransitMoves : (∀ x ∈ [(3, 7, 0), (3, 8, 0), (0, 0, 0), (3, 8, 5)], ∀ y ∈ [(onWay x.1 x.2.1 x.2.2, 2), (onWay3 x.1 x.2.1 x.2.2, 3)], let s := y.1; s.settled = true ∧ s.canon = true ∧
      get [] x.2.2 (s.gate y.2).rx = [passing x.1 x.2.2] ∧ get [] x.2.2 (s.gate y.2).moving = [] ∧ (passing x.1 x.2.2).dst ≠ s.rt.chip ∧ s.chooseExit (passing x.1 x.2.2) = some (2, x.2.2) ∧ (s.range 0).halted = false ∧
      (s.gate 2).transitCount x.2.2 = x.2.1 ∧ s.clk.inStop = 0 ∧ s.mantelOff = false ∧ (s.gate 2).state ≠ .hold ∧ (s.gate 3).state ≠ .hold) := by
  decide +kernel
/-- An MGMT packet of type ty about link 3, which the image enables and which is up, down or drained. -/
def manage (ty link : Nat) : Packet := { op := opMgmt, vc := 3, src := 4, part := 0xF, flits := [(mgmtFlit ty link 0 0 [] 0, false)] }
def managed (g : Gate) (ty link : Nat) : State := recv ((routed base).setGate 3 g) 3 (manage ty link)
theorem witness_Management : (∀ x ∈ [(1, 0), (1, 3), (0, 0), (6, 0), (2, 0), (5, 0), (3, 3), (4, 3)], headOk (managed { image := true, en := true, state := .up } x.1 x.2) 3 opMgmt (manage x.1 x.2) = true ∧
      (manage x.1 x.2).flits ≠ [] ∧ ((managed { image := true } x.1 x.2).exitFor 3 4 3).isSome = true ∧ le (manage x.1 x.2).flit0 0 1 = x.1 ∧ le (manage x.1 x.2).flit0 1 1 = x.2) ∧
    mgmtClean (manage 1 0).flit0 false = true ∧ mgmtClean (manage 1 3).flit0 false = false ∧ mgmtClean (manage 3 3).flit0 true = true ∧ mgmtClean (manage 4 3).flit0 true = true ∧
    (∀ ty ∈ [3, 4], let p := { manage ty 3 with flits := [(mgmtFlit ty 3 1 0 [] 0, false)] }; mgmtClean p.flit0 true = false ∧ le p.flit0 0 1 = ty ∧
      headOk (recv (routed base) 3 p) 3 opMgmt p = true) ∧
    (managed { image := true, en := true, state := .up } 3 3).judgeDisable 3 = 0 ∧ ((managed { image := true, en := true, state := .up } 3 3).gate 3).upOrHold = true ∧
    (managed { image := true, en := true, state := .drain } 3 3).judgeDisable 3 ≠ 0 ∧
    (∀ g ∈ [({ image := true, rested := true } : Gate), { image := true }], (managed g 4 3).judgeEnable 3 = 0 ∧ headOk (managed g 4 3) 3 opMgmt (manage 4 3) = true) ∧
    headOk (managed { image := true, en := true, state := .drain } 3 3) 3 opMgmt (manage 3 3) = true ∧
    (managed { image := true, en := true, state := .up } 4 3).judgeEnable 3 ≠ 0 ∧ base.mayTrain = true := by decide +kernel

/-! ### Witnesses: Beyfatre -/

def addrA : Nat := 0x0A000001
def addrB : Nat := 0x0A000002
def port1 : Iface := { mode := 1, up := true, mac := 0x02000000000A, v4 := some addrA, v6 := some 0xFE800000000000000000000000000A01, ttl := 64, nbrs := [(4, addrB, 0x02000000000B)] }
/-- The far end of interface 1. -/
def peer1 : Iface := { mode := 1, up := true, mac := 0x02000000000B, v4 := some addrB, v6 := some 0xFE800000000000000000000000000B02, ttl := 64, nbrs := [(4, addrA, 0x02000000000A), (6, 0xFE800000000000000000000000000A01, 0x02000000000A)] }
/-- Queue pair 5 of tenant 9, bound to queue pair 6 of the far end. -/
def qp5 : Qp := { state := 3, tenant := 9, pd := 2, iface := 1, peerIp := addrB, peerQp := some 6, sqbase := 0x8000, sqdepth := 16, paylog0 := 10, paylog := 10, retry := 1, npsn := 7, una := 7, epsn := 4 }
/-- Region 1, generation 3: 4 KiB at 0x10000 with every right. -/
def region1 : Region := { gen := 3, reg := true, state := 1, tenant := 9, pd := 2, base := 0x10000, len := 0x1000, put := true, get := true, loc := true }
def key1 : Nat := 0x10003
def withQp (x : Qp) : State :=
  { routed owned with tenants := [{ id := 9, flagBase := 16, flagCount := 16, chanCount := 256, cntCount := 64 }], shared := [{ hbm := true, tenant := 9, ranges := 1, base := 0, len := 0x40000, staging := true }], trn := { base.trn with qps := [(5, x)], regions := [(1, region1)], ifaces := [(1, port1)] } }
def qpOk (x : Qp) : Bool :=
  (withQp x).settled && (withQp x).canon && !(withQp x).transportOff && !(withQp x).mantelOff && SMapWf ({} : Qp) (withQp x).trn.qps && SMapWf ({} : Iface) (withQp x).trn.ifaces && (withQp x).qp 5 == x &&
    (withQp x).trn.trigs.isEmpty && SMapWf (0 : Word) (withQp x).trn.cnt && SMapWf ({} : Region) (withQp x).trn.regions && SMapWf (0 : Word) (withQp x).flg.val
/-- A work request of 64 bytes at the start of region 1. -/
def wr (kind arg : Nat) : Bytes :=
  fit 64 (toBytes 8 0 ++ toBytes 1 kind ++ toBytes 1 0 ++ toBytes 2 0 ++ toBytes 4 key1 ++ toBytes 8 0 ++ toBytes 4 64 ++ toBytes 4 key1 ++ toBytes 8 arg ++ toBytes 4 3 ++ toBytes 4 0 ++ toBytes 2 5 ++ toBytes 2 0 ++ toBytes 4 9)
/-- A receive of 64 bytes there, for any tag. -/
def rv : Bytes := fit 64 (toBytes 8 0 ++ toBytes 8 0 ++ toBytes 8 0 ++ toBytes 4 key1 ++ toBytes 4 0 ++ toBytes 8 0 ++ toBytes 4 64)
def postOf (k : Nat) (b : Bytes) : Load := { kind := .write, dq := 4, sq := 1, ss := 5, addr := postWindow + 5 * 0x100 + 0x40 * k, lines := 1, data := b, poi := [false], tenant := 9 }
theorem witness_Posts : ∀ x ∈ [(0, wr 2 0, true), (1, rv, true), (2, wr 2 0, true), (0, wr 9 0, false), (1, wr 2 0, false), (2, wr 9 0, false)],
    let s := { withQp qp5 with mantel := [postOf x.1 x.2.1] }; let f := fun (l : Load) => inPostWindow l.addr && (match postTarget l.addr with | some t => t.2 == x.1 | none => false);
    qpOk qp5 = true ∧ s.mantel.find? f = some (postOf x.1 x.2.1) ∧ ((postOf x.1 x.2.1).addr - postWindow) / 0x100 = 5 ∧ qp5.state ≠ 4 ∧
    decide (State.judgePost { s with mantel := s.mantel.eraseP f } 9 (postOf x.1 x.2.1).addr 1 x.2.1 = 0) = x.2.2 ∧ x.2.1.length = 64 ∧ qp5.sqbase + (qp5.sqTail % qp5.sqdepth) * 64 + 64 ≤ 4 * hbmQuarter ∧
    s.trn.msgs = [] ∧ (get (0 : Word) (wrTrig (wr 2 0)) s.trn.cnt).toNat < wrThresh (wr 2 0) ∧
    (x.2.2 = true → let y := { qp5 with state := 4 }; let s := { withQp y with mantel := [postOf x.1 x.2.1] }; qpOk y = true ∧ s.mantel.find? f = some (postOf x.1 x.2.1) ∧
      State.judgePost { s with mantel := s.mantel.eraseP f } 9 (postOf x.1 x.2.1).addr 1 x.2.1 = 0) := by decide +kernel
def waitingWr (k arg : Nat) : Qp := { qp5 with sq := [wr k arg, wr 4 0] }
theorem witness_WorkBegins : (∀ k ∈ [1, 2, 3, 4, 5], qpOk (waitingWr k 0x20003) = true ∧ (withQp (waitingWr k 0x20003)).mayTake 5 k = true ∧ wrCntEn (wr k 0x20003) = false ∧
      ((withQp (waitingWr k 0)).opData (waitingWr k 0) (wr k 0) 0).2 = false ∧ (waitingWr k 0).rnrWait = none ∧ (waitingWr k 0).toSend = none ∧
      ((waitingWr k 0).npsn - (waitingWr k 0).una).toNat + (waitingWr k 0).packets (wrLen (wr k 0)) ≤ 256 ∧ ((withQp (waitingWr k 0)).iface 1).up = true ∧ (waitingWr k 0).maxPay ≤ 4096) ∧
    (withQp qp5).judgeKey key1 9 2 2 0 64 = 0 ∧ (let x := { waitingWr 1 0 with pd := 1 }; qpOk x = true ∧ (withQp x).mayTake 5 1 = true ∧ (withQp x).judgeKey key1 9 1 2 0 64 ≠ 0) := by decide +kernel
def armable (x : Qp) : State := { withQp x with stk := { base.stk with entries := [(3, { state := .idle, tenant := 9, rmask := 1 })] } }
theorem witness_OwnWork : (∀ x ∈ [(0x11, 63), (0x12, 63), (0x13, 31), (0x10, 3), (7, 0), (6, 4 * 2 ^ 40)], qpOk (waitingWr x.1 x.2) = true ∧ (withQp (waitingWr x.1 x.2)).mayTake 5 x.1 = true ∧ wrCntEn (wr x.1 x.2) = false ∧
      wrArg (wr x.1 x.2) = x.2) ∧ (withQp qp5).mayUseFlag 9 31 = true ∧
    (armable (waitingWr 0x10 3)).settled = true ∧ (armable (waitingWr 0x10 3)).mayTake 5 0x10 = true ∧ SMapWf ({} : Entry) (armable (waitingWr 0x10 3)).stk.entries = true ∧ (armable (waitingWr 0x10 3)).judgeArm 3 0 9 = 0 ∧
    wrRkey (wr 7 0) / 65536 = 1 ∧ ((withQp qp5).region 1).reg = true ∧ ((withQp qp5).region 1).gen = wrRkey (wr 7 0) % 65536 ∧ ((withQp qp5).region 1).tenant = qp5.tenant ∧ 4 * 2 ^ 40 / 2 ^ 40 ≠ base.rt.chip ∧ ((withQp qp5).region 1).state ≠ 0 ∧
    (withQp qp5).judgeKey key1 9 2 2 0 64 = 0 ∧ (∃ a ∈ (withQp qp5).stagingArea ((withQp qp5).keyAddr key1 0), a.tenant = 9 ∧ a.base ≤ 0x10000 ∧ 0x10000 + 0x1000 ≤ a.base + a.len) ∧ region1.base % hbmQuarter = 0x10000 ∧
    region1.len = 0x1000 ∧ 4 * 2 ^ 40 / 2 ^ 40 < 256 ∧ (withQp qp5).rt.unreach.getLsbD 4 = false ∧ ((withQp qp5).exitFor 4 4 5).isSome = true := by decide +kernel
/-- A packet of the far end's queue pair 6 to queue pair 5, as a frame. -/
def pkt (opc : Nat) (psn : Word) (tenant : Nat) (ext pay : Bytes) : BfPkt :=
  { ackreq := false, first := true, last := true, opc := opc, tenant := tenant, dqpn := 5, sqpn := 6, psn := psn, ext := fit 16 ext, payload := pay, srcIp := addrB }
def frameOf (p : BfPkt) : Bytes := bfFrame peer1 0x166C false addrA 0 p
def bytes16 : Bytes := List.replicate 16 0x5A
def putPkt : BfPkt := pkt 2 4 9 (toBytesBE 4 key1 ++ toBytesBE 8 0xFF0) bytes16
def sendPkt : BfPkt := pkt 1 4 9 (toBytesBE 8 77 ++ toBytesBE 4 16) bytes16
def getPkt : BfPkt := pkt 3 4 9 (toBytesBE 4 key1 ++ toBytesBE 8 0 ++ toBytesBE 4 16) []
def rspPkt : BfPkt := pkt 4 7 9 (toBytesBE 4 0) bytes16
def flushPkt : BfPkt := pkt 5 4 9 [] []
def postPkt : BfPkt := pkt 6 4 9 [0, 3] line1
def ackPkt : BfPkt := pkt 7 0 9 (toBytesBE 4 6) []
def connPkt : BfPkt := pkt 8 0 9 (toBytesBE 4 40 ++ [9]) []
def accPkt : BfPkt := pkt 9 0 9 (toBytesBE 4 40 ++ [9]) []
theorem witness_received : ∀ p ∈ [putPkt, sendPkt, getPkt, rspPkt, flushPkt, postPkt, ackPkt, connPkt, accPkt], (withQp qp5).receives 1 (frameOf p) true = some (.bf p) ∧ p.payload.length ≤ qp5.maxPay := by decide +kernel
/-- A queue pair that a packet does not reach, for the tenant differs. -/
theorem witness_refused : qpOk { qp5 with tenant := 7 } = true ∧ ∀ p ∈ [putPkt, sendPkt, getPkt, rspPkt, flushPkt, postPkt, ackPkt, connPkt, accPkt], (withQp { qp5 with tenant := 7 }).qpTakes p = false := by decide +kernel
def postedRv : Recv := { id := 1, qpn := 5, list := 0, raw := rv }
/-- A CHPOST beyond MAXPAY. -/
def bigPost : BfPkt := pkt 6 4 9 [0, 3] (List.replicate 320 0)
def small5 : Qp := { qp5 with paylog0 := 8, paylog := 8 }
set_option maxRecDepth 100000 in
theorem witness_bigPost : qpOk small5 = true ∧ (withQp small5).receives 1 (frameOf bigPost) true = some (.bf bigPost) ∧ small5.maxPay < bigPost.payload.length ∧ (withQp small5).qpTakes bigPost = true ∧
    bigPost.psn = small5.epsn := by decide +kernel
/-- With a receive posted; with a GET of 16 bytes that awaits its response. -/
def withRecv : State := { withQp qp5 with trn := { (withQp qp5).trn with recvs := [postedRv] } }
def getOut : Qp := { qp5 with npsn := 8, ops := [{ id := 2, raw := wr 3 0, psn := 7, n := 1, sent := 1 }] }
theorem witness_BeyfatrePackets : (∀ p ∈ [putPkt, sendPkt, getPkt, flushPkt, postPkt], (withQp qp5).qpTakes p = true ∧ p.psn = qp5.epsn) ∧ qp5.state = 3 ∧ qpOk qp5 = true ∧
    (withQp qp5).packetKey putPkt (be putPkt.ext 0 4) 0 (be putPkt.ext 4 8) 16 = 0 ∧ (withQp qp5).packetKey getPkt (be getPkt.ext 0 4) 1 (be getPkt.ext 4 8) 16 = 0 ∧
    (withRecv.settled = true ∧ withRecv.receives 1 (frameOf sendPkt) true = some (.bf sendPkt) ∧ be sendPkt.ext 8 4 = 16 ∧ be sendPkt.ext 12 4 = 0 ∧ takeRecv 0 77 withRecv.trn.recvs = some (postedRv, []) ∧ 16 ≤ rvLen rv ∧
      withRecv.trn.matched = [] ∧ withRecv.judgeKey (rvLkey rv) 9 2 2 (rvLoff rv) 16 = 0) ∧
    ((withQp qp5).qpTakes ackPkt = true ∧ be ackPkt.ext 4 1 = 0 ∧ (BitVec.ofNat 32 (be ackPkt.ext 0 4) - (qp5.una - 1)).toNat ≤ (qp5.npsn - qp5.una).toNat) ∧
    (qpOk getOut = true ∧ (withQp getOut).receives 1 (frameOf rspPkt) true = some (.bf rspPkt) ∧ (withQp getOut).qpTakes rspPkt = true ∧ (getOut.opAt 7).map Prod.snd = some 0 ∧ getOut.ops.find? (fun z => wrKind z.raw == 3 && z.sent != 0 && !z.done) = (getOut.opAt 7).map Prod.fst ∧ (getOut.opAt 7).map (fun e => e.1.placed) = some 0 ∧ wrKind (wr 3 0) = 3 ∧ wrCq (wr 3 0) = false ∧
      getOut.toSend = none ∧ (withQp getOut).judgeKey (wrLkey (wr 3 0)) 9 2 2 (wrLoff (wr 3 0) + 0) 16 = 0) ∧
    (let x := { qp5 with state := 1, peerQp := none }; qpOk x = true ∧ (withQp x).receives 1 (frameOf connPkt) true = some (.bf connPkt) ∧ (withQp x).qpTakes connPkt = true ∧ x.ops = []) ∧
    (let x := { qp5 with state := 2 }; qpOk x = true ∧ (withQp x).receives 1 (frameOf accPkt) true = some (.bf accPkt) ∧ (withQp x).qpTakes accPkt = true ∧ x.ops = []) := by decide +kernel

/-! ### Witnesses: Ethernet -/

def arpAsk : Bytes := peer1.header 0xFFFFFFFFFFFF 0x0806 ++ toBytesBE 8 0x0001080006040001 ++ toBytesBE 6 peer1.mac ++ toBytesBE 4 addrB ++ toBytesBE 6 0 ++ toBytesBE 4 addrA
def ownV6 : Nat := 0xFE800000000000000000000000000A01
def solicitAsk : Bytes := peer1.header 0x3333FF000A01 0x86DD ++ ipPacket peer1 true (solicited ownV6) 0 0 58 255 (icmp true (peer1.v6.getD 0) (solicited ownV6) 135 (toBytesBE 4 0 ++ toBytesBE 16 ownV6))
def echoAsk : Bytes := peer1.header port1.mac 0x0800 ++ ipPacket peer1 false addrA 0 0 1 64 (icmp false addrB addrA 8 (toBytesBE 4 1))
def pauseAsk : Bytes := toBytesBE 6 0x0180C2000001 ++ toBytesBE 6 peer1.mac ++ toBytesBE 2 0x8808 ++ List.replicate 46 0
def foreign : Bytes := toBytesBE 6 0x020000000099 ++ toBytesBE 6 peer1.mac ++ toBytesBE 2 0x0800 ++ List.replicate 46 0
def unknown : Bytes := toBytesBE 6 port1.mac ++ toBytesBE 6 peer1.mac ++ toBytesBE 2 0x88B5 ++ List.replicate 46 0
/-- An echo whose answer would be longer than a frame may be. -/
def echoLong : Bytes := peer1.header port1.mac 0x0800 ++ ipPacket peer1 false addrA 0 0 1 64 (icmp false addrB addrA 8 (List.replicate 4163 0))
theorem witness_EthernetFrames : qpOk qp5 = true ∧ (withQp qp5).iface 1 = port1 ∧ port1.up = true ∧ (withQp qp5).receives 1 arpAsk true = some (.arp peer1.mac addrB) ∧
    (withQp qp5).receives 1 solicitAsk true = some (.solicit (peer1.v6.getD 0)) ∧ (withQp qp5).receives 1 echoAsk true = some (.echo false addrB (icmp false addrB addrA 8 (toBytesBE 4 1))) ∧
    (echoReply port1 false addrB (icmp false addrB addrA 8 (toBytesBE 4 1))).length + 4 ≤ 4202 ∧ (withQp qp5).receives 1 pauseAsk true = some .pause ∧
    (withQp qp5).receives 1 arpAsk false = some .fcs ∧ (withQp qp5).receives 1 foreign true = some .bad ∧ (withQp qp5).receives 1 unknown true = some .other := by decide +kernel
set_option maxRecDepth 100000 in
theorem witness_EchoTooLong : (withQp qp5).receives 1 echoLong true = some (.echo false addrB (icmp false addrB addrA 8 (List.replicate 4163 0))) ∧
    4202 < (echoReply port1 false addrB (icmp false addrB addrA 8 (List.replicate 4163 0))).length + 4 := by decide +kernel
def doneRv (b : Bytes) : Recv := { id := 1, qpn := 5, list := 0, raw := b, ready := true }
/-- That receive with its completion record and its counter asked for. -/
def rvAll : Bytes := rv.take 44 ++ [3, 0] ++ rv.drop 46
def withDone (b : Bytes) (w : List (Nat × Nat × Nat × Nat)) : State :=
  { withQp qp5 with trn := { (withQp qp5).trn with matched := [doneRv b], regions := [(1, { region1 with state := 2 })] }, boot := { base.boot with waits := w } }
/-- An acknowledged GET whose response is missing. -/
def late : Qp := { getOut with una := 8 }
/-- The first link of the repository's interface, at step 7. -/
def firstLink : State := { base with trn := { base.trn with ifaces := [(0, port1)] }, boot := { base.boot with step := 7 } }
theorem witness_TransportEvents : (∀ x ∈ [(rv, []), (rvAll, [(1, 1, 5, 0)])], let s := withDone x.1 x.2; s.settled = true ∧ s.canon = true ∧ s.transportOff = false ∧ s.clk.inStop = 0 ∧ SMapWf ({} : Qp) s.trn.qps = true ∧
      s.trn.matched.find? (fun v => v.id == 1 && v.ready) = some (doneRv x.1) ∧ s.trn.matched.find? (fun v => v.id == 2 && v.ready) = none ∧ s.trn.trigs = [] ∧ (s.region 1).state = 2 ∧ (s.region 2).state ≠ 2 ∧
      SMapWf ({} : Region) s.trn.regions = true ∧ (s.boot.waits.any (fun w => w.1 == 1 && w.2.1 == 1)) = decide (x.2 ≠ [])) ∧ rvCq rv = false ∧ rvCntEn rv = false ∧ rvCntEn rvAll = true ∧ rvCq rvAll = true ∧
    ((withQp qp5).iface 1).mode ≠ 0 ∧ (withQp qp5).boot.step = 10 ∧ ((withQp qp5).iface 0).mode = 0 ∧
    (let s := firstLink; s.settled = true ∧ s.canon = true ∧ s.transportOff = false ∧ s.clk.inStop = 0 ∧ SMapWf ({} : Qp) s.trn.qps = true ∧ (s.iface 0).mode ≠ 0 ∧ s.boot.step = 7 ∧ s.boot.failed = false ∧
      s.bringsUp = true ∧ 0 = le s.repo 0 1) ∧
    (∀ x ∈ [{ qp5 with retries := 1, npsn := 8 }, { late with retries := 1 }, { qp5 with retry := 2, retries := 1, npsn := 8 }, late, { qp5 with state := 2, retry := 3, connTries := 2 },
      { qp5 with state := 2, retry := 3, connTries := 1 }, { qp5 with state := 2, retry := 3, iface := 2 }, qp5, { qp5 with state := 4 }, { qp5 with rnrWait := some 7 }], qpOk x = true) ∧
    qp5.retry = 1 ∧ qp5.una = qp5.npsn ∧ qp5.lateGets = [] ∧ late.lateGets ≠ [] ∧ late.una = late.npsn ∧ (∀ o ∈ late.ops, o.acked = false) ∧ qp5.rnrWait = none ∧ qp5.state = 3 ∧ ((withQp qp5).iface 2).up = false := by decide +kernel

/-! ### Witnesses: references, power, resets, bring-up -/

/-- Both references fitted and present; the run of the peers' disagreement is 9, with three partners 10 ppm away. -/
def clocked (run : Nat) : State :=
  let s := { base with clk := { base.clk with altFitted := true, present := 3, altRun := run, peerRun := run } }
  [1, 2, 3].foldl (fun s k => s.setGate k { state := .up, pchip := k, ppmValid := true, ppm := 2000 }) s
def clockOk (s : State) : Bool := s.settled && s.canon && !s.svc.mirrorEn && SMapWf 0 s.clk.trimBridge && SMapWf 0 s.clk.trimStation
/-- Every quarter stopped for a change of kind k, with the given references present. -/
def stoppedAll (k : Nat) (p : BitVec 2) : State :=
  { (((((clocked 10).setRange 0 { halted := true }).setRange 1 { halted := true }).setRange 2 { halted := true }).setRange 3 { halted := true }) with
    clk := { (clocked 10).clk with pending := k, present := p, stopped := [0, 1, 2, 3], holdover := k != 1 } }
/-- Holdover without reference 0, which is selected; without both. -/
def heldOver (p : BitVec 2) : State := { clocked 0 with clk := { (clocked 0).clk with present := p, holdover := true } }
theorem witness_References : (∀ run ∈ [0, 9], clockOk (clocked run) = true ∧ (clocked run).refInUse = true ∧ (clocked run).fitted (clocked run).alternate = true ∧ (clocked run).refPresent (clocked run).alternate = true ∧
      (clocked run).witnesses.length = 3 ∧ (clocked run).altUsable = true ∧ (clocked run).mantelOff = false) ∧ min 10 (9 + 1) = 10 ∧ 1500 < (1501 : Int).natAbs ∧
    (∀ x ∈ [(1, (3 : BitVec 2)), (1, 1), (2, 3), (3, 2)], clockOk (stoppedAll x.1 x.2) = true ∧ (stoppedAll x.1 x.2).mantelOff = true) ∧ (stoppedAll 1 1).refPresent 1 = false ∧ (stoppedAll 3 2).refPresent 1 = true ∧ (stoppedAll 1 3).svc.cause = 0 ∧
    (let s := { stoppedAll 1 3 with svc := { base.svc with cause := 3 } }; clockOk s = true ∧ s.mantelOff = true ∧ 10 ≤ s.boot.step) ∧
    ((clocked 0).refPresent 0 = true ∧ (clocked 0).clk.sel = 0 ∧ (clocked 0).refPresent 1 = true ∧ (clocked 0).clk.pending = 0) ∧
    (∀ p ∈ [(2 : BitVec 2), 0], clockOk (heldOver p) = true ∧ (heldOver p).fitted 0 = true ∧ (heldOver p).fitted 1 = true ∧ (heldOver p).clk.holdover = true ∧ (heldOver p).clk.pending = 0 ∧ (heldOver p).clk.sel = 0 ∧
      (heldOver p).refPresent 0 = false ∧ (heldOver p).alternate = 1 ∧ (heldOver p).clk.suspect = 0) ∧
    (clocked 0).fitted 1 = true ∧ (clocked 0).clk.holdover = false ∧ (clockOk base = true ∧ base.fitted 1 = false ∧ base.refPresent 1 = false) ∧
    (let s := { clocked 0 with boot := { base.boot with step := 3 } }; clockOk s = true ∧ s.refInUse = false) := by decide +kernel
def powered (p : Power → Power) : State := { ticking with pwr := p base.pwr }
def powerOk (s : State) : Bool := s.settled && s.canon && s.serving 5 && s.onPll
/-- An alert of the one device of the map, which has not acknowledged n times. -/
def alerted (n : Nat) : State := powered fun p => { p with smbalert := true, regs := [(0x10, 0, 0x7F)], pmbNaks := if n = 0 then [] else [(0, n)] }
def sunk (x : Sink) : State := powered fun p => { p with sinks := [(3, x)] }
def atStep (n : Nat) : State := { base with boot := { base.boot with step := n } }
theorem witness_PowerResponses : (∀ s ∈ [ticking, powered fun p => { p with writing := true, commanded := 48 }, powered fun p => { p with acked := true, commanded := 48 }, powered fun p => { p with writing := true, naks := 2 }, alerted 0, alerted 1, alerted 2],
      powerOk s = true ∧ s.svc.cause = 0 ∧ s.svc.ibiEn = false ∧ s.svc.mirrorEn = false) ∧ ticking.pwr.writing = false ∧ ticking.pwr.acked = false ∧ ticking.pwr.smbalert = false ∧
    860 ≤ codeMv 48 + 15 ∧ codeMv 48 ≤ 860 + 15 ∧ codeMv 48 + 15 < 876 ∧ (0 : Nat) < [(0x10, 0, 0x7F)].length ∧ (alerted 0).pwr.regs.length ≤ 1 ∧ get 0 0 (alerted 2).pwr.pmbNaks = 2 ∧ get 0 0 (alerted 1).pwr.pmbNaks ≠ 2 ∧
    ((0x8040 : BitVec 16) &&& ~~~0x40 ≠ 0) ∧ (0x8040 : BitVec 16).getLsbD 6 = true ∧ (0x8000 : BitVec 16).getLsbD 6 = false ∧
    (∀ x ∈ [({ env := 4, goal := 8 } : Sink), { env := 4, down := 2 }, { env := 4, hold := 3 }, { env := 4, up := 1 }], powerOk (sunk x) = true ∧ (sunk x).sink 3 = x) ∧ (115 : Int) ≤ 115 ∧ (114 : Int) < 115 ∧
    (let s := { atStep 10 with clk := { base.clk with pending := 1 } }; s.settled = true ∧ s.clk.pending ≠ 0 ∧ (atStep 10).clk.pending = 0) ∧
    (∀ n ∈ [1, 2, 4, 9, 10], (atStep n).settled = true ∧ (atStep n).canon = true ∧ (atStep n).pwr.bank = 0 ∧ (atStep n).boot.held = 0 ∧ (atStep n).svc.cause = 0) ∧
    (atStep 4).serving 5 = false ∧ base.onPll = false ∧ base.serving 5 = true := by decide +kernel
def noFlash : Flash := { sfdp := true, quad := false, addr4 := false, size := 28, parts := [] }
def board (f : Flash) : BootEnv := { flash := f, refs := 3, trims := [], naks := [], avsOk := true, avsMv := 860, failing := 0 }
def inReset (h : BitVec 2) : State := { State.reset with boot := { State.reset.boot with held := h } }
/-- A RESTART waits for the acknowledgement of its reply; that of its reply is there; it is not. -/
def restarting : State := { ticking with boot := { base.boot with restart := some 3 } }
def answered (l : List TOp) : State := { restarting with trn := { base.trn with qps := [(0, { state := 3, ops := l })] } }
/-- A reset whose release finds rails off: all seven, or rail 0. -/
def unpowered (h : BitVec 2) (r : BitVec 10) : State := { inReset h with pwr := { (inReset h).pwr with rails := r } }
/-- Rail 2 is the last to go off, on the way to BANKED or COLD. -/
def offLast (c : Bool) : State := { base with pwr := { base.pwr with railSeq := [2], railOn := false, sleeping := true, cold := c } }
theorem witness_ResetsAct : (50 : Nat) ≤ 50 ∧ (49 : Nat) < 50 ∧ (∀ s ∈ [base, atStep 9, inReset 1, inReset 2, inReset 3, restarting, answered [], answered [{ id := 3 }]], s.pwr.off = false ∧ s.settled = true ∧ (∀ r < 7, s.pwr.rails.getLsbD r = true)) ∧
    (inReset 1).boot.held.getLsbD 0 = true ∧ base.boot.held.getLsbD 0 = false ∧ base.boot.held.getLsbD 1 = false ∧ base.coldBringUp = false ∧ (atStep 9).coldBringUp = true ∧
    (∀ q < 4, (base.stn q).cmds = [] ∧ (base.stn q).serving = []) ∧ (inReset 1).boot.held = 1 ∧ (inReset 2).boot.held = 2 ∧ (inReset 3).boot.held = 3 ∧
    restarting.boot.restart = some 3 ∧ restarting.onPll = true ∧ (restarting.qp 0).state ≠ 3 ∧ ((answered []).qp 0).state = 3 ∧ ((answered []).qp 0).ops.any (fun o => o.id == 3) = false ∧
    ((answered [{ id := 3 }]).qp 0).ops.any (fun o => o.id == 3) = true ∧ base.boot.restart = none ∧
    (∀ h ∈ [(1 : BitVec 2), 2], ∀ x ∈ [((0x380 : BitVec 10), [0, 1, 2, 3, 6, 4, 5]), (0x3FE, [0])], (unpowered h x.1).settled = true ∧ (unpowered h x.1).boot.held = h ∧ onOrder.filter (fun r => !(unpowered h x.1).pwr.rails.getLsbD r) = x.2) ∧
    (∀ c ∈ [false, true], (offLast c).pwr.railSeq = [2] ∧ (offLast c).pwr.railOn = false ∧ (offLast c).boot.held = 0 ∧ (offLast c).pwr.cold = c) := by decide +kernel
/-- At step 2 after a failed start, with nothing pinned. -/
def atStep2 : State := { base with boot := { base.boot with step := 2, failed := true } }
def atStep7 : State := { ticking with boot := { base.boot with step := 7 } }
/-- Queue pair 0 in ERROR. -/
def brokenSession : State := { ticking with trn := { base.trn with qps := [(0, { state := 4 })] } }
def asleep (b : Nat) : State := { base with pwr := { base.pwr with bank := b, rails := 0x380 } }
/-- Rails of a list still to go on or off; regulator 0 feeds all seven, and has not acknowledged n times. -/
def switching (l : List Nat) (on : Bool) (n : Nat) : State :=
  { atStep 1 with pwr := { base.pwr with railSeq := l, railOn := on, regs := [(0x10, 0, 0x7F)], pmbNaks := if n = 0 then [] else [(0, n)] } }
/-- The last rail in test mode; rails that no regulator of the map feeds; a reset on the way. -/
def switchTest : State := { switching [5] true 0 with svc := { base.svc with testMode := true } }
def unmapped : State := { atStep 1 with pwr := { base.pwr with railSeq := [3, 4], railOn := true } }
def switchHeld : State := { switching [3, 4] true 0 with boot := { base.boot with step := 1, held := 2 } }
theorem witness_BringUpGoesOn : (∀ s ∈ [atStep2, atStep7, brokenSession, asleep 1, asleep 2, switching [3, 4] true 0, switching [3, 4] false 0, switching [5] true 2, switching [5] true 3, switchTest, unmapped, switchHeld, base],
      s.settled = true ∧ s.canon = true) ∧
    (atStep2.boot.step = 2 ∧ atStep2.boot.failed = true ∧ atStep2.bringsUp = true ∧ atStep2.svc.mirrorEn = false ∧ flashHeader noFlash = none) ∧
    (atStep7.boot.step = 7 ∧ atStep7.boot.failed = false ∧ atStep7.boot.ethWait = false ∧ atStep7.bringsUp = true ∧ atStep7.onPll = true ∧ atStep7.svc.mirrorEn = false) ∧
    ((brokenSession.qp 0).state = 4 ∧ 8 ≤ brokenSession.boot.step ∧ brokenSession.svc.fatalSvc = false ∧ brokenSession.boot.restart = none ∧ brokenSession.onPll = true ∧ SMapWf ({} : Qp) brokenSession.trn.qps = true) ∧
    (base.boot.step ≠ 2 ∧ base.boot.step ≠ 7 ∧ (base.qp 0).state ≠ 4 ∧ base.pwr.bank = 0 ∧ base.pwr.railSeq = []) ∧ (asleep 1).pwr.bank = 1 ∧ (asleep 2).pwr.bank ≠ 0 ∧ (asleep 2).pwr.bank ≠ 1 ∧
    (switching [3, 4] true 0).pwr.railSeq = [3, 4] ∧ (switching [3, 4] true 0).boot.held = 0 ∧ (switching [5] true 2).bringUpFree = true ∧ switchTest.bringUpFree = true ∧ switchTest.svc.testMode = true ∧ switchHeld.boot.held ≠ 0 ∧
    (switching [3, 4] true 0).railDevice 3 = some 0 ∧ (switching [5] true 2).railDevice 5 = some 0 ∧ get 0 0 (switching [5] true 2).pwr.pmbNaks = 2 ∧ get 0 0 (switching [5] true 3).pwr.pmbNaks = 3 ∧ unmapped.railDevice 3 = none ∧ base.pwr.railOn = false ∧
    get 0 0 (switching [3, 4] true 0).pwr.pmbNaks ≠ 2 ∧ (switching [3, 4] true 0).pwr.railOn = true := by decide +kernel
theorem witness_WakeN : wakeNs ≤ 10000 := by unfold wakeNs; omega

/-! ### A flash with one signed copy -/

/-- A record of a configuration body (R436). -/
def record (ty : Nat) (v : Bytes) : Bytes := toBytes 2 ty ++ toBytes 2 v.length ++ fit ((v.length + 3) / 4 * 4) v
/-- The smallest body that Table 14.4 and R438 allow, in pieces: one part, one regulator for every rail; the five route tables, without an exit; one port and the rest. -/
def bodyA : Bytes :=
  record 1 [0, 0, 4, 0, 0, 0, 32, 0] ++ record 2 [0, 0, 0, 0] ++ record 3 [0, 0, 0, 0, 0xE8, 3, 0, 0] ++ record 4 (fit 40 [0, 0, 1, 0, 1, 0, 0, 0, 1])
  ++ record 5 [0, 0, 0, 0, 13, 0, 95, 85, 1, 0, 1, 0, 0x10, 0, 0x7F, 0]
def bodyR (c : Byte) : Bytes := record 8 (fit 4 [c] ++ (List.replicate 256 [0x1F, 0, 0, 0]).flatten)
def bodyZ : Bytes := record 9 ([0, 1, 0, 0] ++ fit 64 [1, 0, 0, 0, 0, 2, 2]) ++ record 11 (List.replicate 12 0) ++ record 12 (fit 124 [0, 4, 6, 0, 2, 0, 0, 10, 0, 0, 0, 0, 0, 0, 0, 0, 0, 0, 0, 0, 10])
def body1 : Bytes := bodyA ++ (bodyR 0 ++ (bodyR 1 ++ (bodyR 2 ++ (bodyR 3 ++ (bodyR 4 ++ bodyZ)))))
/-- The public key of the private key 1. -/
def pub1 : Bytes := 4 :: toBytesBE 48 p384gx ++ toBytesBE 48 p384gy
def head0 : Bytes := fit 124 (toBytes 4 0x5DE90A02 ++ toBytes 4 1 ++ toBytes 4 3 ++ toBytes 4 5472 ++ pub1)
def head1 : Bytes := head0 ++ toBytes 4 3514194696
/-- Signed with the private key 1 and the nonce 1: r is the base point's x, s is the hash plus r. -/
def sign1 (m : Bytes) : Bytes := toBytesBE 48 (p384gx % p384n) ++ toBytesBE 48 ((ofBytesBE (sha384 m) + p384gx) % p384n)
def copy1 : Bytes := let m := head1 ++ body1; m ++ sign1 m
def flashHead : Bytes := let h := fit 60 (toBytes 4 0x5DE90A01 ++ toBytes 4 1 ++ toBytes 4 0x10000 ++ toBytes 4 0x10000 ++ toBytes 4 0x20000 ++ toBytes 4 0x10000); h ++ toBytes 4 (crc32c h)
def flash1 : Flash := { sfdp := true, quad := true, addr4 := false, size := 28, parts := [(0, flashHead), (0x10000, copy1)] }
/-- A fold of bytes into a number, each value forced before the next byte. -/
def foldStrict (f : Nat → Byte → Nat) : Bytes → Nat → Nat
  | [], c => c
  | b :: l, c => match f c b with
    | 0 => foldStrict f l 0
    | n + 1 => foldStrict f l (n + 1)
theorem foldStrict_eq (f : Nat → Byte → Nat) (l : Bytes) (c : Nat) : foldStrict f l c = l.foldl f c := by
  induction l generalizing c with
  | nil => rfl
  | cons b l ih => rw [foldStrict, List.foldl_cons]; split <;> rename_i h <;> rw [h, ih]
theorem head1_fold : foldStrict (crcDnByte 0x82F63B78) (head0 ++ body1) 0xFFFFFFFF = 780772599 := by decide +kernel
theorem crc32c_eq (b : Bytes) : crc32c b = 0xFFFFFFFF ^^^ foldStrict (crcDnByte 0x82F63B78) b 0xFFFFFFFF := by rw [crc32c, foldStrict_eq]
theorem head1_crc : crc32c (head0 ++ body1) = 3514194696 := (crc32c_eq _).trans (by rw [head1_fold]; decide)
theorem body1_length : body1.length = 5472 := by decide +kernel
theorem head1_length : head1.length = 128 := by decide +kernel
theorem toBytes_length (k x : Nat) : (toBytes k x).length = k := by
  induction k generalizing x with
  | zero => rfl
  | succ k ih => rw [toBytes, List.length_cons, ih]
theorem sign1_length (m : Bytes) : (sign1 m).length = 96 := by simp [sign1, toBytesBE, toBytes_length]
theorem copy1_length : copy1.length = 5696 := by simp only [copy1, List.length_append, head1_length, body1_length, sign1_length]
theorem read_head : flashRead flash1 0x10000 128 = head1 := by
  simp only [flashRead, flash1, List.find?, copy1_length]
  rw [show (decide (0 ≤ 0x10000) && decide (0x10000 + 128 ≤ 0 + flashHead.length)) = false by decide +kernel, show (decide (0x10000 ≤ 0x10000) && decide (0x10000 + 128 ≤ 0x10000 + 5696)) = true by decide]
  simp only [Bool.false_and, Bool.true_and, show (addr4Used { sfdp := true, quad := true, addr4 := false, size := 28, parts := [(0, flashHead), (0x10000, copy1)] } || decide (0x10000 + 128 ≤ 2 ^ 24)) = true from Bool.or_eq_true_iff.mpr (Or.inr (by decide))]
  simp only [copy1, Nat.sub_self, List.drop_zero, List.append_assoc]
  exact List.take_left' head1_length
theorem read_copy : flashRead flash1 0x10000 (128 + 5472 + 96) = copy1 := by
  simp only [flashRead, flash1, List.find?, copy1_length]
  rw [show (decide (0 ≤ 0x10000) && decide (0x10000 + (128 + 5472 + 96) ≤ 0 + flashHead.length)) = false by decide +kernel, show (decide (0x10000 ≤ 0x10000) && decide (0x10000 + (128 + 5472 + 96) ≤ 0x10000 + 5696)) = true by decide]
  simp only [Bool.false_and, Bool.true_and, show (addr4Used { sfdp := true, quad := true, addr4 := false, size := 28, parts := [(0, flashHead), (0x10000, copy1)] } || decide (0x10000 + (128 + 5472 + 96) ≤ 2 ^ 24)) = true from Bool.or_eq_true_iff.mpr (Or.inr (by decide))]
  simp only [Nat.sub_self, List.drop_zero]
  exact List.take_of_length_le (Nat.le_of_eq copy1_length)
theorem copy1_body : (copy1.drop 128).take 5472 = body1 := by
  simp only [copy1, List.append_assoc]
  rw [List.drop_left' head1_length]; exact List.take_left' body1_length
theorem copy1_sig : copy1.drop (128 + 5472) = sign1 (head1 ++ body1) := by
  simp only [copy1]; exact List.drop_left' (by rw [List.length_append, head1_length, body1_length])
theorem copy1_msg : copy1.take (128 + 5472) = head1 ++ body1 := by
  simp only [copy1]; exact List.take_left' (by rw [List.length_append, head1_length, body1_length])
theorem head0_length : head0.length = 124 := by decide +kernel
theorem copy1_head : copy1.take 124 = head0 := by
  simp only [copy1, head1, List.append_assoc]; exact List.take_left' head0_length
def hash1 : Nat := 0xc0760a824db8f683d2c4226265fb2fd782fd9f26bffb45add8d7aad374b5887ac49f0cb97ef50a9b72a00a95331223f
theorem hash1_eq : ofBytesBE (sha384 (head1 ++ body1)) = hash1 := by decide +kernel
theorem verified1 : ecdsaVerify pub1 (sign1 (head1 ++ body1)) (head1 ++ body1) = true := by
  simp only [ecdsaVerify, sign1, hash1_eq]; decide +kernel
theorem legal1 : bodyIllegal body1 = none := by decide +kernel
theorem judged1 : (judgeCopy flash1 0x10000 0x10000 none none none).verdict = 0 ∧ (judgeCopy flash1 0x10000 0x10000 none none none).gen = 3 := by
  have h1 : le head1 0 4 = 0x5DE90A02 ∧ le head1 4 1 = 1 ∧ le head1 8 4 = 3 ∧ le head1 12 4 = 5472 := by decide +kernel
  have h2 : le copy1 124 4 = 3514194696 ∧ (copy1.drop 16).take 97 = pub1 := by decide +kernel
  simp only [judgeCopy, read_head, h1, read_copy, copy1_body, copy1_head, head1_crc, h2, copy1_sig, copy1_msg, verified1, legal1]
  simp
/-- The clause of BringUpGoesOn in which a copy boots: copy A of that flash. -/
theorem witness_CopyBoots : ∃ ca cb, (atStep2.readFlash flash1).2 = some (ca, cb) ∧ chooseCopy ca cb = some (0, false) := by
  have h : flashHeader flash1 = some (0, flashHead) := by decide +kernel
  have h2 : le flashHead 8 4 = 0x10000 ∧ le flashHead 12 4 = 0x10000 ∧ le flashHead 16 4 = 0x20000 ∧ le flashHead 20 4 = 0x10000 := by decide +kernel
  have h3 : (judgeCopy flash1 0x20000 0x10000 none none none).verdict = 1 := by decide +kernel
  refine ⟨judgeCopy flash1 0x10000 0x10000 none none none, judgeCopy flash1 0x20000 0x10000 none none none, ?_, ?_⟩
  · simp only [State.readFlash, h, h2]; rfl
  · simp only [chooseCopy, judged1.1, h3]; rfl

/-! ### Witnesses: the deploy layer -/

/-- The one message in work: its request under judgement, and a START behind it. -/
def ask (ty : Nat) (b : Bytes) : DMsg := { dseq := 5, reqs := [(ty, b), (0x50, [])] }
def asked (s : State) (ty : Nat) (b : Bytes) : State := { s with boot := { s.boot with work := [ask ty b] } }
theorem asked_next (s : State) (ty : Nat) (b : Bytes) (h : ({ s with boot := { s.boot with work := [] } } : State).settled = true) (hf : s.svc.fatalSvc = false)
    (hw : (s.boot.waits.any fun w => w.1 == 0) = false) : (asked s ty b).nextIs (ask ty b) ty b :=
  ⟨h, hf, rfl, rfl, hw, (0x50, []), [], rfl, rfl⟩
/-- What asked_next needs of a state, and its sparse maps. -/
def askable (s : State) : Bool :=
  ({ s with boot := { s.boot with work := [] } } : State).settled && !s.svc.fatalSvc && !(s.boot.waits.any fun w => w.1 == 0) && s.canon && SMapWf ({} : Entry) s.stk.entries && SMapWf ({} : Qp) s.trn.qps &&
    SMapWf ({} : Channel) s.flg.chans
/-- A DATA message under digest, next in order. -/
def dataMsg (q : Nat) : Bytes :=
  fit 64 (toBytes 4 0x5DE90A03 ++ [2, 1] ++ toBytes 2 1 ++ toBytes 8 q ++ line1.take 16 ++ toBytes 4 24) ++ toBytes 2 0x12 ++ toBytes 2 0 ++ toBytes 4 16 ++ fit 16 [9, 1]
def withMsg (q : Nat) : State := { base with boot := { base.boot with inbox := [(0, dataMsg q)], nonce := line1.take 16, digests := [(1, sha384 (dataMsg 1))] } }
theorem witness_RequestsAnswered : (∀ q ∈ [1, 2], (withMsg q).settled = true ∧ (withMsg q).svc.fatalSvc = false ∧ 9 ≤ (withMsg q).boot.step ∧ (withMsg q).linesPoison ((withMsg q).deployBuf 0) (ceilDiv (dataMsg q).length 64) = false) ∧
    (withMsg 1).judgeDeploy (dataMsg 1) false = 0 ∧ (withMsg 2).judgeDeploy (dataMsg 2) false ≠ 0 ∧ askable base = true ∧ reqOf .arm = some 2 ∧ reqOf .start = some 0x50 ∧ knownReq 2 = true ∧ base.boot.waits = [] ∧
    (({ dseq := 5, reqs := [(2, [0])], results := [some { code := 2 }] } : DMsg).results.all fun r => r.isSome) = true ∧
    (let x : Qp := { state := 3, rnrWait := some 0 }; let s : State := { base with trn := { base.trn with qps := [(0, x)] } }; askable s = true ∧ (s.qp 0).state = 3 ∧ (s.qp 0).rnrWait.isSome = true) := by decide +kernel
/-- A LOAD of one bundle for entry 5, tenant 9. -/
def loadReq : Bytes := fit 48 (toBytes 2 5 ++ toBytes 2 0 ++ toBytes 4 (9 * 256)) ++ toBytes 4 1 ++ [1, 0, 0, 0] ++ toBytes 4 32 ++ List.replicate 32 0
def entryReq (e t : Nat) : Bytes := toBytes 2 e ++ toBytes 1 t ++ [0]
def listed (x : Entry) : State := { owned with stk := { base.stk with entries := if x.state = .empty then [] else [(5, x)] } }
def parked : State := { base with stk := { base.stk with started := false }, boot := { base.boot with step := 9 }, svc := { base.svc with mode := 0 } }
theorem witness_EntryRequests : (∀ x ∈ [({} : Entry), { state := .armed, arms := 1, tenant := 9 }, { state := .idle, tenant := 9 }, { state := .loading, tenant := 9 }, { state := .disabled, tenant := 9 }, { state := .disabled, arms := 1, tenant := 9 },
      { state := .idle, tenant := 9, leaving := 1 }, { state := .disabled, tenant := 9, leaving := 2 }],
      askable (listed x) = true ∧ (listed x).entry 5 = x) ∧
    (52 ≤ loadReq.length ∧ ((parseSecs (le loadReq 48 4) (loadReq.drop 52)).map secsOk) = some true ∧ le loadReq 0 2 = 5 ∧ field (le loadReq 4 4) 8 8 = 9 ∧ (listed {}).aborting 9 = false) ∧
    ((entryReq 5 9).length = 4 ∧ le (entryReq 5 9) 3 1 = 0 ∧ le (entryReq 5 9) 2 1 = 9 ∧ le (entryReq 5 9) 0 2 = 5 ∧ (owned.tenantRec 9).isSome = true) ∧
    (listed { state := .armed, arms := 1, tenant := 9 }).judgeArm 5 0 9 = 0 ∧ (listed { state := .idle, tenant := 9 }).judgeArm 5 0 9 = 0 ∧ (listed { state := .loading, tenant := 9 }).judgeArm 5 0 9 = 0x11 ∧ owned.rt.part = 0 ∧
    EState.idle.live = true ∧ (askable parked = true ∧ parked.boot.step = 9 ∧ parked.stk.started = false ∧ parked.svc.cause = 0 ∧ parked.stk.tickDue = false ∧ (∀ q < 4, (parked.range q).halted = false ∧ (parked.range q).valid = false)) ∧
    base.boot.step ≠ 9 := by decide +kernel
/-- A shared area of tenant 9: 64 KiB of HBM in quarters 0 and 1. -/
def area1 : Area := { id := 1, hbm := true, tenant := 9, ranges := 3, base := 0x8000000, len := 0x10000 }
def areaReq : Bytes := [9, 1, 1, 3, 0, 0, 0, 0] ++ toBytes 8 0x8000000 ++ toBytes 8 0x10000
def shared1 : State := { owned with shared := [area1] }
def areaRef : Bytes := fit 8 [9, 1]
def dataReq : Bytes := [9, 1, 0, 0] ++ toBytes 4 2 ++ toBytes 8 0xFFC0 ++ line1
def expectReq : Bytes := toBytes 8 6 ++ List.replicate 48 1
/-- CH_OPEN of channel 3: ring 4 KiB, message 64 bytes, notifying flag 16, read pointer flag 17. -/
def openReq (c : Nat) : Bytes := fit 48 (toBytes 2 c ++ [9, 12, 6, 1] ++ toBytes 2 17 ++ toBytes 2 16 ++ toBytes 6 0 ++ toBytes 8 0x8000000)
def chReq (c v : Nat) : Bytes := toBytes 2 c ++ [9] ++ toBytes 1 v
def chanArea (x : Channel) : State := { shared1 with flg := { shared1.flg with chans := [(3, x)] } }
theorem witness_AreaAndChannelRequests : askable owned = true ∧ askable shared1 = true ∧ (owned.tenantRec 9).isSome = true ∧
    (areaReq.length = 24 ∧ area1 = { id := le areaReq 1 1, hbm := le areaReq 2 1 == 1, tenant := 9, ranges := le areaReq 3 1, base := le areaReq 8 8, len := le areaReq 16 8 } ∧ le areaReq 0 1 = 9 ∧ le areaReq 2 1 ≤ 1 ∧
      zeroBytes areaReq 4 4 = true ∧ area1.base % 2048 = 0 ∧ area1.len % 2048 = 0 ∧ owned.sharedArea 9 1 = none ∧ owned.areaFits area1 = true ∧ (shared1.sharedArea 9 1).isSome = true) ∧
    (let b := areaReq.take 16 ++ List.replicate 8 0; b.length = 24 ∧ le b 16 8 = 0 ∧ owned.areaFits { area1 with len := 0 } = true) ∧
    (areaRef.length = 8 ∧ zeroBytes areaRef 2 6 = true ∧ le areaRef 0 1 = 9 ∧ le areaRef 1 1 = 1 ∧ shared1.sharedArea 9 1 = some area1 ∧ shared1.areaBusy area1 = false ∧ area1.base % 0x10000 = 0 ∧ area1.len % 0x10000 = 0) ∧
    (let x := { chan3 with base := 0x8000000 }; askable (chanArea x) = true ∧ (chanArea x).sharedArea 9 1 = some area1 ∧ (chanArea x).areaBusy area1 = true) ∧
    (16 ≤ dataReq.length ∧ le dataReq 0 1 = 9 ∧ zeroBytes dataReq 2 2 = true ∧ le dataReq 8 8 % 64 = 0 ∧ dataReq.length % 64 = 16 ∧ le dataReq 1 1 = 1 ∧ le dataReq 4 4 = 2 ^ 1 ∧ area1.ranges.testBit 1 = true ∧
      le dataReq 8 8 + (dataReq.length - 16) ≤ area1.len) ∧
    (expectReq.length = 56 ∧ 5 < le expectReq 0 8 ∧ owned.boot.digests.length < 1024) ∧
    ((openReq 3).length = 48 ∧ le (openReq 3) 2 1 = 9 ∧ shared1.judgeOpen (chAttrOf (openReq 3)) = 0 ∧ shared1.judgeOpen (chAttrOf (openReq 256)) ≠ 0) ∧
    (∀ x ∈ [chan3, { chan3 with dis := true }], askable (withChan x) = true ∧ (withChan x).chan 3 = x ∧ x.state = .opened) ∧ (withChan chan3).ownsChan 9 3 = true ∧ (withChan chan3).ownsChan 9 256 = false ∧
    (chReq 3 1).length = 4 ∧ le (chReq 3 1) 2 1 = 9 ∧ le (chReq 3 1) 0 2 = 3 ∧ le (chReq 3 1) 3 1 = 1 ∧ le (chReq 3 0) 3 1 = 0 ∧ chan3.dis = false := by decide +kernel
/-- QP_CREATE of queue pair 5 over interface 1, unbound or bound without a declared PSN; its completion channels 4 and 5. -/
def qpReq (flags : Nat) : Bytes :=
  fit 60 (toBytes 2 5 ++ [9, 1, 4, 0, 10] ++ toBytes 1 flags ++ toBytes 2 6 ++ toBytes 2 0 ++ toBytes 4 7 ++ toBytes 4 0 ++ toBytes 4 addrB ++ toBytes 12 0 ++ toBytes 2 2 ++ toBytes 2 16 ++ toBytes 8 0x8000000 ++ toBytes 2 4 ++ toBytes 2 5 ++
    toBytes 4 1000 ++ [7, 7] ++ toBytes 2 100)
def pairable (l : List (Nat × Qp)) : State :=
  { shared1 with tenants := [{ id := 9, flagBase := 16, flagCount := 16, chanCount := 256, cntCount := 64 }], trn := { base.trn with qps := l, regions := [(1, region1)], ifaces := [(1, port1)] } }
def regReq (i : Nat) : Bytes := toBytes 2 i ++ [9, 7] ++ toBytes 2 2 ++ toBytes 2 0 ++ toBytes 8 0x8000000 ++ toBytes 8 0x1000
def regRef (g : Nat) : Bytes := toBytes 2 g ++ toBytes 2 1 ++ [9, 0, 0, 0]
def linkReq (k : Nat) : Bytes := fit 8 (toBytes 1 k)
def pingReq : Bytes := fit 8 [4, 1]
def flashReq (c off : Nat) : Bytes := toBytes 1 c ++ [0, 0, 0] ++ toBytes 4 off ++ List.replicate 256 0x77
def flashable : State := { base with boot := { base.boot with resA := (0x10000, 0x10000), resB := (0x20000, 0x10000) } }
def ledgerReq (t v : Nat) : Bytes := toBytes 1 t ++ [0, 0, 0] ++ toBytes 48 v
theorem witness_PairRequests : askable (pairable []) = true ∧ ((pairable []).tenantRec 9).isSome = true ∧
    (∀ f ∈ [0, 1], (qpReq f).length = 60 ∧ le (qpReq f) 2 1 = 9 ∧ le (qpReq f) 0 2 = 5 ∧ le (qpReq f) 7 1 < 4 ∧ (pairable []).ownsChan 9 (qpOf 0 (qpReq f)).scq = true ∧ (pairable []).ownsChan 9 (qpOf 0 (qpReq f)).rcq = true ∧
      (pairable []).qpLegal (qpOf 0 (qpReq f)) 4 = true ∧ le (qpReq f) 4 1 = 4) ∧ ((pairable []).qp 5).state = 0 ∧ (qpOf 0 (qpReq 0)).state ≠ 2 ∧ (qpOf 0 (qpReq 1)).state = 2 ∧ ((pairable [(5, qp5)]).qp 5).state ≠ 0 ∧
    (∀ k ∈ [3, 4, 5], askable (pairable [(5, { qp5 with state := k })]) = true ∧ ((pairable [(5, { qp5 with state := k })]).qp 5).tenant = 9 ∧ ((pairable [(5, { qp5 with state := k })]).qp 5).state = k) ∧
    (entryReq 5 9).length = 4 ∧ le (entryReq 5 9) 3 1 = 0 := by decide +kernel
theorem witness_RegionRequests : (∀ i ∈ [0, 1], (regReq i).length = 24 ∧ le (regReq i) 2 1 = 9 ∧ le (regReq i) 0 2 = i ∧ le (regReq i) 3 1 < 16 ∧ (le (regReq i) 3 1).testBit 3 = false ∧ le (regReq i) 4 2 < 4096 ∧ le (regReq i) 6 2 < 4096) ∧
    ((pairable []).region 0).reg = false ∧ le (regReq 0) 8 8 % 64 = 0 ∧ le (regReq 0) 16 8 % 64 = 0 ∧ (pairable []).inSharedArea 9 0x8000000 0x1000 = true ∧ ((pairable []).region 1).reg = true ∧
    ((regRef 3).length = 8 ∧ le (regRef 3) 4 1 = 9 ∧ zeroBytes (regRef 3) 5 3 = true ∧ le (regRef 3) 2 2 = 1 ∧ le (regRef 3) 0 2 = region1.gen ∧ region1.tenant = 9 ∧ region1.state ≠ 0 ∧ region1.gen ≠ le (regRef 4) 0 2) ∧
    (let s : State := { pairable [] with trn := { (pairable []).trn with regions := [(1, { region1 with state := 0 })] } }; askable s = true ∧ (s.region 1).state = 0 ∧ (s.region 1).reg = true) := by decide +kernel
theorem witness_PartRequests : (∀ k ∈ [3, 20], (linkReq k).length = 8 ∧ zeroBytes (linkReq k) 1 7 = true ∧ le (linkReq k) 0 1 = k) ∧
    (let s := (routed base).setGate 3 { image := true, en := true, state := .up }; askable s = true ∧ s.judgeDisable 3 = 0 ∧ (s.gate 3).upOrHold = true ∧ s.judgeDisable 20 = 1 ∧ s.judgeEnable 20 = 1) ∧
    (let s := base.setGate 3 { image := true, rested := true }; askable s = true ∧ s.judgeDisable 3 = 2 ∧ s.judgeEnable 3 = 0 ∧ s.mayTrain = true) ∧
    (∀ x ∈ [(3, 19), (4, 0), (3, 20), (4, 20)], let b : Bytes := fit 8 [4, BitVec.ofNat 8 x.1, BitVec.ofNat 8 x.2]; b.length = 8 ∧ zeroBytes b 3 5 = true ∧ le b 0 1 = 4 ∧ le b 1 1 = x.1 ∧ le b 2 1 = x.2) ∧
    base.exitFor 3 4 3 = none ∧ base.rt.chip ≠ 4 ∧
    (pingReq.length = 8 ∧ zeroBytes pingReq 3 5 = true ∧ le pingReq 1 1 = 1 ∧ le pingReq 2 1 = 0 ∧ ((routed base).exitFor 3 (le pingReq 0 1) 3).isSome = true ∧ askable (routed base) = true) ∧
    (askable flashable = true ∧ flashable.boot.copy = 0 ∧ ∀ x ∈ [(1, 0), (0, 0), (1, 0x10000)], 8 ≤ (flashReq x.1 x.2).length ∧ le (flashReq x.1 x.2) 0 1 = x.1 ∧ zeroBytes (flashReq x.1 x.2) 1 3 = true ∧ le (flashReq x.1 x.2) 4 4 = x.2 ∧
      x.2 % 4096 = 0 ∧ (flashReq x.1 x.2).length % 256 = 8) ∧ 0 + 256 ≤ flashable.boot.resB.2 ∧ flashable.boot.resB.2 < 0x10000 + 256 ∧
    (∀ v ∈ [5, 0x10], (ledgerReq 2 v).length = 52 ∧ le (ledgerReq 2 v) 0 1 = 2 ∧ zeroBytes (ledgerReq 2 v) 1 3 = true) ∧ ledgerLegal 2 (((ledgerReq 2 5).drop 4).take 48) = true ∧ ledgerLegal 2 (((ledgerReq 2 0x10).drop 4).take 48) = false ∧
    (List.range (ledSlots 2)).find? (fun n => !(base.ledSlot 2 n).burned) = some 0 ∧ base.boot.waits = [] ∧ base.svc.fatalSvc = false := by decide +kernel

/-! ### Witnesses: sideband and TAP -/

def board7 : State := { base with svc := { base.svc with testMode := true } }
def dynBase : State := { base with svc := { base.svc with dynAddr := 9, dynValid := true } }
/-- The mailbox has lost a command; a pair of those in one state, the DEBUG instruction locked out. -/
def overrun7 : State := { base with svc := { base.svc with overrun := true } }
def locked7 : State := { board7 with boot := { base.boot with dbgLocked := true } }
theorem witness_Mailbox : base.hears 0x58 = true ∧ dynBase.hears 9 = true ∧ (0xF000000020 % 4 = 0 ∧ 0xF000000000 ≤ 0xF000000020 ∧ 0xF000000020 + 4 * 4 ≤ 0xF100000000 ∧ ∀ j < 4, csrDecoded base (0xF000000020 + 4 * j) = true) ∧
    (∀ t ∈ [1, 2, 3, 4], 0 < ledSlots t) ∧ base.svc.mode = 1 ∧ base.pwr.sleeping = false ∧ base.svc.mirrorEn = false ∧ (∀ q < 4, base.stopped q = false) ∧ (0 : Byte) ≠ 0xA5 ∧ frameCheck [] ≠ 0 ∧ base.svc.overrun = false ∧
    (9 : BitVec 7) ≠ 0x58 ∧ overrun7.hears 0x58 = true ∧ overrun7.svc.overrun = true := by decide +kernel
theorem witness_CommonCommandCodes : base.settled = true ∧ base.served = true ∧ (1 : Byte).getLsbD 0 = true ∧ base.svc.dynValid = false ∧ dynBase.settled = true ∧ dynBase.svc.dynValid = true ∧ dynBase.served = true ∧
    base.addressed 0x58 = true ∧ dynBase.addressed 9 = true ∧ base.addressed 9 = false := by decide +kernel
theorem witness_TestAccess : base.settled = true ∧ base.tapOn = true ∧ base.svc.testMode = false ∧ board7.settled = true ∧ board7.tapOn = true ∧ board7.svc.testMode = true ∧ board7.boot.dbgLocked = false ∧
    csrDecoded board7 0xF000000020 = true ∧ board7.comServed = true ∧ 0xFC0 % 64 + 64 ≤ 64 ∧ board7.kindAt 0xFC0 = 1 ∧ csrDecoded board7 0xF000000004 = true ∧ inStoreWindow 0xF010800000 = true ∧ (0xF000000021 : Nat) % 4 ≠ 0 ∧
    (∀ a ∈ [0xF0FFFFFFF0], csrDecoded board7 a = false) ∧ (let s := { board7 with boot := { base.boot with step := 0 } }; s.settled = true ∧ s.comServed = false ∧ s.tapOn = true) ∧
    (locked7.settled = true ∧ locked7.tapOn = true ∧ locked7.boot.dbgLocked = true) ∧ State.reset.tapOn = false ∧ State.reset.settled = true := by decide +kernel
/-- The invariant of CanonKept holds after reset and in the states above. -/
theorem witness_CanonKept : State.reset.canon = true ∧ base.canon = true ∧ (withQp qp5).canon = true ∧ step base = .next base := ⟨by decide +kernel, by decide +kernel, by decide +kernel, rfl⟩

end Sys2Proof.Tests
end

section
/-! The commands of slot M: how an operation of the array comes to issue (R48, Table 4.2). -/
namespace Sys2Proof.Machine

theorem tick_of_cur {s : State} {h k : Nat} {iss : HIssue} (hcur : (s.hob h).cur = some iss) : (s.hob h).tick k = s.ticked h k iss := by
  simp only [Hob.tick, hcur, State.ticked]
/-- Operation 0 of a portion is the array operation of its slot M, issued in the cycle in which the range stands. -/
theorem doHobOp_array {s : State} {h t : Nat} {iss : HIssue} (hi : s.issues h t 0 iss) :
    s.doHobOp (h / 8) (h % 8) 0 = s.setHob h ((s.ticked h 0 iss).issueArray iss t) := by
  obtain ⟨-, ⟨-, -, -, hcyc, -⟩, hcur, -⟩ := hi
  simp only [State.doHobOp, Nat.div_add_mod, hcur, hcyc, tick_of_cur hcur]
/-- A command of slot M that is due ticks its operation off and issues it, and the command's end adds nothing. -/
theorem hobCmd_array {s : State} {h t : Nat} {iss : HIssue} {ok : Nat → Bool} (hi : s.issues h t 0 iss) (hk : ok iss.bits = true) :
    s.hobCmd h t 0 ok = s.setHob h ((s.ticked h 0 iss).issueArray iss t) := by
  rw [hobCmd_issues hi hk, doHobOp_array hi, done_setHob hi.1]
theorem exec_swap (h : Fin 32) (t : Nat) (s : State) : exec (.swap h t) s = .next (s.hobCmd h t 0 fun b => mAop (slotM b) == 2) := rfl
theorem issueArray_swap {x : Hob} {iss : HIssue} {t : Nat} (ha : mAop (slotM iss.bits) = 2) : x.issueArray iss t = x.enq (t + 4) t 0 .swap := by
  simp only [Hob.issueArray, ha, Hob.issueSwap]
/-- A SWAP that issues waits at offset 4 of Table 4.2. -/
theorem exec_swap_issues {h : Fin 32} {t : Nat} {s : State} {iss : HIssue} (hi : s.issues h t 0 iss) (ha : mAop (slotM iss.bits) = 2) :
    exec (.swap h t) s = .next (s.setHob h { s.ticked h 0 iss with pend := insertPend ⟨t + 4, t, 0, .swap⟩ (s.hob h).pend }) := by
  rw [exec_swap, hobCmd_array hi (by simp [ha]), issueArray_swap ha]
  rfl

end Sys2Proof.Machine
end

section
/-! The planes of the matrix array: a word after a write of a word, and what the two effects on planes write (R47, R48). -/
namespace Sys2Proof.Machine

@[simp] theorem Plane.put_tag (p : Plane) (w f : Nat) (d : Lanes) (m : Bool) : (p.put w f d m).tag = f := rfl
theorem Plane.word_put_self {p : Plane} (h : SMapWf zeroLanes p.words = true) (w f : Nat) (d : Lanes) (m : Bool) : (p.put w f d m).word w = d :=
  get_put_self _ _ _ _ h
theorem Plane.word_put_ne {p : Plane} (h : SMapWf zeroLanes p.words = true) {w k : Nat} (f : Nat) (d : Lanes) (m : Bool) (hk : k ≠ w) :
    (p.put w f d m).word k = p.word k :=
  get_put_ne _ _ _ _ _ h hk
theorem writeFx_swap {s : State} {h c : Nat} {e : HPend} (he : e.fx = .swap) :
    writeFx s h c e = s.setHob h { s.hob h with active := (s.hob h).shadow, shadow := (s.hob h).active } := by
  simp only [writeFx, he]
theorem writeFx_planePut {s : State} {h c w f : Nat} {d : Lanes} {m : Bool} {e : HPend} (he : e.fx = .planePut w f d m) :
    writeFx s h c e = s.setHob h { s.hob h with shadow := (s.hob h).shadow.put w f d m } := by
  simp only [writeFx, he]

/-- Settles O10: the command's issue, the effect of the swap, and the reads of the shadow plane after the write of one word. -/
theorem planeSwap : Obligations.PlaneSwap := by
  unfold Obligations.PlaneSwap
  refine ⟨fun h t s iss hi ha => exec_swap_issues hi ha, fun s h c e he => writeFx_swap he, ?_⟩
  intro s h c w f d m e he hcanon hwords
  rw [writeFx_planePut he, hob_setHob hcanon]
  exact ⟨rfl, Plane.word_put_self hwords w f d m, rfl, fun k hk => Plane.word_put_ne hwords f d m hk⟩

end Sys2Proof.Machine
end

section
/-! The reductions of the vector unit: a list of lanes halves at each of six levels (R56). -/
namespace Sys2Proof.Machine

/-- One level on `2 * w` lanes leaves `w`: lane i combined with lane i + w. -/
theorem reduceLevel_range (f : Word → Word → Word) (g : Nat → Word) (w : Nat) :
    reduceLevel f ((List.range (2 * w)).map g) = (List.range w).map fun i => f (g i) (g (i + w)) := by
  have hw : 2 * w / 2 = w := by omega
  apply List.ext_getElem
  · simp only [reduceLevel, List.length_zipWith, List.length_take, List.length_drop, List.length_map, List.length_range]
    omega
  · intro i _ _
    simp [reduceLevel, hw, Nat.add_comm w i]
/-- After `n` of the six levels the list holds the `64 / 2^n` values of that level of the tree. -/
theorem repeat_reduceLevel (f : Word → Word → Word) (a : Nat → Word) (n : Nat) (hn : n ≤ 6) :
    Nat.repeat (reduceLevel f) n ((List.range 64).map a) = (List.range (64 / 2 ^ n)).map (treeLane f a n) := by
  induction n with
  | zero => rfl
  | succ n ih =>
    have halves : ∀ m < 6, 64 / 2 ^ m = 2 * (64 / 2 ^ (m + 1)) := by decide
    rw [Nat.repeat, ih (by omega), halves n hn, reduceLevel_range]
    rfl
theorem toList_mapLanes (g : Word → Word) (a : Lanes) : (mapLanes g a).toList = (List.range 64).map fun k => g (lane a k) := by
  apply List.ext_getElem
  · simp
  · intro i hi _
    have hi : i < 64 := by simpa using hi
    simp [mapLanes, lane, hi]
/-- Every lane of a reduction holds the root of the tree over the mapped lanes. -/
theorem reduceLanes_mapLanes (f : Word → Word → Word) (g : Word → Word) (a : Lanes) (i : Fin 64) :
    (reduceLanes f (mapLanes g a))[i] = treeLane f (fun k => g (lane a k)) 6 0 := by
  have root : Nat.repeat (reduceLevel f) 6 (mapLanes g a).toList = [treeLane f (fun k => g (lane a k)) 6 0] := by
    rw [toList_mapLanes, repeat_reduceLevel f _ 6 (Nat.le_refl 6)]
    rfl
  calc (reduceLanes f (mapLanes g a))[i] = (Nat.repeat (reduceLevel f) 6 (mapLanes g a).toList).headD 0 := Vector.getElem_replicate _
    _ = treeLane f (fun k => g (lane a k)) 6 0 := by rw [root]; rfl
theorem vResult_rsum {b : Nat} (h : vOp b = 15) (ra rb rc : Lanes) : vResult b ra rb rc = reduceLanes fpAdd (mapLanes (negIf (vNA b)) ra) := by
  simp only [vResult, h]
theorem vResult_rmax {b : Nat} (h : vOp b = 16) (ra rb rc : Lanes) : vResult b ra rb rc = reduceLanes fpMax (mapLanes (negIf (vNA b)) ra) := by
  simp only [vResult, h]
theorem vResult_rmin {b : Nat} (h : vOp b = 17) (ra rb rc : Lanes) : vResult b ra rb rc = reduceLanes fpMin (mapLanes (negIf (vNA b)) ra) := by
  simp only [vResult, h]

/-- Settles O8: each reduction is `reduceLanes` of its operation on the negated lanes of A, and that is the root of the tree of six levels. -/
theorem reductionTree : Obligations.ReductionTree := by
  unfold Obligations.ReductionTree
  intro b ra rb rc i
  refine ⟨fun h => ?_, fun h => ?_, fun h => ?_⟩
  · rw [vResult_rsum h, reduceLanes_mapLanes]
  · rw [vResult_rmax h, reduceLanes_mapLanes]
  · rw [vResult_rmin h, reduceLanes_mapLanes]

end Sys2Proof.Machine
end

section
/-! What does not touch a local window: the logging of faults, a decision of slot Q, and the hobs' taking of their portions leave the window, QX and the hobs'
local positions as they are, and every state but hobs and ranges alone (R86, R142, R143). -/
namespace Sys2Proof.Machine

/-- The sequencer's part of a local window: the window, QX, and the last local cycle. -/
def Range.windowPart (r : Range) : Option Window × Nat × Option Nat := (r.win, r.qx, r.lastLocal)
/-- Where a hob stands in its local store: position, frames and counters. -/
def Hob.localPart (x : Hob) : Nat × List Frame × SMap Nat := (x.lpc, x.lstack, x.lc)

theorem windowPart_eq_iff {r : Range} {w : Option Window} {v : Nat} {l : Option Nat} :
    r.windowPart = (w, v, l) ↔ r.win = w ∧ r.qx = v ∧ r.lastLocal = l := by
  simp only [Range.windowPart, Prod.mk.injEq]
theorem localPart_eq_iff {x : Hob} {p : Nat} {l : List Frame} {m : SMap Nat} : x.localPart = (p, l, m) ↔ x.lpc = p ∧ x.lstack = l ∧ x.lc = m := by
  simp only [Hob.localPart, Prod.mk.injEq]

/-- From `a` to `s` the local window of range `q` stayed as it was, and every hob's local position with it; nothing but hobs and ranges changed, and where
the hobs of the range had their portions they still have them. -/
structure SameWindow (q : Nat) (a s : State) : Prop where
  canon : s.canon = true
  rest : s = { a with hobs := s.hobs, ranges := s.ranges }
  window : (s.range q).windowPart = (a.range q).windowPart
  on : (a.range q).hobsOn = true → (s.range q).hobsOn = true
  positions : ∀ h, (s.hob h).localPart = (a.hob h).localPart

theorem SameWindow.refl (q : Nat) {a : State} (h : a.canon = true) : SameWindow q a a := ⟨h, rfl, rfl, id, fun _ => rfl⟩
theorem SameWindow.settled {q : Nat} {a s : State} (h : SameWindow q a s) : s.settled = a.settled := by
  rw [h.rest]
  rfl
theorem SameWindow.setRange {q : Nat} {a s : State} {x : Range} (h : SameWindow q a s) (hx : x.windowPart = (s.range q).windowPart)
    (hon : (s.range q).hobsOn = true → x.hobsOn = true) : SameWindow q a (s.setRange q x) where
  canon := canon_setRange h.canon q x
  rest := by rw [h.rest]; rfl
  window := by rw [range_setRange h.canon, hx, h.window]
  on := by rw [range_setRange h.canon]; exact fun ha => hon (h.on ha)
  positions := h.positions
theorem SameWindow.setHob {q : Nat} {a s : State} {x : Hob} {k : Nat} (h : SameWindow q a s) (hx : x.localPart = (s.hob k).localPart) :
    SameWindow q a (s.setHob k x) where
  canon := canon_setHob h.canon k x
  rest := by rw [h.rest]; rfl
  window := h.window
  on := h.on
  positions j := by
    by_cases hj : j = k
    · rw [hj, hob_setHob h.canon, hx, h.positions]
    · rw [hob_setHob_ne h.canon x hj, h.positions]
theorem SameWindow.foldl {α : Type} {q : Nat} {a s : State} {f : State → α → State} {l : List α} (h : SameWindow q a s)
    (hf : ∀ t x, SameWindow q a t → SameWindow q a (f t x)) : SameWindow q a (l.foldl f s) := by
  induction l generalizing s with
  | nil => exact h
  | cons x l ih => exact ih (hf s x h)

/-! ### Faults and the decision of slot Q -/

theorem SameWindow.fault {q : Nat} {a s : State} (h : SameWindow q a s) (u slot reason addr cyc : Nat) (loc : Bool) :
    SameWindow q a (s.fault q u slot reason addr cyc loc) := h.setRange rfl id
theorem SameWindow.seqFault {q : Nat} {a s : State} (h : SameWindow q a s) (slot reason addr cyc : Nat) :
    SameWindow q a (s.seqFault q slot reason addr cyc) := h.fault 8 slot reason addr cyc false
theorem SameWindow.logFaults {q : Nat} {a s : State} (h : SameWindow q a s) (u addr cyc : Nat) (loc : Bool) (l : SMap Nat) :
    SameWindow q a (s.logFaults q u addr cyc loc l) := by
  induction l generalizing s with
  | nil => exact h
  | cons e l ih => exact ih (h.fault u e.1 e.2 addr cyc loc)
theorem SameWindow.setNext {q : Nat} {a s : State} (h : SameWindow q a s) (res : CtlRes) (delay : Nat) : SameWindow q a (s.setNext q res delay) := by
  unfold State.setNext
  extract_lets r at0 r1 s1 s2 r2
  have h1 : SameWindow q a s1 := h.setRange rfl id
  have h2 : SameWindow q a s2 := by
    unfold s2
    split
    · exact h1.seqFault ..
    · exact h1
  split
  · exact h2.setRange rfl id
  · apply SameWindow.seqFault
    exact h2.setRange rfl id
theorem SameWindow.goOn {q : Nat} {a s : State} (h : SameWindow q a s) (delay : Nat) : SameWindow q a (s.goOn q delay) := h.setNext _ delay

@[simp] theorem seqFault_hobs (s : State) (q slot reason addr cyc : Nat) : (s.seqFault q slot reason addr cyc).hobs = s.hobs := rfl
@[simp] theorem setNext_hobs (s : State) (q : Nat) (res : CtlRes) (delay : Nat) : (s.setNext q res delay).hobs = s.hobs := by
  unfold State.setNext
  extract_lets r at0 r1 s1 s2 r2
  have h2 : s2.hobs = s.hobs := by unfold s2; split <;> rfl
  split <;> exact h2
@[simp] theorem goOn_hobs (s : State) (q delay : Nat) : (s.goOn q delay).hobs = s.hobs := setNext_hobs ..

/-! ### The hobs take their portions -/

@[simp] theorem localPart_enqAdv (x : Hob) (c : Nat) (l : List Nat) : (x.enqAdv c l).localPart = x.localPart := by
  unfold Hob.enqAdv
  split <;> rfl
@[simp] theorem localPart_noteBanks (x : Hob) (b c : Nat) (flt : SMap Nat) : (x.noteBanks b c flt).localPart = x.localPart := rfl
/-- A hob that holds another portion stands where it stood. -/
theorem localPart_portion (x : Hob) (b c : Nat) (flt : SMap Nat) (l : List Nat) (o : Option HIssue) :
    ({ ((x.noteBanks b c flt).enqAdv c l) with cur := o } : Hob).localPart = x.localPart :=
  (localPart_enqAdv ..).trans (localPart_noteBanks ..)
theorem SameWindow.startLocal {q : Nat} {a s : State} (h : SameWindow q a s) (c i : Nat) : SameWindow q a (s.startLocal q c i) := by
  unfold State.startLocal
  extract_lets
  split
  · exact h.setHob rfl
  · split
    · apply SameWindow.fault
      exact h.setHob rfl
    · exact SameWindow.logFaults (h.setHob (localPart_portion ..)) ..
theorem SameWindow.startBroadcast {q : Nat} {a s : State} (h : SameWindow q a s) (c i addr bits : Nat) :
    SameWindow q a (s.startBroadcast q c i addr bits) :=
  SameWindow.logFaults (h.setHob (localPart_portion ..)) ..
/-- A tap that may reserve its loop slot leaves the window and the hobs' portions alone. -/
theorem reserveTap_keeps_window (p : Prop) [Decidable p] (r : Range) (i w t tap : Nat) :
    (if p then r.reserveTap i w t tap else r).windowPart = r.windowPart ∧ (if p then r.reserveTap i w t tap else r).hobsOn = r.hobsOn := by
  have htap : (r.reserveTap i w t tap).windowPart = r.windowPart ∧ (r.reserveTap i w t tap).hobsOn = r.hobsOn := by
    unfold Range.reserveTap Range.setSlot
    split
    · split <;> exact ⟨rfl, rfl⟩
    · exact ⟨rfl, rfl⟩
  split
  · exact htap
  · exact ⟨rfl, rfl⟩
theorem SameWindow.reserveTaps {q : Nat} {a s : State} (h : SameWindow q a s) (c i : Nat) : SameWindow q a (s.reserveTaps q c i) := by
  unfold State.reserveTaps
  split
  · next iss _ =>
    extract_lets w r r1
    obtain ⟨hwin0, hon0⟩ := reserveTap_keeps_window (iss.has 5) r i w c 0
    obtain ⟨hwin1, hon1⟩ := reserveTap_keeps_window (iss.has 10) r1 i w c 1
    exact h.setRange (hwin1.trans hwin0) ((hon1.trans hon0).trans ·)
  · exact h
/-- The portions are taken and their taps reserve loop slots before the range notes that its hobs have theirs. -/
theorem startHobs_eq {q : Nat} {a s : State} (h : SameWindow q a s) (c : Nat) :
    ∃ t, SameWindow q a t ∧ s.startHobs q c = t.setRange q { t.range q with hobsOn := true } := by
  unfold State.startHobs
  extract_lets r bits addr s1 s2
  have h1 : SameWindow q a s1 := h.foldl fun t i ht => by
    split
    · split
      · exact (ht.logFaults ..).startLocal c i
      · exact ht.startLocal c i
    · split
      · exact ht.startBroadcast ..
      · exact ht.setHob rfl
  exact ⟨s2, h1.foldl fun t i ht => ht.reserveTaps c i, rfl⟩
theorem SameWindow.startHobs {q : Nat} {a s : State} (h : SameWindow q a s) (c : Nat) : SameWindow q a (s.startHobs q c) := by
  obtain ⟨t, ht, e⟩ := startHobs_eq h c
  rw [e]
  exact ht.setRange rfl fun _ => rfl
theorem startHobs_hobsOn {s : State} (h : s.canon = true) (q c : Nat) : ((s.startHobs q c).range q).hobsOn = true := by
  obtain ⟨t, ht, e⟩ := startHobs_eq (.refl q h) c
  rw [e, range_setRange ht.canon]

end Sys2Proof.Machine
end

section
/-! The command of LOCAL: when it acts, its three cases, and the hobs' entry into a window (R86, R142, R143). -/
namespace Sys2Proof.Machine

/-! ### A LOCAL that is due -/

theorem settle_of_pre_nil {s : State} {q : Nat} (h : (s.range q).pre = []) : s.settle q = s := by
  have hwin : s.doWindowEnd q = s := by rw [State.doWindowEnd, h]; rfl
  have hwait : s.doWaitEnd q = s := by rw [State.doWaitEnd, h]; rfl
  rw [State.settle, hwin, hwait]
/-- No cycle passes before a part of the bundle of the current cycle, whether or not the hobs have their portions yet. -/
theorem advance_of_todo {s : State} {q t k : Nat} (hstart : s.stk.started = true) (hhalt : (s.range q).halted = false) (hrun : (s.range q).phase = .run)
    (hcyc : (s.range q).cyc = t) (ht : t < s.seamCyc) (htodo : (s.range q).todo.contains k = true) : s.advance q t = some s := by
  have hpass : s.passTo q t = s := by rw [State.passTo, calm_of_todo htodo, hcyc, Nat.sub_self]; rfl
  simp [State.advance, hstart, hhalt, hrun, hcyc, ht, hpass]
theorem exec_localRun (q : Fin 4) (t : Nat) (s : State) : exec (.localRun q t) s = .next (s.windowCmd q t
    (fun s => ((s.settle q).range q).todo.contains 10 && qOp (slotQ ((s.settle q).range q).bits) == 7) fun s => (s.settle q).doLocal q) := rfl
theorem exec_localRun_due {q : Fin 4} {t : Nat} {s : State} (hadv : s.advance q t = some s) (hpre : (s.range q).pre = [])
    (htodo : (s.range q).todo.contains 10 = true) (hop : qOp (slotQ (s.range q).bits) = 7) : exec (.localRun q t) s = .next (s.doLocal q).done := by
  simp only [exec_localRun, State.windowCmd, hadv, settle_of_pre_nil hpre, htodo, hop, beq_self_eq_true, Bool.and_self, if_true]

/-! ### Its three cases -/

/-- The cycles that the LOCAL of the current bundle asks for. -/
def Range.localCount (r : Range) : Nat := r.qx * 128 + field (qImm (slotQ r.bits)) 9 7
/-- Every hob of range `q` stands at local position `p` with no frame. -/
def State.enterLocal (s : State) (q p : Nat) : State :=
  (List.range 8).foldl (fun s i => s.setHob (8 * q + i) { s.hob (8 * q + i) with lstack := [], lpc := p, lidle := false }) s
/-- The range with the window that a LOCAL of cycle `c` opens for `n` cycles. -/
def Range.openWindow (r : Range) (c n : Nat) : Range :=
  { r.tick 10 with qx := 0, win := some { start := c, count := n }, lastLocal := some (c + n - 1) }
/-- The state in which the window of the current bundle's LOCAL has opened and the hobs have yet to take their first local bundle. -/
def State.openLocal (s : State) (q : Nat) : State :=
  (s.setRange q ((s.range q).openWindow (s.range q).cyc (s.range q).localCount)).enterLocal q (field (qImm (slotQ (s.range q).bits)) 0 9)

theorem doLocal_busy {s : State} {q : Nat} (h : (s.range q).inWindow (s.range q).cyc = true) :
    s.doLocal q = ((s.setRange q ((s.range q).tick 10)).seqFault q 10 0x17 (s.range q).at0 (s.range q).cyc).goOn q 1 := by
  simp only [State.doLocal, h, if_true]
  rfl
theorem doLocal_zero {s : State} {q : Nat} (hs : s.canon = true) (h : (s.range q).inWindow (s.range q).cyc = false) (hn : (s.range q).localCount = 0) :
    s.doLocal q = (s.setRange q { (s.range q).tick 10 with qx := 0 }).goOn q 1 := by
  rw [Range.localCount] at hn
  simp only [State.doLocal, h, hn, Bool.false_eq_true, if_true, if_false, State.tickR, State.setQx, range_setRange hs, setRange_setRange hs]
theorem doLocal_opens {s : State} {q : Nat} (hs : s.canon = true) (h : (s.range q).inWindow (s.range q).cyc = false) (hn : (s.range q).localCount ≠ 0) :
    s.doLocal q = ((s.openLocal q).startHobs q (s.range q).cyc).goOn q 1 := by
  rw [Range.localCount] at hn
  simp only [State.doLocal, h, hn, Bool.false_eq_true, if_false, State.tickR, range_setRange hs, setRange_setRange hs]
  rfl

/-! ### The hobs enter the window -/

/-- Hobs of a range changed one by one: each is changed from what it was, and the others stay. -/
theorem hob_foldl_setHob {s : State} (hs : s.canon = true) (q : Nat) (f : Hob → Hob) {l : List Nat} (hl : l.Nodup) (i : Nat) :
    (l.foldl (fun s i => s.setHob (8 * q + i) (f (s.hob (8 * q + i)))) s).hob (8 * q + i)
      = if i ∈ l then f (s.hob (8 * q + i)) else s.hob (8 * q + i) := by
  induction l generalizing s with
  | nil => rfl
  | cons k l ih =>
    obtain ⟨hk, hl⟩ := List.nodup_cons.mp hl
    rw [List.foldl_cons, ih (canon_setHob hs _ _) hl]
    by_cases hik : i = k
    · subst hik
      simp [hk, hob_setHob hs]
    · have hne : 8 * q + i ≠ 8 * q + k := by omega
      simp [hik, hob_setHob_ne hs _ hne]
theorem hob_enterLocal {s : State} (hs : s.canon = true) (q p : Nat) {i : Nat} (hi : i < 8) :
    (s.enterLocal q p).hob (8 * q + i) = { s.hob (8 * q + i) with lstack := [], lpc := p, lidle := false } := by
  rw [State.enterLocal, hob_foldl_setHob hs q (fun x => { x with lstack := [], lpc := p, lidle := false }) List.nodup_range, if_pos (List.mem_range.mpr hi)]
@[simp] theorem range_enterLocal (s : State) (q p k : Nat) : (s.enterLocal q p).range k = s.range k := rfl
@[simp] theorem settled_enterLocal (s : State) (q p : Nat) : (s.enterLocal q p).settled = s.settled := rfl
theorem canon_enterLocal {s : State} (hs : s.canon = true) (q p : Nat) : (s.enterLocal q p).canon = true :=
  (keeps_foldl (keeps_refl s) fun t _ ht => keeps_setHob t _ _ ht).2 hs

theorem canon_openLocal {s : State} (hs : s.canon = true) (q : Nat) : (s.openLocal q).canon = true := canon_enterLocal (canon_setRange hs _ _) _ _
theorem settled_openLocal (s : State) (q : Nat) : (s.openLocal q).settled = s.settled := rfl
theorem range_openLocal {s : State} (hs : s.canon = true) (q : Nat) :
    (s.openLocal q).range q = (s.range q).openWindow (s.range q).cyc (s.range q).localCount := by
  rw [State.openLocal, range_enterLocal, range_setRange hs]
theorem localPart_openLocal {s : State} (hs : s.canon = true) (q : Nat) {i : Nat} (hi : i < 8) :
    ((s.openLocal q).hob (8 * q + i)).localPart = (field (qImm (slotQ (s.range q).bits)) 0 9, [], (s.hob (8 * q + i)).lc) := by
  rw [State.openLocal, hob_enterLocal (canon_setRange hs _ _) _ _ hi]
  rfl

/-! ### The obligation -/

/-- Settles O18: LOCAL acts in the cycle where the range stands (`exec_localRun_due`), in one of the three cases of `doLocal`; what follows the opening of a
window, the hobs' portions and the decision of the next bundle, leaves window and local positions as the opening made them (`SameWindow`). -/
theorem localOpens : Obligations.LocalOpens := by
  unfold Obligations.LocalOpens
  rintro q t s r n hset hcanon rfl hstart hhalt hrun hcyc ht hpre htodo hop rfl
  have hdue := exec_localRun_due (advance_of_todo hstart hhalt hrun hcyc ht htodo) hpre htodo hop
  have hdone {u v : State} (h : SameWindow q u v) (hu : u.settled = s.settled) : v.done = v := done_settled v (by rw [h.settled, hu, hset])
  subst hcyc
  refine ⟨fun hin => ?busy, fun hout hn => ?zero, fun hout hn => ?opens⟩
  case busy =>
    have hsame := ((SameWindow.refl q (canon_setRange hcanon q ((s.range q).tick 10))).seqFault 10 0x17 (s.range q).at0 (s.range q).cyc).goOn 1
    have hwin := hsame.window
    rw [range_setRange hcanon] at hwin
    obtain ⟨hw, hqx, -⟩ := windowPart_eq_iff.mp hwin
    refine ⟨by rw [hdue, doLocal_busy hin, hdone hsame rfl], hw, hqx, fun i _ => ?_⟩
    simp only [State.hob, goOn_hobs, seqFault_hobs, State.setRange_hobs]
  case zero =>
    have hsame := (SameWindow.refl q (canon_setRange hcanon q { (s.range q).tick 10 with qx := 0 })).goOn 1
    rw [hdue, doLocal_zero hcanon hout hn, hdone hsame rfl]
  case opens =>
    have hopen := canon_openLocal hcanon q
    have hstarted := (SameWindow.refl q hopen).startHobs (s.range q).cyc
    have hsame := hstarted.goOn 1
    have hwin := hsame.window
    rw [range_openLocal hcanon] at hwin
    obtain ⟨hw, hqx, hlast⟩ := windowPart_eq_iff.mp hwin
    refine ⟨((s.openLocal q).startHobs q (s.range q).cyc).goOn q 1, ?_, hw, hqx, hlast, ?_, fun i hi => ?_⟩
    · rw [hdue, doLocal_opens hcanon hout hn, hdone hsame (settled_openLocal s q)]
    · exact ((SameWindow.refl q hstarted.canon).goOn 1).on (startHobs_hobsOn hopen q _)
    · exact localPart_eq_iff.mp ((hsame.positions (8 * q + i)).trans (localPart_openLocal hcanon q hi))

end Sys2Proof.Machine
end

section
/-! Accesses to CSR space: the verdict on one line, and the record of a refusal (R489, R497, R510). -/
namespace Sys2Proof.Machine

/-! ### A write that its path may perform is performed -/

theorem mayWriteCsr_judged {s : State} {acc : CsrAccess} {a : Nat} (hp : acc.path ≠ .jtag) (h : s.mayWriteCsr acc a = true) :
    s.judgeAccess acc.tenant (a / 64 * 64) 1 true = 0 ∧ s.kindAt a = 3 ∧ a % 4 = 0 := by
  unfold State.mayWriteCsr at h
  split at h
  · contradiction
  · simpa only [Bool.and_eq_true, beq_iff_eq, and_assoc] using h
theorem csrAccess_judged {s : State} {acc : CsrAccess} {a : Nat} (hp : acc.path ≠ .jtag) (hjudge : s.judgeAccess acc.tenant (a / 64 * 64) 1 true = 0)
    (hkind : s.kindAt a = 3) (halign : a % 4 = 0) (f : State → State) : s.csrAccess acc a f = f s := by
  unfold State.csrAccess
  split
  · contradiction
  · split
    · exact if_pos ⟨hkind, halign⟩
    · contradiction
theorem csrAccess_of_mayWriteCsr {s : State} {acc : CsrAccess} {a : Nat} (h : s.mayWriteCsr acc a = true) (f : State → State) : s.csrAccess acc a f = f s := by
  by_cases hp : acc.path = .jtag
  · simp only [State.mayWriteCsr, hp] at h
    simp only [State.csrAccess, hp, h, if_true]
  · obtain ⟨hjudge, hkind, halign⟩ := mayWriteCsr_judged hp h
    exact csrAccess_judged hp hjudge hkind halign f

/-! ### What a refusal of a line says -/

theorem judgeAccess_csrWrite {s : State} {a : Nat} (h : s.kindAt a = 3) (t n : Nat) :
    s.judgeAccess t a n true = if inStoreWindow a = true then 0x22 else s.judgeCsr t a (64 * n) := by
  simp [State.judgeAccess, h]
theorem judgeCsr_address {s : State} {t a n : Nat} (h : s.judgeCsr t a n = 0x23) : ∃ w, w < n / 4 ∧ csrDecoded s (a + 4 * w) = false := by
  by_cases ht : t = 0
  · simpa [State.judgeCsr, ht] using h
  · simp [State.judgeCsr, ht] at h
/-- A write of one line that fails ADDRESS has a word that no span decodes. -/
theorem undecoded_of_judgeAccess {s : State} {t a : Nat} (hk : s.kindAt a = 3) (h : s.judgeAccess t a 1 true = 0x23) :
    ∃ w, w < 16 ∧ csrDecoded s (a + 4 * w) = false := by
  rw [judgeAccess_csrWrite hk] at h
  by_cases hwin : inStoreWindow a = true
  · simp [hwin] at h
  · exact judgeCsr_address ((if_neg hwin).symm.trans h)
theorem firstRefused_of_ne {s : State} {c : Nat} (h : c ≠ 0x23) (a : Nat) : s.firstRefused c a = a := if_neg h
/-- With ADDRESS the address recorded is the lowest of the words that no span decodes, where one of the access's words is such. -/
theorem firstRefused_address {s : State} {a n : Nat} (hn : n ≤ 128) (h : ∃ w, w < n ∧ csrDecoded s (a + 4 * w) = false) :
    ∃ i, i < n ∧ csrDecoded s (a + 4 * i) = false ∧ (∀ j, j < i → csrDecoded s (a + 4 * j) = true) ∧ s.firstRefused 0x23 a = a + 4 * i := by
  obtain ⟨w, hw, hun⟩ := h
  have hsome : ((List.range 128).find? fun i => !csrDecoded s (a + 4 * i)).isSome = true :=
    List.find?_isSome.mpr ⟨w, List.mem_range.mpr (by omega), by rw [hun]; rfl⟩
  obtain ⟨i, hfind⟩ := Option.isSome_iff_exists.mp hsome
  obtain ⟨hi, -, hmin⟩ := List.find?_range_eq_some.mp hfind
  have hbefore : ∀ j, j < i → csrDecoded s (a + 4 * j) = true := fun j hj => by simpa only [Bool.not_not] using hmin j hj
  have hle : i ≤ w := Nat.le_of_not_lt fun hlt => by simp [hbefore w hlt] at hun
  refine ⟨i, by omega, by simpa only [Bool.not_eq_true'] using hi, hbefore, ?_⟩
  simp only [State.firstRefused, if_true, List.find?_map, Function.comp_def, hfind, Option.map_some, Option.getD_some]

/-! ### The record of a refusal -/

theorem noteRefusal_csr {s : State} {c a : Nat} (hc : c = 0x07 ∨ c = 0x22 ∨ c = 0x23) (hk : s.kindAt a = 3) (chip t : Nat) (w : Bool) :
    s.noteRefusal c chip t a w = s.refuseCsr c chip t (s.firstRefused c a) w := if_pos ⟨hc, hk⟩
@[simp] theorem settled_refuseCsr (s : State) (c chip t a : Nat) (w : Bool) : (s.refuseCsr c chip t a w).settled = s.settled := rfl
/-- An access of a mover or of Fenxia that is refused is recorded, and its write is not performed. -/
theorem csrAccess_refused {s : State} {acc : CsrAccess} {a c : Nat} (hp : acc.path ≠ .jtag) (h : s.judgeAccess acc.tenant (a / 64 * 64) 1 true = c) (hc : c ≠ 0)
    (f : State → State) : s.csrAccess acc a f = s.noteRefusal c acc.chip acc.tenant (a / 64 * 64) true := by
  subst h
  unfold State.csrAccess
  split
  · contradiction
  · split
    · contradiction
    · rfl
theorem exec_csrWrite (acc : CsrAccess) (a : BitVec 40) (v : Word) (s : State) :
    exec (.csrWrite acc a v) s = (s.csrAccess acc a.toNat fun s => s.csrWrite a.toNat v 0).ends := rfl

/-- Settles O27: a refusal is one record (`noteRefusal_csr`) of the first word that `firstRefused` names, and the refused write leaves only that record. -/
theorem refusedAccess : Obligations.RefusedAccess := by
  unfold Obligations.RefusedAccess
  rintro acc a v s c x hset hpath rfl hkind hjudge hc
  have hc0 : c ≠ 0 := by omega
  refine ⟨fun hne => firstRefused_of_ne hne _, ?_, fun w => noteRefusal_csr hc hkind _ _ w, ?_⟩
  · rintro rfl
    exact firstRefused_address (by decide) (undecoded_of_judgeAccess hkind hjudge)
  · rw [exec_csrWrite, csrAccess_refused hpath hjudge hc0, noteRefusal_csr hc hkind]
    exact ends_settled _ (by simpa using hset)

end Sys2Proof.Machine
end

section
/-! The two interrupt registers: what a logged entry, a write-one-to-clear and a reset do to them (R17, R505). -/
namespace Sys2Proof.Machine

/-! ### A logged entry -/

theorem log_com (s : State) (code : Nat) (cls : EClass) (src : Src) (t : Option Nat) (args : List Nat) : (s.log code cls src t args).com =
    { s.com with
      intClass := s.com.intClass ||| BitVec.twoPow 32 cls.code, intSource := s.com.intSource ||| BitVec.twoPow 32 src.intBit,
      intFirst := if s.com.intClass = 0 then s.svc.head else s.com.intFirst } := by
  unfold State.log
  extract_lets
  split <;> rfl
theorem getLsbD_or_twoPow (x : Word) {i : Nat} (hi : i < 32) (n : Nat) : (x ||| BitVec.twoPow 32 n).getLsbD i = (x.getLsbD i || i == n) := by
  simp [hi, Bool.beq_eq_decide_eq]

/-! ### A clear -/

theorem getLsbD_w1c (old v same : Word) {i : Nat} (hi : i < 32) : (w1c old v same).getLsbD i = (same.getLsbD i || (old.getLsbD i && !v.getLsbD i)) := by
  simp [w1c, hi, Bool.or_comm]
theorem exec_intClassClear {acc : CsrAccess} {s : State} (hset : s.settled = true) (h : s.mayWriteCsr acc 0xF000002000 = true) (v same : Word) :
    exec (.intClassClear acc v same) s = .next (s.clearIntClass v same) := by
  change (s.csrAccess acc 0xF000002000 fun s => s.clearIntClass v same).ends = _
  rw [csrAccess_of_mayWriteCsr h]
  exact ends_settled _ hset
theorem exec_intSourceClear {acc : CsrAccess} {s : State} (hset : s.settled = true) (h : s.mayWriteCsr acc 0xF000002004 = true) (v same : Word) :
    exec (.intSourceClear acc v same) s = .next (s.clearIntSource v same) := by
  change (s.csrAccess acc 0xF000002004 fun s => s.clearIntSource v same).ends = _
  rw [csrAccess_of_mayWriteCsr h]
  exact ends_settled _ hset

end Sys2Proof.Machine
end

section
/-! A command frame of the mailbox that passes its checks, and ALERT_ACK (R467, R473). -/
namespace Sys2Proof.Machine

/-! ### The frame of a command -/

theorem crcUpBit_lt {w p c : Nat} (hp : p < 2 ^ w) : crcUpBit w p c < 2 ^ w := by
  have hshift : c <<< 1 % 2 ^ w < 2 ^ w := Nat.mod_lt _ (Nat.two_pow_pos w)
  unfold crcUpBit
  split
  · exact Nat.xor_lt_two_pow hshift hp
  · exact hshift
/-- The PEC of any bytes is a byte. -/
theorem crc8_lt (b : Bytes) : crc8 b < 256 := by
  have hbyte (c : Nat) (x : Byte) : crcUpByte 8 0x07 c x < 2 ^ 8 := crcUpBit_lt (by decide)
  rcases List.eq_nil_or_concat b with rfl | ⟨f, x, rfl⟩
  · decide
  · simpa [crc8] using hbyte _ x
theorem sbFrame_eq (c : Nat) (p : Bytes) : ∃ b : Byte, sbFrame c p = BitVec.ofNat 8 c :: BitVec.ofNat 8 p.length :: (p ++ [b]) ∧
    b.toNat = crc8 (BitVec.ofNat 8 c :: BitVec.ofNat 8 p.length :: p) :=
  ⟨BitVec.ofNat 8 (crc8 (BitVec.ofNat 8 c :: BitVec.ofNat 8 p.length :: p)), rfl, by simpa using crc8_lt _⟩
theorem cmdLen_bound {c n : Nat} (h : cmdLen c = some n) : c < 256 ∧ n ≤ 32 := by
  unfold cmdLen at h
  split at h <;> simp at h <;> omega
/-- A frame with its PEC and its command's length passes checks 1 to 3 of R467. -/
theorem frameCheck_sbFrame {c : Nat} {p : Bytes} (h : cmdLen c = some p.length) : frameCheck (sbFrame c p) = 0 := by
  obtain ⟨hc, hp⟩ := cmdLen_bound h
  obtain ⟨b, hframe, hpec⟩ := sbFrame_eq c p
  have hcmd : c % 256 = c := Nat.mod_eq_of_lt hc
  have hlen : p.length % 256 = p.length := Nat.mod_eq_of_lt (by omega)
  have hfull : ¬p.length + 1 + 1 + 1 < 3 := by omega
  rw [hframe]
  simp [frameCheck, le, ofBytes, List.dropLast_cons_of_ne_nil, hcmd, hlen, hpec, h, Nat.not_lt.mpr hp, hfull]
theorem hears_iff (s : State) (a : BitVec 7) : s.hears a = true ↔ s.settled = true ∧ s.addressed a = true ∧ s.svc.executing = false := by
  simp only [State.hears, Bool.and_eq_true, Bool.not_eq_true', and_assoc]
/-- A frame that passes its checks, at the part's address with no command executing, is performed and answered. -/
theorem mailbox_sbFrame {s : State} {a : BitVec 7} {c : Nat} {p : Bytes} (hs : s.hears a = true) (h : cmdLen c = some p.length) (same : BitVec 5) :
    s.mailbox a (sbFrame c p) false same = (s.sbPerform c p same).1.sbAnswer (s.sbPerform c p same).2.1 (s.sbPerform c p same).2.2 := by
  obtain ⟨-, haddr, -⟩ := (hears_iff s a).mp hs
  obtain ⟨b, hframe, -⟩ := sbFrame_eq c p
  have hcmd : le (sbFrame c p) 0 1 = c := by
    simp [hframe, le, ofBytes, Nat.mod_eq_of_lt (cmdLen_bound h).1]
  have hpay : ((sbFrame c p).drop 2).dropLast = p := by simp [hframe]
  simp [State.mailbox, haddr, frameCheck_sbFrame h, hcmd, hpay]

/-! ### ALERT_ACK -/

@[simp] theorem sbAnswer_com (s : State) (st : Nat) (p : Bytes) : (s.sbAnswer st p).com = s.com := rfl
@[simp] theorem settled_sbAnswer (s : State) (st : Nat) (p : Bytes) : (s.sbAnswer st p).settled = s.settled := rfl
@[simp] theorem sbAlertAck_com (s : State) (cl mk : Nat) (same : BitVec 5) : (s.sbAlertAck cl mk same).1.com = s.com := by
  unfold State.sbAlertAck; split <;> rfl
@[simp] theorem settled_sbAlertAck (s : State) (cl mk : Nat) (same : BitVec 5) : (s.sbAlertAck cl mk same).1.settled = s.settled := by
  unfold State.sbAlertAck; split <;> rfl
theorem exec_alertAck {s : State} {a : BitVec 7} (h : s.hears a = true) (cl mk : Byte) (same : BitVec 5) :
    exec (.alertAck a cl mk same false) s =
      .next ((s.sbAlertAck cl.toNat mk.toNat same).1.sbAnswer (s.sbAlertAck cl.toNat mk.toNat same).2.1 (s.sbAlertAck cl.toNat mk.toNat same).2.2) := by
  obtain ⟨hset, -, -⟩ := (hears_iff s a).mp h
  have hperform : s.sbPerform 8 [cl, mk] same = s.sbAlertAck cl.toNat mk.toNat same := rfl
  change (s.mailbox a (sbFrame 8 [cl, mk]) false same).ends = _
  rw [mailbox_sbFrame h rfl, hperform]
  exact ends_settled _ (by simpa using hset)

/-- Settles O26: an entry's two bits (`log_com`), the bits that a clear leaves (`getLsbD_w1c`), and the registers untouched by ALERT_ACK. -/
theorem interruptBits : Obligations.InterruptBits := by
  unfold Obligations.InterruptBits
  refine ⟨fun s code cls src t args i hi => ?logged, fun acc v same s hset => ⟨fun h => ?clearClass, fun h => ?clearSource, fun a cl mk l h => ?ack, fun k => ?reset⟩⟩
  case logged =>
    rw [log_com]
    exact ⟨getLsbD_or_twoPow _ hi _, getLsbD_or_twoPow _ hi _⟩
  case clearClass => exact ⟨_, exec_intClassClear hset h v same, fun i hi => getLsbD_w1c _ v same hi⟩
  case clearSource => exact ⟨_, exec_intSourceClear hset h v same, fun i hi => getLsbD_w1c _ v same hi⟩
  case ack => exact ⟨_, exec_alertAck h cl mk l, by simp⟩
  case reset => exact ⟨rfl, rfl, rfl⟩

end Sys2Proof.Machine
end

section
/-! Every step: each command answers a next state, and keeps the queue and the canonical form (R1, R8). -/
namespace Sys2Proof.Machine

@[simp] theorem step_cons (c : Instr) (rest : List Instr) (s : State) : step { s with pending := c :: rest } = exec c { s with pending := rest } := rfl
theorem step_of_nil {s : State} (h : s.pending = []) : step s = .next s := by simp only [step, h]
theorem step_of_cons {s : State} {c : Instr} {rest : List Instr} (h : s.pending = c :: rest) : step s = exec c { s with pending := rest } := by
  simp only [step, h]

/-- Every command answers a next state: most by the form of their meaning, the rest in each branch of it. -/
theorem exec_completes (c : Instr) (s : State) : ∃ t, exec c s = .next t := by
  cases c with
  | gapStart h t | loopSlotExpire h t l n | moverBufferAccess h t | moverSlotFill q t st | moverLoadArrival q t st l | hbmMoverAccess q p t ecc | refreshTick q p k =>
    simp only [exec, execGapStart, execLoopSlotExpire, execMoverBufferAccess, execMoverSlotFill, execMoverLoadArrival, execHbmMoverAccess, execRefreshTick]
    split <;> exact ⟨_, rfl⟩
  | arpRequest i f ok | neighbourSolicitation i f ok | echoRequest i f ok | pauseFrame i f ok | receivedFrame i f ok =>
    simp only [exec, execArpRequest, execNeighbourSolicitation, execEchoRequest, execPauseFrame, execReceivedFrame]
    split <;> exact ⟨_, rfl⟩
  | regionClosed i =>
    simp only [exec, execRegionClosed]
    split <;> exact ⟨_, rfl⟩
  | _ => exact ⟨_, rfl⟩

/-- Every command keeps the queue and the canonical form. -/
theorem keepsX_exec {z s : State} (c : Instr) (h0 : Keeps z s) : KeepsX z (exec c s) :=
  match c with
  | .csrWrite .. => keeps_execCsrWrite _ _ _ _ h0 | .intClassClear .. => keeps_execIntClassClear _ _ _ _ h0
  | .intSourceClear .. => keeps_execIntSourceClear _ _ _ _ h0 | .comTagWrite .. => keeps_execComTagWrite _ _ _ h0
  | .otpWrite _ _ v => keeps_execOtpWrite _ _ v _ h0 | .logCursorWrite .. => keeps_execLogCursorWrite _ _ _ h0 | .step .. => keeps_execStep _ _ _ h0
  | .swap .. => keeps_execSwap _ _ _ h0 | .aslv .. => keeps_execAslv _ _ _ h0 | .readout .. => keeps_execReadout _ _ _ h0
  | .zero .. => keeps_execZero _ _ _ h0 | .apset .. => keeps_execApset _ _ _ h0 | .planeLoad .. => keeps_execPlaneLoad _ _ _ h0
  | .asld .. => keeps_execAsld _ _ _ h0 | .slotLoad .. => keeps_execSlotLoad _ _ _ _ h0 | .slotPeek .. => keeps_execSlotPeek _ _ _ _ h0
  | .slotStore .. => keeps_execSlotStore _ _ _ h0 | .add .. => keeps_execAdd _ _ _ h0 | .mul .. => keeps_execMul _ _ _ h0
  | .fma .. => keeps_execFma _ _ _ h0 | .min .. => keeps_execMin _ _ _ h0 | .max .. => keeps_execMax _ _ _ h0 | .cmpEq .. => keeps_execCmpEq _ _ _ h0
  | .cmpNe .. => keeps_execCmpNe _ _ _ h0 | .cmpLt .. => keeps_execCmpLt _ _ _ h0 | .cmpLe .. => keeps_execCmpLe _ _ _ h0
  | .sel .. => keeps_execSel _ _ _ h0 | .exp2 .. => keeps_execExp2 _ _ _ h0 | .log2 .. => keeps_execLog2 _ _ _ h0
  | .rsqrt .. => keeps_execRsqrt _ _ _ h0 | .rcp .. => keeps_execRcp _ _ _ h0 | .rsum .. => keeps_execRsum _ _ _ h0
  | .rmax .. => keeps_execRmax _ _ _ h0 | .rmin .. => keeps_execRmin _ _ _ h0 | .cvtTo .. => keeps_execCvtTo _ _ _ h0
  | .cvtFrom .. => keeps_execCvtFrom _ _ _ h0 | .mov .. => keeps_execMov _ _ _ h0 | .inToSram .. => keeps_execInToSram _ _ _ _ h0
  | .inToPlane .. => keeps_execInToPlane _ _ _ _ h0 | .inToVreg .. => keeps_execInToVreg _ _ _ _ h0
  | .outFromSram .. => keeps_execOutFromSram _ _ _ _ h0 | .outFromVreg .. => keeps_execOutFromVreg _ _ _ _ h0 | .cxt .. => keeps_execCxt _ _ _ h0
  | .hrelSet .. => keeps_execHrelSet _ _ _ h0 | .gset .. => keeps_execGset _ _ _ h0 | .grst .. => keeps_execGrst _ _ _ h0
  | .gapStart .. => keeps_execGapStart _ _ _ h0 | .group .. => keeps_execGroup _ _ _ _ h0 | .lout .. => keeps_execLout _ _ _ h0
  | .win .. => keeps_execWin _ _ _ h0 | .send .. => keeps_execSend _ _ _ h0 | .move .. => keeps_execMove _ _ _ h0 | .qx .. => keeps_execQx _ _ _ h0
  | .cset .. => keeps_execCset _ _ _ h0 | .loop .. => keeps_execLoop _ _ _ h0 | .djnz .. => keeps_execDjnz _ _ _ h0
  | .jmp .. => keeps_execJmp _ _ _ h0 | .flag .. => keeps_execFlag _ _ _ h0 | .localRun .. => keeps_execLocal _ _ _ h0
  | .localWindowEnd .. => keeps_execLocalWindowEnd _ _ _ h0 | .bend .. => keeps_execBend _ _ _ h0 | .wait .. => keeps_execWait _ _ _ h0
  | .waitEnd .. => keeps_execWaitEnd _ _ _ h0 | .overrun .. => keeps_execOverrun _ _ _ h0 | .lcset .. => keeps_execLcset _ _ _ h0
  | .lloop .. => keeps_execLloop _ _ _ h0 | .ldjnz .. => keeps_execLdjnz _ _ _ h0 | .ljmp .. => keeps_execLjmp _ _ _ h0
  | .loopSlotExpire .. => keeps_execLoopSlotExpire _ _ _ _ _ h0 | .moverSlotFill .. => keeps_execMoverSlotFill _ _ _ _ h0
  | .moverLoadArrival .. => keeps_execMoverLoadArrival _ _ _ _ _ h0 | .moverBufferAccess .. => keeps_execMoverBufferAccess _ _ _ h0
  | .spineDelivery .. => keeps_execSpineDelivery _ _ _ h0 | .moverOpIssue .. => keeps_execMoverOpIssue _ _ _ _ h0
  | .descriptorComplete .. => keeps_execDescriptorComplete _ _ _ h0 | .chainFetchDone .. => keeps_execChainFetchDone _ _ _ h0
  | .moverTimeout .. => keeps_execMoverTimeout _ _ _ _ h0 | .seamStart .. => keeps_execSeamStart _ _ _ h0
  | .quarterResume .. => keeps_execQuarterResume _ _ _ _ h0 | .stkBeatTick => keeps_execStkBeatTick _ h0 | .admission => keeps_execAdmission _ h0
  | .entryResident .. => keeps_execEntryResident _ _ h0 | .entryRelease .. => keeps_execEntryRelease _ _ h0 | .epochOpen => keeps_execEpochOpen _ h0
  | .stall .. => keeps_execStall _ _ _ h0 | .poll .. => keeps_execPoll _ _ _ h0 | .answer .. => keeps_execAnswer _ _ _ h0
  | .deadlock .. => keeps_execDeadlock _ _ _ h0 | .flaginc .. => keeps_execFlaginc _ _ _ h0 | .msg .. => keeps_execMsg _ _ _ h0
  | .messagePlaced .. => keeps_execMessagePlaced _ _ h0 | .messageAbandon .. => keeps_execMessageAbandon _ _ _ h0
  | .contrib .. => keeps_execContrib _ _ _ h0 | .contributionWrite => keeps_execContributionWrite _ h0 | .roundSum .. => keeps_execRoundSum _ _ h0
  | .roundComplete .. => keeps_execRoundComplete _ _ h0 | .hbmMoverAccess .. => keeps_execHbmMoverAccess _ _ _ _ _ h0
  | .refreshTick .. => keeps_execRefreshTick _ _ _ _ h0 | .hbmTempRead .. => keeps_execHbmTempRead _ _ _ h0
  | .stagingConfirm => keeps_execStagingConfirm _ h0 | .stagingRelease => keeps_execStagingRelease _ h0
  | .trainStart .. => keeps_execTrainStart _ _ h0 | .trainComplete .. => keeps_execTrainComplete _ _ _ h0
  | .trainTimeout .. => keeps_execTrainTimeout _ _ h0 | .controlFlit .. => keeps_execControlFlit _ _ _ _ h0
  | .headerCrcFail .. => keeps_execHeaderCrcFail _ _ _ _ h0 | .packetTransmit .. => keeps_execPacketTransmit _ _ h0
  | .replayTimeout .. => keeps_execReplayTimeout _ _ h0 | .silence .. => keeps_execSilence _ _ h0
  | .creditTimeout .. => keeps_execCreditTimeout _ _ _ h0 | .brokenIdleEnd .. => keeps_execBrokenIdleEnd _ _ h0
  | .laneFailure .. => keeps_execLaneFailure _ _ _ h0 | .drainTimeout .. => keeps_execDrainTimeout _ _ h0 | .write .. => keeps_execWrite _ _ _ h0
  | .read .. => keeps_execRead _ _ _ h0 | .resp .. => keeps_execResp _ _ _ h0 | .dwrite .. => keeps_execDwrite _ _ _ h0
  | .dfetch .. => keeps_execDfetch _ _ _ h0 | .dmsg .. => keeps_execDmsg _ _ _ h0 | .transit .. => keeps_execTransit _ _ _ h0
  | .datagramTransitTimeout .. => keeps_execDatagramTransitTimeout _ _ h0 | .ping .. => keeps_execPing _ _ _ h0 | .pong .. => keeps_execPong _ _ _ h0
  | .mgmtLinkDisable .. => keeps_execMgmtLinkDisable _ _ _ h0 | .mgmtLinkEnable .. => keeps_execMgmtLinkEnable _ _ _ h0
  | .result .. => keeps_execResult _ _ _ h0 | .bfSend .. => keeps_execBfSend _ _ _ _ h0 | .bfPut .. => keeps_execBfPut _ _ _ _ h0
  | .bfGet .. => keeps_execBfGet _ _ _ _ h0 | .getrsp .. => keeps_execGetrsp _ _ _ _ h0 | .bfFlush .. => keeps_execBfFlush _ _ _ _ h0
  | .bfChpost .. => keeps_execBfChpost _ _ _ _ h0 | .ack .. => keeps_execAck _ _ _ _ h0 | .connect .. => keeps_execConnect _ _ _ _ h0
  | .accept .. => keeps_execAccept _ _ _ _ h0 | .postWorkRequest => keeps_execPostWorkRequest _ h0 | .postReceive => keeps_execPostReceive _ h0
  | .postTriggered => keeps_execPostTriggered _ h0 | .wrSend .. => keeps_execWrSend _ _ h0 | .wrPut .. => keeps_execWrPut _ _ h0
  | .wrGet .. => keeps_execWrGet _ _ h0 | .wrFlush .. => keeps_execWrFlush _ _ h0 | .wrChpost .. => keeps_execWrChpost _ _ h0
  | .prefetch .. => keeps_execPrefetch _ _ h0 | .revoke .. => keeps_execRevoke _ _ h0 | .wrArm .. => keeps_execWrArm _ _ h0
  | .cntAdd .. => keeps_execCntAdd _ _ h0 | .cntSet .. => keeps_execCntSet _ _ h0 | .flagAdd .. => keeps_execFlagAdd _ _ h0
  | .receiveComplete .. => keeps_execReceiveComplete _ _ h0 | .regionClosed .. => keeps_execRegionClosed _ _ h0 | .bfRto .. => keeps_execBfRto _ _ h0
  | .rnrDelay .. => keeps_execRnrDelay _ _ h0 | .arpRequest .. => keeps_execArpRequest _ _ _ _ h0
  | .neighbourSolicitation .. => keeps_execNeighbourSolicitation _ _ _ _ h0 | .echoRequest .. => keeps_execEchoRequest _ _ _ _ h0
  | .pauseFrame .. => keeps_execPauseFrame _ _ _ _ h0 | .ethLinkChange .. => keeps_execEthLinkChange _ _ _ h0
  | .witnessWindow .. => keeps_execWitnessWindow _ _ _ h0 | .changeover .. => keeps_execChangeover _ _ h0
  | .referenceLost .. => keeps_execReferenceLost _ _ h0 | .referencePresent .. => keeps_execReferencePresent _ _ h0
  | .avsAck .. => keeps_execAvsAck _ _ _ _ h0 | .avsAckTimeout => keeps_execAvsAckTimeout _ h0 | .irailRead .. => keeps_execIrailRead _ _ h0
  | .damperStep .. => keeps_execDamperStep _ _ h0 | .smbalert .. => keeps_execSmbalert _ _ _ _ _ h0
  | .smbalertRepeat .. => keeps_execSmbalertRepeat _ _ _ _ _ h0 | .thermtrip g _ => keeps_execThermtrip g _ _ h0
  | .simmerExit .. => keeps_execSimmerExit _ _ _ h0 | .wakeN .. => keeps_execWakeN _ _ h0
  | .sidebandAddressMatch => keeps_execSidebandAddressMatch _ h0 | .coldReset .. => keeps_execColdReset _ _ _ _ h0
  | .warmReset .. => keeps_execWarmReset _ _ h0 | .powerLoss => keeps_execPowerLoss _ h0 | .flashRetry .. => keeps_execFlashRetry _ _ h0
  | .ethWait => keeps_execEthWait _ h0 | .deploySessionRetry => keeps_execDeploySessionRetry _ h0
  | .deployMessage .. => keeps_execDeployMessage _ _ h0 | .load => keeps_execLoad _ h0 | .arm => keeps_execArm _ h0
  | .disable => keeps_execDisable _ h0 | .enable => keeps_execEnable _ h0 | .remove => keeps_execRemove _ h0
  | .areaCreate => keeps_execAreaCreate _ h0 | .areaRelease => keeps_execAreaRelease _ h0 | .data => keeps_execData _ h0
  | .dataExpect => keeps_execDataExpect _ h0 | .staging => keeps_execStaging _ h0 | .chOpen => keeps_execChOpen _ h0
  | .chClose => keeps_execChClose _ h0 | .chDisable => keeps_execChDisable _ h0 | .chEnable => keeps_execChEnable _ h0
  | .qpCreate => keeps_execQpCreate _ h0 | .qpReset => keeps_execQpReset _ h0 | .qpDestroy => keeps_execQpDestroy _ h0
  | .regCreate => keeps_execRegCreate _ h0 | .regRemove => keeps_execRegRemove _ h0 | .linkDisable => keeps_execLinkDisable _ h0
  | .linkEnable => keeps_execLinkEnable _ h0 | .mgmtRequest => keeps_execMgmtRequest _ h0 | .start => keeps_execStart _ h0
  | .restart => keeps_execRestart _ h0 | .restartReset .. => keeps_execRestartReset _ _ _ h0 | .flashWrite .. => keeps_execFlashWrite _ _ h0
  | .ledger .. => keeps_execLedger _ _ h0 | .watchdog => keeps_execWatchdog _ h0 | .mailboxRead .. => keeps_execMailboxRead _ _ _ h0
  | .getStatus .. => keeps_execGetStatus _ _ _ h0 | .getIdentity .. => keeps_execGetIdentity _ _ _ h0
  | .getTelemetry .. => keeps_execGetTelemetry _ _ _ h0 | .logRead .. => keeps_execLogRead _ _ _ _ _ h0
  | .csrRead .. => keeps_execCsrRead _ _ _ _ _ h0 | .ledgerRead .. => keeps_execLedgerRead _ _ _ _ _ h0 | .sleep .. => keeps_execSleep _ _ _ _ _ h0
  | .alertAck .. => keeps_execAlertAck _ _ _ _ _ _ h0 | .enec .. => keeps_execEnec _ _ _ h0 | .disec .. => keeps_execDisec _ _ _ h0
  | .rstdaa => keeps_execRstdaa _ h0 | .entdaa .. => keeps_execEntdaa _ _ h0 | .setdasa .. => keeps_execSetdasa _ _ _ h0
  | .setnewda .. => keeps_execSetnewda _ _ _ h0 | .getpid .. => keeps_execGetpid _ _ h0 | .getbcr .. => keeps_execGetbcr _ _ h0
  | .getdcr .. => keeps_execGetdcr _ _ h0 | .getmwl .. => keeps_execGetmwl _ _ h0 | .getmrl .. => keeps_execGetmrl _ _ h0
  | .getstatus .. => keeps_execGetstatus _ _ h0 | .extest .. => keeps_execExtest _ _ _ h0 | .idcode => keeps_execIdcode _ h0
  | .samplePreload .. => keeps_execSamplePreload _ _ _ h0 | .clamp => keeps_execClamp _ h0 | .highz => keeps_execHighz _ h0
  | .extestPulse .. => keeps_execExtestPulse _ _ _ h0 | .extestTrain .. => keeps_execExtestTrain _ _ _ h0 | .debug .. => keeps_execDebug _ _ h0
  | .bypass => keeps_execBypass _ h0 | .tapReset => keeps_execTapReset _ h0 | .linkPacketReceive .. => keeps_execLinkPacketReceive _ _ _ _ h0
  | .receivedFrame .. => keeps_execReceivedFrame _ _ _ _ h0 | .commandFrame .. => keeps_execCommandFrame _ _ _ _ h0
  | .coldResetNAssert .. => keeps_execColdResetNAssert _ _ h0 | .warmResetNAssert .. => keeps_execWarmResetNAssert _ _ h0
  | .serviceCoreError => keeps_execServiceCoreError _ h0 | .powerGoodTimeout => keeps_execPowerGoodTimeout _ h0
  | .powerGoodReport .. => keeps_execPowerGoodReport _ _ _ _ h0

/-- A step takes the front command off the queue, and keeps the rest of it and the canonical form. -/
theorem step_keeps {s t : State} (h : step s = .next t) : t.pending = s.pending.tail ∧ (s.canon = true → t.canon = true) := by
  cases hp : s.pending with
  | nil =>
    obtain rfl : s = t := Host.Outcome.next.inj ((step_of_nil hp).symm.trans h)
    exact ⟨hp, id⟩
  | cons c rest => exact keepsX_exec c (keeps_refl _) t ((step_of_cons hp).symm.trans h)

/-- Settles O1: both parts are the two equations of `step`. -/
theorem stepRunsFront : Obligations.StepRunsFront := by
  unfold Obligations.StepRunsFront
  exact ⟨step_cons, fun s h => step_of_nil h⟩

/-- Settles O2: the front command, if there is one, completes. -/
theorem stepNeverStops : Obligations.StepNeverStops := by
  unfold Obligations.StepNeverStops
  intro s
  cases hp : s.pending with
  | nil => exact ⟨s, step_of_nil hp⟩
  | cons c rest => rw [step_of_cons hp]; exact exec_completes c _

/-- Settles O3. -/
theorem queueOrder : Obligations.QueueOrder := by
  unfold Obligations.QueueOrder
  exact fun s t h => (step_keeps h).1

/-- Settles O4. -/
theorem canonKept : Obligations.CanonKept := by
  unfold Obligations.CanonKept
  exact fun s t hc h => (step_keeps h).2 hc

end Sys2Proof.Machine
end

section
/-! The commands of the hob's slots: an operation of a portion that is due is ticked off and issued, and nothing else happens (R111, Table 4.2). -/
namespace Sys2Proof.Machine

/-- What operation `k` of a portion makes of its hob in cycle `c`: the right-hand sides of `State.doHobOp`, but for the local field (7). -/
def Hob.issued (y : Hob) (iss : HIssue) (c k : Nat) : Hob :=
  match k with
  | 0 => y.issueArray iss c
  | 1 => y.issueV iss c
  | 2 => y.issueLoad iss 0 c
  | 3 => y.issueLoad iss 1 c
  | 4 => y.issueStore iss c
  | 5 => y.issueTap iss c 0
  | 6 => y.enq (c + 1) c 6 (.cop (slotC iss.bits))
  | 8 => y.issuePlane iss c
  | 9 => y.issueAsld iss c
  | _ => y.issueTap iss c 1
theorem doHobOp_issued {s : State} {h t k : Nat} {iss : HIssue} (hi : s.issues h t k iss) (hk : k ≠ 7) :
    s.doHobOp (h / 8) (h % 8) k = s.setHob h ((s.ticked h k iss).issued iss t k) := by
  obtain ⟨-, ⟨-, -, -, hcyc, -⟩, hcur, -⟩ := hi
  unfold State.doHobOp
  simp only [Nat.div_add_mod, hcur, hcyc, tick_of_cur hcur]
  unfold Hob.issued
  split <;> simp_all
/-- A command of a slot that is due issues its operation. -/
theorem hobCmd_issued {s : State} {h t k : Nat} {iss : HIssue} {ok : Nat → Bool} (hi : s.issues h t k iss) (hk : k ≠ 7) (hok : ok iss.bits = true) :
    s.hobCmd h t k ok = s.setHob h ((s.ticked h k iss).issued iss t k) := by
  rw [hobCmd_issues hi hok, doHobOp_issued hi hk, done_setHob hi.1]
/-- The outcome of such a command, its hob written out as `x`. -/
theorem next_hobCmd {s : State} {h t k : Nat} {iss : HIssue} {ok : Nat → Bool} {x : Hob} (hi : s.issues h t k iss) (hk : k ≠ 7) (hok : ok iss.bits = true)
    (hx : (s.ticked h k iss).issued iss t k = x) :
    (.next (s.hobCmd h t k ok) : Host.Outcome State Fault Refusal) = .next (s.setHob h x) := by
  rw [hobCmd_issued hi hk hok, hx]

/-! ### Slot V -/

theorem exec_vectorCmd {c : Instr} {h : Fin 32} {t code : Nat} (hc : vectorCmd c = some (h, t, code)) (s : State) :
    exec c s = .next (s.hobCmd h t 1 fun b => vOp (slotV b) == code) ∧ code ≠ 0 := by
  cases c with
  | add | mul | fma | min | max | cmpEq | cmpNe | cmpLt | cmpLe | sel | exp2 | log2 | rsqrt | rcp | rsum | rmax | rmin | cvtTo | cvtFrom | mov =>
    obtain ⟨rfl, rfl, rfl⟩ : _ ∧ _ ∧ _ := by simpa only [vectorCmd, Option.some.injEq, Prod.mk.injEq] using hc
    exact ⟨rfl, by decide⟩
  | _ => cases hc

/-- Settles O6: each of the twenty commands is one form of `hobCmd` (`exec_vectorCmd`). -/
theorem vectorIssue : Obligations.VectorIssue := by
  unfold Obligations.VectorIssue
  intro c h t code s iss hc hi hop
  obtain ⟨hexec, hcode⟩ := exec_vectorCmd hc s
  rw [hexec]
  refine next_hobCmd hi (by decide) (by simp [hop]) ?_
  simp only [Hob.issued, Hob.issueV, hop, if_neg hcode, Hob.enq]
  rfl

/-! ### Slot M -/

theorem issueStep_eq (x : Hob) (iss : HIssue) (t : Nat) : x.issueStep iss t =
    { x with
      pend := insertPend (if mAsrc (slotM iss.bits) then
          ⟨t + 2, t, 0, .vread (mAvreg (slotM iss.bits)) ((if mSfmt (slotM iss.bits) = 3 then 128 else 64) * mApos (slotM iss.bits))
            (if mSfmt (slotM iss.bits) = 3 then 128 else 64) (.act (mStepOp x (slotM iss.bits)))⟩
        else ⟨t + 3, t, 0, .sread (feedLines iss x 0 2 (slotL0 iss.bits)) (.act (mStepOp x (slotM iss.bits)))⟩) x.pend,
      aep := (x.entryOf (slotM iss.bits)).2, gap := .none,
      busyTo := some (if mSfmt (slotM iss.bits) = 3 then t + 3 else t), busyBf := mSfmt (slotM iss.bits) == 3 } := by
  unfold Hob.issueStep
  by_cases hsrc : mAsrc (slotM iss.bits) = true
  · simp only [hsrc, if_true, Hob.enq]
  · simp only [hsrc, Hob.enq]
    rfl

/-- Settles O9: each command of slot M issues the effect of its operation. -/
theorem arrayIssue : Obligations.ArrayIssue := by
  unfold Obligations.ArrayIssue
  refine fun h t s iss => ⟨fun hi => ⟨fun hop => ?step, fun hop => ?swap, fun hop => ?aslv, fun hop => ?readout, fun hop => ?zero, fun hop => ?apset⟩,
    fun hi hop => ?plane, fun hi hop => ?asld⟩
  case step =>
    refine next_hobCmd hi (by decide) (by simp [hop]) ?_
    simp only [Hob.issued, Hob.issueArray, hop]
    exact issueStep_eq _ iss t
  case swap => exact exec_swap_issues hi hop
  case plane | asld => exact next_hobCmd hi (by decide) hop rfl
  all_goals
    refine next_hobCmd hi (by decide) (by simp [hop]) ?_
    simp only [Hob.issued, Hob.issueArray, hop]
    rfl

/-! ### Slots L0, L1 and S, and the taps of slot T -/

theorem issued_load (y : Hob) (iss : HIssue) (t : Nat) (l : Fin 2) : y.issued iss t (2 + l.val) = y.issueLoad iss l.val t :=
  match l with
  | 0 => rfl
  | 1 => rfl
theorem issued_tap (y : Hob) (iss : HIssue) (t : Nat) (k : Fin 2) : y.issued iss t (if k.val = 0 then 5 else 10) = y.issueTap iss t k.val :=
  match k with
  | 0 => rfl
  | 1 => rfl
theorem tapOp_ne_seven (k : Fin 2) : (if k.val = 0 then 5 else 10) ≠ 7 := by
  split <;> decide

/-- Settles O12: the effect of a load or store slot, or of a tap, by its operation. -/
theorem slotIssue : Obligations.SlotIssue := by
  unfold Obligations.SlotIssue
  refine ⟨fun h t l s iss => ⟨fun hi => ⟨fun hop => ?load, fun hop => ?peek⟩, fun hi hop => ?store⟩, fun h t k s iss hi => ?taps⟩
  case load =>
    refine next_hobCmd hi (by omega) (beq_iff_eq.mpr hop) ?_
    simp only [issued_load, Hob.issueLoad, hop, if_true]
    rfl
  case peek =>
    refine next_hobCmd hi (by omega) (beq_iff_eq.mpr hop) ?_
    simp only [issued_load, Hob.issueLoad, hop]
    rfl
  case store =>
    refine next_hobCmd hi (by decide) (by simp [hop]) ?_
    simp only [Hob.issued, Hob.issueStore, hop, if_false]
    rfl
  case taps =>
    refine ⟨fun hop => ?_, fun hop => ?_, fun hop => ?_, fun hop => ?_, fun hop => ?_⟩ <;>
    · refine next_hobCmd hi (tapOp_ne_seven k) (by simp [hop]) ?_
      simp only [issued_tap, Hob.issueTap, hop]
      rfl

/-! ### Slot C -/

theorem writeFx_cop {s : State} {h c b : Nat} {e : HPend} (he : e.fx = .cop b) : writeFx s h c e = s.setHob h ((s.hob h).applyC (h % 8) b) := by
  simp only [writeFx, he]

/-- Settles O13: the issue is one form of `hobCmd`, and at offset 1 the operation acts on its hob (`writeFx_cop`). -/
theorem slotCOperations : Obligations.SlotC := by
  unfold Obligations.SlotC
  refine ⟨fun h t s iss c op hi hc hop => ?issue, fun s h c b e g he hg => ?acts⟩
  case issue =>
    simp only [List.mem_cons, Prod.mk.injEq, List.not_mem_nil, or_false] at hc
    rcases hc with ⟨rfl, rfl⟩ | ⟨rfl, rfl⟩ | ⟨rfl, rfl⟩ | ⟨rfl, rfl⟩ <;> exact next_hobCmd hi (by decide) (by simp [hop]) rfl
  case acts =>
    subst hg
    rw [writeFx_cop he]
    refine ⟨fun hop => ?_, fun hop => ?_, fun hop => ?_, fun hop => ?_⟩ <;> simp only [Hob.applyC, hop, gsetValue]

end Sys2Proof.Machine
end

section
/-! One decision of R136: what the end tests and a faulty operation leave of counters and frames (R135, R136, R144). -/
namespace Sys2Proof.Machine

@[simp] theorem ctlOn_ctr (ctr : SMap Nat) (stack : List Frame) (flt : Option Nat) (e : Nat) : (ctlOn ctr stack flt e).ctr = ctr := rfl
@[simp] theorem ctlOn_stack (ctr : SMap Nat) (stack : List Frame) (flt : Option Nat) (e : Nat) : (ctlOn ctr stack flt e).stack = (endTests e stack).2 := rfl
@[simp] theorem ctlOn_flt (ctr : SMap Nat) (stack : List Frame) (flt : Option Nat) (e : Nat) : (ctlOn ctr stack flt e).flt = flt := rfl
@[simp] theorem ctlOn_next (ctr : SMap Nat) (stack : List Frame) (flt : Option Nat) (e : Nat) : (ctlOn ctr stack flt e).next = (endTests e stack).1 := rfl

/-! ### A fault of the decision -/

/-- A decision that goes straight on from `a` with fault `f`, its counters and frames left to the end tests. -/
def CtlRes.goesOn (res : CtlRes) (a : Nat) (ctr : SMap Nat) (stack : List Frame) (f : Nat) : Prop :=
  res = ctlOn ctr stack (some f) a
/-- A jump faults only where its target leaves the extent, and then the counters are those before it. -/
theorem ctlJump_faulty {lo n a f : Nat} {old ctr : SMap Nat} {stack : List Frame} {off : Int} (h : (ctlJump lo n a old ctr stack off).flt = some f) :
    (ctlJump lo n a old ctr stack off).goesOn a old stack f ∧ f = 0x13 ∧ inExtent lo n (a + off) = false := by
  unfold ctlJump at h ⊢
  by_cases hin : inExtent lo n (a + off) = true
  · simp [hin] at h
  · simp only [hin] at h ⊢
    obtain rfl : 0x13 = f := Option.some.inj h
    exact ⟨rfl, rfl, trivial⟩
/-- A LOOP in its cases: its frames, its extent, the innermost frame, and its counter. -/
theorem ctlDecide_loop (lo n depth a c len : Nat) (ctr : SMap Nat) (stack : List Frame) : ctlDecide lo n depth a (.loop c len) ctr stack =
    if depth ≤ stack.length then ctlOn ctr stack (some 0x14) a
    else if inExtent lo n (a + len) = false then ctlOn ctr stack (some 0x13) a
    else if (stack.head?.any fun f => decide (f.fin < a + len)) = true then ctlOn ctr stack (some 0x15) a
    else if get 0 c ctr = 0 then ctlOn ctr stack none (a + len)
    else ctlOn ctr ({ start := a + 1, fin := a + len, ctr := c, left := get 0 c ctr } :: stack) none a := by
  cases stack <;> simp [ctlDecide]
/-- The fault of a LOOP says which of its cases it met. -/
theorem ctlDecide_loop_faulty {lo n depth a c len f : Nat} {ctr : SMap Nat} {stack : List Frame} (h : (ctlDecide lo n depth a (.loop c len) ctr stack).flt = some f) :
    (ctlDecide lo n depth a (.loop c len) ctr stack).goesOn a ctr stack f ∧
      (f = 0x14 ∧ depth ≤ stack.length ∨ f = 0x13 ∧ inExtent lo n (a + len) = false ∨ f = 0x15 ∧ ∃ x r, stack = x :: r ∧ x.fin < a + len) := by
  rw [ctlDecide_loop] at h ⊢
  split at h
  · obtain rfl : 0x14 = f := Option.some.inj h
    exact ⟨if_pos ‹_›, .inl ⟨rfl, ‹_›⟩⟩
  · rw [if_neg ‹_›]
    split at h
    · obtain rfl : 0x13 = f := Option.some.inj h
      exact ⟨if_pos ‹_›, .inr (.inl ⟨rfl, ‹_›⟩)⟩
    · rw [if_neg ‹_›]
      split at h
      · rename_i hhead
        obtain rfl : 0x15 = f := Option.some.inj h
        refine ⟨if_pos hhead, .inr (.inr ⟨rfl, ?_⟩)⟩
        cases stack with
        | nil => cases hhead
        | cons x r => exact ⟨x, r, rfl, of_decide_eq_true hhead⟩
      · split at h <;> cases h
theorem ctlDecide_djnz_faulty {lo n depth a c f : Nat} {off : Int} {ctr : SMap Nat} {stack : List Frame}
    (h : (ctlDecide lo n depth a (.djnz c off) ctr stack).flt = some f) :
    (ctlDecide lo n depth a (.djnz c off) ctr stack).goesOn a ctr stack f ∧ f = 0x13 ∧ inExtent lo n (a + off) = false := by
  unfold ctlDecide at h ⊢
  by_cases h0 : get 0 c ctr = 0
  · simp [h0] at h
  by_cases h1 : get 0 c ctr = 1
  · simp [h1] at h
  simp only [h0, h1, if_false] at h ⊢
  exact ctlJump_faulty h

/-! ### Frames -/

/-- The end tests keep the bound on the number of frames. -/
theorem length_endTests (e : Nat) (l : List Frame) : (endTests e l).2.length ≤ l.length := by
  induction l with
  | nil => exact Nat.le_refl _
  | cons f r ih =>
    unfold endTests
    split
    · split
      · exact Nat.le_refl _
      · exact Nat.le_succ_of_le ih
    · exact Nat.le_refl _
/-- A frame lies inside the extent of `n` bundles from `lo`. -/
def Frame.within (f : Frame) (lo n : Nat) : Prop := lo ≤ f.start ∧ f.fin < lo + n
/-- The frames that the end tests leave lie where the open ones did. -/
theorem endTests_within {lo n : Nat} (e : Nat) {l : List Frame} (h : ∀ f ∈ l, f.within lo n) : ∀ f ∈ (endTests e l).2, f.within lo n := by
  induction l with
  | nil => exact h
  | cons f r ih =>
    have hr : ∀ g ∈ r, g.within lo n := fun g hg => h g (List.mem_cons_of_mem _ hg)
    have hf : f.within lo n := h f List.mem_cons_self
    unfold endTests
    split
    · split
      · exact List.forall_mem_cons.mpr ⟨hf, hr⟩
      · exact ih hr
    · exact h
/-- Bounded frames inside the extent: what R135 asks of a stack. -/
def FramesIn (lo n depth : Nat) (l : List Frame) : Prop := l.length ≤ depth ∧ ∀ f ∈ l, f.within lo n
theorem FramesIn.endTests {lo n depth e : Nat} {l : List Frame} (h : FramesIn lo n depth l) : FramesIn lo n depth (endTests e l).2 :=
  ⟨Nat.le_trans (length_endTests e l) h.1, endTests_within e h.2⟩
theorem FramesIn.ctlJump {lo n depth a : Nat} {old ctr : SMap Nat} {l : List Frame} (h : FramesIn lo n depth l) (off : Int) :
    FramesIn lo n depth (ctlJump lo n a old ctr l off).stack := by
  unfold Machine.ctlJump
  by_cases hin : inExtent lo n (a + off) = true
  · simp only [hin, if_true]
    exact ⟨Nat.le_trans (List.length_filter_le _ _) h.1, fun f hf => h.2 f (List.mem_filter.mp hf).1⟩
  · simp only [hin]
    exact h.endTests
/-- A LOOP that opens its frame has one more frame, inside the extent. -/
theorem FramesIn.opened {lo n depth a c len v : Nat} {l : List Frame} (h : FramesIn lo n depth l) (ha : lo ≤ a) (hdepth : ¬depth ≤ l.length)
    (hin : inExtent lo n (a + len) = true) : FramesIn lo n depth ({ start := a + 1, fin := a + len, ctr := c, left := v } :: l) := by
  have hfin : a + len < lo + n := by
    simp only [inExtent, Bool.and_eq_true, decide_eq_true_eq] at hin
    omega
  exact ⟨by simp only [List.length_cons]; omega, List.forall_mem_cons.mpr ⟨⟨Nat.le_succ_of_le ha, hfin⟩, h.2⟩⟩
theorem FramesIn.ctlDecide {lo n depth a : Nat} {ctr : SMap Nat} {l : List Frame} (h : FramesIn lo n depth l) (ha : lo ≤ a) (op : CtlOp) :
    FramesIn lo n depth (ctlDecide lo n depth a op ctr l).stack := by
  cases op with
  | none => exact h.endTests
  | jmp off => exact h.ctlJump off
  | djnz c off =>
    simp only [Machine.ctlDecide]
    split
    · exact h.endTests
    · split
      · exact h.endTests
      · exact h.ctlJump off
  | loop c len =>
    rw [ctlDecide_loop]
    split
    · exact h.endTests
    · split
      · exact h.endTests
      · split
        · exact h.endTests
        · split
          · exact h.endTests
          · exact (h.opened ha ‹_› (by simpa using ‹¬inExtent lo n (a + len) = false›)).endTests

/-- Settles O16: a decision keeps `FramesIn`, by its operation. -/
theorem framesBounded : Obligations.FramesBounded := by
  unfold Obligations.FramesBounded
  intro lo n depth a ctr stack op hlen hin ha
  exact FramesIn.ctlDecide ⟨hlen, hin⟩ ha op

end Sys2Proof.Machine
end

section
/-! The operations of a range's bundle: faults of one log, the decision of the next bundle, and the commands of slots H, G and Q (R111, R129 to R153). -/
namespace Sys2Proof.Machine

/-! ### Setting what stands -/

/-- A key set to what it reads leaves the map as it is. -/
theorem put_get_self {α : Type} [DecidableEq α] {d : α} (k : Nat) {m : SMap α} (h : SMapWf d m = true) : put d k (get d k m) m = m := by
  induction m with
  | nil => simp [put, get]
  | cons e r ih =>
    obtain ⟨j, w⟩ := e
    by_cases hlt : k < j
    · simp [put, get, hlt, Nat.ne_of_lt hlt]
    · by_cases heq : k = j
      · subst heq
        simp [put, get, smapWf_head h]
      · simp [put, get, hlt, heq, ih (smapWf_tail h)]
theorem setRange_range {s : State} (h : s.canon = true) (q : Nat) : s.setRange q (s.range q) = s := by
  simp only [State.setRange, State.range, put_get_self q ((canon_iff s).mp h).2.2.1]
theorem setHob_hob {s : State} (h : s.canon = true) (i : Nat) : s.setHob i (s.hob i) = s := by
  simp only [State.setHob, State.hob, put_get_self i ((canon_iff s).mp h).2.1]
theorem setGate_gate {s : State} (h : s.canon = true) (l : Nat) : s.setGate l (s.gate l) = s := by
  simp only [State.setGate, State.gate, put_get_self l ((canon_iff s).mp h).2.2.2]

/-! ### Faults -/

/-- The range with one more entry in fault log `u` (0 to 7 for its hobs, 8 for the sequencer): what `State.fault` makes of it. -/
def Range.gainFault (r : Range) (q u slot reason addr cyc : Nat) (loc : Bool) : Range :=
  let e : FaultEntry :=
    { beat := r.beatNo, addr := addr, isLocal := loc, slot := slot, reason := reason, cyc := cyc,
      hob := if u = 8 then 0 else 8 * q + u, seq := u == 8, tenant := r.tenant, entry := r.entry }
  let now := put [] u (insertFault e (get [] u r.fltNow)) r.fltNow
  { r with flt := put {} u ((get {} u r.flt).add (get [] u r.fltNow) e) r.flt, fltGain := r.fltGain + 1, fltNow := now,
           fltFirst := if r.fltGain = (r.fltNow.map fun x => x.2.length).sum then firstReason now else r.fltFirst }
theorem fault_eq (s : State) (q u slot reason addr cyc : Nat) (loc : Bool) :
    s.fault q u slot reason addr cyc loc = s.setRange q ((s.range q).gainFault q u slot reason addr cyc loc) := rfl
theorem seqFault_eq (s : State) (q slot reason addr cyc : Nat) :
    s.seqFault q slot reason addr cyc = s.setRange q ((s.range q).gainFault q 8 slot reason addr cyc false) := rfl
@[simp] theorem settled_fault (s : State) (q u slot reason addr cyc : Nat) (loc : Bool) : (s.fault q u slot reason addr cyc loc).settled = s.settled := rfl
@[simp] theorem settled_seqFault (s : State) (q slot reason addr cyc : Nat) : (s.seqFault q slot reason addr cyc).settled = s.settled := rfl
@[simp] theorem settled_setRange (s : State) (q : Nat) (x : Range) : (s.setRange q x).settled = s.settled := rfl
@[simp] theorem settled_setHob (s : State) (h : Nat) (x : Hob) : (s.setHob h x).settled = s.settled := rfl
/-- A fault logged in a range that has just been set. -/
theorem seqFault_setRange {s : State} (hs : s.canon = true) (q slot reason addr cyc : Nat) (r : Range) :
    (s.setRange q r).seqFault q slot reason addr cyc = s.setRange q (r.gainFault q 8 slot reason addr cyc false) := by
  rw [seqFault_eq, range_setRange hs, setRange_setRange hs]

/-! ### The local sequencing field -/

/-- A legal local field decides the hob's next local bundle, and a fault of the decision is logged under slot 11. -/
theorem doLseq_issues {s : State} {h t : Nat} {iss : HIssue} (hi : s.issues h t 7 iss) (hlegal : lqLegal iss.lseq = true) {res : CtlRes}
    (hres : ctlDecide 0 (s.hob h).llen 4 iss.addr (lqCtl iss.lseq)
      (if lqOp iss.lseq = 1 then put 0 (lqCtr iss.lseq) (lqImm iss.lseq) (s.hob h).lc else (s.hob h).lc) (s.hob h).lstack = res) :
    s.doLseq (h / 8) (h % 8) = match res.flt with
      | none => s.setHob h { s.ticked h 7 iss with lc := res.ctr, lstack := res.stack, lpc := res.next.toNat }
      | some f => (s.setHob h { s.ticked h 7 iss with lc := res.ctr, lstack := res.stack, lpc := res.next.toNat }).fault (h / 8) (h % 8) 11 f iss.addr t true := by
  obtain ⟨-, ⟨-, -, -, hcyc, -⟩, hcur, -⟩ := hi
  simp only [State.doLseq, Nat.div_add_mod, hcur, hcyc, hlegal, true_and, if_true, tick_of_cur hcur, hres]
  cases res.flt <;> rfl
theorem exec_localField {h : Fin 32} {t : Nat} {s : State} {iss : HIssue} {op : Nat} (hi : s.issues h t 7 iss) (hl : iss.isLocal = true) (ho : lqOp iss.lseq = op)
    {x : State} (hx : s.doLseq (h / 8) (h % 8) = x) (hset : x.settled = true) :
    (.next (s.localCmd h t op) : Host.Outcome State Fault Refusal) = .next x := by
  have hop : s.doHobOp (h / 8) (h % 8) 7 = s.doLseq (h / 8) (h % 8) := by
    simp only [State.doHobOp, Nat.div_add_mod, hi.2.2.1]
  rw [localCmd_issues hi hl ho, hop, hx, done_settled _ hset]

/-- Settles O14: the four operations are one decision (`doLseq_issues`), with their own counters and their own control operation. -/
theorem localSequencing : Obligations.LocalSequencing := by
  unfold Obligations.LocalSequencing
  intro h t s iss hi hl hlegal c op lc res hc hres
  have hctl : lqCtl iss.lseq = op ∧ (if lqOp iss.lseq = 1 then put 0 (lqCtr iss.lseq) (lqImm iss.lseq) (s.hob h).lc else (s.hob h).lc) = lc := by
    rcases hc with ⟨-, hop, rfl, rfl⟩ | ⟨-, hop, rfl, rfl⟩ | ⟨-, hop, rfl, rfl⟩ | ⟨-, hop, rfl, rfl⟩ <;> simp [lqCtl, hop]
  have hdecide := doLseq_issues hi hlegal (res := res) (by rw [hctl.1, hctl.2, hres])
  have hexec {n : Nat} (ho : lqOp iss.lseq = n) := exec_localField hi hl ho hdecide (by cases res.flt <;> exact hi.1)
  rcases hc with ⟨rfl, hop, -⟩ | ⟨rfl, hop, -⟩ | ⟨rfl, hop, -⟩ | ⟨rfl, hop, -⟩ <;> exact hexec hop

/-! ### Slot Q -/

/-- The decision of a range that has just been set, from a bundle in cycle `t`: its next issue, and its faults. -/
theorem setNext_setRange {s : State} (hs : s.canon = true) (q t delay : Nat) {r : Range} (hcyc : r.cyc = t) (res : CtlRes) :
    (s.setRange q r).setNext q res delay = s.decided q t r res delay := by
  subst hcyc
  have hat : r.iss.getD 0 = r.at0 := rfl
  unfold State.setNext State.decided
  simp only [range_setRange hs, setRange_setRange hs, hat]
  cases hflt : res.flt <;> by_cases hin : inExtent r.base r.len res.next = true <;>
    simp only [hin, if_true, range_setRange hs, setRange_setRange hs, seqFault_setRange hs] <;> rfl
theorem settled_decided (s : State) (q t : Nat) (r : Range) (res : CtlRes) (delay : Nat) : (s.decided q t r res delay).settled = s.settled := by
  unfold State.decided
  cases res.flt <;> simp only <;> split <;> rfl
/-- A command of slot Q that is due and ends in a decision from the range `r`. -/
theorem next_rangeCmd {q : Fin 4} {t k : Nat} {s x : State} {ok : Nat → Bool} {f : State → State} (hi : s.issuesR q t k) (hk : ok (s.range q).bits = true)
    (hx : f s = x) (hset : x.settled = s.settled) : (.next (s.rangeCmd q t k ok f) : Host.Outcome State Fault Refusal) = .next x := by
  rw [rangeCmd_issues hi hk, hx, done_settled x (hset.trans hi.1)]
theorem range_cyc_of_issuesR {s : State} {q t k : Nat} (hi : s.issuesR q t k) : (s.range q).cyc = t := hi.2.2.1.2.2.2.1
theorem doCtl_eq {s : State} {q t k : Nat} (hi : s.issuesR q t k) (op : CtlOp) :
    s.doCtl q op = s.decided q t ((s.range q).tick 10) (ctlDecide (s.range q).base (s.range q).len 8 (s.range q).at0 op (s.range q).sc (s.range q).stack) 1 :=
  setNext_setRange hi.2.1 q t 1 (r := (s.range q).tick 10) (range_cyc_of_issuesR hi) _
/-- Going on from a range that has just been set. -/
theorem goOn_setRange {s : State} (hs : s.canon = true) (q t delay : Nat) {r : Range} (hcyc : r.cyc = t) :
    (s.setRange q r).goOn q delay = s.decided q t r (ctlDecide r.base r.len 8 r.at0 .none r.sc r.stack) delay := by
  unfold State.goOn
  rw [range_setRange hs]
  exact setNext_setRange hs q t delay hcyc _

/-- Settles O15: the commands of slot Q set the range and decide (`goOn_setRange`, `doCtl_eq`); a faulty decision is that of its operation. -/
theorem sequencing : Obligations.Sequencing := by
  unfold Obligations.Sequencing
  refine ⟨?commands, ?faults⟩
  case commands =>
    rintro q t s r w hi rfl rfl
    obtain ⟨-, hcanon, -, -⟩ := id hi
    have hcyc := range_cyc_of_issuesR hi
    have hgo (r : Range) (hr : r.cyc = t) (delay : Nat) := goOn_setRange hcanon q t delay hr
    refine ⟨fun hop => ?qx, fun hop => ?cset, fun hop => ?loop, fun hop => ?djnz, fun hop => ?jmp, fun hop => ?flag, fun hop => ?wait⟩
    case loop | djnz | jmp => exact next_rangeCmd hi (beq_iff_eq.mpr hop) (doCtl_eq hi _) (settled_decided ..)
    all_goals refine next_rangeCmd hi (beq_iff_eq.mpr hop) ?_ (settled_decided ..)
    case cset => refine hgo _ ?_ 1; exact hcyc
    case qx =>
      simp only [State.doQx, State.tickR, State.setQx, range_setRange hcanon, setRange_setRange hcanon]
      refine hgo _ ?_ 1; exact hcyc
    case flag =>
      simp only [State.doFlag, hcyc]
      refine hgo _ ?_ 1; exact hcyc
    case wait =>
      simp only [State.doWait, State.tickR, State.setQx, range_setRange hcanon, setRange_setRange hcanon]
      refine hgo _ ?_ _; exact hcyc
  case faults =>
    intro lo n depth a ctr stack op f h
    have hgoes {res : CtlRes} (hres : res.goesOn a ctr stack f) : res.ctr = ctr ∧ res.stack = (endTests a stack).2 ∧ res.next = (endTests a stack).1 := by
      rw [hres]; exact ⟨rfl, rfl, rfl⟩
    cases op with
    | none => cases h
    | jmp off =>
      obtain ⟨hres, rfl, hout⟩ := ctlJump_faulty h
      obtain ⟨h1, h2, h3⟩ := hgoes hres
      exact ⟨h1, h2, h3, .inl ⟨off, .inl rfl, rfl, hout⟩⟩
    | djnz c off =>
      obtain ⟨hres, rfl, hout⟩ := ctlDecide_djnz_faulty h
      obtain ⟨h1, h2, h3⟩ := hgoes hres
      exact ⟨h1, h2, h3, .inl ⟨off, .inr ⟨c, rfl⟩, rfl, hout⟩⟩
    | loop c len =>
      obtain ⟨hres, hwhy⟩ := ctlDecide_loop_faulty h
      obtain ⟨h1, h2, h3⟩ := hgoes hres
      exact ⟨h1, h2, h3, .inr ⟨c, len, rfl, hwhy⟩⟩

/-- Settles O17: BEND and the forced BEND set the range; only the latter logs. -/
theorem beatEnd : Obligations.BeatEnd := by
  unfold Obligations.BeatEnd
  rintro q t s r rfl
  refine ⟨fun hi hop => ?bend, fun hi => ?overrun⟩
  case bend =>
    refine next_rangeCmd hi (beq_iff_eq.mpr hop) ?_ (settled_setRange ..)
    simp only [State.doBend, range_cyc_of_issuesR hi]
  case overrun =>
    refine next_rangeCmd hi rfl ?_ (settled_seqFault ..)
    simp only [State.doOverrun, range_cyc_of_issuesR hi]

/-! ### Slots H and G -/

/-- Settles O19: the four commands put their effect on the range's list; a MOVE at its offset meets one of three cases. -/
theorem rangeTransfers : Obligations.RangeTransfers := by
  unfold Obligations.RangeTransfers
  refine ⟨?commands, ?move⟩
  case commands =>
    rintro q t s r rfl
    refine ⟨fun hi hop => ?_, fun hi hop => ?_, fun hi hop => ?_, fun hi hop => ?_⟩ <;>
    · refine next_rangeCmd hi (beq_iff_eq.mpr hop) ?_ (settled_setRange ..)
      simp only [State.doTap, State.doSend, State.doMove, range_cyc_of_issuesR hi, hop]
      rfl
  case move =>
    rintro s q c b e r w m he rfl rfl rfl
    simp only [State.rangeFx, he, State.moveAt, Bool.not_eq_true', ← Bool.not_eq_true, ite_not, Bool.and_eq_true, ← Nat.not_lt]

/-! ### Command groups -/

theorem rangeFx_group {s : State} {q c w : Nat} {ecc : List Nat} {e : RPend} (he : e.fx = .group w ecc) : s.rangeFx q c e = s.groupAt q e w ecc := by
  simp only [State.rangeFx, he]

/-- Settles O20: a group that is judged good commits whole; any other is one fault. -/
theorem groupCommits : Obligations.GroupCommits := by
  unfold Obligations.GroupCommits
  refine ⟨?issue, ?commit⟩
  case issue =>
    rintro q t ecc s r hi rfl hop
    refine next_rangeCmd hi (beq_iff_eq.mpr hop) ?_ (settled_setRange ..)
    simp only [State.doGroup, range_cyc_of_issuesR hi]
    rfl
  case commit =>
    rintro s q c w ecc e r o he rfl rfl
    rw [rangeFx_group he]
    refine ⟨fun hnone => ?_, fun cs hsome => ?_⟩
    · simp only [State.groupAt, State.group, hnone]
    · simp only [State.groupAt, State.group, hsome]
      by_cases hadv : hAdv w = true
      · simp only [hadv, if_true]
        cases s.areaUnits q (get ({} : AReg) (hAr w) (s.range q).stn.ar).area <;> rfl
      · simp only [hadv]
        rfl

end Sys2Proof.Machine
end

section
/-! Numbers as bytes, and the 64 lanes of a register as its 256 bytes (R3, R44). -/
namespace Sys2Proof

@[simp] theorem length_toBytes (k x : Nat) : (toBytes k x).length = k := by
  induction k generalizing x with
  | zero => rfl
  | succ k ih => simp [toBytes, ih]
/-- A number is read back from its bytes, as far as they hold it. -/
theorem ofBytes_toBytes (k x : Nat) : ofBytes (toBytes k x) = x % 256 ^ k := by
  induction k generalizing x with
  | zero => simp [toBytes, ofBytes, Nat.mod_one]
  | succ k ih => rw [Nat.pow_succ', Nat.mod_mul, toBytes, ofBytes, ih, BitVec.toNat_ofNat]
/-- Piece `i` of a string made of pieces of `n` bytes. -/
theorem take_drop_flatMap {α β : Type} {f : α → List β} {n : Nat} (hf : ∀ a, (f a).length = n) (r : List β) {l : List α} {i : Nat} (hi : i < l.length) :
    ((l.flatMap f ++ r).drop (n * i)).take n = f l[i] := by
  induction l generalizing i with
  | nil => simp at hi
  | cons a l ih =>
    cases i with
    | zero => simp [List.append_assoc, hf a]
    | succ i =>
      have hdrop : n * (i + 1) = (f a).length + n * i := by rw [hf a, Nat.mul_succ, Nat.add_comm]
      rw [List.flatMap_cons, List.append_assoc, hdrop, List.drop_length_add_append]
      exact ih (Nat.lt_of_succ_lt_succ hi)

end Sys2Proof

namespace Sys2Proof.Machine

/-- The lanes that begin a string of bytes. -/
theorem lanesOf_bytesOf_append (l : Lanes) (r : Bytes) : lanesOf (bytesOf l ++ r) = l := by
  apply Vector.ext
  intro i hi
  have hlen : i < l.toList.length := by simpa using hi
  have hpiece := take_drop_flatMap (f := fun w : Word => toBytes 4 w.toNat) (n := 4) (fun w => length_toBytes 4 _) r hlen
  have hle : le (bytesOf l ++ r) (4 * i) 4 = l[i].toNat := by
    rw [le, bytesOf, hpiece, ofBytes_toBytes, Vector.getElem_toList]
    exact Nat.mod_eq_of_lt l[i].isLt
  simp [lanesOf, hle]
@[simp] theorem fullWrite_reg (reg : Nat) (l : Lanes) (poi : BitVec 4) : (fullWrite reg l poi).reg = reg := rfl
/-- A write of a whole register leaves the lanes written. -/
theorem apply_fullWrite (v : VReg) (reg : Nat) (l : Lanes) (poi : BitVec 4) : (v.apply (fullWrite reg l poi)).d = l := by
  simp only [VReg.apply, fullWrite, List.take_zero, List.nil_append, lanesOf_bytesOf_append]

end Sys2Proof.Machine
end

section
/-! NaN results of FP32 arithmetic are the canonical NaN (R45). -/
namespace Sys2Proof.Machine

theorem enc32_fin_toNat (neg : Bool) (x : Int) : ∃ c, c ≤ 0x7F800000 ∧ (enc32 (.fin neg x)).toNat = c + if neg then 2 ^ 31 else 0 := by
  refine ⟨min (roundCode 24 149 x.natAbs) 0x7F800000, Nat.min_le_right .., ?_⟩
  have hc : min (roundCode 24 149 x.natAbs) 0x7F800000 ≤ 0x7F800000 := Nat.min_le_right ..
  rw [enc32, BitVec.toNat_ofNat]
  apply Nat.mod_eq_of_lt
  cases neg <;> simp only [if_true, Bool.false_eq_true, if_false] <;> omega
/-- A pattern is a NaN where its exponent field is all ones and its fraction is not zero. -/
theorem isNan32_iff (w : Word) : isNan32 w = true ↔ field w.toNat 23 8 = 255 ∧ field w.toNat 0 23 ≠ 0 := by
  by_cases he : field w.toNat 23 8 = 255
  · by_cases hm : field w.toNat 0 23 = 0 <;> simp [isNan32, dec32, he, hm]
  · by_cases h0 : field w.toNat 23 8 = 0 <;> simp [isNan32, dec32, he, h0, FVal.ofMag]
/-- The pattern is no NaN but the canonical one (R45). -/
def NanCanonical (w : Word) : Prop := isNan32 w = true → w = nan32
theorem nanCanonical_nan32 : NanCanonical nan32 := fun _ => rfl
theorem nanCanonical_zero : NanCanonical 0#32 := by unfold NanCanonical; decide
theorem NanCanonical.ite {p : Prop} [Decidable p] {a b : Word} (ha : NanCanonical a) (hb : NanCanonical b) : NanCanonical (if p then a else b) := by
  split
  · exact ha
  · exact hb
/-- One rounding yields a NaN only for a NaN, and then the canonical one. -/
theorem nanCanonical_enc32 (v : FVal) : NanCanonical (enc32 v) := by
  intro h
  cases v with
  | nan => rfl
  | inf neg => cases neg <;> revert h <;> decide
  | fin neg x =>
    obtain ⟨c, hc, hw⟩ := enc32_fin_toNat neg x
    obtain ⟨he, hm⟩ := (isNan32_iff _).mp h
    simp only [hw, field, Nat.shiftRight_eq_div_pow] at he hm
    cases neg <;> simp only [if_true, Bool.false_eq_true, if_false] at he hm <;> omega
/-- What `settle` answers is one rounding. -/
theorem nanCanonical_settle (f : Nat → Int × Int) (k P : Nat) : NanCanonical (settle f k P) := by
  induction k generalizing P with
  | zero => exact nanCanonical_enc32 _
  | succ k ih => exact (nanCanonical_enc32 _).ite (ih _)
/-- MIN and MAX answer the canonical NaN, or one of two operands that are no NaN. -/
theorem nanCanonical_choice {a b : Word} {p : Prop} [Decidable p] : NanCanonical (if (isNan32 a || isNan32 b) = true then nan32 else if p then b else a) := by
  by_cases hn : (isNan32 a || isNan32 b) = true
  · rw [if_pos hn]; exact nanCanonical_nan32
  · rw [if_neg hn]
    simp only [Bool.or_eq_true, not_or] at hn
    exact NanCanonical.ite (fun h => absurd h hn.2) (fun h => absurd h hn.1)
theorem nanCanonical_fpExp2 (a : Word) : NanCanonical (fpExp2 a) := by
  unfold fpExp2
  split
  · exact nanCanonical_nan32
  · exact nanCanonical_zero.ite (nanCanonical_enc32 _)
  · exact (nanCanonical_enc32 _).ite (nanCanonical_zero.ite ((nanCanonical_enc32 _).ite (nanCanonical_settle _ _ _)))
theorem nanCanonical_fpLog2 (a : Word) : NanCanonical (fpLog2 a) := by
  unfold fpLog2
  split
  · exact nanCanonical_nan32
  · exact nanCanonical_nan32.ite (nanCanonical_enc32 _)
  · exact (nanCanonical_enc32 _).ite (nanCanonical_nan32.ite ((nanCanonical_enc32 _).ite (nanCanonical_settle _ _ _)))
/-- SEL copies by bit 31 of its mask, the patterns as they are. -/
theorem fpSel_eq (m a b : Word) : fpSel m a b = if m.toNat / 2 ^ 31 = 1 then a else b := by
  have hbit : m.getLsbD 31 = decide (m.toNat / 2 ^ 31 = 1) := by
    have hm := m.isLt
    rw [← BitVec.testBit_toNat, Nat.testBit_eq_decide_div_mod_eq]
    congr 1
    simp only [eq_iff_iff]
    omega
  simp only [fpSel, hbit, decide_eq_true_eq]

end Sys2Proof.Machine
end

section
/-! What a V operation writes (Tables 2.4 and 4.9), the commit of a step (R51, R52), the reset state, and the expiry of a loop slot (R73). -/
namespace Sys2Proof.Machine

/-! ### The vector unit -/

theorem fpCmp_eq (rel : Int → Int → Bool) (onNan : Bool) (a b : Word) :
    fpCmp rel onNan a b = if isNan32 a || isNan32 b then (if onNan then 0xFFFFFFFF else 0) else if rel (cmpKey a) (cmpKey b) then 0xFFFFFFFF else 0 := by
  unfold fpCmp
  by_cases h : (isNan32 a || isNan32 b) = true <;> simp [h]
theorem getElem_mapLanes (f : Word → Word) (a : Lanes) (i : Fin 64) : (mapLanes f a)[i] = f a[i] := by simp [mapLanes]
theorem getElem_zipLanes (f : Word → Word → Word) (a b : Lanes) (i : Fin 64) : (zipLanes f a b)[i] = f a[i] b[i] := by simp [zipLanes]
theorem getElem_zip3Lanes (f : Word → Word → Word → Word) (x y z : Lanes) (i : Fin 64) : (zip3Lanes f x y z)[i] = f x[i] y[i] z[i] := by
  simp [zip3Lanes, Vector.get]
/-- Lane by lane, an operation of Table 2.4 but the reductions and conversions works on the lanes of its operands. -/
theorem getElem_vResult {b : Nat} (hop : 1 ≤ vOp b ∧ vOp b ≤ 14 ∨ vOp b = 20) (ra rb rc : Lanes) (i : Fin 64) :
    (vResult b ra rb rc)[i] = vLane b ra[i] rb[i] rc[i] := by
  have hcases : vOp b ∈ [1, 2, 3, 4, 5, 6, 7, 8, 9, 10, 11, 12, 13, 14, 20] := by
    simp only [List.mem_cons, List.not_mem_nil, or_false]; omega
  unfold vResult vLane
  simp only [List.mem_cons, List.not_mem_nil, or_false] at hcases
  rcases hcases with h | h | h | h | h | h | h | h | h | h | h | h | h | h | h <;>
    simp only [h, getElem_mapLanes, getElem_zipLanes, getElem_zip3Lanes, fpCmp_eq, fpSel, beq_iff_eq, bne_iff_ne, decide_eq_true_eq, if_true, ite_not, Bool.false_eq_true, if_false]
theorem readFx_vop {s : State} {h c : Nat} {e : HPend} {b : Nat} (he : e.fx = .vop b) (hop : vOp b ≠ 0x12) :
    readFx s h c e = [(e.issue + vOffset (vOp b), .vwrite (fullWrite (vD b)
      (vResult b ((s.hob h).vreg (vA b)).d ((s.hob h).vreg (vB b)).d ((s.hob h).vreg (vC b)).d) (allPoi ((vReads b).any fun r => ((s.hob h).vreg r).poi != 0))))] := by
  simp only [readFx, he, vWrites, if_neg hop, List.map_cons, List.map_nil]
theorem writeFx_vwrite {s : State} {h c : Nat} {e : HPend} {w : VWrite} (he : e.fx = .vwrite w) :
    writeFx s h c e = s.setHob h ((s.hob h).setVreg w.reg (((s.hob h).vreg w.reg).apply w)) := by
  simp only [writeFx, he]
theorem vreg_setVreg {x : Hob} (hx : SMapWf ({} : VReg) x.vregs = true) (v : Nat) (y : VReg) : (x.setVreg v y).vreg v = y := get_put_self _ _ _ _ hx

/-- Settles O7: the one write of the operation (`readFx_vop`), its lanes (`getElem_vResult`), and the NaN results of the arithmetic. -/
theorem vectorLanes : Obligations.VectorLanes := by
  unfold Obligations.VectorLanes
  refine ⟨?lanes, ?two, ?fma, ?one, fpSel_eq⟩
  case lanes =>
    intro s h c c' e b hcanon hvregs he hop
    refine ⟨_, readFx_vop he (by omega), fun i => ?_⟩
    have hreg := vreg_setVreg hvregs (vD b)
    rw [writeFx_vwrite rfl, hob_setHob hcanon, fullWrite_reg, hreg, apply_fullWrite]
    exact getElem_vResult hop _ _ _ i
  case two =>
    intro f a b hf h
    simp only [List.mem_cons, List.not_mem_nil, or_false] at hf
    rcases hf with rfl | rfl | rfl | rfl
    · exact nanCanonical_enc32 _ h
    · exact nanCanonical_enc32 _ h
    · exact nanCanonical_choice h
    · exact nanCanonical_choice h
  case fma => exact fun a b c => nanCanonical_enc32 _
  case one =>
    intro f a hf h
    simp only [List.mem_cons, List.not_mem_nil, or_false] at hf
    rcases hf with rfl | rfl | rfl | rfl
    · exact nanCanonical_fpExp2 a h
    · exact nanCanonical_fpLog2 a h
    · exact nanCanonical_enc32 _ h
    · exact nanCanonical_enc32 _ h

/-! ### The commit of a step -/

theorem FVal.add_nan (v : FVal) : v.add .nan = .nan := by cases v <;> rfl
theorem writeFx_commit {s : State} {h c : Nat} {e : HPend} {op : StepOp} {sums : List ColSum} {mark : Bool} (he : e.fx = .commit op sums mark) :
    ∃ m, writeFx s h c e = s.setHob h { s.hob h with
      acc := put zeroLanes op.entry (Vector.ofFn fun i => commitCol op.ovw (get zeroLanes op.entry (s.hob h).acc)[i] (sums.getD i.val {})) (s.hob h).acc,
      accPoi := m } := by
  simp only [writeFx, he]
  exact ⟨_, rfl⟩

/-- Settles O11: the entry after the commit is read back lane by lane, and a NaN operand makes either form of the commit the canonical NaN. -/
theorem stepCommit : Obligations.StepCommit := by
  unfold Obligations.StepCommit
  intro s h c e op data mark hcanon hacc he
  obtain ⟨m, hw⟩ := writeFx_commit (s := s) (h := h) (c := c) he
  have hsum (n : Fin 64) : ((List.range 64).map fun n => colSum (s.hob h).active op data (s.hob h).asl n).getD n.val {} = colSum (s.hob h).active op data (s.hob h).asl n := by
    simp [List.getD]
  have hcol (n : Fin 64) : (get zeroLanes op.entry ((writeFx s h c e).hob h).acc)[n] =
      commitCol op.ovw (get zeroLanes op.entry (s.hob h).acc)[n] (colSum (s.hob h).active op data (s.hob h).asl n) := by
    rw [hw, hob_setHob hcanon]
    simp only [get_put_self _ _ _ _ hacc, ← hsum n]
    simp
  refine ⟨fun n => ?column, fun k hk => ?others, fun n hnan => ?nan⟩
  case column => rw [hcol]; rfl
  case others =>
    rw [hw, hob_setHob hcanon]
    exact get_put_ne _ _ _ _ _ hacc hk
  case nan =>
    rw [hcol, commitCol, hnan, FVal.add_nan]
    cases op.ovw <;> rfl

/-! ### Reset -/

/-- Settles O5: each part is the value of one field of the reset state. -/
theorem resetState : Obligations.ResetState := by
  unfold Obligations.ResetState
  refine ⟨by decide, by decide, rfl, rfl, fun h => ⟨rfl, rfl, rfl⟩, fun q => ⟨rfl, rfl, rfl⟩, fun q m => rfl, fun l => ⟨rfl, rfl, rfl⟩, fun k => rfl, by decide⟩

/-! ### Loop slots -/

theorem slot_setSlot_self {r : Range} {loop : Nat} (h : SMapWf ({} : LoopSlot) (if loop = 0 then r.up else r.dn) = true) (n : Nat) (x : LoopSlot) :
    (r.setSlot loop n x).slot loop n = x := by
  unfold Range.setSlot Range.slot
  by_cases hl : loop = 0
  · simp only [hl, if_true] at h ⊢; exact get_put_self _ _ _ _ h
  · simp only [hl, if_false] at h ⊢; exact get_put_self _ _ _ _ h
theorem slot_setSlot_ne {r : Range} {loop : Nat} (h : SMapWf ({} : LoopSlot) (if loop = 0 then r.up else r.dn) = true) {n k : Nat} (hk : k ≠ n) (x : LoopSlot) :
    (r.setSlot loop n x).slot loop k = r.slot loop k := by
  unfold Range.setSlot Range.slot
  by_cases hl : loop = 0
  · simp only [hl, if_true] at h ⊢; exact get_put_ne _ _ _ _ _ h hk
  · simp only [hl, if_false] at h ⊢; exact get_put_ne _ _ _ _ _ h hk
theorem expire_due {x : LoopSlot} {w t : Nat} (hw : x.live = some w) (ht : w + 16 ≤ t) : x.expire t = { x with blk := {}, live := none } := by
  simp only [LoopSlot.expire, hw, if_pos ht]
theorem expire_before {x : LoopSlot} {w t : Nat} (hw : x.live = some w) (ht : t < w + 16) : x.expire t = x := by
  simp only [LoopSlot.expire, hw, if_neg (Nat.not_le.mpr ht)]
theorem exec_loopSlotExpire {q : Fin 4} {t : Nat} {s s1 : State} (h : s.advance q t = some s1) (hset : s1.settled = true) (loop : Fin 2) (n : Fin 16) :
    exec (.loopSlotExpire q t loop n) s = .next (s1.setRange q ((s1.range q).setSlot loop n (((s1.range q).slot loop n).expire t))) := by
  simp only [exec, execLoopSlotExpire, h, done_setRange hset]

/-- Settles O21: the slot named is expired in place. -/
theorem loopSlotExpires : Obligations.LoopSlotExpires := by
  unfold Obligations.LoopSlotExpires
  intro q t loop n s s1 hadv hset hcanon hslots
  refine ⟨_, exec_loopSlotExpire hadv hset loop n, ?_, fun w hw ht => ?_, fun w hw ht => ?_, fun k hk => ?_⟩
  all_goals rw [range_setRange hcanon]
  · rw [slot_setSlot_self hslots, expire_due hw ht]
    exact ⟨rfl, rfl⟩
  · rw [slot_setSlot_self hslots, expire_before hw ht]
  · rw [slot_setSlot_ne hslots hk]

end Sys2Proof.Machine
end

section
/-! The opening of a cycle that a window's end or a WAIT's end stands before: what the issue of the cycle leaves of it (R136, R146). -/
namespace Sys2Proof.Machine

/-- What the opening of a cycle fixes of a range: its window, what stands before the issue, and the bundle that issues. -/
def Range.turnPart (r : Range) : Option Window × List Nat × Option Nat × Nat × Nat × Bool := (r.win, r.pre, r.iss, r.issAt, r.pc, r.waiting)
/-- A hob's local frames, and whether its local program has run out. -/
def Hob.framesPart (x : Hob) : List Frame × Bool := (x.lstack, x.lidle)

/-- From `a` to `s` the opening of range `q`'s cycle stayed as it was, and outside a window the hobs' local frames with it; nothing but hobs and ranges changed. -/
structure SameTurn (q : Nat) (a s : State) : Prop where
  canon : s.canon = true
  rest : s = { a with hobs := s.hobs, ranges := s.ranges }
  turn : (s.range q).turnPart = (a.range q).turnPart
  frames : (a.range q).win = none → ∀ h, (s.hob h).framesPart = (a.hob h).framesPart

theorem SameTurn.refl (q : Nat) {a : State} (h : a.canon = true) : SameTurn q a a := ⟨h, rfl, rfl, fun _ _ => rfl⟩
theorem SameTurn.settled {q : Nat} {a s : State} (h : SameTurn q a s) : s.settled = a.settled := by
  rw [h.rest]
  rfl
theorem SameTurn.win {q : Nat} {a s : State} (h : SameTurn q a s) : (s.range q).win = (a.range q).win := congrArg Prod.fst h.turn
theorem SameTurn.setRange {q : Nat} {a s : State} {x : Range} (h : SameTurn q a s) (hx : x.turnPart = (s.range q).turnPart) : SameTurn q a (s.setRange q x) where
  canon := canon_setRange h.canon q x
  rest := by rw [h.rest]; rfl
  turn := by rw [range_setRange h.canon, hx, h.turn]
  frames := h.frames
theorem SameTurn.setHob {q : Nat} {a s : State} {x : Hob} {k : Nat} (h : SameTurn q a s) (hx : (a.range q).win = none → x.framesPart = (s.hob k).framesPart) :
    SameTurn q a (s.setHob k x) where
  canon := canon_setHob h.canon k x
  rest := by rw [h.rest]; rfl
  turn := h.turn
  frames hwin j := by
    by_cases hj : j = k
    · rw [hj, hob_setHob h.canon, hx hwin, h.frames hwin]
    · rw [hob_setHob_ne h.canon x hj, h.frames hwin]
theorem SameTurn.foldl {α : Type} {q : Nat} {a s : State} {f : State → α → State} {l : List α} (h : SameTurn q a s)
    (hf : ∀ t x, SameTurn q a t → SameTurn q a (f t x)) : SameTurn q a (l.foldl f s) := by
  induction l generalizing s with
  | nil => exact h
  | cons x l ih => exact ih (hf s x h)
theorem SameTurn.fault {q : Nat} {a s : State} (h : SameTurn q a s) (u slot reason addr cyc : Nat) (loc : Bool) :
    SameTurn q a (s.fault q u slot reason addr cyc loc) := h.setRange rfl
theorem SameTurn.seqFault {q : Nat} {a s : State} (h : SameTurn q a s) (slot reason addr cyc : Nat) : SameTurn q a (s.seqFault q slot reason addr cyc) :=
  h.fault 8 slot reason addr cyc false
theorem SameTurn.logFaults {q : Nat} {a s : State} (h : SameTurn q a s) (u addr cyc : Nat) (loc : Bool) (l : SMap Nat) :
    SameTurn q a (s.logFaults q u addr cyc loc l) := by
  induction l generalizing s with
  | nil => exact h
  | cons e l ih => exact ih (h.fault u e.1 e.2 addr cyc loc)
/-- A decision for the next cycle leaves the opening as it is: nothing waits before it or after it. -/
theorem SameTurn.goOn {q : Nat} {a s : State} (h : SameTurn q a s) (hwait : (a.range q).waiting = false) : SameTurn q a (s.goOn q 1) := by
  have hw {t : State} (ht : SameTurn q a t) : (t.range q).waiting = false := by
    simpa only [Range.turnPart, hwait] using congrArg (fun p => p.2.2.2.2.2) ht.turn
  unfold State.goOn State.setNext
  extract_lets r at0 r1 s1 s2 r2
  have h1 : SameTurn q a s1 := h.setRange rfl
  have h2 : SameTurn q a s2 := by
    unfold s2
    split
    · exact h1.seqFault ..
    · exact h1
  split
  · refine h2.setRange ?_
    simp only [Range.turnPart, r2, hw h2]
    rfl
  · apply SameTurn.seqFault
    exact h2.setRange rfl

/-! ### The hobs take their portions -/

theorem framesPart_portion (x : Hob) (b c : Nat) (flt : SMap Nat) (l : List Nat) (o : Option HIssue) :
    ({ ((x.noteBanks b c flt).enqAdv c l) with cur := o } : Hob).framesPart = x.framesPart := by
  unfold Hob.enqAdv
  split <;> rfl
theorem SameTurn.startLocal {q : Nat} {a s : State} (h : SameTurn q a s) (hwin : (a.range q).win ≠ none) (c i : Nat) : SameTurn q a (s.startLocal q c i) := by
  unfold State.startLocal
  extract_lets
  split
  · exact h.setHob fun hn => absurd hn hwin
  · split
    · apply SameTurn.fault
      exact h.setHob fun hn => absurd hn hwin
    · exact SameTurn.logFaults (h.setHob fun hn => absurd hn hwin) ..
theorem SameTurn.startBroadcast {q : Nat} {a s : State} (h : SameTurn q a s) (c i addr bits : Nat) : SameTurn q a (s.startBroadcast q c i addr bits) :=
  SameTurn.logFaults (h.setHob fun _ => framesPart_portion ..) ..
theorem turnPart_reserveTap (p : Prop) [Decidable p] (r : Range) (i w t tap : Nat) : (if p then r.reserveTap i w t tap else r).turnPart = r.turnPart := by
  unfold Range.reserveTap Range.setSlot
  split
  · split
    · split <;> rfl
    · rfl
  · rfl
theorem SameTurn.reserveTaps {q : Nat} {a s : State} (h : SameTurn q a s) (c i : Nat) : SameTurn q a (s.reserveTaps q c i) := by
  unfold State.reserveTaps
  split
  · exact h.setRange ((turnPart_reserveTap ..).trans (turnPart_reserveTap ..))
  · exact h
theorem SameTurn.startHobs {q : Nat} {a s : State} (h : SameTurn q a s) (c : Nat) : SameTurn q a (s.startHobs q c) := by
  unfold State.startHobs
  extract_lets r bits addr s1 s2
  have hin (hc : r.inWindow c = true) : (a.range q).win ≠ none := by
    rw [← h.win]
    intro hnone
    have : r.win = none := hnone
    simp [Range.inWindow, this] at hc
  have h1 : SameTurn q a s1 := h.foldl fun t i ht => by
    split
    · next hc =>
      split
      · exact (ht.logFaults ..).startLocal (hin hc) c i
      · exact ht.startLocal (hin hc) c i
    · split
      · exact ht.startBroadcast ..
      · exact ht.setHob fun _ => rfl
  have h2 : SameTurn q a s2 := h1.foldl fun t i ht => ht.reserveTaps c i
  clear_value s2
  exact h2.setRange rfl

/-! ### The issue of the cycle -/

/-- The range in whose current cycle the bundle at address `a` issues. -/
def Range.issuing (r : Range) (a : Nat) : Range := { r with iss := some a, issAt := r.cyc, pc := a, waiting := false }
theorem SameTurn.issueBundle {s : State} (hs : s.canon = true) (q a : Nat) : SameTurn q (s.setRange q ((s.range q).issuing a)) (s.issueBundle q a) := by
  have hwait : ((s.setRange q ((s.range q).issuing a)).range q).waiting = false := by rw [range_setRange hs]; rfl
  unfold State.issueBundle
  extract_lets r c b forced h g w hOk ht gf qOk swap todo r1 n slot r2 s1 s2 s3 s4 s5
  have hr2 : r2.turnPart = (r.issuing a).turnPart := by
    unfold r2
    split
    · unfold Range.setSlot
      split <;> rfl
    · rfl
  have h1 : SameTurn q (s.setRange q (r.issuing a)) s1 := by
    have : s1 = (s.setRange q (r.issuing a)).setRange q r2 := (setRange_setRange hs q _ _).symm
    rw [this]
    exact (SameTurn.refl q (canon_setRange hs q _)).setRange (by rw [hr2, range_setRange hs])
  clear_value ht gf
  have h2 : SameTurn q (s.setRange q (r.issuing a)) s2 := by
    unfold s2
    split
    · exact h1
    · exact h1.seqFault ..
  have h3 : SameTurn q (s.setRange q (r.issuing a)) s3 := by
    unfold s3
    split
    · exact h2.seqFault ..
    · exact h2
  have h4 : SameTurn q (s.setRange q (r.issuing a)) s4 := by
    unfold s4
    split
    · exact h3.seqFault ..
    · exact h3
  have h5 : SameTurn q (s.setRange q (r.issuing a)) s5 := by
    unfold s5
    split
    · exact h4
    · exact h4.seqFault ..
  clear_value s5
  split
  · exact h5
  · exact h5.goOn hwait
/-- The issue of a cycle: the opening is as it was, or that of the bundle that is due. -/
theorem issueNow_turn {s : State} (hs : s.canon = true) (q : Nat) : ∃ r', SameTurn q (s.setRange q r') (s.issueNow q) ∧ r'.win = (s.range q).win ∧
    r'.pre = (s.range q).pre ∧ ∀ a, (s.range q).nxt = some ((s.range q).cyc, a) → (s.range q).bendAt = none → r' = (s.range q).issuing a := by
  unfold State.issueNow
  extract_lets r c s1 r1 s2
  have hissued : ∃ r', SameTurn q (s.setRange q r') s1 ∧ r'.win = (s.range q).win ∧ r'.pre = (s.range q).pre ∧
      ∀ a, (s.range q).nxt = some ((s.range q).cyc, a) → (s.range q).bendAt = none → r' = (s.range q).issuing a := by
    have hstay : SameTurn q (s.setRange q r) s := by rw [setRange_range hs]; exact .refl q hs
    unfold s1
    split
    · next t a hnxt =>
      split
      · refine ⟨r.issuing a, .issueBundle hs q a, rfl, rfl, fun a' hnxt' _ => ?_⟩
        cases hnxt.symm.trans hnxt'
        rfl
      · next hdue =>
        refine ⟨r, hstay, rfl, rfl, fun a' hnxt' hbend => absurd ⟨?_, Option.isNone_iff_eq_none.mpr hbend⟩ hdue⟩
        cases hnxt.symm.trans hnxt'
        rfl
    · next hnone => exact ⟨r, hstay, rfl, rfl, fun a hnxt => absurd (hnone.symm.trans hnxt) nofun⟩
  obtain ⟨r', h1, hfacts⟩ := hissued
  refine ⟨r', ?_, hfacts⟩
  have h2 : SameTurn q (s.setRange q r') s2 := by
    unfold s2
    split
    · exact h1.setRange rfl
    · exact h1
  clear_value s2
  split
  · exact h2
  · exact h2.startHobs c

/-! ### The two commands -/

/-- A command that acts on what stands before the issue of the current cycle. -/
theorem windowCmd_pre {s : State} {q t : Nat} {ok : State → Bool} {f : State → State} (hstart : s.stk.started = true) (hhalt : (s.range q).halted = false)
    (hrun : (s.range q).phase = .run) (hcyc : (s.range q).cyc = t) (ht : t < s.seamCyc) (hpre : (s.range q).pre ≠ []) (hok : ok s = true) :
    s.windowCmd q t ok f = (f s).done := by
  have hcalm : s.calm q = false := by simp [State.calm, List.isEmpty_eq_false_iff.mpr hpre]
  have hpass : s.passTo q t = s := by rw [State.passTo, hcalm, hcyc, Nat.sub_self]; rfl
  have hadv : s.advance q t = some s := by simp [State.advance, hstart, hhalt, hrun, hcyc, ht, hpass]
  simp only [State.windowCmd, hadv, hok, if_true]
/-- The hobs of range `q` with no local frame. -/
def State.dropFrames (s : State) (q : Nat) : State :=
  (List.range 8).foldl (fun s i => s.setHob (8 * q + i) { s.hob (8 * q + i) with lstack := [], lidle := false }) s
@[simp] theorem range_dropFrames (s : State) (q k : Nat) : (s.dropFrames q).range k = s.range k := rfl
theorem canon_dropFrames {s : State} (hs : s.canon = true) (q : Nat) : (s.dropFrames q).canon = true :=
  (keeps_foldl (keeps_refl s) fun t _ ht => keeps_setHob t _ _ ht).2 hs
theorem framesPart_dropFrames {s : State} (hs : s.canon = true) (q : Nat) {i : Nat} (hi : i < 8) : ((s.dropFrames q).hob (8 * q + i)).framesPart = ([], false) := by
  rw [State.dropFrames, hob_foldl_setHob hs q (fun x => { x with lstack := [], lidle := false }) List.nodup_range, if_pos (List.mem_range.mpr hi)]
  rfl
theorem windowEnd_eq (s : State) (q : Nat) : s.windowEnd q = (s.setRange q { (s.range q).tick 12 with win := none }).dropFrames q := rfl

/-- Settles O22: the window's end or the WAIT's end leaves nothing before the issue, and the issue leaves the opening as `issueNow_turn` says. -/
theorem windowAndWaitEnd : Obligations.WindowAndWaitEnd := by
  unfold Obligations.WindowAndWaitEnd
  rintro q t s r hset hcanon rfl hstart hhalt hrun hcyc ht
  refine ⟨fun hpre => ?window, fun a hpre hnxt hbend => ?wait⟩
  case window =>
    have hend : s.doWindowEnd q = ((s.setRange q { (s.range q).tick 12 with win := none }).dropFrames q).issueNow q := by
      simp [State.doWindowEnd, State.afterPre, windowEnd_eq, hpre, range_setRange hcanon, Range.tick]
    have hc : ((s.setRange q { (s.range q).tick 12 with win := none }).dropFrames q).canon = true := canon_dropFrames (canon_setRange hcanon _ _) _
    obtain ⟨r', hsame, hwin, hprer, -⟩ := issueNow_turn hc q
    rw [range_dropFrames, range_setRange hcanon] at hwin hprer
    have hturn := hsame.turn
    have hframes := hsame.frames (by rw [range_setRange hc, hwin])
    rw [range_setRange hc] at hturn
    obtain ⟨hwin', hpre', -⟩ : _ ∧ _ ∧ _ := by simpa only [Range.turnPart, Prod.mk.injEq] using hturn
    refine ⟨_, ?_, hwin'.trans hwin, hpre'.trans (hprer.trans ?_), fun i hi => ?_⟩
    · change Host.Outcome.next (s.windowCmd q t _ fun s => s.doWindowEnd q) = _
      rw [windowCmd_pre hstart hhalt hrun hcyc ht (by simp [hpre]) (by simp [hpre]), hend, done_settled _ (by rw [hsame.settled]; exact hset)]
    · simp [Range.tick, hpre]
    · have := (hframes (8 * q + i)).trans (framesPart_dropFrames (canon_setRange hcanon _ _) q hi)
      simpa only [Hob.framesPart, Prod.mk.injEq] using this
  case wait =>
    have hend : s.doWaitEnd q = (s.setRange q ((s.range q).tick 13)).issueNow q := by
      simp [State.doWaitEnd, State.tickR, State.afterPre, hpre, range_setRange hcanon, Range.tick]
    have hc : (s.setRange q ((s.range q).tick 13)).canon = true := canon_setRange hcanon _ _
    obtain ⟨r', hsame, -, hprer, hissue⟩ := issueNow_turn hc q
    rw [range_setRange hcanon] at hprer hissue
    obtain rfl := hissue a (by rw [← hcyc] at hnxt; exact hnxt) hbend
    have hturn := hsame.turn
    rw [range_setRange hc] at hturn
    obtain ⟨-, hpre', hiss, hat, hpc, hw⟩ : _ ∧ _ ∧ _ ∧ _ ∧ _ ∧ _ := by simpa only [Range.turnPart, Prod.mk.injEq] using hturn
    refine ⟨_, ?_, hiss, hat.trans hcyc, hpc, hw, hpre'.trans (hprer.trans ?_)⟩
    · change Host.Outcome.next (s.windowCmd q t _ fun s => s.doWaitEnd q) = _
      rw [windowCmd_pre hstart hhalt hrun hcyc ht (by simp [hpre]) (by simp [hpre]), hend, done_settled _ (by rw [hsame.settled]; exact hset)]
    · simp [Range.tick, hpre]

end Sys2Proof.Machine
end

section
/-! A logged event: what it changes, and all that it leaves (R475 to R480). -/
namespace Sys2Proof.Machine

/-- A logged event changes the service core's log, the interrupt registers and the outputs, and nothing else. -/
theorem log_rest (s : State) (code : Nat) (cls : EClass) (src : Src) (t : Option Nat) (args : List Nat) : s.log code cls src t args =
    { s with svc := (s.log code cls src t args).svc, com := (s.log code cls src t args).com, out := (s.log code cls src t args).out } := by
  unfold State.log
  extract_lets
  split <;> rfl
theorem log_svc (s : State) (code : Nat) (cls : EClass) (src : Src) (t : Option Nat) (args : List Nat) : (s.log code cls src t args).svc =
    { s.svc with
      log := put (Vector.replicate 8 0) (s.svc.head.toNat % 4096) (s.logWords code cls src t args) s.svc.log, head := s.svc.head + 1, count := s.svc.count + 1,
      latch := s.svc.latch ||| BitVec.twoPow 5 cls.latch, classCnt := upd 0 cls.code (· + 1) s.svc.classCnt,
      toMirror := if s.svc.mirrorEn then s.svc.toMirror ++ [s.logWords code cls src t args] else s.svc.toMirror } := by
  unfold State.log
  extract_lets
  split <;> rfl
/-- A part of the state that an event does not touch. -/
theorem log_keeps {α : Type} (f : State → α) (hf : ∀ (s : State) v c o, f { s with svc := v, com := c, out := o } = f s)
    (s : State) (code : Nat) (cls : EClass) (src : Src) (t : Option Nat) (args : List Nat) : f (s.log code cls src t args) = f s := by
  rw [log_rest, hf]

section
variable (s : State) (code : Nat) (cls : EClass) (src : Src) (t : Option Nat) (args : List Nat)
@[simp] theorem log_hobs : (s.log code cls src t args).hobs = s.hobs := log_keeps (·.hobs) (fun _ _ _ _ => rfl) ..
@[simp] theorem log_ranges : (s.log code cls src t args).ranges = s.ranges := log_keeps (·.ranges) (fun _ _ _ _ => rfl) ..
@[simp] theorem log_gates : (s.log code cls src t args).gates = s.gates := log_keeps (·.gates) (fun _ _ _ _ => rfl) ..
@[simp] theorem log_mem : (s.log code cls src t args).mem = s.mem := log_keeps (·.mem) (fun _ _ _ _ => rfl) ..
@[simp] theorem log_stk : (s.log code cls src t args).stk = s.stk := log_keeps (·.stk) (fun _ _ _ _ => rfl) ..
@[simp] theorem log_flg : (s.log code cls src t args).flg = s.flg := log_keeps (·.flg) (fun _ _ _ _ => rfl) ..
@[simp] theorem log_clk : (s.log code cls src t args).clk = s.clk := log_keeps (·.clk) (fun _ _ _ _ => rfl) ..
@[simp] theorem log_pwr : (s.log code cls src t args).pwr = s.pwr := log_keeps (·.pwr) (fun _ _ _ _ => rfl) ..
@[simp] theorem log_boot : (s.log code cls src t args).boot = s.boot := log_keeps (·.boot) (fun _ _ _ _ => rfl) ..
@[simp] theorem log_trn : (s.log code cls src t args).trn = s.trn := log_keeps (·.trn) (fun _ _ _ _ => rfl) ..
@[simp] theorem log_rt : (s.log code cls src t args).rt = s.rt := log_keeps (·.rt) (fun _ _ _ _ => rfl) ..
@[simp] theorem log_tap : (s.log code cls src t args).tap = s.tap := log_keeps (·.tap) (fun _ _ _ _ => rfl) ..
@[simp] theorem log_loopback : (s.log code cls src t args).loopback = s.loopback := log_keeps (·.loopback) (fun _ _ _ _ => rfl) ..
@[simp] theorem log_head : (s.log code cls src t args).svc.head = s.svc.head + 1 := by rw [log_svc]
@[simp] theorem log_mirrorEn : (s.log code cls src t args).svc.mirrorEn = s.svc.mirrorEn := by rw [log_svc]
@[simp] theorem log_svcMode : (s.log code cls src t args).svc.mode = s.svc.mode := by rw [log_svc]
@[simp] theorem log_hob (h : Nat) : (s.log code cls src t args).hob h = s.hob h := log_keeps (fun s => s.hob h) (fun _ _ _ _ => rfl) ..
@[simp] theorem log_range (q : Nat) : (s.log code cls src t args).range q = s.range q := log_keeps (fun s => s.range q) (fun _ _ _ _ => rfl) ..
@[simp] theorem log_gate (l : Nat) : (s.log code cls src t args).gate l = s.gate l := log_keeps (fun s => s.gate l) (fun _ _ _ _ => rfl) ..
@[simp] theorem log_canon : (s.log code cls src t args).canon = s.canon := log_keeps State.canon (fun _ _ _ _ => rfl) ..
end
/-- Where no mirror channel takes it, an event leaves nothing to settle. -/
theorem settled_log {s : State} (hm : s.svc.mirrorEn = false) (code : Nat) (cls : EClass) (src : Src) (t : Option Nat) (args : List Nat) :
    (s.log code cls src t args).settled = s.settled := by
  have hmirror : (s.log code cls src t args).svc.toMirror = s.svc.toMirror := by simp [log_svc, hm]
  simp [State.settled, State.goingDown, hmirror]

end Sys2Proof.Machine
end

section
/-! Lines written into HBM without a mark: the bytes stand, no other byte changes, and of the stations only a poison table (R249, R263, R264). -/
namespace Sys2Proof.Machine

theorem writeBytes_append (m : List Host.Cell) (a : Nat) (b d : Bytes) : writeBytes m a (b ++ d) = writeBytes (writeBytes m a b) (a + b.length) d := by
  induction b generalizing m a with
  | nil => rfl
  | cons x r ih => simp only [List.cons_append, writeBytes, ih, List.length_cons, Nat.add_assoc, Nat.add_comm 1]
theorem fit_eq_self {n : Nat} {b : Bytes} (h : b.length = n) : fit n b = b := by simp [fit, ← h]
theorem length_fit (n : Nat) (b : Bytes) : (fit n b).length = n := by simp [fit]; omega
theorem isHbm_iff (a : Nat) : isHbm a = true ↔ a < 4 * hbmQuarter := by simp [isHbm]

/-- From `a` to `s` only memory and the poison tables of stations changed: all that a clean write does. -/
structure SamePlaces (a s : State) : Prop where
  canon : a.canon = true → s.canon = true
  rest : s = { a with ranges := s.ranges, mem := s.mem }
  ranges : a.canon = true → ∀ q, ∃ t, s.range q = { a.range q with stn := { (a.range q).stn with ptab := t } }
theorem SamePlaces.refl (a : State) : SamePlaces a a := ⟨id, rfl, fun _ _ => ⟨_, rfl⟩⟩
theorem SamePlaces.trans {a b c : State} (h : SamePlaces a b) (g : SamePlaces b c) : SamePlaces a c where
  canon := fun ha => g.canon (h.canon ha)
  rest := by rw [g.rest, h.rest]
  ranges ha q := by
    obtain ⟨t, ht⟩ := h.ranges ha q
    obtain ⟨t', ht'⟩ := g.ranges (h.canon ha) q
    exact ⟨t', by rw [ht', ht]⟩
theorem SamePlaces.hobs {a s : State} (h : SamePlaces a s) : s.hobs = a.hobs := by rw [h.rest]
theorem SamePlaces.gates {a s : State} (h : SamePlaces a s) : s.gates = a.gates := by rw [h.rest]
theorem SamePlaces.stk {a s : State} (h : SamePlaces a s) : s.stk = a.stk := by rw [h.rest]
theorem SamePlaces.trn {a s : State} (h : SamePlaces a s) : s.trn = a.trn := by rw [h.rest]
theorem SamePlaces.ptabClean (s : State) (a : Nat) : SamePlaces s (s.ptabClean a) := by
  unfold State.ptabClean
  extract_lets q r u old m
  split
  · exact .refl s
  · refine ⟨fun hs => canon_setRange hs _ _, rfl, fun hs k => ?_⟩
    by_cases hk : k = q
    · rw [hk, range_setRange hs]; exact ⟨_, rfl⟩
    · rw [range_setRange_ne hs _ hk]; exact ⟨_, rfl⟩
@[simp] theorem mem_ptabClean (s : State) (a : Nat) : (s.ptabClean a).mem = s.mem := by
  unfold State.ptabClean
  extract_lets
  split <;> rfl
theorem SamePlaces.write (s : State) (a : Nat) (b : Bytes) : SamePlaces s { s with mem := writeBytes s.mem a b } where
  canon hs := by
    have h := (canon_iff s).mp hs
    exact (canon_iff _).mpr ⟨writeBytes_wf h.1, h.2⟩
  rest := rfl
  ranges _ _ := ⟨_, rfl⟩
/-- A clean burst: its 32 bytes stand. -/
theorem placeBurst_clean (s : State) (a : Nat) (b : Bytes) :
    SamePlaces s (s.placeBurst a b false) ∧ (s.placeBurst a b false).mem = writeBytes s.mem a (fit 32 b) :=
  ⟨(SamePlaces.write s a _).trans (.ptabClean _ a), mem_ptabClean _ a⟩
/-- A clean line of HBM: its 64 bytes stand. -/
theorem placeLine_clean {s : State} {a : Nat} {b : Bytes} (ha : isHbm a = true) (hb : b.length = 64) :
    SamePlaces s (s.placeLine a b false) ∧ (s.placeLine a b false).mem = writeBytes s.mem a b := by
  obtain ⟨hplace1, hmem1⟩ := placeBurst_clean s a (b.take 32)
  obtain ⟨hplace2, hmem2⟩ := placeBurst_clean (s.placeBurst a (b.take 32) false) (a + 32) (b.drop 32)
  have htake : (b.take 32).length = 32 := by simp [hb]
  have hdrop : (b.drop 32).length = 32 := by simp [hb]
  have hline : s.placeLine a b false = (s.placeBurst a (b.take 32) false).placeBurst (a + 32) (b.drop 32) false := by
    simp [State.placeLine, ha, fit_eq_self hb]
  rw [hline]
  refine ⟨hplace1.trans hplace2, ?_⟩
  calc _ = writeBytes (writeBytes s.mem a (b.take 32)) (a + 32) (b.drop 32) := by rw [hmem2, hmem1, fit_eq_self htake, fit_eq_self hdrop]
    _ = writeBytes s.mem a (b.take 32 ++ b.drop 32) := by rw [writeBytes_append, htake]
    _ = writeBytes s.mem a b := by rw [List.take_append_drop]
/-- Clean lines of HBM, one after the other: all their bytes stand. -/
theorem writeLines_clean {s : State} {a n : Nat} {d : Bytes} (hd : d.length = 64 * n) (ha : a + 64 * n ≤ 4 * hbmQuarter) :
    SamePlaces s (s.writeLines a d (List.replicate n false)) ∧ (s.writeLines a d (List.replicate n false)).mem = writeBytes s.mem a d := by
  induction n generalizing s a d with
  | zero =>
    obtain rfl : d = [] := List.eq_nil_of_length_eq_zero (by simpa using hd)
    exact ⟨.refl s, rfl⟩
  | succ n ih =>
    obtain ⟨hplace1, hmem1⟩ := placeLine_clean (s := s) (b := d.take 64) ((isHbm_iff a).mpr (by omega)) (by rw [List.length_take, hd]; omega)
    obtain ⟨hplace2, hmem2⟩ := ih (s := s.placeLine a (d.take 64) false) (a := a + 64) (d := d.drop 64) (by simp [hd]; omega) (by omega)
    refine ⟨hplace1.trans hplace2, ?_⟩
    have htake : (d.take 64).length = 64 := by rw [List.length_take, hd]; omega
    calc _ = writeBytes (writeBytes s.mem a (d.take 64)) (a + 64) (d.drop 64) := by rw [← hmem1, ← hmem2]; rfl
      _ = writeBytes s.mem a (d.take 64 ++ d.drop 64) := by rw [writeBytes_append, htake]
      _ = writeBytes s.mem a d := by rw [List.take_append_drop]

end Sys2Proof.Machine
end

section
/-! The HBM station: the mover engine's accesses, the refresh timer and the temperature (R249 to R258). -/
namespace Sys2Proof.Machine

theorem stn_setStn {s : State} (hs : s.canon = true) (q : Nat) (x : Station) : (s.setStn q x).stn q = x := by
  rw [State.stn, State.setStn, range_setRange hs]
theorem stn_setStn_ne {s : State} (hs : s.canon = true) {q k : Nat} (x : Station) (hk : k ≠ q) : (s.setStn q x).stn k = s.stn k := by
  rw [State.stn, State.setStn, range_setRange_ne hs _ hk, State.stn]
theorem canon_setStn {s : State} (hs : s.canon = true) (q : Nat) (x : Station) : (s.setStn q x).canon = true := canon_setRange hs _ _
theorem setStn_setStn {s : State} (hs : s.canon = true) (q : Nat) (x y : Station) : (s.setStn q x).setStn q y = s.setStn q y := by
  simp only [State.setStn, range_setRange hs, setRange_setRange hs]
@[simp] theorem settled_setStn (s : State) (q : Nat) (x : Station) : (s.setStn q x).settled = s.settled := rfl

/-! ### The mover engine -/

theorem exec_hbmMoverAccess {q : Fin 4} {p : Fin 8} {t : Nat} {ecc : List Nat} {s s1 : State} (h : s.advance q t = some s1) {x : State}
    (hx : (s1.ready q).engineAccess q p (sckStart ((s1.ready q).grade q) ((s1.ready q).stn q).phase t) ecc = x) (hset : x.settled = true) :
    exec (.hbmMoverAccess q p t ecc) s = .next x := by
  simp only [exec, execHbmMoverAccess, h, hx, done_settled x hset]
/-- A write without a mark that the engine performs: its lines are placed, and its acknowledgement waits. -/
theorem serveLoad_write {s : State} {q : Nat} {l : Load} (hk : l.kind = .write) (hp : l.poi = List.replicate l.lines false) (ecc : List Nat) :
    let s1 := s.writeLines (localAddr l.addr) l.data (List.replicate l.lines false)
    s.serveLoad q l ecc = s1.setStn q { s1.stn q with
      outLoads := (s1.stn q).outLoads ++ [{ l with kind := .ack, dq := l.sq, ds := l.ss, sq := q, ss := 5, data := [], poi := [] }] } := by
  simp [State.serveLoad, hk, hp]

/-- Settles O23: the engine begins or waits by the cases of `engineAccess`, and a clean write is placed by `writeLines_clean`. -/
theorem engineWrites : Obligations.EngineWrites := by
  unfold Obligations.EngineWrites
  refine ⟨?access, ?due, ?write⟩
  case access =>
    rintro q p t k ecc s s1 s2 x l rest cs y hadv rfl hset rfl hrun hhalt rfl htake rfl rfl
    have hstn : ((s1.ready q).range q).stn = (s1.ready q).stn q := rfl
    refine ⟨fun hphase hfree hroom => ?begins, fun hphase hnot => ?waits, fun hphase hfits => ?inWindow, fun hphase hfits => ?outside⟩
    all_goals refine exec_hbmMoverAccess hadv ?_ hset
    all_goals simp only [State.engineAccess, hstn, hrun, hhalt, htake, hphase, Bool.not_true, Bool.or_self, Bool.false_eq_true, if_false, if_true]
    case begins =>
      have hroom' : ((s1.ready q).range q).valid = false ∨ ((s1.ready q).range q).phase ≠ .seam ∨ _ := hroom.imp_right (Or.imp_left fun h => by rw [h]; decide)
      exact if_pos ⟨hfree, hroom'⟩
    case waits =>
      refine if_neg fun ⟨hfree, hroom⟩ => ?_
      rcases hnot with hbusy | ⟨hvalid, hseam, hlate⟩
      · exact absurd hfree (Nat.not_le.mpr hbusy)
      · rcases hroom with h | h | h
        · rw [hvalid] at h; cases h
        · exact h hseam
        · exact absurd h (Nat.not_le.mpr hlate)
    case inWindow => exact if_pos hfits
    case outside => simp [hfits]
  case due =>
    intro s q e l ecc due hcanon hserving
    refine ⟨fun hdue => ?_, fun hdue => ?_⟩
    · simp [State.serveDue, hserving, hdue]
    · have hkept : (s.stn q).serving.filter (fun c => !due c.1) = (s.stn q).serving := by simp [hserving, hdue]
      have hnone : (s.stn q).serving.filter (fun c => due c.1) = [] := by simp [hserving, hdue]
      simp only [State.serveDue, hkept, hnone, List.foldl_nil]
      exact stn_setStn hcanon q _
  case write =>
    intro s q l ecc hcanon hk hpoi hlen haddr
    obtain ⟨hsame, hmem⟩ := writeLines_clean (s := s) hlen haddr
    have hwf : Memory.wf s.mem = true := ((canon_iff s).mp hcanon).1
    obtain ⟨t, hrange⟩ := hsame.ranges hcanon q
    rw [serveLoad_write hk hpoi]
    have hrest := hsame.rest
    refine ⟨?_, fun a ha => ?_, ?_, ?_, ?_, ?_, ?_⟩
    · change readBytes (s.writeLines _ _ _).mem _ _ = _
      rw [hmem, ← hlen, readBytes_writeBytes _ _ _ hwf]
    · change readByte (s.writeLines _ _ _).mem _ = _
      rw [hmem, readByte_writeBytes_out _ _ _ _ hwf (by rw [hlen]; exact ha)]
    · rw [stn_setStn (hsame.canon hcanon)]
      simp only [State.stn, hrange]
    · exact hsame.hobs
    · exact hsame.gates
    · exact hsame.stk
    · exact hsame.trn

end Sys2Proof.Machine
end

section
/-! The refresh timer of a station, and its temperature (R254 to R258, R394). -/
namespace Sys2Proof.Machine

theorem length_insertCmd (c : HCmd) (l : List HCmd) : (insertCmd c l).length = l.length + 1 := by
  induction l with
  | nil => rfl
  | cons x r ih => unfold insertCmd; split <;> simp [ih]
/-- `n` refreshes outside a program: they hold the pseudo-channel to their end, and the debt stands. -/
theorem autoRefresh_eq (x : Station) (p k n : Nat) (h : SMapWf 0 x.engBusy = true) :
    get 0 p (x.autoRefresh p k n).engBusy = (if n = 0 then get 0 p x.engBusy else max k (get 0 p x.engBusy) + 420 * n) ∧
      (x.autoRefresh p k n).debt = x.debt ∧ (x.autoRefresh p k n).cmds.length = x.cmds.length + n := by
  induction n generalizing x with
  | zero => exact ⟨rfl, rfl, rfl⟩
  | succ n ih =>
    obtain ⟨hbusy, hdebt, hlen⟩ := ih { x with
      cmds := insertCmd { at_ := max k (get 0 p x.engBusy), pc := p, cmd := 6, own := true } x.cmds,
      engBusy := put 0 p (max k (get 0 p x.engBusy) + 420) x.engBusy } (put_wf h)
    refine ⟨hbusy.trans ?_, hdebt, hlen.trans ?_⟩
    · rw [get_put_self _ _ _ _ h]
      split
      · next h0 => simp [h0]
      · rw [if_neg (Nat.succ_ne_zero n)]; omega
    · rw [length_insertCmd]; omega
/-- A pseudo-channel that enters rescue is in rescue. -/
theorem rescue_enterRescue (x : Station) {p : Nat} (hp : p < 8) (k : Nat) : (x.enterRescue p k).rescue.getLsbD p = true := by
  simp [Station.enterRescue, hp]

/-! ### The tick -/

theorem exec_refreshTick {q : Fin 4} {p : Fin 8} {k : Nat} {s s1 x : State} (h : s.advance q (cycOfSck (s.grade q) (s.stn q).phase k - 1) = some s1)
    (hx : (s1.ready q).refreshTick q p k = x) (hset : x.settled = true) : exec (.refreshTick q p k) s = .next x := by
  simp only [exec, execRefreshTick, h, hx, done_settled x hset]
section
variable {s s2 : State} {q p k : Nat} {x1 : Station} (hs : s2 = s.playRefs q k) (hx : x1 = { s2.stn q with debt := put 0 p (get 0 p (s2.stn q).debt + 1) (s2.stn q).debt })
include hs
theorem refreshTick_off (hrun : (s2.stn q).inRun = false) : s.refreshTick q p k = s2 := by
  simp only [State.refreshTick, ← hs, hrun, Bool.false_eq_true, if_false]
include hx
theorem refreshTick_seam (hrun : (s2.stn q).inRun = true) (hphase : (s2.range q).phase = .seam) (hres : (s2.stn q).rescue.getLsbD p = false) :
    s.refreshTick q p k = s2.setStn q x1 := by
  simp only [State.refreshTick, ← hs, hrun, hphase, hres, ← hx, Bool.false_eq_true, if_true, if_false]
theorem refreshTick_run (hrun : (s2.stn q).inRun = true) (hphase : (s2.range q).phase = .run) (hres : (s2.stn q).rescue.getLsbD p = false)
    (hd : get 0 p (s2.stn q).debt ≠ 4) : s.refreshTick q p k = s2.setStn q x1 := by
  have hd' : get 0 p (s2.stn q).debt + 1 ≠ 5 := by omega
  simp only [State.refreshTick, ← hs, hrun, hphase, hres, ← hx, hd', Bool.false_eq_true, if_true, if_false]
theorem refreshTick_rescue (hrun : (s2.stn q).inRun = true) (hphase : (s2.range q).phase = .run) (hres : (s2.stn q).rescue.getLsbD p = false)
    (hd : get 0 p (s2.stn q).debt = 4) : s.refreshTick q p k = (s2.setStn q (x1.enterRescue p k)).log 0x0503 .contained (.quarter q) none [p] := by
  have hd' : get 0 p (s2.stn q).debt + 1 = 5 := by omega
  simp only [State.refreshTick, ← hs, hrun, hphase, hres, ← hx, Bool.false_eq_true, if_true, if_false]
  rw [if_pos hd']
theorem refreshTick_idle (hrun : (s2.stn q).inRun = true) (hphase : (s2.range q).phase = .idle) :
    s.refreshTick q p k = s2.setStn q (x1.autoRefresh p k (x1.owed p)) := by
  simp only [State.refreshTick, ← hs, hrun, hphase, ← hx, if_true]
end

/-! ### The temperature -/

/-- The station's temperature after a reading, and its event. -/
theorem tempRead_eq (s : State) (q : Nat) (temp : Int) : s.tempRead q temp =
    if (s.stn q).temp ≤ 105 ∧ 105 < temp then (s.setStn q { s.stn q with temp := temp }).log 0x0504 .contained (.quarter q) none [(temp % 2 ^ 32).toNat]
    else s.setStn q { s.stn q with temp := temp } := rfl

/-- Settles O24: a tick by the phase of the range and the debt it finds, refreshes outside a program by `autoRefresh_eq`, and a reading by `tempRead_eq`. -/
theorem refreshAndHeat : Obligations.RefreshAndHeat := by
  unfold Obligations.RefreshAndHeat
  refine ⟨?tick, fun x p k n hwf hfree => ?auto, ?heat⟩
  case tick =>
    rintro q p k s s1 s2 x x1 d hadv hs hset hcanon rfl rfl hx
    have hexec {y : State} := @exec_refreshTick q p k s s1 y hadv
    refine ⟨fun hrun => hexec (refreshTick_off hs hrun) hset, fun hrun hphase hres => hexec (refreshTick_seam hs hx hrun hphase hres) hset,
      fun hrun hphase hres hd => hexec (refreshTick_run hs hx hrun hphase hres hd) hset, fun hrun hphase => hexec (refreshTick_idle hs hx hrun hphase) hset,
      fun hrun hphase hres hd hmirror => ⟨_, hexec (refreshTick_rescue hs hx hrun hphase hres hd) ?_, ?_, log_head .., log_mem .., log_hobs ..⟩⟩
    · exact (settled_log (by exact hmirror) ..).trans hset
    · rw [State.stn, log_range, ← State.stn, stn_setStn hcanon]
      exact rescue_enterRescue _ p.isLt k
  case auto =>
    obtain ⟨hbusy, hrest⟩ := autoRefresh_eq x p k n hwf
    exact ⟨by rw [hbusy, Nat.max_eq_left hfree], hrest⟩
  case heat =>
    intro q temp s hset hmirror hcanon hpll
    have hexec : exec (.hbmTempRead q temp) s = .next (s.tempRead q temp).done := by
      change Host.Outcome.next (s.timed (s.tempRead q temp)).done = _
      rw [State.timed, if_pos hpll]
    rw [hexec, tempRead_eq]
    split
    · have hset' := (settled_log (s := s.setStn q { s.stn q with temp := temp }) hmirror 0x0504 .contained (.quarter q) none [(temp % 2 ^ 32).toNat]).trans hset
      exact ⟨_, by rw [done_settled _ hset'], log_ranges .., log_head .., log_mem .., log_hobs .., log_stk ..⟩
    · have hset' : (s.setStn q { s.stn q with temp := temp }).settled = true := hset
      exact ⟨_, by rw [done_settled _ hset'], rfl, (BitVec.add_zero _).symm, rfl, rfl, rfl⟩

end Sys2Proof.Machine
end

section
/-! Word writes to CSR space: scratch registers, lockable registers, and the log cursor (R13, R14, R498, R507, R509). -/
namespace Sys2Proof.Machine

/-! ### What a write does at its address -/

theorem csrWrite_scratch {s : State} {a : Nat} {k : Nat} (hk : k < 4) (ha : a = 0xF000000020 + 4 * k) (v same : Word) :
    s.csrWrite a v same = { s with com := { s.com with scratch := put 0 k v s.com.scratch } } := by
  subst ha
  have hoff : 0xF000000020 + 4 * k - 0xF000000000 = 0x20 + 4 * k := by omega
  have hword : (0x20 + 4 * k - 0x20) / 4 = k := by omega
  unfold State.csrWrite
  rw [if_neg (by omega), if_pos (by omega), hoff, hword]
/-- Beyond the common block no register can be written. -/
theorem csrWrite_beyond {s : State} {a : Nat} (ha : 0xF000004000 ≤ a) (v same : Word) : s.csrWrite a v same = s := by
  unfold State.csrWrite
  rw [if_neg (by omega), if_neg (by omega), if_neg (by omega), if_neg (by omega), if_neg (by omega), if_neg (by omega), if_neg (by omega)]

/-! ### The commands, where the access may write -/

section
variable {acc : CsrAccess} {s x : State} (v : Word)
theorem exec_csrWrite_next {a : BitVec 40} (h : s.mayWriteCsr acc a.toNat = true) (hx : s.csrWrite a.toNat v 0 = x) (hset : x.settled = true) :
    exec (.csrWrite acc a v) s = .next x := by
  rw [exec_csrWrite, csrAccess_of_mayWriteCsr h, hx, ends_settled x hset]
theorem exec_comTagWrite (h : s.mayWriteCsr acc 0xF000000030 = true) (hx : s.writeTag v = x) (hset : x.settled = true) :
    exec (.comTagWrite acc v) s = .next x := by
  change (s.csrAccess acc 0xF000000030 fun s => s.writeTag v).ends = _
  rw [csrAccess_of_mayWriteCsr h, hx, ends_settled x hset]
theorem exec_otpWrite {a : BitVec 40} (h : s.mayWriteCsr acc a.toNat = true) (hotp : otpAddr (a.toNat - 0xF000000000) = true)
    (hx : s.lockedWrite a.toNat = x) (hset : x.settled = true) : exec (.otpWrite acc a v) s = .next x := by
  change (s.csrAccess acc a.toNat fun s => if otpAddr (a.toNat - 0xF000000000) then s.lockedWrite a.toNat else s).ends = _
  rw [csrAccess_of_mayWriteCsr h, if_pos hotp, hx, ends_settled x hset]
theorem exec_logCursorWrite (h : s.mayWriteCsr acc 0xF000003000 = true) (hx : s.writeCursor v = x) (hset : x.settled = true) :
    exec (.logCursorWrite acc v) s = .next x := by
  change (s.csrAccess acc 0xF000003000 fun s => s.writeCursor v).ends = _
  rw [csrAccess_of_mayWriteCsr h, hx, ends_settled x hset]
end

/-! ### The capture of the log cursor -/

/-- The eight words of an entry as LOG_CURSOR keeps them. -/
def snapOf (e : Vector Word 8) : SMap Word := (List.range 8).foldl (fun m w => put 0 w (e.toList.getD w 0) m) []
theorem get_snapOf (e : Vector Word 8) (w : Fin 8) : get 0 w (snapOf e) = e[w] := by
  have hput (l : List Nat) (m : SMap Word) (hm : SMapWf 0 m = true) (i : Nat) :
      get 0 i (l.foldl (fun m w => put 0 w (e.toList.getD w 0) m) m) = if i ∈ l then e.toList.getD i 0 else get 0 i m := by
    induction l generalizing m with
    | nil => rfl
    | cons k l ih =>
      rw [List.foldl_cons, ih _ (put_wf hm)]
      by_cases hik : i = k
      · rw [hik, get_put_self _ _ _ _ hm, if_pos List.mem_cons_self, ite_self]
      · rw [get_put_ne _ _ _ _ _ hm hik]
        simp [hik]
  rw [snapOf, hput _ _ rfl, if_pos (List.mem_range.mpr w.isLt)]
  simp [List.getD_eq_getElem?_getD]
theorem writeCursor_held {s : State} {v : Word} (h : (v - s.logTail).toNat < (s.svc.head - s.logTail).toNat) : s.writeCursor v =
    { s with com := { s.com with cursor := v, result := 0, snap := snapOf (get (Vector.replicate 8 (0 : Word)) (v.toNat % 4096) s.svc.log) } } := by
  have hheld : decide ((v - s.logTail).toNat < (s.svc.head - s.logTail).toNat) = true := decide_eq_true h
  simp only [State.writeCursor, hheld, if_true, snapOf]
theorem writeCursor_absent {s : State} {v : Word} (h : (s.svc.head - s.logTail).toNat ≤ (v - s.logTail).toNat) : s.writeCursor v =
    { s with com := { s.com with cursor := v, result := if v ≠ s.logTail ∧ (s.logTail - v).toNat ≤ 2 ^ 31 then 1 else 2, snap := [] } } := by
  have hheld : decide ((v - s.logTail).toNat < (s.svc.head - s.logTail).toNat) = false := decide_eq_false (Nat.not_lt.mpr h)
  simp only [State.writeCursor, hheld, Bool.false_eq_true, if_false, Bool.and_eq_true, decide_eq_true_eq, and_comm]

/-- Settles O25: writes by address, the tag by its lock, and the cursor by whether its SEQ is held. -/
theorem csrWrites : Obligations.CsrWrites := by
  unfold Obligations.CsrWrites
  refine ⟨fun acc a v s hset hmay => ⟨fun k hk ha => exec_csrWrite_next v hmay (csrWrite_scratch hk ha v 0) hset, fun ha => exec_csrWrite_next v hmay (csrWrite_beyond ha v 0) hset⟩,
    fun acc a v s hset hmirror => ?locks, fun acc v s hset hmay => ?cursor⟩
  case locks =>
    have hlogged args : (s.log 0x0001 .info .service none args).settled = true := (settled_log hmirror ..).trans hset
    refine ⟨fun hmay hlock => exec_comTagWrite v hmay ?_ hset, fun hmay hlock => exec_comTagWrite v hmay ?_ (hlogged _),
      fun hmay hotp => exec_otpWrite v hmay hotp rfl (hlogged _), fun args => ⟨?_, ?_, log_head .., log_boot ..⟩⟩
    · simp [State.writeTag, hlock]
    · simp [State.writeTag, hlock, State.lockedWrite]
    · unfold State.log; extract_lets; split <;> rfl
    · unfold State.log; extract_lets; split <;> rfl
  case cursor =>
    by_cases hheld : (v - s.logTail).toNat < (s.svc.head - s.logTail).toNat
    · exact ⟨_, _, exec_logCursorWrite v hmay (writeCursor_held hheld) hset, fun _ => ⟨rfl, get_snapOf _⟩, fun hout => absurd hheld (Nat.not_lt.mpr hout)⟩
    · refine ⟨_, _, exec_logCursorWrite v hmay (writeCursor_absent (Nat.le_of_not_lt hheld)) hset, fun h => absurd h hheld, fun _ => ⟨rfl, ?_, ?_⟩⟩
      all_goals split <;> simp_all

end Sys2Proof.Machine
end

section
/-! Frames of the mailbox, their answers, and reads of it (R466 to R473). -/
namespace Sys2Proof.Machine

/-! ### Frames -/

section
variable {s : State} {a : BitVec 7} (h : s.hears a = true)
include h
/-- The part answers at one address only. -/
theorem not_addressed_of_hears {b : BitVec 7} (hb : b ≠ a) : s.addressed b = false := by
  obtain ⟨-, haddr, -⟩ := (hears_iff s a).mp h
  simp only [State.addressed, Bool.and_eq_true, beq_iff_eq] at haddr
  have hne : b.toNat ≠ s.sbAddr := fun hx => hb (BitVec.eq_of_toNat_eq (hx.trans haddr.2.symm))
  simp [State.addressed, hne]
/-- A command that passes its checks and leaves the state as it is: only its answer. -/
theorem mailbox_answers {c : Nat} {p : Bytes} (hlen : cmdLen c = some p.length) {st : Nat} {r : Bytes} (hperform : s.sbPerform c p 0 = (s, st, r)) :
    (s.mailbox a (sbFrame c p) false 0).ends = .next (s.sbAnswer st r) := by
  obtain ⟨hset, -, -⟩ := (hears_iff s a).mp h
  rw [mailbox_sbFrame h hlen, hperform]
  exact ends_settled _ hset
theorem exec_logRead (seq : Word) (n : Byte) : exec (.logRead a seq n false) s =
    .next (if n.toNat = 0 ∨ 7 < n.toNat then s.sbAnswer 5 [] else s.sbAnswer 0 (s.logRead seq n.toNat)) := by
  have hseq : BitVec.ofNat 32 (le (toBytes 4 seq.toNat ++ [n]) 0 4) = seq := by
    rw [le, List.drop_zero, List.take_left' (length_toBytes 4 _), ofBytes_toBytes]
    exact BitVec.eq_of_toNat_eq (by simpa using seq.isLt)
  have hcount : le (toBytes 4 seq.toNat ++ [n]) 4 1 = n.toNat := by
    rw [le, List.drop_left' (length_toBytes 4 _)]
    simp [ofBytes]
  have hperform : s.sbPerform 4 (toBytes 4 seq.toNat ++ [n]) 0 = if n.toNat = 0 ∨ 7 < n.toNat then (s, 5, []) else (s, 0, s.logRead seq n.toNat) := by
    simp only [State.sbPerform, hseq, hcount]
  change (s.mailbox a (sbFrame 4 (toBytes 4 seq.toNat ++ [n])) false 0).ends = _
  split
  · next hbad => exact mailbox_answers h rfl (hperform.trans (if_pos hbad))
  · next hgood => exact mailbox_answers h rfl (hperform.trans (if_neg hgood))
theorem exec_csrRead (addr : BitVec 40) (n : Byte) {st : Nat} {r : Bytes} (hr : s.sbCsrRead addr.toNat n.toNat = (s, st, r)) :
    exec (.csrRead a addr n false) s = .next (s.sbAnswer st r) := by
  have haddr : le (toBytes 5 addr.toNat ++ [n]) 0 5 = addr.toNat := by
    rw [le, List.drop_zero, List.take_left' (length_toBytes 5 _), ofBytes_toBytes]
    exact Nat.mod_eq_of_lt addr.isLt
  have hcount : le (toBytes 5 addr.toNat ++ [n]) 5 1 = n.toNat := by
    rw [le, List.drop_left' (length_toBytes 5 _)]
    simp [ofBytes]
  have hperform : s.sbPerform 5 (toBytes 5 addr.toNat ++ [n]) 0 = s.sbCsrRead addr.toNat n.toNat := by
    simp only [State.sbPerform, haddr, hcount]
  change (s.mailbox a (sbFrame 5 (toBytes 5 addr.toNat ++ [n])) false 0).ends = _
  exact mailbox_answers h rfl (hperform.trans hr)
theorem exec_ledgerRead {t slot : Byte} (h1 : 1 ≤ t.toNat) (h4 : t.toNat ≤ 4) (hslot : slot = 0xFF ∨ slot.toNat < ledSlots t.toNat) :
    exec (.ledgerRead a t slot false) s = .next (s.sbAnswer 0 (s.ledgerRead t.toNat slot.toNat)) := by
  have hgood : ¬(t.toNat = 0 ∨ 4 < t.toNat ∨ (slot.toNat ≠ 0xFF ∧ ledSlots t.toNat ≤ slot.toNat)) := by
    rintro (h0 | h5 | ⟨hff, hout⟩)
    · omega
    · omega
    · rcases hslot with rfl | hin
      · exact hff rfl
      · omega
  have hperform : s.sbPerform 6 [t, slot] 0 = (s, 0, s.ledgerRead t.toNat slot.toNat) := by
    change (if t.toNat = 0 ∨ 4 < t.toNat ∨ (slot.toNat ≠ 0xFF ∧ ledSlots t.toNat ≤ slot.toNat) then _ else _) = _
    rw [if_neg hgood, le, le]
    simp [ofBytes]
  change (s.mailbox a (sbFrame 6 [t, slot]) false 0).ends = _
  exact mailbox_answers h rfl hperform
theorem exec_commandFrame_bad {f : Bytes} (hbad : frameCheck f ≠ 0) : exec (.commandFrame a f false) s = .next (s.sbAnswer (frameCheck f) []) := by
  obtain ⟨hset, haddr, -⟩ := (hears_iff s a).mp h
  have hbox : s.mailbox a f false 0 = s.sbAnswer (frameCheck f) [] := by
    simp only [State.mailbox, haddr, Bool.false_eq_true, Bool.true_eq_false, and_false, if_false]
  change (s.mailbox a f false 0).ends = _
  rw [hbox]
  exact ends_settled _ hset
theorem exec_mailboxRead_idle (d : Bool) : exec (.mailboxRead a d) s =
    .next { s with out := s.out ++ [.bytes "MAILBOX" (sbFrame (if s.svc.overrun then (7, []) else s.svc.resp.getD (8, [])).1 (if s.svc.overrun then (7, []) else s.svc.resp.getD (8, [])).2)] } := by
  obtain ⟨hset, haddr, hidle⟩ := (hears_iff s a).mp h
  have hsvc : { s.svc with executing := false } = s.svc := by rw [← hidle]
  change (s.mailboxRead a d).ends = _
  simp only [State.mailboxRead, haddr, hidle, Bool.false_eq_true, Bool.true_eq_false, false_and, if_false, hsvc]
  exact ends_settled _ hset
theorem exec_otherAddress {b : BitVec 7} (hb : b ≠ a) (f : Bytes) (d : Bool) : exec (.commandFrame b f d) s = .next s ∧ exec (.mailboxRead b d) s = .next s := by
  obtain ⟨hset, -, -⟩ := (hears_iff s a).mp h
  have haddr := not_addressed_of_hears h hb
  constructor
  · change (s.mailbox b f d 0).ends = _
    rw [State.mailbox, if_pos haddr]
    exact ends_settled _ hset
  · change (s.mailboxRead b d).ends = _
    rw [State.mailboxRead, if_pos haddr]
    exact ends_settled _ hset
end

/-! ### While a command executes -/

section
variable {s t : State} {a : BitVec 7} (h : s.hears a = true) (ht : t = { s with svc := { s.svc with executing := true } })
include h ht
theorem exec_commandFrame_during (hover : s.svc.overrun = false) (f : Bytes) :
    exec (.commandFrame a f true) t = .next { t with svc := { t.svc with overrun := true, mboxErr := t.svc.mboxErr + 1 } } := by
  obtain ⟨hset, haddr, -⟩ := (hears_iff s a).mp h
  have htaddr : t.addressed a = true := by rw [ht]; exact haddr
  have htexec : t.svc.executing = true := by rw [ht]
  have htover : t.svc.overrun = false := by rw [ht]; exact hover
  change (t.mailbox a f true 0).ends = _
  simp only [State.mailbox, htaddr, htexec, htover, Bool.true_eq_false, Bool.false_eq_true, and_self, if_true, if_false]
  exact ends_settled _ (by rw [ht]; exact hset)
theorem exec_mailboxRead_ended (hover : s.svc.overrun = false) : exec (.mailboxRead a true) t =
    .next { s with out := s.out ++ [.bytes "MAILBOX" (sbFrame (s.svc.resp.getD (8, [])).1 (s.svc.resp.getD (8, [])).2)] } := by
  obtain ⟨hset, haddr, hidle⟩ := (hears_iff s a).mp h
  have htaddr : t.addressed a = true := by rw [ht]; exact haddr
  have hsvc : { s.svc with executing := false } = s.svc := by rw [← hidle]
  have hread : t.mailboxRead a true = { s with out := s.out ++ [.bytes "MAILBOX" (sbFrame (s.svc.resp.getD (8, [])).1 (s.svc.resp.getD (8, [])).2)] } := by
    have htresp : (if t.svc.overrun then (7, []) else t.svc.resp.getD (8, [])) = s.svc.resp.getD (8, []) := by rw [ht]; simp [hover]
    have hback : { t with svc := { t.svc with executing := false } } = s := by rw [ht]; exact congrArg (fun v => { s with svc := v }) hsvc
    rw [State.mailboxRead, if_neg (by simp [htaddr]), if_neg (by simp), hback, htresp]
    rfl
  change (t.mailboxRead a true).ends = _
  rw [hread]
  exact ends_settled _ hset
theorem exec_mailboxRead_busy : exec (.mailboxRead a false) t = .next { t with out := t.out ++ [.bytes "MAILBOX" (sbFrame 1 [])] } := by
  obtain ⟨hset, haddr, -⟩ := (hears_iff s a).mp h
  have htaddr : t.addressed a = true := by rw [ht]; exact haddr
  have htexec : t.svc.executing = true := by rw [ht]
  change (t.mailboxRead a false).ends = _
  simp only [State.mailboxRead, htaddr, htexec, Bool.true_eq_false, and_self, if_true, if_false]
  exact ends_settled _ (by rw [ht]; exact hset)
end

/-! ### SLEEP -/

/-- Nothing waits for the end of the command. -/
def State.QuietEnd (s : State) : Prop :=
  s.trn.home = [] ∧ s.trn.chg = [] ∧ s.stk.openEpoch = none ∧ s.boot.work = [] ∧ s.svc.toMirror = [] ∧ s.loopback = []
theorem done_quiet {s : State} (h : s.QuietEnd) : s.done = s := by
  obtain ⟨h1, h2, h3, h4, h5, -⟩ := h
  simp only [State.done, transHome_quiet s h1, triggers_quiet s h2, closeEpoch_quiet s h3, h4, List.map_nil, List.sum_nil, State.answerUnknown,
    List.length_nil, State.sendReplies, flush_quiet s h5]
/-- The end of a command of a part that goes down: only its shutdown. -/
theorem ends_goingDown {s t : State} (hloop : s.loopback = []) (hshut : s.shutdown = t) (ht : t.QuietEnd) (hdown : t.goingDown = true) : s.ends = .next t := by
  have hloop' : t.loopback = [] := ht.2.2.2.2.2
  have hexit : t.decideExit = t := by simp [State.decideExit, hdown]
  rw [State.ends, deliverLocal_quiet s 4 hloop, hshut, done_quiet ht, deliverLocal_quiet t 4 hloop', hexit]
/-- A part that goes down with no quarter stopped yet only gives up an exit from SIMMER. -/
theorem shutdown_of_running {s : State} (hmode : s.svc.mode ≠ 4) (hrun : ∀ q, q < 4 → s.stopped q = false) (hdown : s.goingDown = true) :
    s.shutdown = s.dropExit [] := by
  have hnone : (List.range 4).filter (fun q => s.stopped q) = [] := by
    rw [List.filter_eq_nil_iff]
    exact fun q hq => by simp [hrun q (List.mem_range.mp hq)]
  have hkeeps : ∀ u, u = s.dropExit [] → u.svc.mode = s.svc.mode ∧ u.stopped 0 = s.stopped 0 := by
    rintro u rfl
    unfold State.dropExit
    split <;> exact ⟨rfl, rfl⟩
  obtain ⟨hm, hst⟩ := hkeeps _ rfl
  have hquiet : (s.dropExit []).quietNow = false := by
    have h0 : (s.dropExit []).stopped 0 = false := hst.trans (hrun 0 (by decide))
    simp [State.quietNow, h0, List.range, List.range.loop]
  simp only [State.shutdown, hdown, if_true, hnone, List.foldl_nil, List.length_nil]
  have hmode' : ¬(s.svc.mode = 4 ∨ 0 = 4) := by simp [hmode]
  rw [if_neg hmode', if_neg]
  rintro ⟨-, -, -, hq⟩
  rw [hquiet] at hq
  contradiction
theorem exec_sleep {s : State} {a : BitVec 7} (h : s.hears a = true) {st : Byte} (hst : st = 1 ∨ st = 2) (hmode : s.svc.mode = 1 ∨ s.svc.mode = 2)
    (hawake : s.pwr.sleeping = false) (hmirror : s.svc.mirrorEn = false) (hrun : ∀ q, q < 4 → s.stopped q = false) :
    ∃ s', exec (.sleep a st 0xA5 false) s = .next s' ∧ s'.svc.mode = 3 ∧ s'.pwr.sleeping = true ∧ s'.pwr.cold = (st == 2) ∧ s'.svc.head = s.svc.head + 1 ∧
      s'.svc.resp = some (0, []) ∧ s'.mem = s.mem ∧ s'.hobs = s.hobs ∧ s'.ranges = s.ranges ∧ s'.gates = s.gates := by
  obtain ⟨hset, -, -⟩ := (hears_iff s a).mp h
  obtain ⟨hhome, hchg, hepoch, hwork, hmir, -, hloop, -⟩ := (settled_iff s).mp hset
  let s1 : State := { s with pwr := { s.pwr with sleeping := true, cold := st.toNat == 2 }, svc := { s.svc with mode := 3 } }
  obtain ⟨s2, hs2⟩ : ∃ x, x = (s1.log 0x0003 .info .service none [st.toNat]).sbAnswer 0 [] := ⟨_, rfl⟩
  have hperform : s.sbPerform 7 [st, 0xA5] 0 = (s1.log 0x0003 .info .service none [st.toNat], 0, []) := by
    have hst' : ¬(st.toNat ≠ 1 ∧ st.toNat ≠ 2) := by rcases hst with rfl | rfl <;> simp
    have hm : ¬((s.svc.mode ≠ 1 ∧ s.svc.mode ≠ 2) ∨ s.pwr.sleeping = true) := by
      rintro (⟨h1, h2⟩ | hsleep)
      · exact hmode.elim h1 h2
      · rw [hawake] at hsleep; contradiction
    change s.sbSleep st.toNat (0xA5 : Byte).toNat = _
    rw [State.sbSleep, if_neg (by simpa using hst'), if_neg hm]
  have hexec : exec (.sleep a st 0xA5 false) s = s2.ends := by
    change (s.mailbox a (sbFrame 7 [st, 0xA5]) false 0).ends = _
    rw [mailbox_sbFrame h rfl, hperform, hs2]
  have hsvc : s2.svc.mode = 3 ∧ s2.svc.head = s.svc.head + 1 ∧ s2.svc.resp = some (0, []) ∧ s2.svc.toMirror = [] := by
    refine ⟨?_, ?_, ?_, ?_⟩
    · rw [hs2]; exact log_svcMode s1 ..
    · rw [hs2]; exact log_head s1 ..
    · rw [hs2]; rfl
    · rw [hs2]
      change (s1.log 0x0003 .info .service none [st.toNat]).svc.toMirror = []
      rw [log_svc]
      change (if s.svc.mirrorEn then _ else s.svc.toMirror) = []
      rw [hmirror, hmir]; rfl
  have hpwr : s2.pwr = s1.pwr := by rw [hs2]; exact log_pwr s1 ..
  have hrest : s2.hobs = s.hobs ∧ s2.ranges = s.ranges ∧ s2.gates = s.gates ∧ s2.mem = s.mem := by
    rw [hs2]; exact ⟨log_hobs s1 .., log_ranges s1 .., log_gates s1 .., log_mem s1 ..⟩
  have hquiet : s2.trn = s.trn ∧ s2.stk = s.stk ∧ s2.boot = s.boot ∧ s2.loopback = s.loopback ∧ s2.clk = s.clk := by
    rw [hs2]; exact ⟨log_trn s1 .., log_stk s1 .., log_boot s1 .., log_loopback s1 .., log_clk s1 ..⟩
  have hp1 : s1.pwr.sleeping = true ∧ s1.pwr.cold = (st == 2) := ⟨rfl, by rcases hst with rfl | rfl <;> rfl⟩
  obtain ⟨hm2, hhead2, hresp2, hmir2⟩ := hsvc
  obtain ⟨hobs2, ranges2, gates2, mem2⟩ := hrest
  obtain ⟨htrn2, hstk2, hboot2, hloop2, hclk2⟩ := hquiet
  obtain ⟨hsleep1, hcold1⟩ := hp1
  have hends : s2.ends = .next (s2.dropExit []) := by
    refine ends_goingDown (by rw [hloop2, hloop]) ?_ ?_ ?_
    · have hstop : ∀ q, q < 4 → s2.stopped q = false := fun q hq => by
        have hx : s2.stopped q = s.stopped q := by simp only [State.stopped, State.range, ranges2, hclk2]
        rw [hx, hrun q hq]
      exact shutdown_of_running (by rw [hm2]; decide) hstop (by simp [State.goingDown, hpwr, hsleep1])
    · have hd : (s2.dropExit []).trn = s2.trn ∧ (s2.dropExit []).stk = s2.stk ∧ (s2.dropExit []).boot = s2.boot ∧ (s2.dropExit []).svc = s2.svc ∧ (s2.dropExit []).loopback = s2.loopback := by
        unfold State.dropExit
        split <;> exact ⟨rfl, rfl, rfl, rfl, rfl⟩
      obtain ⟨ht, hk, hb, hv, hl⟩ := hd
      exact ⟨by rw [ht, htrn2, hhome], by rw [ht, htrn2, hchg], by rw [hk, hstk2, hepoch], by rw [hb, hboot2, hwork], by rw [hv, hmir2], by rw [hl, hloop2, hloop]⟩
    · unfold State.dropExit State.goingDown
      split <;> simp [hpwr, hsleep1]
  rw [hexec, hends]
  refine ⟨_, rfl, ?_⟩
  unfold State.dropExit
  split
  all_goals exact ⟨hm2, (congrArg (·.sleeping) hpwr).trans hsleep1, (congrArg (·.cold) hpwr).trans hcold1, hhead2, hresp2, mem2, hobs2, ranges2, gates2⟩

end Sys2Proof.Machine
end

section
/-! Common command codes and the TAP (R463, R464, R484 to R486), and the sideband as a whole. -/
namespace Sys2Proof.Machine

/-! ### Common command codes -/

theorem direct_addressed {s : State} {a : BitVec 7} (h : s.addressed a = true) (f : State → State) : s.direct a f = f s := if_pos h
theorem direct_other {s : State} {a : BitVec 7} (h : s.addressed a = false) (f : State → State) : s.direct a f = s := if_neg (by simp [h])
theorem ccc_served {s : State} (h : s.served = true) (f : State → State) : s.ccc none f = f s := if_pos h
theorem ccc_addressed {s : State} {a : BitVec 7} (h : s.addressed a = true) (f : State → State) : s.ccc (some a) f = f s := direct_addressed h f
/-- A direct command code to the part, which leaves nothing to settle. -/
theorem direct_ends {s x : State} {a : BitVec 7} (h : s.addressed a = true) {f : State → State} (hx : f s = x) (hset : x.settled = true) :
    (s.direct a f).ends = .next x := by rw [direct_addressed h, hx, ends_settled x hset]
theorem direct_ends_other {s : State} {a : BitVec 7} (h : s.addressed a = false) (f : State → State) (hset : s.settled = true) :
    (s.direct a f).ends = .next s := by rw [direct_other h, ends_settled s hset]
/-- The event enable, by a broadcast or by a direct command code. -/
theorem exec_events {s : State} {a : Option (BitVec 7)} (hset : s.settled = true) (hccc : ∀ f, s.ccc a f = f s) {ev : Byte} (hev : ev.getLsbD 0 = true) :
    exec (.enec a ev) s = .next { s with svc := { s.svc with ibiEn := true } } ∧ exec (.disec a ev) s = .next { s with svc := { s.svc with ibiEn := false } } := by
  constructor
  · change (s.ccc a fun s => if ev.getLsbD 0 then { s with svc := { s.svc with ibiEn := true } } else s).ends = _
    rw [hccc, if_pos hev]
    exact ends_settled _ hset
  · change (s.ccc a fun s => if ev.getLsbD 0 then { s with svc := { s.svc with ibiEn := false } } else s).ends = _
    rw [hccc, if_pos hev]
    exact ends_settled _ hset
theorem exec_rstdaa {s : State} (hset : s.settled = true) (h : s.served = true) :
    exec .rstdaa s = .next { s with svc := { s.svc with dynAddr := 0, dynValid := false } } := by
  change (s.ccc none _).ends = _
  rw [ccc_served h]
  exact ends_settled _ hset
theorem exec_entdaa_free {s : State} (hset : s.settled = true) (h : s.served = true) (hfree : s.svc.dynValid = false) (won : Option (BitVec 7)) :
    exec (.entdaa won) s = .next (match won with
      | some v => (s.emit (.bytes "ENTDAA" (toBytesBE 6 s.pid ++ [0x06, 0x00]))).setDyn v
      | none => s.emit (.bytes "ENTDAA" (toBytesBE 6 s.pid ++ [0x06, 0x00]))) := by
  change (s.entdaa won).ends = _
  rw [State.entdaa, if_pos (by simp [h, hfree])]
  cases won <;> exact ends_settled _ hset
theorem exec_entdaa_assigned {s : State} (hset : s.settled = true) (hhas : s.svc.dynValid = true) (won : Option (BitVec 7)) : exec (.entdaa won) s = .next s := by
  change (s.entdaa won).ends = _
  rw [State.entdaa, if_neg (by simp [hhas])]
  exact ends_settled _ hset
theorem exec_setdasa {s : State} {a : BitVec 7} (hset : s.settled = true) (h : s.addressed a = true) (v : BitVec 7) :
    exec (.setdasa a v) s = .next (if s.svc.dynValid = true then s else { s with svc := { s.svc with dynAddr := v.toNat, dynValid := true } }) :=
  direct_ends h rfl (by split <;> exact hset)
theorem exec_setnewda {s : State} {a : BitVec 7} (hset : s.settled = true) (h : s.addressed a = true) (v : BitVec 7) :
    exec (.setnewda a v) s = .next (if s.svc.dynValid = true then { s with svc := { s.svc with dynAddr := v.toNat, dynValid := true } } else s) :=
  direct_ends h rfl (by split <;> exact hset)

/-! ### TAP instructions -/

section
variable {s : State} (hset : s.settled = true)
include hset
theorem exec_tapReset : exec .tapReset s = .next { s with tap := { s.tap with ir := 0x01, driving := 0 } } := ends_settled _ hset
theorem exec_idcode (h : s.tapOn = true) :
    exec .idcode s = .next { s with tap := { s.tap with ir := 0x01, driving := 0 }, out := s.out ++ [.bytes "TDO" [0x35, 0x07, 0x41, 0x12]] } := by
  change (if s.tapOn then (s.tapLoad 0x01 true 0).emit (.bytes "TDO" (toBytes 4 0x12410735)) else s).ends = _
  rw [if_pos h]
  exact ends_settled _ hset
theorem exec_bypass (h : s.tapOn = true) : exec .bypass s = .next { s with tap := { s.tap with ir := 0xFF, driving := 0 }, out := s.out ++ [.bytes "TDO" [0]] } := by
  change (if s.tapOn then (s.tapLoad 0xFF true 0).scanBypass else s).ends = _
  rw [if_pos h]
  exact ends_settled _ hset
theorem exec_samplePreload (h : s.tapOn = true) (pins shift : BitVec 379) : exec (.samplePreload pins shift) s =
    .next { s with tap := { s.tap with ir := 0x02, driving := 0, cells := pins, held := shift }, out := s.out ++ [.bytes "TDO" (toBytes 48 pins.toNat)] } := by
  change (if s.tapOn then (s.tapLoad 0x02 true 0).scanCells pins shift else s).ends = _
  rw [if_pos h]
  exact ends_settled _ hset
/-- An instruction over the boundary-scan register in test mode. -/
theorem testScan_ends (h : s.tapOn = true) (ht : s.svc.testMode = true) (code : BitVec 8) (drive : Nat) (pins shift : BitVec 379) :
    (s.testScan code drive pins shift).ends =
      .next { s with tap := { s.tap with ir := code, driving := drive, cells := pins, held := shift }, out := s.out ++ [.bytes "TDO" (toBytes 48 pins.toNat)] } := by
  simp only [State.testScan, h, ht, if_true]
  exact ends_settled _ hset
theorem testHold_ends (h : s.tapOn = true) (ht : s.svc.testMode = true) (code : BitVec 8) (drive : Nat) :
    (s.testHold code drive).ends = .next { s with tap := { s.tap with ir := code, driving := drive }, out := s.out ++ [.bytes "TDO" [0]] } := by
  simp only [State.testHold, h, ht, if_true]
  exact ends_settled _ hset
/-- Outside test mode both kinds act as BYPASS. -/
theorem testScan_bypass (h : s.tapOn = true) (ht : s.svc.testMode = false) (code : BitVec 8) (drive : Nat) (pins shift : BitVec 379) :
    (s.testScan code drive pins shift).ends = .next { s with tap := { s.tap with ir := code, driving := 0 }, out := s.out ++ [.bytes "TDO" [0]] } := by
  simp only [State.testScan, h, ht, if_true, Bool.false_eq_true, if_false]
  exact ends_settled _ hset
theorem testHold_bypass (h : s.tapOn = true) (ht : s.svc.testMode = false) (code : BitVec 8) (drive : Nat) :
    (s.testHold code drive).ends = .next { s with tap := { s.tap with ir := code, driving := 0 }, out := s.out ++ [.bytes "TDO" [0]] } := by
  simp only [State.testHold, h, ht, if_true]
  exact ends_settled _ hset
end

/-! ### DEBUG -/

theorem tapDebug_debugging {s : State} (h : s.tapOn = true) (ht : s.svc.testMode = true) (hu : s.boot.dbgLocked = false) (op : DebugOp) :
    s.tapDebug op = ({ s with tap := { s.tap with ir := 0x20, driving := 0 } } : State).debug op := by
  have hdbg : (s.tapLoad 0x20 false 0).debugging = true := by simp [State.tapLoad, State.debugging, ht, hu]
  simp only [State.tapDebug, h, hdbg, if_true]
  rfl
theorem tapDebug_barred {s : State} (h : s.tapOn = true) (hbar : s.svc.testMode = false ∨ s.boot.dbgLocked = true) (op : DebugOp) :
    s.tapDebug op = { s with tap := { s.tap with ir := 0x20, driving := 0 }, out := s.out ++ [.bytes "TDO" [0]] } := by
  have hdbg : (s.tapLoad 0x20 false 0).debugging = false := by rcases hbar with h1 | h1 <;> simp [State.tapLoad, State.debugging, h1]
  simp only [State.tapDebug, h, hdbg, if_true, Bool.false_eq_true, if_false]
  rfl
theorem kindAt_eq_one {s : State} {a : Nat} : s.kindAt a = 1 ↔ isHbm a = true ∧ (s.stn (a / hbmQuarter)).withdrawn = false := by
  unfold State.kindAt
  split
  · next h => cases hw : (s.stn (a / hbmQuarter)).withdrawn <;> simp [h]
  · next h =>
    simp only [h, Bool.false_eq_true, false_and, iff_false]
    repeat' split
    all_goals decide
/-- The bytes of one 64-byte line of HBM are all served by the same station. -/
theorem kindAt_sameLine {s : State} {a b : Nat} (h : s.kindAt a = 1) (hab : a / 64 = b / 64) : s.kindAt b = 1 := by
  obtain ⟨hin, hw⟩ := kindAt_eq_one.mp h
  have hquarter : b / hbmQuarter = a / hbmQuarter := by unfold hbmQuarter; omega
  rw [isHbm_iff] at hin
  refine kindAt_eq_one.mpr ⟨(isHbm_iff b).mpr ?_, by rw [hquarter, hw]⟩
  unfold hbmQuarter at *; omega
/-- A debugger's access within one line of HBM is served. -/
theorem localServed {s : State} {a n : Nat} (hn : 0 < n) (hline : a % 64 + n ≤ 64) (h : s.kindAt a = 1) :
    ((List.range (n / 64 + 2)).all fun j => s.kindAt (min (a + 64 * j) (a + n - 1)) == 1 || s.kindAt (min (a + 64 * j) (a + n - 1)) == 2) = true := by
  refine List.all_eq_true.mpr fun j _ => ?_
  rw [kindAt_sameLine h (by omega)]
  rfl
/-- What each step of a fold leaves alone, the fold leaves alone. -/
theorem foldl_leaves {α β : Type} (g : State → β) {f : State → α → State} (hf : ∀ s x, g (f s x) = g s) (l : List α) (s : State) : g (l.foldl f s) = g s := by
  induction l generalizing s with
  | nil => rfl
  | cons x l ih => exact (ih (f s x)).trans (hf s x)
/-- Bytes written change memory and marks only. -/
theorem placeRaw_rest (s : State) (a : Nat) (b : Bytes) :
    s.placeRaw a b = { s with ranges := (s.placeRaw a b).ranges, mem := writeBytes s.mem a b, linePoi := (s.placeRaw a b).linePoi } := by
  let rest (u : State) : State := { u with ranges := s.ranges, linePoi := s.linePoi }
  have hkeep : rest (s.placeRaw a b) = rest { s with mem := writeBytes s.mem a b } := by
    unfold State.placeRaw
    extract_lets s1
    split
    · refine foldl_leaves rest (fun s j => ?_) _ _
      extract_lets c
      split
      · unfold State.ptabClean; extract_lets; split <;> rfl
      · rfl
    · refine foldl_leaves rest (fun s j => ?_) _ _
      extract_lets c
      split <;> rfl
  calc s.placeRaw a b = { rest (s.placeRaw a b) with ranges := (s.placeRaw a b).ranges, linePoi := (s.placeRaw a b).linePoi } := rfl
    _ = _ := by rw [hkeep]
theorem settled_placeRaw {s : State} (a : Nat) (b : Bytes) : (s.placeRaw a b).settled = s.settled := by
  rw [placeRaw_rest]; rfl

/-- A read of CSR space is one of eight blocks' registers, or nothing. -/
theorem block_congr {α : Type} (p q : Prop) [Decidable p] [Decidable q] (o : Nat) (n : α) {a b c d e f g a' b' c' d' e' f' g' : α}
    (ha : a = a') (hb : b = b') (hc : c = c') (hd : d = d') (he : e = e') (hf : f = f') (hg : g = g') :
    (if p then n else if q then a else match o with | 0 => b | 1 => c | 2 => d | 3 => e | 4 => f | 5 => g | _ => n) =
      if p then n else if q then a' else match o with | 0 => b' | 1 => c' | 2 => d' | 3 => e' | 4 => f' | 5 => g' | _ => n := by
  rw [ha, hb, hc, hd, he, hf, hg]
section
variable (s : State) (t : Tap)
theorem csrQuarter_tap (q o : Nat) : ({ s with tap := t } : State).csrQuarter q o = s.csrQuarter q o := by unfold State.csrQuarter; rfl
theorem csrCommon_tap (o : Nat) : ({ s with tap := t } : State).csrCommon o = s.csrCommon o := by unfold State.csrCommon; rfl
theorem csrRouting_tap (o : Nat) : ({ s with tap := t } : State).csrRouting o = s.csrRouting o := by unfold State.csrRouting; rfl
theorem csrStoker_tap (o : Nat) : ({ s with tap := t } : State).csrStoker o = s.csrStoker o := by unfold State.csrStoker; rfl
theorem csrSvcBlock_tap (o : Nat) : ({ s with tap := t } : State).csrSvcBlock o = s.csrSvcBlock o := by unfold State.csrSvcBlock; rfl
theorem csrTransport_tap (o : Nat) : ({ s with tap := t } : State).csrTransport o = s.csrTransport o := rfl
theorem csrEth_tap (o : Nat) : ({ s with tap := t } : State).csrEth o = s.csrEth o := rfl
theorem csrFlags_tap (o : Nat) : ({ s with tap := t } : State).csrFlags o = s.csrFlags o := rfl
/-- No register of CSR space reads the TAP. -/
theorem csrNat_tap (a : Nat) : ({ s with tap := t } : State).csrNat a = s.csrNat a := by
  refine block_congr (a < 0xF000000000 ∨ 0xF100000000 ≤ a) _ _ _ (csrQuarter_tap ..) ?_ (csrStoker_tap ..) (csrSvcBlock_tap ..) (csrTransport_tap ..) (csrEth_tap ..) (csrFlags_tap ..)
  rw [csrCommon_tap, csrRouting_tap]
theorem csrDecoded_tap (a : Nat) : csrDecoded { s with tap := t } a = csrDecoded s a := by rw [csrDecoded, csrNat_tap, csrDecoded]
end

section
variable {s : State} (hset : s.settled = true) (h : s.tapOn = true) (ht : s.svc.testMode = true) (hu : s.boot.dbgLocked = false)
include hset h ht hu
theorem exec_debug {op : DebugOp} {x : State} (hx : ({ s with tap := { s.tap with ir := 0x20, driving := 0 } } : State).debug op = x) (hxset : x.settled = s.settled) :
    exec (.debug op) s = .next x := by
  change (s.tapDebug op).ends = _
  rw [tapDebug_debugging h ht hu, hx]
  exact ends_settled x (hxset.trans hset)
theorem exec_readWord (x : BitVec 40) : exec (.debug (.readWord x)) s = .next { s with
    tap := { s.tap with ir := 0x20, driving := 0 },
    out := s.out ++ [.bytes "DEBUG" (toBytes 4 (if x.toNat % 4 = 0 ∧ s.comServed = true then (s.csrNat x.toNat).getD 0 else 0))] } :=
  exec_debug hset h ht hu (by rw [← csrNat_tap s { s.tap with ir := 0x20, driving := 0 }]; rfl) rfl
theorem exec_writeWord_refused {x : BitVec 40} (hx : x.toNat % 4 ≠ 0 ∨ s.comServed = false ∨ csrDecoded s x.toNat = false ∨ inStoreWindow x.toNat = true) (v : Word) :
    exec (.debug (.writeWord x v)) s = .next { s with tap := { s.tap with ir := 0x20, driving := 0 } } := by
  refine exec_debug hset h ht hu (if_neg ?_) rfl
  rintro ⟨ha, hc, hd, hw⟩
  rw [csrDecoded_tap] at hd
  rcases hx with h1 | h1 | h1 | h1
  · exact h1 ha
  · exact Bool.false_ne_true (h1.symm.trans hc)
  · exact Bool.false_ne_true (h1.symm.trans hd)
  · exact Bool.false_ne_true (hw.symm.trans h1)
theorem exec_writeLocal {x : BitVec 40} {w : Bytes} (hw : 0 < w.length) (hline : x.toNat % 64 + w.length ≤ 64) (hk : s.kindAt x.toNat = 1) :
    exec (.debug (.writeLocal x w)) s = .next (({ s with tap := { s.tap with ir := 0x20, driving := 0 } } : State).placeRaw x.toNat w) := by
  refine exec_debug hset h ht hu ?_ (settled_placeRaw ..)
  exact if_pos (localServed hw hline hk)
theorem exec_readLocal {x : BitVec 40} {n : Nat} (hn : 0 < n) (hline : x.toNat % 64 + n ≤ 64) (hk : s.kindAt x.toNat = 1) :
    exec (.debug (.readLocal x n)) s = .next { s with tap := { s.tap with ir := 0x20, driving := 0 }, out := s.out ++ [.bytes "DEBUG" (s.readRaw x.toNat n).1] } := by
  refine exec_debug hset h ht hu (x := { s with tap := { s.tap with ir := 0x20, driving := 0 }, out := s.out ++ [.bytes "DEBUG" (s.readRaw x.toNat n).1] }) ?_ rfl
  have hok := localServed (s := { s with tap := { s.tap with ir := 0x20, driving := 0 } }) hn hline hk
  simp only [State.debug, hok, if_true]
  rfl
end

/-- Settles O60: the mailbox by its frames and answers, the command codes by their address, and the TAP by its mode. -/
theorem sideband : Obligations.Sideband := by
  unfold Obligations.Sideband
  refine ⟨fun s a h => ?mailbox, fun s a v hset => ⟨fun hserved => ?broadcast, fun haddr => ?direct, fun haddr => ?other⟩, fun s pins shift hset => ⟨exec_tapReset hset, fun hon => ?on, fun hoff op => ?off⟩⟩
  case mailbox =>
    have hbyte0 (n : Byte) (hn : n = 0 ∨ 7 < n.toNat) : n.toNat = 0 ∨ 7 < n.toNat := hn.imp_left fun h0 => by simp [h0]
    refine ⟨⟨mailbox_answers h (p := []) rfl rfl, mailbox_answers h (p := []) rfl rfl, mailbox_answers h (p := []) rfl rfl⟩, fun seq n => ⟨fun h1 h7 => ?_, fun hn => ?_⟩,
      fun addr n h4 hlo => ⟨fun h1 h32 hhi hdec => exec_csrRead h addr n ?_, fun hn => exec_csrRead h addr n ?_⟩, fun t slot h1 h4 hslot => exec_ledgerRead h h1 h4 hslot,
      fun st hst hmode hawake hmirror hrun => exec_sleep h hst hmode hawake hmirror hrun, fun st c hst hc => mailbox_answers h (p := [st, c]) rfl ?_,
      fun cl mk same l hcl hmk hl => ?_, fun f c hf hc => hf ▸ exec_commandFrame_bad h (by rw [hf]; exact hc), fun d hover => ?_, fun d hover => ?_,
      fun b f d hb => exec_otherAddress h hb f d, fun t ht => ⟨fun f hover => exec_commandFrame_during h ht hover f, exec_mailboxRead_ended h ht, exec_mailboxRead_busy h ht⟩⟩
    · rw [exec_logRead h, if_neg (by omega)]
    · rw [exec_logRead h, if_pos (hbyte0 n hn)]
    · refine if_neg ?_
      have hall : (List.range n.toNat).all (fun j => csrDecoded s (addr.toNat + 4 * j)) = true :=
        List.all_eq_true.mpr fun j hj => hdec j (List.mem_range.mp hj)
      rw [hall]
      simp; omega
    · refine if_pos (Or.inr ?_)
      rcases hn with rfl | hn
      · exact Or.inl rfl
      · exact Or.inr (Or.inl hn)
    · refine if_pos (Or.inr fun hx => hc ?_)
      exact BitVec.eq_of_toNat_eq hx
    · have hl' : s.svc.latch &&& ~~~(BitVec.ofNat 5 cl.toNat &&& ~~~same) = l := hl.symm
      have hlbyte : toBytes 1 l.toNat = [l.zeroExtend 8] := by
        simp only [toBytes, List.cons.injEq, and_true]
        exact BitVec.eq_of_toNat_eq (by simp)
      have hmbyte : toBytes 1 (BitVec.ofNat 5 mk.toNat).toNat = [mk] := by
        simp only [toBytes, BitVec.toNat_ofNat, List.cons.injEq, and_true]
        exact BitVec.eq_of_toNat_eq (by simp; omega)
      rw [exec_alertAck h, State.sbAlertAck, if_neg (by omega)]
      simp only [hl', hlbyte, hmbyte]
      rfl
    · rw [exec_mailboxRead_idle h, hover]; rfl
    · rw [exec_mailboxRead_idle h, hover]; rfl
  case broadcast =>
    refine ⟨fun ev hev => exec_events hset (ccc_served hserved) hev, exec_rstdaa hset hserved, fun hfree => exec_entdaa_free hset hserved hfree (some v),
      fun hfree => exec_entdaa_free hset hserved hfree none, fun hhas w => exec_entdaa_assigned hset hhas w⟩
  case direct =>
    refine ⟨fun ev hev => exec_events hset (ccc_addressed haddr) hev, exec_setdasa hset haddr v, exec_setnewda hset haddr v, direct_ends haddr rfl hset,
      direct_ends haddr rfl hset, direct_ends haddr rfl hset, direct_ends haddr rfl hset, direct_ends haddr rfl hset, direct_ends haddr rfl hset⟩
  case other =>
    exact ⟨direct_ends_other haddr _ hset, direct_ends_other haddr _ hset, direct_ends_other haddr _ hset, direct_ends_other haddr _ hset,
      direct_ends_other haddr _ hset, direct_ends_other haddr _ hset, direct_ends_other haddr _ hset, direct_ends_other haddr _ hset⟩
  case on =>
    refine ⟨exec_idcode hset hon, exec_bypass hset hon, exec_samplePreload hset hon pins shift, fun ht => ⟨testScan_ends hset hon ht .., testScan_ends hset hon ht .., testScan_ends hset hon ht ..,
      testHold_ends hset hon ht .., testHold_ends hset hon ht ..⟩, fun ht ir c hc => ?_, fun ht hu => ⟨exec_debug hset hon ht hu rfl rfl, exec_debug hset hon ht hu rfl rfl, exec_debug hset hon ht hu rfl rfl,
      exec_debug hset hon ht hu rfl rfl, fun x => ⟨fun h4 hc hd => ?_, fun hx => ?_, fun hx v => exec_writeWord_refused hset hon ht hu hx v⟩,
      fun x w hw hline hk => exec_writeLocal hset hon ht hu hw hline hk, fun x n hn _ hline hk => exec_readLocal hset hon ht hu hn hline hk⟩, fun hbar op => ?_⟩
    · simp only [List.mem_cons, Prod.mk.injEq, List.not_mem_nil, or_false] at hc
      rcases hc with ⟨rfl, rfl⟩ | ⟨rfl, rfl⟩ | ⟨rfl, rfl⟩ | ⟨rfl, rfl⟩ | ⟨rfl, rfl⟩
      · exact testScan_bypass hset hon ht ..
      · exact testScan_bypass hset hon ht ..
      · exact testScan_bypass hset hon ht ..
      · exact testHold_bypass hset hon ht ..
      · exact testHold_bypass hset hon ht ..
    · rw [exec_readWord hset hon ht hu, if_pos ⟨h4, hc⟩]
    · rw [exec_readWord hset hon ht hu, if_neg (fun hx' => hx.elim (fun h1 => h1 hx'.1) fun h1 => by simp [h1] at hx')]
      rfl
    · change (s.tapDebug op).ends = _
      rw [tapDebug_barred hon hbar]
      exact ends_settled _ hset
  case off =>
    have hoff' : ¬s.tapOn = true := by simp [hoff]
    have hquiet {x : State} : (if s.tapOn then x else s).ends = .next s := by rw [if_neg hoff', ends_settled s hset]
    exact ⟨hquiet, hquiet, hquiet, hquiet, hquiet, hquiet, hquiet, hquiet, hquiet⟩

end Sys2Proof.Machine
end

section
/-! Flags, the head packet of a receive buffer, and the answers to packets (R199 to R201, R229, R277, R296, R300). -/
namespace Sys2Proof.Machine

/-! ### Flags -/

theorem bumpFlagP_eq (s : State) (f : Nat) (d : Word) :
    s.bumpFlagP f d = { s with flg := { s.flg with val := put 0 f (s.flag f + d) s.flg.val }, stk := (s.bumpFlagP f d).stk } := by
  unfold State.bumpFlagP
  extract_lets s'
  split <;> rfl
theorem bumpFlagP_flg (s : State) (f : Nat) (d : Word) : (s.bumpFlagP f d).flg = { s.flg with val := put 0 f (s.flag f + d) s.flg.val } := by
  rw [bumpFlagP_eq]
/-- An increment changes the flag, may note progress, and does nothing else. -/
theorem bumpFlagP_stk (s : State) (f : Nat) (d : Word) : ∃ b, (s.bumpFlagP f d).stk = { s.stk with progress := b } := by
  unfold State.bumpFlagP
  extract_lets s'
  split
  · exact ⟨true, rfl⟩
  · exact ⟨s.stk.progress, rfl⟩
theorem flag_bumpFlagP {s : State} (h : SMapWf (0 : Word) s.flg.val = true) (f g : Nat) (d : Word) :
    (s.bumpFlagP f d).flag g = if g = f then s.flag f + d else s.flag g := by
  rw [State.flag, bumpFlagP_flg]
  split
  · next he => rw [he]; exact get_put_self _ _ _ _ h
  · next hne => exact get_put_ne _ _ _ _ _ h hne
theorem settled_bumpFlagP (s : State) (f : Nat) (d : Word) : (s.bumpFlagP f d).settled = s.settled := by
  obtain ⟨b, hstk⟩ := bumpFlagP_stk s f d
  rw [bumpFlagP_eq, hstk]
  rfl
theorem flagAdd_permitted {s : State} {t f : Nat} (h : s.mayUseFlag t f = true) (d : Word) : s.flagAdd t f d = s.bumpFlagP f d := if_pos h
theorem flagAdd_refused {s : State} {t f : Nat} (h : s.mayUseFlag t f = false) (d : Word) :
    s.flagAdd t f d = { s with flg := { s.flg with drops := s.flg.drops + 1 } } := if_neg (by simp [h])
theorem flagRemote_permitted {s : State} {t f : Nat} (h : s.mayUseFlag t f = true) (d : Word) : s.flagRemote t f d = (s.bumpFlagP f d, 0) := if_pos h
theorem flagRemote_refused {s : State} {t f : Nat} (h : s.mayUseFlag t f = false) (d : Word) : s.flagRemote t f d = (s, 7) := if_neg (by simp [h])

/-! ### The head packet of a receive buffer -/

theorem popRx_eq_taken {s : State} {l v : Nat} {p : Packet} {rest : List Packet} (h : get [] v (s.gate l).rx = p :: rest) : s.popRx l v = s.taken l v rest := by
  rw [State.popRx, State.taken, upd, h, List.tail_cons]
section
variable {s : State} {l v op : Nat} {p : Packet} {rest : List Packet} (h : s.rxHead l v op p rest)
include h
theorem rxHead_ours : s.ours op p = true := by
  obtain ⟨-, -, hop, hdst, -⟩ := h
  simp [State.ours, hop, hdst]
theorem headRx_of_rxHead (halted : Bool) (f : Packet → Bool) : s.headRx l v halted f = if f p then some p else none := by
  obtain ⟨hrx, hmov, -, -, hrun⟩ := h
  simp only [State.headRx, hrx, hmov, hrun, List.isEmpty_nil, Bool.not_false, Bool.or_true, Bool.and_true]
theorem takeRx_of_rxHead {halted : Bool} {f : Packet → Bool} (hf : f p = true) : s.takeRx l v halted f = some (p, s.taken l v rest) := by
  rw [State.takeRx, headRx_of_rxHead h, if_pos hf, Option.map_some, popRx_eq_taken h.1]
theorem takeRx_none_of_rxHead {halted : Bool} {f : Packet → Bool} (hf : f p = false) : s.takeRx l v halted f = none := by
  rw [State.takeRx, headRx_of_rxHead h, if_neg (by simp [hf]), Option.map_none]
theorem onPacket_taken (hb : s.behindWrite p = false) (f : State → Packet → State) : s.onPacket l v op f = f (s.taken l v rest) p := by
  rw [State.onPacket, takeRx_of_rxHead h (by simp [rxHead_ours h, hb])]
theorem onPacket_waits (hb : s.behindWrite p = true) (f : State → Packet → State) : s.onPacket l v op f = s := by
  rw [State.onPacket, takeRx_none_of_rxHead h (by simp [hb])]
theorem onHead_head (hb : s.behindWrite p = false) (f : State → Packet → State) : s.onHead l v op f = f s p := by
  rw [State.onHead, headRx_of_rxHead h, if_pos (by simp [rxHead_ours h, hb])]
theorem onHead_waits (hb : s.behindWrite p = true) (f : State → Packet → State) : s.onHead l v op f = s := by
  rw [State.onHead, headRx_of_rxHead h, if_neg (by simp [hb])]
end
@[simp] theorem settled_taken (s : State) (l v : Nat) (rest : List Packet) : (s.taken l v rest).settled = s.settled := rfl

/-! ### Answers to packets -/

/-- A packet that leaves from a gate changes gates or what leaves its quarter for a gate; from the mantel, what leaves the mantel. -/
theorem carry_gate {u : Nat} (hu : u < 20) (s : State) (l vc : Nat) (p : Packet) :
    s.carry u l vc p = { s with gates := (s.carry u l vc p).gates, ranges := (s.carry u l vc p).ranges } := by
  unfold State.carry
  split
  · rfl
  · extract_lets
    rfl
theorem respond_gate {u : Nat} (hu : u < 20) {s : State} {p : Packet} (hsrc : p.src ≠ s.rt.chip) (st : Nat) (fl : List (Bytes × Bool)) :
    s.respond u p st fl = { s with gates := (s.respond u p st fl).gates, ranges := (s.respond u p st fl).ranges, rt := (s.respond u p st fl).rt } := by
  unfold State.respond
  rw [if_neg hsrc]
  extract_lets r
  clear_value r
  split
  · rw [carry_gate hu]
  · rfl
theorem accept_gate {u : Nat} (hu : u < 20) {s : State} {p : Packet} (hsrc : p.src ≠ s.rt.chip) :
    s.accept u p = { s with gates := (s.accept u p).gates, ranges := (s.accept u p).ranges, rt := (s.accept u p).rt } := by
  unfold State.accept
  split
  · rw [respond_gate hu hsrc]
  · rfl
/-- What a request's answer changes: gates, ranges, and the counters of the routes. -/
theorem settleReq_gate {u : Nat} (hu : u < 20) {s : State} {p : Packet} (hsrc : p.src ≠ s.rt.chip) (c : Nat) : State.settleReq (s, c) u p =
    { s with gates := (State.settleReq (s, c) u p).gates, ranges := (State.settleReq (s, c) u p).ranges, rt := (State.settleReq (s, c) u p).rt } := by
  unfold State.settleReq
  split
  · exact accept_gate hu hsrc
  · exact respond_gate hu hsrc c []

/-- Settles O38: the increment is judged by the tenant's flags, and its answer changes neither flags nor the stoker. -/
theorem flagIncrements : Obligations.FlagIncrements := by
  unfold Obligations.FlagIncrements
  intro l v s p rest hset _ hflags hhead hsrc
  refine ⟨fun hb => ?waits, fun hb => ?arrives⟩
  case waits =>
    change (s.onPacket l.val v.val opFlagInc fun s p => s.rxFlagInc l.val p).ends = _
    rw [onPacket_waits hhead hb, ends_settled s hset]
  case arrives =>
    obtain ⟨s1, hs1⟩ : ∃ x, x = (s.taken l v rest).flagRemote p.tenant p.arg0 (BitVec.ofNat 32 p.arg1) := ⟨_, rfl⟩
    have hexec : exec (.flaginc l v) s = (State.settleReq s1 l p).ends := by
      change (s.onPacket l.val v.val opFlagInc fun s p => s.rxFlagInc l.val p).ends = _
      rw [onPacket_taken hhead hb, hs1]
      rfl
    have hjudge : (s.taken l v rest).mayUseFlag p.tenant p.arg0 = s.mayUseFlag p.tenant p.arg0 := rfl
    cases hmay : s.mayUseFlag p.tenant p.arg0 with
    | true =>
      rw [flagRemote_permitted (hjudge.trans hmay)] at hs1
      obtain ⟨b, hstk⟩ := bumpFlagP_stk (s.taken l v rest) p.arg0 (BitVec.ofNat 32 p.arg1)
      have hbump := bumpFlagP_eq (s.taken l v rest) p.arg0 (BitVec.ofNat 32 p.arg1)
      have hflag g := flag_bumpFlagP (s := s.taken l v rest) hflags p.arg0 g (BitVec.ofNat 32 p.arg1)
      have hsettled := (settled_bumpFlagP (s.taken l v rest) p.arg0 (BitVec.ofNat 32 p.arg1)).trans hset
      generalize (s.taken l v rest).bumpFlagP p.arg0 (BitVec.ofNat 32 p.arg1) = x at hs1 hstk hbump hflag hsettled
      have hreq := settleReq_gate (u := l) l.isLt (s := x) (p := p) (by rw [hbump]; exact hsrc) 0
      rw [hexec, hs1]
      generalize State.settleReq (x, 0) l p = y at hreq
      refine ⟨y, ends_settled y (by rw [hreq]; exact hsettled), ?_, ?_, fun f hf => ?_, fun h => by simp at h⟩
      · rw [hreq, hbump]; rfl
      · rw [hreq, if_pos rfl]
        exact (hflag p.arg0).trans (if_pos rfl)
      · rw [hreq]
        exact (hflag f).trans (if_neg hf)
    | false =>
      rw [flagRemote_refused (hjudge.trans hmay)] at hs1
      have hreq := settleReq_gate (u := l) l.isLt (s := s.taken l v rest) (p := p) hsrc 7
      rw [hexec, hs1]
      generalize State.settleReq (s.taken l v rest, 7) l p = y at hreq
      refine ⟨y, ends_settled y (by rw [hreq]; exact hset), ?_, ?_, fun f hf => ?_, fun _ => ?_⟩
      · rw [hreq]; rfl
      · rw [hreq, if_neg (by decide)]; rfl
      · rw [hreq]; rfl
      · rw [hreq]; exact ⟨rfl, rfl⟩

/-! ### Requests to staging blocks -/

theorem popMantel_eq {s : State} {f : Load → Bool} {ld : Load} (hon : s.mantelOff = false) (hfind : s.mantel.find? f = some ld) :
    s.popMantel f = some (ld, { s with mantel := s.mantel.eraseP f }) := by
  rw [State.popMantel, if_neg (by simp [hon]), hfind, Option.map_some]
/-- The acknowledgement with which the mantel answers a load. -/
def Load.ackFor (l : Load) (status : Nat) : Load := { l with kind := .ack, dq := l.sq, ds := l.ss, sq := 4, ss := 0, data := [], poi := [], status := status }
theorem answer_ack (s : State) (l : Load) (status : Nat) : s.answer l status .ack [] [] = { s with mantelOut := s.mantelOut ++ [l.ackFor status] } := rfl
section
variable {s s1 : State} {op : Nat} {ld : Load} (hon : s.mantelOff = false) (hfind : s.mantel.find? (fun z => s.kindAt z.addr == 5 && le z.data 8 1 == op) = some ld)
  (hs1 : s1 = { s with mantel := s.mantel.eraseP fun z => s.kindAt z.addr == 5 && le z.data 8 1 == op })
include hon hfind hs1
theorem stagingRequest_good (hj : s.judgeStaging ld.tenant ld.data = 0) (f : State → Load → State) : s.stagingRequest op f = (f s1 ld).answer ld 0 .ack [] [] := by
  have hj1 : s1.judgeStaging ld.tenant ld.data = 0 := by rw [hs1]; exact hj
  unfold State.stagingRequest
  rw [popMantel_eq hon hfind, ← hs1]
  split
  · next hnone => cases hnone
  · next hsome =>
    cases hsome
    rw [hj1]
    rfl
theorem stagingRequest_bad (hj : s.judgeStaging ld.tenant ld.data ≠ 0) (f : State → Load → State) :
    s.stagingRequest op f = s1.answer ld (s.judgeStaging ld.tenant ld.data) .ack [] [] := by
  have hj1 : s1.judgeStaging ld.tenant ld.data = s.judgeStaging ld.tenant ld.data := by rw [hs1]; rfl
  unfold State.stagingRequest
  rw [popMantel_eq hon hfind, ← hs1]
  split
  · next hnone => cases hnone
  · next hsome =>
    cases hsome
    rw [hj1]
    split
    · next h0 => exact absurd h0 hj
    · rfl
end
theorem emptyBlock_stage {s : State} (h : SMapWf ((0, 0) : Nat × Nat) s.stage = true) (b k : Nat) :
    get (0, 0) k (s.emptyBlock b).stage = if k = b then (0, 0) else get (0, 0) k s.stage := by
  change get (0, 0) k (put (0, 0) b (0, 0) s.stage) = _
  split
  · next he => rw [he]; exact get_put_self _ _ _ _ h
  · next hne => exact get_put_ne _ _ _ _ _ h hne
theorem stageConfirm_full {s : State} {d : Bytes} (h : get (0, 0) (stagingBlock (le d 0 8)) s.stage = (1, 0xFFFFFFFF)) (t : Nat) :
    s.stageConfirm t d = ({ s with stage := put (0, 0) (stagingBlock (le d 0 8)) (2, 0xFFFFFFFF) s.stage }).flagAdd t (le d 10 2) 1 := by
  unfold State.stageConfirm
  simp only [h, and_self, if_true]
theorem stageConfirm_other {s : State} {d : Bytes} (h : get (0, 0) (stagingBlock (le d 0 8)) s.stage ≠ (1, 0xFFFFFFFF)) (t : Nat) :
    s.stageConfirm t d = s.emptyBlock (stagingBlock (le d 0 8)) := by
  unfold State.stageConfirm
  exact if_neg fun hx => h (Prod.ext hx.1 hx.2)

/-- Settles O41: the request at the head is judged; a full block is confirmed, and any other emptied. -/
theorem stagingBlocks : Obligations.StagingBlocks := by
  unfold Obligations.StagingBlocks
  intro s s1 ld ack op blk hset _ hon hstage hflags hfind hblk hs1 hack
  have hset1 : s1.settled = true := by rw [hs1]; exact hset
  have hblk' : stagingBlock (le ld.data 0 8) = blk := hblk.symm
  have hack0 (h : s.judgeStaging ld.tenant ld.data = 0) : ack = ld.ackFor 0 := by rw [hack, h]; rfl
  have hconfirm (h1 : op = 1) (hj : s.judgeStaging ld.tenant ld.data = 0) {x : State} (hx : s1.stageConfirm ld.tenant ld.data = x) (hxset : x.settled = true) :
      exec .stagingConfirm s = .next { x with mantelOut := x.mantelOut ++ [ack] } := by
    subst h1
    change (s.stagingRequest 1 fun s l => s.stageConfirm l.tenant l.data).ends = _
    rw [stagingRequest_good hon hfind hs1 hj, hx, answer_ack, hack0 hj]
    exact ends_settled _ hxset
  have hstage1 : s1.stage = s.stage := by rw [hs1]
  have hwf1 : SMapWf ((0, 0) : Nat × Nat) s1.stage = true := by rw [hstage1]; exact hstage
  have hout1 : s1.mantelOut = s.mantelOut := by rw [hs1]
  have hempty : (s1.emptyBlock blk).settled = true ∧ get (0, 0) blk (s1.emptyBlock blk).stage = (0, 0) ∧
      ∀ b, b ≠ blk → get (0, 0) b (s1.emptyBlock blk).stage = get (0, 0) b s.stage := by
    refine ⟨hset1, by rw [emptyBlock_stage hwf1, if_pos rfl], fun b hb => ?_⟩
    rw [emptyBlock_stage hwf1, if_neg hb, hstage1]
  obtain ⟨hemptyset, hemptyblk, hemptyrest⟩ := hempty
  refine ⟨fun h1 hj hfull => ?full, fun h1 hj hother => ?other, fun h2 hj => ?release, fun hj => ⟨fun h1 => ?bad1, fun h2 => ?bad2⟩⟩
  case full =>
    have hx := stageConfirm_full (s := s1) (d := ld.data) (by rw [hblk', hstage1, hfull]) ld.tenant
    rw [hblk'] at hx
    obtain ⟨s2, hs2⟩ : ∃ x : State, x = { s1 with stage := put (0, 0) blk (2, 0xFFFFFFFF) s1.stage } := ⟨_, rfl⟩
    rw [← hs2] at hx
    have hset2 : s2.settled = true := by rw [hs2]; exact hset1
    have hblk2 : get (0, 0) blk s2.stage = (2, 0xFFFFFFFF) := by rw [hs2]; exact get_put_self _ _ _ _ hwf1
    have hrest2 b (hb : b ≠ blk) : get (0, 0) b s2.stage = get (0, 0) b s.stage := by
      rw [hs2, ← hstage1]; exact get_put_ne _ _ _ _ _ hwf1 hb
    have hmay2 : s2.mayUseFlag ld.tenant (le ld.data 10 2) = s.mayUseFlag ld.tenant (le ld.data 10 2) := by rw [hs2, hs1]; rfl
    have hkeep2 : s2.flg = s.flg ∧ s2.mantelOut = s.mantelOut ∧ s2.mem = s.mem := by rw [hs2, hs1]; exact ⟨rfl, rfl, rfl⟩
    obtain ⟨hflg2, hout2, hmem2⟩ := hkeep2
    cases hmay : s.mayUseFlag ld.tenant (le ld.data 10 2) with
    | true =>
      rw [flagAdd_permitted (hmay2.trans hmay)] at hx
      have hflag := flag_bumpFlagP (s := s2) (by rw [hflg2]; exact hflags) (le ld.data 10 2) (le ld.data 10 2) 1
      rw [if_pos rfl] at hflag
      refine ⟨_, hconfirm h1 hj hx ((settled_bumpFlagP ..).trans hset2), ?_, fun _ => hflag.trans ?_, fun h => by simp at h, fun b hb => ?_, ?_, ?_⟩
      · rw [bumpFlagP_eq]; exact hblk2
      · simp only [State.flag, hflg2]
      · rw [bumpFlagP_eq]; exact hrest2 b hb
      · rw [bumpFlagP_eq, ← hout2]
      · rw [bumpFlagP_eq]; exact hmem2
    | false =>
      rw [flagAdd_refused (hmay2.trans hmay)] at hx
      exact ⟨_, hconfirm h1 hj hx hset2, hblk2, fun h => by simp at h, fun _ => congrArg (·.val) hflg2, hrest2, by rw [← hout2], hmem2⟩
  case other =>
    have hx := stageConfirm_other (s := s1) (d := ld.data) (by rw [hblk', hstage1]; exact hother) ld.tenant
    rw [hblk'] at hx
    refine ⟨_, hconfirm h1 hj hx hemptyset, ?_, hemptyblk, hemptyrest⟩
    rw [← hout1]; rfl
  case release =>
    subst h2
    refine ⟨{ s1.emptyBlock blk with mantelOut := s1.mantelOut ++ [ack] }, ?_, ?_, hemptyblk, hemptyrest⟩
    · change (s.stagingRequest 2 fun s l => s.stageRelease l.data).ends = _
      rw [stagingRequest_good hon hfind hs1 hj, answer_ack, hack0 hj, State.stageRelease, hblk']
      exact ends_settled _ hemptyset
    · rw [← hout1]; rfl
  case bad1 =>
    subst h1
    change (s.stagingRequest 1 fun s l => s.stageConfirm l.tenant l.data).ends = _
    rw [stagingRequest_bad hon hfind hs1 hj, answer_ack, hack, hout1]
    exact ends_settled _ hset1
  case bad2 =>
    subst h2
    change (s.stagingRequest 2 fun s l => s.stageRelease l.data).ends = _
    rw [stagingRequest_bad hon hfind hs1 hj, answer_ack, hack, hout1]
    exact ends_settled _ hset1

end Sys2Proof.Machine
end

section
/-! Packets that units of the mantel send, and messages of the part's own units (R105, R215, R312, R477). -/
namespace Sys2Proof.Machine

theorem exitFor_lt {s : State} {cls chip vc n w : Nat} (h : s.exitFor cls chip vc = some (n, w)) : n < 20 := by
  unfold State.exitFor at h
  extract_lets e pri pv alt av at h
  split at h
  · next hp =>
    have hn : pri = n := congrArg (·.1) (Option.some.inj h)
    rw [← hn]
    exact of_decide_eq_true (Bool.and_eq_true_iff.mp hp).1
  · split at h
    · next ha =>
      have hn : alt = n := congrArg (·.1) (Option.some.inj h)
      rw [← hn]
      exact of_decide_eq_true (Bool.and_eq_true_iff.mp (Bool.and_eq_true_iff.mp ha).1).2
    · cases h
/-- What a unit of the mantel sends leaves it in one load. -/
theorem carry_mantel {s : State} {l : Nat} (hl : l < 20) (vc : Nat) (p : Packet) :
    s.carry atMantel l vc p = { s with mantelOut := s.mantelOut ++ [packetLoad l vc .own p] } := by
  have hne : atMantel ≠ l := by unfold atMantel; omega
  unfold State.carry
  rw [if_neg hne]
  rfl
/-- A packet as its unit sends it: the part's chip, partition and hops. -/
def State.stamped (s : State) (p : Packet) : Packet := { p with src := s.rt.chip, part := if p.op = opMgmt then 0xF else s.rt.part, hops := s.rt.hopLimit }
theorem sendOwn_exit {s : State} {p : Packet} {n w : Nat} (hunit : p.sunit / 32 ≠ 1) (hdst : p.dst ≠ s.rt.chip)
    (hexit : s.exitFor (opClass p.op) p.dst p.vc = some (n, w)) :
    s.sendOwn p = { s with mantelOut := s.mantelOut ++ [packetLoad n w .own (s.stamped p)] } := by
  have hchoose : s.chooseExit (s.stamped p) = some (n, w) := hexit
  have hdst' : (s.stamped p).dst ≠ s.rt.chip := hdst
  rw [State.sendOwn, if_neg hunit]
  change (if (s.stamped p).dst = s.rt.chip then _ else match s.chooseExit (s.stamped p) with | some (l, vc) => s.carry atMantel l vc (s.stamped p) | none => s.noExitOwn (s.stamped p)) = _
  rw [if_neg hdst', hchoose]
  exact carry_mantel (exitFor_lt hexit) w _
theorem sendOwn_noExit {s : State} {p : Packet} (hunit : p.sunit / 32 ≠ 1) (hdst : p.dst ≠ s.rt.chip) (hexit : s.exitFor (opClass p.op) p.dst p.vc = none) :
    s.sendOwn p = s.noExitOwn (s.stamped p) := by
  have hchoose : s.chooseExit (s.stamped p) = none := hexit
  have hdst' : (s.stamped p).dst ≠ s.rt.chip := hdst
  rw [State.sendOwn, if_neg hunit]
  change (if (s.stamped p).dst = s.rt.chip then _ else match s.chooseExit (s.stamped p) with | some (l, vc) => s.carry atMantel l vc (s.stamped p) | none => s.noExitOwn (s.stamped p)) = _
  rw [if_neg hdst', hchoose]

/-! ### Messages of the part's own units change channels, aborts, and what leaves the mantel -/

/-- From `a` to `s` only channels, decided aborts, the event log and its registers, and what leaves the mantel changed. -/
structure SameButMessages (a s : State) : Prop where
  rest : s = { a with flg := s.flg, stk := s.stk, svc := s.svc, com := s.com, out := s.out, mantelOut := s.mantelOut }
  flg : s.flg = { a.flg with chans := s.flg.chans }
  stk : s.stk = { a.stk with aborts := s.stk.aborts }
  mode : s.svc.mode = a.svc.mode
theorem SameButMessages.refl (a : State) : SameButMessages a a := ⟨rfl, rfl, rfl, rfl⟩
theorem SameButMessages.trans {a b c : State} (h : SameButMessages a b) (g : SameButMessages b c) : SameButMessages a c where
  rest := by rw [g.rest, h.rest]
  flg := by rw [g.flg, h.flg]
  stk := by rw [g.stk, h.stk]
  mode := g.mode.trans h.mode
theorem SameButMessages.foldl {α : Type} {f : State → α → State} (hf : ∀ s x, SameButMessages s (f s x)) (l : List α) (s : State) : SameButMessages s (l.foldl f s) := by
  induction l generalizing s with
  | nil => exact .refl s
  | cons x l ih => exact (hf s x).trans (ih _)
theorem setChan_sameButMessages (s : State) (c : Nat) (x : Channel) : SameButMessages s (s.setChan c x) := ⟨rfl, rfl, rfl, rfl⟩
theorem mantelSend_sameButMessages (s : State) (l : List Load) : SameButMessages s (s.mantelSend l) := ⟨rfl, rfl, rfl, rfl⟩
theorem log_sameButMessages (s : State) (code : Nat) (cls : EClass) (src : Src) (t : Option Nat) (args : List Nat) : SameButMessages s (s.log code cls src t args) where
  rest := by rw [log_rest]
  flg := by simp
  stk := by simp
  mode := by simp
theorem decideAbort_sameButMessages (s : State) (t reason : Nat) : SameButMessages s (s.decideAbort t reason) := ⟨rfl, rfl, rfl, rfl⟩
theorem poisonChan_sameButMessages (s : State) (c : Nat) : SameButMessages s (s.poisonChan c) := by
  have hconsume (u : State) (t p : Nat) : SameButMessages u (u.consumePoison t p) := by
    unfold State.consumePoison
    split
    · exact .refl u
    · exact (decideAbort_sameButMessages ..).trans (log_sameButMessages ..)
  exact (setChan_sameButMessages ..).trans (hconsume ..)
theorem msgArrive_sameButMessages (s : State) (c chip unit tag : Nat) (t : Option Nat) (mlines o : Nat) (ls : List (Bytes × Bool)) :
    SameButMessages s (s.msgArrive c chip unit tag t mlines o ls).1 := by
  have hmarked (u : State) (poi : Bool) : SameButMessages u (if poi then u.poisonChan c else u) := by
    split
    · exact poisonChan_sameButMessages u c
    · exact .refl u
  unfold State.msgArrive
  extract_lets x poi code slot m s1 s2 f
  split
  · split
    · exact setChan_sameButMessages ..
    · exact ((setChan_sameButMessages ..).trans (mantelSend_sameButMessages ..)).trans (hmarked s2 poi)
  · split
    · exact setChan_sameButMessages ..
    · split
      · exact setChan_sameButMessages ..
      · exact ((setChan_sameButMessages ..).trans (mantelSend_sameButMessages ..)).trans (hmarked _ poi)
theorem flush_sameButMessages (s : State) : SameButMessages s s.flush := by
  unfold State.flush
  extract_lets es
  refine .trans (b := { s with svc := { s.svc with toMirror := [] } }) ⟨rfl, rfl, rfl, rfl⟩ (SameButMessages.foldl (fun u e => ?_) _ _)
  have hmsg := msgArrive_sameButMessages u u.svc.mirrorChan u.rt.chip sunitService 0 none 1 0 [(fit 64 (mirrorBytes u.rt.chip e), false)]
  split
  next s1 code hown =>
    have hs1 : SameButMessages u s1 := by rw [State.ownMsg] at hown; rw [hown] at hmsg; exact hmsg
    split
    · exact hs1
    · exact hs1.trans ⟨rfl, rfl, rfl, rfl⟩

/-! ### The end of a command that has logged events -/

/-- Nothing but logged entries for the mirror channel waits for the end of the command. -/
def State.settledButMirror (s : State) : Bool := ({ s with svc := { s.svc with toMirror := [] } } : State).settled
theorem settledButMirror_iff (s : State) : s.settledButMirror = true ↔
    s.trn.home = [] ∧ s.trn.chg = [] ∧ s.stk.openEpoch = none ∧ s.boot.work = [] ∧ s.goingDown = false ∧ s.loopback = [] ∧
      (!s.pwr.simmer || s.pwr.exiting.isSome) = true := by
  rw [State.settledButMirror, settled_iff]
  exact ⟨fun ⟨h1, h2, h3, h4, _, h6, h7, h8⟩ => ⟨h1, h2, h3, h4, h6, h7, h8⟩, fun ⟨h1, h2, h3, h4, h6, h7, h8⟩ => ⟨h1, h2, h3, h4, rfl, h6, h7, h8⟩⟩
theorem settledButMirror_of_settled {s : State} (h : s.settled = true) : s.settledButMirror = true := by
  obtain ⟨h1, h2, h3, h4, -, h6, h7, h8⟩ := (settled_iff s).mp h
  exact (settledButMirror_iff s).mpr ⟨h1, h2, h3, h4, h6, h7, h8⟩
theorem SameButMessages.settledButMirror {a s : State} (h : SameButMessages a s) (ha : a.settledButMirror = true) : s.settledButMirror = true := by
  obtain ⟨h1, h2, h3, h4, h6, h7, h8⟩ := (settledButMirror_iff a).mp ha
  have hdown : s.goingDown = a.goingDown := by
    rw [State.goingDown, State.goingDown, h.mode, h.rest]
  rw [settledButMirror_iff, hdown, h.stk, h.rest]
  exact ⟨h1, h2, h3, h4, h6, h7, h8⟩
/-- The end of such a command sends the mirror messages and does nothing else. -/
theorem ends_settledButMirror {s : State} (h : s.settledButMirror = true) : s.ends = .next s.flush := by
  have hflush := (flush_sameButMessages s).settledButMirror h
  obtain ⟨h1, h2, h3, h4, h6, h7, h8⟩ := (settledButMirror_iff s).mp h
  obtain ⟨-, -, -, -, -, hloop, hexit⟩ := (settledButMirror_iff s.flush).mp hflush
  have hshut : s.shutdown = s := by simp [State.shutdown, h6]
  have hdone : s.done = s.flush := by
    simp only [State.done, transHome_quiet s h1, triggers_quiet s h2, closeEpoch_quiet s h3, h4, List.map_nil, List.sum_nil, State.answerUnknown,
      List.length_nil, State.sendReplies]
  rw [State.ends, deliverLocal_quiet s 4 h7, hshut, hdone, deliverLocal_quiet _ 4 hloop, decideExit_quiet _ hexit]

end Sys2Proof.Machine
end

section
/-! The stall protocol: epochs, reports, polls and their answers (R188 to R190). -/
namespace Sys2Proof.Machine

/-! ### Sending stall messages -/

/-- From `a` to `s` only stall messages were sent to other chips: loads left the mantel, discards were counted, and a member that cannot be reached has answered. -/
structure Polled (a s : State) : Prop where
  rest : s = { a with stk := { a.stk with answers := s.stk.answers }, rt := s.rt, mantelOut := s.mantelOut }
  chip : s.rt.chip = a.rt.chip
  wf : SMapWf (none : Option Answer) a.stk.answers = true → SMapWf (none : Option Answer) s.stk.answers = true
  own : SMapWf (none : Option Answer) a.stk.answers = true → get none a.rt.chip s.stk.answers = get none a.rt.chip a.stk.answers
theorem Polled.refl (a : State) : Polled a a := ⟨rfl, rfl, id, fun _ => rfl⟩
theorem Polled.trans {a b c : State} (h : Polled a b) (g : Polled b c) : Polled a c where
  rest := by rw [g.rest, h.rest]
  chip := g.chip.trans h.chip
  wf := fun ha => g.wf (h.wf ha)
  own := fun ha => by rw [← h.chip, g.own (h.wf ha), h.chip, h.own ha]
/-- A packet that has left a receive buffer leaves the exits as they are. -/
theorem exitFor_taken {s : State} (hcanon : s.canon = true) (l v : Nat) (rest : List Packet) (cls chip vc : Nat) :
    (s.taken l v rest).exitFor cls chip vc = s.exitFor cls chip vc := by
  have husable (n w : Nat) : ((s.taken l v rest).gate n).usable w = (s.gate n).usable w := by
    by_cases hn : n = l
    · rw [hn, State.taken, gate_setGate hcanon]; rfl
    · rw [State.taken, gate_setGate_ne hcanon _ hn]
  unfold State.exitFor
  simp only [husable]
  rfl
theorem sendStall_exit {s : State} {dst n w : Nat} (hdst : dst ≠ s.rt.chip) (hexit : s.exitFor 3 dst 3 = some (n, w)) (ty st : Nat) (epoch rid : Word) :
    s.sendStall dst ty st epoch rid = { s with mantelOut := s.mantelOut ++ [packetLoad n w .own (s.stamped { op := opStallp, vc := 3, dst := dst, tag := if ty = 2 then dst else 0x100, sunit := sunitStoker, flits := [(stallFlit ty st s.rt.chip epoch rid, false)] })] } :=
  sendOwn_exit (p := { op := opStallp, vc := 3, dst := dst, tag := if ty = 2 then dst else 0x100, sunit := sunitStoker, flits := [(stallFlit ty st s.rt.chip epoch rid, false)] })
    (show sunitStoker / 32 ≠ 1 by decide) hdst hexit
theorem noExitOwn_fails {s : State} {p : Packet} (hop : ¬(p.op = opResp ∨ p.op = opMgmt ∨ p.op = opDwrite)) :
    s.noExitOwn p = State.unitFail { s with rt := { s.rt with noexit := s.rt.noexit + 1 } } p.sunit p.tag 0x21 := if_neg hop
theorem sendStall_polled {s : State} {dst : Nat} (hdst : dst ≠ s.rt.chip) (ty st : Nat) (epoch rid : Word) : Polled s (s.sendStall dst ty st epoch rid) := by
  unfold State.sendStall
  generalize hp : ({ op := opStallp, vc := 3, dst := dst, tag := if ty = 2 then dst else 0x100, sunit := sunitStoker, flits := [(stallFlit ty st s.rt.chip epoch rid, false)] } : Packet) = p
  have hunit : p.sunit / 32 ≠ 1 := by rw [← hp]; change sunitStoker / 32 ≠ 1; decide
  have hdst' : p.dst ≠ s.rt.chip := by rw [← hp]; exact hdst
  cases hexit : s.exitFor (opClass p.op) p.dst p.vc with
  | some e => rw [sendOwn_exit (n := e.1) (w := e.2) hunit hdst' hexit]; exact ⟨rfl, rfl, id, fun _ => rfl⟩
  | none =>
    rw [sendOwn_noExit hunit hdst' hexit]
    rw [noExitOwn_fails (p := s.stamped p) (by rw [← hp]; change ¬(opStallp = opResp ∨ opStallp = opMgmt ∨ opStallp = opDwrite); decide), ← hp]
    change Polled s (State.unitFail { s with rt := { s.rt with noexit := s.rt.noexit + 1 } } sunitStoker (if ty = 2 then dst else 0x100) 0x21)
    generalize htag : (if ty = 2 then dst else 0x100) = tag
    change Polled s (if (0x21 : Nat) = 0x21 ∧ s.stk.openEpoch.isSome = true ∧ tag < 256 ∧ (get none tag s.stk.answers).isNone = true then _ else _)
    split
    · next hcond =>
      have htag' : tag = dst := by
        rw [← htag]
        split
        · rfl
        · next hne => rw [if_neg hne] at htag; omega
      exact ⟨rfl, rfl, fun h => put_wf h, fun h => get_put_ne _ _ _ _ _ h (by rw [htag']; exact Ne.symm hdst)⟩
    · exact ⟨rfl, rfl, id, fun _ => rfl⟩
theorem sendStalls_polled (s : State) {l : List Nat} (hl : ∀ c ∈ l, c ≠ s.rt.chip) (ty st : Nat) (epoch rid : Word) :
    Polled s (l.foldl (fun s c => s.sendStall c ty st epoch rid) s) := by
  induction l generalizing s with
  | nil => exact .refl s
  | cons c l ih =>
    have hsend := sendStall_polled (hl c List.mem_cons_self) ty st epoch rid
    exact hsend.trans (ih _ fun x hx => by rw [hsend.chip]; exact hl x (List.mem_cons_of_mem c hx))
theorem others_ne_chip (s : State) : ∀ c ∈ s.stk.members.filter (fun c => c != s.rt.chip), c ≠ s.rt.chip := fun _ hc => by simpa using (List.mem_filter.mp hc).2

/-! ### The policy and the close of an epoch -/

theorem decideAborts_sameButMessages (s : State) (ts : List Nat) : SameButMessages s (ts.foldl (fun s t => s.decideAbort t 1) s) :=
  .foldl (fun u t => decideAbort_sameButMessages u t 1) ts s
theorem applyPolicy_sameButMessages (s : State) (epoch : Word) : SameButMessages s (s.applyPolicy epoch) := by
  unfold State.applyPolicy
  extract_lets s1
  split
  · exact (log_sameButMessages ..).trans (decideAborts_sameButMessages ..)
  · exact log_sameButMessages ..
theorem aborting_decideAbort (s : State) (t reason u : Nat) : (s.decideAbort t reason).aborting u = (s.aborting u || t == u) := by
  unfold State.decideAbort State.aborting
  extract_lets l l'
  change l'.any (fun a => a.1 == u) = (l.any (fun a => a.1 == u) || t == u)
  simp only [l']
  split
  · next hin =>
    have hmap : (l.map fun a => if a.1 == t then (t, max a.2.1 reason, a.2.2) else a).any (fun a => a.1 == u) = l.any fun a => a.1 == u := by
      rw [List.any_map]
      congr 1
      funext a
      by_cases ha : a.1 = t <;> simp [ha]
    rw [hmap]
    by_cases htu : t = u
    · subst htu; simp [hin]
    · simp [htu]
  · simp
theorem aborting_decideAborts (s : State) (ts : List Nat) (u : Nat) : (ts.foldl (fun s t => s.decideAbort t 1) s).aborting u = (s.aborting u || ts.contains u) := by
  induction ts generalizing s with
  | nil => simp
  | cons t ts ih =>
    rw [List.foldl_cons, ih, aborting_decideAbort, List.contains_cons, Bool.or_assoc]
    congr 2
    exact Bool.eq_iff_iff.mpr (by rw [beq_iff_eq, beq_iff_eq]; exact eq_comm)
/-- A dead epoch is logged, told to the others, and the policy applied; any other only closes. -/
theorem closeEpoch_closes {s : State} {e : Word} (hopen : s.stk.openEpoch = some e) (hall : (s.stk.members.all fun c => (get none c s.stk.answers).isSome) = true) :
    ∃ k b c, b = { s with stk := k } ∧ k = { s.stk with openEpoch := none, epoch := e, lastAnswers := s.stk.answers, answers := [], lastAllStalled := k.lastAllStalled, stallMsg := false } ∧
      SameButMessages b c ∧ (s.closeEpoch = c ∨ ∃ d, Polled c d ∧ SameButMessages d s.closeEpoch) := by
  generalize hu : s.closeEpoch = u
  unfold State.closeEpoch at hu
  extract_lets k at hu
  split at hu
  · next hnone => rw [hopen] at hnone; cases hnone
  · next e' hsome =>
    obtain rfl : e = e' := Option.some.inj (hopen.symm.trans hsome)
    rw [if_pos hall] at hu
    extract_lets s1 s2 s3 at hu
    split at hu
    · refine ⟨_, s1, s2, rfl, rfl, log_sameButMessages .., Or.inr ⟨s3, sendStalls_polled s2 (fun c hc => ?_) .., hu ▸ applyPolicy_sameButMessages ..⟩⟩
      have hchip : s2.rt.chip = s.rt.chip := congrArg (·.chip) (log_rt s1 ..)
      rw [hchip]
      exact others_ne_chip s c hc
    · exact ⟨_, s1, s1, rfl, rfl, .refl s1, Or.inl hu.symm⟩

/-! ### The commands -/

/-- From `a` to `s` nothing of the epoch changed, and nothing that the end of a command would act on but logged entries. -/
structure EpochClosed (a s : State) : Prop where
  ever : s.stk.everOpened = a.stk.everOpened
  since : s.stk.sinceOpen = a.stk.sinceOpen
  openEpoch : s.stk.openEpoch = a.stk.openEpoch
  epoch : s.stk.epoch = a.stk.epoch
  stallMsg : s.stk.stallMsg = a.stk.stallMsg
  settledButMirror : a.settledButMirror = true → s.settledButMirror = true
theorem EpochClosed.refl (a : State) : EpochClosed a a := ⟨rfl, rfl, rfl, rfl, rfl, id⟩
theorem EpochClosed.trans {a b c : State} (h : EpochClosed a b) (g : EpochClosed b c) : EpochClosed a c where
  ever := g.ever.trans h.ever
  since := g.since.trans h.since
  openEpoch := g.openEpoch.trans h.openEpoch
  epoch := g.epoch.trans h.epoch
  stallMsg := g.stallMsg.trans h.stallMsg
  settledButMirror := fun ha => g.settledButMirror (h.settledButMirror ha)
theorem SameButMessages.epochClosed {a s : State} (h : SameButMessages a s) : EpochClosed a s :=
  ⟨by rw [h.stk], by rw [h.stk], by rw [h.stk], by rw [h.stk], by rw [h.stk], h.settledButMirror⟩
theorem Polled.epochClosed {a s : State} (h : Polled a s) : EpochClosed a s := by
  refine ⟨?_, ?_, ?_, ?_, ?_, fun ha => ?_⟩
  all_goals rw [h.rest]
  exact ha
theorem closeEpoch_missing {s : State} {c : Nat} (hc : c ∈ s.stk.members) (hmiss : get none c s.stk.answers = none) : s.closeEpoch = s := by
  unfold State.closeEpoch
  extract_lets k
  split
  · rfl
  · refine if_neg fun hall => ?_
    have hin := List.all_eq_true.mp hall c hc
    rw [show get none c k.answers = none from hmiss] at hin
    cases hin
/-- The end of a command that leaves an epoch open in which an answer is missing. -/
theorem ends_epochOpen {s : State} (h : s.settledBut = true) {c : Nat} (hc : c ∈ s.stk.members) (hmiss : get none c s.stk.answers = none) : s.ends = .next s := by
  obtain ⟨h1, h2, -, h4, h5, h6, h7, h8⟩ := (settled_iff _).mp h
  have hclose : s.closeEpoch = s := closeEpoch_missing hc hmiss
  have hshut : s.shutdown = s := by
    have h6' : s.goingDown = false := h6
    simp [State.shutdown, h6']
  have hdone : s.done = s := by
    have h4' : s.boot.work = [] := h4
    simp only [State.done, transHome_quiet s h1, triggers_quiet s h2, hclose, h4', List.map_nil, List.sum_nil, State.answerUnknown,
      List.length_nil, State.sendReplies, flush_quiet s h5]
  rw [State.ends, deliverLocal_quiet s 4 h7, hshut, hdone, deliverLocal_quiet s 4 h7, decideExit_quiet s h8]

/-- The end of a command in SIMMER that leaves no entry ready and no wake event. -/
theorem ends_pollAnswered {s : State} (h : ({ s with pwr := { s.pwr with simmer := false } } : State).settled = true)
    (hready : s.pwr.simmer = true → s.pwr.exiting = none → s.readyNow = false ∧ s.pwr.wakeEvt = false) : s.ends = .next s := by
  obtain ⟨h1, h2, h3, h4, h5, h6, h7, -⟩ := (settled_iff _).mp h
  have hshut : s.shutdown = s := by
    have h6' : s.goingDown = false := h6
    simp [State.shutdown, h6']
  have hexit : s.decideExit = s := by
    unfold State.decideExit
    split
    · next hdue =>
      simp only [Bool.and_eq_true, Bool.or_eq_true, Option.isNone_iff_eq_none, Bool.not_eq_true'] at hdue
      obtain ⟨⟨⟨⟨hs, he⟩, -⟩, -⟩, hr⟩ := hdue
      obtain ⟨hr1, hr2⟩ := hready hs he
      rw [hr1, hr2] at hr
      simp at hr
    · rfl
  rw [State.ends, deliverLocal_quiet s 4 h7, hshut, done_quiet (s := s) ⟨h1, h2, h3, h4, h5, h7⟩, deliverLocal_quiet s 4 h7, hexit]

/-- Settles O37: polls and answers by what the sends change (`Polled`), the close of an epoch by `closeEpoch_closes`, the policy by `aborting_decideAborts`. -/
theorem stallProtocol : Obligations.StallProtocol := by
  unfold Obligations.StallProtocol
  intro l v s p rest hcanon
  refine ⟨fun hset hmay hon => ?open_, fun hset hhead hty hlead hmem => ?stall, fun n w hset hready hon hrx hmov hop hdst hsrc hrun hty hexit => ?poll,
    fun c hset hhead hty hopen hmem hnone hwf hc hne hmiss => ?answer, fun hset hmirror hhead hty => ?deadlock⟩
  case open_ =>
    have hexec : exec .epochOpen s = s.openEpochNow.ends := by
      change (if s.mayOpen && !s.mantelOff then s.openEpochNow else s).ends = _
      rw [if_pos (by simp [hmay, hon])]
    obtain ⟨s1, hs1⟩ : ∃ x : State, x = { s with stk := { s.stk with openEpoch := some (s.stk.epoch + 1), answers := put none s.rt.chip (some s.ownAnswer) [], everOpened := true, sinceOpen := 0 } } := ⟨_, rfl⟩
    obtain ⟨s2, hs2⟩ : ∃ x : State, x = (s.stk.members.filter fun c => c != s.rt.chip).foldl (fun t c => t.sendStall c 2 0 (s.stk.epoch + 1) 0) s1 := ⟨_, rfl⟩
    have hnow : s.openEpochNow = s2.closeEpoch := by rw [hs2, hs1]; rfl
    have hpolled : Polled s1 s2 := by
      rw [hs2]
      exact sendStalls_polled s1 (fun c hc => by rw [hs1]; exact others_ne_chip s c hc) ..
    have hsettle1 : ({ s1 with stk := { s1.stk with openEpoch := none } } : State).settled = true := by
      obtain ⟨h1, h2, -, h4, h5, h6, h7, h8⟩ := (settled_iff s).mp hset
      rw [hs1, settled_iff]
      exact ⟨h1, h2, rfl, h4, h5, h6, h7, h8⟩
    have hstk2 : s2.stk = { s1.stk with answers := s2.stk.answers } := by rw [hpolled.rest]
    have hsettle2 : s2.settledBut = true := by
      rw [State.settledBut, hpolled.rest]
      exact hsettle1
    have hopen2 : s2.stk.openEpoch = some (s.stk.epoch + 1) := by rw [hstk2, hs1]
    have hever2 : s2.stk.everOpened = true ∧ s2.stk.sinceOpen = 0 ∧ s2.stk.stallMsg = s.stk.stallMsg := by rw [hstk2, hs1]; exact ⟨rfl, rfl, rfl⟩
    obtain ⟨hever, hsince, hmsg⟩ := hever2
    have hown : get none s.rt.chip s2.stk.answers = some s.ownAnswer := by
      have hchip : s1.rt.chip = s.rt.chip := by rw [hs1]
      have hwf : SMapWf (none : Option Answer) s1.stk.answers = true := by rw [hs1]; exact put_wf rfl
      have h := hpolled.own hwf
      rw [hchip] at h
      rw [h, hs1]
      exact get_put_self _ _ _ _ rfl
    rw [hexec, hnow]
    cases hall : s2.stk.members.all fun c => (get none c s2.stk.answers).isSome with
    | false =>
      obtain ⟨c, hc, hmiss⟩ := List.all_eq_false.mp hall
      have hmiss' : get none c s2.stk.answers = none := by simpa using hmiss
      have hclose : s2.closeEpoch = s2 := closeEpoch_missing hc hmiss'
      rw [hclose]
      exact ⟨s2, ends_epochOpen hsettle2 hc hmiss', hever, hsince, Or.inl ⟨hopen2, hown, hmsg⟩⟩
    | true =>
      obtain ⟨k, b, c, hb, hk, hbc, hrest⟩ := closeEpoch_closes hopen2 hall
      have hbset : b.settled = true := by
        obtain ⟨h1, h2, -, h4, h5, h6, h7, h8⟩ := (settled_iff _).mp hsettle2
        rw [hb, settled_iff]
        exact ⟨h1, h2, by rw [hk], h4, h5, h6, h7, h8⟩
      have hend : ∃ d, EpochClosed b d ∧ EpochClosed d s2.closeEpoch := by
        rcases hrest with heq | ⟨d, hpd, hd⟩
        · exact ⟨c, hbc.epochClosed, by rw [heq]; exact .refl c⟩
        · exact ⟨d, hbc.epochClosed.trans hpd.epochClosed, hd.epochClosed⟩
      obtain ⟨d, hbd, hdu⟩ := hend
      have hbu := hbd.trans hdu
      have huset := hbu.settledButMirror (settledButMirror_of_settled hbset)
      have hfin := hbu.trans (flush_sameButMessages s2.closeEpoch).epochClosed
      have hbstk : b.stk = k := by rw [hb]
      refine ⟨_, ends_settledButMirror huset, hfin.ever.trans ?_, hfin.since.trans ?_, Or.inr ⟨hfin.openEpoch.trans ?_, hfin.epoch.trans ?_, hfin.stallMsg.trans ?_⟩⟩
      all_goals rw [hbstk, hk]
      · exact hever
      · exact hsince
  case stall =>
    change (s.onStall l.val v.val false (fun t => !(t == 2 || t == 3 || t == 4)) fun s p => s.rxStall p).ends = _
    rw [State.onStall, takeRx_of_rxHead hhead (by simp [rxHead_ours hhead, hty])]
    change (State.rxStall (s.taken l v rest) p).ends = _
    rw [State.rxStall, if_pos ⟨hty, hlead, hmem⟩]
    exact ends_settled _ hset
  case poll =>
    have hours : s.ours opStallp p = true := by simp [State.ours, hop, hdst]
    have htake : s.takeRx l v (s.pwr.simmer && !s.mantelOff) (fun p => s.ours opStallp p && (fun t => t == 2) p.stallType) = some (p, s.taken l v rest) := by
      have hhalt : ((s.pwr.simmer && !s.mantelOff) || !(s.range (l / 5)).halted) = true := by rcases hrun with h | h <;> simp [h, hon]
      simp only [State.takeRx, State.headRx, hrx, hmov, hours, hty, hhalt, List.isEmpty_nil, Bool.and_true, beq_self_eq_true, if_true, Option.map_some]
      rw [popRx_eq_taken hrx]
    change (s.onStall l.val v.val (s.pwr.simmer && !s.mantelOff) (fun t => t == 2) fun s p => s.rxPoll p).ends = _
    rw [State.onStall, htake]
    change (State.rxPoll (s.taken l v rest) p).ends = _
    rw [State.rxPoll, sendStall_exit (s := s.taken l v rest) hsrc ((exitFor_taken hcanon ..).trans hexit)]
    exact ends_pollAnswered hset hready
  case answer =>
    have hfree : (get none p.src s.stk.answers).isNone = true := by rw [hnone]; rfl
    change (s.onStall l.val v.val false (fun t => t == 3) fun s p => s.rxAnswer p).ends = _
    rw [State.onStall, takeRx_of_rxHead hhead (by simp [rxHead_ours hhead, hty])]
    change (State.rxAnswer (s.taken l v rest) p).ends = _
    rw [State.rxAnswer]
    rw [if_pos ⟨hopen, hmem, hfree⟩]
    exact ends_epochOpen hset hc ((get_put_ne _ _ _ _ _ hwf hne).trans hmiss)
  case deadlock =>
    have hexec : exec (.deadlock l v) s = ((s.taken l v rest).applyPolicy (BitVec.ofNat 32 (le p.flit0 4 4))).ends := by
      change (s.onStall l.val v.val false (fun t => t == 4) fun s p => s.rxDeadlock p).ends = _
      rw [State.onStall, takeRx_of_rxHead hhead (by simp [rxHead_ours hhead, hty])]
      rfl
    have hmirror' : (s.taken l v rest).svc.mirrorEn = false := hmirror
    have hlogged args : ((s.taken l v rest).log 0x0304 .fabric .stoker none args).settled = true := (settled_log hmirror' ..).trans hset
    rw [hexec]
    by_cases hpol : s.stk.dlPolicy = 1
    · have happly : (s.taken l v rest).applyPolicy (BitVec.ofNat 32 (le p.flit0 4 4)) =
          ((s.stk.entries.filter fun e => e.2.state == .armed).map fun e => e.2.tenant).foldl (fun s t => s.decideAbort t 1)
            ((s.taken l v rest).log 0x0304 .fabric .stoker none [(BitVec.ofNat 32 (le p.flit0 4 4)).toNat, 1]) := if_pos hpol
      have hset' := (foldl_leaves State.settled (fun s t => (rfl : (s.decideAbort t 1).settled = s.settled))
        ((s.stk.entries.filter fun e => e.2.state == .armed).map fun e => e.2.tenant)
        ((s.taken l v rest).log 0x0304 .fabric .stoker none [(BitVec.ofNat 32 (le p.flit0 4 4)).toNat, 1])).trans (hlogged _)
      have hkeep {β : Type} (g : State → β) (hg : ∀ s k, g { s with stk := k } = g s) := foldl_leaves g (fun s t => hg s (s.decideAbort t 1).stk)
        ((s.stk.entries.filter fun e => e.2.state == .armed).map fun e => e.2.tenant)
        ((s.taken l v rest).log 0x0304 .fabric .stoker none [(BitVec.ofNat 32 (le p.flit0 4 4)).toNat, 1])
      rw [happly]
      refine ⟨_, ends_settled _ hset', (hkeep (·.svc.head) fun _ _ => rfl).trans (log_head ..), fun h => absurd hpol h, fun _ e he harmed => ?_,
        (hkeep (·.mem) fun _ _ => rfl).trans (log_mem ..), (hkeep (·.hobs) fun _ _ => rfl).trans (log_hobs ..), (hkeep (·.ranges) fun _ _ => rfl).trans (log_ranges ..)⟩
      rw [aborting_decideAborts, Bool.or_eq_true]
      exact Or.inr (List.contains_iff_mem.mpr (List.mem_map.mpr ⟨e, List.mem_filter.mpr ⟨he, by simp [harmed]⟩, rfl⟩))
    · have happly : (s.taken l v rest).applyPolicy (BitVec.ofNat 32 (le p.flit0 4 4)) =
          (s.taken l v rest).log 0x0304 .fabric .stoker none [(BitVec.ofNat 32 (le p.flit0 4 4)).toNat, s.stk.dlPolicy] := if_neg hpol
      rw [happly]
      exact ⟨_, ends_settled _ (hlogged _), log_head .., fun _ => log_stk .., fun h => absurd h hpol, log_mem .., log_hobs .., log_ranges ..⟩

end Sys2Proof.Machine
end

section
/-! A mover's write into hob SRAM, and the treatment of a gap in the array's work (R42, R67, R68, R123). -/
namespace Sys2Proof.Machine

/-! ### One line of hob SRAM -/

theorem sramLine_setSramLine {s : State} (hcanon : s.canon = true) (hpoi : SMapWf false s.linePoi = true) (h l : Nat) (b : Bytes) (p : Bool) :
    (s.setSramLine h l b p).sramLine h l = (fit 64 b, p) := by
  have hmem := readBytes_writeBytes s.mem (lineAddr h l) (fit 64 b) ((canon_iff s).mp hcanon).1
  rw [length_fit] at hmem
  exact Prod.ext hmem (get_put_self _ _ _ _ hpoi)
theorem readByte_setSramLine {s : State} (hcanon : s.canon = true) {h l a : Nat} (ha : a < lineAddr h l ∨ lineAddr h l + 64 ≤ a) (b : Bytes) (p : Bool) :
    readByte (s.setSramLine h l b p).mem a = readByte s.mem a :=
  readByte_writeBytes_out s.mem (lineAddr h l) a (fit 64 b) ((canon_iff s).mp hcanon).1 (by rw [length_fit]; exact ha)
/-- A write of one line: the line stands in SRAM and the acknowledgement waits at the hob's station. -/
theorem bufLine_write {s : State} {h i : Nat} {l : Load} (hi : (s.hob h).buf[i]? = some l) (hk : l.kind = .write) (hn : l.lines = 1) :
    s.bufLine h i = (s.setSramLine h (l.nextLine h) (l.data.take 64) (l.poi.headD false)).setHob h { s.hob h with
      buf := (s.hob h).buf.eraseIdx i,
      outLoads := (s.hob h).outLoads ++ [{ l with kind := .ack, dq := l.sq, ds := l.ss, sq := h / 8, ss := hobStation (h % 8), data := [], poi := [] }] } := by
  unfold State.bufLine
  simp only [hi, hk, hn, Nat.le_refl, if_true]

/-- Settles O31: the access that is picked is one line's write (`bufLine_write`). -/
theorem bufferWrites : Obligations.BufferWrites := by
  unfold Obligations.BufferWrites
  intro h t s s1 s2 i l hadv hs2 hset hcanon hpoi hpick hi hk hn
  have hbank : ((s2.hob h).buf[i]?.map fun l => l.nextLine h).getD 0 = l.nextLine h := by rw [hi]; rfl
  obtain ⟨s3, hs3⟩ : ∃ x, x = s2.bufLine h i := ⟨_, rfl⟩
  have hline := hs3.trans (bufLine_write hi hk hn)
  have haccess : s2.bufAccess h t = s3.setHob h { s3.hob h with bankUse := put [] t (get [] t (s2.hob h).bankUse ++ [l.nextLine h % 48]) (s3.hob h).bankUse } := by
    unfold State.bufAccess
    simp only [hpick, hbank, ← hs3]
  have hcanon' : (s2.setSramLine h (l.nextLine h) (l.data.take 64) (l.poi.headD false)).canon = true :=
    keeps_setSramLine (z0 := s2) s2 h (l.nextLine h) (l.data.take 64) (l.poi.headD false) (keeps_refl s2) |>.2 hcanon
  have hhob : s3.hob h = { s2.hob h with buf := (s2.hob h).buf.eraseIdx i, outLoads := (s2.hob h).outLoads ++
      [{ l with kind := .ack, dq := l.sq, ds := l.ss, sq := h / 8, ss := hobStation (h % 8), data := [], poi := [] }] } := by
    rw [hline, hob_setHob hcanon']
  have hrest : s3 = { s2.setSramLine h (l.nextLine h) (l.data.take 64) (l.poi.headD false) with hobs := s3.hobs } := by rw [hline]; rfl
  have hcanon3 : s3.canon = true := by rw [hline]; exact canon_setHob hcanon' ..
  have hset3 : s3.settled = true := by rw [hrest]; exact hset
  obtain ⟨y, hy⟩ : ∃ y : Hob, y = { s3.hob h with bankUse := put [] t (get [] t (s2.hob h).bankUse ++ [l.nextLine h % 48]) (s3.hob h).bankUse } := ⟨_, rfl⟩
  rw [← hy] at haccess
  have hexec : exec (.moverBufferAccess h t) s = .next (s3.setHob h y) := by
    have hends : exec (.moverBufferAccess h t) s = (s2.bufAccess h t).ends := by
      simp only [exec, execMoverBufferAccess, hadv, ← hs2]
    have hset4 : (s3.setHob h y).settled = true := hset3
    rw [hends, haccess, ends_settled _ hset4]
  refine ⟨_, hexec, ?_, fun a ha => ?_, ?_, ?_, ?_, ?_⟩
  · have hkeep : (s3.setHob h y).sramLine h (l.nextLine h) = (s2.setSramLine h (l.nextLine h) (l.data.take 64) (l.poi.headD false)).sramLine h (l.nextLine h) := by
      rw [hrest]; rfl
    rw [hkeep, sramLine_setSramLine hcanon hpoi]
  · rw [State.setHob_mem, hrest]
    exact readByte_setSramLine hcanon ha (l.data.take 64) (l.poi.headD false)
  · rw [hob_setHob hcanon3, hy, hhob]
  · rw [State.setHob_ranges, hrest]; rfl
  · rw [State.setHob_gates, hrest]; rfl
  · rw [State.setHob_stk, hrest]; rfl

/-! ### Gaps -/

theorem quiet_held {s : State} (h : s.pwr.dampHold = true) (k g : Nat) : s.quiet k g = s := if_pos h
/-- A quiet interval changes only sinks. -/
theorem quiet_rest (s : State) (k g : Nat) : s.quiet k g = { s with pwr := { s.pwr with sinks := (s.quiet k g).pwr.sinks } } := by
  unfold State.quiet
  split <;> rfl
theorem settled_quiet (s : State) (k g : Nat) : (s.quiet k g).settled = s.settled := by
  rw [quiet_rest]
  rfl
/-- The mark of the bundle that the hob issues, where its C slot executes. -/
def Hob.gapMark (x : Hob) : Nat := match x.cur with | some iss => if get 0 6 iss.flt = 0 then cMark (slotC iss.bits) else 0 | none => 0
/-- The treatment of a gap by its mark, or by its length. -/
def gapWork (mark len ember : Nat) : GapWork := if mark = 2 then .ember else if mark = 3 then .damper else if len < ember then .ember else .damper
theorem gapWork_ember (len ember : Nat) : gapWork 2 len ember = .ember := rfl
theorem gapWork_damper (len ember : Nat) : gapWork 3 len ember = .damper := rfl
theorem gapWork_unmarked {mark : Nat} (h2 : mark ≠ 2) (h3 : mark ≠ 3) (len ember : Nat) :
    (gapWork mark len ember = .ember ↔ len < ember) ∧ (gapWork mark len ember = .damper ↔ ember ≤ len) := by
  rw [gapWork, if_neg h2, if_neg h3]
  split <;> simp <;> omega
/-- A gap that begins takes its treatment, and a sink its quiet interval where the damper or the program's end asks for one. -/
theorem gapStart_begins {s : State} {h t len : Nat} {final : Bool} (hphase : (s.range (h / 8)).phase = .run) (hcyc : (s.range (h / 8)).cyc = t)
    (hlast : ∀ e, (s.range (h / 8)).lastEffect = some e → t ≤ e) (hbusy : (s.hob h).busyTo = some (t - 1) ∧ t ≠ 0 ∨ (s.hob h).busyTo = none ∧ t = 0)
    (hocc : ((s.finishCycle (h / 8)).hob h).occupied t = false) (hend : s.gapEnd (h / 8) h s.beatLen 0 = (len, final)) :
    s.gapStart h =
      (if final then (s.setHob h { s.hob h with gap := gapWork (s.hob h).gapMark len (s.hob h).emberGap, gapFrom := t }).quiet h (s.seamCyc - t)
      else if gapWork (s.hob h).gapMark len (s.hob h).emberGap = .damper then (s.setHob h { s.hob h with gap := gapWork (s.hob h).gapMark len (s.hob h).emberGap, gapFrom := t }).quiet h len
      else s.setHob h { s.hob h with gap := gapWork (s.hob h).gapMark len (s.hob h).emberGap, gapFrom := t }) := by
  have hbegun : (match (s.hob h).busyTo with | some e => decide (e + 1 = t) | none => decide (t = 0)) = true := by
    rcases hbusy with ⟨hb, ht⟩ | ⟨hb, ht⟩
    · rw [hb]; exact decide_eq_true (by omega)
    · rw [hb]; exact decide_eq_true ht
  have hpast : (match (s.range (h / 8)).lastEffect with | some e => decide (e < t) | none => false) = false := by
    cases hle : (s.range (h / 8)).lastEffect with
    | none => rfl
    | some e => exact decide_eq_false (Nat.not_lt.mpr (hlast e hle))
  have hgo : ¬((s.range (h / 8)).phase ≠ .run ∨ (match (s.range (h / 8)).lastEffect with | some e => decide (e < t) | none => false) = true ∨
      (match (s.hob h).busyTo with | some e => decide (e + 1 = t) | none => decide (t = 0)) = false ∨ ((s.finishCycle (h / 8)).hob h).occupied t = true) := by
    rw [hbegun, hpast, hocc, hphase]
    decide
  subst hcyc
  unfold State.gapStart
  refine (if_neg hgo).trans ?_
  simp only [hend]
  rfl

/-- Settles O32: the gap begins (`gapStart_begins`), and its treatment is that of its mark or its length. -/
theorem gapTreated : Obligations.GapTreated := by
  unfold Obligations.GapTreated
  intro h t s mark len final hset hcanon hcycle hcalm hlast hbusy hocc hmark hend
  obtain ⟨-, -, hphase, hcyc, -, -, -⟩ := id hcycle
  have hmark' : (s.hob h).gapMark = mark := hmark.symm
  have hstart := gapStart_begins hphase hcyc hlast hbusy hocc hend.symm
  rw [hmark'] at hstart
  obtain ⟨w, hw⟩ : ∃ w, w = gapWork mark len (s.hob h).emberGap := ⟨_, rfl⟩
  obtain ⟨s1, hs1⟩ : ∃ x, x = s.setHob h { s.hob h with gap := w, gapFrom := t } := ⟨_, rfl⟩
  rw [← hw, ← hs1] at hstart
  have hexec {x : State} (hx : s.gapStart h = x) (hxset : x.settled = true) : exec (.gapStart h t) s = .next x := by
    simp only [exec, execGapStart, advance_inCycle hcycle hcalm, ready_inCycle hcycle, hx, done_settled x hxset]
  have hset1 : s1.settled = true := by rw [hs1]; exact hset
  have hhob1 : s1.hob h = { s.hob h with gap := w, gapFrom := t } := by rw [hs1, hob_setHob hcanon]
  have hpwr1 : s1.pwr = s.pwr := by rw [hs1]; rfl
  have hself : s1 = { s1 with pwr := { s.pwr with sinks := s1.pwr.sinks } } := by rw [← hpwr1]
  have hquiet g : s1.quiet h g = { s1 with pwr := { s.pwr with sinks := (s1.quiet h g).pwr.sinks } } := by rw [← hpwr1]; exact quiet_rest s1 h g
  have hmarks : (mark = 2 → w = .ember) ∧ (mark = 3 → w = .damper) ∧
      (mark ≠ 2 → mark ≠ 3 → (w = .ember ↔ len < (s.hob h).emberGap) ∧ (w = .damper ↔ (s.hob h).emberGap ≤ len)) := by
    refine ⟨fun h2 => by rw [hw, h2]; rfl, fun h3 => by rw [hw, h3]; rfl, fun h2 h3 => ?_⟩
    rw [hw]
    exact gapWork_unmarked h2 h3 len _
  obtain ⟨hm2, hm3, hm⟩ := hmarks
  have hinterval g (hx : s.gapStart h = s1.quiet h g) (hno : ¬(final = false ∧ w = .ember)) : ∃ s' w, exec (.gapStart h t) s = .next s' ∧ s'.hob h = { s.hob h with gap := w, gapFrom := t } ∧
      (mark = 2 → w = .ember) ∧ (mark = 3 → w = .damper) ∧ (mark ≠ 2 → mark ≠ 3 → (w = .ember ↔ len < (s.hob h).emberGap) ∧ (w = .damper ↔ (s.hob h).emberGap ≤ len)) ∧
      s' = { s.setHob h { s.hob h with gap := w, gapFrom := t } with pwr := { s.pwr with sinks := s'.pwr.sinks } } ∧
      (final = false → w = .ember → s'.pwr.sinks = s.pwr.sinks) ∧ (s.pwr.dampHold = true → s'.pwr.sinks = s.pwr.sinks) := by
    refine ⟨_, w, hexec hx ((settled_quiet s1 h g).trans hset1), ?_, hm2, hm3, hm, ?_, fun hf he => absurd ⟨hf, he⟩ hno, fun hhold => ?_⟩
    · rw [hquiet]; exact hhob1
    · rw [← hs1]; exact hquiet g
    · rw [quiet_held (by rw [hpwr1]; exact hhold), hpwr1]
  cases final with
  | true => exact hinterval _ (hstart.trans (if_pos rfl)) (by simp)
  | false =>
    by_cases hd : w = .damper
    · exact hinterval _ ((hstart.trans (if_neg (by simp))).trans (if_pos hd)) (by simp [hd])
    · refine ⟨s1, w, hexec ((hstart.trans (if_neg (by simp))).trans (if_neg hd)) hset1, hhob1, hm2, hm3, hm, ?_, fun _ _ => by rw [hpwr1], fun _ => by rw [hpwr1]⟩
      rw [← hs1]; exact hself

end Sys2Proof.Machine
end

section
/-! The movers: the operations of a descriptor, its end, and what times out (R94 to R100). -/
namespace Sys2Proof.Machine

/-! ### A mover's state and its loads -/

theorem mover_setMover {s : State} (hs : s.canon = true) {q : Nat} (hm : SMapWf ({} : Mover) (s.range q).movers = true) (m : Nat) (v : Mover) :
    (s.setMover q m v).mover q m = v := by
  have hr := range_setRange hs q ((s.range q).setMover m v)
  rw [State.mover, State.setMover, hr]
  exact get_put_self _ _ _ _ hm
theorem canon_setMover {s : State} (hs : s.canon = true) (q m : Nat) (v : Mover) : (s.setMover q m v).canon = true := canon_setRange hs _ _
theorem settled_setMover (s : State) (q m : Nat) (v : Mover) : (s.setMover q m v).settled = s.settled := rfl
theorem stn_setMover {s : State} (hs : s.canon = true) (q m k : Nat) (v : Mover) : (s.setMover q m v).stn k = s.stn k := by
  by_cases hk : k = q
  · rw [hk, State.stn, State.setMover, range_setRange hs]
    rfl
  · rw [State.stn, State.setMover, range_setRange_ne hs _ hk]
    rfl
theorem setMover_setMover {s : State} (hs : s.canon = true) {q : Nat} (hm : SMapWf ({} : Mover) (s.range q).movers = true) (m : Nat) (v w : Mover) :
    (s.setMover q m v).setMover q m w = s.setMover q m w := by
  have hr := range_setRange hs q ((s.range q).setMover m v)
  rw [State.setMover, State.setMover, hr, setRange_setRange hs]
  exact congrArg (fun x => s.setRange q { s.range q with movers := x }) (put_put _ _ _ _ _ hm)

theorem mem_settleOut (q : Nat) : ∀ (r : List (Nat × Load)) (o : List Load) (l : Load), (l ∈ r.map Prod.snd ∨ l ∈ o) →
    l ∈ (settleOut q r o).1.map Prod.snd ∨ l ∈ (settleOut q r o).2
  | [], _, _, h => h.imp_left (by simp [settleOut])
  | e :: r, o, l, h => by
    unfold settleOut
    split
    · refine mem_settleOut q r (o ++ [e.2]) l ?_
      simp only [List.map_cons, List.mem_cons, List.mem_append, List.not_mem_nil, or_false] at h ⊢
      rcases h with (rfl | h) | h
      · exact .inr (.inr rfl)
      · exact .inl h
      · exact .inr (.inl h)
    · rcases h with h | h
      · rcases List.mem_cons.mp h with rfl | h
        · exact .inl List.mem_cons_self
        · exact (mem_settleOut q r o l (.inl h)).imp_left (List.mem_cons_of_mem _)
      · exact (mem_settleOut q r o l (.inr h)).imp_left (List.mem_cons_of_mem _)
/-- A load for a station of the quarter does not leave for the spine. -/
theorem mem_settleOut_own (q : Nat) : ∀ (r : List (Nat × Load)) (o : List Load) (l : Load), l.dq = q → l ∈ r.map Prod.snd → l ∈ (settleOut q r o).1.map Prod.snd
  | e :: r, o, l, hq, h => by
    unfold settleOut
    rcases List.mem_cons.mp h with rfl | h
    · rw [if_neg (fun hc => hc.1 hq)]
      exact List.mem_cons_self
    · split
      · exact mem_settleOut_own q r _ l hq h
      · exact List.mem_cons_of_mem _ (mem_settleOut_own q r o l hq h)
theorem moverLoad_eq {s : State} (hs : s.canon = true) (q m : Nat) (l : Load) :
    s.moverLoad q m l = s.setRange q { s.range q with movLoads := (settleOut q ((s.range q).movLoads ++ [(m, l)]) (s.range q).brOut).1, brOut := (settleOut q ((s.range q).movLoads ++ [(m, l)]) (s.range q).brOut).2 } := by
  unfold State.moverLoad
  extract_lets r
  have hr := range_setRange hs q { r with movLoads := r.movLoads ++ [(m, l)] }
  unfold State.settleBridge
  rw [hr]
  exact setRange_setRange hs _ _ _
/-- What follows a mover's issue of a load: the load waits at the bridge, and only the quarter has changed. -/
theorem moverLoad_spec {s : State} (hs : s.canon = true) {q : Nat} (hm : SMapWf ({} : Mover) (s.range q).movers = true) (m : Nat) (v : Mover) (l : Load) (s' : State)
    (hs' : s' = (s.setMover q m v).moverLoad q m l) :
    s' = s.setRange q (s'.range q) ∧ s'.mover q m = v ∧ (l ∈ (s'.range q).movLoads.map Prod.snd ∨ l ∈ (s'.range q).brOut) ∧
      (l.dq = q → l ∈ (s'.range q).movLoads.map Prod.snd) ∧ s'.settled = s.settled := by
  have hs1 := canon_setMover hs q m v
  rw [moverLoad_eq hs1] at hs'
  have hr := congrArg (fun x => x.range q) hs'
  simp only [range_setRange hs1] at hr
  have hin : l ∈ (((s.setMover q m v).range q).movLoads ++ [(m, l)]).map Prod.snd := by simp
  refine ⟨?_, ?_, ?_, fun hq => ?_, ?_⟩
  · rw [hr, hs', State.setMover, setRange_setRange hs]
  · rw [State.mover, hr]
    exact mover_setMover hs hm m v
  · rw [hr]
    exact mem_settleOut q _ _ l (.inl hin)
  · rw [hr]
    exact mem_settleOut_own q _ _ l hq hin
  · rw [hs']
    rfl

/-! ### Accesses -/

theorem kindAt_setMover {s : State} (hs : s.canon = true) (q m : Nat) (v : Mover) (a : Nat) : (s.setMover q m v).kindAt a = s.kindAt a := by
  unfold State.kindAt
  rw [stn_setMover hs]
/-- An access whose lines all lie in HBM, or all in hob SRAM, may be performed. -/
theorem judgeAccess_memory {s : State} {k a n : Nat} (t : Nat) (w : Bool) (hk : k = 1 ∨ k = 2) (hn : 0 < n) (hall : ∀ j, s.kindAt (a + 64 * j) = k ∨ n ≤ j) :
    s.judgeAccess t a n w = 0 := by
  have ha : s.kindAt a = k := (hall 0).resolve_right (by omega)
  have hlines : ((List.range n).all fun j => s.kindAt (a + 64 * j) == k) = true :=
    List.all_eq_true.mpr fun j hj => beq_iff_eq.mpr ((hall j).resolve_right (Nat.not_le.mpr (List.mem_range.mp hj)))
  unfold State.judgeAccess
  simp only [ha]
  rcases hk with rfl | rfl <;> exact if_pos hlines

/-! ### The issue of an operation -/

/-- Mover `v` with operation `k` of the descriptor `d` at place `i` in flight under the next number. -/
def Mover.withOp (v : Mover) (i : Nat) (d : Desc) (k n : Nat) : Mover :=
  { v with nextId := v.nextId + 1, q := v.q.set i { d with begun := true, issued := d.issued ++ [k], ops := d.ops ++ [{ id := v.nextId % 65535, dst := d.dst + d.bound k, len := n, reading := d.op == 0, peer := none }] } }
theorem moverIssue_issues {s : State} {q m k i n : Nat} {d : Desc} (hcur : (s.mover q m).current = some i) (hd : d = (s.mover q m).q.getD i {})
    (hnew : d.issued.contains k = false) (hk : k < d.count) (hfree : (s.mover q m).inFlight < 128) (hn : n = min (d.bound (k + 1)) d.len - d.bound k) :
    s.moverIssue q m k = (match d.load with
      | some e => (s.setMover q m ((s.mover q m).withOp i d k n)).loadWrite q m ((s.mover q m).nextId % 65535) e (d.dst + d.bound k) (n / 64)
      | none => if d.op = 0 then (s.setMover q m ((s.mover q m).withOp i d k n)).moverRead q m ((s.mover q m).nextId % 65535) d.tenant (d.src + d.bound k) (n / 64)
          else (s.setMover q m ((s.mover q m).withOp i d k n)).moverWrite q m ((s.mover q m).nextId % 65535) d.tenant (d.dst + d.bound k) (List.replicate n 0) (List.replicate (n / 64) false)) := by
  have hgo : ¬(d.issued.contains k = true ∨ d.count ≤ k ∨ 128 ≤ (s.mover q m).inFlight) := by
    rw [hnew]
    simp only [Bool.false_eq_true, false_or]
    omega
  unfold State.moverIssue
  simp only [hcur, ← hd, if_neg hgo, ← hn]
  rfl
theorem moverRead_own {s : State} {q m op t src n : Nat} (hchip : src / 2 ^ 40 = s.rt.chip) (hok : s.judgeAccess t (src % 2 ^ 40) n false = 0) :
    s.moverRead q m op t src n = s.moverLoad q m (mkLoad .readReq (src % 2 ^ 40) n q 0 t [] [] (.mover q m op)) := by
  unfold State.moverRead
  simp only [hchip, if_true, hok]
theorem moverWrite_own {s : State} {q m op t dst : Nat} {data : Bytes} (poi : List Bool) (hchip : dst / 2 ^ 40 = s.rt.chip) (hok : s.judgeAccess t (dst % 2 ^ 40) (data.length / 64) true = 0) :
    s.moverWrite q m op t dst data poi = s.moverLoad q m (mkLoad .write (dst % 2 ^ 40) (data.length / 64) q 0 t data poi (.mover q m op)) := by
  unfold State.moverWrite
  simp only [hchip, if_true, hok]

/-- Settles O28: the operation's load waits at the bridge of the quarter (`moverLoad_spec`). -/
theorem moverIssues : Obligations.MoverIssues := by
  unfold Obligations.MoverIssues
  intro q m k s v i d a n hset hcanon hm hrun hv hcur hd hnew hk hfree hn
  subst hv
  have hissue := moverIssue_issues (q := q) (m := m) hcur hd hnew hk hfree hn
  have hexec : exec (.moverOpIssue q m k) s = (s.moverIssue q m k).ends := by
    simp only [exec, execMoverOpIssue, State.clocked, hrun, Bool.false_eq_true, if_false]
  obtain ⟨s1, hs1⟩ : ∃ x, x = s.setMover q m ((s.mover q m).withOp i d k n) := ⟨_, rfl⟩
  have hcarried (l : Load) (hl : s.moverIssue q m k = s1.moverLoad q m l) : ∃ s', exec (.moverOpIssue q m k) s = .next s' ∧ s' = s.setRange q (s'.range q) ∧
      s'.mover q m = (s.mover q m).withOp i d k n ∧ (l ∈ (s'.range q).movLoads.map Prod.snd ∨ l ∈ (s'.range q).brOut) ∧ (l.dq = q → l ∈ (s'.range q).movLoads.map Prod.snd) := by
    rw [hs1] at hl
    obtain ⟨hrest, hmover, hload, hown, hsettled⟩ := moverLoad_spec hcanon hm m _ l _ hl
    exact ⟨_, hexec.trans (ends_settled _ (hsettled.trans hset)), hrest, hmover, hload, hown⟩
  have hjudge (w : Bool) (hpos : 64 ≤ n) (hlines : (∀ j, s.kindAt (a % 2 ^ 40 + 64 * j) = 1 ∨ n / 64 ≤ j) ∨ ∀ j, s.kindAt (a % 2 ^ 40 + 64 * j) = 2 ∨ n / 64 ≤ j) :
      s1.judgeAccess d.tenant (a % 2 ^ 40) (n / 64) w = 0 := by
    have hn64 : 0 < n / 64 := by omega
    rcases hlines with h | h
    · exact judgeAccess_memory d.tenant w (.inl rfl) hn64 fun j => by rw [hs1, kindAt_setMover hcanon]; exact h j
    · exact judgeAccess_memory d.tenant w (.inr rfl) hn64 fun j => by rw [hs1, kindAt_setMover hcanon]; exact h j
  have hchip1 : s1.rt.chip = s.rt.chip := by rw [hs1]; rfl
  refine ⟨fun hload ha hchip hpos hlines => ?_, fun e x hload hx ha => ?_⟩
  · rw [← hs1, hload] at hissue
    by_cases hop : d.op = 0
    · rw [if_pos hop] at ha
      simp only [if_pos hop] at hissue
      rw [← ha, moverRead_own (hchip.trans hchip1.symm) (hjudge false hpos hlines)] at hissue
      obtain ⟨s', hnext, hrest, hmover, hwait, -⟩ := hcarried _ hissue
      exact ⟨s', _, hnext, hrest, hmover, hwait, rfl, rfl, rfl, (if_pos hop).symm, rfl, (if_pos hop).symm⟩
    · rw [if_neg hop] at ha
      simp only [if_neg hop] at hissue
      rw [← ha, moverWrite_own _ (hchip.trans hchip1.symm) (by rw [List.length_replicate]; exact hjudge true hpos hlines), List.length_replicate] at hissue
      obtain ⟨s', hnext, hrest, hmover, hwait, -⟩ := hcarried _ hissue
      exact ⟨s', _, hnext, hrest, hmover, hwait, rfl, rfl, rfl, (if_neg hop).symm, rfl, (if_neg hop).symm⟩
  · rw [← hs1, hload] at hissue
    obtain ⟨s', hnext, hrest, -, -, hown⟩ := hcarried _ hissue
    have hx1 : s1.entry e = x := by rw [hs1, hx]; rfl
    subst ha
    rw [hx1] at hown
    exact ⟨s', _, hnext, hrest, hown rfl, rfl, rfl, rfl, rfl, rfl, rfl, rfl, rfl⟩

/-! ### The end of a descriptor -/

theorem settled_flagAdd (s : State) (t f : Nat) (d : Word) : (s.flagAdd t f d).settled = s.settled := by
  unfold State.flagAdd
  split
  · exact settled_bumpFlagP s f d
  · rfl
theorem settled_feedLoad (s : State) (q e : Nat) : (s.feedLoad q e).settled = s.settled := by
  unfold State.feedLoad
  split
  · rfl
  split
  · rfl
  split <;> rfl
theorem settled_feedLoads (s : State) : s.feedLoads.settled = s.settled := by
  have hfold := foldl_leaves State.settled (f := fun (s : State) (e : Nat × Nat) => s.feedLoad e.1 e.2) (fun s e => settled_feedLoad s e.1 e.2) s.stk.loadQ
  exact (hfold _).trans rfl
theorem descComplete_head {s : State} {q m : Nat} {d : Desc} {rest : List Desc} (hq : (s.mover q m).q = d :: rest) (hf : (s.mover q m).fetching = none) (hd : d.finished = true) :
    s.descComplete q m = ((s.setMover q m { s.mover q m with q := rest }).descActions q m d).feedLoads := by
  unfold State.descComplete
  simp only [hq]
  exact if_neg (by simp [hf, hd])
theorem descActions_aborted {d : Desc} (h : d.aborted = true) (s : State) (q m : Nat) : s.descActions q m d = s.countMoverError q m := if_pos h
/-- The success actions of a descriptor without remote flag and trigger. -/
theorem moverSuccess_local {d : Desc} (h3 : d.ctrl 3 = false) (h4 : d.ctrl 4 = false) (s : State) (q m : Nat) :
    s.moverSuccess q m d = if d.ctrl 2 then s.flagAdd d.tenant (le d.raw 24 2) d.delta else s := by
  simp only [State.moverSuccess, h3, h4, Bool.false_eq_true, if_false]
theorem descActions_success {d : Desc} (ha : d.aborted = false) (hi : d.illegal = false) (he : d.err = none) (hc : d.chain = false) (s : State) (q m : Nat) :
    s.descActions q m d = (match d.load with | some e => (s.moverSuccess q m d).loadDone q e true | none => s.moverSuccess q m d) := by
  unfold State.descActions
  rw [ha, hi, he, hc]
  rfl
theorem loadDone_ok {s : State} {e : Nat} (h : (s.entry e).state = .loading) (q : Nat) :
    s.loadDone q e true = s.setEntry e { s.entry e with resident := (s.entry e).resident ++ [q] } := by
  simp only [State.loadDone, if_true, h]
theorem chainDone_clean {s : State} {q m : Nat} {b : Bytes} (h : (s.mover q m).fetched = some (b, false, 0)) (ha : (s.mover q m).fetchAbort = false) :
    s.chainDone q m = s.setMover q m { s.mover q m with fetching := none, fetched := none, fetchAbort := false, q := { raw := b, tenant := (s.mover q m).fetchTenant, entry := (s.mover q m).fetchEntry } :: (s.mover q m).q } := by
  simp only [State.chainDone, h, ha, Bool.false_eq_true, if_false, ne_eq, not_true_eq_false, or_self]

/-! ### Timeouts -/

theorem counted_held {s : State} (h : s.clk.inStop ≠ 0 ∨ s.mantelOff = true) (t : State) : s.counted t = s := by
  refine if_neg fun hc => ?_
  rcases h with h | h
  · exact h hc.1
  · simp [h] at hc
theorem counted_running {s : State} (h : s.clk.inStop = 0) (hm : s.mantelOff = false) (t : State) : s.counted t = t := if_pos ⟨h, hm⟩
/-- What a timeout leaves of a descriptor. -/
theorem endOp_timeout (d : Desc) (id : Nat) :
    (∀ o ∈ (d.endOp id (some 0x31)).ops, o.id ≠ id) ∧ ((∃ o ∈ d.ops, o.id = id) → (d.endOp id (some 0x31)).err = some (d.err.getD 0x31)) ∧
      ((∀ o ∈ d.ops, o.id ≠ id) → d.endOp id (some 0x31) = d) := by
  by_cases hany : (d.ops.any fun o => o.id == id) = true
  · have heq : d.endOp id (some 0x31) = { d with ops := d.ops.filter fun o => o.id != id, err := match d.err with | some e => some e | none => some 0x31 } := if_pos hany
    rw [heq]
    refine ⟨fun o ho => ?_, fun _ => ?_, fun hno => ?_⟩
    · simpa using (List.mem_filter.mp ho).2
    · cases d.err <;> rfl
    · obtain ⟨o, ho, hid⟩ := List.any_eq_true.mp hany
      exact absurd (beq_iff_eq.mp hid) (hno o ho)
  · have heq : d.endOp id (some 0x31) = d := if_neg hany
    have hno : ∀ o ∈ d.ops, o.id ≠ id := fun o ho hid => hany (List.any_eq_true.mpr ⟨o, ho, beq_iff_eq.mpr hid⟩)
    rw [heq]
    exact ⟨hno, fun ⟨o, ho, hid⟩ => absurd hid (hno o ho), fun _ => rfl⟩

/-- Settles O29: one case per way in which a descriptor or an operation ends. -/
theorem moverEnds : Obligations.MoverEnds := by
  unfold Obligations.MoverEnds
  refine ⟨?_, ?_⟩
  · intro q m s v hset hcanon hm hrun hv
    subst hv
    have hcomplete {x : State} (h : s.descComplete q m = x) (hx : x.settled = true) : exec (.descriptorComplete q m) s = .next x := by
      simp only [exec, execDescriptorComplete, State.clocked, hrun, Bool.false_eq_true, if_false, h, ends_settled x hx]
    refine ⟨fun d rest hq hf hd ha hi he hl h3 h4 hc => ?_, fun d rest e hq hf hd ha hi he hl h2 h3 h4 hc hx => ?_, fun d rest hq hf hd ha => ?_, fun b hb ha => ?_⟩
    case refine_1 =>
      have h := descComplete_head hq hf hd
      rw [descActions_success ha hi he hc, hl, moverSuccess_local h3 h4] at h
      refine hcomplete h ?_
      rw [settled_feedLoads]
      split
      · exact (settled_flagAdd ..).trans hset
      · exact hset
    case refine_2 =>
      have h := descComplete_head hq hf hd
      rw [descActions_success ha hi he hc, hl, moverSuccess_local h3 h4, h2, if_neg Bool.false_ne_true] at h
      have hdone := loadDone_ok (s := s.setMover q m { s.mover q m with q := rest }) (e := e) hx q
      simp only [hdone] at h
      exact hcomplete h ((settled_feedLoads _).trans hset)
    case refine_3 =>
      have h := descComplete_head hq hf hd
      rw [descActions_aborted ha, State.countMoverError] at h
      simp only [mover_setMover hcanon hm, setMover_setMover hcanon hm] at h
      exact hcomplete h ((settled_feedLoads _).trans hset)
    case refine_4 =>
      have h := chainDone_clean hb ha
      have hx : (s.setMover q m { s.mover q m with fetching := none, fetched := none, fetchAbort := false, q := { raw := b, tenant := (s.mover q m).fetchTenant, entry := (s.mover q m).fetchEntry } :: (s.mover q m).q }).settled = true := hset
      simp only [exec, execChainFetchDone, State.clocked, hrun, Bool.false_eq_true, if_false, h, ends_settled _ hx]
  · intro q m op s v hset hcanon hv
    subst hv
    have htimeout {x : State} (h : s.counted (s.moverTimeout q m op) = x) (hx : x.settled = true) : exec (.moverTimeout q m op) s = .next x := by
      simp only [exec, execMoverTimeout, h, ends_settled x hx]
    refine ⟨fun hheld => htimeout (counted_held hheld _) hset, fun hstop hon id hop => ?_, fun hstop hon hop hf hnone => ?_⟩
    · subst hop
      refine ⟨(s.mover q m).q.map fun d => d.endOp id (some 0x31), htimeout (counted_running hstop hon _) hset, List.length_map .., fun i d e hd he => ?_⟩
      rw [List.getElem?_map, hd] at he
      obtain rfl : d.endOp id (some 0x31) = e := Option.some.inj he
      exact endOp_timeout d id
    · subst hop
      refine htimeout ((counted_running hstop hon _).trans ?_) hset
      exact if_pos ⟨hf, by rw [hnone]; rfl⟩

end Sys2Proof.Machine
end

section
/-! Loads in the mover slots and on the spine (R81 to R83, R101 to R103). -/
namespace Sys2Proof.Machine

/-! ### Mover slots -/

theorem settled_stationPop (s : State) (q st k : Nat) : (s.stationPop q st k).settled = s.settled := by
  unfold State.stationPop
  split
  · split
    · rfl
    · split <;> rfl
  · split
    · extract_lets g rest s1
      split <;> rfl
    · rfl
theorem slotFill_station {s : State} {q st k : Nat} {l : Load} (hst : st ≠ 0) (hpark : (s.range q).park = [])
    (hfind : (s.stationHeads q st).find? (fun e => (s.range q).mayFill q st (s.range q).cyc e.2) = some (k, l)) :
    s.slotFill q st = (s.stationPop q st k).setRange q (((s.stationPop q st k).range q).fill st ((s.range q).loopFor st (l.exit q)) (s.range q).cyc l true) := by
  unfold State.slotFill
  simp only [hst, if_false, hpark, ne_eq, not_true_eq_false, hfind]
theorem slotFill_parked {s : State} {q st : Nat} (hst : st ≠ 0) (hpark : (s.range q).park ≠ []) : s.slotFill q st = s := by
  unfold State.slotFill
  simp only [hst, if_false]
  exact if_pos hpark
theorem slotFill_bridge (s : State) (q : Nat) : s.slotFill q 0 = s.setRange q ((s.range q).bridgeFill q (s.range q).cyc) := rfl
/-- A parked load goes first at the bridge. -/
theorem bridgeFill_parked {r : Range} {c : Nat} {l : Load} {rest : List Load} (hpark : r.park = l :: rest) (he : r.emptyAt 0 0 c = true) (q : Nat) :
    r.bridgeFill q c = { r.fill 0 0 c l false with park := rest } := by
  unfold Range.bridgeFill
  simp only [hpark, he, if_true]
theorem setSlot_stn (r : Range) (loop n : Nat) (x : LoopSlot) : (r.setSlot loop n x).stn = r.stn := by
  unfold Range.setSlot
  split <;> rfl
/-- A load arrives at the HBM station of its quarter. -/
theorem loadArrival_station {s : State} (hs : s.canon = true) {q loop : Nat} {l : Load} (hslot : ((s.range q).slot loop (slotAt loop 5 (s.range q).cyc)).load = some l) (hexit : l.exit q = 5) :
    s.loadArrival q 5 loop = (if (s.range q).overtakes q loop l = false ∧ (s.stn q).movq.length < 64 then
      s.setRange q { (s.range q).setSlot loop (slotAt loop 5 (s.range q).cyc) { (s.range q).slot loop (slotAt loop 5 (s.range q).cyc) with load := none } with stn := { s.stn q with movq := (s.stn q).movq ++ [l] } }
      else s) := by
  unfold State.loadArrival
  simp only [hslot]
  by_cases ho : (s.range q).overtakes q loop l = true
  · rw [if_pos (.inr ho), if_neg (by simp [ho])]
  · have hgo : ¬(l.exit q ≠ 5 ∨ (s.range q).overtakes q loop l = true) := by simp [hexit, ho]
    have hfour : ¬(5 = 0 ∧ l.dq ≠ q) := fun h => absurd h.1 (by decide)
    rw [if_neg hgo, if_neg hfour, if_pos trivial]
    by_cases hroom : (s.range q).stn.movq.length < 64
    · have hroom' : (s.stn q).movq.length < 64 := hroom
      rw [if_pos hroom, if_pos ⟨by simpa using ho, hroom'⟩, State.setStn, State.stn, range_setRange hs, setSlot_stn, setRange_setRange hs]
      rfl
    · have hroom' : ¬(s.stn q).movq.length < 64 := hroom
      rw [if_neg hroom, if_neg (fun h => hroom' h.2)]

/-! ### The spine -/

/-- The traffic at a quarter's bridge; a queue that is not named is left alone. -/
theorem settleBridge_rest (s : State) (q : Nat) :
    ∃ k o, s.settleBridge q = s.setRange q { s.range q with movLoads := k, brOut := o } := ⟨_, _, rfl⟩
theorem spineOut_running {s : State} {src : Fin 4} (h : (s.range src).halted = false) : s.spineOut src = (s.range src).brOut := by
  have h4 : src.val ≠ 4 := by omega
  simp only [State.spineOut, h4, if_false, h, Bool.false_eq_true]
theorem spineOut_halted {s : State} {src : Fin 4} (h : (s.range src).halted = true) : s.spineOut src = [] := by
  have h4 : src.val ≠ 4 := by omega
  simp only [State.spineOut, h4, if_false, h, if_true]
theorem spineRoom_quarter (s : State) (d : Fin 4) : s.spineRoom d = decide ((s.range d).brIn.length < 64) := by
  have h4 : (d.val == 4) = false := beq_eq_false_iff_ne.mpr (by omega)
  rw [State.spineRoom, h4, Bool.false_or]
theorem spineReady_of_turn {s : State} {k : Nat} (h : s.spineTurn = some k) : s.spineReady k = true := by
  have := List.find?_some h
  exact this
theorem halted_of_turn {s : State} {src : Fin 4} (h : s.spineTurn = some src.val) : (s.range src).halted = false := by
  have hready := spineReady_of_turn h
  refine Bool.eq_false_iff.mpr fun hh => ?_
  rw [State.spineReady, spineOut_halted hh] at hready
  simp at hready
/-- The spine's turn is that of the only stop that has a load it can deliver. -/
theorem spineTurn_only {s : State} {src : Fin 4} (hready : s.spineReady src = true) (honly : ∀ k, k < 5 → s.spineReady k = true → k = src.val) : s.spineTurn = some src.val := by
  unfold State.spineTurn
  cases hfind : (((List.range 5).map fun i => (s.spineLast + 1 + i) % 5).find? fun k => s.spineReady k) with
  | none =>
    have hin : src.val ∈ (List.range 5).map fun i => (s.spineLast + 1 + i) % 5 := by
      refine List.mem_map.mpr ⟨(src.val + 5 - (s.spineLast + 1) % 5) % 5, List.mem_range.mpr (by omega), ?_⟩
      omega
    exact absurd hready (List.find?_eq_none.mp hfind _ hin)
  | some k =>
    obtain ⟨i, -, hi⟩ := List.mem_map.mp (List.mem_of_find?_eq_some hfind)
    have hk : k < 5 := by rw [← hi]; exact Nat.mod_lt _ (by decide)
    have hkr : s.spineReady k = true := by have := List.find?_some hfind; exact this
    rw [honly k hk hkr]
theorem spineDeliver_waits {s : State} {src dst : Fin 4} (h : (s.range src).halted = true ∨ 64 ≤ (s.range dst).brIn.length ∨ s.spineTurn ≠ some src.val) :
    s.spineDeliver src dst = s := by
  have hnone : (if s.mantelOff || s.spineTurn != some src.val || !s.spineRoom dst then none else (s.spineOut src).find? fun l => l.dq == dst.val) = none := by
    rcases h with h | h | h
    · rw [spineOut_halted h]
      simp
    · rw [spineRoom_quarter, decide_eq_false (by omega)]
      simp
    · rw [bne_iff_ne.mpr h]
      simp
  unfold State.spineDeliver
  simp only [hnone]
/-- The quarter's bridge with load `l` at the end of its inbound queue, where nothing stands there for the bridge's own units. -/
theorem settleIn_stays {s : State} (hs : s.canon = true) {d : Nat} {l : Load} (h : (s.range d).halted = true ∨ l.ds ≠ 0 ∧ ∀ x ∈ (s.range d).brIn, x.ds ≠ 0) :
    (s.setRange d { s.range d with brIn := (s.range d).brIn ++ [l] }).settleIn d = s.setRange d { s.range d with brIn := (s.range d).brIn ++ [l] } := by
  have hr := range_setRange hs d { s.range d with brIn := (s.range d).brIn ++ [l] }
  unfold State.settleIn
  simp only [hr]
  by_cases hh : (s.range d).halted = true
  · exact if_pos hh
  · obtain ⟨hl, hall⟩ := h.resolve_left hh
    have hne : ∀ x ∈ (s.range d).brIn ++ [l], x.ds ≠ 0 := fun x hx => (List.mem_append.mp hx).elim (hall x) (fun hx => by rw [List.mem_singleton.mp hx]; exact hl)
    have hnone : ((s.range d).brIn ++ [l]).filter (fun x => x.ds == 0) = [] := List.filter_eq_nil_iff.mpr fun x hx => by simpa using hne x hx
    have hkeep : ((s.range d).brIn ++ [l]).filter (fun x => x.ds != 0) = (s.range d).brIn ++ [l] := List.filter_eq_self.mpr fun x hx => by simpa using hne x hx
    rw [if_neg hh, hnone, hkeep, List.foldl_nil, setRange_setRange hs]

/-- Settles O30: one case per way in which a load goes on or waits. -/
theorem moverTraffic : Obligations.MoverTraffic := by
  unfold Obligations.MoverTraffic
  refine ⟨fun q t s s1 s2 hadv hs2 hset hcanon => ?_, fun src dst s l hset hcanon hon hl => ?_⟩
  · have hfill (st : Fin 16) : exec (.moverSlotFill q t st) s = (s2.slotFill q st).ends := by
      simp only [exec, execMoverSlotFill, hadv, ← hs2]
    refine ⟨fun st k l hst hpark hfind => ?_, fun st hst hpark => ?_, fun l rest hpark he => ?_, fun loop l hslot hexit => ?_⟩
    case refine_1 =>
      have hx : ((s2.stationPop q st k).setRange q (((s2.stationPop q st k).range q).fill st ((s2.range q).loopFor st (l.exit q)) (s2.range q).cyc l true)).settled = true :=
        (settled_stationPop s2 q st k).trans hset
      rw [hfill, slotFill_station hst hpark hfind, ends_settled _ hx]
    case refine_2 => rw [hfill, slotFill_parked hst hpark, ends_settled _ hset]
    case refine_3 =>
      have hx : (s2.setRange q { (s2.range q).fill 0 0 (s2.range q).cyc l false with park := rest }).settled = true := hset
      have h0 := slotFill_bridge s2 q
      rw [bridgeFill_parked hpark he] at h0
      exact (hfill 0).trans ((congrArg State.ends h0).trans (ends_settled _ hx))
    case refine_4 =>
      have harr : exec (.moverLoadArrival q t 5 loop) s = (s2.loadArrival q 5 loop).ends := by
        simp only [exec, execMoverLoadArrival, hadv, ← hs2]
        rfl
      rw [harr, loadArrival_station hcanon hslot hexit]
      split
      · exact ends_settled _ hset
      · exact ends_settled _ hset
  · have hexec : exec (.spineDelivery src.castSucc dst.castSucc) s = (s.spineDeliver src dst).ends := rfl
    have hldq : l.dq = dst.val := by simpa using List.find?_some hl
    refine ⟨fun hturn hroom hstay => ?_, fun h => ?_, fun hothers hmantel hrun hroom => ?_⟩
    case refine_2 => rw [hexec, spineDeliver_waits h, ends_settled _ hset]
    case refine_3 =>
      refine spineTurn_only ?_ fun k hk hready => ?_
      · rw [State.spineReady, spineOut_running hrun]
        refine List.any_eq_true.mpr ⟨l, List.mem_of_find?_eq_some hl, ?_⟩
        rw [hldq, spineRoom_quarter]
        exact decide_eq_true hroom
      · obtain ⟨x, hx, -⟩ := List.any_eq_true.mp hready
        refine Decidable.byContradiction fun hne => ?_
        by_cases h4 : k = 4
        · rw [State.spineOut, if_pos h4, hmantel] at hx
          exact absurd hx List.not_mem_nil
        · have hk4 := hothers ⟨k, by omega⟩ (fun h => hne (congrArg Fin.val h))
          rw [State.spineOut, if_neg h4] at hx
          split at hx
          · exact absurd hx List.not_mem_nil
          · rw [hk4] at hx
            exact absurd hx List.not_mem_nil
    case refine_1 =>
      have hrun := halted_of_turn hturn
      have hout := spineOut_running hrun
      have hpick : (if s.mantelOff || s.spineTurn != some src.val || !s.spineRoom dst then none else (s.spineOut src).find? fun l => l.dq == dst.val) = some l := by
        rw [hon, hturn, spineRoom_quarter, decide_eq_true hroom, hout, hl]
        simp
      obtain ⟨s0, hs0⟩ : ∃ x, x = ({ s with spineLast := src.val } : State).setRange src { s.range src with brOut := (s.range src).brOut.eraseP fun l => l.dq == dst.val } := ⟨_, rfl⟩
      have hcanon0 : s0.canon = true := by rw [hs0]; exact canon_setRange (s := { s with spineLast := src.val }) hcanon _ _
      have hsrc0 : s0.range src = { s.range src with brOut := (s.range src).brOut.eraseP fun l => l.dq == dst.val } := by
        rw [hs0]; exact range_setRange (s := { s with spineLast := src.val }) hcanon _ _
      obtain ⟨k, o, hbridge⟩ := settleBridge_rest s0 src
      obtain ⟨s1, hs1⟩ : ∃ x, x = s0.settleBridge src := ⟨_, rfl⟩
      rw [← hs1] at hbridge
      have hcanon1 : s1.canon = true := by rw [hbridge]; exact canon_setRange hcanon0 _ _
      have hkeep : (s1.range dst).brIn = (s.range dst).brIn ∧ (s1.range dst).halted = (s.range dst).halted := by
        by_cases heq : dst.val = src.val
        · rw [heq, hbridge, range_setRange hcanon0, hsrc0]
          exact ⟨rfl, rfl⟩
        · rw [hbridge, range_setRange_ne hcanon0 _ heq, hs0, range_setRange_ne (s := { s with spineLast := src.val }) hcanon _ heq]
          exact ⟨rfl, rfl⟩
      obtain ⟨hin, hhalt⟩ := hkeep
      have hdeliver : s.spineDeliver src dst = s1.setRange dst { s1.range dst with brIn := (s1.range dst).brIn ++ [l] } := by
        have h4 : src.val ≠ 4 := by omega
        have h4' : dst.val ≠ 4 := by omega
        rw [← settleIn_stays hcanon1 (by rw [hin, hhalt]; exact hstay)]
        unfold State.spineDeliver
        simp only [hpick, h4, if_false]
        rw [State.spineTo, if_neg h4', hs1, hs0, hout]
        rfl
      obtain ⟨s', hs'⟩ : ∃ x, x = s1.setRange dst { s1.range dst with brIn := (s1.range dst).brIn ++ [l] } := ⟨_, rfl⟩
      rw [← hs'] at hdeliver
      have hrest : s' = { s with ranges := s'.ranges, spineLast := src.val } := by rw [hs', hbridge, hs0]; rfl
      refine ⟨s', ?_, ?_, ?_, ?_, ?_, ?_, ?_⟩
      · have hx : s'.settled = true := by rw [hrest]; exact hset
        rw [hexec, hdeliver, ends_settled _ hx]
      · rw [hs', range_setRange hcanon1, ← hin]
      all_goals rw [hrest]

end Sys2Proof.Machine
end

section
/-! Entries are admitted or refused, become resident, and are released (R163, R165, R167, R181). -/
namespace Sys2Proof.Machine

/-! ### The entries of the stoker -/

theorem entry_setEntry {s : State} (h : SMapWf ({} : Entry) s.stk.entries = true) (e : Nat) (x : Entry) : (s.setEntry e x).entry e = x := get_put_self _ _ _ _ h
theorem entry_setEntry_ne {s : State} (h : SMapWf ({} : Entry) s.stk.entries = true) {e k : Nat} (x : Entry) (hk : k ≠ e) : (s.setEntry e x).entry k = s.entry k :=
  get_put_ne _ _ _ _ _ h hk
theorem entry_eq_of_stk {s t : State} (h : s.stk.entries = t.stk.entries) (e : Nat) : s.entry e = t.entry e := by unfold State.entry; rw [h]
theorem entries_setEntry_wf {s : State} (h : SMapWf ({} : Entry) s.stk.entries = true) (e : Nat) (x : Entry) : SMapWf ({} : Entry) (s.setEntry e x).stk.entries = true := put_wf h
/-- An arming is stamped: only the stoker changes. -/
theorem beginArming_rest (s : State) (e : Nat) : s.beginArming e = { s with stk := (s.beginArming e).stk } ∧ (s.beginArming e).stk.openEpoch = s.stk.openEpoch := ⟨rfl, rfl⟩
theorem entry_beginArming {s : State} (h : SMapWf ({} : Entry) s.stk.entries = true) (e : Nat) :
    (s.beginArming e).entry e = { s.entry e with stamp := s.stk.nextStamp % 2 ^ 48, armBeat := s.stk.beat, dlDone := false } := by
  have hstamp : (s.stampEntry e).entry e = { s.entry e with stamp := s.stk.nextStamp % 2 ^ 48 } := entry_setEntry h e _
  have hset : (s.beginArming e).entry e = { (s.stampEntry e).entry e with armBeat := s.stk.beat, dlDone := false } :=
    entry_setEntry (s := s.stampEntry e) (entries_setEntry_wf h e { s.entry e with stamp := s.stk.nextStamp % 2 ^ 48 }) e _
  rw [hset, hstamp]
theorem entry_beginArming_ne {s : State} (h : SMapWf ({} : Entry) s.stk.entries = true) {e k : Nat} (hk : k ≠ e) : (s.beginArming e).entry k = s.entry k :=
  (get_put_ne _ _ _ _ _ (entries_setEntry_wf h e { s.entry e with stamp := s.stk.nextStamp % 2 ^ 48 }) hk).trans (get_put_ne _ _ _ _ _ h hk)

/-! ### Areas -/

/-- The state without what the areas of the part cover: memory, marks, staging blocks, poison tables. -/
def State.bare (s : State) : State := { s with mem := [], linePoi := [], ranges := [], stage := [], stageFill := [] }
theorem bare_zeroRange (s : State) (a n : Nat) : (s.zeroRange a n).bare = s.bare := by
  unfold State.zeroRange
  extract_lets out s1
  split <;> rfl
theorem bare_zeroArea (s : State) (x : Area) : (s.zeroArea x).bare = s.bare :=
  foldl_leaves State.bare (f := fun (s : State) (e : Nat × Nat) => s.zeroRange e.1 e.2) (fun s e => bare_zeroRange s e.1 e.2) x.spans s
/-- A release changes the poison tables and the staging blocks only. -/
def State.unstaged (s : State) : State := { s with ranges := [], stage := [], stageFill := [] }
theorem unstaged_releaseArea (s : State) (x : Area) : (s.releaseArea x).unstaged = s.unstaged := by
  unfold State.releaseArea
  refine foldl_leaves State.unstaged (fun s e => ?_) _ _
  extract_lets inA s1
  split <;> rfl
theorem unstaged_releaseAreas (l : List Area) (s : State) : (l.foldl (fun s a => s.releaseArea a) s).unstaged = s.unstaged :=
  foldl_leaves State.unstaged (f := fun (s : State) (a : Area) => s.releaseArea a) unstaged_releaseArea l s
theorem eq_of_unstaged {s t : State} (h : s.unstaged = t.unstaged) : s = { t with ranges := s.ranges, stage := s.stage, stageFill := s.stageFill } :=
  calc s = { s.unstaged with ranges := s.ranges, stage := s.stage, stageFill := s.stageFill } := rfl
    _ = _ := by rw [h]; rfl
theorem eq_of_bare {s t : State} (h : s.bare = t.bare) :
    s = { t with mem := s.mem, linePoi := s.linePoi, ranges := s.ranges, stage := s.stage, stageFill := s.stageFill } :=
  calc s = { s.bare with mem := s.mem, linePoi := s.linePoi, ranges := s.ranges, stage := s.stage, stageFill := s.stageFill } := rfl
    _ = _ := by rw [h]; rfl
/-- An entry is emptied: its place, the admission queue and what its areas held change. -/
theorem emptyEntry_rest (s : State) (e : Nat) : ∃ r st sf, s.emptyEntry e =
    { s with ranges := r, stage := st, stageFill := sf, stk := { s.stk with entries := put {} e {} s.stk.entries, admitQ := s.stk.admitQ.filter fun k => k != e } } := by
  obtain ⟨r, st, sf, h⟩ : ∃ r st sf, ((s.entry e).areas.filter fun a => a.owner.isSome).foldl (fun s a => s.releaseArea a) s = { s with ranges := r, stage := st, stageFill := sf } :=
    ⟨_, _, _, eq_of_unstaged (unstaged_releaseAreas ((s.entry e).areas.filter fun a => a.owner.isSome) s)⟩
  refine ⟨r, st, sf, ?_⟩
  unfold State.emptyEntry
  rw [h]
  rfl

/-! ### Answers -/

/-- With no message in work an answer only ends the wait. -/
theorem answerWait_idle {s : State} (h : s.boot.work = []) (k n : Nat) (r : DResult) : ∃ w, s.answerWait k n r = { s with boot := { s.boot with waits := w } } := by
  unfold State.answerWait
  split
  · exact ⟨s.boot.waits, rfl⟩
  · rw [h]
    exact ⟨_, by rw [List.map_nil, ← h]⟩
theorem settled_waits (s : State) (w : List (Nat × Nat × Nat × Nat)) : ({ s with boot := { s.boot with waits := w } } : State).settled = s.settled := rfl

/-! ### Admission -/

theorem admission_passes {s : State} {e : Nat} {rest : List Nat} {x1 : Entry} {cost : Nat} (hq : s.stk.admitQ = e :: rest) (ha : s.aborting (s.entry e).tenant = false)
    (hs : s.judgeStatic e = (0, 0, x1)) (ht : (s.setEntry e x1).judgeTraces e = (0, 0, cost)) :
    s.admission = (((maskRanges x1.rmask).foldl (fun s r => { s with stk := { s.stk with loadQ := s.stk.loadQ ++ [(r, e)] } })
      ((x1.areas.filter fun a => a.owner.isSome).foldl (fun s a => s.zeroArea a)
        (({ s with stk := { s.stk with admitQ := rest } } : State).setEntry e { x1 with state := .loading, cost := cost }))).feedLoads).answerWait 0 e { dom := 1, code := 0, value := x1.pbase } := by
  unfold State.admission
  simp only [hq, ha, hs, ht, Bool.false_eq_true, if_false, ne_eq, not_true_eq_false]
theorem admission_refused {s : State} {e : Nat} {rest : List Nat} {c d : Nat} {x1 : Entry} (hq : s.stk.admitQ = e :: rest) (ha : s.aborting (s.entry e).tenant = false)
    (hs : s.judgeStatic e = (c, d, x1)) (hc : c ≠ 0) : s.admission = ({ s with stk := { s.stk with admitQ := rest } } : State).admitRefuse e c d := by
  unfold State.admission
  simp only [hq, ha, hs, Bool.false_eq_true, if_false, ne_eq, hc, not_false_eq_true, if_true]
/-- A loading handed out changes neither the entries nor the admission queue. -/
theorem feedLoad_entries (s : State) (q e : Nat) : (s.feedLoad q e).stk.entries = s.stk.entries ∧ (s.feedLoad q e).stk.admitQ = s.stk.admitQ := by
  unfold State.feedLoad
  split
  · exact ⟨rfl, rfl⟩
  split
  · exact ⟨rfl, rfl⟩
  split <;> exact ⟨rfl, rfl⟩
/-- What admission reads of the stoker's entries. -/
def State.admitView (s : State) : SMap Entry × List Nat := (s.stk.entries, s.stk.admitQ)
theorem of_admitView {s t : State} (h : s.admitView = t.admitView) : s.stk.entries = t.stk.entries ∧ s.stk.admitQ = t.stk.admitQ := Prod.mk.inj h
theorem feedLoads_entries (s : State) : s.feedLoads.stk.entries = s.stk.entries ∧ s.feedLoads.stk.admitQ = s.stk.admitQ := by
  have hfold := foldl_leaves State.admitView (f := fun (s : State) (e : Nat × Nat) => s.feedLoad e.1 e.2)
    (fun s e => Prod.ext (feedLoad_entries s e.1 e.2).1 (feedLoad_entries s e.1 e.2).2) s.stk.loadQ
  have hkeep : s.feedLoads.admitView = s.admitView := (hfold _).trans rfl
  exact of_admitView hkeep

/-! ### Release and residence -/

theorem entryLeaves_removed {s : State} {e : Nat} (hl : (s.entry e).leaving = 2) (hd : (s.entry e).state = .disabled) (hr : (s.entry e).runningIn = []) (hc : s.claimed e = false) :
    s.entryLeaves e = s.emptyEntry e := if_pos ⟨hl, hd, hr, hc⟩
theorem resident_iff (x : Entry) : (maskRanges x.rmask).all (fun r => x.resident.contains r) = true ↔ ∀ q : Fin 4, x.rmask.testBit q = true → q.val ∈ x.resident := by
  simp only [List.all_eq_true, maskRanges, List.mem_filter, List.mem_range, List.contains_iff_mem]
  exact ⟨fun h q hq => h q ⟨q.isLt, hq⟩, fun h r ⟨hr, hb⟩ => h ⟨r, hr⟩ hb⟩
/-- What an entry becomes that leaves LOADING. -/
theorem entryReady_spec {s : State} (hwf : SMapWf ({} : Entry) s.stk.entries = true) (e : Nat) :
    s.entryReady e = { s with stk := (s.entryReady e).stk } ∧ (s.entryReady e).stk.openEpoch = s.stk.openEpoch ∧
      ((s.entryReady e).entry e).state = (if (s.entry e).leaving ≠ 0 then .disabled else if 0 < (s.entry e).arms ∨ (s.entry e).rep = true then .armed else .idle) ∧
      ∀ k, k ≠ e → (s.entryReady e).entry k = s.entry k := by
  unfold State.entryReady
  extract_lets x s1
  split
  case isTrue hl => exact ⟨rfl, rfl, congrArg Entry.state (entry_setEntry hwf e _), fun k hk => entry_setEntry_ne hwf _ hk⟩
  case isFalse hl =>
    have hself : s1.entry e = { x with state := x.rest } := entry_setEntry hwf e _
    have hrest : (s1.entry e).state = if 0 < x.arms ∨ x.rep = true then .armed else .idle := by rw [hself]; rfl
    have hwf1 := entries_setEntry_wf hwf e { x with state := x.rest }
    split
    · refine ⟨(beginArming_rest s1 e).1, (beginArming_rest s1 e).2, ?_, fun k hk => ?_⟩
      · exact (congrArg Entry.state (entry_beginArming hwf1 e)).trans hrest
      · exact (entry_beginArming_ne hwf1 hk).trans (entry_setEntry_ne hwf _ hk)
    · exact ⟨rfl, rfl, hrest, fun k hk => entry_setEntry_ne hwf _ hk⟩
theorem settled_stk {s t : State} (h : t = { s with stk := t.stk }) (ho : t.stk.openEpoch = s.stk.openEpoch) : t.settled = s.settled := by
  rw [State.settled, ho, h]
  rfl

/-- Settles O36: admission, residence and release, each by the lemma on its operation. -/
theorem entriesComeAndGo : Obligations.EntriesComeAndGo := by
  unfold Obligations.EntriesComeAndGo
  intro s hset hcanon hon hwf
  have hwork : s.boot.work = [] := ((settled_iff s).mp hset).2.2.2.1
  have hadmit {x : State} (h : s.admission = x) (hx : x.settled = true) : exec .admission s = .next x := by
    simp only [exec, execAdmission, hon, Bool.false_eq_true, if_false, h, ends_settled x hx]
  refine ⟨fun e rest x1 cost hq ha hs ht => ?_, fun e rest c d x1 hq ha hs hc hm => ?_, fun e => ⟨fun hload hres => ?_, fun hno => ?_, fun hl hd hr hc => ?_⟩⟩
  case refine_1 =>
    have h := admission_passes hq ha hs ht
    obtain ⟨s1, hs1⟩ : ∃ x, x = ({ s with stk := { s.stk with admitQ := rest } } : State).setEntry e { x1 with state := .loading, cost := cost } := ⟨_, rfl⟩
    rw [← hs1] at h
    have hzero := eq_of_bare (foldl_leaves State.bare (f := fun (s : State) (a : Area) => s.zeroArea a) bare_zeroArea (x1.areas.filter fun a => a.owner.isSome) s1)
    generalize List.foldl (fun (s : State) (a : Area) => s.zeroArea a) s1 (x1.areas.filter fun a => a.owner.isSome) = s2 at h hzero
    have hloads : ∀ (g : State → List (Nat × Entry) × List Nat × Bool × List DMsg), (∀ (s : State) q, g { s with stk := { s.stk with loadQ := q } } = g s) →
        g ((maskRanges x1.rmask).foldl (fun s r => { s with stk := { s.stk with loadQ := s.stk.loadQ ++ [(r, e)] } }) s2) = g s2 :=
      fun g hg => foldl_leaves g (fun s r => hg s _) _ _
    have hg := hloads (fun s => (s.stk.entries, s.stk.admitQ, s.settled, s.boot.work)) (fun _ _ => rfl)
    generalize List.foldl (fun (s : State) (r : Nat) => ({ s with stk := { s.stk with loadQ := s.stk.loadQ ++ [(r, e)] } } : State)) s2 (maskRanges x1.rmask) = s3 at h hg
    simp only [Prod.mk.injEq] at hg
    obtain ⟨hent, hadm, hset3, hwork3⟩ := hg
    have hset4 : s3.feedLoads.settled = true := by
      rw [settled_feedLoads, hset3, hzero, hs1]
      exact hset
    obtain ⟨w, hw⟩ := answerWait_idle (((settled_iff _).mp hset4).2.2.2.1) 0 e { dom := 1, code := 0, value := x1.pbase }
    obtain ⟨hfe, hfq⟩ := feedLoads_entries s3
    have hentries : s3.feedLoads.stk.entries = put {} e { x1 with state := .loading, cost := cost } s.stk.entries := by
      rw [hfe, hent, hzero, hs1]
      rfl
    refine ⟨_, hadmit (h.trans hw) hset4, ?_, ?_, fun k hk => ?_⟩
    · exact (congrArg (get {} e) hentries).trans (get_put_self _ _ _ _ hwf)
    · refine (hfq.trans (hadm.trans ?_))
      rw [hzero, hs1]
      rfl
    · exact (congrArg (get {} k) hentries).trans (get_put_ne _ _ _ _ _ hwf hk)
  case refine_2 =>
    obtain ⟨s0, hs0⟩ : ∃ x, x = ({ s with stk := { s.stk with admitQ := rest } } : State) := ⟨_, rfl⟩
    have h := admission_refused hq ha hs hc
    rw [← hs0, State.admitRefuse, State.noteRefused] at h
    obtain ⟨r, st, sf, hempty⟩ := emptyEntry_rest s0 e
    rw [hempty] at h
    obtain ⟨s2, hs2'⟩ : ∃ x, x = ({ s with
        ranges := r, stage := st, stageFill := sf,
        stk := { s.stk with entries := put {} e {} s.stk.entries, admitQ := rest.filter fun k => k != e, lastCode := c, lastDetail := d, lastEntry := e % 1024 } } : State) := ⟨_, rfl⟩
    have h : s.admission = (s2.log 0x0301 .contained .stoker (some (s0.entry e).tenant) [c, d, e]).answerWait 0 e { dom := 1, code := c, value := d } := by
      rw [h, hs2', hs0]
    have hset2 : s2.settled = true := by rw [hs2']; exact hset
    have hm2 : s2.svc.mirrorEn = false := by rw [hs2']; exact hm
    have hhead : s2.svc = s.svc := by rw [hs2']
    have hstk2 : s2.stk = { s.stk with entries := put {} e {} s.stk.entries, admitQ := rest.filter fun k => k != e, lastCode := c, lastDetail := d, lastEntry := e % 1024 } := by rw [hs2']
    obtain ⟨y, hy⟩ : ∃ y, y = s2.log 0x0301 .contained .stoker (some (s0.entry e).tenant) [c, d, e] := ⟨_, rfl⟩
    rw [← hy] at h
    have hsety : y.settled = true := by rw [hy, settled_log hm2]; exact hset2
    have hstky : y.stk = s2.stk := by rw [hy, log_stk]
    obtain ⟨w, hw⟩ := answerWait_idle (((settled_iff _).mp hsety).2.2.2.1) 0 e { dom := 1, code := c, value := d }
    have hentry : y.stk.entries = put {} e {} s.stk.entries := by rw [hstky, hstk2]
    refine ⟨_, hadmit (h.trans hw) hsety, ?_, ?_, ?_, ?_, ?_, fun k hk => ?_⟩
    · exact (congrArg (get {} e) hentry).trans (get_put_self _ _ _ _ hwf)
    · exact congrArg (·.lastCode) (hstky.trans hstk2)
    · exact congrArg (·.lastDetail) (hstky.trans hstk2)
    · exact congrArg (·.lastEntry) (hstky.trans hstk2)
    · change y.svc.head = _
      rw [hy, log_head, hhead]
    · exact (congrArg (get {} k) hentry).trans (get_put_ne _ _ _ _ _ hwf hk)
  case refine_3 =>
    obtain ⟨hrest, hepoch, hstate, hothers⟩ := entryReady_spec hwf e
    have hready : s.entryResident e = s.entryReady e := if_pos ⟨hload, (resident_iff _).mpr hres⟩
    rw [← hready] at hrest hepoch hstate hothers
    refine ⟨s.entryResident e, ?_, hstate, ?_, ?_, ?_, hothers⟩
    · simp only [exec, execEntryResident, hon, Bool.false_eq_true, if_false]
      exact ends_settled _ ((settled_stk hrest hepoch).trans hset)
    all_goals rw [hrest]
  case refine_4 =>
    have hstay : s.entryResident e = s := by
      refine if_neg fun h => ?_
      rcases hno with hno | ⟨q, hb, hq⟩
      · exact hno h.1
      · exact hq ((resident_iff _).mp h.2 q hb)
    simp only [exec, execEntryResident, hon, Bool.false_eq_true, if_false, hstay, ends_settled _ hset]
  case refine_5 =>
    have h := entryLeaves_removed hl hd hr hc
    obtain ⟨r, st, sf, hempty⟩ := emptyEntry_rest s e
    rw [← h] at hempty
    refine ⟨s.entryLeaves e, ?_, ?_, ?_, ?_, ?_, fun k hk => ?_⟩
    · have hx : (s.entryLeaves e).settled = true := by rw [hempty]; exact hset
      simp only [exec, execEntryRelease, hon, Bool.false_eq_true, if_false]
      exact ends_settled _ hx
    · rw [hempty]; exact get_put_self _ _ _ _ hwf
    · rw [hempty]
    · rw [hempty]
    · rw [hempty]
    · rw [hempty]; exact get_put_ne _ _ _ _ _ hwf hk

end Sys2Proof.Machine
end

section
/-! What a link does with the packets it receives (R270, R289, R297, R325). -/
namespace Sys2Proof.Machine

/-! ### A gate's counters -/

theorem bumpGate_setGate {s : State} (h : s.canon = true) (l off : Nat) (d : Word) (x : Gate) :
    (s.setGate l x).bumpGate l off d = s.setGate l { x with cnt := upd 0 ((off - 0x80) / 4) (· + d) x.cnt } := by
  unfold State.bumpGate
  rw [gate_setGate h, setGate_setGate h]
/-- A gate with the report of the FEC counted. -/
def Gate.fecCounted (g : Gate) (f : FecReport) : Gate :=
  { g with
    cnt := upd 0 4 (· + BitVec.ofNat 32 f.uncorrectable) (upd 0 3 (· + BitVec.ofNat 32 f.corrected) g.cnt),
    laneErr := f.lanes.zipIdx.foldl (fun m e => upd 0 e.2 (· + BitVec.ofNat 32 e.1) m) g.laneErr }
theorem noteFec_setGate {s : State} (h : s.canon = true) (l : Nat) (x : Gate) (f : FecReport) : (s.setGate l x).noteFec l f = s.setGate l (x.fecCounted f) := by
  unfold State.noteFec
  rw [bumpGate_setGate h, bumpGate_setGate h]
  extract_lets s1 g1
  have hg : g1 = _ := gate_setGate h l _
  rw [hg, setGate_setGate h]
  rfl

/-! ### Reception -/

/-- A packet whose header the receiver looks at. -/
theorem linkReceive_looks {s : State} (hs : s.canon = true) {l n : Nat} {b : Bytes} {f : FecReport} (hup : (s.gate l).state = .up) (hlost : (s.gate l).lost = false)
    (hn : (s.gate l).rxSlot ≤ n) (hdata : dataSlot n = true) (hcrc : hcrcOk b = true) (h64 : 64 ≤ b.length) (hlen : b.length = 64 * (1 + hdrFlits b)) :
    s.linkReceive l b n f = (if isIdle b then s.setGate l { ((s.gate l).received (slotAfter n (hdrFlits b))).fecCounted f with hdrAt := none }
      else if (parsePacket b).vc = 5 then (s.setGate l { ((s.gate l).received (slotAfter n (hdrFlits b))).fecCounted f with hdrAt := none }).rxDatagram l (parsePacket b) (pcrcOk b && !f.hit)
      else (s.setGate l { ((s.gate l).received (slotAfter n (hdrFlits b))).fecCounted f with hdrAt := none }).rxReliable l (parsePacket b) (pcrcOk b && !f.hit)) := by
  have hcomes : ((s.gate l).comes n && dataSlot n && hcrcOk b && decide (64 ≤ b.length) && decide (b.length = 64 * (1 + hdrFlits b))) = true := by
    rw [hdata, hcrc, decide_eq_true h64, decide_eq_true hlen, Gate.comes, Gate.accepts, hup, decide_eq_true hn]
    rfl
  have hlook : ¬((!(((s.gate l).received (slotAfter n (hdrFlits b))).fecCounted f).looksAt n) = true) := by
    have h0 : (((s.gate l).received (slotAfter n (hdrFlits b))).fecCounted f).lost = false := hlost
    rw [Gate.looksAt, h0]
    simp
  have hsame : ({ ((s.gate l).received (slotAfter n (hdrFlits b))).fecCounted f with lost := false, hdrAt := none } : Gate) =
      { ((s.gate l).received (slotAfter n (hdrFlits b))).fecCounted f with hdrAt := none } := by
    rw [← hlost]
    rfl
  unfold State.linkReceive
  simp only [hcomes, if_true, noteFec_setGate hs, gate_setGate hs, setGate_setGate hs, hsame]
  exact if_neg hlook
theorem packetWake_up {s : State} {l : Nat} (h : (s.gate l).state = .up) (p : Packet) : s.packetWake l p = s := by
  unfold State.packetWake
  extract_lets poll
  rw [h]
  simp
/-- Progress is at most noted. -/
theorem packetProgress_rest (s : State) (p : Packet) : ∃ b, s.packetProgress p = { s with stk := { s.stk with progress := b } } := by
  unfold State.packetProgress
  split
  · exact ⟨true, rfl⟩
  · exact ⟨s.stk.progress, rfl⟩
theorem arrive_accepted {s : State} {l : Nat} {p : Packet} (hup : (s.gate l).state = .up) (hpart : p.part = s.rt.part) (hf : p.part ≠ 0xF) (hm : p.malformed = false) :
    ∃ b, s.arrive l p = { s.setGate l { s.gate l with rx := upd [] p.vc (· ++ [p]) (s.gate l).rx } with stk := { s.stk with progress := b } } := by
  obtain ⟨b, hb⟩ := packetProgress_rest (s.setGate l { s.gate l with rx := upd [] p.vc (· ++ [p]) (s.gate l).rx }) p
  refine ⟨b, Eq.trans ?_ hb⟩
  unfold State.arrive
  rw [packetWake_up hup]
  simp only [hm, Bool.false_eq_true, if_false]
  rw [if_neg (fun h => h.1 hpart), if_neg (fun h => hf h.1)]
theorem arrive_foreign {s : State} {l : Nat} {p : Packet} (hup : (s.gate l).state = .up) (hpart : p.part ≠ s.rt.part) (hf : p.part ≠ 0xF) :
    s.arrive l p = { s with rt := { s.rt with pdrop := s.rt.pdrop + 1 } } := by
  unfold State.arrive
  rw [packetWake_up hup]
  exact if_pos ⟨hpart, hf⟩
theorem rxReliable_expected {s : State} {l : Nat} {p : Packet} (hseq : BitVec.ofNat 12 p.seq = (s.gate l).ers) (hroom : (s.gate l).room p = true) :
    s.rxReliable l p true = (s.setGate l { s.gate l with ers := (s.gate l).ers + 1, nakPend := false }).arrive l p := by
  unfold State.rxReliable
  simp only [hseq, BitVec.sub_self, hroom, if_true, Bool.not_true, Bool.false_eq_true, if_false]
  rfl
theorem rxReliable_earlier {s : State} {l : Nat} {p : Packet} (h : 2048 ≤ (BitVec.ofNat 12 p.seq - (s.gate l).ers).toNat) (ok : Bool) : s.rxReliable l p ok = s := by
  unfold State.rxReliable
  extract_lets g d
  have hd : d ≠ 0 := fun h0 => absurd (show 2048 ≤ d from h) (by omega)
  rw [if_neg hd]
  exact if_pos h
theorem rxReliable_later {s : State} {l : Nat} {p : Packet} (h0 : 0 < (BitVec.ofNat 12 p.seq - (s.gate l).ers).toNat) (h : (BitVec.ofNat 12 p.seq - (s.gate l).ers).toNat < 2048) (ok : Bool) :
    s.rxReliable l p ok = s.setGate l ((s.gate l).nak false) := by
  unfold State.rxReliable
  extract_lets g d
  have hd : d ≠ 0 := Nat.pos_iff_ne_zero.mp h0
  rw [if_neg hd]
  exact if_neg (Nat.not_le.mpr h)

/-- Settles O44: the receiver's gate is that of `linkReceive_looks`; each clause is one outcome of the sequence check. -/
theorem packetsReceived : Obligations.PacketsReceived := by
  unfold Obligations.PacketsReceived
  intro l b n fec s g g1 p hset hcanon hg hup hlost hn hdata hhit hcrc h64 hlen hp hg1
  subst hg hp
  have hlooks := linkReceive_looks hcanon (f := fec) hup hlost hn hdata hcrc h64 hlen
  have hgate : { ((s.gate l).received (slotAfter n (hdrFlits b))).fecCounted fec with hdrAt := none } = g1 := hg1.symm
  rw [hgate, hhit, Bool.not_false, Bool.and_true] at hlooks
  have hstate1 : g1.state = .up := by rw [hg1]; exact hup
  have hers1 : g1.ers = (s.gate l).ers := by rw [hg1]
  have hroom1 (p : Packet) : g1.room p = (s.gate l).room p := by rw [hg1]; rfl
  have hrx1 : g1.rx = (s.gate l).rx := by rw [hg1]
  have hnak1 : g1.nakPend = (s.gate l).nakPend ∧ g1.nakId = (s.gate l).nakId := by rw [hg1]; exact ⟨rfl, rfl⟩
  clear hgate hg1
  obtain ⟨s1, hs1⟩ : ∃ x, x = s.setGate l g1 := ⟨_, rfl⟩
  have hset1 : s1.settled = true := by rw [hs1]; exact hset
  have hgate1 : s1.gate l = g1 := by rw [hs1, gate_setGate hcanon]
  rw [← hs1] at hlooks ⊢
  have hexec {x : State} (h : s.linkReceive l b n fec = x) (hx : x.settled = true) : exec (.linkPacketReceive l b ⟨n, fec⟩) s = .next x := by
    simp only [exec, execLinkPacketReceive, h, ends_settled x hx]
  have hreliable (hidle : isIdle b = false) (hvc : (parsePacket b).vc ≠ 5) : s.linkReceive l b n fec = s1.rxReliable l (parsePacket b) (pcrcOk b) := by
    rw [hlooks, if_neg (by simp [hidle]), if_neg hvc]
  have hexpected (hidle : isIdle b = false) (hvc : (parsePacket b).vc ≠ 5) (hseq : BitVec.ofNat 12 (parsePacket b).seq = (s.gate l).ers) (hpcrc : pcrcOk b = true)
      (hroom : (s.gate l).room (parsePacket b) = true) :
      s.linkReceive l b n fec = (s.setGate l { g1 with ers := (s.gate l).ers + 1, nakPend := false }).arrive l (parsePacket b) := by
    rw [hreliable hidle hvc, hpcrc, rxReliable_expected (by rw [hgate1, hers1]; exact hseq) (by rw [hgate1, hroom1]; exact hroom), hgate1, hers1, hs1, setGate_setGate hcanon]
  refine ⟨fun hidle => hexec (hlooks.trans (if_pos hidle)) hset1, fun hidle hvc hseq hpcrc hroom hpart hf hm => ?_, fun hidle hvc hseq hpcrc hroom hpart hf => ?_,
    fun hidle hvc hd => ?_, fun hidle hvc h0 hd hnak => ?_⟩
  case refine_1 =>
    have h := hexpected hidle hvc hseq hpcrc hroom
    obtain ⟨s2, hs2⟩ : ∃ x, x = s.setGate l { g1 with ers := (s.gate l).ers + 1, nakPend := false } := ⟨_, rfl⟩
    have hgate2 : s2.gate l = { g1 with ers := (s.gate l).ers + 1, nakPend := false } := by rw [hs2, gate_setGate hcanon]
    have hcanon2 : s2.canon = true := by rw [hs2]; exact canon_setGate hcanon _ _
    rw [← hs2] at h
    obtain ⟨pr, harr⟩ := arrive_accepted (s := s2) (l := l) (p := parsePacket b) (by rw [hgate2]; exact hstate1) (by rw [hs2]; exact hpart) hf hm
    have hx := h.trans harr
    have hrest : { s2.setGate l { s2.gate l with rx := upd [] (parsePacket b).vc (· ++ [parsePacket b]) (s2.gate l).rx } with stk := { s2.stk with progress := pr } } =
        { s with gates := (s2.setGate l { s2.gate l with rx := upd [] (parsePacket b).vc (· ++ [parsePacket b]) (s2.gate l).rx }).gates, stk := { s.stk with progress := pr } } := by rw [hs2]; rfl
    refine ⟨_, hexec hx (by rw [hrest]; exact hset), hrest, ?_, fun k hk => ?_⟩
    · change (s2.setGate l _).gate l = _
      rw [gate_setGate hcanon2, hgate2, hrx1]
    · change (s2.setGate l _).gate k = _
      rw [gate_setGate_ne hcanon2 _ hk, hs2, gate_setGate_ne hcanon _ hk]
  case refine_2 =>
    have h := hexpected hidle hvc hseq hpcrc hroom
    obtain ⟨s2, hs2⟩ : ∃ x, x = s.setGate l { g1 with ers := (s.gate l).ers + 1, nakPend := false } := ⟨_, rfl⟩
    have hgate2 : s2.gate l = { g1 with ers := (s.gate l).ers + 1, nakPend := false } := by rw [hs2, gate_setGate hcanon]
    rw [← hs2] at h ⊢
    rw [arrive_foreign (by rw [hgate2]; exact hstate1) (by rw [hs2]; exact hpart) hf] at h
    have hrt : s2.rt = s.rt := by rw [hs2]; rfl
    rw [hrt] at h
    exact hexec h (by rw [hs2]; exact hset)
  case refine_3 => exact hexec ((hreliable hidle hvc).trans (rxReliable_earlier (by rw [hgate1, hers1]; exact hd) _)) hset1
  case refine_4 =>
    have h := (hreliable hidle hvc).trans (rxReliable_later (by rw [hgate1, hers1]; exact h0) (by rw [hgate1, hers1]; exact hd) _)
    have hnakked : g1.nak false = { g1 with nakPend := true, nakSeq := (s.gate l).ers, nakId := (s.gate l).nakId + 1 } := by
      rw [Gate.nak, hnak1.1, hnak, hers1, hnak1.2]
      rfl
    rw [hgate1, hnakked, hs1, setGate_setGate hcanon] at h
    exact hexec h hset

end Sys2Proof.Machine
end

section
/-! What a link sends in a data slot: a counterexample to the statement on a replay (R477, R280). -/
namespace Sys2Proof.Machine

/-- A packet of one payload flit. -/
def mirroredPacket : Packet := { flits := [([], false)] }
/-- A gate that replays that packet and stands before a control slot with the header's slot, while both ends ask for the narrow link. -/
def narrowingGate : Gate := { state := .up, txSlot := 30, resend := [mirroredPacket], pnarrow := true, narrowReq := true }
/-- A part that mirrors its log, with that gate. -/
def narrowingPart : State := ({ svc := { mirrorEn := true } } : State).setGate 0 narrowingGate
/-- What the statement claims to be the next state: the packet is sent and the link is narrow, and LINK_NARROW still waits for the mirror. -/
def narrowedPart : State := (narrowingPart.setGate 0 { narrowingGate with resend := [] }).sendBytes 0 (packetBytes mirroredPacket)

theorem narrowingPart_settled : narrowingPart.settled = true ∧ narrowingPart.canon = true ∧ narrowingPart.gate 0 = narrowingGate := by decide
theorem narrowedPart_endsMirroring : narrowedPart.settledButMirror = true ∧ narrowedPart.svc.mirDrop = 0 ∧ narrowedPart.flush.svc.mirDrop = 1 := by decide +kernel
/-- The transmission ends with the mirror message of LINK_NARROW, which the closed channel refuses. -/
theorem exec_narrowingPart : exec (.packetTransmit 0) narrowingPart = .next narrowedPart.flush := by
  obtain ⟨hset, hcanon, hgate⟩ := narrowingPart_settled
  have hsend : narrowingPart.transmit 0 = narrowedPart := by
    have hcontrol : narrowingPart.sendControl 0 0 = narrowingPart := by
      unfold State.sendControl
      rw [hgate]
      rfl
    have hstart : narrowingPart.startSlot 0 = narrowedPart := by
      unfold State.startSlot
      rw [hgate]
      exact if_neg (show narrowingGate.state ≠ .hold by decide)
    have hup : narrowingGate.accepts = true := rfl
    unfold State.transmit
    simp only [hcontrol, hgate, hup, if_true, hstart]
  change (narrowingPart.transmit 0).ends = _
  rw [hsend]
  exact ends_settledButMirror narrowedPart_endsMirroring.1

/-- Refutes O45: in a control slot within a replayed packet the link becomes narrow, LINK_NARROW is logged, and where the log is mirrored the
command does not end before its message has been sent, or counted as refused. -/
theorem not_packetsSent : ¬ Obligations.PacketsSent := by
  unfold Obligations.PacketsSent
  intro h
  obtain ⟨hset, hcanon, hgate⟩ := narrowingPart_settled
  obtain ⟨-, hdata⟩ := h 0 narrowingPart narrowingGate hset hcanon hgate.symm
  obtain ⟨-, hreplay, -⟩ := hdata rfl
  have hclaim : exec (.packetTransmit 0) narrowingPart = .next narrowedPart := hreplay mirroredPacket [] (.inl rfl) rfl
  have heq : narrowedPart.flush = narrowedPart := Host.Outcome.next.inj (exec_narrowingPart.symm.trans hclaim)
  obtain ⟨-, hbefore, hafter⟩ := narrowedPart_endsMirroring
  rw [heq, hbefore] at hafter
  exact absurd hafter (by decide)

end Sys2Proof.Machine
end

section
/-! Messages of channels: arrival, placement and abandonment (R206 to R214, R229). -/
namespace Sys2Proof.Machine

/-! ### The spine -/

/-- A stop hands a load to the spine: only the bridges' queues, the mantel's, and the turn change. -/
theorem spineDeliver_hands {s : State} (hs : s.canon = true) {src dst : Nat} {l : Load} (hon : s.mantelOff = false) (hturn : s.spineTurn = some src) (hroom : s.spineRoom dst = true)
    (hl : (s.spineOut src).find? (fun z => z.dq == dst) = some l) :
    ∃ s1 : State, s.spineDeliver src dst = s1.spineTo dst l ∧ s1 = { s with ranges := s1.ranges, mantelOut := s1.mantelOut, spineLast := src } ∧ s1.canon = true ∧
      ∀ k, ∃ a b, s1.range k = { s.range k with brOut := a, movLoads := b } := by
  have hpick : (if s.mantelOff || s.spineTurn != some src || !s.spineRoom dst then none else (s.spineOut src).find? fun z => z.dq == dst) = some l := by
    rw [hon, hturn, hroom, hl]
    simp
  unfold State.spineDeliver
  simp only [hpick]
  by_cases h4 : src = 4
  · rw [if_pos h4]
    exact ⟨_, rfl, rfl, hs, fun k => ⟨_, _, rfl⟩⟩
  · rw [if_neg h4]
    obtain ⟨s0, hs0⟩ : ∃ x, x = ({ s with spineLast := src } : State).setRange src { s.range src with brOut := (s.spineOut src).eraseP fun z => z.dq == dst } := ⟨_, rfl⟩
    have hcanon0 : s0.canon = true := by rw [hs0]; exact canon_setRange (s := { s with spineLast := src }) hs _ _
    have hsrc0 : s0.range src = { s.range src with brOut := (s.spineOut src).eraseP fun z => z.dq == dst } := by
      rw [hs0]; exact range_setRange (s := { s with spineLast := src }) hs _ _
    obtain ⟨k, o, hbridge⟩ := settleBridge_rest s0 src
    refine ⟨s0.settleBridge src, by rw [hs0]; rfl, ?_, ?_, fun j => ?_⟩
    · rw [hbridge, hs0]; rfl
    · rw [hbridge]; exact canon_setRange hcanon0 _ _
    · by_cases hj : j = src
      · rw [hj, hbridge, range_setRange hcanon0, hsrc0]
        exact ⟨_, _, rfl⟩
      · rw [hbridge, range_setRange_ne hcanon0 _ hj, hs0, range_setRange_ne (s := { s with spineLast := src }) hs _ hj]
        exact ⟨_, _, rfl⟩

/-! ### Channels -/

theorem chan_setChan {s : State} (h : SMapWf ({} : Channel) s.flg.chans = true) (c : Nat) (x : Channel) : (s.setChan c x).chan c = x := get_put_self _ _ _ _ h
theorem chan_setChan_ne {s : State} (h : SMapWf ({} : Channel) s.flg.chans = true) {c k : Nat} (x : Channel) (hk : k ≠ c) : (s.setChan c x).chan k = s.chan k :=
  get_put_ne _ _ _ _ _ h hk
theorem slotAddr_mod (x : Channel) (n : Nat) : x.slotAddr (n % x.slots) = x.slotAddr n := by rw [Channel.slotAddr, Nat.mod_mod, Channel.slotAddr]
theorem ChMsg.take_first (m : ChMsg) (h : m.got = []) (n : Nat) : m.take 0 n = { m with got := List.range n } := by
  simp [ChMsg.take, h]
/-- The message that a first packet begins. -/
def Packet.firstMsg (p : Packet) (x : Channel) : ChMsg :=
  { slot := x.ac.toNat % x.slots, mlines := p.mlines, src := p.src, unit := p.sunit, tag := p.tag, num := x.ac.toNat, got := List.range p.flits.length }
theorem clean_flits {fl : List (Bytes × Bool)} (h : ∀ f ∈ fl, f.2 = false) : (fl.any fun l => l.2) = false := by
  rw [List.any_eq_false]
  intro f hf
  simp [h f hf]
theorem msgArrive_first {s : State} {p : Packet} (ho : p.moffset = 0) (hj : s.judgeMsg (s.chan p.channel) (some p.tenant) p.mlines = 0) (hn : p.flits.length ≤ p.mlines)
    (hclean : ∀ f ∈ p.flits, f.2 = false) :
    s.msgArrive p.channel p.src p.sunit p.tag (some p.tenant) p.mlines p.moffset p.flits =
      ({ s.setChan p.channel { s.chan p.channel with ac := (s.chan p.channel).ac + 1, accepted := (s.chan p.channel).accepted + 1, msgs := (s.chan p.channel).msgs ++ [p.firstMsg (s.chan p.channel)] } with
          mantelOut := s.mantelOut ++ lineLoads ((s.chan p.channel).slotAddr (s.chan p.channel).ac.toNat) (s.chan p.channel).tenant (fun k n => .ring p.channel (s.chan p.channel).ac.toNat k n) p.flits }, 0) := by
  have hcode : (if (s.chan p.channel).everOpen = true ∧ p.mlines < p.flits.length then 8 else s.judgeMsg (s.chan p.channel) (some p.tenant) p.mlines) = 0 := by
    rw [if_neg (fun h => absurd h.2 (Nat.not_lt.mpr hn)), hj]
  unfold State.msgArrive
  simp only [ho, if_true, hcode, ne_eq, not_true_eq_false, if_false, clean_flits hclean, Bool.false_eq_true, State.ringLines, Nat.mul_zero, Nat.add_zero, slotAddr_mod, Nat.zero_add]
  rw [ChMsg.take_first _ rfl]
  rfl
theorem msgArrive_refused {s : State} {p : Packet} {c : Nat} (ho : p.moffset = 0) (hj : s.judgeMsg (s.chan p.channel) (some p.tenant) p.mlines = c) (hc : c ≠ 0)
    (hn : (s.chan p.channel).everOpen = true → p.flits.length ≤ p.mlines) :
    s.msgArrive p.channel p.src p.sunit p.tag (some p.tenant) p.mlines p.moffset p.flits = (s.setChan p.channel ((s.chan p.channel).countRefusal c), c) := by
  have hcode : (if (s.chan p.channel).everOpen = true ∧ p.mlines < p.flits.length then 8 else s.judgeMsg (s.chan p.channel) (some p.tenant) p.mlines) = c := by
    rw [if_neg (fun h => absurd h.2 (Nat.not_lt.mpr (hn h.1))), hj]
  unfold State.msgArrive
  simp only [ho, if_true, hcode, ne_eq, hc, not_false_eq_true]

/-! ### Placement -/

theorem chanProgress_rest (s : State) (c : Nat) : ∃ b, s.chanProgress c = { s with stk := { s.stk with progress := b } } := by
  unfold State.chanProgress
  split
  · exact ⟨true, rfl⟩
  · exact ⟨s.stk.progress, rfl⟩
/-- What an increment of a flag by a tenant changes. -/
theorem flagAdd_rest (s : State) (t f : Nat) (d : Word) : s.flagAdd t f d = { s with flg := { s.flg with val := (s.flagAdd t f d).flg.val, drops := (s.flagAdd t f d).flg.drops }, stk := { s.stk with progress := (s.flagAdd t f d).stk.progress } } := by
  unfold State.flagAdd
  split
  · obtain ⟨b, hb⟩ := bumpFlagP_stk s f d
    have h := bumpFlagP_eq s f d
    rw [hb] at h
    rw [h]
  · rfl
theorem advanceWp_rest (s : State) (c : Nat) :
    (s.advanceWp c) = { s with flg := (s.advanceWp c).flg, stk := { s.stk with progress := (s.advanceWp c).stk.progress } } ∧
      (s.advanceWp c).flg.chans = put {} c { s.chan c with wp := (s.chan c).wp + 1, ac := if (s.chan c).chimney then (s.chan c).wp + 1 else (s.chan c).ac } s.flg.chans ∧
      (s.advanceWp c).flg.chims = s.flg.chims ∧
      (SMapWf (0 : Word) s.flg.val = true → (s.chan c).notifyEn = true → s.mayUseFlag (s.chan c).tenant (s.chan c).notify = true → (s.advanceWp c).flag (s.chan c).notify = s.flag (s.chan c).notify + 1) ∧
      ((s.chan c).notifyEn = false → (s.advanceWp c).flg.val = s.flg.val) := by
  unfold State.advanceWp
  extract_lets x s1
  obtain ⟨b, hb⟩ := chanProgress_rest (s.setChan c { x with wp := x.wp + 1, ac := if x.chimney then x.wp + 1 else x.ac }) c
  have hs1 : s1 = { s.setChan c { x with wp := x.wp + 1, ac := if x.chimney then x.wp + 1 else x.ac } with stk := { s.stk with progress := b } } := hb
  clear_value s1
  split
  case isTrue hn =>
    have h := flagAdd_rest s1 x.tenant x.notify 1
    refine ⟨?_, ?_, ?_, fun hv _ hmay => ?_, fun h0 => absurd hn (by rw [show x.notifyEn = false from h0]; exact Bool.false_ne_true)⟩
    · generalize s1.flagAdd x.tenant x.notify 1 = y at h
      rw [h, hs1]
      rfl
    · rw [h, hs1]
      rfl
    · rw [h, hs1]
      rfl
    · have hmay1 : s1.mayUseFlag x.tenant x.notify = true := by rw [hs1]; exact hmay
      have hbump := flag_bumpFlagP (s := s1) (by rw [hs1]; exact hv) x.notify x.notify 1
      rw [if_pos rfl] at hbump
      rw [flagAdd_permitted hmay1]
      refine hbump.trans ?_
      rw [hs1]
      rfl
  case isFalse hn =>
    rw [hs1]
    exact ⟨rfl, rfl, rfl, fun _ h => absurd h hn, fun _ => rfl⟩
theorem messagePlaced_head {s : State} {c : Nat} {m : ChMsg} {rest : List ChMsg} (hm : (s.chan c).msgs = m :: rest) (hp : m.placed = true) :
    s.messagePlaced c = ((s.setChan c { s.chan c with msgs := rest }).advanceWp c).settleChan c := by
  unfold State.messagePlaced
  simp only [hm, hp, if_true]
theorem settleChan_closes {s : State} {c : Nat} (h : (s.chan c).state = .closing ∧ (s.chan c).wp = (s.chan c).ac) (hch : (s.chan c).chimney = false) :
    s.settleChan c = s.setChan c { s.chan c with state := .closed, frozen := (s.chan c).wp - s.flag (s.chan c).rpflag } := by
  have hdepth : s.depth (s.chan c) = (s.chan c).wp - s.flag (s.chan c).rpflag := by
    unfold State.depth
    rw [h.1]
    rfl
  unfold State.settleChan
  rw [if_pos ⟨h.1, by rw [hch]; rfl, h.2⟩, hdepth]
theorem settleChan_stays {s : State} {c : Nat} (h : ¬((s.chan c).state = .closing ∧ (s.chan c).wp = (s.chan c).ac)) : s.settleChan c = s :=
  if_neg fun hc => h ⟨hc.1, hc.2.2⟩

/-! ### Abandonment -/

theorem foldl_ringLines (c num t : Nat) (a : Nat) (z : List (Bytes × Bool)) (is : List Nat) (s : State) :
    is.foldl (fun s i => s.ringLines c num t a i z) s = { s with mantelOut := s.mantelOut ++ is.flatMap fun i => lineLoads (a + 64 * i) t (fun k n => .ring c num (i + k) n) z } := by
  induction is generalizing s with
  | nil => simp
  | cons i is ih =>
    rw [List.foldl_cons, ih, List.flatMap_cons, ← List.append_assoc]
    rfl
theorem messageAbandon_open {s : State} {c slot : Nat} {m : ChMsg} (h : (s.chan c).msgs.find? (fun m => m.slot == slot && !m.whole) = some m) :
    ∃ flg : Flags, s.messageAbandon c slot = { s with flg := flg, mantelOut := s.mantelOut ++ ((List.range m.mlines).filter fun i => !m.got.contains i).flatMap (fun i => lineLoads ((s.chan c).slotAddr m.slot + 64 * i) (s.chan c).tenant (fun k n => .ring c m.num (i + k) n) [(List.replicate 64 0, false)]) } ∧
      flg.chans = put {} c { s.chan c with partials := (s.chan c).partials + 1, msgs := updFirst (fun m => m.slot == slot && !m.whole) (fun m => { m with got := List.range m.mlines, abandoned := true }) (s.chan c).msgs } s.flg.chans ∧
      flg.val = s.flg.val := by
  unfold State.messageAbandon
  simp only [h, foldl_ringLines]
  exact ⟨_, rfl, rfl, rfl⟩

/-- Settles O39: arrival, placement and abandonment of a message, each by the lemma on its operation. -/
theorem messages : Obligations.Messages := by
  unfold Obligations.Messages
  refine ⟨?_, ?_⟩
  · intro l v s p rest x hset hcanon hwf hhead hsrc ho hx
    subst hx
    have hexec (hb : s.behindWrite p = false) {r : State × Nat} (hr : (s.taken l v rest).msgArrive p.channel p.src p.sunit p.tag (some p.tenant) p.mlines p.moffset p.flits = r) :
        exec (.msg l v) s = (State.settleReq r l p).ends := by
      change (s.onPacket l.val v.val opMsg fun s p => s.rxMsg l.val p).ends = _
      rw [onPacket_taken hhead hb, ← hr]
      rfl
    refine ⟨fun hb => ?_, fun hb hj hn hclean => ?_, fun hb hopen hn hj => ?_⟩
    case refine_1 =>
      change (s.onPacket l.val v.val opMsg fun s p => s.rxMsg l.val p).ends = _
      rw [onPacket_waits hhead hb, ends_settled s hset]
    case refine_2 =>
      have hr := msgArrive_first (s := s.taken l v rest) ho hj hn hclean
      have h := hexec hb hr
      generalize hy : ({ (s.taken l v rest).setChan p.channel { (s.taken l v rest).chan p.channel with ac := ((s.taken l v rest).chan p.channel).ac + 1, accepted := ((s.taken l v rest).chan p.channel).accepted + 1, msgs := ((s.taken l v rest).chan p.channel).msgs ++ [p.firstMsg ((s.taken l v rest).chan p.channel)] } with
          mantelOut := (s.taken l v rest).mantelOut ++ lineLoads (((s.taken l v rest).chan p.channel).slotAddr ((s.taken l v rest).chan p.channel).ac.toNat) ((s.taken l v rest).chan p.channel).tenant (fun k n => .ring p.channel ((s.taken l v rest).chan p.channel).ac.toNat k n) p.flits } : State) = y at h
      have hreq := settleReq_gate (u := l) l.isLt (s := y) (p := p) (by rw [← hy]; exact hsrc) 0
      generalize State.settleReq (y, 0) l p = s' at h hreq
      have hflg : s'.flg.chans = put {} p.channel { s.chan p.channel with ac := (s.chan p.channel).ac + 1, accepted := (s.chan p.channel).accepted + 1, msgs := (s.chan p.channel).msgs ++ [p.firstMsg (s.chan p.channel)] } s.flg.chans := by
        rw [hreq, ← hy]; rfl
      refine ⟨s', h.trans (ends_settled s' (by rw [hreq, ← hy]; exact hset)), ?_, ?_, ?_, fun k hk => ?_, ?_, ?_⟩
      · exact (congrArg (get {} p.channel) hflg).trans (get_put_self _ _ _ _ hwf)
      · rw [hreq, ← hy]; rfl
      · rw [hreq, ← hy]; rfl
      · exact (congrArg (get {} k) hflg).trans (get_put_ne _ _ _ _ _ hwf hk)
      · rw [hreq, ← hy]; rfl
      · rw [hreq, ← hy]; rfl
    case refine_3 =>
      have hr := msgArrive_refused (s := s.taken l v rest) ho hj (by decide) (fun _ => hn)
      have h := hexec hb hr
      generalize hy : (s.taken l v rest).setChan p.channel (((s.taken l v rest).chan p.channel).countRefusal 2) = y at h
      have hreq := settleReq_gate (u := l) l.isLt (s := y) (p := p) (by rw [← hy]; exact hsrc) 2
      generalize State.settleReq (y, 2) l p = s' at h hreq
      have hflg : s'.flg.chans = put {} p.channel { s.chan p.channel with dropClosed := (s.chan p.channel).dropClosed + 1 } s.flg.chans := by
        rw [hreq, ← hy]; rfl
      refine ⟨s', h.trans (ends_settled s' (by rw [hreq, ← hy]; exact hset)), ?_, ?_, ?_, ?_⟩
      · exact (congrArg (get {} p.channel) hflg).trans (get_put_self _ _ _ _ hwf)
      · rw [hreq, ← hy]; rfl
      · rw [hreq, ← hy]; rfl
      · rw [hreq, ← hy]; rfl
  · intro c s x hset hcanon hon hwf hval hx
    subst hx
    refine ⟨fun src ld num o n hturn hld hk horg => ?_, fun m rest hm hp hch => ?_, fun slot m hstop hm => ?_⟩
    case refine_1 =>
      obtain ⟨s1, hdel, hs1, -, -⟩ := spineDeliver_hands hcanon hon hturn rfl hld
      have hhome : s1.spineTo 4 ld = s1.ringPlaced c num o n := by
        simp only [State.spineTo, if_true, hk, State.home, horg]
      have hset1 : (s1.ringPlaced c num o n).settled = true := by rw [hs1]; exact hset
      refine ⟨s1.ringPlaced c num o n, ?_, ?_, ?_⟩
      · change (s.spineDeliver src 4).ends = _
        rw [hdel, hhome, ends_settled _ hset1]
      · have hflg : s1.flg = s.flg := by rw [hs1]
        have hc1 : s1.chan c = s.chan c := congrArg (fun f : Flags => get ({} : Channel) c.val f.chans) hflg
        rw [State.ringPlaced, hc1]
        exact chan_setChan (s := s1) (by rw [hflg]; exact hwf) _ _
      · rw [hs1]; rfl
    case refine_2 =>
      have h := messagePlaced_head hm hp
      obtain ⟨s1, hs1⟩ : ∃ y, y = s.setChan c { s.chan c with msgs := rest } := ⟨_, rfl⟩
      have hc1 : s1.chan c = { s.chan c with msgs := rest } := by rw [hs1, chan_setChan hwf]
      have hwf1 : SMapWf ({} : Channel) s1.flg.chans = true := by rw [hs1]; exact put_wf hwf
      obtain ⟨hrest, hchans, -, hnot, hno⟩ := advanceWp_rest s1 c
      rw [← hs1] at h
      generalize s1.advanceWp c = s2 at h hrest hchans hnot hno
      have hc2 : s2.chan c = { s.chan c with wp := (s.chan c).wp + 1, msgs := rest } := by
        refine (congrArg (get {} c.val) hchans).trans ((get_put_self _ _ _ _ hwf1).trans ?_)
        rw [hc1]
        simp only [hch, Bool.false_eq_true, if_false]
      have hwf2 : SMapWf ({} : Channel) s2.flg.chans = true := by rw [hchans]; exact put_wf hwf1
      have hset2 : s2.settled = true := by rw [hrest, hs1]; exact hset
      have hplace {y : State} (hy : s2.settleChan c = y) (hset : y.settled = true) : exec (.messagePlaced c) s = .next y := by
        simp only [exec, execMessagePlaced, hon, Bool.false_eq_true, if_false, h, hy, ends_settled y hset]
      have hsame : s2 = { s with flg := s2.flg, stk := s2.stk } := by
        generalize hf : s2.flg = f, hp : s2.stk.progress = pr at hrest
        rw [hrest, hs1]
        rfl
      have hnotify : (s.chan c).notifyEn = true → s.mayUseFlag (s.chan c).tenant (s.chan c).notify = true → s2.flag (s.chan c).notify = s.flag (s.chan c).notify + 1 := by
        intro hn hmay
        rw [hc1] at hnot
        refine (hnot (by rw [hs1]; exact hval) hn (by rw [hs1]; exact hmay)).trans ?_
        rw [hs1]
        rfl
      have hquiet : (s.chan c).notifyEn = false → s2.flg.val = s.flg.val := by
        intro hn
        rw [hc1] at hno
        refine (hno hn).trans ?_
        rw [hs1]
        rfl
      by_cases hclose : (s.chan c).state = .closing ∧ (s.chan c).wp + 1 = (s.chan c).ac
      · have hy := settleChan_closes (s := s2) (c := c) (by rw [hc2]; exact hclose) (by rw [hc2]; exact hch)
        refine ⟨_, hplace hy hset2, ?_, ?_, hnotify, hquiet⟩
        · rw [hsame]
          rfl
        · rw [chan_setChan hwf2, hc2, if_pos hclose]
          rfl
      · have hy := settleChan_stays (s := s2) (c := c) (by rw [hc2]; exact hclose)
        refine ⟨_, hplace hy hset2, hsame, ?_, hnotify, hquiet⟩
        rw [hc2, if_neg hclose]
    case refine_3 =>
      obtain ⟨flg, h, hchans, hv⟩ := messageAbandon_open hm
      have hset1 : (s.messageAbandon c slot).settled = true := by rw [h]; exact hset
      have hexec : exec (.messageAbandon c slot) s = .next (s.messageAbandon c slot) := by
        simp only [exec, execMessageAbandon, hon, Bool.false_eq_true, if_false, counted_running hstop hon, ends_settled _ hset1]
      rw [h] at hexec
      refine ⟨_, hexec, ?_, rfl, rfl, rfl, rfl, hv⟩
      · exact (congrArg (get {} c.val) hchans).trans (get_put_self _ _ _ _ hwf)

end Sys2Proof.Machine
end

section
/-! WRITE and READ of other chips, and responses to movers (R105, R229, R296, R300, R301). -/
namespace Sys2Proof.Machine

/-! ### The loads of a request -/

theorem pieces_spec {α : Type} (a : Nat) : ∀ (fuel o n : Nat) (L : List α), n ≤ fuel →
    ((pieces a fuel o n).map Prod.snd).sum = n ∧ (∀ e ∈ pieces a fuel o n, e.2 ≤ 4) ∧ (pieces a fuel o n).flatMap (fun e => (L.drop e.1).take e.2) = (L.drop o).take n
  | 0, o, n, L, h => by
    obtain rfl : n = 0 := by omega
    simp [pieces]
  | fuel + 1, o, n, L, h => by
    unfold pieces
    split
    case isTrue h0 => simp [h0]
    case isFalse h0 =>
      extract_lets k
      have hk : 0 < k ∧ k ≤ n ∧ k ≤ 4 := by omega
      obtain ⟨hsum, hfour, hcat⟩ := pieces_spec a fuel (o + k) (n - k) L (by omega)
      refine ⟨?_, fun e he => ?_, ?_⟩
      · rw [List.map_cons, List.sum_cons, hsum]
        show k + (n - k) = n
        omega
      · rcases List.mem_cons.mp he with rfl | he
        · exact hk.2.2
        · exact hfour e he
      · rw [List.flatMap_cons, hcat]
        show (L.drop o).take k ++ (L.drop (o + k)).take (n - k) = (L.drop o).take n
        rw [← List.drop_drop, ← List.take_add]
        congr 1
        omega
/-- The pieces in which a request of `n` lines goes on: one for a window, else those within 256 bytes. -/
def State.remotePieces (s : State) (p : Packet) (n : Nat) : List (Nat × Nat) := if 3 ≤ s.kindAt p.addr then [(0, n)] else pieces p.addr n 0 n
/-- The load of one piece. -/
def State.pieceLoad (s : State) (l : Nat) (p : Packet) (kind : LoadKind) (e : (Nat × Nat) × Nat) : Load :=
  mkLoad kind (p.addr + 64 * e.1.1) e.1.2 (if l < 20 then (l / 5, 10 + l % 5) else (4, 0)).1 (if l < 20 then (l / 5, 10 + l % 5) else (4, 0)).2 p.tenant
    (if kind = .write then ((p.flits.drop e.1.1).take e.1.2).flatMap fun f => f.1 else []) (if kind = .write then ((p.flits.drop e.1.1).take e.1.2).map fun f => f.2 else [])
    (.remote s.nextRemote e.2)
/-- The loads of a request that has been judged. -/
def State.remoteLoads (s : State) (l : Nat) (p : Packet) (kind : LoadKind) (n : Nat) : List Load := (s.remotePieces p n).zipIdx.map (s.pieceLoad l p kind)
theorem startRemote_eq (s : State) (l v : Nat) (p : Packet) (kind : LoadKind) (n : Nat) :
    s.startRemote l v p kind n = ({ s with nextRemote := s.nextRemote + 1, remote := put {} s.nextRemote { pkt := p, link := l, left := (s.remoteLoads l p kind n).length } s.remote } : State).sendIn l v (s.remoteLoads l p kind n) := by
  have hlen : (s.remoteLoads l p kind n).length = (s.remotePieces p n).length := by rw [State.remoteLoads, List.length_map, List.length_zipIdx]
  rw [hlen]
  rfl
theorem remotePieces_spec {α : Type} (s : State) (p : Packet) (n : Nat) (L : List α) :
    ((s.remotePieces p n).map Prod.snd).sum = n ∧ (s.kindAt p.addr < 3 → ∀ e ∈ s.remotePieces p n, e.2 ≤ 4) ∧ (s.remotePieces p n).flatMap (fun e => (L.drop e.1).take e.2) = L.take n := by
  unfold State.remotePieces
  split
  case isTrue h => exact ⟨by simp, fun h3 => absurd h (by omega), by simp⟩
  case isFalse h =>
    obtain ⟨hsum, hfour, hcat⟩ := pieces_spec p.addr n 0 n L (Nat.le_refl n)
    exact ⟨hsum, fun _ => hfour, by rw [hcat, List.drop_zero]⟩
theorem remoteLoads_map {β : Type} (s : State) (l : Nat) (p : Packet) (kind : LoadKind) (n : Nat) (f : Load → β) (g : Nat × Nat → β) (h : ∀ e, f (s.pieceLoad l p kind e) = g e.1) :
    (s.remoteLoads l p kind n).map f = (s.remotePieces p n).map g := by
  rw [State.remoteLoads, List.map_map]
  calc (s.remotePieces p n).zipIdx.map (f ∘ s.pieceLoad l p kind) = (s.remotePieces p n).zipIdx.map (g ∘ Prod.fst) := List.map_congr_left fun e _ => h e
    _ = ((s.remotePieces p n).zipIdx.map Prod.fst).map g := (List.map_map ..).symm
    _ = _ := by rw [List.zipIdx_map_fst]
/-- Each load carries lines of its packet, for the packet's tenant, and together they are the packet's. -/
theorem remoteLoads_spec (s : State) (l : Nat) (p : Packet) (kind : LoadKind) (n : Nat) :
    ((s.remoteLoads l p kind n).map fun x => x.lines).sum = n ∧
      (∀ x ∈ s.remoteLoads l p kind n, x.kind = kind ∧ x.tenant = p.tenant ∧ (s.kindAt p.addr < 3 → x.lines ≤ 4)) ∧
      (kind = .write → (s.remoteLoads l p kind n).flatMap (fun x => x.data) = (p.flits.take n).flatMap fun f => f.1) := by
  obtain ⟨hsum, hfour, hcat⟩ := remotePieces_spec s p n p.flits
  refine ⟨?_, fun x hx => ?_, fun hk => ?_⟩
  · rw [remoteLoads_map s l p kind n (fun x => x.lines) Prod.snd fun _ => rfl, hsum]
  · obtain ⟨e, he, rfl⟩ := List.mem_map.mp hx
    exact ⟨rfl, rfl, fun h => hfour h e.1 (List.mem_of_getElem? (List.mem_zipIdx_iff_getElem?.mp he))⟩
  · rw [← hcat, List.flatMap_assoc]
    have hdata := remoteLoads_map s l p kind n (fun x => x.data) (fun e => ((p.flits.drop e.1).take e.2).flatMap fun f => f.1) fun e => by rw [State.pieceLoad, hk]; rfl
    rw [List.flatMap_def, hdata, ← List.flatMap_def]
theorem remoteLoads_ne_nil (s : State) (l : Nat) (p : Packet) (kind : LoadKind) {n : Nat} (hn : 0 < n) : s.remoteLoads l p kind n ≠ [] := by
  intro h
  have hsum := (remoteLoads_spec s l p kind n).1
  rw [h] at hsum
  exact absurd hsum (by simp; omega)
theorem sendIn_gate {s : State} {l v : Nat} (hl : l < 20) {ls : List Load} (h : ls ≠ []) :
    s.sendIn l v ls = s.setGate l { s.gate l with moving := put [] v ls (s.gate l).moving } := by
  have h20 : l ≠ atMantel := by unfold atMantel; omega
  unfold State.sendIn
  rw [if_neg h20, if_neg h]
/-- A request that has been judged waits at its gate for its mover slots. -/
theorem startRemote_gate {s : State} {l v : Nat} (hl : l < 20) (p : Packet) (kind : LoadKind) {n : Nat} (hn : 0 < n) :
    s.startRemote l v p kind n = { s.setGate l { s.gate l with moving := put [] v (s.remoteLoads l p kind n) (s.gate l).moving } with nextRemote := s.nextRemote + 1, remote := put {} s.nextRemote { pkt := p, link := l, left := (s.remoteLoads l p kind n).length } s.remote } := by
  rw [startRemote_eq, sendIn_gate hl (remoteLoads_ne_nil s l p kind hn)]
  rfl

/-! ### Refusals -/

theorem noteRefusal_outside {s : State} {a : Nat} (h : s.kindAt a ≠ 3) (c chip t : Nat) (w : Bool) : s.noteRefusal c chip t a w = s := if_neg fun hc => h hc.2
theorem leaveRx_gate {s : State} {l v : Nat} (hl : l < 20) {p : Packet} {rest : List Packet} (h : get [] v (s.gate l).rx = p :: rest) : s.leaveRx l v = s.taken l v rest := by
  have h20 : l ≠ atMantel := by unfold atMantel; omega
  rw [State.leaveRx, if_neg h20, popRx_eq_taken h]
/-- The response to a refused request. -/
def State.refusalOf (s : State) (p : Packet) (c : Nat) : Packet :=
  { op := opResp, vc := 1, dst := p.src, src := s.rt.chip, part := p.part, tenant := p.tenant, hops := s.rt.hopLimit, tag := p.tag, sunit := p.sunit, status := c }
theorem refuse_exit {s : State} {u n w : Nat} {p : Packet} (hsrc : p.src ≠ s.rt.chip) (hop : p.op ≠ opMgmt) (hexit : s.exitFor 1 p.src 1 = some (n, w)) (c : Nat) :
    s.refuse u p c = s.carry u n w (s.refusalOf p c) := by
  unfold State.refuse State.respond
  rw [if_neg hsrc]
  extract_lets r
  have hr : r = s.refusalOf p c := by
    show Packet.mk .. = Packet.mk ..
    rw [if_neg hop]
  have hchoose : s.chooseExit r = some (n, w) := hexit
  rw [hchoose, hr]
theorem settled_carry_gate {u : Nat} (hu : u < 20) (s : State) (l vc : Nat) (p : Packet) : (s.carry u l vc p).settled = s.settled := by
  rw [carry_gate hu]; rfl

/-! ### Responses -/

/-- What a key reads after it was set, also where a map is not in its canonical form. -/
theorem get_put_same {α : Type} [DecidableEq α] (d : α) (k : Nat) (v : α) (m : SMap α) : get d k (put d k v m) = v := by
  have hdrop (r : SMap α) : get d k (r.dropWhile fun e => e.1 ≤ k) = d := by
    cases hr : r.dropWhile fun e => e.1 ≤ k with
    | nil => rfl
    | cons e r' =>
      have he := List.head_dropWhile_not (fun e : Nat × α => decide (e.1 ≤ k)) (l := r) (by rw [hr]; exact List.cons_ne_nil _ _)
      simp only [hr, List.head_cons, decide_eq_false_iff_not] at he
      simp only [get]
      rw [if_neg (by omega), if_pos (by omega)]
  induction m with
  | nil => unfold put; split <;> simp [get, *]
  | cons e r ih =>
    obtain ⟨j, w⟩ := e
    unfold put
    split
    case isTrue hlt =>
      split
      · simp only [get]
        rw [if_neg (by omega), if_pos hlt]
        exact Eq.symm ‹v = d›
      · simp [get]
    case isFalse hlt =>
      split
      case isTrue heq =>
        split
        · rw [hdrop]
          exact Eq.symm ‹v = d›
        · simp [get]
      case isFalse hne =>
        simp only [get]
        rw [if_neg hne, if_neg hlt, ih]
theorem mover_moverEnd {s : State} (hs : s.canon = true) (q m op : Nat) (err : Option Nat) :
    ((s.moverEnd q m op err).mover q m).q = (s.mover q m).q.map fun d => d.endOp op err := by
  have hr := range_setRange hs q ((s.range q).setMover m { (s.range q).mover m with q := ((s.range q).mover m).q.map fun d => d.endOp op err })
  unfold State.moverEnd State.mover
  rw [hr]
  exact congrArg Mover.q (get_put_same _ _ _ _)
theorem endOp_status (d : Desc) (op st : Nat) : d.endOp op (if st = 0 then none else some st) = (if (d.ops.any fun o => o.id == op) = true then
    { d with ops := d.ops.filter fun o => o.id != op, err := if st = 0 then d.err else some (d.err.getD st) } else d) := by
  unfold Desc.endOp
  split
  · by_cases h : st = 0
    · cases d.err <;> simp [h]
    · cases d.err <;> simp [h]
  · rfl
/-- An answer for a mover that reaches the bridge of its quarter reaches the mover at once. -/
theorem settleIn_home {s : State} (hs : s.canon = true) {d : Nat} {l : Load} (hrun : (s.range d).halted = false) (hl : l.ds = 0) (hall : ∀ x ∈ (s.range d).brIn, x.ds ≠ 0) :
    (s.setRange d { s.range d with brIn := (s.range d).brIn ++ [l] }).settleIn d = (s.setRange d { s.range d with brIn := (s.range d).brIn }).home l := by
  have hr := range_setRange hs d { s.range d with brIn := (s.range d).brIn ++ [l] }
  unfold State.settleIn
  simp only [hr]
  have hone : ((s.range d).brIn ++ [l]).filter (fun x => x.ds == 0) = [l] := by
    rw [List.filter_append, List.filter_eq_nil_iff.mpr fun x hx => by simpa using hall x hx]
    simp [hl]
  have hkeep : ((s.range d).brIn ++ [l]).filter (fun x => x.ds != 0) = (s.range d).brIn := by
    rw [List.filter_append, List.filter_eq_self.mpr fun x hx => by simpa using hall x hx]
    simp [hl]
  rw [if_neg (by simp [hrun]), hone, hkeep, setRange_setRange hs]
  rfl
theorem home_moverAck {s : State} {l : Load} {q m tag : Nat} (ho : l.org = .mover q m tag) (hk : l.kind = .ack) :
    s.home l = s.moverEnd q m tag (if l.status = 0 then none else some l.status) := by
  unfold State.home
  simp only [ho, hk]
  by_cases h : l.status = 0
  · simp [h]
  · simp [h]

/-- Settles O46: requests by `startRemote_gate` and `refuse_exit`, responses by the operation they name. -/
theorem remoteAccesses : Obligations.RemoteAccesses := by
  unfold Obligations.RemoteAccesses
  refine ⟨?_, ?_, ?_⟩
  · intro l v s p rest g hset hcanon hwf hsrc hg
    subst hg
    have hwrite (h : s.rxHead l v opWrite p rest) (hb : s.behindWrite p = false) : exec (.write l v) s = (s.rxWrite l v p).ends := by
      change (s.onHead l.val v.val opWrite fun s p => s.rxWrite l.val v.val p).ends = _
      rw [onHead_head h hb]
    have hread (h : s.rxHead l v opRead p rest) (hb : s.behindWrite p = false) : exec (.read l v) s = (s.rxRead l v p).ends := by
      change (s.onHead l.val v.val opRead fun s p => s.rxRead l.val v.val p).ends = _
      rw [onHead_head h hb]
    have hstarts (kind : LoadKind) (n : Nat) (hn : 0 < n) : (s.startRemote l v p kind n).ends = .next (s.startRemote l v p kind n) :=
      ends_settled _ (by rw [startRemote_gate l.isLt p kind hn]; exact hset)
    refine ⟨fun hb => ⟨fun h => ?_, fun h => ?_⟩, fun hb h hok hne hlen => ?_, fun hb h hok hpos => ?_, fun c n w hc hkind hb hexit => ⟨fun h hj => ?_, fun h hj => ?_⟩⟩
    · change (s.onHead l.val v.val opWrite fun s p => s.rxWrite l.val v.val p).ends = _
      rw [onHead_waits h hb, ends_settled s hset]
    · change (s.onHead l.val v.val opRead fun s p => s.rxRead l.val v.val p).ends = _
      rw [onHead_waits h hb, ends_settled s hset]
    · have hn : 0 < p.flits.length := List.length_pos_iff.mpr hne
      have hrx : s.rxWrite l v p = s.startRemote l v p .write p.flits.length := by
        unfold State.rxWrite
        rw [hok]
        rfl
      obtain ⟨hsum, hall, hdata⟩ := remoteLoads_spec s l p .write p.flits.length
      have hstart := startRemote_gate (s := s) (v := v) l.isLt p .write hn
      refine ⟨s.startRemote l v p .write p.flits.length, s.remoteLoads l p .write p.flits.length, ?_, ?_, ?_, ?_, hsum, hall⟩
      · rw [hwrite h hb, hrx, hstarts .write _ hn]
      · rw [hstart]
      · rw [hstart]; exact get_put_self _ _ _ _ hwf
      · rw [hdata rfl, List.take_length]
    · have hrx : s.rxRead l v p = s.startRemote l v p .readReq p.arg0 := by
        unfold State.rxRead
        rw [hok]
        rfl
      obtain ⟨hsum, hall, -⟩ := remoteLoads_spec s l p .readReq p.arg0
      have hstart := startRemote_gate (s := s) (v := v) l.isLt p .readReq hpos
      refine ⟨s.startRemote l v p .readReq p.arg0, s.remoteLoads l p .readReq p.arg0, ?_, ?_, ?_, hsum, hall⟩
      · rw [hread h hb, hrx, hstarts .readReq _ hpos]
      · rw [hstart]
      · rw [hstart]; exact get_put_self _ _ _ _ hwf
    · obtain ⟨c', rfl⟩ := Nat.exists_eq_succ_of_ne_zero hc
      have hop : p.op ≠ opMgmt := by rw [h.2.2.1]; decide
      have hrx : s.rxWrite l v p = (s.taken l v rest).carry l n w (s.refusalOf p (c' + 1)) := by
        unfold State.rxWrite
        rw [hj]
        simp only [noteRefusal_outside hkind, leaveRx_gate l.isLt h.1]
        exact refuse_exit (s := s.taken l v rest) hsrc hop ((exitFor_taken hcanon ..).trans hexit) _
      have hset1 : ((s.taken l v rest).carry l n w (s.refusalOf p (c' + 1))).settled = true := (settled_carry_gate l.isLt ..).trans hset
      rw [hwrite h hb, hrx, ends_settled _ hset1]
      rfl
    · obtain ⟨c', rfl⟩ := Nat.exists_eq_succ_of_ne_zero hc
      have hop : p.op ≠ opMgmt := by rw [h.2.2.1]; decide
      have hrx : s.rxRead l v p = (s.taken l v rest).carry l n w (s.refusalOf p (c' + 1)) := by
        unfold State.rxRead
        rw [hj]
        simp only [noteRefusal_outside hkind, leaveRx_gate l.isLt h.1]
        exact refuse_exit (s := s.taken l v rest) hsrc hop ((exitFor_taken hcanon ..).trans hexit) _
      have hset1 : ((s.taken l v rest).carry l n w (s.refusalOf p (c' + 1))).settled = true := (settled_carry_gate l.isLt ..).trans hset
      rw [hread h hb, hrx, ends_settled _ hset1]
      rfl
  · intro l v s p rest g q m mv hset hcanon hg h hb hunit hq hm hmv
    subst hg hq hmv
    have hm8 : p.sunit % 32 % 8 = m := by omega
    have hexec {x : State} (hx : s.rxResp l v p = x) (hset : x.settled = true) : exec (.resp l v) s = .next x := by
      change (s.onHead l.val v.val opResp fun s p => s.rxResp l.val v.val p).ends = _
      rw [onHead_head h hb, hx, ends_settled x hset]
    have hl20 : l.val ≠ atMantel := by unfold atMantel; omega
    refine ⟨fun hnone => hexec ?_ hset, fun o hsome => ⟨fun ⟨hst, hlen⟩ => hexec ?_ hset, fun hok => hexec ?_ hset⟩⟩
    · unfold State.rxResp
      simp only [hunit, if_true, hm8, hnone, leaveRx_gate l.isLt h.1]
    · have hbad : p.status = 0 ∧ (if o.reading then o.len / 64 else 0) ≠ p.flits.length := ⟨hst, fun he => hlen he.symm⟩
      unfold State.rxResp
      simp only [hunit, if_true, hm8, hsome, leaveRx_gate l.isLt h.1]
      rw [if_pos hbad, State.bumpLink, if_neg hl20, State.taken, bumpGate_setGate hcanon, gate_setGate hcanon]
    · have hgood : ¬(p.status = 0 ∧ (if o.reading then o.len / 64 else 0) ≠ p.flits.length) := fun ⟨hst, hlen⟩ =>
        hok.elim (fun h => h hst) (fun h => hlen h.symm)
      unfold State.rxResp
      simp only [hunit, if_true, hm8, hsome]
      rw [if_neg hgood, sendIn_gate l.isLt (List.cons_ne_nil _ _)]
  · intro src q m s ld tag hset hcanon hon hturn hld hrun hroom hall hds hk horg
    obtain ⟨s1, hdel, hs1, hcanon1, hranges⟩ := spineDeliver_hands hcanon hon hturn (by rw [spineRoom_quarter]; exact decide_eq_true hroom) hld
    obtain ⟨a, b, hrq⟩ := hranges q
    have hq4 : q.val ≠ 4 := by omega
    have hto : s1.spineTo q ld = (s1.setRange q { s1.range q with brIn := (s1.range q).brIn }).moverEnd q m tag (if ld.status = 0 then none else some ld.status) := by
      rw [State.spineTo, if_neg hq4, ← home_moverAck horg hk]
      exact settleIn_home hcanon1 (by rw [hrq]; exact hrun) hds (by rw [hrq]; exact hall)
    obtain ⟨s2, hs2⟩ : ∃ x, x = s1.setRange q { s1.range q with brIn := (s1.range q).brIn } := ⟨_, rfl⟩
    have hcanon2 : s2.canon = true := by rw [hs2]; exact canon_setRange hcanon1 _ _
    have hmover : s2.mover q m = s.mover q m := by
      rw [State.mover, hs2, range_setRange hcanon1, hrq]
      rfl
    rw [← hs2] at hto
    refine ⟨s1.spineTo q ld, ?_, ?_, ?_, ?_⟩
    · have hset1 : (s1.spineTo q ld).settled = true := by rw [hto, hs2, hs1]; exact hset
      change (s.spineDeliver src q).ends = _
      rw [hdel, ends_settled _ hset1]
    · rw [hto, hs2, hs1]; rfl
    · rw [hto, hs2, hs1]; rfl
    · rw [hto, mover_moverEnd hcanon2, hmover]
      exact List.map_congr_left fun d _ => endOp_status d tag ld.status

end Sys2Proof.Machine
end

section
/-! Datagram writes, fetches and messages (R229, R251, R294, R556). -/
namespace Sys2Proof.Machine

/-! ### Writes into staging areas -/

/-- Clean lines from line `o` of a stretch of HBM on: all their bytes stand. -/
theorem placeLines_clean {s : State} {a o : Nat} {ls : List (Bytes × Bool)} (hls : ∀ f ∈ ls, f.1.length = 64 ∧ f.2 = false) (ha : a + 64 * (o + ls.length) ≤ 4 * hbmQuarter) :
    SamePlaces s (s.placeLines a o ls) ∧ (s.placeLines a o ls).mem = writeBytes s.mem (a + 64 * o) (ls.flatMap fun f => f.1) := by
  induction ls generalizing s o with
  | nil => exact ⟨.refl s, rfl⟩
  | cons f rest ih =>
    obtain ⟨b, p⟩ := f
    obtain ⟨hb, rfl⟩ : b.length = 64 ∧ p = false := hls _ List.mem_cons_self
    rw [List.length_cons] at ha
    obtain ⟨hplace1, hmem1⟩ := placeLine_clean (s := s) (a := a + 64 * o) (b := b) ((isHbm_iff _).mpr (by omega)) hb
    obtain ⟨hplace2, hmem2⟩ := ih (s := s.placeLine (a + 64 * o) b false) (o := o + 1) (fun f hf => hls f (List.mem_cons_of_mem _ hf)) (by omega)
    refine ⟨hplace1.trans hplace2, ?_⟩
    calc _ = writeBytes (writeBytes s.mem (a + 64 * o) b) (a + 64 * (o + 1)) (rest.flatMap fun f => f.1) := by rw [← hmem1, ← hmem2]; rfl
      _ = writeBytes s.mem (a + 64 * o) (b ++ rest.flatMap fun f => f.1) := by rw [writeBytes_append, hb]; rfl
      _ = _ := by rw [List.flatMap_cons]
theorem length_flatMap_lines {ls : List (Bytes × Bool)} (hls : ∀ f ∈ ls, f.1.length = 64 ∧ f.2 = false) : (ls.flatMap fun f => f.1).length = 64 * ls.length := by
  induction ls with
  | nil => rfl
  | cons f rest ih =>
    rw [List.flatMap_cons, List.length_append, ih fun f hf => hls f (List.mem_cons_of_mem _ hf), (hls f List.mem_cons_self).1, List.length_cons]
    omega
theorem stageWrite_confirmed {s : State} {a : Nat} (h : (get (0, 0) (stagingBlock a) s.stage).1 = 2) (ls : List (Bytes × Bool)) :
    s.stageWrite a ls = s.setStn (a / hbmQuarter) { s.stn (a / hbmQuarter) with stgdrop := (s.stn (a / hbmQuarter)).stgdrop + 1 } := if_pos h
theorem stageWrite_provisional {s : State} {a : Nat} (h : (get (0, 0) (stagingBlock a) s.stage).1 ≠ 2) (ls : List (Bytes × Bool)) :
    ∃ fill mask, s.stageWrite a ls = { s.placeLines a 0 ls with stageFill := fill, stage := put (0, 0) (stagingBlock a) (1, mask) (s.placeLines a 0 ls).stage } := by
  unfold State.stageWrite
  extract_lets b
  exact ⟨_, _, if_neg h⟩
/-- A datagram write to one block of its tenant's staging area. -/
theorem rxDwrite_fits {s : State} {l : Nat} {p : Packet} {a : Area} (ha : s.stagingArea p.addr = some a) (ht : a.tenant = p.tenant)
    (hblk : p.addr / 0x10000 = (p.addr + 64 * p.flits.length - 1) / 0x10000) : s.rxDwrite l p = s.stageWrite p.addr p.flits := by
  unfold State.rxDwrite
  simp only [ha, ht, stagingBlock, ← hblk, beq_self_eq_true, Bool.and_self, if_true]
theorem rxDwrite_nowhere {s : State} {l : Nat} {p : Packet} (ha : s.stagingArea p.addr = none) : s.rxDwrite l p = s.bumpLink l 0xA8 := by
  unfold State.rxDwrite
  simp only [ha, Bool.false_eq_true, if_false]
theorem bumpLink_taken {s : State} (hs : s.canon = true) {l v off : Nat} (hl : l < 20) (rest : List Packet) :
    (s.taken l v rest).bumpLink l off = s.setGate l { (s.taken l v rest).gate l with cnt := upd 0 ((off - 0x80) / 4) (· + 1) ((s.taken l v rest).gate l).cnt } := by
  have h20 : l ≠ atMantel := by unfold atMantel; omega
  rw [State.bumpLink, if_neg h20, State.taken, bumpGate_setGate hs, gate_setGate hs]

/-! ### Fetches -/

theorem rxDfetch_good {s : State} {l v : Nat} {p : Packet} (h1 : isHbm p.addr = true) (h2 : p.addr % 64 = 0) (h3 : s.inSharedArea p.tenant p.addr (64 * p.arg0) = true) :
    s.rxDfetch l v p = (s.bumpLink l 0xAC).startRemote l v p .readReq p.arg0 := by
  have hgood : (isHbm p.addr && p.addr % 64 == 0 && s.inSharedArea p.tenant p.addr (64 * p.arg0)) = true := by rw [h1, h2, h3]; rfl
  exact if_pos hgood
theorem rxDfetch_bad {s : State} {l v : Nat} {p : Packet} (h : isHbm p.addr = false ∨ p.addr % 64 ≠ 0 ∨ s.inSharedArea p.tenant p.addr (64 * p.arg0) = false) :
    s.rxDfetch l v p = (s.leaveRx l v).bumpLink l 0xA8 := by
  have hbad : ¬((isHbm p.addr && p.addr % 64 == 0 && s.inSharedArea p.tenant p.addr (64 * p.arg0)) = true) := by
    rcases h with h | h | h <;> simp [h]
  exact if_neg hbad

/-! ### Messages -/

/-- The message to which a later packet belongs. -/
def Packet.continues (p : Packet) (m : ChMsg) : Bool := m.src == p.src && m.unit == p.sunit && m.tag == p.tag && !m.whole
theorem msgArrive_stray {s : State} {p : Packet} (ho : p.moffset ≠ 0) (h : (s.chan p.channel).msgs.find? p.continues = none) :
    s.msgArrive p.channel p.src p.sunit p.tag (some p.tenant) p.mlines p.moffset p.flits = (s.setChan p.channel { s.chan p.channel with dropOther := (s.chan p.channel).dropOther + 1 }, 8) := by
  unfold State.msgArrive
  rw [if_neg ho]
  extract_lets f
  have h' : (s.chan p.channel).msgs.find? f = none := h
  rw [h']
  rfl
theorem msgArrive_later {s : State} {p : Packet} {m : ChMsg} (ho : p.moffset ≠ 0) (h : (s.chan p.channel).msgs.find? p.continues = some m) (hfit : p.moffset + p.flits.length ≤ m.mlines)
    (hclean : ∀ f ∈ p.flits, f.2 = false) :
    s.msgArrive p.channel p.src p.sunit p.tag (some p.tenant) p.mlines p.moffset p.flits =
      ({ s.setChan p.channel { s.chan p.channel with msgs := updFirst p.continues (fun m => m.take p.moffset p.flits.length) (s.chan p.channel).msgs } with
          mantelOut := s.mantelOut ++ lineLoads ((s.chan p.channel).slotAddr m.slot + 64 * p.moffset) (s.chan p.channel).tenant (fun k n => .ring p.channel m.num (p.moffset + k) n) p.flits }, 0) := by
  unfold State.msgArrive
  rw [if_neg ho]
  extract_lets f
  have h' : (s.chan p.channel).msgs.find? f = some m := h
  rw [h', clean_flits hclean]
  exact if_neg (Nat.not_lt.mpr hfit)

/-- Settles O47: writes by `placeLines_clean`, fetches by `startRemote_gate`, messages by the lemmas on `State.msgArrive`. -/
theorem datagrams : Obligations.Datagrams := by
  unfold Obligations.Datagrams
  intro l v s p rest g x hset hcanon hg hx hstage hchans hremote
  subst hg hx
  have hdwrite (h : s.rxHead l v opDwrite p rest) (hb : s.behindWrite p = false) {y : State} (hy : (s.taken l v rest).rxDwrite l p = y) (hset : y.settled = true) : exec (.dwrite l v) s = .next y := by
    change (s.onPacket l.val v.val opDwrite fun s p => s.rxDwrite l.val p).ends = _
    rw [onPacket_taken h hb, hy, ends_settled y hset]
  have hdfetch (h : s.rxHead l v opDfetch p rest) (hb : s.behindWrite p = false) {y : State} (hy : s.rxDfetch l v p = y) (hset : y.settled = true) : exec (.dfetch l v) s = .next y := by
    change (s.onHead l.val v.val opDfetch fun s p => s.rxDfetch l.val v.val p).ends = _
    rw [onHead_head h hb, hy, ends_settled y hset]
  have hdmsg (h : s.rxHead l v opDmsg p rest) (hb : s.behindWrite p = false) {r : State × Nat}
      (hr : (s.taken l v rest).msgArrive p.channel p.src p.sunit p.tag (some p.tenant) p.mlines p.moffset p.flits = r) (hset : r.1.settled = true) : exec (.dmsg l v) s = .next r.1 := by
    change (s.onPacket l.val v.val opDmsg fun s p => s.rxDmsg p).ends = _
    rw [onPacket_taken h hb]
    change (State.msgArrive (s.taken l v rest) p.channel p.src p.sunit p.tag (some p.tenant) p.mlines p.moffset p.flits).1.ends = _
    rw [hr, ends_settled r.1 hset]
  refine ⟨fun hb => ⟨fun h => ?_, fun h => ?_, fun h => ?_⟩, fun hb => ⟨fun a h ha ht hblk hnot hls hin => ?_, fun a h ha ht hblk hconf => ?_, fun h hnone => ?_, fun h hbad => ?_,
    fun h h1 h2 h3 hn => ?_, fun h ho hn hj => ⟨?_, fun hj2 => rfl⟩, fun h ho hn hj hclean => ?_, fun h ho => ⟨fun hnone => ?_, fun m hm hfit hclean => ?_⟩⟩⟩
  · change (s.onPacket l.val v.val opDwrite fun s p => s.rxDwrite l.val p).ends = _
    rw [onPacket_waits h hb, ends_settled s hset]
  · change (s.onHead l.val v.val opDfetch fun s p => s.rxDfetch l.val v.val p).ends = _
    rw [onHead_waits h hb, ends_settled s hset]
  · change (s.onPacket l.val v.val opDmsg fun s p => s.rxDmsg p).ends = _
    rw [onPacket_waits h hb, ends_settled s hset]
  · obtain ⟨hplaces, hmem⟩ := placeLines_clean (s := s.taken l v rest) (a := p.addr) (o := 0) hls (by rw [Nat.zero_add]; exact hin)
    obtain ⟨fill, mask, hwrite⟩ := stageWrite_provisional (s := s.taken l v rest) (a := p.addr) hnot p.flits
    rw [Nat.mul_zero, Nat.add_zero] at hmem
    have hrest := hplaces.rest
    generalize (s.taken l v rest).placeLines p.addr 0 p.flits = y at hwrite hmem hrest
    have hy : (s.taken l v rest).rxDwrite l p = _ := (rxDwrite_fits (s := s.taken l v rest) ha ht hblk).trans hwrite
    have hlen := length_flatMap_lines hls
    have hwf := ((canon_iff s).mp hcanon).1
    have hmem' : y.mem = writeBytes s.mem p.addr (p.flits.flatMap fun f => f.1) := hmem
    refine ⟨_, hdwrite h hb hy (by rw [hrest]; exact hset), ?_, ?_, fun b hb => ?_, ?_, ?_, ?_⟩
    · change readBytes y.mem p.addr (64 * p.flits.length) = _
      rw [hmem', ← hlen, readBytes_writeBytes _ _ _ hwf]
    · change (get (0, 0) (p.addr / 0x10000) (put (0, 0) (stagingBlock p.addr) (1, mask) y.stage)).1 = 1
      rw [stagingBlock, get_put_same]
    · change readByte y.mem b = _
      rw [hmem']
      exact readByte_writeBytes_out _ _ _ _ hwf (by rw [hlen]; exact hb)
    · change y.hobs = _
      rw [hrest]; rfl
    · change y.flg = _
      rw [hrest]; rfl
    · change y.stk = _
      rw [hrest]; rfl
  · exact hdwrite h hb ((rxDwrite_fits (s := s.taken l v rest) ha ht hblk).trans (stageWrite_confirmed (s := s.taken l v rest) hconf p.flits)) hset
  · exact hdwrite h hb ((rxDwrite_nowhere (s := s.taken l v rest) hnone).trans (bumpLink_taken hcanon l.isLt rest)) hset
  · refine hdfetch h hb ((rxDfetch_bad hbad).trans ?_) hset
    rw [leaveRx_gate l.isLt h.1]
    exact bumpLink_taken hcanon l.isLt rest
  · have h20 : l.val ≠ atMantel := by unfold atMantel; omega
    obtain ⟨s1, hs1⟩ : ∃ y, y = s.setGate l { s.gate l with cnt := upd 0 11 (· + 1) (s.gate l).cnt } := ⟨_, rfl⟩
    have hbump : s.bumpLink l 0xAC = s1 := by rw [hs1, State.bumpLink, if_neg h20]; rfl
    have hy := rxDfetch_good (l := l) (v := v) h1 h2 h3
    have hgate1 : s1.gate l = { s.gate l with cnt := upd 0 11 (· + 1) (s.gate l).cnt } := by rw [hs1, gate_setGate hcanon]
    have hcnt : ((s.taken l v rest).gate l).cnt = (s.gate l).cnt := by rw [State.taken, gate_setGate hcanon]
    obtain ⟨hsum, hall, -⟩ := remoteLoads_spec s1 l p .readReq p.arg0
    rw [hbump, startRemote_gate l.isLt p .readReq hn, hgate1] at hy
    generalize s1.remoteLoads l p .readReq p.arg0 = ls at hy hsum hall
    have hs1' : s1.setGate l { ({ s.gate l with cnt := upd 0 11 (· + 1) (s.gate l).cnt } : Gate) with moving := put [] v ls (s.gate l).moving } =
        s.setGate l { s.gate l with cnt := upd 0 11 (· + 1) (s.gate l).cnt, moving := put [] v ls (s.gate l).moving } := by
      rw [hs1, setGate_setGate hcanon]
    have hrem : s1.remote = s.remote ∧ s1.nextRemote = s.nextRemote := by rw [hs1]; exact ⟨rfl, rfl⟩
    rw [hs1', hrem.1, hrem.2] at hy
    refine ⟨_, ls, hdfetch h hb hy hset, ?_, get_put_self _ _ _ _ hremote, hsum, fun z hz => ⟨(hall z hz).1, (hall z hz).2.1⟩⟩
    rw [hcnt]
  · exact hdmsg h hb (msgArrive_refused (s := s.taken l v rest) ho rfl hj hn) hset
  · exact hdmsg h hb (msgArrive_first (s := s.taken l v rest) ho hj hn hclean) hset
  · exact hdmsg h hb (msgArrive_stray (s := s.taken l v rest) ho hnone) hset
  · exact hdmsg h hb (msgArrive_later (s := s.taken l v rest) ho hm hfit hclean) hset

end Sys2Proof.Machine
end

section
/-! Transit packets and the management partition (R105, R316 to R319, R328). -/
namespace Sys2Proof.Machine

/-! ### Transit -/

section
variable {s : State} {l v : Nat} {p : Packet} {rest : List Packet} (hrx : get [] v (s.gate l).rx = p :: rest) (hmov : get [] v (s.gate l).moving = []) (hdst : p.dst ≠ s.rt.chip)
include hrx hmov hdst
theorem headRx_transit {halted : Bool} (hrun : halted = true ∨ (s.range (l / 5)).halted = false) : (s.headRx l v halted fun p => p.dst != s.rt.chip) = some p := by
  have hd : (p.dst != s.rt.chip) = true := bne_iff_ne.mpr hdst
  unfold State.headRx
  simp only [hrx, hmov, hd, List.isEmpty_nil, Bool.true_and]
  rcases hrun with h | h <;> simp [h]
theorem transit_head {n w : Nat} (hrun : (s.range (l / 5)).halted = false) (hexit : s.chooseExit p = some (n, w)) :
    s.transit l v = (if p.hops = 0 then { s.taken l v rest with rt := { s.rt with hopdrop := s.rt.hopdrop + 1 } }
      else if 8 ≤ (s.gate n).transitCount w then s
      else if n = l then (s.taken l v rest).enqueue n w .transit { p with hops := p.hops - 1 }
      else (s.setGate n { s.gate n with coming := upd 0 w (· + 1) (s.gate n).coming }).sendIn l v [packetLoad n w .transit { p with hops := p.hops - 1 }]) := by
  unfold State.transit
  simp only [headRx_transit hrx hmov hdst (.inr hrun), hexit, popRx_eq_taken hrx]
  rfl
end
theorem datagramTimeout_full {s : State} {l n w : Nat} {p : Packet} {rest : List Packet} (hrx : get [] 5 (s.gate l).rx = p :: rest) (hmov : get [] 5 (s.gate l).moving = []) (hdst : p.dst ≠ s.rt.chip)
    (hexit : s.chooseExit p = some (n, w)) (h : (s.gate l).state ≠ .hold ∧ (s.gate n).state ≠ .hold ∧ 8 ≤ (s.gate n).transitCount w) :
    s.datagramTimeout l = { s.taken l 5 rest with rt := { s.rt with dgwait := s.rt.dgwait + 1 } } := by
  unfold State.datagramTimeout State.takeRx
  simp only [headRx_transit hrx hmov hdst (.inl rfl), Option.map_some, hexit, if_pos h, popRx_eq_taken hrx]
  rfl

/-! ### The management partition -/

theorem gate_upOrHold_taken {s : State} (hs : s.canon = true) (l v k : Nat) (rest : List Packet) : ∃ r, (s.taken l v rest).gate k = { s.gate k with rx := r } := by
  by_cases hk : k = l
  · rw [hk, State.taken, gate_setGate hs]
    exact ⟨_, rfl⟩
  · rw [State.taken, gate_setGate_ne hs _ hk]
    exact ⟨_, rfl⟩
theorem pongFlit_congr {s t : State} (hrt : s.rt.part = t.rt.part) (hg : ∀ k, ∃ r, s.gate k = { t.gate k with rx := r }) : s.pongFlit = t.pongFlit := by
  have hup k : (s.gate k).upOrHold = (t.gate k).upOrHold := by obtain ⟨r, hr⟩ := hg k; rw [hr]; rfl
  have hchip k : (s.gate k).pchip = (t.gate k).pchip := by obtain ⟨r, hr⟩ := hg k; rw [hr]
  unfold State.pongFlit
  simp only [hup, hchip, hrt]
theorem sendMgmt_exit {s : State} {dst n w : Nat} (hdst : dst ≠ s.rt.chip) (hexit : s.exitFor 3 dst 3 = some (n, w)) (tag : Nat) (b : Bytes) :
    s.sendMgmt dst tag b = { s with mantelOut := s.mantelOut ++ [packetLoad n w .own { op := opMgmt, vc := 3, dst := dst, src := s.rt.chip, part := 0xF, hops := s.rt.hopLimit, tag := tag, sunit := sunitService, flits := [(b, false)] }] } :=
  sendOwn_exit (p := { op := opMgmt, vc := 3, dst := dst, tag := tag, sunit := sunitService, flits := [(b, false)] }) (show sunitService / 32 ≠ 1 by decide) hdst hexit
theorem judgeDisable_congr {s t : State} {k : Nat} (hg : ∃ r, s.gate k = { t.gate k with rx := r }) : s.judgeDisable k = t.judgeDisable k := by
  obtain ⟨r, hr⟩ := hg
  unfold State.judgeDisable
  rw [hr]
theorem judgeEnable_congr {s t : State} {k : Nat} (hg : ∃ r, s.gate k = { t.gate k with rx := r }) : s.judgeEnable k = t.judgeEnable k := by
  obtain ⟨r, hr⟩ := hg
  unfold State.judgeEnable
  rw [hr]
theorem askDisable_carrying {s : State} {k : Nat} (h : (s.gate k).upOrHold = true) : s.askDisable k = s.setGate k { s.gate k with disPend := true } := by
  unfold State.askDisable
  simp only [h, Bool.true_or, if_true]
theorem foldl_emit {α : Type} (f : α → Out) (l : List α) (s : State) : l.foldl (fun s m => s.emit (f m)) s = { s with out := s.out ++ l.map f } := by
  induction l generalizing s with
  | nil => simp
  | cons x l ih =>
    rw [List.foldl_cons, ih, List.map_cons]
    simp [State.emit]
theorem sendFrames_eq (s : State) (l step : Nat) (good : BitVec 8) : s.sendFrames l step good = { s with out := s.out ++ (List.range 8).map fun m => .lane l m (s.trainFrame l m step good) } := by
  have htrain (m : Nat) (o : List Out) : ({ s with out := o } : State).trainFrame l m step good = s.trainFrame l m step good := rfl
  have hfold : ∀ (ms : List Nat) (o : List Out), ms.foldl (fun s m => s.emit (.lane l m (s.trainFrame l m step good))) { s with out := o } =
      { s with out := o ++ ms.map fun m => .lane l m (s.trainFrame l m step good) } := by
    intro ms
    induction ms with
    | nil => intro o; simp
    | cons m ms ih =>
      intro o
      rw [List.foldl_cons, State.emit, htrain, ih, List.map_cons]
      simp
  exact hfold (List.range 8) s.out
/-- A link is enabled: it trains at once where it has rested in DOWN. -/
theorem enableLink_spec {s : State} (hs : s.canon = true) (k : Nat) :
    ∃ (g : Gate) (o : List Out), s.enableLink k = { s.setGate k g with out := o } ∧ g.en = true ∧ g.trainLogged = false ∧
      g.state = (if (s.gate k).state = .down ∧ (s.gate k).rested = true ∧ s.mayTrain = true then .train else (s.gate k).state) := by
  unfold State.enableLink
  extract_lets g s1
  split
  case isTrue h =>
    have hg1 : s1.gate k = { g with en := true, trainLogged := false } := gate_setGate hs _ _
    obtain ⟨o, ho⟩ : ∃ o, s1.enterTrain k = { s1.setGate k { s1.gate k with state := .train, rested := false } with out := o } := ⟨_, sendFrames_eq _ k 1 0⟩
    refine ⟨{ g with en := true, trainLogged := false, state := .train, rested := false }, o, ?_, rfl, rfl, rfl⟩
    rw [ho, hg1]
    exact congrArg (fun x : State => ({ x with out := o } : State)) (setGate_setGate hs _ _ _)
  case isFalse h => exact ⟨_, s.out, rfl, rfl, rfl, rfl⟩

/-- Settles O48: transit by `transit_head`, the management packets by what each asks of the part. -/
theorem fabricTransit : Obligations.FabricTransit := by
  unfold Obligations.FabricTransit
  refine ⟨?_, ?_⟩
  · intro l v s p rest n w hset hcanon hrx hmov hdst hexit
    refine ⟨fun hrun => ?_, fun hv hstop hon hl hn hfull => ?_⟩
    · have h := transit_head hrx hmov hdst hrun hexit
      have hexec {x : State} (hx : s.transit l v = x) (hset : x.settled = true) : exec (.transit l v) s = .next x := by
        change (s.transit l v).ends = _
        rw [hx, ends_settled x hset]
      refine ⟨fun hh hroom hn => ?_, fun hh hroom hn => ?_, fun hh hfull => ?_, fun hh => ?_⟩
      · rw [if_neg hh, if_neg (Nat.not_le.mpr hroom), if_pos hn] at h
        exact hexec h hset
      · have hgate : (s.setGate n { s.gate n with coming := upd 0 w (· + 1) (s.gate n).coming }).gate l = s.gate l := gate_setGate_ne hcanon _ (Ne.symm hn)
        rw [if_neg hh, if_neg (Nat.not_le.mpr hroom), if_neg hn, sendIn_gate l.isLt (List.cons_ne_nil _ _), hgate] at h
        exact hexec h hset
      · rw [if_neg hh, if_pos hfull] at h
        exact hexec h hset
      · rw [if_pos hh] at h
        exact hexec h hset
    · subst v
      change (s.counted (s.datagramTimeout l)).ends = _
      rw [counted_running hstop hon, datagramTimeout_full hrx hmov hdst hexit ⟨hl, hn, hfull⟩]
      exact ends_settled _ hset
  · intro l v s s1 p rest n w k reply hset hcanon hhead hflits hsrc hexit hk hs1 hreply
    have hset1 : s1.settled = true := by rw [hs1]; exact hset
    have hgates k : ∃ r, s1.gate k = { s.gate k with rx := r } := by rw [hs1]; exact gate_upOrHold_taken hcanon l v k rest
    have hrt1 : s1.rt.chip = s.rt.chip ∧ s1.rt.part = s.rt.part ∧ s1.rt.hopLimit = s.rt.hopLimit := by rw [hs1]; exact ⟨rfl, rfl, rfl⟩
    obtain ⟨hchip1, hpart1, hhops1⟩ := hrt1
    have hexit1 : s1.exitFor 3 p.src 3 = some (n, w) := by rw [hs1]; exact (exitFor_taken hcanon l v rest 3 p.src 3).trans hexit
    have hsend (b : Bytes) : s1.sendMgmt p.src p.tag b = reply b := by
      rw [sendMgmt_exit (by rw [hchip1]; exact hsrc) hexit1, hreply, hchip1, hhops1, hs1]
      rfl
    have hresult (j c : Nat) : s1.mgmtResult p j c = reply (mgmtFlit 5 j c s.rt.part [] 0) := by rw [State.mgmtResult, hpart1, hsend]
    have hsetr (b : Bytes) : (reply b).settled = true := by rw [hreply]; exact hset1
    have hon {f : Nat → Bool} (hf : f (le p.flit0 0 1) = true) (g : State → Packet → State) : s.onMgmt l v f g = g s1 p := by
      have htake := takeRx_of_rxHead hhead (halted := false) (f := fun p => s.ours opMgmt p && f (le p.flit0 0 1)) (by simp [rxHead_ours hhead, hf])
      unfold State.onMgmt State.takeMgmt
      rw [htake, hs1]
      exact if_neg hflits
    have hping {x : State} (hf : le p.flit0 0 1 < 2 ∨ 5 < le p.flit0 0 1) (hx : s1.rxPing p = x) (hset : x.settled = true) : exec (.ping l v) s = .next x := by
      change (s.onMgmt l v (fun t => !(2 ≤ t && t ≤ 5)) fun s p => s.rxPing p).ends = _
      rw [hon (by simp; omega), hx, ends_settled x hset]
    have hdis {x : State} (hf : le p.flit0 0 1 = 3) (hx : s1.rxLinkDisable p = x) (hset : x.settled = true) : exec (.mgmtLinkDisable l v) s = .next x := by
      change (s.onMgmt l v (fun t => t == 3) fun s p => s.rxLinkDisable p).ends = _
      rw [hon (by simp [hf]), hx, ends_settled x hset]
    have hen {x : State} (hf : le p.flit0 0 1 = 4) (hx : s1.rxLinkEnable p = x) (hset : x.settled = true) : exec (.mgmtLinkEnable l v) s = .next x := by
      change (s.onMgmt l v (fun t => t == 4) fun s p => s.rxLinkEnable p).ends = _
      rw [hon (by simp [hf]), hx, ends_settled x hset]
    have hdisable (hclean : mgmtClean p.flit0 true = true) : s1.rxLinkDisable p = (if s.judgeDisable k = 0 then (reply (mgmtFlit 5 k (s.judgeDisable k) s.rt.part [] 0)).askDisable k else reply (mgmtFlit 5 k (s.judgeDisable k) s.rt.part [] 0)) := by
      unfold State.rxLinkDisable
      simp only [hclean, Bool.not_true, Bool.false_eq_true, if_false, ← hk, judgeDisable_congr (hgates k), hresult]
    have henable (hclean : mgmtClean p.flit0 true = true) : s1.rxLinkEnable p = (if s.judgeEnable k = 0 then (reply (mgmtFlit 5 k (s.judgeEnable k) s.rt.part [] 0)).enableLink k else reply (mgmtFlit 5 k (s.judgeEnable k) s.rt.part [] 0)) := by
      unfold State.rxLinkEnable
      simp only [hclean, Bool.not_true, Bool.false_eq_true, if_false, ← hk, judgeEnable_congr (hgates k), hresult]
    refine ⟨fun ht hclean => ?_, fun h => ?_, fun ht => ?_, fun ht => ?_, fun ht hclean hj => ?_, fun ht hclean hj hup => ?_, fun ht hclean hj => ?_, fun ht hclean hj => ?_,
      fun hdirty => ⟨fun ht => ?_, fun ht => ?_⟩⟩
    · refine hping (.inl (by omega)) ?_ (hsetr _)
      rw [State.rxPing, if_pos ⟨ht, hclean⟩, hsend, pongFlit_congr hpart1 hgates]
    · have hno : ¬(le p.flit0 0 1 = 1 ∧ mgmtClean p.flit0 false = true) := by
        rintro ⟨h1, hclean⟩
        rcases h with ⟨-, h⟩ | h | h
        · rw [hclean] at h; cases h
        · omega
        · omega
      refine hping (by omega) ?_ (hsetr _)
      rw [State.rxPing, if_neg hno, hresult, ← hk]
    · change (s.onMgmt l v (fun t => t == 2) fun s p => s.recordMgmt p).ends = _
      rw [hon (by simp [ht]), State.recordMgmt, hs1]
      exact ends_settled _ hset
    · change (s.onMgmt l v (fun t => t == 5) fun s p => s.recordMgmt p).ends = _
      rw [hon (by simp [ht]), State.recordMgmt, hs1]
      exact ends_settled _ hset
    · exact hdis ht ((hdisable hclean).trans (if_neg hj)) (hsetr _)
    · have hgk : (reply (mgmtFlit 5 k 0 s.rt.part [] 0)).gate k = (s.taken l v rest).gate k := by rw [hreply, hs1]; rfl
      obtain ⟨r, hr⟩ := gate_upOrHold_taken hcanon l v k rest
      have h := hdisable hclean
      rw [hj, if_pos rfl, askDisable_carrying (by rw [hgk, hr]; exact hup), hgk] at h
      exact hdis ht h (hsetr _)
    · have hcanonr : (reply (mgmtFlit 5 k 0 s.rt.part [] 0)).canon = true := by rw [hreply, hs1]; exact canon_setGate hcanon _ _
      have hgk : (reply (mgmtFlit 5 k 0 s.rt.part [] 0)).gate k = (s.taken l v rest).gate k := by rw [hreply, hs1]; rfl
      obtain ⟨r, hr⟩ := gate_upOrHold_taken hcanon l v k rest
      obtain ⟨g, o, heq, hgen, hglog, hgstate⟩ := enableLink_spec hcanonr k
      have hmay : (reply (mgmtFlit 5 k 0 s.rt.part [] 0)).mayTrain = s.mayTrain := by rw [hreply, hs1]; rfl
      rw [hgk, hr, hmay] at hgstate
      have h := henable hclean
      rw [hj, if_pos rfl, heq] at h
      have hgate : ({ (reply (mgmtFlit 5 k 0 s.rt.part [] 0)).setGate k g with out := o } : State).gate k = g := gate_setGate hcanonr k g
      refine ⟨_, hen ht h (hsetr (mgmtFlit 5 k 0 s.rt.part [] 0)), ?_, ?_, ?_, rfl, ?_, ?_⟩
      · rw [hgate, hgen]
      · rw [hgate, hglog]
      · rw [hgate, hgstate]
      · rw [hreply, hs1]; rfl
      · rw [hreply, hs1]; rfl
    · exact hen ht ((henable hclean).trans (if_neg hj)) (hsetr _)
    · refine hdis ht ?_ (hsetr _)
      rw [State.rxLinkDisable, hdirty, hresult, ← hk]
      rfl
    · refine hen ht ?_ (hsetr _)
      rw [State.rxLinkEnable, hdirty, hresult, ← hk]
      rfl

end Sys2Proof.Machine
end

section
/-! Contributions, rounds and sums of chimneys (R218 to R225, R229). -/
namespace Sys2Proof.Machine

/-! ### Rounds of a chimney -/

theorem setRound_rest (y : Chimney) (r : Round) : ∃ rs, y.setRound r = { y with rounds := rs } := by
  unfold Chimney.setRound
  split <;> exact ⟨_, rfl⟩
theorem find?_replaced (n : Word) {r : Round} (h : r.num = n) : ∀ {rs : List Round}, (rs.any fun x => x.num == n) = true →
    (rs.map fun x => if x.num == n then r else x).find? (fun x => x.num == n) = some r
  | [], hany => by simp at hany
  | x :: rest, hany => by
    rw [List.map_cons, List.find?_cons]
    by_cases hx : (x.num == n) = true
    · simp [hx, h]
    · have hrest : (rest.any fun x => x.num == n) = true := by simpa [hx] using hany
      simp only [hx, Bool.false_eq_true, if_false]
      exact find?_replaced n h hrest
theorem round_setRound (y : Chimney) (r : Round) : (y.setRound r).round r.num = r := by
  unfold Chimney.setRound Chimney.round
  split
  case isTrue h => simp only [find?_replaced r.num rfl h, Option.getD_some]
  case isFalse h =>
    have hnone : y.rounds.find? (fun x => x.num == r.num) = none := by
      rw [List.find?_eq_none]
      intro x hx hn
      exact h (List.any_eq_true.mpr ⟨x, hx, hn⟩)
    simp [List.find?_append, hnone]
theorem round_num (y : Chimney) (n : Word) : (y.round n).num = n := by
  unfold Chimney.round
  cases h : y.rounds.find? fun r => r.num == n with
  | none => rfl
  | some r => simpa using List.find?_some h
theorem any_key_put {α : Type} [DecidableEq α] {d v : α} (hv : v ≠ d) (k j : Nat) : ∀ m : SMap α, (put d k v m).any (fun e => e.1 == j) = (k == j || m.any fun e => e.1 == j)
  | [] => by simp [put, hv]
  | (a, w) :: r => by
    simp only [put, if_neg hv]
    split
    · rw [List.any_cons]
    · split
      case isTrue h => rw [List.any_cons, List.any_cons, ← h, ← Bool.or_assoc, Bool.or_self]
      case isFalse h => rw [List.any_cons, List.any_cons, any_key_put hv k j r, ← Bool.or_assoc, ← Bool.or_assoc, Bool.or_comm (a == j)]

/-! ### Contribution lines -/

theorem placeLine_unmarked (s : State) (a : Nat) (b : Bytes) :
    ∃ mem lp r, s.placeLine a b false = { s with mem := mem, linePoi := lp, ranges := r } := by
  unfold State.placeLine
  split
  · obtain ⟨h1, -⟩ := placeBurst_clean s a ((fit 64 b).take 32)
    obtain ⟨h2, -⟩ := placeBurst_clean (s.placeBurst a ((fit 64 b).take 32) false) (a + 32) ((fit 64 b).drop 32)
    exact ⟨_, _, _, (h1.trans h2).rest⟩
  · split <;> exact ⟨_, _, _, rfl⟩
theorem lineLoads_writes {a t : Nat} {ls : List (Bytes × Bool)} {z : Load} (h : z ∈ lineLoads a t (fun _ _ => .none) ls) : z.kind = .write ∧ z.org = .none := by
  obtain ⟨e, -, rfl⟩ := List.mem_map.mp h
  exact ⟨rfl, rfl⟩
/-- Line `o` completes a contribution where every other line of it is held. -/
theorem lines_complete (r : Round) {b : Bytes} (hb : b ≠ []) (i o n : Nat) :
    ((List.range n).all fun l => (put [] (64 * i + o) b r.lines).any fun e => e.1 == 64 * i + l) = true ↔ ∀ k, k < n → k ≠ o → (r.lines.any fun e => e.1 == 64 * i + k) = true := by
  have hkey (k : Nat) : (64 * i + o == 64 * i + k) = true ↔ k = o := by rw [beq_iff_eq]; omega
  simp only [List.all_eq_true, List.mem_range, any_key_put hb, Bool.or_eq_true, hkey]
  exact forall_congr' fun k => forall_congr' fun _ => Decidable.or_iff_not_imp_left
/-- A clean line of a contribution: what its channel and chimney are afterwards, and what does not change. -/
theorem takeLine_clean {s : State} {c chip i o : Nat} {b : Bytes} (hb : b.length = 64) {x : Channel} {y : Chimney} (hx : x = s.chan c) (hy : y = s.chim x.k) (hcc : SMapWf 0 y.cc = true) :
    ∃ (flg : Flags) (mem : List Host.Cell) (lp : SMap Bool) (rs : SMap Range) (ls : List Load),
      s.takeLine c chip i o b false = { s with flg := flg, mem := mem, linePoi := lp, ranges := rs, mantelOut := s.mantelOut ++ ls } ∧ (∀ z ∈ ls, z.kind = .write ∧ z.org = .none) ∧
      (get {} c flg.chans).wp = x.wp ∧ get [] (64 * i + o) ((get {} x.k flg.chims).round (y.ccOf i)).lines = b ∧ get none i (get {} x.k flg.chims).bind = some chip ∧
      (get {} x.k flg.chims).ccOf i = y.ccOf i + (if ∀ k, k < y.clines → k ≠ o → ((y.round (y.ccOf i)).lines.any fun e => e.1 == 64 * i + k) = true then 1 else 0) := by
  have hne : b ≠ [] := by rintro rfl; simp at hb
  unfold State.takeLine
  extract_lets x0 k y' n r r1 yr y1 s1 s2 s3 r2 last r2' s4 r3 yr3 y2 x2
  subst hx
  have hy' : y' = y := hy.symm
  clear_value y'
  subst hy'
  have hnum : r1.num = n := round_num y' n
  have hlines : get [] (64 * i + o) r1.lines = b := (get_put_same _ _ _ _).trans (fit_eq_self hb)
  have hy1 : y1.round n = r1 ∧ get none i y1.bind = some chip ∧ y1.cc = y'.cc ∧ y1.cc0 = y'.cc0 := by
    obtain ⟨rs, hrs⟩ := setRound_rest y' r1
    refine ⟨?_, get_put_same _ _ _ _, ?_, ?_⟩
    · exact hnum ▸ round_setRound y' r1
    · exact (congrArg Chimney.cc hrs : (y'.setRound r1).cc = _)
    · exact (congrArg Chimney.cc0 hrs : (y'.setRound r1).cc0 = _)
  obtain ⟨mem, lp, rs, hs3⟩ : ∃ mem lp rs, s3 = { s1 with mem := mem, linePoi := lp, ranges := rs } := by
    have hs2 : s3 = s2 := rfl
    rw [hs2]
    by_cases ho : y'.ordered = true
    · obtain ⟨mem, lp, rs, h⟩ := placeLine_unmarked s1 (y'.stageAddr n.toNat i + 64 * o) b
      exact ⟨mem, lp, rs, (if_pos ho).trans h⟩
    · exact ⟨_, _, _, if_neg ho⟩
  have hcomplete := lines_complete (y'.round n) hne i o y'.clines
  have hput : r1.lines = put [] (64 * i + o) b (y'.round n).lines := by rw [show r1.lines = put [] (64 * i + o) (fit 64 b) (y'.round n).lines from rfl, fit_eq_self hb]
  rw [← hput] at hcomplete
  obtain ⟨hround, hbind, hcc1, hcc0⟩ := hy1
  split
  case isTrue hall =>
    obtain ⟨ls, hs4, hls⟩ : ∃ ls, s4 = { s3 with mantelOut := s3.mantelOut ++ ls } ∧ ∀ z ∈ ls, z.kind = .write ∧ z.org = .none := by
      by_cases h : (y'.ordered || decide last) = true
      · exact ⟨[], (if_pos h).trans (by rw [List.append_nil]), by simp⟩
      · exact ⟨_, if_neg h, fun z hz => lineLoads_writes hz⟩
    have hr2 : r2'.num = n ∧ r2'.lines = r1.lines := by
      have h : ∃ sum, r2' = { r2 with sum := sum } := by
        by_cases h : (y'.ordered || decide last) = true
        · exact ⟨_, if_pos h⟩
        · exact ⟨_, if_neg h⟩
      obtain ⟨sum, h⟩ := h
      rw [h]
      exact ⟨hnum, rfl⟩
    have hy2 : y2.round n = r3 ∧ get none i y2.bind = some chip ∧ y2.cc0 = y'.cc0 ∧ y2.cc = upd 0 i (· + 1) y'.cc := by
      obtain ⟨rs, hrs⟩ := setRound_rest y1 r3
      have hnum3 : r3.num = n := hr2.1
      refine ⟨hnum3 ▸ round_setRound y1 r3, ?_, ?_, ?_⟩
      · exact (congrArg (fun z : Chimney => get none i z.bind) hrs).trans hbind
      · exact (congrArg Chimney.cc0 hrs).trans hcc0
      · exact congrArg (upd 0 i (· + 1)) hcc1
    obtain ⟨hround2, hbind2, hcc02, hcc2⟩ := hy2
    have hlines3 : r3.lines = r1.lines := hr2.2
    refine ⟨((s4.setChim k y2).setChan c { x2 with accepted := x2.accepted + 1 }).flg, mem, lp, rs, ls, ?_, hls, ?_, ?_, ?_, ?_⟩
    · rw [hs4, hs3]; rfl
    · have hchans : get {} c ((s4.setChim k y2).setChan c { x2 with accepted := x2.accepted + 1 }).flg.chans = { x2 with accepted := x2.accepted + 1 } := get_put_same _ _ _ _
      rw [hchans]
      have hx2 : x2 = s.chan c := by
        show s4.chan c = _
        rw [hs4, hs3]; rfl
      exact (congrArg Channel.wp hx2 : x2.wp = _)
    all_goals
      have hchims : get {} (s.chan c).k ((s4.setChim k y2).setChan c { x2 with accepted := x2.accepted + 1 }).flg.chims = y2 := get_put_same _ _ _ _
      rw [hchims]
    · exact (congrArg (fun z : Round => get [] (64 * i + o) z.lines) hround2).trans ((congrArg (get [] (64 * i + o)) hlines3).trans hlines)
    · exact hbind2
    · rw [if_pos (hcomplete.mp hall), Chimney.ccOf, hcc02, hcc2, upd, get_put_same, Chimney.ccOf, BitVec.ofNat_add, BitVec.add_assoc]
      rfl
  case isFalse hall =>
    refine ⟨(s.setChim k y1).flg, mem, lp, rs, [], ?_, by simp, rfl, ?_, ?_, ?_⟩
    · rw [hs3, List.append_nil]; rfl
    all_goals
      have hchims : get {} (s.chan c).k (s.setChim k y1).flg.chims = y1 := get_put_same _ _ _ _
      rw [hchims]
    · exact (congrArg (fun z : Round => get [] (64 * i + o) z.lines) hround).trans hlines
    · exact hbind
    · rw [if_neg (fun h => hall (hcomplete.mpr h)), Chimney.ccOf, hcc0, hcc1]
      exact (BitVec.add_zero _).symm
theorem contribArrive_line {s : State} {c chip i o : Nat} {t : Option Nat} {b : Bytes} {fits : Bool} (h : State.judgeLine s s c t chip i o fits = 0) :
    s.contribArrive c t chip i o [(b, false)] fits = (s.takeLine c chip i o b false, 0) := by
  simp only [State.contribArrive, State.takeLines, h, if_true]
theorem windowWrite_line {s : State} {t chip k i o : Nat} {b : Bytes} (hi : i < 256) (ho : o < 64) (hused : (s.chim k).used = true)
    (h : State.judgeLine s s (s.chim k).chan (some t) chip i o true = 0) :
    s.windowWrite t chip (contribWindow + k * 0x100000 + i * 0x1000 + o * 64) [(b, false)] = (s.takeLine (s.chim k).chan chip i o b false, 0) := by
  have hk : (contribWindow + k * 0x100000 + i * 0x1000 + o * 64 - contribWindow) / 0x100000 = k := by unfold contribWindow; omega
  have hi : (contribWindow + k * 0x100000 + i * 0x1000 + o * 64 - contribWindow) % 0x100000 / 0x1000 = i := by unfold contribWindow; omega
  have ho : (contribWindow + k * 0x100000 + i * 0x1000 + o * 64 - contribWindow) % 0x1000 / 64 = o := by unfold contribWindow; omega
  simp only [State.windowWrite, State.windowLines, hk, hi, ho, hused, Bool.not_true, Bool.false_eq_true, if_false, h, if_true]

/-! ### Sums and rounds -/

theorem settleChimney_opened {s : State} {c : Nat} (h : (s.chan c).state = .opened) : s.settleChimney c = s :=
  if_neg fun hc => by rw [h] at hc; exact absurd hc.1 (by decide)
theorem roundSum_ready {s : State} {k : Nat} {r : Round} (h : s.sumReady k = some r) {sum : Bytes} {ls : List Load}
    (hsum : sum = (if (s.chim k).ordered then elemBytes (s.chim k).fmt (s.orderedSum (s.chim k) r) else r.fold (s.chim k) (r.complete.getLastD 0) (r.complete.length == 1)))
    (hls : ls = lineLoads ((s.chan (s.chim k).chan).slotAddr r.num.toNat) (s.chan (s.chim k).chan).tenant (fun _ _ => .sum k r.num.toNat) ((List.range (sum.length / 64)).map fun j => ((sum.drop (64 * j)).take 64, r.poison))) :
    s.roundSum k = (s.setChim k ((s.chim k).setRound { r with begun := true, formed := true, sum := sum, left := ls.length, written := ls.isEmpty })).mantelSend ls := by
  unfold State.roundSum
  simp only [h]
  rw [← hsum]
  subst hls
  rfl
theorem sumPlaced_writing {s : State} {k num : Nat} {r : Round} (h : (s.chim k).rounds.find? (fun r => r.num.toNat == num && r.formed && !r.written) = some r)
    (hopen : (s.chan (s.chim k).chan).state = .opened) :
    s.sumPlaced k num = s.setChim k ((s.chim k).setRound { r with left := r.left - 1, written := decide (r.left ≤ 1) }) := by
  unfold State.sumPlaced
  simp only [h]
  exact settleChimney_opened hopen
theorem roundComplete_written {s : State} {k : Nat} (hused : (s.chim k).used = true) (hany : ((s.chim k).rounds.any fun r => r.num == (s.chan (s.chim k).chan).wp && r.written) = true) (hfwd : (s.chim k).fwdEn = false) :
    s.roundComplete k = ((s.setChim k { s.chim k with rounds := (s.chim k).rounds.filter fun z => z.num != (s.chan (s.chim k).chan).wp }).advanceWp (s.chim k).chan).settleChimney (s.chim k).chan := by
  unfold State.roundComplete
  simp only [hused, hany, hfwd, Bool.and_self, if_true, Bool.false_eq_true, if_false]

/-- Settles O40: a line by `takeLine_clean`, sums and rounds each by the lemma on its operation. -/
theorem chimneys : Obligations.Chimneys := by
  unfold Obligations.Chimneys
  refine ⟨?_, ?_⟩
  · intro l v s b x y c i o src hset hcanon hchans hchims hx hy hcc hbind hrounds hb ho
    refine ⟨?contrib, ?window⟩
    case contrib =>
      intro p rest hhead hsrc hchip hc hi hoff hfl
      subst hc hi hoff hsrc
      refine ⟨fun hw => ?_, fun hw hj => ?_⟩
      · change (s.onPacket l.val v.val opContrib fun s p => s.rxContrib l.val p).ends = _
        rw [onPacket_waits hhead hw, ends_settled s hset]
      · obtain ⟨flg, mem, lp, rs, ls, htake, -, hwp, hline, hbound, hcount⟩ :=
          takeLine_clean (s := s.taken l v rest) (c := p.channel) (chip := p.src) (i := p.cindex) (o := p.coffset) hb (x := x) (y := y) hx hy hcc
        have harrive := contribArrive_line (b := b) hj
        rw [← hfl, htake] at harrive
        obtain ⟨z, hz⟩ : ∃ z : State, z = (if p.sunit / 32 = 5 then
            { ({ (s.taken l v rest) with flg := flg, mem := mem, linePoi := lp, ranges := rs, mantelOut := (s.taken l v rest).mantelOut ++ ls } : State) with fresh := s.fresh + 1 } else
            { (s.taken l v rest) with flg := flg, mem := mem, linePoi := lp, ranges := rs, mantelOut := (s.taken l v rest).mantelOut ++ ls }) := ⟨_, rfl⟩
        have hexec : exec (.contrib l v) s = (State.settleReq (z, 0) l p).ends := by
          change (s.onPacket l.val v.val opContrib fun s p => s.rxContrib l.val p).ends = _
          rw [onPacket_taken hhead hw, State.rxContrib]
          have hfits : (s.taken l v rest).forwardFits p.channel p.src (p.tag % 4096) = s.forwardFits p.channel p.src (p.tag % 4096) := rfl
          simp only [hfits]
          rw [harrive, hz]
          rfl
        have hzrest : z.flg = flg ∧ z.hobs = s.hobs ∧ z.stk = s.stk ∧ z.settled = s.settled ∧ z.rt = s.rt := by
          rw [hz]
          split <;> exact ⟨rfl, rfl, rfl, rfl, rfl⟩
        obtain ⟨hzflg, hzhobs, hzstk, hzset, hzrt⟩ := hzrest
        have hreq := settleReq_gate (u := l) l.isLt (s := z) (p := p) (by rw [hzrt]; exact hchip) 0
        generalize State.settleReq (z, 0) l p = s' at hexec hreq
        have hflg : s'.flg = flg := by rw [hreq]; exact hzflg
        subst hflg
        refine ⟨s', hexec.trans (ends_settled s' (by rw [hreq]; exact hzset.trans hset)), hline, hbound, hcount, hwp, ?_, ?_⟩
        · rw [hreq]; exact hzhobs
        · rw [hreq]; exact hzstk
    case window =>
      intro ld hon hfind haddr hi hk hl hd hp hchip hused hchan hj
      obtain ⟨s1, hs1⟩ : ∃ z : State, z = { s with mantel := s.mantel.eraseP fun z => inContribWindow z.addr } := ⟨_, rfl⟩
      have hy1 : s1.chim x.k = y := by rw [hs1, hy]; rfl
      obtain ⟨flg, mem, lp, rs, ls, htake, hls, -, hline, hbound, -⟩ :=
        takeLine_clean (s := s1) (c := c) (chip := src) (i := i) (o := o) hb (x := x) (y := y) (by rw [hs1]; exact hx) hy1.symm hcc
      rw [← hs1] at hj
      have hwrite := windowWrite_line (s := s1) (t := ld.tenant) (chip := src) (k := x.k) (b := b) hi ho (by rw [hy1]; exact hused) (by rw [hy1, hchan]; exact hj)
      rw [hy1, hchan, ← haddr, htake] at hwrite
      have hlines : ((List.range ld.lines).map fun j => ((ld.data.drop (64 * j)).take 64, ld.poi.getD j false)) = [(b, false)] := by
        rw [hl, hd, hp]
        simp [hb, List.take_of_length_le]
      have hexec : s.contributionWrite = ({ s1 with flg := flg, mem := mem, linePoi := lp, ranges := rs, mantelOut := s1.mantelOut ++ ls } : State).answer ld 0 .ack [] [] := by
        unfold State.contributionWrite
        rw [popMantel_eq hon hfind, ← hs1]
        simp only [hlines, hchip, hwrite]
      have hstep : exec .contributionWrite s = .next s.contributionWrite := ends_settled _ (by rw [hexec, hs1]; exact hset)
      rw [hexec] at hstep
      refine ⟨_, ls, hstep, hline, hbound, ?_, hls, ?_⟩
      · rw [hs1]; rfl
      · rw [hs1]; rfl
  · intro k s y x hset hcanon hon hchans hchims hval hy hx hopen
    subst hy
    subst hx
    refine ⟨fun r sum ls hr hsum hls => ?sum, fun src ld num r hturn hld hk horg hr => ?placed, fun hused hany hfwd hch => ?complete⟩
    case sum =>
      have h := roundSum_ready hr hsum hls
      have hexec : exec (.roundSum k) s = .next (s.roundSum k) := by
        change (if s.mantelOff then s else s.roundSum k.val).ends = _
        rw [hon, if_neg Bool.false_ne_true]
        exact ends_settled _ (by rw [h]; exact hset)
      rw [h] at hexec
      exact ⟨_, hexec, rfl, get_put_same _ _ _ _, rfl, rfl, rfl, rfl⟩
    case placed =>
      obtain ⟨s1, hdel, hs1, -, -⟩ := spineDeliver_hands hcanon hon hturn rfl hld
      have hhome : s1.spineTo 4 ld = s1.sumPlaced k num := by
        simp only [State.spineTo, if_true, hk, State.home, horg]
      have hchim : s1.chim k = s.chim k := by rw [hs1]; rfl
      have hplaced := sumPlaced_writing (s := s1) (k := k) (num := num) (r := r) (by rw [hchim]; exact hr) (by rw [hchim, hs1]; exact hopen)
      rw [hchim] at hplaced
      have hexec : exec (.spineDelivery src 4) s = .next (s1.sumPlaced k num) := by
        change (s.spineDeliver src 4).ends = _
        rw [hdel, hhome]
        exact ends_settled _ (by rw [hplaced, hs1]; exact hset)
      rw [hplaced] at hexec
      refine ⟨_, hexec, get_put_same _ _ _ _, ?_, ?_⟩
      · rw [hs1]; rfl
      · rw [hs1]; rfl
    case complete =>
      have h := roundComplete_written hused hany hfwd
      obtain ⟨s1, hs1⟩ : ∃ z, z = s.setChim k { s.chim k with rounds := (s.chim k).rounds.filter fun z => z.num != (s.chan (s.chim k).chan).wp } := ⟨_, rfl⟩
      have hchan1 : s1.chan (s.chim k).chan = s.chan (s.chim k).chan := by rw [hs1]; rfl
      obtain ⟨hrest, hwps, hkept, hnot, -⟩ := advanceWp_rest s1 (s.chim k).chan
      rw [hchan1] at hwps hnot
      rw [← hs1] at h
      generalize s1.advanceWp (s.chim k).chan = s2 at h hrest hwps hkept hnot
      have hchan2 : s2.chan (s.chim k).chan = { s.chan (s.chim k).chan with wp := (s.chan (s.chim k).chan).wp + 1, ac := (s.chan (s.chim k).chan).wp + 1 } := by
        refine (congrArg (get {} (s.chim k).chan) hwps).trans ((get_put_same _ _ _ _).trans ?_)
        rw [if_pos hch]
      rw [settleChimney_opened (by rw [hchan2]; exact hopen)] at h
      refine ⟨s2, ?_, ?_, ?_, ?_, fun hn hmay => ?_, ?_, ?_, ?_⟩
      · change (if s.mantelOff then s else s.roundComplete k.val).ends = _
        rw [hon, if_neg Bool.false_ne_true, h]
        exact ends_settled _ (by rw [hrest, hs1]; exact hset)
      · rw [hchan2]
      · rw [hchan2]
      · refine (congrArg (get {} k.val) hkept).trans ?_
        rw [hs1]
        exact get_put_same _ _ _ _
      · refine (hnot (by rw [hs1]; exact hval) hn (by rw [hs1]; exact hmay)).trans ?_
        rw [hs1]; rfl
      · rw [hrest, hs1]; rfl
      · rw [hrest, hs1]; rfl
      · rw [hrest, hs1]; rfl

end Sys2Proof.Machine
end

section
/-! START refuted: a mover access that the station still performs in its idle beat writes HBM when beat 0 begins (R157, R249, R453). -/
namespace Sys2Proof.Machine

/-- A message whose next request is a START, with another START behind it. -/
def startMessage : DMsg := { dseq := 0, reqs := [(0x50, []), (0x50, [])] }
/-- A mover's write of one line to HBM address 0, as station 0 performs it. -/
def servedWrite : Nat × Load × List Nat := (0, { lines := 1, data := List.replicate 64 1 }, [])
/-- A part before START, its ranges with an entry of their own, whose station 0 is performing that write. -/
def servingPart : State :=
  { boot := { step := 9, work := [startMessage] },
    ranges := [(0, { entry := 1, stn := { serving := [servedWrite] } }), (1, { entry := 1 }), (2, { entry := 1 }), (3, { entry := 1 })] }
theorem servingPart_nextIs : servingPart.nextIs startMessage 0x50 [] := ⟨by decide, rfl, rfl, rfl, rfl, _, [], rfl, rfl⟩
theorem servingPart_canon : servingPart.canon = true := by decide
/-- START begins beat 0, and the write that ends in the idle beat before it is placed: memory is no longer empty. -/
theorem start_servingPart : (match exec .start servingPart with | .next s => s.mem.isEmpty | _ => true) = false := by decide +kernel

/-- Refutes O57: START keeps memory only where no access of a mover is being performed; here one writes a line in the beat that ends. -/
theorem not_entryRequests : ¬ Obligations.EntryRequests := by
  unfold Obligations.EntryRequests
  intro h
  obtain ⟨-, -, hstart, -⟩ := h servingPart startMessage [] 0 0 _ rfl rfl servingPart_canon (by decide)
  obtain ⟨s', hexec, -, -, -, hmem, -⟩ := hstart servingPart_nextIs rfl rfl rfl rfl fun q hq =>
    match q, hq with
    | 0, _ | 1, _ | 2, _ | 3, _ => ⟨rfl, rfl⟩
  have hplaced := start_servingPart
  rw [hexec] at hplaced
  have hempty : s'.mem = [] := hmem
  simp [hempty] at hplaced

end Sys2Proof.Machine
end

section
/-! WR_CHPOST refuted: a posted line of more than 4,202 bytes is taken, and no frame leaves (R347, R355; Table 11.2). -/
namespace Sys2Proof.Machine

/-- A CHPOST of 8,192 bytes with local key 0. -/
def longPost : Bytes := fit 64 (toBytes 8 0 ++ toBytes 8 5 ++ toBytes 8 0 ++ toBytes 4 8192)
/-- A part whose queue pair 1 is READY with that request, whose region 0 holds its bytes, and whose interface 0 is up. -/
def longPostingPart : State :=
  { trn := { qps := [(1, { state := 3, sq := [longPost] })], ifaces := [(0, { up := true })],
             regions := [(0, { reg := true, loc := true, state := 1, len := 8192 })] } }
theorem longPostingPart_settled : longPostingPart.settled = true ∧ longPostingPart.canon = true := by decide
theorem longPostingPart_mayTake : longPostingPart.mayTake 1 5 = true := by decide +kernel
theorem longPostingPart_key : longPostingPart.judgeKey (wrLkey longPost) 0 0 2 (wrLoff longPost) (wrLen longPost) = 0 := by decide +kernel
theorem longPostingPart_clean : (longPostingPart.opData { state := 3, sq := [longPost] } longPost 0).2 = false := by decide +kernel
/-- The request is taken, and nothing leaves the part. -/
theorem wrChpost_longPostingPart : (match exec (.wrChpost 1) longPostingPart with | .next s => s.out.isEmpty | _ => false) = true := by decide +kernel

/-- Refutes O50: the frame of a CHPOST that is longer than Table 11.2 allows is not sent. -/
theorem not_transportWork : ¬ Obligations.TransportWork := by
  unfold Obligations.TransportWork
  intro h
  obtain ⟨hset, hcanon⟩ := longPostingPart_settled
  obtain ⟨hsend, -⟩ := h.1 1 (.wrChpost 1) 5 longPostingPart { state := 3, sq := [longPost] } longPost [] 1 hset hcanon (by decide)
    (by simp) (by decide) rfl longPostingPart_mayTake rfl rfl (by decide +kernel)
  obtain ⟨s', more, hexec, hout, -⟩ := hsend (.inr longPostingPart_key) (fun _ => longPostingPart_clean) rfl rfl (by decide) (by decide) rfl (by decide)
  have hnone := wrChpost_longPostingPart
  rw [hexec] at hnone
  simp [hout] at hnone

end Sys2Proof.Machine
end

section
/-! A posted work request refuted: a marked line that finds the poison table full stops the part, and its send queue is empty (R346, R264, R481). -/
namespace Sys2Proof.Machine

/-- A REVOKE posted with a mark to queue pair 1. -/
def markedPost : Load := { lines := 1, addr := postWindow + 0x100, data := fit 64 (toBytes 8 0 ++ [7]), poi := [true] }
/-- Queue pair 1, with one place for work requests, at address 0. -/
def markedPair : Qp := { state := 3, sqdepth := 1 }
/-- A part in bring-up's last step whose poison table of station 0 is full, before that post. -/
def fullTablePart : State :=
  { boot := { step := 10 }, ranges := [(0, { stn := { ptab := (List.range 1024).map fun k => (k + 1, 1) } })],
    trn := { qps := [(1, markedPair)] }, mantel := [markedPost] }
theorem fullTablePart_settled : fullTablePart.settled = true ∧ fullTablePart.canon = true ∧ fullTablePart.mantelOff = false := by decide +kernel
/-- The part stops for good, which discards what waits in send queues. -/
theorem post_fullTablePart : (match exec .postWorkRequest fullTablePart with | .next s => (s.qp 1).sq.isEmpty | _ => false) = true := by decide +kernel

/-- Refutes O49: the request that is posted with a mark does not stand in its send queue where its line finds the poison table full. -/
theorem not_posts : ¬ Obligations.Posts := by
  unfold Obligations.Posts
  intro h
  obtain ⟨hset, hcanon, hon⟩ := fullTablePart_settled
  obtain ⟨hsend, -⟩ := h fullTablePart _ 0 1 _ markedPost markedPair _ _ hset hcanon hon (by decide) rfl (by decide) rfl (by decide) rfl rfl rfl
  obtain ⟨s', hexec, hqp, -⟩ := hsend (by decide +kernel) rfl (by decide) (by decide) (by decide)
  have hempty := post_fullTablePart
  rw [hexec] at hempty
  simp [hqp] at hempty

end Sys2Proof.Machine
end

section
/-! SIMMER_EXIT refuted: a reply that waits at a stopped bridge ends a datagram fetch when the clock restarts, and placing it may stop the part (R419, R264, R481). -/
namespace Sys2Proof.Machine

/-- A datagram fetch of the part itself into a staging area at address 0, whose last piece is out. -/
def ownFetch : Remote := { pkt := { op := opDfetch, addr2 := 0 }, link := atMantel, left := 1 }
/-- That piece, read with a mark, at the bridge of quarter 0. -/
def markedReply : Load := { kind := .readData, data := List.replicate 64 1, poi := [true], org := .remote 0 0 }
/-- What the sensors report at 0 degrees. -/
def coldSeam : SeamEnv := { tq := [], tm := 0, bridge := [], station := [] }
/-- A part in SIMMER whose exit is decided, with that reply, while the poison table of station 0 is full. -/
def exitingPart : State :=
  { boot := { step := 10 }, pwr := { simmer := true, exiting := some 0 }, remote := [(0, ownFetch)],
    shared := [{ hbm := true, ranges := 1, len := 65536, staging := true }],
    ranges := [(0, { halted := true, brIn := [markedReply], stn := { ptab := (List.range 1024).map fun k => (k + 1, 1) } }),
               (1, { halted := true }), (2, { halted := true }), (3, { halted := true })] }
theorem exitingPart_settled : exitingPart.settled = true ∧ exitingPart.canon = true := by decide +kernel
theorem exitingPart_ready : ∀ q : Fin 4, (exitingPart.range q).halted = true ∧ exitingPart.sinksReady q = true := by decide +kernel
/-- The part leaves SIMMER and stops for good. -/
theorem simmerExit_exitingPart : (match exec (.simmerExit coldSeam []) exitingPart with | .next s => s.svc.mode | _ => 0) = 4 := by decide +kernel

/-- Refutes O34: the exit from SIMMER need not end in RUN, where what it delivers is a part-fatal error. -/
theorem not_quartersResume : ¬ Obligations.QuartersResume := by
  unfold Obligations.QuartersResume
  rintro ⟨-, hexit, -⟩
  obtain ⟨hset, hcanon⟩ := exitingPart_settled
  obtain ⟨s', hexec, -, -, hmode, -⟩ := hexit coldSeam [] exitingPart 0 hset hcanon rfl rfl rfl rfl exitingPart_ready (by decide) (by decide) (by decide)
  have hstopped := simmerExit_exitingPart
  rw [hexec] at hstopped
  simp [hmode] at hstopped

end Sys2Proof.Machine
end

section
/-! What the units of a part leave unchanged at the end of a command: the relation Calm, and Calm for each function of State that the end of a command may call. -/
namespace Sys2Proof.Machine

/-! ### The relation -/

/-- What the link layer keeps of a gate while packets enter and leave it and its counters count. -/
def Gate.core (g : Gate) : Gate := { g with cnt := [], waiting := [], rx := [], moving := [] }
/-- The fields of the service core that only its own commands change. -/
def Service.core (v : Service) : Service := { ({} : Service) with fatalSvc := v.fatalSvc, executing := v.executing, testMode := v.testMode, mirrorEn := v.mirrorEn }
/-- The counts of beats and stall beats. -/
def Stoker.counts (k : Stoker) : Stoker :=
  { ({} : Stoker) with started := k.started, beat := k.beat, tickDue := k.tickDue, ranNow := k.ranNow, tookNow := k.tookNow, sb := k.sb, localStall := k.localStall, rid := k.rid }
/-- Where a range stands in its program: its phase, the bundle of the cycle, the effects that are pending, and the faults to be reported. -/
def Range.course (r : Range) : Phase × Option Nat × List Nat × List RPend × Nat := (r.phase, r.iss, r.todo, r.pend, r.fltGain)
/-- A queue pair in ERROR with nothing left in it. -/
def Qp.dead (x : Qp) : Prop := x.state = 4 ∧ x.sq = [] ∧ x.ops = []
/-- No operation of the queue pair counts as acknowledged (R370). -/
def Qp.unacked (x : Qp) : Prop := ∀ o ∈ x.ops, o.acked = false
/-- What becomes of a queue pair where nothing is received: one that is dead stays so, UNA and RETRIES stay where no operation counts as acknowledged, and no RNR_DELAY begins. At level 0 no queue
pair enters ERROR, so that the code of one that is there stays. -/
structure Qp.Becomes (K : Nat) (x y : Qp) : Prop where
  dead : x.dead → y.dead
  code : K = 0 → x.dead → y.errcode = x.errcode
  window : x.unacked → y.unacked ∧ y.retries = x.retries ∧ y.una = x.una
  rnr : x.rnrWait = none → y.rnrWait = none
/-- What becomes of the transport: at level 0 no queue pair enters ERROR, at level 1 the regions that are closed stay as they are, and at level 2 anything may happen to it. -/
structure TransCalm (K : Nat) (a t : Transport) : Prop where
  pairs : K < 2 → SMapWf ({} : Qp) a.qps = true → SMapWf ({} : Qp) t.qps = true ∧ ∀ q, Qp.Becomes K (get {} q a.qps) (get {} q t.qps)
  regions : K < 2 → SMapWf ({} : Region) a.regions = true → SMapWf ({} : Region) t.regions = true ∧ ∀ i, (get {} i a.regions).state = 0 → get {} i t.regions = get {} i a.regions
  matched : K = 0 → t.matched = a.matched
/-- What nothing at the end of a command changes while the part stays on. -/
def State.calmCore (s : State) : SMap Hob × Clocks × Power × Boot × Service × Stoker × Word × Word :=
  (s.hobs, s.clk, { s.pwr with sinks := [], exiting := none }, { s.boot with session := 0, digests := [], bufs := 0, work := [] }, s.svc.core, s.stk.counts, s.rt.hopdrop,
    s.rt.hopdropSeen)
/-- That, and what only few of its functions change. -/
def State.calmRest (s : State) : (SMap Hob × Clocks × Power × Boot × Service × Stoker × Word × Word) × Boot × SMap Range × SMap Gate × List Packet × Nat × Nat × SMap (Option Nat) × SMap Qp × SMap Region × List Recv :=
  (s.calmCore, s.boot, s.ranges, s.gates, s.loopback, s.svc.mode, s.svc.cause, s.stk.claims, s.trn.qps, s.trn.regions, s.trn.matched)
/-- `t` comes from `a` by changes that leave the core of the part, and of the gates that `G` names, as they were; the part may have stopped for good. -/
structure Calm (K : Nat) (F : Prop) (G : Nat → Prop) (a t : State) : Prop where
  core : t.calmCore = a.calmCore
  mode : t.svc.mode = a.svc.mode ∨ F ∧ t.svc.mode = 4
  cause : a.svc.cause ≠ 0 → t.svc.cause = a.svc.cause
  claims : a.stk.claims = [] → t.stk.claims = []
  work : a.boot.work = [] → t.boot.work = []
  bufs : ∀ k, a.boot.bufs.getLsbD k = false → t.boot.bufs.getLsbD k = false
  gates : SMapWf ({} : Gate) a.gates = true → SMapWf ({} : Gate) t.gates = true ∧ ∀ l, G l → (t.gate l).core = (a.gate l).core
  ranges : SMapWf ({} : Range) a.ranges = true → SMapWf ({} : Range) t.ranges = true ∧ ∀ k, (t.range k).course = (a.range k).course
  loop : ¬ F → t.loopback = a.loopback
  noMgmt : (∀ p ∈ a.loopback, p.op ≠ opMgmt) → ∀ p ∈ t.loopback, p.op ≠ opMgmt
  transport : TransCalm K a.trn t.trn
/-- `Calm` for the state of a pair. -/
def CalmP {α : Type} (K : Nat) (F : Prop) (G : Nat → Prop) (a : State) (p : State × α) : Prop := Calm K F G a p.1
/-- `Calm` for a state that may be absent. -/
def CalmO (K : Nat) (F : Prop) (G : Nat → Prop) (a : State) : Option State → Prop
  | some t => Calm K F G a t
  | none => True

section
variable {K : Nat} {F : Prop} {G : Nat → Prop} {a s t : State}

theorem becomes_refl (x : Qp) : x.Becomes K x := ⟨id, fun _ _ => rfl, fun h => ⟨h, rfl, rfl⟩, id⟩
theorem Qp.Becomes.trans {x y z : Qp} (h : Qp.Becomes K x y) (k : Qp.Becomes K y z) : Qp.Becomes K x z :=
  ⟨fun hd => k.dead (h.dead hd), fun hK hd => (k.code hK (h.dead hd)).trans (h.code hK hd), fun hu => by
    obtain ⟨hy, hr, ha⟩ := h.window hu
    obtain ⟨hz, hr', ha'⟩ := k.window hy
    exact ⟨hz, hr'.trans hr, ha'.trans ha⟩, fun hr => k.rnr (h.rnr hr)⟩
theorem transCalm_refl (a : Transport) : TransCalm K a a := ⟨fun _ h => ⟨h, fun _ => becomes_refl _⟩, fun _ h => ⟨h, fun _ _ => rfl⟩, fun _ => rfl⟩
theorem TransCalm.trans {a b c : Transport} (h : TransCalm K a b) (k : TransCalm K b c) : TransCalm K a c := by
  refine ⟨fun hK hw => ?_, fun hK hw => ?_, fun hK => (k.matched hK).trans (h.matched hK)⟩
  · obtain ⟨hb, hq⟩ := h.pairs hK hw
    obtain ⟨hc, hr⟩ := k.pairs hK hb
    exact ⟨hc, fun q => (hq q).trans (hr q)⟩
  · obtain ⟨hb, hq⟩ := h.regions hK hw
    obtain ⟨hc, hr⟩ := k.regions hK hb
    exact ⟨hc, fun i hi => (hr i (hq i hi ▸ hi)).trans (hq i hi)⟩
/-- A transport whose queue pairs, regions and matched receives stay. -/
theorem transCalm_of_rest {a b c : Transport} (h : TransCalm K a b) (hq : c.qps = b.qps) (hr : c.regions = b.regions) (hm : c.matched = b.matched) : TransCalm K a c :=
  h.trans ⟨fun _ hw => by rw [hq]; exact ⟨hw, fun _ => becomes_refl _⟩, fun _ hw => by rw [hr]; exact ⟨hw, fun _ _ => rfl⟩, fun _ => hm⟩
theorem calm_refl : Calm K F G a a := ⟨rfl, .inl rfl, fun _ => rfl, id, id, fun _ => id, fun h => ⟨h, fun _ _ => rfl⟩, fun h => ⟨h, fun _ => rfl⟩, fun _ => rfl, id, transCalm_refl _⟩
/-- A change of fields that the relation does not name. -/
theorem calm_of_rest (h : Calm K F G a s) (e : t.calmRest = s.calmRest) : Calm K F G a t := by
  obtain ⟨hcore, hboot, hranges, hgates, hloop, hmode, hcause, hclaims, hqps, hregions, hmatched⟩ : t.calmCore = s.calmCore ∧ t.boot = s.boot ∧ t.ranges = s.ranges ∧ t.gates = s.gates ∧ t.loopback = s.loopback ∧
    t.svc.mode = s.svc.mode ∧ t.svc.cause = s.svc.cause ∧ t.stk.claims = s.stk.claims ∧ t.trn.qps = s.trn.qps ∧ t.trn.regions = s.trn.regions ∧ t.trn.matched = s.trn.matched := by
    simpa [State.calmRest] using e
  refine ⟨hcore.trans h.core, hmode ▸ h.mode, hcause ▸ h.cause, hclaims ▸ h.claims, hboot ▸ h.work, hboot ▸ h.bufs, ?_, ?_, hloop ▸ h.loop, hloop ▸ h.noMgmt,
    transCalm_of_rest h.transport hqps hregions hmatched⟩
  · simp only [State.gate, hgates]
    exact h.gates
  · simp only [State.range, hranges]
    exact h.ranges
/-- The same for a record update, whose form shows the state that it updates. -/
theorem calm_mk {gates : SMap Gate} {mem : List Host.Cell} {linePoi : SMap Bool} {stk : Stoker} {flg : Flags} {tenants : List Tenant} {shared leaving : List Area}
    {stage : SMap (Nat × Nat)} {stageFill : SMap Bool} {mantel mantelOut : List Load} {remote : SMap Remote} {nextRemote spineLast : Nat} {loopback : List Packet} {svc : Service}
    {com : Common} {tap : Tap} {rt : Routing} {clk : Clocks} {pwr : Power} {boot : Boot} {trn : Transport} {fresh : Nat} {out : List Out} {pending : List Instr} (h : Calm K F G a s)
    (e : (State.mk s.hobs s.ranges gates mem linePoi stk flg tenants shared leaving stage stageFill mantel mantelOut remote nextRemote spineLast loopback svc com tap rt clk pwr boot trn fresh
      out pending).calmRest = s.calmRest) :
    Calm K F G a (State.mk s.hobs s.ranges gates mem linePoi stk flg tenants shared leaving stage stageFill mantel mantelOut remote nextRemote spineLast loopback svc com tap rt clk pwr boot trn
      fresh out pending) := calm_of_rest h e
theorem Calm.trans (h : Calm K F G a s) (k : Calm K F G s t) : Calm K F G a t := by
  refine ⟨k.core.trans h.core, ?_, fun c => ?_, fun c => k.claims (h.claims c), fun c => k.work (h.work c), fun n c => k.bufs n (h.bufs n c), fun c => ?_, fun c => ?_, fun c => (k.loop c).trans (h.loop c),
    fun c => k.noMgmt (h.noMgmt c), h.transport.trans k.transport⟩
  · rcases k.mode with e | e
    · rw [e]; exact h.mode
    · exact .inr e
  · rw [k.cause (h.cause c ▸ c), h.cause c]
  · obtain ⟨hw, hg⟩ := h.gates c
    obtain ⟨hw', hg'⟩ := k.gates hw
    exact ⟨hw', fun l hl => (hg' l hl).trans (hg l hl)⟩
  · obtain ⟨hw, hr⟩ := h.ranges c
    obtain ⟨hw', hr'⟩ := k.ranges hw
    exact ⟨hw', fun q => (hr' q).trans (hr q)⟩
theorem calm_id (h : Calm K F G a s) : Calm K F G a (id s) := h
theorem calmP_mk {α : Type} {x : α} (h : Calm K F G a t) : CalmP K F G a (t, x) := h
theorem calmO_some (h : Calm K F G a t) : CalmO K F G a (some t) := h
theorem calmO_none : CalmO K F G a none := trivial
theorem calm_of_some {o : Option State} (e : o = some t) (h : CalmO K F G a o) : Calm K F G a t := by subst e; exact h
theorem calm_fst {α : Type} {p : State × α} (h : CalmP K F G a p) : Calm K F G a p.1 := h
theorem calm_of_pair {α : Type} {x : α} {p : State × α} (e : p = (t, x)) (h : CalmP K F G a p) : Calm K F G a t := by subst e; exact h
theorem calm_foldl {α : Type} {f : State → α → State} {l : List α} (h : Calm K F G a s) (hf : ∀ t x, Calm K F G a t → Calm K F G a (f t x)) : Calm K F G a (l.foldl f s) := by
  induction l generalizing s with
  | nil => exact h
  | cons x r ih => exact ih (hf s x h)
/-- A range changes but for where it stands in its program. -/
theorem calm_setRange (q : Nat) (x : Range) (h : Calm K F G a s) (hx : x.course = (s.range q).course) : Calm K F G a (s.setRange q x) := by
  refine ⟨h.core, h.mode, h.cause, h.claims, h.work, h.bufs, h.gates, fun hw => ?_, h.loop, h.noMgmt, h.transport⟩
  obtain ⟨hs, hr⟩ := h.ranges hw
  refine ⟨put_wf hs, fun k => ?_⟩
  by_cases hkq : k = q
  · subst hkq
    rw [show (s.setRange k x).range k = x from get_put_same _ _ _ _]
    exact hx.trans (hr k)
  · rw [show (s.setRange q x).range k = s.range k from get_put_ne _ _ _ _ _ hs hkq]
    exact hr k
/-- A gate changes outside its core. -/
theorem calm_setGate (l : Nat) (x : Gate) (h : Calm K F G a s) (hx : G l → x.core = (s.gate l).core) : Calm K F G a (s.setGate l x) := by
  refine ⟨h.core, h.mode, h.cause, h.claims, h.work, h.bufs, fun hw => ?_, h.ranges, h.loop, h.noMgmt, h.transport⟩
  obtain ⟨hs, hg⟩ := h.gates hw
  refine ⟨put_wf hs, fun k hk => ?_⟩
  by_cases hkl : k = l
  · subst hkl
    rw [show (s.setGate k x).gate k = x from get_put_same _ _ _ _]
    exact (hx hk).trans (hg k hk)
  · rw [show (s.setGate l x).gate k = s.gate k from get_put_ne _ _ _ _ _ hs hkl]
    exact hg k hk
/-- Gate `l` changes for good. -/
theorem calm_setGate_out (l : Nat) (x : Gate) (h : Calm K F G a s) (hl : ¬ G l) : Calm K F G a (s.setGate l x) := calm_setGate l x h fun hg => absurd hg hl
theorem calm_bumpGate (l off : Nat) (d : Word) (h : Calm K F G a s) : Calm K F G a (s.bumpGate l off d) := calm_setGate l _ h fun _ => rfl
theorem calm_enqueue (l vc : Nat) (src : PSrc) (p : Packet) (h : Calm K F G a s) : Calm K F G a (s.enqueue l vc src p) := calm_setGate l _ h fun _ => rfl
theorem calm_popRx (l v : Nat) (h : Calm K F G a s) : Calm K F G a (s.popRx l v) := calm_setGate l _ h fun _ => rfl
/-- A fatal stop keeps all but the mode and the claims. -/
theorem calm_fatalStop (hF : F) (h : Calm K F G a s) : Calm K F G a s.fatalStop := ⟨h.core, .inr ⟨hF, rfl⟩, h.cause, fun _ => rfl, h.work, h.bufs, h.gates, h.ranges, h.loop, h.noMgmt, h.transport⟩
/-- The first cause of a stop is recorded. -/
theorem calm_firstCause (c : Nat) (h : Calm K F G a s) : Calm K F G a (if s.svc.cause = 0 then { s with svc := { s.svc with cause := c } } else s) := by
  split
  · next h0 => exact ⟨h.core, h.mode, fun hne => absurd (h.cause hne ▸ h0) hne, h.claims, h.work, h.bufs, h.gates, h.ranges, h.loop, h.noMgmt, h.transport⟩
  · exact h
/-- Packets to the part itself that are not of the management partition. -/
theorem calm_loopback (hF : F) (p : Packet) (h : Calm K F G a s) (hp : p.op ≠ opMgmt) : Calm K F G a { s with loopback := s.loopback ++ [p] } := by
  refine ⟨h.core, h.mode, h.cause, h.claims, h.work, h.bufs, h.gates, h.ranges, fun hn => absurd hF hn, fun ha x hx => ?_, h.transport⟩
  rcases List.mem_append.mp hx with hx | hx
  · exact h.noMgmt ha x hx
  · rw [List.mem_singleton.mp hx]; exact hp
/-- Work in the boot's own fields: a session of queue pair 0 that ends. -/
theorem calm_endSession (f : BitVec 2 → BitVec 2) (g : DMsg → DMsg) (h : Calm K F G a s) (hf : ∀ b k, b.getLsbD k = false → (f b).getLsbD k = false) :
    Calm K F G a { s with boot := { s.boot with session := 0, digests := [], bufs := f s.boot.bufs, work := s.boot.work.map g } } :=
  ⟨h.core, h.mode, h.cause, h.claims, fun hw => by simp [h.work hw], fun k hk => hf _ k (h.bufs k hk), h.gates, h.ranges, h.loop, h.noMgmt, h.transport⟩

/-! ### The transport -/

/-- The transport changes, and nothing else that the relation names. -/
theorem calm_trn (h : Calm K F G a s) (x : Transport) (hx : TransCalm K s.trn x) : Calm K F G a { s with trn := x } :=
  ⟨h.core, h.mode, h.cause, h.claims, h.work, h.bufs, h.gates, h.ranges, h.loop, h.noMgmt, h.transport.trans hx⟩
theorem calm_setQp (n : Nat) (x : Qp) (h : Calm K F G a s) (hx : (s.qp n).Becomes K x) : Calm K F G a (s.setQp n x) := by
  refine calm_trn h _ ⟨fun _ hw => ⟨put_wf hw, fun q => ?_⟩, fun _ hw => ⟨hw, fun _ _ => rfl⟩, fun _ => rfl⟩
  by_cases hq : q = n
  · subst hq
    rw [get_put_same]
    exact hx
  · rw [get_put_ne _ _ _ _ _ hw hq]
    exact becomes_refl _
theorem calm_setRegion (i : Nat) (x : Region) (h : Calm K F G a s) (hx : (s.region i).state ≠ 0) : Calm K F G a (s.setRegion i x) := by
  refine calm_trn h _ ⟨fun _ hw => ⟨hw, fun _ => becomes_refl _⟩, fun _ hw => ⟨put_wf hw, fun k hk => ?_⟩, fun _ => rfl⟩
  exact get_put_ne _ _ _ _ _ hw fun hki => hx (hki ▸ hk)
end

theorem passAcked_unacked (u : Word) : ∀ (ops : List TOp), (∀ o ∈ ops, o.acked = false) → passAcked u ops = u
  | [], _ => rfl
  | o :: r, h => by
    rw [passAcked, if_neg (by simp [h o (by simp)])]
    exact passAcked_unacked u r fun x hx => h x (by simp [hx])
theorem mapOp_becomes {K : Nat} (x : Qp) (id : Nat) (f : TOp → TOp) (hf : ∀ o, (f o).acked = o.acked) : x.Becomes K (x.mapOp id f) := by
  refine ⟨fun hd => ⟨hd.1, hd.2.1, by simp [Qp.mapOp, hd.2.2]⟩, fun _ _ => rfl, fun hu => ⟨fun o ho => ?_, rfl, rfl⟩, fun hr => hr⟩
  obtain ⟨p, hp, rfl⟩ := List.mem_map.mp ho
  split
  · rw [hf]; exact hu p hp
  · exact hu p hp
theorem settleAck_becomes {K : Nat} (x : Qp) : x.Becomes K x.settleAck := by
  refine ⟨fun hd => ?_, fun _ hd => ?_, fun hu => ?_, fun hr => ?_⟩
  · obtain ⟨hstate, hsq, hops⟩ := hd
    simp [Qp.settleAck, Qp.moveUna, Qp.dead, hops, passAcked, hstate, hsq]
  · simp [Qp.settleAck, Qp.moveUna, hd.2.2, passAcked]
  · simp only [Qp.settleAck, Qp.moveUna, passAcked_unacked x.una x.ops hu, if_true]
    exact ⟨fun o ho => hu o (List.mem_filter.mp ho).1, trivial, trivial⟩
  · simp only [Qp.settleAck, Qp.moveUna]
    split <;> exact hr
/-- A queue pair that is not in ERROR changes in other fields than these, or takes a work request. -/
theorem becomes_of_alive {K : Nat} {x y : Qp} (hx : x.state ≠ 4) (hu : x.unacked → y.unacked) (hr : y.retries = x.retries) (ha : y.una = x.una) (hn : y.rnrWait = x.rnrWait) : x.Becomes K y :=
  ⟨fun hd => absurd hd.1 hx, fun _ hd => absurd hd.1 hx, fun h => ⟨hu h, hr, ha⟩, fun h => hn.trans h⟩
/-- A queue pair enters ERROR. -/
theorem error_becomes {K : Nat} (hK : K ≠ 0) {x y : Qp} (hd : y.dead) (hr : y.retries = x.retries) (ha : y.una = x.una) (hn : y.rnrWait = none) : x.Becomes K y :=
  ⟨fun _ => hd, fun h => absurd h hK, fun _ => ⟨fun o ho => absurd (hd.2.2 ▸ ho) (by simp), hr, ha⟩, fun _ => hn⟩


theorem calm_emit {K : Nat} {F : Prop} {G : Nat → Prop} {z : State} (s : State) (o : Out) (h0 : Calm K F G z s) : Calm K F G z (State.emit s o) := by
  unfold State.emit
  repeat' first
    | with_reducible assumption
    | with_reducible refine calm_mk ?_ rfl

theorem calm_setFlag {K : Nat} {F : Prop} {G : Nat → Prop} {z : State} (s : State) (f : Nat) (v : Word) (h0 : Calm K F G z s) : Calm K F G z (State.setFlag s f v) := by
  unfold State.setFlag
  repeat' first
    | with_reducible assumption
    | with_reducible refine calm_mk ?_ rfl

theorem calm_setFlagPoi {K : Nat} {F : Prop} {G : Nat → Prop} {z : State} (s : State) (f : Nat) (b : Bool) (h0 : Calm K F G z s) : Calm K F G z (State.setFlagPoi s f b) := by
  unfold State.setFlagPoi
  repeat' first
    | with_reducible assumption
    | with_reducible refine calm_mk ?_ rfl

theorem calm_bumpFlag {K : Nat} {F : Prop} {G : Nat → Prop} {z : State} (s : State) (f : Nat) (d : Word) (h0 : Calm K F G z s) : Calm K F G z (State.bumpFlag s f d) := by
  unfold State.bumpFlag
  repeat' first
    | with_reducible assumption
    | with_reducible apply calm_setFlag

theorem calm_noteProgress {K : Nat} {F : Prop} {G : Nat → Prop} {z : State} (s : State) (h0 : Calm K F G z s) : Calm K F G z (State.noteProgress s) := by
  unfold State.noteProgress
  repeat' first
    | with_reducible assumption
    | with_reducible refine calm_mk ?_ rfl

theorem calm_bumpFlagP {K : Nat} {F : Prop} {G : Nat → Prop} {z : State} (s : State) (f : Nat) (d : Word) (h0 : Calm K F G z s) : Calm K F G z (State.bumpFlagP s f d) := by
  unfold State.bumpFlagP
  repeat' first
    | with_reducible assumption
    | with_reducible apply calm_bumpFlag
    | with_reducible apply calm_noteProgress
    | split

theorem calm_flagAdd {K : Nat} {F : Prop} {G : Nat → Prop} {z : State} (s : State) (t : Nat) (f : Nat) (d : Word) (h0 : Calm K F G z s) : Calm K F G z (State.flagAdd s t f d) := by
  unfold State.flagAdd
  repeat' first
    | with_reducible assumption
    | with_reducible apply calm_bumpFlagP
    | split
    | with_reducible refine calm_mk ?_ rfl

theorem calm_log {K : Nat} {F : Prop} {G : Nat → Prop} {z : State} (s : State) (code : Nat) (cls : EClass) (src : Src) (tenant : Option Nat) (args : List Nat) (h0 : Calm K F G z s) : Calm K F G z (State.log s code cls src tenant args) := by
  unfold State.log
  repeat' first
    | with_reducible assumption
    | with_reducible apply calm_emit
    | split
    | with_reducible refine calm_mk ?_ rfl

theorem calm_decideAbort {K : Nat} {F : Prop} {G : Nat → Prop} {z : State} (s : State) (t : Nat) (reason : Nat) (h0 : Calm K F G z s) : Calm K F G z (State.decideAbort s t reason) := by
  unfold State.decideAbort
  repeat' first
    | with_reducible assumption
    | with_reducible refine calm_mk ?_ rfl

theorem calm_consumePoison {K : Nat} {F : Prop} {G : Nat → Prop} {z : State} (s : State) (t : Nat) (point : Nat) (h0 : Calm K F G z s) : Calm K F G z (State.consumePoison s t point) := by
  unfold State.consumePoison
  repeat' first
    | with_reducible assumption
    | with_reducible apply calm_log
    | with_reducible apply calm_decideAbort
    | split

theorem calm_partFatal {K : Nat} {F : Prop} {G : Nat → Prop} {z : State} (hF : F) (s : State) (cause : Nat) (h0 : Calm K F G z s) : Calm K F G z (State.partFatal s cause) := by
  unfold State.partFatal
  have hlog : Calm K F G z (if 1 ≤ cause ∧ cause ≤ 3 then s.log 0x0002 .fatal .service none [cause] else s) := by
    split
    · exact calm_log _ _ _ _ _ _ h0
    · exact h0
  have hcause := calm_firstCause cause hlog
  extract_lets s1 s2
  split
  · exact hcause
  · exact calm_fatalStop hF hcause

theorem calm_ptabEnter {K : Nat} {F : Prop} {G : Nat → Prop} {z : State} (hF : F) (s : State) (a : Nat) (h0 : Calm K F G z s) : Calm K F G z (State.ptabEnter s a) := by
  unfold State.ptabEnter
  repeat' first
    | with_reducible assumption
    | (extract_lets +onlyGivenNames x; subst x)
    | with_reducible refine calm_setRange _ _ ?_ rfl
    | with_reducible apply calm_log
    | with_reducible apply calm_partFatal
    | split

theorem calm_ptabClean {K : Nat} {F : Prop} {G : Nat → Prop} {z : State} (s : State) (a : Nat) (h0 : Calm K F G z s) : Calm K F G z (State.ptabClean s a) := by
  unfold State.ptabClean
  repeat' first
    | with_reducible assumption
    | (extract_lets +onlyGivenNames x; subst x)
    | with_reducible refine calm_setRange _ _ ?_ rfl
    | split

theorem calm_placeBurst {K : Nat} {F : Prop} {G : Nat → Prop} {z : State} (hF : F) (s : State) (a : Nat) (b : Bytes) (poi : Bool) (h0 : Calm K F G z s) : Calm K F G z (State.placeBurst s a b poi) := by
  unfold State.placeBurst
  repeat' first
    | with_reducible assumption
    | with_reducible apply calm_ptabEnter
    | with_reducible apply calm_ptabClean
    | split
    | with_reducible refine calm_mk ?_ rfl

theorem calm_placeLine {K : Nat} {F : Prop} {G : Nat → Prop} {z : State} (hF : F) (s : State) (a : Nat) (b : Bytes) (poi : Bool) (h0 : Calm K F G z s) : Calm K F G z (State.placeLine s a b poi) := by
  unfold State.placeLine
  repeat' first
    | with_reducible assumption
    | with_reducible apply calm_placeBurst
    | split
    | with_reducible refine calm_mk ?_ rfl

theorem calm_placeLines {K : Nat} {F : Prop} {G : Nat → Prop} {z : State} (hF : F) (s : State) (a : Nat) (x0 : Nat) (x1 : List (Bytes × Bool)) (h0 : Calm K F G z s) : Calm K F G z (State.placeLines s a x0 x1) := by
  induction x1 generalizing s a x0 with
  | nil =>
   unfold State.placeLines
   repeat' first
    | with_reducible assumption
  | cons x r ih =>
   unfold State.placeLines
   repeat' first
    | with_reducible assumption
    | with_reducible apply calm_placeLine
    | with_reducible apply ih

theorem calm_setChan {K : Nat} {F : Prop} {G : Nat → Prop} {z : State} (s : State) (c : Nat) (x : Channel) (h0 : Calm K F G z s) : Calm K F G z (State.setChan s c x) := by
  unfold State.setChan
  repeat' first
    | with_reducible assumption
    | with_reducible refine calm_mk ?_ rfl

theorem calm_setChim {K : Nat} {F : Prop} {G : Nat → Prop} {z : State} (s : State) (k : Nat) (x : Chimney) (h0 : Calm K F G z s) : Calm K F G z (State.setChim s k x) := by
  unfold State.setChim
  repeat' first
    | with_reducible assumption
    | with_reducible refine calm_mk ?_ rfl

theorem calm_moverEnd {K : Nat} {F : Prop} {G : Nat → Prop} {z : State} (s : State) (q : Nat) (m : Nat) (op : Nat) (err : Option Nat) (h0 : Calm K F G z s) : Calm K F G z (State.moverEnd s q m op err) := by
  unfold State.moverEnd
  repeat' first
    | with_reducible assumption
    | with_reducible refine calm_setRange _ _ ?_ rfl

theorem calm_unitFail {K : Nat} {F : Prop} {G : Nat → Prop} {z : State} (s : State) (unit : Nat) (tag : Nat) (status : Nat) (h0 : Calm K F G z s) : Calm K F G z (State.unitFail s unit tag status) := by
  unfold State.unitFail
  repeat' first
    | with_reducible assumption
    | with_reducible apply calm_bumpGate
    | with_reducible apply calm_setChim
    | with_reducible apply calm_moverEnd
    | split
    | with_reducible refine calm_mk ?_ rfl

theorem calm_mantelSend {K : Nat} {F : Prop} {G : Nat → Prop} {z : State} (s : State) (ls : List Load) (h0 : Calm K F G z s) : Calm K F G z (State.mantelSend s ls) := by
  unfold State.mantelSend
  repeat' first
    | with_reducible assumption
    | with_reducible refine calm_mk ?_ rfl

theorem calm_settleBridge {K : Nat} {F : Prop} {G : Nat → Prop} {z : State} (s : State) (q : Nat) (h0 : Calm K F G z s) : Calm K F G z (State.settleBridge s q) := by
  unfold State.settleBridge
  repeat' first
    | with_reducible assumption
    | with_reducible refine calm_setRange _ _ ?_ rfl

theorem calm_moverLoad {K : Nat} {F : Prop} {G : Nat → Prop} {z : State} (s : State) (q : Nat) (m : Nat) (l : Load) (h0 : Calm K F G z s) : Calm K F G z (State.moverLoad s q m l) := by
  unfold State.moverLoad
  repeat' first
    | with_reducible assumption
    | with_reducible refine calm_setRange _ _ ?_ rfl
    | with_reducible apply calm_settleBridge

theorem calm_carry {K : Nat} {F : Prop} {G : Nat → Prop} {z : State} (s : State) (u : Nat) (l : Nat) (vc : Nat) (p : Packet) (h0 : Calm K F G z s) : Calm K F G z (State.carry s u l vc p) := by
  unfold State.carry
  repeat' first
    | with_reducible assumption
    | with_reducible refine calm_setRange _ _ ?_ rfl
    | with_reducible apply calm_enqueue
    | with_reducible apply calm_moverLoad
    | split
    | with_reducible refine calm_mk ?_ rfl

theorem calm_noExitOwn {K : Nat} {F : Prop} {G : Nat → Prop} {z : State} (s : State) (p : Packet) (h0 : Calm K F G z s) : Calm K F G z (State.noExitOwn s p) := by
  unfold State.noExitOwn
  repeat' first
    | with_reducible assumption
    | with_reducible apply calm_unitFail
    | split
    | with_reducible refine calm_mk ?_ rfl

theorem calm_sendFrom {K : Nat} {F : Prop} {G : Nat → Prop} {z : State} (hF : F) (s : State) (u : Nat) (p : Packet) (h0 : Calm K F G z s) (hp : p.op ≠ opMgmt) : Calm K F G z (State.sendFrom s u p) := by
  unfold State.sendFrom
  dsimp only
  split
  · exact calm_loopback hF _ h0 hp
  · split
    · exact calm_carry _ _ _ _ _ h0
    · exact calm_noExitOwn _ _ h0

theorem calm_sendOwn {K : Nat} {F : Prop} {G : Nat → Prop} {z : State} (hF : F) (s : State) (p : Packet) (h0 : Calm K F G z s) (hp : p.op ≠ opMgmt) : Calm K F G z (State.sendOwn s p) :=
  calm_sendFrom hF _ _ _ h0 hp

theorem calm_respond {K : Nat} {F : Prop} {G : Nat → Prop} {z : State} (s : State) (u : Nat) (p : Packet) (status : Nat) (flits : List (Bytes × Bool)) (h0 : Calm K F G z s) : Calm K F G z (State.respond s u p status flits) := by
  unfold State.respond
  repeat' first
    | with_reducible assumption
    | with_reducible apply calm_unitFail
    | with_reducible apply calm_carry
    | split
    | with_reducible refine calm_mk ?_ rfl

theorem calm_refuse {K : Nat} {F : Prop} {G : Nat → Prop} {z : State} (s : State) (u : Nat) (p : Packet) (status : Nat) (h0 : Calm K F G z s) : Calm K F G z (State.refuse s u p status) := by
  unfold State.refuse
  repeat' first
    | with_reducible assumption
    | with_reducible apply calm_respond

theorem calm_accept {K : Nat} {F : Prop} {G : Nat → Prop} {z : State} (s : State) (u : Nat) (p : Packet) (h0 : Calm K F G z s) : Calm K F G z (State.accept s u p) := by
  unfold State.accept
  repeat' first
    | with_reducible assumption
    | with_reducible apply calm_respond
    | split

theorem calm_noExitTransit {K : Nat} {F : Prop} {G : Nat → Prop} {z : State} (s : State) (u : Nat) (p : Packet) (h0 : Calm K F G z s) : Calm K F G z (State.noExitTransit s u p) := by
  unfold State.noExitTransit
  repeat' first
    | with_reducible assumption
    | with_reducible apply calm_respond
    | split
    | with_reducible refine calm_mk ?_ rfl

theorem calm_replace {K : Nat} {F : Prop} {G : Nat → Prop} {z : State} (s : State) (l : Nat) (vc : Nat) (down : Bool) (w : Waiting) (h0 : Calm K F G z s) : Calm K F G z (State.replace s l vc down w) := by
  have hback : ∀ w', Calm K F G z (s.setGate l ((s.gate l).push vc w')) := fun w' => calm_setGate l _ h0 fun _ => rfl
  unfold State.replace
  dsimp only
  split
  · split
    · exact calm_bumpGate _ _ _ h0
    · split
      · exact hback _
      · split
        · exact calm_noExitOwn _ _ h0
        · exact calm_noExitTransit _ _ _ h0
  · exact hback _

theorem calm_moveOut {K : Nat} {F : Prop} {G : Nat → Prop} {z : State} (s : State) (l : Nat) (vc : Nat) (n : Nat) (h0 : Calm K F G z s) : Calm K F G z (State.moveOut s l vc n) := by
  induction n generalizing s with
  | zero => exact h0
  | succ n ih =>
    unfold State.moveOut
    split
    · split
      · split
        · exact ih _ (calm_enqueue _ _ _ _ (calm_setGate l _ h0 fun _ => rfl))
        · exact h0
      · exact h0
    · exact h0

theorem calm_rechooseVc {K : Nat} {F : Prop} {G : Nat → Prop} {z : State} (s : State) (l : Nat) (vc : Nat) (h0 : Calm K F G z s) : Calm K F G z (State.rechooseVc s l vc) :=
  calm_moveOut _ _ _ _ (calm_foldl (calm_setGate l _ h0 fun _ => rfl) fun t w ht => calm_replace t l vc _ w ht)

theorem calm_rechoose {K : Nat} {F : Prop} {G : Nat → Prop} {z : State} (s : State) (l : Nat) (h0 : Calm K F G z s) : Calm K F G z (State.rechoose s l) := by
  unfold State.rechoose
  repeat' first
    | with_reducible assumption
    | with_reducible intro _
    | with_reducible apply calm_rechooseVc
    | with_reducible apply calm_foldl

theorem calm_rechooseAll {K : Nat} {F : Prop} {G : Nat → Prop} {z : State} (s : State) (h0 : Calm K F G z s) : Calm K F G z (State.rechooseAll s) := by
  unfold State.rechooseAll
  repeat' first
    | with_reducible assumption
    | with_reducible apply calm_rechoose
    | with_reducible apply calm_foldl

theorem calm_poisonChan {K : Nat} {F : Prop} {G : Nat → Prop} {z : State} (s : State) (c : Nat) (h0 : Calm K F G z s) : Calm K F G z (State.poisonChan s c) := by
  unfold State.poisonChan
  repeat' first
    | with_reducible assumption
    | with_reducible apply calm_consumePoison
    | with_reducible apply calm_setChan

theorem calm_ringLines {K : Nat} {F : Prop} {G : Nat → Prop} {z : State} (s : State) (c : Nat) (num : Nat) (t : Nat) (a : Nat) (o : Nat) (ls : List (Bytes × Bool)) (h0 : Calm K F G z s) : Calm K F G z (State.ringLines s c num t a o ls) := by
  unfold State.ringLines
  repeat' first
    | with_reducible assumption
    | with_reducible apply calm_mantelSend

theorem calm_msgArrive {K : Nat} {F : Prop} {G : Nat → Prop} {z : State} (s : State) (c : Nat) (chip : Nat) (unit : Nat) (tag : Nat) (t : Option Nat) (mlines : Nat) (o : Nat) (ls : List (Bytes × Bool)) (h0 : Calm K F G z s) : CalmP K F G z (State.msgArrive s c chip unit tag t mlines o ls) := by
  unfold State.msgArrive
  repeat' first
    | with_reducible assumption
    | with_reducible apply calm_setChan
    | with_reducible apply calm_poisonChan
    | with_reducible apply calm_ringLines
    | split
    | with_reducible apply calmP_mk

theorem calm_flagAddMarked {K : Nat} {F : Prop} {G : Nat → Prop} {z : State} (s : State) (t : Nat) (f : Nat) (d : Word) (poi : Bool) (h0 : Calm K F G z s) : Calm K F G z (State.flagAddMarked s t f d poi) := by
  unfold State.flagAddMarked
  repeat' first
    | with_reducible assumption
    | with_reducible apply calm_setFlagPoi
    | with_reducible apply calm_flagAdd
    | with_reducible apply calm_consumePoison
    | split

theorem calm_flagRemote {K : Nat} {F : Prop} {G : Nat → Prop} {z : State} (s : State) (t : Nat) (f : Nat) (d : Word) (h0 : Calm K F G z s) : CalmP K F G z (State.flagRemote s t f d) := by
  unfold State.flagRemote
  repeat' first
    | with_reducible assumption
    | with_reducible apply calm_bumpFlagP
    | split
    | with_reducible apply calmP_mk

theorem calm_ownMsg {K : Nat} {F : Prop} {G : Nat → Prop} {z : State} (s : State) (c : Nat) (unit : Nat) (b : Bytes) (h0 : Calm K F G z s) : CalmP K F G z (State.ownMsg s c unit b) := by
  unfold State.ownMsg
  repeat' first
    | with_reducible assumption
    | with_reducible apply calm_msgArrive

theorem calm_flush {K : Nat} {F : Prop} {G : Nat → Prop} {z : State} (s : State) (h0 : Calm K F G z s) : Calm K F G z (State.flush s) := by
  unfold State.flush
  repeat' first
    | with_reducible assumption
    | with_reducible intro _
    | with_reducible apply calm_ownMsg
    | with_reducible apply calm_foldl
    | split
    | (with_reducible refine calm_of_pair ‹_ = (_, _)› ?_)
    | with_reducible refine calm_mk ?_ rfl

theorem calm_setStn {K : Nat} {F : Prop} {G : Nat → Prop} {z : State} (s : State) (q : Nat) (x : Station) (h0 : Calm K F G z s) : Calm K F G z (State.setStn s q x) := by
  unfold State.setStn
  repeat' first
    | with_reducible assumption
    | with_reducible refine calm_setRange _ _ ?_ rfl

theorem calm_stageWrite {K : Nat} {F : Prop} {G : Nat → Prop} {z : State} (hF : F) (s : State) (a : Nat) (ls : List (Bytes × Bool)) (h0 : Calm K F G z s) : Calm K F G z (State.stageWrite s a ls) := by
  unfold State.stageWrite
  repeat' first
    | with_reducible assumption
    | with_reducible apply calm_placeLines
    | with_reducible apply calm_setStn
    | split
    | with_reducible refine calm_mk ?_ rfl

theorem calm_takeLine {K : Nat} {F : Prop} {G : Nat → Prop} {z : State} (hF : F) (s : State) (c : Nat) (chip : Nat) (i : Nat) (o : Nat) (b : Bytes) (poi : Bool) (h0 : Calm K F G z s) : Calm K F G z (State.takeLine s c chip i o b poi) := by
  unfold State.takeLine
  repeat' first
    | with_reducible assumption
    | (extract_lets +onlyGivenNames x; subst x)
    | with_reducible apply calm_placeLine
    | with_reducible apply calm_setChan
    | with_reducible apply calm_setChim
    | with_reducible apply calm_mantelSend
    | with_reducible apply calm_poisonChan
    | with_reducible apply calm_accepted
    | split

theorem calm_countRefusal {K : Nat} {F : Prop} {G : Nat → Prop} {z : State} (s : State) (c : Nat) (code : Nat) (h0 : Calm K F G z s) : Calm K F G z (State.countRefusal s c code) := by
  unfold State.countRefusal
  repeat' first
    | with_reducible assumption
    | (extract_lets +onlyGivenNames x; subst x)
    | with_reducible apply calm_setChan
    | with_reducible apply calm_setChim
    | split

theorem calm_takeLines {K : Nat} {F : Prop} {G : Nat → Prop} {z : State} (hF : F) (s0 : State) (c : Nat) (t : Option Nat) (chip : Nat) (i : Nat) (sizeOk : Bool) (x0 : Nat) (x1 : List (Bytes × Bool)) (x2 : State × Nat) (h0 : Calm K F G z s0) (h1 : CalmP K F G z x2) : CalmP K F G z (State.takeLines s0 c t chip i sizeOk x0 x1 x2) := by
  induction x1 generalizing s0 c t chip i sizeOk x0 x2 with
  | nil =>
   unfold State.takeLines
   repeat' first
    | with_reducible assumption
  | cons x r ih =>
   unfold State.takeLines
   repeat' first
    | with_reducible assumption
    | with_reducible apply calm_takeLine
    | with_reducible apply calm_fst
    | with_reducible apply ih
    | split
    | with_reducible apply calmP_mk

theorem calm_contribArrive {K : Nat} {F : Prop} {G : Nat → Prop} {z : State} (hF : F) (s : State) (c : Nat) (t : Option Nat) (chip : Nat) (i : Nat) (o : Nat) (ls : List (Bytes × Bool)) (sizeOk : Bool) (h0 : Calm K F G z s) : CalmP K F G z (State.contribArrive s c t chip i o ls sizeOk) := by
  unfold State.contribArrive
  repeat' first
    | with_reducible assumption
    | with_reducible apply calm_countRefusal
    | with_reducible apply calm_takeLines
    | split
    | with_reducible apply calmP_mk
    | (with_reducible refine calm_of_pair ‹_ = (_, _)› ?_)

theorem calm_setEntry {K : Nat} {F : Prop} {G : Nat → Prop} {z : State} (s : State) (e : Nat) (x : Entry) (h0 : Calm K F G z s) : Calm K F G z (State.setEntry s e x) := by
  unfold State.setEntry
  repeat' first
    | with_reducible assumption
    | with_reducible refine calm_mk ?_ rfl

theorem calm_stampEntry {K : Nat} {F : Prop} {G : Nat → Prop} {z : State} (s : State) (e : Nat) (h0 : Calm K F G z s) : Calm K F G z (State.stampEntry s e) := by
  unfold State.stampEntry
  repeat' first
    | with_reducible assumption
    | with_reducible apply calm_setEntry
    | with_reducible refine calm_mk ?_ rfl

theorem calm_beginArming {K : Nat} {F : Prop} {G : Nat → Prop} {z : State} (s : State) (e : Nat) (h0 : Calm K F G z s) : Calm K F G z (State.beginArming s e) := by
  unfold State.beginArming
  repeat' first
    | with_reducible assumption
    | with_reducible apply calm_setEntry
    | with_reducible apply calm_stampEntry

theorem calm_reqRefused {K : Nat} {F : Prop} {G : Nat → Prop} {z : State} (s : State) (h0 : Calm K F G z s) : Calm K F G z (State.reqRefused s) := by
  unfold State.reqRefused
  repeat' first
    | with_reducible assumption
    | with_reducible refine calm_mk ?_ rfl

theorem calm_armEntry {K : Nat} {F : Prop} {G : Nat → Prop} {z : State} (s : State) (e : Nat) (p : Nat) (t : Nat) (h0 : Calm K F G z s) : CalmP K F G z (State.armEntry s e p t) := by
  unfold State.armEntry
  repeat' first
    | with_reducible assumption
    | with_reducible apply calm_setEntry
    | with_reducible apply calm_beginArming
    | with_reducible apply calm_reqRefused
    | split
    | with_reducible apply calmP_mk
    | with_reducible refine calm_mk ?_ rfl

theorem calm_sendStall {K : Nat} {F : Prop} {G : Nat → Prop} {z : State} (hF : F) (s : State) (dst : Nat) (ty : Nat) (st : Nat) (epoch : Word) (rid : Word) (h0 : Calm K F G z s) : Calm K F G z (State.sendStall s dst ty st epoch rid) :=
  calm_sendOwn hF _ _ h0 (by decide : opStallp ≠ opMgmt)

theorem calm_checkLeader {K : Nat} {F : Prop} {G : Nat → Prop} {z : State} (s : State) (h0 : Calm K F G z s) : Calm K F G z (State.checkLeader s) := by
  unfold State.checkLeader
  repeat' first
    | with_reducible assumption
    | with_reducible apply calm_log
    | split
    | with_reducible refine calm_mk ?_ rfl

theorem calm_applyPolicy {K : Nat} {F : Prop} {G : Nat → Prop} {z : State} (s : State) (epoch : Word) (h0 : Calm K F G z s) : Calm K F G z (State.applyPolicy s epoch) := by
  unfold State.applyPolicy
  repeat' first
    | with_reducible assumption
    | with_reducible intro _
    | with_reducible apply calm_log
    | with_reducible apply calm_decideAbort
    | with_reducible apply calm_foldl
    | split

theorem calm_closeEpoch {K : Nat} {F : Prop} {G : Nat → Prop} {z : State} (hF : F) (s : State) (h0 : Calm K F G z s) : Calm K F G z (State.closeEpoch s) := by
  unfold State.closeEpoch
  repeat' first
    | with_reducible assumption
    | with_reducible intro _
    | with_reducible apply calm_log
    | with_reducible apply calm_sendStall
    | with_reducible apply calm_applyPolicy
    | with_reducible apply calm_foldl
    | split
    | with_reducible refine calm_mk ?_ rfl

theorem calm_setSink {K : Nat} {F : Prop} {G : Nat → Prop} {z : State} (s : State) (k : Nat) (x : Sink) (h0 : Calm K F G z s) : Calm K F G z (State.setSink s k x) := by
  unfold State.setSink
  repeat' first
    | with_reducible assumption
    | with_reducible refine calm_mk ?_ rfl

theorem calm_sinkGoal {K : Nat} {F : Prop} {G : Nat → Prop} {z : State} (s : State) (k : Nat) (goal : Nat) (h0 : Calm K F G z s) : Calm K F G z (State.sinkGoal s k goal) := by
  unfold State.sinkGoal
  repeat' first
    | with_reducible assumption
    | with_reducible apply calm_setSink

theorem calm_sinksTo {K : Nat} {F : Prop} {G : Nat → Prop} {z : State} (s : State) (q : Nat) (g : Nat) (h0 : Calm K F G z s) : Calm K F G z (State.sinksTo s q g) := by
  unfold State.sinksTo
  repeat' first
    | with_reducible assumption
    | with_reducible intro _
    | with_reducible apply calm_sinkGoal
    | with_reducible apply calm_foldl

theorem calm_sinksRest {K : Nat} {F : Prop} {G : Nat → Prop} {z : State} (s : State) (q : Nat) (h0 : Calm K F G z s) : Calm K F G z (State.sinksRest s q) := by
  unfold State.sinksRest
  repeat' first
    | with_reducible assumption
    | with_reducible intro _
    | with_reducible apply calm_sinkGoal
    | with_reducible apply calm_sinksTo
    | with_reducible apply calm_foldl
    | split

theorem calm_refuseCsr {K : Nat} {F : Prop} {G : Nat → Prop} {z : State} (s : State) (status : Nat) (chip : Nat) (tenant : Nat) (a : Nat) (write : Bool) (h0 : Calm K F G z s) : Calm K F G z (State.refuseCsr s status chip tenant a write) := by
  unfold State.refuseCsr
  repeat' first
    | with_reducible assumption
    | with_reducible refine calm_mk ?_ rfl

theorem calm_setIface {K : Nat} {F : Prop} {G : Nat → Prop} {z : State} (s : State) (i : Nat) (x : Iface) (h0 : Calm K F G z s) : Calm K F G z (State.setIface s i x) := by
  unfold State.setIface
  repeat' first
    | with_reducible assumption
    | with_reducible refine calm_mk ?_ rfl

theorem calm_ethSend {K : Nat} {F : Prop} {G : Nat → Prop} {z : State} (s : State) (i : Nat) (b : Bytes) (h0 : Calm K F G z s) : Calm K F G z (State.ethSend s i b) := by
  unfold State.ethSend
  repeat' first
    | with_reducible assumption
    | (extract_lets +onlyGivenNames x; subst x)
    | with_reducible apply calm_emit
    | with_reducible apply calm_setIface
    | split

theorem calm_setCnt {K : Nat} {F : Prop} {G : Nat → Prop} {z : State} (s : State) (c : Nat) (v : Word) (h0 : Calm K F G z s) : Calm K F G z (State.setCnt s c v) := by
  unfold State.setCnt
  repeat' first
    | with_reducible assumption
    | with_reducible apply calm_noteProgress
    | split
    | with_reducible refine calm_mk ?_ rfl

theorem calm_cntAdd {K : Nat} {F : Prop} {G : Nat → Prop} {z : State} (s : State) (c : Nat) (d : Word) (h0 : Calm K F G z s) : Calm K F G z (State.cntAdd s c d) := by
  unfold State.cntAdd
  repeat' first
    | with_reducible assumption
    | with_reducible apply calm_setCnt

theorem calm_cqWrite {K : Nat} {F : Prop} {G : Nat → Prop} {z : State} (s : State) (c : Nat) (tenant : Nat) (b : Bytes) (h0 : Calm K F G z s) : Calm K F G z (State.cqWrite s c tenant b) := by
  unfold State.cqWrite
  repeat' first
    | with_reducible assumption
    | with_reducible apply calm_msgArrive
    | split
    | (with_reducible refine calm_of_pair ‹_ = (_, _)› ?_)
    | with_reducible refine calm_mk ?_ rfl

theorem calm_wrComplete {K : Nat} {F : Prop} {G : Nat → Prop} {z : State} (s : State) (qpn : Nat) (r : Bytes) (status : Nat) (len : Nat) (psn : Nat) (h0 : Calm K F G z s) : Calm K F G z (State.wrComplete s qpn r status len psn) := by
  unfold State.wrComplete
  repeat' first
    | with_reducible assumption
    | with_reducible apply calm_noteProgress
    | with_reducible apply calm_cntAdd
    | with_reducible apply calm_cqWrite
    | split

theorem calm_rvComplete {K : Nat} {F : Prop} {G : Nat → Prop} {z : State} (s : State) (v : Recv) (status : Nat) (h0 : Calm K F G z s) : Calm K F G z (State.rvComplete s v status) := by
  unfold State.rvComplete
  repeat' first
    | with_reducible assumption
    | with_reducible apply calm_noteProgress
    | with_reducible apply calm_cntAdd
    | with_reducible apply calm_cqWrite
    | split

theorem calm_newOp {K : Nat} {F : Prop} {G : Nat → Prop} {z : State} (s : State) (h0 : Calm K F G z s) : CalmP K F G z (State.newOp s) := by
  unfold State.newOp
  repeat' first
    | with_reducible assumption
    | with_reducible apply calmP_mk
    | with_reducible refine calm_mk ?_ rfl

theorem calm_qpSend {K : Nat} {F : Prop} {G : Nat → Prop} {z : State} (s : State) (qpn : Nat) (opc : Nat) (psn : Word) (ackreq : Bool) (first : Bool) (last : Bool) (ext : Bytes) (payload : Bytes) (h0 : Calm K F G z s) : Calm K F G z (State.qpSend s qpn opc psn ackreq first last ext payload) := by
  unfold State.qpSend
  repeat' first
    | with_reducible assumption
    | with_reducible apply calm_ethSend

theorem calm_sendPacketOf {K : Nat} {F : Prop} {G : Nat → Prop} {z : State} (s : State) (qpn : Nat) (o : TOp) (j : Nat) (h0 : Calm K F G z s) : CalmP K F G z (State.sendPacketOf s qpn o j) := by
  unfold State.sendPacketOf
  repeat' first
    | with_reducible assumption
    | with_reducible apply calm_qpSend
    | split
    | with_reducible apply calmP_mk

theorem calm_endOp {K : Nat} {F : Prop} {G : Nat → Prop} {z : State} (s : State) (qpn : Nat) (id : Nat) (status : Nat) (h0 : Calm K F G z s) : Calm K F G z (State.endOp s qpn id status) := by
  unfold State.endOp
  extract_lets x
  split
  · exact h0
  · exact calm_wrComplete _ _ _ _ _ _ (calm_setQp _ _ h0 (mapOp_becomes _ _ _ fun _ => rfl))

theorem calm_opCut {K : Nat} {F : Prop} {G : Nat → Prop} {z : State} (s : State) (qpn : Nat) (id : Nat) (code : Nat) (h0 : Calm K F G z s) : Calm K F G z (State.opCut s qpn id code) :=
  calm_setQp _ _ (calm_endOp _ _ _ _ h0) ((mapOp_becomes _ _ TOp.cut fun _ => rfl).trans (settleAck_becomes _))

theorem calm_qpError {K : Nat} {F : Prop} {G : Nat → Prop} {z : State} (hK : K ≠ 0) (s : State) (qpn : Nat) (code : Nat) (h0 : Calm K F G z s) : Calm K F G z (State.qpError s qpn code) := by
  unfold State.qpError
  extract_lets x s1 s2 mine cut s3 gone src s4 y s5 free
  have h1 : Calm K F G z s1 := calm_foldl h0 fun t o ht => calm_endOp t qpn o.id 0x1A ht
  have h2 : Calm K F G z s2 := calm_foldl h1 fun t r ht => calm_wrComplete t qpn r 0x1A 0 0 ht
  have h3 : Calm K F G z s3 := calm_foldl h2 fun t v ht => calm_rvComplete t v 0x1A ht
  have h4 : Calm K F G z s4 := calm_trn h3 _ ⟨fun _ hw => ⟨hw, fun _ => becomes_refl _⟩, fun _ hw => ⟨hw, fun _ _ => rfl⟩, fun h => absurd h hK⟩
  have h5 : Calm K F G z s5 := calm_setQp _ _ h4 (error_becomes hK ⟨rfl, rfl, rfl⟩ rfl rfl rfl)
  split
  · refine calm_log _ _ _ _ _ _ (calm_endSession free _ h5 fun b k hk => ?_)
    unfold free
    split
    · simp [hk]
    · exact hk
  · exact h5

theorem calm_qpPoison {K : Nat} {F : Prop} {G : Nat → Prop} {z : State} (hK : K ≠ 0) (s : State) (qpn : Nat) (id : Nat) (h0 : Calm K F G z s) : Calm K F G z (State.qpPoison s qpn id) :=
  calm_consumePoison _ _ _ (calm_qpError hK _ _ _ (calm_endOp _ _ _ _ h0))

theorem calm_pump1 {K : Nat} {F : Prop} {G : Nat → Prop} {z : State} (hK : K ≠ 0) (s : State) (qpn : Nat) (h0 : Calm K F G z s) : CalmO K F G z (State.pump1 s qpn) := by
  have hsend : ∀ o j, CalmP K F G z (s.sendPacketOf qpn o j) := fun o j => calm_sendPacketOf s qpn o j h0
  unfold State.pump1
  extract_lets x
  split
  · trivial
  · split
    · trivial
    · extract_lets n j o1 up
      split
      · trivial
      · split
        · next he => exact calm_qpPoison hK _ _ _ (calm_of_pair he (hsend _ _))
        · next he => exact calm_opCut _ _ _ _ (calm_of_pair he (hsend _ _))
        · next t he =>
          extract_lets
          have hpair (k : Nat) (f : TOp → TOp) (v : Word) (hf : ∀ o, (f o).acked = o.acked) : Calm K F G z (t.setQp qpn { (t.qp qpn).mapOp k f with npsn := v }) :=
            calm_setQp qpn _ (calm_of_pair he (hsend _ _)) ((mapOp_becomes _ _ f hf).trans ⟨id, fun _ _ => rfl, fun h => ⟨h, rfl, rfl⟩, id⟩)
          split
          · exact calm_setQp _ _ (calm_endOp _ _ _ _ (hpair _ _ _ fun _ => rfl)) (settleAck_becomes _)
          · exact hpair _ _ _ fun _ => rfl

theorem calm_pump {K : Nat} {F : Prop} {G : Nat → Prop} {z : State} (hK : K ≠ 0) (s : State) (qpn : Nat) (x0 : Nat) (h0 : Calm K F G z s) : Calm K F G z (State.pump s qpn x0) := by
  induction x0 generalizing s qpn with
  | zero =>
   unfold State.pump
   repeat' first
    | with_reducible assumption
  | succ n ih =>
   unfold State.pump
   repeat' first
    | with_reducible assumption
    | with_reducible apply calm_pump1 hK
    | with_reducible apply ih
    | split
    | (with_reducible refine calm_of_some ‹_ = some _› ?_)

/-- An operation begins at a queue pair that is not in ERROR. -/
theorem calm_addOp {K : Nat} {F : Prop} {G : Nat → Prop} {z s : State} (n : Nat) (o : TOp) (h0 : Calm K F G z s) (hq : (s.qp n).state ≠ 4) (ho : o.acked = false) :
    Calm K F G z (s.newOp.1.setQp n { s.newOp.1.qp n with ops := (s.newOp.1.qp n).ops ++ [o] }) := by
  refine calm_setQp _ _ (calm_newOp _ h0) (becomes_of_alive hq (fun hu p hp => ?_) rfl rfl rfl)
  rcases List.mem_append.mp hp with hp | hp
  · exact hu p hp
  · rw [List.mem_singleton.mp hp, ho]
theorem calm_startPrefetch {K : Nat} {F : Prop} {G : Nat → Prop} {z : State} (hF : F) (s : State) (qpn : Nat) (r : Bytes) (h0 : Calm K F G z s) (hq : (s.qp qpn).state ≠ 4) :
    Calm K F G z (State.startPrefetch s qpn r) := by
  have hop (o : TOp) (ho : o.acked = false) : Calm K F G z (s.newOp.1.setQp qpn { s.newOp.1.qp qpn with ops := (s.newOp.1.qp qpn).ops ++ [o] }) := calm_addOp qpn o h0 hq ho
  unfold State.startPrefetch
  extract_lets x code a staging chip
  split
  · exact calm_wrComplete _ _ _ _ _ _ h0
  · split
    · exact calm_wrComplete _ _ _ _ _ _ h0
    · split
      · exact calm_wrComplete _ _ _ _ _ _ h0
      · exact calm_sendOwn hF _ _ (hop _ rfl) (by decide : opDfetch ≠ opMgmt)

theorem calm_startRevoke {K : Nat} {F : Prop} {G : Nat → Prop} {z : State} (s : State) (qpn : Nat) (r : Bytes) (h0 : Calm K F G z s) (hq : (s.qp qpn).state ≠ 4) :
    Calm K F G z (State.startRevoke s qpn r) := by
  unfold State.startRevoke
  extract_lets x i g
  split
  · exact calm_wrComplete _ _ _ _ _ _ h0
  · split
    · exact calm_wrComplete _ _ _ _ _ _ h0
    · next hg => exact calm_addOp (s := s.setRegion i { g with state := 2 }) qpn _ (calm_setRegion i _ h0 hg) hq rfl

theorem calm_runLocal {K : Nat} {F : Prop} {G : Nat → Prop} {z : State} (s : State) (qpn : Nat) (r : Bytes) (h0 : Calm K F G z s) : Calm K F G z (State.runLocal s qpn r) := by
  unfold State.runLocal
  repeat' first
    | with_reducible assumption
    | with_reducible apply calm_flagAddMarked
    | with_reducible apply calm_armEntry
    | with_reducible apply calm_setCnt
    | with_reducible apply calm_cntAdd
    | with_reducible apply calm_wrComplete
    | split
    | (with_reducible refine calm_of_pair ‹_ = (_, _)› ?_)

/-- A line that is placed leaves the transport as it is. -/
theorem trn_placeLine (s : State) (a : Nat) (b : Bytes) (poi : Bool) : (s.placeLine a b poi).trn = s.trn := by
  have hfatal (t : State) : (t.partFatal 1).trn = t.trn := by
    unfold State.partFatal
    extract_lets t1 s0 t2
    have h1 : t1.trn = t.trn := log_trn ..
    have h2 : t2.trn = t.trn := by unfold t2; split <;> exact h1
    split <;> exact h2
  have henter (t : State) (c : Nat) : (t.ptabEnter c).trn = t.trn := by
    unfold State.ptabEnter
    extract_lets q r u
    split
    · rfl
    · rw [hfatal, log_trn]
  have hclean (t : State) (c : Nat) : (t.ptabClean c).trn = t.trn := by
    unfold State.ptabClean
    extract_lets
    split <;> rfl
  have hburst (t : State) (c : Nat) (d : Bytes) : (t.placeBurst c d poi).trn = t.trn := by
    unfold State.placeBurst
    split
    · exact henter _ _
    · exact hclean _ _
  unfold State.placeLine
  split
  · extract_lets b' s1
    split
    · exact hburst _ _ _
    · exact (hburst _ _ _).trans (hburst _ _ _)
  · split <;> rfl
theorem calm_fire {K : Nat} {F : Prop} {G : Nat → Prop} {z : State} (hF : F) (s : State) (qpn : Nat) (r : Bytes) (h0 : Calm K F G z s) : Calm K F G z (State.fire s qpn r) := by
  unfold State.fire
  extract_lets x k
  split
  · exact calm_wrComplete _ _ _ _ _ _ h0
  · next h4 =>
    split
    · exact h0
    · split
      · exact calm_runLocal _ _ _ h0
      · split
        · exact calm_startPrefetch hF _ _ _ h0 h4
        · split
          · exact calm_startRevoke _ _ _ h0 h4
          · split
            · exact calm_wrComplete _ _ _ _ _ _ h0
            · refine calm_setQp _ _ (calm_placeLine hF _ _ _ _ h0) ?_
              rw [show ∀ a b p, (s.placeLine a b p).qp qpn = x from fun a b p => congrArg (fun t : Transport => get ({} : Qp) qpn t.qps) (trn_placeLine s a b p)]
              exact becomes_of_alive h4 id rfl rfl rfl

theorem calm_runTriggers {K : Nat} {F : Prop} {G : Nat → Prop} {z : State} (hF : F) (s : State) (x0 : Nat) (h0 : Calm K F G z s) : Calm K F G z (State.runTriggers s x0) := by
  induction x0 generalizing s with
  | zero =>
   unfold State.runTriggers
   repeat' first
    | with_reducible assumption
  | succ n ih =>
   unfold State.runTriggers
   repeat' first
    | with_reducible assumption
    | with_reducible intro _
    | with_reducible apply calm_fire
    | with_reducible apply calm_foldl
    | with_reducible apply ih
    | split
    | with_reducible refine calm_mk ?_ rfl

theorem calm_triggers {K : Nat} {F : Prop} {G : Nat → Prop} {z : State} (hF : F) (s : State) (h0 : Calm K F G z s) : Calm K F G z (State.triggers s) := by
  unfold State.triggers
  repeat' first
    | with_reducible assumption
    | with_reducible apply calm_runTriggers

theorem calm_sendOn0 {K : Nat} {F : Prop} {G : Nat → Prop} {z : State} (hK : K ≠ 0) (s : State) (tag : Nat) (b : Bytes) (h0 : Calm K F G z s) : Calm K F G z (State.sendOn0 s tag b) := by
  unfold State.sendOn0
  extract_lets x
  split
  · next h3 => exact calm_pump hK _ _ _ (calm_addOp 0 _ h0 (by simp [x] at h3; omega) rfl)
  · exact h0

theorem calm_prefetchEnd {K : Nat} {F : Prop} {G : Nat → Prop} {z : State} (s : State) (tag : Nat) (status : Nat) (h0 : Calm K F G z s) : Calm K F G z (State.prefetchEnd s tag status) := by
  unfold State.prefetchEnd
  split
  · exact h0
  · exact calm_setQp _ _ (calm_endOp _ _ _ _ h0) (settleAck_becomes _)

theorem calm_transHome {K : Nat} {F : Prop} {G : Nat → Prop} {z : State} (s : State) (h0 : Calm K F G z s) : Calm K F G z (State.transHome s) := by
  unfold State.transHome
  repeat' first
    | with_reducible assumption
    | with_reducible intro _
    | with_reducible apply calm_prefetchEnd
    | with_reducible apply calm_foldl
    | with_reducible refine calm_mk ?_ rfl

theorem calm_noteRefusal {K : Nat} {F : Prop} {G : Nat → Prop} {z : State} (s : State) (status : Nat) (chip : Nat) (t : Nat) (a : Nat) (write : Bool) (h0 : Calm K F G z s) : Calm K F G z (State.noteRefusal s status chip t a write) := by
  unfold State.noteRefusal
  repeat' first
    | with_reducible assumption
    | with_reducible apply calm_refuseCsr
    | split

theorem calm_setMover {K : Nat} {F : Prop} {G : Nat → Prop} {z : State} (s : State) (q : Nat) (m : Nat) (v : Mover) (h0 : Calm K F G z s) : Calm K F G z (State.setMover s q m v) := by
  unfold State.setMover
  repeat' first
    | with_reducible assumption
    | with_reducible refine calm_setRange _ _ ?_ rfl

theorem calm_sendIn {K : Nat} {F : Prop} {G : Nat → Prop} {z : State} (s : State) (l : Nat) (v : Nat) (ls : List Load) (h0 : Calm K F G z s) : Calm K F G z (State.sendIn s l v ls) := by
  unfold State.sendIn
  split
  · exact calm_mantelSend _ _ h0
  · split
    · exact calm_popRx _ _ h0
    · exact calm_setGate l _ h0 fun _ => rfl

theorem calm_startRemote {K : Nat} {F : Prop} {G : Nat → Prop} {z : State} (s : State) (l : Nat) (v : Nat) (p : Packet) (kind : LoadKind) (n : Nat) (h0 : Calm K F G z s) : Calm K F G z (State.startRemote s l v p kind n) := by
  unfold State.startRemote
  repeat' first
    | with_reducible assumption
    | with_reducible apply calm_sendIn
    | with_reducible refine calm_mk ?_ rfl

theorem calm_moversPeerLost {K : Nat} {F : Prop} {G : Nat → Prop} {z : State} (s : State) (x : Nat) (h0 : Calm K F G z s) : Calm K F G z (State.moversPeerLost s x) := by
  unfold State.moversPeerLost
  repeat' first
    | with_reducible assumption
    | with_reducible intro _
    | with_reducible apply calm_setMover
    | with_reducible apply calm_foldl

theorem calm_pollLost {K : Nat} {F : Prop} {G : Nat → Prop} {z : State} (s : State) (x : Nat) (h0 : Calm K F G z s) : Calm K F G z (State.pollLost s x) := by
  unfold State.pollLost
  repeat' first
    | with_reducible assumption
    | split
    | with_reducible refine calm_mk ?_ rfl

theorem calm_prefetchLost {K : Nat} {F : Prop} {G : Nat → Prop} {z : State} (s : State) (x : Nat) (h0 : Calm K F G z s) : Calm K F G z (State.prefetchLost s x) := by
  unfold State.prefetchLost
  repeat' first
    | with_reducible assumption
    | with_reducible refine calm_mk ?_ rfl

theorem calm_peerLost {K : Nat} {F : Prop} {G : Nat → Prop} {z : State} (s : State) (x : Nat) (h0 : Calm K F G z s) : Calm K F G z (State.peerLost s x) := by
  unfold State.peerLost
  repeat' first
    | with_reducible assumption
    | with_reducible apply calm_log
    | with_reducible apply calm_moversPeerLost
    | with_reducible apply calm_pollLost
    | with_reducible apply calm_prefetchLost

theorem calm_refreshReach {K : Nat} {F : Prop} {G : Nat → Prop} {z : State} (s : State) (event : State → State) (h0 : Calm K F G z s) (h1 : ∀ (y0 : State), Calm K F G z y0 → Calm K F G z (event y0)) : Calm K F G z (State.refreshReach s event) := by
  unfold State.refreshReach
  repeat' first
    | with_reducible assumption
    | with_reducible apply calm_checkLeader
    | with_reducible apply calm_peerLost
    | with_reducible apply calm_foldl
    | with_reducible apply h1
    | with_reducible refine calm_mk ?_ rfl

theorem calm_linkChangedBy {K : Nat} {F : Prop} {G : Nat → Prop} {z : State} (s : State) (l : Nat) (event : State → State) (h0 : Calm K F G z s) (h1 : ∀ (y0 : State), Calm K F G z y0 → Calm K F G z (event y0)) : Calm K F G z (State.linkChangedBy s l event) := by
  unfold State.linkChangedBy
  repeat' first
    | with_reducible assumption
    | with_reducible apply calm_rechoose
    | with_reducible apply calm_rechooseAll
    | with_reducible apply calm_refreshReach

theorem calm_linkChanged {K : Nat} {F : Prop} {G : Nat → Prop} {z : State} (s : State) (l : Nat) (h0 : Calm K F G z s) : Calm K F G z (State.linkChanged s l) := by
  unfold State.linkChanged
  repeat' first
    | with_reducible assumption
    | with_reducible apply calm_linkChangedBy
    | with_reducible apply calm_id

theorem calm_linkDown {K : Nat} {F : Prop} {G : Nat → Prop} {z : State} (s : State) (l : Nat) (h0 : Calm K F G z s) (hl : ¬ G l) : Calm K F G z (State.linkDown s l) :=
  calm_linkChanged _ _ (calm_setGate_out l _ h0 hl)

theorem calm_enterDrain {K : Nat} {F : Prop} {G : Nat → Prop} {z : State} (s : State) (l : Nat) (h0 : Calm K F G z s) (hl : ¬ G l) : Calm K F G z (State.enterDrain s l) :=
  calm_linkChanged _ _ (calm_setGate_out l _ h0 hl)

theorem calm_leaveRx {K : Nat} {F : Prop} {G : Nat → Prop} {z : State} (s : State) (l : Nat) (v : Nat) (h0 : Calm K F G z s) : Calm K F G z (State.leaveRx s l v) := by
  unfold State.leaveRx
  repeat' first
    | with_reducible assumption
    | with_reducible apply calm_popRx
    | split

theorem calm_bumpLink {K : Nat} {F : Prop} {G : Nat → Prop} {z : State} (s : State) (l : Nat) (off : Nat) (h0 : Calm K F G z s) : Calm K F G z (State.bumpLink s l off) := by
  unfold State.bumpLink
  repeat' first
    | with_reducible assumption
    | with_reducible apply calm_bumpGate
    | split

theorem calm_settleReq {K : Nat} {F : Prop} {G : Nat → Prop} {z : State} (r : State × Nat) (l : Nat) (p : Packet) (h0 : CalmP K F G z r) : Calm K F G z (State.settleReq r l p) := by
  unfold State.settleReq
  repeat' first
    | with_reducible assumption
    | with_reducible apply calm_refuse
    | with_reducible apply calm_accept
    | with_reducible apply calm_fst
    | split

theorem calm_rxWrite {K : Nat} {F : Prop} {G : Nat → Prop} {z : State} (s : State) (l : Nat) (v : Nat) (p : Packet) (h0 : Calm K F G z s) : Calm K F G z (State.rxWrite s l v p) := by
  unfold State.rxWrite
  repeat' first
    | with_reducible assumption
    | with_reducible apply calm_refuse
    | with_reducible apply calm_noteRefusal
    | with_reducible apply calm_startRemote
    | with_reducible apply calm_leaveRx
    | split

theorem calm_rxRead {K : Nat} {F : Prop} {G : Nat → Prop} {z : State} (s : State) (l : Nat) (v : Nat) (p : Packet) (h0 : Calm K F G z s) : Calm K F G z (State.rxRead s l v p) := by
  unfold State.rxRead
  repeat' first
    | with_reducible assumption
    | with_reducible apply calm_refuse
    | with_reducible apply calm_noteRefusal
    | with_reducible apply calm_startRemote
    | with_reducible apply calm_leaveRx
    | split

theorem calm_rxMsg {K : Nat} {F : Prop} {G : Nat → Prop} {z : State} (s : State) (l : Nat) (p : Packet) (h0 : Calm K F G z s) : Calm K F G z (State.rxMsg s l p) := by
  unfold State.rxMsg
  repeat' first
    | with_reducible assumption
    | with_reducible apply calm_msgArrive
    | with_reducible apply calm_settleReq

theorem calm_rxContrib {K : Nat} {F : Prop} {G : Nat → Prop} {z : State} (hF : F) (s : State) (l : Nat) (p : Packet) (h0 : Calm K F G z s) : Calm K F G z (State.rxContrib s l p) := by
  unfold State.rxContrib
  repeat' first
    | with_reducible assumption
    | with_reducible apply calm_contribArrive
    | with_reducible apply calm_settleReq
    | with_reducible apply calm_fst
    | split
    | with_reducible apply calmP_mk
    | with_reducible refine calm_mk ?_ rfl

theorem calm_rxFlagInc {K : Nat} {F : Prop} {G : Nat → Prop} {z : State} (s : State) (l : Nat) (p : Packet) (h0 : Calm K F G z s) : Calm K F G z (State.rxFlagInc s l p) := by
  unfold State.rxFlagInc
  repeat' first
    | with_reducible assumption
    | with_reducible apply calm_flagRemote
    | with_reducible apply calm_settleReq

theorem calm_rxDwrite {K : Nat} {F : Prop} {G : Nat → Prop} {z : State} (hF : F) (s : State) (l : Nat) (p : Packet) (h0 : Calm K F G z s) : Calm K F G z (State.rxDwrite s l p) := by
  unfold State.rxDwrite
  repeat' first
    | with_reducible assumption
    | (extract_lets +onlyGivenNames x; subst x)
    | with_reducible apply calm_stageWrite
    | with_reducible apply calm_bumpLink
    | split

theorem calm_rxDfetch {K : Nat} {F : Prop} {G : Nat → Prop} {z : State} (s : State) (l : Nat) (v : Nat) (p : Packet) (h0 : Calm K F G z s) : Calm K F G z (State.rxDfetch s l v p) := by
  unfold State.rxDfetch
  repeat' first
    | with_reducible assumption
    | with_reducible apply calm_startRemote
    | with_reducible apply calm_leaveRx
    | with_reducible apply calm_bumpLink
    | split

theorem calm_rxDmsg {K : Nat} {F : Prop} {G : Nat → Prop} {z : State} (s : State) (p : Packet) (h0 : Calm K F G z s) : Calm K F G z (State.rxDmsg s p) := by
  unfold State.rxDmsg
  repeat' first
    | with_reducible assumption
    | with_reducible apply calm_msgArrive
    | with_reducible apply calm_fst

theorem calm_rxStall {K : Nat} {F : Prop} {G : Nat → Prop} {z : State} (s : State) (p : Packet) (h0 : Calm K F G z s) : Calm K F G z (State.rxStall s p) := by
  unfold State.rxStall
  repeat' first
    | with_reducible assumption
    | split
    | with_reducible refine calm_mk ?_ rfl

theorem calm_rxPoll {K : Nat} {F : Prop} {G : Nat → Prop} {z : State} (hF : F) (s : State) (p : Packet) (h0 : Calm K F G z s) : Calm K F G z (State.rxPoll s p) := by
  unfold State.rxPoll
  repeat' first
    | with_reducible assumption
    | with_reducible apply calm_sendStall

theorem calm_rxAnswer {K : Nat} {F : Prop} {G : Nat → Prop} {z : State} (s : State) (p : Packet) (h0 : Calm K F G z s) : Calm K F G z (State.rxAnswer s p) := by
  unfold State.rxAnswer
  repeat' first
    | with_reducible assumption
    | split
    | with_reducible refine calm_mk ?_ rfl

theorem calm_rxDeadlock {K : Nat} {F : Prop} {G : Nat → Prop} {z : State} (s : State) (p : Packet) (h0 : Calm K F G z s) : Calm K F G z (State.rxDeadlock s p) := by
  unfold State.rxDeadlock
  repeat' first
    | with_reducible assumption
    | with_reducible apply calm_applyPolicy

theorem calm_rxStallp {K : Nat} {F : Prop} {G : Nat → Prop} {z : State} (hF : F) (s : State) (p : Packet) (h0 : Calm K F G z s) : Calm K F G z (State.rxStallp s p) := by
  unfold State.rxStallp
  repeat' first
    | with_reducible assumption
    | with_reducible apply calm_rxStall
    | with_reducible apply calm_rxPoll
    | with_reducible apply calm_rxAnswer
    | with_reducible apply calm_rxDeadlock
    | split

theorem calm_decideExit {K : Nat} {F : Prop} {G : Nat → Prop} {z : State} (s : State) (h0 : Calm K F G z s) : Calm K F G z (State.decideExit s) := by
  unfold State.decideExit
  repeat' first
    | with_reducible assumption
    | with_reducible apply calm_sinksRest
    | with_reducible apply calm_foldl
    | split
    | with_reducible refine calm_mk ?_ rfl

end Sys2Proof.Machine
end

section
/-! The end of a command is calm, unless the part goes down to BANKED or COLD. -/
namespace Sys2Proof.Machine

theorem calm_localPacket {K : Nat} {F : Prop} {G : Nat → Prop} {z : State} (hF : F) (s : State) (p : Packet) (h0 : Calm K F G z s) (hp : p.op ≠ opMgmt) : Calm K F G z (s.localPacket p) := by
  unfold State.localPacket
  split
  · exact calm_rxWrite _ _ _ _ h0
  · exact calm_rxRead _ _ _ _ h0
  · exact calm_rxMsg _ _ _ h0
  · exact calm_rxContrib hF _ _ _ h0
  · exact calm_rxFlagInc _ _ _ h0
  · exact calm_rxStallp hF _ _ h0
  · exact calm_rxDwrite hF _ _ _ h0
  · exact calm_rxDfetch _ _ _ _ h0
  · exact calm_rxDmsg _ _ h0
  · next he => exact absurd he hp
  · exact h0
/-- The packets to the part itself are taken to be delivered. -/
theorem calm_takeLocal {K : Nat} {F : Prop} {G : Nat → Prop} {z s : State} (hF : F) (h0 : Calm K F G z s) : Calm K F G z { s with loopback := [] } :=
  ⟨h0.core, h0.mode, h0.cause, h0.claims, h0.work, h0.bufs, h0.gates, h0.ranges, fun hn => absurd hF hn, fun _ _ hx => absurd hx (by simp), h0.transport⟩
/-- Packets that are not of the management partition are delivered. -/
theorem calm_localPackets {K : Nat} {F : Prop} {G : Nat → Prop} {z s : State} (hF : F) (ps : List Packet) (h0 : Calm K F G z s) (hp : ∀ p ∈ ps, p.op ≠ opMgmt) :
    Calm K F G z (ps.foldl (fun s p => s.localPacket p) s) := by
  induction ps generalizing s with
  | nil => exact h0
  | cons p r ih => exact ih (calm_localPacket hF s p h0 (hp p (by simp))) fun x hx => hp x (by simp [hx])
theorem calm_deliverLocal {K : Nat} {F : Prop} {G : Nat → Prop} {z s : State} (hF : F) (n : Nat) (h0 : Calm K F G z s) (hz : ∀ p ∈ z.loopback, p.op ≠ opMgmt) : Calm K F G z (s.deliverLocal n) := by
  induction n generalizing s with
  | zero => exact h0
  | succ n ih =>
    rw [State.deliverLocal]
    split
    · exact h0
    · exact ih (calm_localPackets hF _ (calm_takeLocal hF h0) (h0.noMgmt hz))
/-- The transport's end of a command, where no deploy message is in work. -/
theorem done_idle (s : State) (hw : s.transHome.triggers.closeEpoch.boot.work = []) : s.done = s.transHome.triggers.closeEpoch.triggers.flush := by
  simp only [State.done, hw, List.map_nil, List.sum_nil, State.answerUnknown, List.length_nil, State.sendReplies]
theorem calm_done {K : Nat} {F : Prop} {G : Nat → Prop} {z s : State} (hF : F) (h0 : Calm K F G z s) (hw : z.boot.work = []) : Calm K F G z s.done := by
  have h1 : Calm K F G z s.transHome.triggers.closeEpoch := calm_closeEpoch hF _ (calm_triggers hF _ (calm_transHome _ h0))
  rw [done_idle s (h1.work hw)]
  exact calm_flush _ (calm_triggers hF _ h1)

/-! ### A part that has stopped for good -/

theorem calm_dropExit {K : Nat} {F : Prop} {G : Nat → Prop} {z s : State} (qs : List Nat) (h0 : Calm K F G z s) : Calm K F G z (s.dropExit qs) := by
  unfold State.dropExit
  split
  · exact calm_foldl (calm_of_rest h0 rfl) fun t q ht => calm_sinksRest t q ht
  · exact h0
theorem calm_shutLinks {K : Nat} {F : Prop} {z : State} (s : State) (q : Nat) (h0 : Calm K F (fun _ => False) z s) : Calm K F (fun _ => False) z (s.shutLinks q) := by
  refine calm_foldl h0 fun t l ht => ?_
  split
  · exact calm_enterDrain t l ht id
  · exact calm_enterDrain t l ht id
  · exact calm_linkDown t l ht id
  · exact calm_linkDown t l ht id
  · exact ht
/-- In fatal stop the links of stopped quarters go down and the transport is dropped, and nothing more. -/
theorem calm_shutdown_fatal {F : Prop} {z s : State} (h0 : Calm 2 F (fun _ => False) z s) (hm : s.svc.mode = 4) : Calm 2 F (fun _ => False) z s.shutdown := by
  have hgoing : s.goingDown = true := by simp [State.goingDown, hm]
  obtain ⟨qs, hqs⟩ : ∃ qs, qs = (List.range 4).filter fun q => s.stopped q := ⟨_, rfl⟩
  have h1 : Calm 2 F (fun _ => False) s (qs.foldl (fun s q => s.shutLinks q) (s.dropExit qs)) := calm_foldl (calm_dropExit qs calm_refl) fun t q ht => calm_shutLinks t q ht
  have h2 : Calm 2 F (fun _ => False) s (qs.foldl (fun s q => s.shutLinks q) (s.dropExit qs)).dropTransport := calm_trn h1 _ ⟨by simp, by simp, by simp⟩
  have hfatal : (qs.foldl (fun s q => s.shutLinks q) (s.dropExit qs)).dropTransport.svc.mode = 4 := h2.mode.elim (fun h => h.trans hm) (fun h => h.2)
  unfold State.shutdown
  simp only [hgoing, if_true, ← hqs, hm, true_or, hfatal, ne_eq, not_true, false_and, if_false]
  exact h0.trans h2

/-! ### The end of a command -/

theorem sleeping_of_calm {K : Nat} {F : Prop} {G : Nat → Prop} {z s : State} (h : Calm K F G z s) : s.pwr.sleeping = z.pwr.sleeping := congrArg (fun c => c.2.2.1.sleeping) h.core
theorem hobs_of_calm {K : Nat} {F : Prop} {G : Nat → Prop} {z s : State} (h : Calm K F G z s) : s.hobs = z.hobs := congrArg (fun c => c.1) h.core
/-- A part that does not go to BANKED or COLD ends its command calmly; it may have stopped for good. -/
theorem ends_calm {s : State} (hw : s.boot.work = []) (hs : s.pwr.sleeping = false) (hl : ∀ p ∈ s.loopback, p.op ≠ opMgmt) :
    ∃ s', s.ends = .next s' ∧ Calm 2 True (fun _ => False) s s' := by
  have h1 : Calm 2 True (fun _ => False) s (s.deliverLocal 4) := calm_deliverLocal trivial 4 calm_refl hl
  have h2 : Calm 2 True (fun _ => False) s (s.deliverLocal 4).shutdown := by
    by_cases hm : (s.deliverLocal 4).svc.mode = 4
    · exact calm_shutdown_fatal h1 hm
    · rw [State.shutdown, if_neg (by simp [State.goingDown, hm, sleeping_of_calm h1, hs])]
      exact h1
  exact ⟨_, rfl, calm_decideExit _ (calm_deliverLocal trivial 4 (calm_done trivial h2 hw) hl)⟩
/-- A part that stays on, with no packet to itself, keeps its gates too. -/
theorem ends_calmGates (K : Nat) {s : State} (G : Nat → Prop) (hw : s.boot.work = []) (hd : s.goingDown = false) (hl : s.loopback = []) : ∃ s', s.ends = .next s' ∧ Calm K True G s s' := by
  refine ⟨_, rfl, calm_decideExit _ (calm_deliverLocal trivial 4 (calm_done trivial ?_ hw) (by simp [hl]))⟩
  rw [deliverLocal_quiet _ _ hl, State.shutdown, if_neg (by simp [hd])]
  exact calm_refl

end Sys2Proof.Machine
end

section
/-! Control flits and replay (R286, R289 to R292); a link that breaks (R303). -/
namespace Sys2Proof.Machine

/-! ### A link that breaks -/

/-- A gate whose link breaks for a reason; a disable that was due takes effect. -/
def Gate.broken (g : Gate) (reason : Nat) : Gate :=
  if g.disDue then { g.unlinked with state := .broken, brk := reason }.disabled.toDown else { g.unlinked with state := .broken, brk := reason }
theorem broken_state (g : Gate) (r : Nat) : (g.broken r).state = if g.disDue then .down else .broken := by unfold Gate.broken; split <;> rfl
theorem broken_brk (g : Gate) (r : Nat) : (g.broken r).brk = r := by unfold Gate.broken; split <;> rfl
theorem broken_replay (g : Gate) (r : Nat) : (g.broken r).replay = [] := by unfold Gate.broken; split <;> rfl
theorem calm_declareLost {K : Nat} {F : Prop} {G : Nat → Prop} {z : State} (s : State) (l : Nat) (ps : List Packet) (h0 : Calm K F G z s) : Calm K F G z (s.declareLost l ps) :=
  calm_foldl (calm_bumpGate _ _ _ h0) fun t p ht => calm_respond t l p 0x20 [] ht
/-- Behind the change of the gate itself, a break changes the core of no gate. -/
theorem calm_linkBreak {F : Prop} {s : State} {l : Nat} (r : Nat) (hup : (s.gate l).upOrHold = true) :
    Calm 2 F (fun _ => True) (s.setGate l ((s.gate l).broken r)) (s.linkBreak l r) := by
  unfold State.linkBreak
  simp only [hup, if_true]
  exact calm_declareLost _ _ _ (calm_linkChangedBy _ _ _ (calm_bumpGate _ _ _ calm_refl) fun t ht => calm_log t _ _ _ _ _ ht)
theorem canon_gates {s : State} (h : s.canon = true) : SMapWf ({} : Gate) s.gates = true := ((canon_iff s).mp h).2.2.2
/-- A command that changes a gate for good, and all else calmly, ends with that gate. -/
theorem ends_gate {s t : State} {l : Nat} {x : Gate} (hset : s.settled = true) (hs : s.canon = true) (h : Calm 2 False (fun _ => True) (s.setGate l x) t) :
    ∃ s', t.ends = .next s' ∧ (s'.gate l).core = x.core ∧ s'.hobs = s.hobs := by
  obtain ⟨-, -, -, hwork, -, hgoing, hloop, -⟩ := (settled_iff s).mp hset
  have hdown : t.goingDown = false := by
    have hm : t.svc.mode = s.svc.mode := h.mode.elim id fun hf => hf.1.elim
    have hsl : t.pwr.sleeping = s.pwr.sleeping := (sleeping_of_calm h).trans rfl
    simpa [State.goingDown, hm, hsl] using hgoing
  obtain ⟨s', hends, hcalm⟩ := ends_calmGates 2 (fun _ => True) (h.work hwork) hdown ((h.loop id).trans hloop)
  obtain ⟨hw, hg⟩ := h.gates (canon_gates (canon_setGate hs l x))
  obtain ⟨-, hg'⟩ := hcalm.gates hw
  refine ⟨s', hends, ?_, (hobs_of_calm hcalm).trans ((hobs_of_calm h).trans rfl)⟩
  rw [hg' l trivial, hg l trivial, gate_setGate hs]
/-- A link that breaks at the end of a command of a settled part. -/
theorem ends_linkBreak {s : State} {l r : Nat} (hset : s.settled = true) (hs : s.canon = true) (hup : (s.gate l).upOrHold = true) :
    ∃ s', (s.linkBreak l r).ends = .next s' ∧ (s'.gate l).state = (if (s.gate l).disDue then .down else .broken) ∧ (s'.gate l).brk = r ∧ (s'.gate l).replay = [] ∧ s'.hobs = s.hobs := by
  obtain ⟨s', hends, hcore, hhobs⟩ := ends_gate hset hs (calm_linkBreak r hup)
  have hstate : (s'.gate l).core.state = ((s.gate l).broken r).core.state := congrArg Gate.state hcore
  have hbrk : (s'.gate l).core.brk = ((s.gate l).broken r).core.brk := congrArg Gate.brk hcore
  have hreplay : (s'.gate l).core.replay = ((s.gate l).broken r).core.replay := congrArg Gate.replay hcore
  exact ⟨s', hends, hstate.trans (broken_state _ _), hbrk.trans (broken_brk _ _), hreplay.trans (broken_replay _ _), hhobs⟩

/-! ### Control flits, headers and replay -/

theorem comes_up {g : Gate} {n : Nat} (hup : g.state = .up) (hn : g.rxSlot ≤ n) : g.comes n = true := by
  simp [Gate.comes, Gate.accepts, hup, hn]
/-- What the gate of a counted control flit without a NAK becomes. -/
def Gate.acked (g : Gate) (b : Bytes) (n k : Nat) : Gate :=
  { g with
    cindexBad := 0, hdrAt := if g.lost then some (n + 1 + le b 8 1 % 16) else g.hdrAt, replay := g.replay.drop k,
    resend := g.resend.filter fun p => (g.replay.drop k).any fun x => x.seq == p.seq, rnum := if k = 0 then g.rnum else 0, pack := BitVec.ofNat 12 (le b 2 2),
    pdack := BitVec.ofNat 12 (le b 6 2), dgOut := g.dgOut.filter fun e => decide (2048 ≤ (BitVec.ofNat 12 (le b 6 2) - BitVec.ofNat 12 e.1).toNat),
    pocc := (List.range 8).foldl (fun m v => put 0 v (le b (12 + 2 * v) 2) m) [], phold := false, pdrain := false, prbEmpty := false, pnarrow := false, phalf := false }
/-- A control flit in LSTATE 2 with no NAK pending, which acknowledges packets that are held. -/
theorem controlCounts_ack {s : State} (hs : s.canon = true) {l n k : Nat} {b : Bytes} (hup : (s.gate l).state = .up) (hls : le b 1 1 = 2) (hnak : (le b 4 2).testBit 12 = false)
    (hk : k = (BitVec.ofNat 12 (le b 2 2) + 1 - (s.gate l).oldest).toNat) (hheld : k ≤ (s.gate l).replay.length) :
    s.controlCounts l b n = s.setGate l ((s.gate l).acked b n k) := by
  have hbit : ∀ i, 1 < i → Nat.testBit 2 i = false := fun i hi => Nat.testBit_lt_two_pow (Nat.lt_of_lt_of_le (by decide : 2 < 2 ^ 2) (Nat.pow_le_pow_right (by decide) hi))
  unfold State.controlCounts
  simp only [hls, hnak, ← hk, Bool.false_eq_true, false_and, or_false, if_false, Nat.not_lt.mpr hheld]
  have hgate := gate_setGate hs l ((s.gate l).acked b n k)
  have hnarrow : (s.setGate l ((s.gate l).acked b n k)).narrowLink l = s.setGate l ((s.gate l).acked b n k) := by
    unfold State.narrowLink
    simp only [hgate]
    simp [Gate.acked]
  have hdrain : (s.setGate l ((s.gate l).acked b n k)).drainEnd l = s.setGate l ((s.gate l).acked b n k) := by
    unfold State.drainEnd
    simp only [hgate]
    simp [Gate.acked, hup]
  simp only [hbit 3 (by decide), hbit 4 (by decide), hbit 5 (by decide)]
  change (State.drainEnd (if 2 % 8 = 4 ∧ _ then _ else State.narrowLink (s.setGate l ((s.gate l).acked b n k)) l) l) = _
  rw [if_neg (by simp), hnarrow, hdrain]
/-- A map written number by number. -/
theorem get_foldl_put_range {α : Type} [DecidableEq α] (d : α) (f : Nat → α) (n : Nat) :
    SMapWf d ((List.range n).foldl (fun m v => put d v (f v) m) []) = true ∧ ∀ v, v < n → get d v ((List.range n).foldl (fun m v => put d v (f v) m) []) = f v := by
  induction n with
  | zero => exact ⟨rfl, fun v hv => absurd hv (Nat.not_lt_zero v)⟩
  | succ n ih =>
    obtain ⟨hw, hget⟩ := ih
    simp only [List.range_succ, List.foldl_append, List.foldl_cons, List.foldl_nil]
    refine ⟨put_wf hw, fun v hv => ?_⟩
    by_cases hvn : v = n
    · rw [hvn, get_put_same]
    · rw [get_put_ne _ _ _ _ _ hw hvn]
      exact hget v (by omega)
theorem acked_pocc (g : Gate) (b : Bytes) (n k : Nat) (v : Fin 8) : get 0 v (g.acked b n k).pocc = le b (12 + 2 * v) 2 :=
  (get_foldl_put_range 0 (fun v => le b (12 + 2 * v) 2) 8).2 v v.isLt
/-- The head of a control flit that comes: its slot and the FEC's report. -/
theorem controlFlit_comes {s : State} (hs : s.canon = true) {l n : Nat} {b : Bytes} {f : FecReport} (hup : (s.gate l).state = .up) (hn : (s.gate l).rxSlot ≤ n)
    (hslot : dataSlot n = false) (h64 : b.length = 64) (hcrc : crc32c (b.take 60) = le b 60 4) :
    s.controlFlit l b n f = (if le b 9 1 = n / 32 % 256 then (s.setGate l (((s.gate l).received n).fecCounted f)).controlCounts l b n
      else if (s.gate l).cindexBad = 0 then s.setGate l { ((s.gate l).received n).fecCounted f with cindexBad := 1 }
      else (s.setGate l (((s.gate l).received n).fecCounted f)).linkBreak l 5) := by
  have hon : ((s.gate l).comes n && !dataSlot n) = true := by rw [comes_up hup hn, hslot]; rfl
  have hcheck : (crc32c (b.take 60) == le b 60 4 && decide (b.length = 64)) = true := by simp [hcrc, h64]
  unfold State.controlFlit
  simp only [hon, hcheck, if_true, noteFec_setGate hs, gate_setGate hs, setGate_setGate hs]
/-- What a gate becomes by the first header whose check fails in data slot `n`. -/
def Gate.headerLost (g : Gate) (n : Nat) (f : FecReport) : Gate :=
  { (g.received n).fecCounted f with
    lost := true, hdrAt := none, nakPend := true, nakSeq := g.ers, nakId := g.nakId + 1, cnt := upd 0 1 (· + 1) ((g.received n).fecCounted f).cnt }
theorem headerLost_eq (g : Gate) (n : Nat) (f : FecReport) : g.headerLost n f =
    { g with lost := true, hdrAt := none, nakPend := true, nakSeq := g.ers, nakId := g.nakId + 1, rxSlot := n + 1, laneErr := (g.headerLost n f).laneErr, cnt := upd 0 1 (· + 1) (upd 0 4 (· + BitVec.ofNat 32 f.uncorrectable) (upd 0 3 (· + BitVec.ofNat 32 f.corrected) g.cnt)) } := rfl
theorem headerFail_first {s : State} (hs : s.canon = true) {l n : Nat} {b : Bytes} {f : FecReport} (hup : (s.gate l).state = .up) (hn : (s.gate l).rxSlot ≤ n)
    (hslot : dataSlot n = true) (hlost : (s.gate l).lost = false) (hbad : f.hit = true ∨ hcrcOk b = false) (hpend : (s.gate l).nakPend = false) :
    s.headerFail l b n f = s.setGate l ((s.gate l).headerLost n f) := by
  have hon : ((s.gate l).comes n && dataSlot n && (f.hit || !hcrcOk b)) = true := by
    rw [comes_up hup hn, hslot]
    rcases hbad with h | h <;> simp [h]
  have hlook : (((s.gate l).received n).fecCounted f).looksAt n = true := by simp [Gate.looksAt, Gate.fecCounted, Gate.received, hlost]
  have hnak : (((s.gate l).received n).fecCounted f).nak false =
      { ((s.gate l).received n).fecCounted f with nakPend := true, nakSeq := (s.gate l).ers, nakId := (s.gate l).nakId + 1 } := by
    unfold Gate.nak
    rw [if_neg (by simp [Gate.fecCounted, Gate.received, hpend])]
    rfl
  unfold State.headerFail
  simp only [hon, if_true, noteFec_setGate hs, gate_setGate hs, hlook, hnak, setGate_setGate hs, bumpGate_setGate hs]
  rfl
theorem controlFlit_acks {s : State} (hs : s.canon = true) {l n k : Nat} {b : Bytes} {f : FecReport} (hup : (s.gate l).state = .up) (hn : (s.gate l).rxSlot ≤ n)
    (hslot : dataSlot n = false) (h64 : b.length = 64) (hcrc : crc32c (b.take 60) = le b 60 4) (hidx : le b 9 1 = n / 32 % 256) (hls : le b 1 1 = 2)
    (hnak : (le b 4 2).testBit 12 = false) (hk : k = (BitVec.ofNat 12 (le b 2 2) + 1 - (s.gate l).oldest).toNat) (hheld : k ≤ (s.gate l).replay.length) :
    s.controlFlit l b n f = s.setGate l ((((s.gate l).received n).fecCounted f).acked b n k) := by
  have hgate := gate_setGate hs l (((s.gate l).received n).fecCounted f)
  have hold : (((s.gate l).received n).fecCounted f).oldest = (s.gate l).oldest := rfl
  have hrep : (((s.gate l).received n).fecCounted f).replay = (s.gate l).replay := rfl
  have hst : (((s.gate l).received n).fecCounted f).state = (s.gate l).state := rfl
  rw [controlFlit_comes hs hup hn hslot h64 hcrc, if_pos hidx,
    controlCounts_ack (k := k) (canon_setGate hs _ _) (by rw [hgate, hst, hup]) hls hnak (by rw [hgate, hold, hk]) (by rw [hgate, hrep]; exact hheld), hgate, setGate_setGate hs]
theorem replayTimeout_up {s : State} {l : Nat} (hup : (s.gate l).state = .up) (hph : (s.gate l).phold = false) (hne : (s.gate l).replay ≠ []) :
    s.replayTimeout l = if (s.gate l).rnum = 8 then s.linkBreak l 1 else
      (s.setGate l { s.gate l with resend := (s.gate l).replay, rnum := (s.gate l).rnum + 1 }).bumpGate l 0x88 1 := by
  have hdue : (((s.gate l).state == .up || (s.gate l).state == .drain) && !(s.gate l).phold && decide ((s.gate l).replay ≠ [])) = true := by simp [hup, hph, hne]
  unfold State.replayTimeout
  simp only [hdue, if_true]
  rw [State.startReplay, if_neg hne]

/-- Settles O43: each kind of flit by what its handler does to the gate; a break is carried through the end of the command by the frame. -/
theorem linkFlits : Obligations.LinkFlits := by
  unfold Obligations.LinkFlits
  refine ⟨?_, ?_⟩
  · intro l b n k fec s g hset hs hg hup hn hslot h64 hcrc
    have hexec {g' : Gate} (h : s.controlFlit l b n fec = s.setGate l g') : exec (.controlFlit l b ⟨n, fec⟩) s = .next (s.setGate l g') := by
      simp only [exec, execControlFlit, h]
      exact ends_settled _ hset
    refine ⟨fun hidx hls hnak hk hheld => ?_, fun hidx hbad => ?_⟩
    · rw [hg] at hup hn hk hheld ⊢
      exact ⟨_, hexec (controlFlit_acks hs hup hn hslot h64 hcrc hidx hls hnak hk hheld), rfl, rfl, rfl, acked_pocc _ _ _ _, hup, rfl, rfl, rfl, rfl, rfl⟩
    · rw [hg] at hup hn hbad ⊢
      have hflit := (controlFlit_comes hs (f := fec) hup hn hslot h64 hcrc).trans ((if_neg hidx).trans (if_pos hbad))
      exact ⟨_, hexec hflit, rfl⟩
  · intro l s g hset hs hg hup
    rw [hg] at hup ⊢
    refine ⟨fun b n fec hn hslot hlost hbad hpend => ?_, fun hstop hon hph hne hrn => ?_, fun hstop hon hph hne hrn => ?_⟩
    · have hfail := headerFail_first hs hup hn hslot hlost hbad hpend
      have hexec : exec (.headerCrcFail l b ⟨n, fec⟩) s = .next (s.headerFail l b n fec) := by
        simp only [exec, execHeaderCrcFail, hfail]
        exact ends_settled _ hset
      rw [hfail] at hexec
      exact ⟨_, hexec, headerLost_eq _ _ _⟩
    · simp only [exec, execReplayTimeout, counted_running hstop hon, replayTimeout_up hup hph hne, if_neg hrn, bumpGate_setGate hs]
      exact ends_settled _ hset
    · simp only [exec, execReplayTimeout, counted_running hstop hon, replayTimeout_up hup hph hne, if_pos hrn]
      obtain ⟨s', hends, hstate, hbrk, -⟩ := ends_linkBreak (l := l) (r := 1) hset hs (by simp [Gate.upOrHold, hup])
      exact ⟨s', hends, hstate, hbrk⟩

end Sys2Proof.Machine
end

section
/-! The states of a link: training, its end, and the ways out of UP (R268, R272 to R281, R287, R299, R303). -/
namespace Sys2Proof.Machine

/-! ### Training -/

theorem trainFrame_setGate {s : State} (hs : s.canon = true) (l : Nat) {x : Gate} (hv : x.vcmask = (s.gate l).vcmask) (hl : x.limit = (s.gate l).limit) (lane step : Nat) (good : BitVec 8) :
    (s.setGate l x).trainFrame l lane step good = s.trainFrame l lane step good := by
  unfold State.trainFrame
  simp only [gate_setGate hs, hv, hl]
  rfl
theorem enterTrain_eq {s : State} (hs : s.canon = true) (l : Nat) :
    s.enterTrain l = { s.setGate l { s.gate l with state := .train, rested := false } with out := s.out ++ (List.range 8).map fun m => .lane l m (s.trainFrame l m 1 0) } := by
  unfold State.enterTrain
  rw [sendFrames_eq]
  simp only [trainFrame_setGate hs l (x := { s.gate l with state := .train, rested := false }) rfl rfl]
  rfl
theorem trainFail_logged {s : State} {l : Nat} (h : (s.gate l).trainLogged = true) :
    s.trainFail l = s.setGate l { s.gate l with state := .down, rested := false, trainLogged := true } := by
  unfold State.trainFail
  simp only [h, if_true]
  rfl
theorem trainFail_first {s : State} {l : Nat} (h : (s.gate l).trainLogged = false) :
    s.trainFail l = (s.setGate l { s.gate l with state := .down, rested := false, trainLogged := true }).log 0x0601 .fabric (.link l) none [l] := by
  unfold State.trainFail
  simp only [h, Bool.false_eq_true, if_false]
  rfl
/-- The partner's parameters match. -/
theorem judgeParams_good {s : State} {l : Nat} {f : Bytes} (h1 : le f 19 1 = 1) (h2 : le f 16 1 ≠ s.rt.chip) (h3 : le f 20 1 = (s.gate l).vcmask.toNat)
    (h4 : ∀ v : Fin 8, (s.gate l).vcmask.getLsbD v = true → 16 ≤ le f (24 + 2 * v) 2) : s.judgeParams l f = 0 := by
  unfold State.judgeParams
  rw [if_neg (by simp [h1]), if_neg h2, if_neg (by simp [h3]), if_neg]
  simp only [Bool.not_eq_true, List.any_eq_false, List.mem_range, Bool.and_eq_true, decide_eq_true_eq, not_and, Nat.not_lt]
  exact fun v hv hactive => h4 ⟨v, hv⟩ hactive
/-- A training whose frames show a lane order and a width, with parameters that match. -/
theorem trainComplete_good {s : State} {l : Nat} {r : TrainResult} {rev n hf : Bool} (hst : (s.gate l).state = .train) (ho : laneOrder r.frames = some rev)
    (hw : linkWidth (goodLanes r) = some (n, hf)) (h6 : 6 ≤ le (partnerFrame r) 9 1) (hj : s.judgeParams l (partnerFrame r) = 0) :
    s.trainComplete l r =
      if le (partnerFrame r) 9 1 = 7 then (s.sendFrames l 7 r.good).linkUp l (partnerFrame r) rev r.polarity n hf else s.sendFrames l 7 r.good := by
  unfold State.trainComplete
  simp only [hst, if_true, ho, hw, Nat.not_lt.mpr h6, if_false, hj]
/-- The same with a mismatch of the first parameter. -/
theorem trainComplete_mismatch {s : State} {l : Nat} {r : TrainResult} {rev n hf : Bool} (hst : (s.gate l).state = .train) (ho : laneOrder r.frames = some rev)
    (hw : linkWidth (goodLanes r) = some (n, hf)) (h6 : 6 ≤ le (partnerFrame r) 9 1) (hj : s.judgeParams l (partnerFrame r) = 1) :
    s.trainComplete l r = (s.setGate l (s.gate l).toDown).log 0x0602 .fabric (.link l) none [l, 1] := by
  unfold State.trainComplete
  simp only [hst, if_true, ho, hw, Nat.not_lt.mpr h6, if_false, hj]
theorem trainComplete_unclear {s : State} {l : Nat} {r : TrainResult} (hst : (s.gate l).state = .train) (h : laneOrder r.frames = none ∨ linkWidth (goodLanes r) = none) :
    s.trainComplete l r = s.trainFail l := by
  unfold State.trainComplete
  simp only [hst, if_true]
  rcases h with h | h
  · rw [h]
  · rw [h]
    cases laneOrder r.frames <;> rfl
/-- The gate of a link that has come up (R276, R279). -/
def Gate.trained (g : Gate) (f : Bytes) (reversed : Bool) (polarity : BitVec 8) (narrow half : Bool) : Gate :=
  { g.unlinked with
    state := if g.holdWhy = 0 then .up else .hold, narrow := narrow, half := half, reversed := reversed, polarity := polarity, pchip := le f 16 1, plink := le f 18 1 % 32,
    nts := 0, ers := 0, nds := 0, eds := 0, rnum := 0, ppmValid := false, plimit := (List.range 8).foldl (fun m v => put 0 v (le f (24 + 2 * v) 2 % 2048) m) [],
    nakSeq := 0, nakId := 0, actedNak := 0, dack := 0xFFF, pack := 0xFFF, pdack := 0xFFF, pocc := [], trainLogged := false, rested := false, txSlot := 0, rxSlot := 0 }
theorem trained_plimit (g : Gate) (f : Bytes) (rev : Bool) (pol : BitVec 8) (n hf : Bool) (v : Fin 8) : get 0 v (g.trained f rev pol n hf).core.plimit = le f (24 + 2 * v) 2 % 2048 :=
  (get_foldl_put_range 0 (fun v => le f (24 + 2 * v) 2 % 2048) 8).2 v v.isLt
theorem calm_linkUp {F : Prop} (s : State) (l : Nat) (f : Bytes) (rev : Bool) (pol : BitVec 8) (n hf : Bool) :
    Calm 2 F (fun _ => True) (s.setGate l ((s.gate l).trained f rev pol n hf)) (s.linkUp l f rev pol n hf) := calm_linkChanged _ _ calm_refl

/-! ### The ways out of UP -/

/-- Behind the change of the gate itself, the way down changes the core of no gate. -/
theorem calm_linkDown_self {F : Prop} (s : State) (l : Nat) : Calm 2 F (fun _ => True) (s.setGate l (s.gate l).unlinked.toDown) (s.linkDown l) := calm_linkChanged _ _ calm_refl
theorem oneLane_half : ∀ m : Fin 8, (BitVec.twoPow 8 m.val &&& 0x0F ≠ 0 ∧ BitVec.twoPow 8 m.val &&& 0xF0 ≠ 0 → False) ∧ (BitVec.twoPow 8 m.val &&& 0x0F != 0) = decide (m.val < 4) := by decide
/-- The first lane that fails asks for the half without it. -/
theorem laneFail_first {s : State} (hs : s.canon = true) {l : Nat} (m : Fin 8) (hup : (s.gate l).state = .up) (hn : (s.gate l).narrow = false) (hf : (s.gate l).failed = 0)
    (hp : (s.gate l).pnarrow = false) :
    s.laneFail l m = s.setGate l { s.gate l with failed := BitVec.twoPow 8 m.val, narrowReq := true, narrowSent := (s.gate l).narrowSent && (s.gate l).narrowReq, narrowHalf := decide (m.val < 4) } := by
  obtain ⟨hone, hhalf⟩ := oneLane_half m
  have hlane : (s.gate l).failed ||| BitVec.twoPow 8 m.val = BitVec.twoPow 8 m.val := by simp [hf]
  unfold State.laneFail
  simp only [hlane, hhalf]
  rw [if_neg (by simp [Gate.upOrHold, hup]), if_neg (by simp [hn]), if_neg hone]
  unfold State.narrowLink
  simp only [gate_setGate hs]
  rw [if_pos (by simp [hp])]
theorem laneFail_narrow {s : State} {l : Nat} {m : Fin 8} (hup : (s.gate l).state = .up) (hn : (s.gate l).narrow = true) (hh : (s.gate l).half = decide (4 ≤ m.val)) :
    s.laneFail l m = s.linkBreak l 6 := by
  unfold State.laneFail
  simp only [Gate.upOrHold, hup, hn, hh, beq_self_eq_true, Bool.true_or, Bool.not_true, Bool.false_eq_true, if_false, if_true]
theorem silence_up {s : State} {l : Nat} (hup : (s.gate l).state = .up) (hp : (s.gate l).phold = false) : s.silence l = s.linkBreak l 3 := if_pos ⟨hup, hp⟩
theorem creditTimeout_up {s : State} {l v : Nat} (hup : (s.gate l).state = .up) (hp : (s.gate l).phold = false) (hv : (s.gate l).starves v = true) :
    s.creditTimeout l v = s.linkBreak l 2 := if_pos ⟨hup, hp, hv⟩
theorem drainTimeout_drain {s : State} {l : Nat} (h : (s.gate l).state = .drain) : s.drainTimeout l = (s.linkDown l).declareLost l (s.gate l).replay := if_pos h

/-! ### The statement -/

/-- TRAIN_START, TRAIN_TIMEOUT and BROKEN_IDLE_END. -/
theorem linkStates_training (l : Fin 20) (s : State) (g : Gate) (hset : s.settled = true) (hs : s.canon = true) (hm : s.svc.mirrorEn = false) (hg : g = s.gate l) :
    (g.state = .down → g.en = true → s.mayTrain = true → exec (.trainStart l) s = .next { s.setGate l { g with state := .train, rested := false } with out := s.out ++ (List.range 8).map fun m => .lane l m (s.trainFrame l m 1 0) }) ∧
    (g.state = .down → g.en = false ∨ s.mayTrain = false → exec (.trainStart l) s = .next (s.setGate l { g with rested := true })) ∧
    (g.state = .train → g.trainLogged = true → exec (.trainTimeout l) s = .next (s.setGate l { g with state := .down, rested := false, trainLogged := true })) ∧
    (g.state = .train → g.trainLogged = false →
      exec (.trainTimeout l) s = .next ((s.setGate l { g with state := .down, rested := false, trainLogged := true }).log 0x0601 .fabric (.link l) none [l])) ∧
    (g.state = .broken → g.en = true → s.mayTrain = true → exec (.brokenIdleEnd l) s = .next { s.setGate l { g with state := .train, rested := false } with out := s.out ++ (List.range 8).map fun m => .lane l m (s.trainFrame l m 1 0) }) ∧
    (g.state = .broken → g.en = false → exec (.brokenIdleEnd l) s = .next (s.setGate l { g with state := .down, rested := false })) := by
  subst hg
  refine ⟨fun hd he ht => ?_, fun hd he => ?_, fun ht hlog => ?_, fun ht hlog => ?_, fun hb he ht => ?_, fun hb he => ?_⟩
  · have h : s.trainStart l = s.enterTrain l := by simp only [State.trainStart, hd, he, ht, and_self, if_true]
    simp only [exec, execTrainStart, h, enterTrain_eq hs]
    exact ends_settled _ hset
  · have h : s.trainStart l = s.setGate l { s.gate l with rested := true } := by
      simp only [State.trainStart, hd, if_true]
      exact if_neg fun h => by rcases he with e | e <;> simp [e] at h
    simp only [exec, execTrainStart, h]
    exact ends_settled _ hset
  · have h : s.trainTimeout l = _ := (if_pos ht).trans (trainFail_logged hlog)
    simp only [exec, execTrainTimeout, h]
    exact ends_settled _ hset
  · have h : s.trainTimeout l = _ := (if_pos ht).trans (trainFail_first hlog)
    simp only [exec, execTrainTimeout, h]
    exact ends_settled _ ((settled_log (by exact hm) _ _ _ _ _).trans hset)
  · have h : s.brokenEnd l = s.enterTrain l := by simp only [State.brokenEnd, hb, he, ht, Bool.and_self, if_true]
    simp only [exec, execBrokenIdleEnd, h, enterTrain_eq hs]
    exact ends_settled _ hset
  · have h : s.brokenEnd l = s.setGate l (s.gate l).toDown := by simp only [State.brokenEnd, hb, he, Bool.false_and, Bool.false_eq_true, if_true, if_false]
    simp only [exec, execBrokenIdleEnd, h]
    exact ends_settled _ hset
/-- TRAIN_COMPLETE. -/
theorem linkStates_trained (l : Fin 20) (r : TrainResult) (s : State) (g : Gate) (f : Bytes) (hset : s.settled = true) (hs : s.canon = true) (hm : s.svc.mirrorEn = false) (hg : g = s.gate l)
    (ht : g.state = .train) (hf : f = partnerFrame r) :
    (∀ rev n hf, laneOrder r.frames = some rev → linkWidth (goodLanes r) = some (n, hf) → 6 ≤ le f 9 1 →
      (le f 19 1 = 1 → le f 16 1 ≠ s.rt.chip → le f 20 1 = g.vcmask.toNat → (∀ v : Fin 8, g.vcmask.getLsbD v = true → 16 ≤ le f (24 + 2 * v) 2) →
        (le f 9 1 ≠ 7 → exec (.trainComplete l r) s = .next { s with out := s.out ++ (List.range 8).map fun m => .lane l m (s.trainFrame l m 7 r.good) }) ∧
        (le f 9 1 = 7 → ∃ s', exec (.trainComplete l r) s = .next s' ∧ (s'.gate l).state = (if g.holdWhy = 0 then .up else .hold) ∧ (s'.gate l).narrow = n ∧ (s'.gate l).half = hf ∧
          (s'.gate l).reversed = rev ∧ (s'.gate l).pchip = le f 16 1 ∧ (s'.gate l).plink = le f 18 1 % 32 ∧ (s'.gate l).nts = 0 ∧ (s'.gate l).ers = 0 ∧
          (s'.gate l).replay = [] ∧ (s'.gate l).rnum = 0 ∧ (∀ v : Fin 8, get 0 v (s'.gate l).plimit = le f (24 + 2 * v) 2 % 2048) ∧ s'.hobs = s.hobs)) ∧
      (le f 19 1 ≠ 1 → exec (.trainComplete l r) s = .next ((s.setGate l { g with state := .down, rested := false }).log 0x0602 .fabric (.link l) none [l, 1]))) ∧
    (laneOrder r.frames = none ∨ linkWidth (goodLanes r) = none → g.trainLogged = true →
      exec (.trainComplete l r) s = .next (s.setGate l { g with state := .down, rested := false, trainLogged := true })) := by
  subst hg hf
  have hexec {y : State} (h : s.trainComplete l r = y) (hy : y.settled = true) : exec (.trainComplete l r) s = .next y := by
    simp only [exec, execTrainComplete, h]
    exact ends_settled y hy
  refine ⟨fun rev n hf ho hw h6 => ⟨fun h1 h2 h3 h4 => ?_, fun h1 => ?_⟩, fun hno hlog => hexec ((trainComplete_unclear ht hno).trans (trainFail_logged hlog)) hset⟩
  · have hjudge := trainComplete_good ht ho hw h6 (judgeParams_good h1 h2 h3 h4)
    refine ⟨fun h7 => hexec (hjudge.trans ((if_neg h7).trans (sendFrames_eq s l 7 r.good))) hset, fun h7 => ?_⟩
    have hlink := hjudge.trans (if_pos h7)
    rw [sendFrames_eq] at hlink
    obtain ⟨o, ho⟩ : ∃ o, o = s.out ++ (List.range 8).map fun m => Out.lane l m (s.trainFrame l m 7 r.good) := ⟨_, rfl⟩
    rw [← ho] at hlink
    obtain ⟨s', hends, hcore, hhobs⟩ := ends_gate (s := { s with out := o }) hset hs (calm_linkUp _ l (partnerFrame r) rev r.polarity n hf)
    have hex : exec (.trainComplete l r) s = .next s' := by
      simp only [exec, execTrainComplete, hlink]
      exact hends
    have hfield {α : Type} (p : Gate → α) : p (s'.gate l).core = p ((s.gate l).trained (partnerFrame r) rev r.polarity n hf).core := congrArg p hcore
    exact ⟨s', hex, hfield Gate.state, hfield Gate.narrow, hfield Gate.half, hfield Gate.reversed, hfield Gate.pchip, hfield Gate.plink, hfield Gate.nts, hfield Gate.ers, hfield Gate.replay,
      hfield Gate.rnum, fun v => (hfield fun g => get 0 v g.plimit).trans (trained_plimit _ _ _ _ _ _ v), hhobs⟩
  · exact hexec (trainComplete_mismatch ht ho hw h6 (if_pos h1)) ((settled_log (by exact hm) _ _ _ _ _).trans hset)
/-- SILENCE, CREDIT_TIMEOUT, LANE_FAILURE and DRAIN_TIMEOUT. -/
theorem linkStates_left (l : Fin 20) (v : Fin 8) (m : Fin 8) (s : State) (g : Gate) (hset : s.settled = true) (hs : s.canon = true) (hg : g = s.gate l) (hstop : s.clk.inStop = 0)
    (hon : s.mantelOff = false) :
    (g.state = .up → g.phold = false →
      ∃ s', exec (.silence l) s = .next s' ∧ (s'.gate l).state = (if g.disDue then .down else .broken) ∧ (s'.gate l).brk = 3 ∧ (s'.gate l).replay = [] ∧ s'.hobs = s.hobs) ∧
    (g.state = .up → g.phold = false → g.starves v = true →
      ∃ s', exec (.creditTimeout l v) s = .next s' ∧ (s'.gate l).state = (if g.disDue then .down else .broken) ∧ (s'.gate l).brk = 2 ∧ (s'.gate l).replay = [] ∧ s'.hobs = s.hobs) ∧
    (g.state = .up → g.narrow = true → g.half = decide (4 ≤ m.val) →
      ∃ s', exec (.laneFailure l m) s = .next s' ∧ (s'.gate l).state = (if g.disDue then .down else .broken) ∧ (s'.gate l).brk = 6 ∧ (s'.gate l).replay = [] ∧ s'.hobs = s.hobs) ∧
    (g.state = .up → g.narrow = false → g.failed = 0 → g.pnarrow = false →
      exec (.laneFailure l m) s = .next (s.setGate l { g with failed := BitVec.twoPow 8 m.val, narrowReq := true, narrowSent := g.narrowSent && g.narrowReq, narrowHalf := decide (m.val < 4) })) ∧
    (g.state = .drain → ∃ s', exec (.drainTimeout l) s = .next s' ∧ (s'.gate l).state = .down ∧ (s'.gate l).replay = [] ∧ s'.hobs = s.hobs) := by
  subst hg
  have hbreak (r : Nat) (hup : (s.gate l).state = .up) := ends_linkBreak (l := l) (r := r) hset hs (by simp [Gate.upOrHold, hup])
  refine ⟨fun hup hp => ?_, fun hup hp hv => ?_, fun hup hn hh => ?_, fun hup hn hf hp => ?_, fun hd => ?_⟩
  · simp only [exec, execSilence, silence_up hup hp]
    exact hbreak 3 hup
  · simp only [exec, execCreditTimeout, counted_running hstop hon, creditTimeout_up hup hp hv]
    exact hbreak 2 hup
  · simp only [exec, execLaneFailure, laneFail_narrow hup hn hh]
    exact hbreak 6 hup
  · simp only [exec, execLaneFailure, laneFail_first hs m hup hn hf hp]
    exact ends_settled _ hset
  · simp only [exec, execDrainTimeout, counted_running hstop hon, drainTimeout_drain hd]
    obtain ⟨s', hends, hcore, hhobs⟩ := ends_gate hset hs (calm_declareLost _ l _ (calm_linkDown_self s l))
    exact ⟨s', hends, congrArg Gate.state hcore, congrArg Gate.replay hcore, hhobs⟩
/-- Settles O42: training and its end by the gate's equations; the ways out of UP through the frame of the command's end. -/
theorem linkStates : Obligations.LinkStates := ⟨linkStates_training, linkStates_trained, linkStates_left⟩

end Sys2Proof.Machine
end

section
/-! STK_BEAT counts a beat (R159, R187, R188): what follows an increment is calm. -/
namespace Sys2Proof.Machine

/-! ### What is judged with every beat -/

theorem calm_settleChan {K : Nat} {F : Prop} {G : Nat → Prop} {z : State} (s : State) (c : Nat) (h0 : Calm K F G z s) : Calm K F G z (State.settleChan s c) := by
  unfold State.settleChan
  repeat' first
    | with_reducible assumption
    | (extract_lets +onlyGivenNames x; subst x)
    | with_reducible apply calm_setChan
    | split

theorem calm_closeChimney {K : Nat} {F : Prop} {G : Nat → Prop} {z : State} (s : State) (c : Nat) (h0 : Calm K F G z s) : Calm K F G z (State.closeChimney s c) := by
  unfold State.closeChimney
  repeat' first
    | with_reducible assumption
    | with_reducible apply calm_setChan
    | with_reducible apply calm_setChim

theorem calm_settleChimney {K : Nat} {F : Prop} {G : Nat → Prop} {z : State} (s : State) (c : Nat) (h0 : Calm K F G z s) : Calm K F G z (State.settleChimney s c) := by
  unfold State.settleChimney
  repeat' first
    | with_reducible assumption
    | (extract_lets +onlyGivenNames x; subst x)
    | with_reducible apply calm_closeChimney
    | split

theorem calm_closeChan {K : Nat} {F : Prop} {G : Nat → Prop} {z : State} (s : State) (c : Nat) (why : Nat) (h0 : Calm K F G z s) : Calm K F G z (State.closeChan s c why) := by
  unfold State.closeChan
  repeat' first
    | with_reducible assumption
    | with_reducible apply calm_setChan
    | with_reducible apply calm_setChim
    | with_reducible apply calm_settleChan
    | with_reducible apply calm_settleChimney
    | split
    | with_reducible refine calm_mk ?_ rfl

theorem calm_chApply {K : Nat} {F : Prop} {G : Nat → Prop} {z : State} (s : State) (c : Nat) (h0 : Calm K F G z s) : Calm K F G z (State.chApply s c) := by
  unfold State.chApply
  repeat' first
    | with_reducible assumption
    | with_reducible intro _
    | with_reducible apply calm_setChan
    | with_reducible apply calm_closeChan
    | with_reducible apply calm_foldl
    | split

theorem calm_burstSeverity {K : Nat} {F : Prop} {G : Nat → Prop} {z : State} (s : State) (q : Nat) (p : Nat) (a : Nat) (sev : Nat) (h0 : Calm K F G z s) : Calm K F G z (State.burstSeverity s q p a sev) := by
  unfold State.burstSeverity
  repeat' first
    | with_reducible assumption
    | with_reducible apply calm_log
    | with_reducible apply calm_setStn
    | split

theorem calm_readBurst {K : Nat} {F : Prop} {G : Nat → Prop} {z : State} (s : State) (q : Nat) (p : Nat) (a : Nat) (sev : Nat) (h0 : Calm K F G z s) : CalmP K F G z (State.readBurst s q p a sev) := by
  unfold State.readBurst
  repeat' first
    | with_reducible assumption
    | with_reducible apply calm_burstSeverity
    | split
    | with_reducible apply calmP_mk

theorem calm_playCmd {K : Nat} {F : Prop} {G : Nat → Prop} {z : State} (hF : F) (s : State) (q : Nat) (c : HCmd) (h0 : Calm K F G z s) : Calm K F G z (State.playCmd s q c) := by
  fun_cases State.playCmd s q c
  · exact calm_setStn _ _ _ (calm_of_pair ‹_ = (_, _)› (calm_readBurst _ _ _ _ _ h0))
  · exact calm_consumePoison _ _ _ (calm_placeBurst hF _ _ _ _ h0)
  · exact calm_placeBurst hF _ _ _ _ h0
  · exact calm_setStn _ _ _ h0
  · exact calm_setStn _ _ _ h0
  · exact h0

theorem calm_readLinesHbm {K : Nat} {F : Prop} {G : Nat → Prop} {z : State} (s : State) (q : Nat) (p : Nat) (a : Nat) (x0 : Nat) (x1 : List Nat) (h0 : Calm K F G z s) : CalmP K F G z (State.readLinesHbm s q p a x0 x1) := by
  induction x0 generalizing s q p a x1 with
  | zero =>
   unfold State.readLinesHbm
   repeat' first
    | with_reducible assumption
    | with_reducible apply calmP_mk
  | succ n ih =>
   unfold State.readLinesHbm
   repeat' first
    | with_reducible assumption
    | with_reducible apply calm_readBurst
    | with_reducible apply ih
    | split
    | with_reducible apply calmP_mk
    | (with_reducible refine calm_of_pair ‹_ = (_, _)› ?_)

theorem calm_writeLines {K : Nat} {F : Prop} {G : Nat → Prop} {z : State} (hF : F) (s : State) (a : Nat) (x0 : Bytes) (x1 : List Bool) (h0 : Calm K F G z s) : Calm K F G z (State.writeLines s a x0 x1) := by
  induction x1 generalizing s a x0 with
  | nil =>
   unfold State.writeLines
   repeat' first
    | with_reducible assumption
  | cons x r ih =>
   unfold State.writeLines
   repeat' first
    | with_reducible assumption
    | with_reducible apply calm_placeLine
    | with_reducible apply ih

theorem calm_serveLoad {K : Nat} {F : Prop} {G : Nat → Prop} {z : State} (hF : F) (s : State) (q : Nat) (l : Load) (ecc : List Nat) (h0 : Calm K F G z s) : Calm K F G z (State.serveLoad s q l ecc) := by
  unfold State.serveLoad
  repeat' first
    | with_reducible assumption
    | with_reducible apply calm_consumePoison
    | with_reducible apply calm_setStn
    | with_reducible apply calm_readLinesHbm
    | with_reducible apply calm_writeLines
    | with_reducible apply calm_fst
    | split

theorem calm_serveDue {K : Nat} {F : Prop} {G : Nat → Prop} {z : State} (hF : F) (s : State) (q : Nat) (due : Nat → Bool) (h0 : Calm K F G z s) : Calm K F G z (State.serveDue s q due) := by
  unfold State.serveDue
  repeat' first
    | with_reducible assumption
    | with_reducible intro _
    | with_reducible apply calm_setStn
    | with_reducible apply calm_serveLoad
    | with_reducible apply calm_foldl

theorem calm_playDue {K : Nat} {F : Prop} {G : Nat → Prop} {z : State} (hF : F) (s : State) (q : Nat) (due : Nat → Bool) (h0 : Calm K F G z s) : Calm K F G z (State.playDue s q due) := by
  unfold State.playDue
  repeat' first
    | with_reducible assumption
    | with_reducible intro _
    | with_reducible apply calm_setStn
    | with_reducible apply calm_playCmd
    | with_reducible apply calm_serveDue
    | with_reducible apply calm_foldl

theorem calm_playAll {K : Nat} {F : Prop} {G : Nat → Prop} {z : State} (hF : F) (s : State) (q : Nat) (h0 : Calm K F G z s) : Calm K F G z (State.playAll s q) := by
  unfold State.playAll
  repeat' first
    | with_reducible assumption
    | with_reducible apply calm_playDue

theorem calm_enterSelfref {K : Nat} {F : Prop} {G : Nat → Prop} {z : State} (hF : F) (s : State) (q : Nat) (h0 : Calm K F G z s) : Calm K F G z (State.enterSelfref s q) := by
  unfold State.enterSelfref
  repeat' first
    | with_reducible assumption
    | with_reducible apply calm_setStn
    | with_reducible apply calm_playAll

theorem calm_judgeDeadlines {K : Nat} {F : Prop} {G : Nat → Prop} {z : State} (s : State) (h0 : Calm K F G z s) : Calm K F G z (State.judgeDeadlines s) := by
  unfold State.judgeDeadlines
  repeat' first
    | with_reducible assumption
    | with_reducible intro _
    | with_reducible apply calm_ownMsg
    | with_reducible apply calm_setEntry
    | with_reducible apply calm_foldl
    | with_reducible apply calm_fst
    | split
    | with_reducible refine calm_mk ?_ rfl

theorem calm_sendTelemetry {K : Nat} {F : Prop} {G : Nat → Prop} {z : State} (hF : F) (s : State) (h0 : Calm K F G z s) : Calm K F G z (State.sendTelemetry s) := by
  unfold State.sendTelemetry
  repeat' first
    | with_reducible assumption
    | with_reducible apply calm_sendOwn
    | split
    | with_reducible refine calm_mk ?_ rfl
    | exact (by decide : opDmsg ≠ opMgmt)

/-! ### The increment -/

/-- The counts of beats, those of discarded packets, and whether the part goes down. -/
def State.beatFacts (s : State) : Stoker × Word × Word × Bool := (s.stk.counts, s.rt.hopdrop, s.rt.hopdropSeen, s.pwr.sleeping)
/-- No deploy message is in work, and the part has sent itself nothing of the management partition. -/
def State.atRest (s : State) : Prop := s.boot.work = [] ∧ ∀ p ∈ s.loopback, p.op ≠ opMgmt
theorem beatFacts_of_calm {K : Nat} {F : Prop} {G : Nat → Prop} {s t : State} (h : Calm K F G s t) : t.beatFacts = s.beatFacts :=
  congrArg (fun c => (c.2.2.2.2.2.1, c.2.2.2.2.2.2.1, c.2.2.2.2.2.2.2, c.2.2.1.sleeping)) h.core
theorem atRest_of_calm {K : Nat} {F : Prop} {G : Nat → Prop} {s t : State} (h : Calm K F G s t) (hs : s.atRest) : t.atRest := ⟨h.work hs.1, h.noMgmt hs.2⟩
/-- No gate is watched. -/
abbrev noGate : Nat → Prop := fun _ => False
/-- The state in which `b` says whether local stall stands, the run of stall beats one longer. -/
def State.stalled (s : State) (b : Bool) : State :=
  { s with stk := { s.stk with sb := min (s.stk.sb + 1) 0xFFFF, rid := if s.stk.sb = 0 then (if s.stk.rid + 1 = 0xFFFFFFFF then 0 else s.stk.rid + 1) else s.stk.rid, localStall := b } }
/-- Local stall begins. -/
theorem calm_enterStall (s : State) (k : Stoker) : Calm 2 True noGate { s with stk := { k with localStall := true } } ({ s with stk := k } : State).enterStall := by
  unfold State.enterStall
  dsimp only
  split
  · exact calm_of_rest calm_refl rfl
  · exact calm_sendStall trivial _ _ _ _ _ _ calm_refl
/-- A stall beat is counted, and local stall may begin. -/
theorem calm_countStall (s : State) : ∃ b, Calm 2 True noGate (s.stalled b) (s.countStall true) := by
  unfold State.countStall
  simp only [if_true]
  split
  · exact ⟨true, calm_enterStall s { s.stk with sb := min (s.stk.sb + 1) 0xFFFF, rid := if s.stk.sb = 0 then (if s.stk.rid + 1 = 0xFFFFFFFF then 0 else s.stk.rid + 1) else s.stk.rid }⟩
  · exact ⟨s.stk.localStall, calm_refl⟩
/-- The events of a beat are logged, and the packets discarded for want of hops are told apart from those still to come. -/
theorem beatEvents_spec (s : State) : ∃ t f, Calm 2 True noGate s t ∧ s.beatEvents = { t with rt := { t.rt with hopdropSeen := t.rt.hopdrop }, flg := f } := by
  unfold State.beatEvents
  extract_lets s1 s2 s3 s4 s5
  have h1 : Calm 2 True noGate s s1 := by
    unfold s1
    split
    · exact calm_log _ _ _ _ _ _ calm_refl
    · exact calm_refl
  have h2 : Calm 2 True noGate s s2 := by
    refine calm_foldl h1 fun t e ht => ?_
    split
    · exact calm_log _ _ _ _ _ _ ht
    · exact ht
  have h3 : Calm 2 True noGate s s3 := by
    unfold s3
    split
    · exact calm_log _ _ _ _ _ _ h2
    · exact h2
  have h4 : Calm 2 True noGate s s4 := by
    refine calm_foldl h3 fun t q ht => ?_
    dsimp only
    split
    · exact calm_setStn _ _ _ (calm_log _ _ _ _ _ _ ht)
    · exact ht
  have h5 : Calm 2 True noGate s s5 := by
    unfold s5
    split
    · exact calm_log _ _ _ _ _ _ h4
    · exact h4
  exact ⟨s5, _, h5, rfl⟩
/-- A quarter that stops for SIMMER. -/
theorem calm_haltQuarter {z : State} (s : State) (q : Nat) (h0 : Calm 2 True noGate z s) : Calm 2 True noGate z (s.haltQuarter q 1) := by
  unfold State.haltQuarter
  exact calm_sinksRest _ _ (calm_enterSelfref trivial _ _ (calm_foldl (calm_setRange _ _ h0 rfl) fun t l ht => calm_setGate_out l _ ht id))
/-- SIMMER that is requested with a beat touches neither the counts nor what waits. -/
theorem simmerIfDue_facts (s : State) : s.simmerIfDue.beatFacts = s.beatFacts ∧ (s.atRest → s.simmerIfDue.atRest) := by
  unfold State.simmerIfDue
  split
  · unfold State.requestSimmer
    extract_lets src src' src'' s1
    have hstops : ∀ (t : State) (q : Nat), Calm 2 True noGate s1 t → Calm 2 True noGate s1 (if (t.range q).halted then ((gatesOf q).foldl (fun s l => s.setGate l ((s.gate l).holdFor 1)) t).sinksRest q
        else if (t.range q).phase = .seam then t.haltQuarter q 1 else t) := by
      intro t q ht
      split
      · exact calm_sinksRest _ _ (calm_foldl ht fun t l ht => calm_setGate_out l _ ht id)
      · split
        · exact calm_haltQuarter t q ht
        · exact ht
    have h := calm_foldl (l := List.range 4) (calm_refl : Calm 2 True noGate s1 s1) hstops
    have hfacts := beatFacts_of_calm h
    exact ⟨hfacts, fun hs => atRest_of_calm h (show s1.atRest from hs)⟩
  · exact ⟨rfl, id⟩
theorem stalled_counts (s : State) (b : Bool) : (s.stalled b).stk.counts =
    { s.stk.counts with sb := min (s.stk.counts.sb + 1) 0xFFFF, rid := if s.stk.counts.sb = 0 then (if s.stk.counts.rid + 1 = 0xFFFFFFFF then 0 else s.stk.counts.rid + 1) else s.stk.counts.rid, localStall := b } := rfl
theorem countStall_false_counts (s : State) : (s.countStall false).stk.counts = { s.stk.counts with sb := 0, localStall := false } := rfl
/-- The counts that a beat leaves behind, `stall` saying whether it was a stall beat. -/
def Stoker.beaten (k : Stoker) (stall b : Bool) : Stoker :=
  { k.counts with
    beat := k.beat + 1, tickDue := false, ranNow := false, tookNow := false,
    sb := if stall then min (k.sb + 1) 0xFFFF else 0,
    rid := if stall then (if k.sb = 0 then (if k.rid + 1 = 0xFFFFFFFF then 0 else k.rid + 1) else k.rid) else k.rid, localStall := stall && b }
/-- An increment of STK_BEAT. -/
theorem beatTick_facts (s : State) (stall : Bool)
    (hstall : stall = (!s.stk.ranNow && !(List.range 4).any (fun q => (s.range q).phase == .run || ((s.range q).phase == .seam && (s.range q).valid)) && !s.stk.tookNow && !s.stk.progress &&
      s.stk.entries.any fun e => e.2.state == .armed)) :
    (∃ b, s.beatTick.stk.counts = s.stk.beaten stall b) ∧ s.beatTick.rt.hopdropSeen = s.beatTick.rt.hopdrop ∧ s.beatTick.pwr.sleeping = s.pwr.sleeping ∧ (s.atRest → s.beatTick.atRest) := by
  unfold State.beatTick
  extract_lets k ran idle stall' s0 s1 s2 s3 s4
  have hst : stall' = stall := by
    rw [hstall]
    simp only [stall', idle, ran, k, Bool.not_or]
  have h2 : Calm 2 True noGate s0 s2 := calm_judgeDeadlines _ (calm_foldl calm_refl fun t e ht => calm_chApply t e.1 ht)
  obtain ⟨t2, ht2⟩ : ∃ t, t = s2.countStall stall' := ⟨_, rfl⟩
  have hcount : (∃ b, t2.stk.counts = s.stk.beaten stall b) ∧ t2.pwr.sleeping = s.pwr.sleeping ∧ (s.atRest → t2.atRest) := by
    have hfacts := beatFacts_of_calm h2
    rw [ht2, hst]
    cases stall with
    | true =>
      obtain ⟨b, hb⟩ := calm_countStall s2
      have hfacts' := beatFacts_of_calm hb
      simp only [State.beatFacts, Prod.mk.injEq] at hfacts hfacts'
      obtain ⟨hk, -, -, hsl⟩ := hfacts
      obtain ⟨hk', -, -, hsl'⟩ := hfacts'
      refine ⟨⟨b, ?_⟩, hsl'.trans hsl, fun hs => ?_⟩
      · rw [hk', stalled_counts, hk]
        rfl
      · have h := atRest_of_calm h2 (show s0.atRest from hs)
        exact atRest_of_calm hb (show (s2.stalled b).atRest from h)
    | false =>
      simp only [State.beatFacts, Prod.mk.injEq] at hfacts
      obtain ⟨hk, -, -, hsl⟩ := hfacts
      refine ⟨⟨false, ?_⟩, hsl, fun hs => ?_⟩
      · rw [countStall_false_counts, hk]
        rfl
      · have h := atRest_of_calm h2 (show s0.atRest from hs)
        exact (show (s2.countStall false).atRest from h)
  obtain ⟨t3, f, hc3, he3⟩ := beatEvents_spec t2
  have hs3 : s3 = { t3 with rt := { t3.rt with hopdropSeen := t3.rt.hopdrop }, flg := f } := by rw [← he3, ht2]
  have h4 : Calm 2 True noGate s3 s4 := calm_checkLeader _ (calm_sendTelemetry trivial _ calm_refl)
  have hfacts3 := beatFacts_of_calm hc3
  have hfacts4 := beatFacts_of_calm h4
  obtain ⟨hfacts5, hrest5⟩ := simmerIfDue_facts s4
  rw [hs3] at hfacts4
  simp only [State.beatFacts, Prod.mk.injEq] at hfacts3 hfacts4 hfacts5
  obtain ⟨hk3, -, -, hsl3⟩ := hfacts3
  obtain ⟨hk4, hh4, hn4, hsl4⟩ := hfacts4
  obtain ⟨hk5, hh5, hn5, hsl5⟩ := hfacts5
  obtain ⟨⟨b, hb⟩, hsl, hrest⟩ := hcount
  refine ⟨⟨b, ?_⟩, ?_, ?_, fun hs => hrest5 (atRest_of_calm h4 ?_)⟩
  · rw [hk5, hk4, hk3, hb]
  · rw [hn5, hn4, hh5, hh4]
  · rw [hsl5, hsl4, hsl3, hsl]
  · rw [hs3]
    have h := atRest_of_calm hc3 (hrest hs)
    exact (show State.atRest _ from h)

theorem tick_due {s : State} (hstart : s.stk.started = true) (hdue : s.stk.tickDue = true ∨ s.pwr.simmer = true ∧ (s.range 0).halted = true) : s.tick = s.beatTick := by
  rw [State.tick, if_pos]
  rcases hdue with h | ⟨h, h'⟩
  · simp [hstart, h]
  · simp [hstart, h, h']
/-- Settles O35: the counts are written before anything else of the beat, and what follows the count, with the end of the command, keeps them. -/
theorem beatCounts : Obligations.BeatCounts := by
  intro s stall hset _ hoff hstart hdue hstall
  obtain ⟨⟨b, hb⟩, hhop, hsl, hrest⟩ := beatTick_facts s stall hstall
  obtain ⟨hwork, -, hdown, hloop, -⟩ : s.boot.work = [] ∧ _ ∧ s.goingDown = false ∧ s.loopback = [] ∧ _ := by
    obtain ⟨-, -, -, h1, h2, h3, h4, h5⟩ := (settled_iff s).mp hset
    exact ⟨h1, h2, h3, h4, h5⟩
  have hrest' : s.beatTick.atRest := hrest ⟨hwork, by rw [hloop]; simp⟩
  have hsleep : s.beatTick.pwr.sleeping = false := hsl.trans ((Bool.or_eq_false_iff.mp hdown).2)
  obtain ⟨s', he, hc⟩ := ends_calm hrest'.1 hsleep hrest'.2
  have hexec : exec .stkBeatTick s = .next s' := by
    rw [exec, execStkBeatTick, if_neg (by rw [hoff]; exact Bool.false_ne_true), tick_due hstart hdue]
    exact he
  have hfacts := beatFacts_of_calm hc
  simp only [State.beatFacts, Prod.mk.injEq] at hfacts
  obtain ⟨hk, hh, hn, -⟩ := hfacts
  have hcounts : s'.stk.counts = s.stk.beaten stall b := hk.trans hb
  refine ⟨s', hexec, congrArg Stoker.beat hcounts, congrArg Stoker.tickDue hcounts, congrArg Stoker.ranNow hcounts, congrArg Stoker.tookNow hcounts, congrArg Stoker.sb hcounts,
    fun hf => ?_, fun ht hz => ?_, by rw [hn, hh, hhop]⟩
  · have h := congrArg Stoker.localStall hcounts
    rw [hf] at h
    exact h
  · have h : s'.stk.counts.rid = _ := congrArg Stoker.rid hcounts
    change s'.stk.rid = _ at h
    simp only [Stoker.beaten, ht, hz, if_true] at h
    rw [h]
    split
    · decide
    · assumption

end Sys2Proof.Machine
end
section
/-! The requests of deploy messages: how the one judged next is performed, and the end of a command while its message is in work (R446, R447). -/
namespace Sys2Proof.Machine

/-- The state with no deploy message in work. -/
def State.workless (s : State) : State := { s with boot := { s.boot with work := [] } }
/-- The front request of the one message in work is performed at once. -/
theorem perform_front {s : State} {m : DMsg} {ty : Nat} {b : Bytes} {rest : List (Nat × Bytes)} (hset : s.workless.settled = true) (hsvc : s.svc.fatalSvc = false) (hwork : s.boot.work = [m])
    (hrestart : m.restart = false) (hwaits : (s.boot.waits.any fun w => w.1 == 0) = false) (hreqs : m.reqs = (ty, b) :: rest) (f : State → Nat → Nat → Bytes → State × Option DResult) :
    s.perform ty f = (f s m.dseq m.results.length b).1.judged m.dseq (f s m.dseq m.results.length b).2 := by
  have hdown : s.goingDown = false := ((settled_iff _).mp hset).2.2.2.2.2.1
  have hon : s.ethOff = false := by
    rw [State.ethOff]
    simp only [State.goingDown, Bool.or_eq_false_iff, beq_eq_false_iff_ne] at hdown
    simp [hdown]
  have hnext : s.nextReq = some (m, ty, b) := by simp [State.nextReq, hwaits, hwork, hreqs]
  simp only [State.perform, hnext, hrestart, hsvc, hon, and_self, if_true]
theorem perform_next {s : State} {m : DMsg} {ty : Nat} {b : Bytes} (h : s.nextIs m ty b) (f : State → Nat → Nat → Bytes → State × Option DResult) :
    s.perform ty f = (f s m.dseq m.results.length b).1.judged m.dseq (f s m.dseq m.results.length b).2 := by
  obtain ⟨hset, hsvc, hwork, hrestart, hwaits, r, rest, hreqs, -⟩ := h
  exact perform_front hset hsvc hwork hrestart hwaits hreqs f
/-- While the one message in work waits for the judgement of a request of a known RTYPE, the end of a command sends the mirror messages and does nothing else. -/
theorem ends_busy {y : State} {m : DMsg} {r : Nat × Bytes} {rest : List (Nat × Bytes)} (hset : y.workless.settledButMirror = true) (hwork : y.boot.work = [m]) (hreqs : m.reqs = r :: rest)
    (hrestart : m.restart = false) (hknown : knownReq r.1 = true) : y.ends = .next y.flush := by
  have hflush := flush_sameButMessages y
  obtain ⟨h1, h2, h3, -, h6, h7, h8⟩ := (settledButMirror_iff y.workless).mp hset
  have hloop : y.flush.loopback = [] := by rw [hflush.rest]; exact h7
  have hexit : (!y.flush.pwr.simmer || y.flush.pwr.exiting.isSome) = true := by rw [hflush.rest]; exact h8
  have hshut : y.shutdown = y := if_neg (by rw [show y.goingDown = false from h6]; exact Bool.false_ne_true)
  have hunknown (n : Nat) : y.answerUnknown n = y := by
    cases n with
    | zero => rfl
    | succ n =>
      rw [State.answerUnknown]
      split
      next m' t b' hn =>
        have hm : m' = m ∧ t = r.1 := by
          unfold State.nextReq at hn
          split at hn
          · exact absurd hn (by simp)
          · simp only [hwork, List.find?_cons, hreqs, List.isEmpty_cons, Bool.not_false, List.head?_cons, Option.map_some, Option.some.injEq, Prod.mk.injEq] at hn
            exact ⟨hn.1.symm, hn.2.1.symm⟩
        simp [hm, hrestart, hknown]
      · rfl
  have hreply : y.sendReplies 1 = y := by simp [State.sendReplies, hwork, DMsg.answered, hreqs]
  have hdone : y.done = y.flush := by
    simp only [State.done, transHome_quiet y h1, triggers_quiet y h2, closeEpoch_quiet y h3, hunknown]
    rw [show y.boot.work.length = 1 by rw [hwork]; rfl, hreply, triggers_quiet y h2]
  rw [State.ends, deliverLocal_quiet y 4 h7, hshut, hdone, deliverLocal_quiet _ 4 hloop, decideExit_quiet _ hexit]
theorem work_judged {t : State} {m : DMsg} (h : t.boot.work = [m]) (r : Option DResult) :
    (t.judged m.dseq r).boot.work = [{ m with reqs := m.reqs.tail, results := m.results ++ [r] }] := by simp [State.judged, h]
/-- A request that leaves what waits as it was is answered, and the command ends with the mirror messages of what it logged. -/
theorem ends_judged {s t : State} {m : DMsg} {ty : Nat} {b : Bytes} (h : s.nextIs m ty b) (hwork : t.boot.work = s.boot.work) (hset : t.workless.settledButMirror = true) (r : Option DResult) :
    (t.judged m.dseq r).ends = .next (t.judged m.dseq r).flush := by
  obtain ⟨-, -, hw, hrestart, -, r', rest, hreqs, hknown⟩ := h
  exact ends_busy hset (work_judged (hwork.trans hw) r) (by rw [hreqs]; rfl) hrestart hknown
/-- The request judged next is performed and logs nothing for the mirror channel. -/
theorem perform_ends {s t : State} {m : DMsg} {ty : Nat} {b : Bytes} {r : Option DResult} {f : State → Nat → Nat → Bytes → State × Option DResult} (h : s.nextIs m ty b)
    (hf : f s m.dseq m.results.length b = (t, r)) (hwork : t.boot.work = s.boot.work) (hset : t.workless.settled = true) : (s.perform ty f).ends = .next (t.judged m.dseq r) := by
  have hmirror : t.svc.toMirror = [] := ((settled_iff _).mp hset).2.2.2.2.1
  rw [perform_next h, hf, ends_judged h hwork (settledButMirror_of_settled hset), flush_quiet (t.judged m.dseq r) hmirror]
/-- A request that only gets its answer. -/
theorem perform_refused {s : State} {m : DMsg} {ty : Nat} {b : Bytes} {r : Option DResult} {f : State → Nat → Nat → Bytes → State × Option DResult} (h : s.nextIs m ty b)
    (hf : f s m.dseq m.results.length b = (s, r)) : (s.perform ty f).ends = .next (s.judged m.dseq r) := perform_ends h hf rfl h.1
/-- A body of the right length that names a listed tenant. -/
theorem bodyFor_ok {s : State} {b : Bytes} {n o : Nat} (hn : b.length = n) (ht : (s.tenantRec (le b o 1)).isSome = true) (k : Nat → State × Option DResult) :
    s.bodyFor b n o k = k (le b o 1) := by
  rw [State.bodyFor, if_neg (by simp [hn]), if_neg (by simpa using Option.isSome_iff_ne_none.mp ht)]

end Sys2Proof.Machine
end
section
/-! Areas, data, staging and channels (R204, R211, R213, R251, R449, R450, R451). -/
namespace Sys2Proof.Machine

/-! ### Memory that is emptied -/

/-- Keys that a filter drops read as the default. -/
theorem get_filter {α : Type} [DecidableEq α] {d : α} {m : SMap α} (h : SMapWf d m = true) (p : Nat → Bool) (k : Nat) :
    get d k (m.filter fun e => p e.1) = if p k then get d k m else d := by
  induction m with
  | nil => simp [get]
  | cons e r ih =>
    obtain ⟨j, v⟩ := e
    have hr := smapWf_rises h
    have ih := ih (smapWf_tail h)
    by_cases hp : p j = true
    · rw [List.filter_cons_of_pos (by exact hp), get, ih, get]
      by_cases hk : k = j
      · simp [hk, hp]
      · by_cases hlt : k < j
        · simp [hk, hlt]
        · simp [hk, hlt]
    · rw [List.filter_cons_of_neg (by exact hp), ih]
      by_cases hk : k = j
      · simp [hk, hp]
      · rw [get, if_neg hk]
        by_cases hlt : k < j
        · have hbelow : get d k r = d := get_below fun x hx => Nat.lt_trans hlt (hr x hx)
          simp [hlt, hbelow]
        · simp [hlt]
theorem mem_zeroRange (s : State) (a n : Nat) : (s.zeroRange a n).mem = s.mem.filter fun e => decide (e.1 < a) || decide (a + n ≤ e.1) := by
  unfold State.zeroRange
  extract_lets out s1
  split <;> rfl
/-- The bytes of stretches that are made zero, and no others. -/
theorem readByte_zeroRanges (l : List (Nat × Nat)) {s : State} (h : Memory.wf s.mem = true) (k : Nat) :
    ((∃ e ∈ l, e.1 ≤ k ∧ k < e.1 + e.2) → readByte (l.foldl (fun s e => s.zeroRange e.1 e.2) s).mem k = 0) ∧
    ((∀ e ∈ l, k < e.1 ∨ e.1 + e.2 ≤ k) → readByte (l.foldl (fun s e => s.zeroRange e.1 e.2) s).mem k = readByte s.mem k) := by
  induction l generalizing s with
  | nil => exact ⟨fun ⟨e, he, _⟩ => absurd he (by simp), fun _ => rfl⟩
  | cons e r ih =>
    have hwf : Memory.wf (s.zeroRange e.1 e.2).mem = true := by rw [mem_zeroRange]; exact smapWf_filter _ h
    have hread : readByte (s.zeroRange e.1 e.2).mem k = if (decide (k < e.1) || decide (e.1 + e.2 ≤ k)) then readByte s.mem k else 0 := by
      rw [mem_zeroRange, readByte, get_filter h (fun j => decide (j < e.1) || decide (e.1 + e.2 ≤ j))]
      rfl
    obtain ⟨hin, hout⟩ := ih hwf
    rw [List.foldl_cons]
    refine ⟨fun ⟨x, hx, hk⟩ => ?_, fun hk => ?_⟩
    · by_cases hr : ∃ y ∈ r, y.1 ≤ k ∧ k < y.1 + y.2
      · exact hin hr
      · have hxe : x = e := (List.mem_cons.mp hx).resolve_right fun h => hr ⟨x, h, hk⟩
        have hno : ∀ y ∈ r, k < y.1 ∨ y.1 + y.2 ≤ k := fun y hy => by
          have h : ¬(y.1 ≤ k ∧ k < y.1 + y.2) := fun hc => hr ⟨y, hy, hc⟩
          omega
        subst hxe
        rw [hout hno, hread, if_neg (by simp; omega)]
    · rw [hout fun y hy => hk y (by simp [hy]), hread, if_pos (by simpa using hk e (by simp))]

/-! ### Data -/

theorem bare_placeRaw (s : State) (a : Nat) (b : Bytes) : (s.placeRaw a b).bare = s.bare ∧ (s.placeRaw a b).mem = writeBytes s.mem a b := by
  have hclean (t : State) (c : Nat) : (t.ptabClean c).bare = t.bare ∧ (t.ptabClean c).mem = t.mem :=
    ⟨by rw [(SamePlaces.ptabClean t c).rest]; rfl, mem_ptabClean t c⟩
  unfold State.placeRaw
  extract_lets s1
  have hfold {f : State → Nat → State} (hf : ∀ t j, (f t j).bare = t.bare ∧ (f t j).mem = t.mem) (l : List Nat) : (l.foldl f s1).bare = s.bare ∧ (l.foldl f s1).mem = writeBytes s.mem a b :=
    ⟨foldl_leaves State.bare (fun t j => (hf t j).1) l s1, foldl_leaves State.mem (fun t j => (hf t j).2) l s1⟩
  split
  · refine hfold (fun t j => ?_) _
    dsimp only
    split
    · exact hclean t _
    · exact ⟨rfl, rfl⟩
  · refine hfold (fun t j => ?_) _
    dsimp only
    split <;> exact ⟨rfl, rfl⟩
/-- One bit names one stack. -/
theorem testBit_stacks {i : Nat} (hi : i < 4) : (List.range 32).filter (fun j => (2 ^ i).testBit j) = [i] := by
  have h : ∀ i : Fin 4, (List.range 32).filter (fun j => (2 ^ i.val).testBit j) = [i.val] := by decide
  exact h ⟨i, hi⟩

/-! ### Channels -/

/-- A channel that has just been opened. -/
def ChAttr.opened (a : ChAttr) (rp : Word) (k : Nat) : Channel :=
  { state := .opened, chimney := a.chimney, notifyEn := a.notifyEn, tenant := a.tenant, msglog := a.msglog, ringlog := a.ringlog, base := a.base, rpflag := a.rpflag, notify := a.notify,
    wp := rp, ac := rp, everOpen := true, k := if a.chimney then k else 0, kValid := a.chimney, kn := a.n, klines := a.csize / 64, kfmt := a.fmt }
theorem openChan_rest (s : State) (a : ChAttr) : ∃ b ks, s.openChan a =
    { s with flg := { s.flg with chans := put {} a.channel (a.opened (s.flag a.rpflag) s.freeChimney) s.flg.chans, chims := ks }, stk := { s.stk with progress := b } } := by
  obtain ⟨b, hb⟩ : ∃ b, (if s.depth (s.chan a.channel) ≠ 0 then (s.setChan a.channel (a.opened (s.flag a.rpflag) s.freeChimney)).chanProgress a.channel
      else s.setChan a.channel (a.opened (s.flag a.rpflag) s.freeChimney)) =
      { s.setChan a.channel (a.opened (s.flag a.rpflag) s.freeChimney) with stk := { s.stk with progress := b } } := by
    split
    · exact chanProgress_rest (s.setChan a.channel (a.opened (s.flag a.rpflag) s.freeChimney)) a.channel
    · exact ⟨s.stk.progress, rfl⟩
  have hopen (t : State) (k : Nat) (y : Chimney) : ∃ ks, (if a.chimney then t.setChim k y else t) = { t with flg := { t.flg with chims := ks } } := by
    split
    · exact ⟨_, rfl⟩
    · exact ⟨t.flg.chims, rfl⟩
  obtain ⟨ks, hks⟩ := hopen { s.setChan a.channel (a.opened (s.flag a.rpflag) s.freeChimney) with stk := { s.stk with progress := b } } s.freeChimney
    { used := true, fmt := a.fmt, ordered := a.ordered == 1, fwdEn := a.fwdEn == 1, n := a.n, clines := a.csize / 64,
      stages := a.stages, stage := a.stage, pchip := a.pchip, pidx := a.pidx, pchan := a.pchan, chan := a.channel, cc0 := s.flag a.rpflag }
  refine ⟨b, ks, .trans ?_ hks⟩
  rw [← hb]
  rfl

/-! ### The statement -/

/-- AREA_CREATE. -/
theorem areaCreate_spec {s : State} {m : DMsg} {b : Bytes} {t : Nat} {a : Area} (hs : s.canon = true) (hten : (s.tenantRec t).isSome = true) (hnext : s.nextIs m 0x10 b) (hlen : b.length = 24)
    (ht : t = le b 0 1) (ha : a = { id := le b 1 1, hbm := le b 2 1 == 1, tenant := t, ranges := le b 3 1, base := le b 8 8, len := le b 16 8 }) (h1 : le b 2 1 ≤ 1) (h2 : a.ranges ≤ 15)
    (h3 : a.ranges ≠ 0) (h4 : zeroBytes b 4 4 = true) (h5 : a.hbm = true → a.base % 2048 = 0 ∧ a.len % 2048 = 0) :
    (s.sharedArea t a.id = none → s.areaFits a = true →
      ∃ s', exec .areaCreate s = .next s' ∧ s'.shared = s.shared ++ [a] ∧ (∀ e ∈ a.spans, ∀ k, e.1 ≤ k → k < e.1 + e.2 → readByte s'.mem k = 0) ∧
        (∀ k, (∀ e ∈ a.spans, k < e.1 ∨ e.1 + e.2 ≤ k) → readByte s'.mem k = readByte s.mem k) ∧ s'.hobs = s.hobs ∧ s'.flg = s.flg ∧ s'.stk = s.stk) ∧
    (((s.sharedArea t a.id).isSome = true ∨ s.areaFits a = false) → exec .areaCreate s = .next (s.judged m.dseq (some { code := 5 }))) := by
  have hdo : s.doAreaCreate b = if (s.sharedArea t a.id).isSome ∨ s.areaFits a = false then (s, dres 5) else (({ s with shared := s.shared ++ [a] }).zeroArea a, dres 0) := by
    subst ht
    unfold State.doAreaCreate
    rw [bodyFor_ok hlen hten]
    have hjudge : ¬(1 < le b 2 1 ∨ 15 < a.ranges ∨ a.ranges = 0 ∨ zeroBytes b 4 4 = false ∨ a.hbm = true ∧ (a.base % 2048 ≠ 0 ∨ a.len % 2048 ≠ 0)) := ?_
    · subst ha
      exact if_neg hjudge
    rintro (h | h | h | h | ⟨h, h'⟩)
    · omega
    · omega
    · exact h3 h
    · simp [h4] at h
    · obtain ⟨h6, h7⟩ := h5 h
      omega
  refine ⟨fun hnone hfits => ?_, fun hbad => ?_⟩
  · rw [if_neg (by simp [hnone, hfits])] at hdo
    have hbare := eq_of_bare (bare_zeroArea { s with shared := s.shared ++ [a] } a)
    have hmem := readByte_zeroRanges a.spans (s := { s with shared := s.shared ++ [a] }) ((canon_iff s).mp hs).1
    obtain ⟨z, hz⟩ : ∃ z, z = ({ s with shared := s.shared ++ [a] } : State).zeroArea a := ⟨_, rfl⟩
    rw [← hz] at hdo hbare
    have hexec : exec .areaCreate s = .next (z.judged m.dseq (dres 0)) := by
      rw [exec, execAreaCreate]
      exact perform_ends hnext hdo (by rw [hbare]) (by rw [hbare]; exact hnext.1)
    have hzmem : (z.judged m.dseq (dres 0)).mem = (a.spans.foldl (fun (s : State) e => s.zeroRange e.1 e.2) { s with shared := s.shared ++ [a] }).mem := by rw [hz]; rfl
    refine ⟨_, hexec, ?_, fun e he k hk hk' => ?_, fun k hk => ?_, ?_, ?_, ?_⟩
    · change z.shared = _
      rw [hbare]
    · rw [hzmem]
      exact (hmem k).1 ⟨e, he, hk, hk'⟩
    · rw [hzmem]
      exact (hmem k).2 hk
    · change z.hobs = _
      rw [hbare]
    · change z.flg = _
      rw [hbare]
    · change z.stk = _
      rw [hbare]
  · rw [if_pos hbad] at hdo
    rw [exec, execAreaCreate]
    exact perform_refused hnext hdo
/-- AREA_RELEASE and STAGING. -/
theorem areaRequests_spec {s : State} {m : DMsg} {b : Bytes} {t : Nat} {a : Area} (hten : (s.tenantRec t).isSome = true) (hlen : b.length = 8) (hz : zeroBytes b 2 6 = true) (ht : t = le b 0 1) :
    (s.nextIs m 0x11 b → s.sharedArea t (le b 1 1) = some a → s.areaBusy a = false →
      ∃ s', exec .areaRelease s = .next s' ∧ s'.shared = s.shared.filter (fun y => y != a) ∧ s'.mem = s.mem ∧ s'.hobs = s.hobs ∧ s'.flg = s.flg) ∧
    (s.nextIs m 0x11 b → s.sharedArea t (le b 1 1) = some a → s.areaBusy a = true → exec .areaRelease s = .next (s.judged m.dseq (some { code := 7 }))) ∧
    (s.nextIs m 0x11 b → s.sharedArea t (le b 1 1) = none → exec .areaRelease s = .next (s.judged m.dseq (some { code := 6 }))) ∧
    (s.nextIs m 0x14 b → s.sharedArea t (le b 1 1) = some a → a.hbm = true → a.base % 0x10000 = 0 → a.len % 0x10000 = 0 →
      exec .staging s = .next (({ s with shared := s.shared.map fun y => if y = a then { a with staging := true } else y } : State).judged m.dseq (some { code := 0 }))) := by
  subst ht
  refine ⟨fun hnext harea hbusy => ?_, fun hnext harea hbusy => ?_, fun hnext harea => ?_, fun hnext harea hhbm hbase hlen' => ?_⟩
  · have hdo : s.doAreaRelease b = (({ s with shared := s.shared.filter fun y => y != a }).releaseArea a, dres 0) := by
      simp only [State.doAreaRelease, bodyFor_ok hlen hten, hz, harea, hbusy, Bool.true_eq_false, Bool.false_eq_true, if_false]
    have hrest := eq_of_unstaged (unstaged_releaseArea { s with shared := s.shared.filter fun y => y != a } a)
    obtain ⟨z, hz⟩ : ∃ z, z = ({ s with shared := s.shared.filter fun y => y != a } : State).releaseArea a := ⟨_, rfl⟩
    rw [← hz] at hdo hrest
    have hexec : exec .areaRelease s = .next (z.judged m.dseq (dres 0)) := by
      rw [exec, execAreaRelease]
      exact perform_ends hnext hdo (by rw [hrest]) (by rw [hrest]; exact hnext.1)
    refine ⟨_, hexec, ?_, ?_, ?_, ?_⟩
    · change z.shared = _
      rw [hrest]
    · change z.mem = _
      rw [hrest]
    · change z.hobs = _
      rw [hrest]
    · change z.flg = _
      rw [hrest]
  · rw [exec, execAreaRelease]
    exact perform_refused hnext (by simp only [State.doAreaRelease, bodyFor_ok hlen hten, hz, harea, hbusy, Bool.true_eq_false, if_false, if_true]; rfl)
  · rw [exec, execAreaRelease]
    exact perform_refused hnext (by simp only [State.doAreaRelease, bodyFor_ok hlen hten, hz, harea, Bool.true_eq_false, if_false]; rfl)
  · rw [exec, execStaging]
    refine perform_ends hnext (t := { s with shared := s.shared.map fun y => if y = a then { a with staging := true } else y }) ?_ rfl hnext.1
    simp only [State.doStaging, bodyFor_ok hlen hten, hz, harea, hhbm, hbase, hlen', Bool.true_eq_false, if_false]
    rfl
/-- DATA into HBM. -/
theorem data_spec {s : State} {m : DMsg} {b : Bytes} {t : Nat} {a : Area} (hs : s.canon = true) (hten : (s.tenantRec t).isSome = true) (i : Nat) (hi : i < 4) (hnext : s.nextIs m 0x12 b)
    (h16 : 16 ≤ b.length) (ht : t = le b 0 1) (hz : zeroBytes b 2 2 = true) (hoff : le b 8 8 % 64 = 0) (hpay : b.length % 64 = 16) (harea : s.sharedArea t (le b 1 1) = some a) (hhbm : a.hbm = true)
    (htg : le b 4 4 = 2 ^ i) (hr : a.ranges.testBit i = true) (hfit : le b 8 8 + (b.length - 16) ≤ a.len) :
    ∃ s', exec .data s = .next s' ∧ readBytes s'.mem (hbmBase i + a.base + le b 8 8) (b.length - 16) = b.drop 16 ∧
      (∀ k, k < hbmBase i + a.base + le b 8 8 ∨ hbmBase i + a.base + le b 8 8 + (b.length - 16) ≤ k → readByte s'.mem k = readByte s.mem k) ∧ s'.hobs = s.hobs ∧ s'.flg = s.flg ∧ s'.stk = s.stk := by
  subst ht
  have hdrop : (b.drop 16).length = b.length - 16 := List.length_drop
  obtain ⟨hbare, hmem⟩ := bare_placeRaw s (hbmBase i + a.base + le b 8 8) (b.drop 16)
  obtain ⟨z, hz'⟩ : ∃ z, z = s.placeRaw (hbmBase i + a.base + le b 8 8) (b.drop 16) := ⟨_, rfl⟩
  have hok : ((List.range 32).all fun j => !(2 ^ i).testBit j || (if a.hbm then decide (j < 4) && a.ranges.testBit j else a.ranges.testBit (j / 8))) = true := by
    simp only [List.all_eq_true, hhbm, if_true]
    intro j _
    rw [Nat.testBit_two_pow]
    by_cases hj : i = j
    · subst hj
      simp [hi, hr]
    · simp [hj]
  have hdo : s.doData b = (z, dres 0) := by
    unfold State.doData
    rw [if_neg (by omega), bodyFor_ok rfl hten]
    dsimp only
    rw [if_neg (by simp [hz, hoff, hdrop]; omega), harea]
    dsimp only
    rw [htg, hok, if_neg (by simp [hhbm, hdrop]; omega), testBit_stacks hi]
    simp only [List.foldl_cons, List.foldl_nil, hhbm, if_true, ← hz']
  rw [← hz'] at hbare hmem
  have hrest := eq_of_bare hbare
  have hexec : exec .data s = .next (z.judged m.dseq (dres 0)) := by
    rw [exec, execData]
    exact perform_ends hnext hdo (by rw [hrest]) (by rw [hrest]; exact hnext.1)
  have hwf : Memory.wf s.mem = true := ((canon_iff s).mp hs).1
  refine ⟨_, hexec, ?_, fun k hk => ?_, ?_, ?_, ?_⟩
  · change readBytes z.mem _ _ = _
    rw [hmem, ← hdrop]
    exact readBytes_writeBytes _ _ _ hwf
  · change readByte z.mem k = _
    rw [hmem]
    exact readByte_writeBytes_out _ _ _ _ hwf (by rw [hdrop]; exact hk)
  · change z.hobs = _
    rw [hrest]
  · change z.flg = _
    rw [hrest]
  · change z.stk = _
    rw [hrest]
/-- DATA_EXPECT of one message. -/
theorem dataExpect_spec {s : State} {m : DMsg} {b : Bytes} (hnext : s.nextIs m 0x13 b) (hlen : b.length = 56) (hd : m.dseq < le b 0 8) (hroom : s.boot.digests.length < 1024) :
    exec .dataExpect s =
      .next (({ s with boot := { s.boot with digests := (s.boot.digests.filter fun x => x.1 != le b 0 8) ++ [(le b 0 8, (b.drop 8).take 48)] } } : State).judged m.dseq (some { code := 0 })) := by
  rw [exec, execDataExpect]
  refine perform_ends hnext (t := { s with boot := { s.boot with digests := (s.boot.digests.filter fun x => x.1 != le b 0 8) ++ [(le b 0 8, (b.drop 8).take 48)] } }) ?_ rfl hnext.1
  have hfew : ((s.boot.digests.filter fun x => x.1 != le b 0 8) ++ [(le b 0 8, (b.drop 8).take 48)]).length ≤ 1024 := by
    have := List.length_filter_le (fun x : Nat × Bytes => x.1 != le b 0 8) s.boot.digests
    simp only [List.length_append, List.length_singleton]
    omega
  unfold State.doDataExpect
  rw [if_neg (by simp [hlen])]
  simp only [hlen, show 56 / 56 = 1 from rfl, List.range_one, List.map_cons, List.map_nil, Nat.mul_zero, Nat.zero_add, List.any_cons, List.any_nil, List.foldl_cons, List.foldl_nil, addDigest]
  rw [if_neg (by simp; omega), if_neg (by omega)]
  rfl
/-- CH_OPEN. -/
theorem chOpen_spec {s : State} {m : DMsg} {b : Bytes} {t : Nat} (hten : (s.tenantRec t).isSome = true) (hnext : s.nextIs m 0x20 b) (hlen : b.length = 48) (ht : t = le b 2 1) :
    (s.judgeOpen (chAttrOf b) = 0 → SMapWf ({} : Channel) s.flg.chans = true →
      ∃ s', exec .chOpen s = .next s' ∧ (s'.chan (le b 0 2)).state = .opened ∧ (s'.chan (le b 0 2)).tenant = t ∧ (s'.chan (le b 0 2)).wp = s.flag (le b 6 2) ∧ (s'.chan (le b 0 2)).ac = s.flag (le b 6 2) ∧
        (∀ c, c ≠ le b 0 2 → s'.chan c = s.chan c) ∧ s'.mem = s.mem ∧ s'.hobs = s.hobs ∧ s'.stk = { s.stk with progress := s'.stk.progress }) ∧
    (∀ c, c ≠ 0 → s.judgeOpen (chAttrOf b) = c → exec .chOpen s = .next (s.judged m.dseq (some { dom := 2, code := c }))) := by
  subst ht
  have hdo : s.doChOpen b = ((s.chOpen (chAttrOf b)).1, cres (s.chOpen (chAttrOf b)).2) := bodyFor_ok hlen hten _
  refine ⟨fun hj hwf => ?_, fun c hc hj => ?_⟩
  · obtain ⟨p, ks, hopen⟩ := openChan_rest s (chAttrOf b)
    have hch : s.chOpen (chAttrOf b) = (s.openChan (chAttrOf b), 0) := by simp only [State.chOpen, hj]
    rw [hch] at hdo
    have hexec : exec .chOpen s = .next ((s.openChan (chAttrOf b)).judged m.dseq (cres 0)) := by
      rw [exec, execChOpen]
      exact perform_ends hnext hdo (by rw [hopen]) (by rw [hopen]; exact hnext.1)
    have hself : ((s.openChan (chAttrOf b)).judged m.dseq (cres 0)).chan (le b 0 2) = (chAttrOf b).opened (s.flag (le b 6 2)) s.freeChimney := by
      rw [hopen]
      exact get_put_self _ _ _ _ hwf
    refine ⟨_, hexec, congrArg Channel.state hself, congrArg Channel.tenant hself, congrArg Channel.wp hself, congrArg Channel.ac hself, fun c hc => ?_, ?_, ?_, ?_⟩
    · rw [hopen]
      exact get_put_ne _ _ _ _ _ hwf hc
    all_goals rw [hopen]; rfl
  · have hch : s.chOpen (chAttrOf b) = (s, c) := by
      unfold State.chOpen
      split
      · next h => exact absurd (hj.symm.trans h) hc
      · rw [hj]
    rw [hch] at hdo
    rw [exec, execChOpen]
    exact perform_refused hnext hdo
/-- A request that a channel of the tenant takes waits for the seam. -/
theorem chRequest_taken {s : State} {c t : Nat} {r : ChReq} {x : Channel} (hx : x = s.chan c) (hown : s.ownsChan t c = true) (hopen : x.state = .opened) (hr : r = .disable → x.dis = false)
    (hr' : r = .enable → x.dis = true) : s.chRequest c t r false = (s.setChan c { x with reqs := x.reqs ++ [r] }, 0) := by
  subst hx
  unfold State.chRequest
  cases r <;> simp_all
theorem chRequest_stranger {s : State} {c t : Nat} {r : ChReq} (hown : s.ownsChan t c = false) : s.chRequest c t r false = (s, 3) := by simp [State.chRequest, hown]
theorem chRequest_enabled {s : State} {c t : Nat} (hown : s.ownsChan t c = true) (hd : (s.chan c).dis = false) : s.chRequest c t .enable false = (s, 4) := by simp [State.chRequest, hown, hd]
/-- CH_CLOSE, CH_DISABLE and CH_ENABLE. -/
theorem chRequests_spec {s : State} {m : DMsg} {b : Bytes} {t : Nat} (hten : (s.tenantRec t).isSome = true) (c : Nat) (x : Channel) (hlen : b.length = 4) (ht : t = le b 2 1) (hc : c = le b 0 2)
    (hx : x = s.chan c) :
    (s.nextIs m 0x21 b → s.ownsChan t c = true → (le b 3 1 = 1 ∨ le b 3 1 = 2) → x.state = .opened →
      exec .chClose s = .next ((s.setChan c { x with reqs := x.reqs ++ [.close (le b 3 1)] }).judged m.dseq (some { dom := 2, code := 0 }))) ∧
    (s.nextIs m 0x21 b → s.ownsChan t c = false → (le b 3 1 = 1 ∨ le b 3 1 = 2) → exec .chClose s = .next (s.judged m.dseq (some { dom := 2, code := 3 }))) ∧
    (s.nextIs m 0x22 b → s.ownsChan t c = true → le b 3 1 = 0 → x.state = .opened → x.dis = false →
      exec .chDisable s = .next ((s.setChan c { x with reqs := x.reqs ++ [.disable] }).judged m.dseq (some { dom := 2, code := 0 }))) ∧
    (s.nextIs m 0x23 b → s.ownsChan t c = true → le b 3 1 = 0 → x.state = .opened → x.dis = true →
      exec .chEnable s = .next ((s.setChan c { x with reqs := x.reqs ++ [.enable] }).judged m.dseq (some { dom := 2, code := 0 }))) ∧
    (s.nextIs m 0x23 b → s.ownsChan t c = true → le b 3 1 = 0 → x.dis = false → exec .chEnable s = .next (s.judged m.dseq (some { dom := 2, code := 4 }))) := by
  subst ht hc
  have hclose (hwhy : le b 3 1 = 1 ∨ le b 3 1 = 2) {z : State} {k : Nat} (h : s.chRequest (le b 0 2) (le b 2 1) (.close (le b 3 1)) false = (z, k)) : s.doChClose b = (z, cres k) := by
    have hlegal : (le b 3 1 != 1 && le b 3 1 != 2) = false := by rcases hwhy with h | h <;> simp [h]
    rw [State.doChClose, bodyFor_ok hlen hten]
    dsimp only
    rw [hlegal, h]
  have hdis (h0 : le b 3 1 = 0) {z : State} {k : Nat} (h : s.chRequest (le b 0 2) (le b 2 1) .disable false = (z, k)) : s.doChDisable b = (z, cres k) := by
    rw [State.doChDisable, bodyFor_ok hlen hten, h0, show ((0 : Nat) != 0) = false from rfl, h]
  have hen (h0 : le b 3 1 = 0) {z : State} {k : Nat} (h : s.chRequest (le b 0 2) (le b 2 1) .enable false = (z, k)) : s.doChEnable b = (z, cres k) := by
    rw [State.doChEnable, bodyFor_ok hlen hten, h0, show ((0 : Nat) != 0) = false from rfl, h]
  refine ⟨fun hnext hown hwhy hopen => ?_, fun hnext hown hwhy => ?_, fun hnext hown h0 hopen hd => ?_, fun hnext hown h0 hopen hd => ?_, fun hnext hown h0 hd => ?_⟩
  · rw [exec, execChClose]
    exact perform_ends hnext (hclose hwhy (chRequest_taken hx hown hopen (by simp) (by simp))) rfl hnext.1
  · rw [exec, execChClose]
    exact perform_refused hnext (hclose hwhy (chRequest_stranger hown))
  · rw [exec, execChDisable]
    exact perform_ends hnext (hdis h0 (chRequest_taken hx hown hopen (fun _ => hd) (by simp))) rfl hnext.1
  · rw [exec, execChEnable]
    exact perform_ends hnext (hen h0 (chRequest_taken hx hown hopen (by simp) (fun _ => hd))) rfl hnext.1
  · rw [exec, execChEnable]
    exact perform_refused hnext (hen h0 (chRequest_enabled hown (hx ▸ hd)))
/-- Settles O58: each request is performed at once, and the end of its command changes nothing while its message is in work. -/
theorem areaAndChannelRequests : Obligations.AreaAndChannelRequests := by
  intro s m b t a hs hten
  exact ⟨areaCreate_spec hs hten, areaRequests_spec hten, data_spec hs hten, dataExpect_spec, chOpen_spec hten, chRequests_spec hten⟩

end Sys2Proof.Machine
end
section
/-! The reply to a deploy message whose last request has been answered (R448, R454). -/
namespace Sys2Proof.Machine

/-- The head message has left the work, its buffer is free, and a RESTART among its requests waits for the reply. -/
def State.replied (s : State) (m : DMsg) : State :=
  { s with boot := { s.boot with work := [], bufs := s.boot.bufs &&& ~~~(BitVec.twoPow 2 m.buf), restart := if m.restart then some (s.trn.nextId % 65536) else s.boot.restart } }
/-- The one message in work, as it stands in the state. -/
def State.working (s : State) (m : DMsg) : State := { s with boot := { s.boot with work := [m] } }
/-- The message once its requests left have been answered with `rs`. -/
def DMsg.closed (m : DMsg) (rs : List (Option DResult)) : DMsg := { m with reqs := [], results := m.results ++ rs }
/-- Requests behind a RESTART are answered with STATE. -/
theorem answerUnknown_restart (s : State) (m : DMsg) (hr : m.restart = true) (hw : (s.boot.waits.any fun w => w.1 == 0) = false) :
    (s.working m).answerUnknown m.reqs.length = s.working (m.closed (m.reqs.map fun _ => some { code := 3 })) := by
  obtain ⟨d, ms, reqs, results, restart, buf, lost⟩ := m
  subst hr
  induction reqs generalizing results with
  | nil => simp [State.answerUnknown, DMsg.closed]
  | cons r rest ih =>
    obtain ⟨m, hm⟩ : ∃ m : DMsg, m = { dseq := d, mstatus := ms, reqs := r :: rest, results := results, restart := true, buf := buf, lost := lost } := ⟨_, rfl⟩
    have hnext : (s.working m).nextReq = some (m, r.1, r.2) := by simp [State.nextReq, State.working, hw, hm]
    have hjudged : (s.working m).judged d (some { code := 3 }) = s.working { dseq := d, mstatus := ms, reqs := rest, results := results ++ [some { code := 3 }], restart := true, buf := buf, lost := lost } := by
      simp [State.working, State.judged, hm]
    rw [← hm, show m.reqs.length = rest.length + 1 by rw [hm]; rfl, State.answerUnknown, hnext]
    simp only [hm, if_true]
    rw [← hm, hjudged, ih]
    simp [DMsg.closed, hm]
/-- Requests of reserved types aside, a message with no request left has nothing to be answered. -/
theorem answerUnknown_none (s : State) (m : DMsg) (hm : m.reqs = []) (n : Nat) : (s.working m).answerUnknown n = s.working m := by
  cases n with
  | zero => rfl
  | succ n =>
    have hnext : (s.working m).nextReq = none := by
      unfold State.nextReq
      split
      · rfl
      · simp [State.working, hm]
    rw [State.answerUnknown, hnext]
/-- The end of a command with one message in work: requests of reserved types are answered, and the reply leaves when that was all. -/
theorem ends_working {s : State} {m m' : DMsg} (hset : s.workless.settledButMirror = true) (hanswer : (s.working m).answerUnknown m.reqs.length = s.working m') :
    (s.working m).ends = .next ((((if m'.answered then (s.working m').sendReply m' else s.working m').triggers.flush).deliverLocal 4).decideExit) := by
  obtain ⟨h1, h2, h3, -, h6, h7, h8⟩ := (settledButMirror_iff _).mp hset
  have hshut : (s.working m).shutdown = s.working m := if_neg (by rw [show (s.working m).goingDown = false from h6]; exact Bool.false_ne_true)
  have hsum : ((s.working m).boot.work.map fun m => m.reqs.length).sum = m.reqs.length := by simp [State.working]
  have hreplies : (s.working m').sendReplies (s.working m').boot.work.length = if m'.answered then (s.working m').sendReply m' else s.working m' := by
    rw [show (s.working m').boot.work.length = 1 from rfl, State.sendReplies, show (s.working m').boot.work = [m'] from rfl]
    simp only [State.sendReplies]
  have hdone : (s.working m).done = (if m'.answered then (s.working m').sendReply m' else s.working m').triggers.flush := by
    simp only [State.done, transHome_quiet (s.working m) h1, triggers_quiet (s.working m) h2, closeEpoch_quiet (s.working m) h3]
    rw [hsum, hanswer, hreplies]
  rw [State.ends, deliverLocal_quiet (s.working m) 4 h7, hshut, hdone]
theorem ends_replies {s : State} {m m' : DMsg} (hset : s.workless.settled = true) (hanswer : (s.working m).answerUnknown m.reqs.length = s.working m') (hans : m'.answered = true) :
    (s.working m).ends = .next (((((s.working m').sendReply m').triggers.flush).deliverLocal 4).decideExit) := by
  rw [ends_working (settledButMirror_of_settled hset) hanswer, if_pos hans]
theorem sendReply_calm {F : Prop} (s : State) (m : DMsg) : Calm 2 F (fun _ => False) (s.replied m) ((s.working m).sendReply m) := by
  unfold State.sendReply
  extract_lets id src s1
  have h1 : s1 = s.replied m := rfl
  split
  · rw [h1]
    exact calm_refl
  · rw [h1]
    exact calm_sendOn0 (by decide) _ _ _ calm_refl
theorem ends_replies_calm {s : State} {m m' : DMsg} (hset : s.workless.settled = true) (hanswer : (s.working m).answerUnknown m.reqs.length = s.working m') (hans : m'.answered = true) :
    ∃ s', (s.working m).ends = .next s' ∧ Calm 2 True (fun _ => False) (s.replied m') s' := by
  have hloop : (s.replied m').loopback = [] := ((settled_iff _).mp hset).2.2.2.2.2.2.1
  refine ⟨_, ends_replies hset hanswer hans, calm_decideExit _ (calm_deliverLocal trivial 4 (calm_flush _ (calm_triggers trivial _ (sendReply_calm s m'))) (by simp [hloop]))⟩

end Sys2Proof.Machine
end
section
/-! Queue pairs, regions, links, flash, ledger and RESTART (R272, R281, R327, R341, R342, R359, R360, R454, R455, R457). -/
namespace Sys2Proof.Machine

/-! ### Queue pairs -/

theorem qp_setQp {s : State} (h : SMapWf ({} : Qp) s.trn.qps = true) (n : Nat) (x : Qp) : (s.setQp n x).qp n = x := get_put_self _ _ _ _ h
theorem qp_setQp_ne {s : State} (h : SMapWf ({} : Qp) s.trn.qps = true) {n k : Nat} (x : Qp) (hk : k ≠ n) : (s.setQp n x).qp k = s.qp k := get_put_ne _ _ _ _ _ h hk
/-- A frame that is sent changes interfaces and what has left the part. -/
theorem ethSend_rest (s : State) (i : Nat) (b : Bytes) : ∃ is o, s.ethSend i b = { s with trn := { s.trn with ifaces := is }, out := o } := by
  unfold State.ethSend
  dsimp only
  split
  · exact ⟨s.trn.ifaces, s.out, rfl⟩
  · split <;> exact ⟨_, _, rfl⟩
theorem sendConnect_rest (s : State) (n opc : Nat) : ∃ is o, s.sendConnect n opc = { s with trn := { s.trn with ifaces := is }, out := o } := ethSend_rest ..
/-- QP_CREATE. -/
theorem qpCreate_spec {s : State} {m : DMsg} {b : Bytes} {t : Nat} (hwf : SMapWf ({} : Qp) s.trn.qps = true) (n : Nat) (x : Qp) (hnext : s.nextIs m 0x30 b) (hlen : b.length = 60) (ht : t = le b 2 1)
    (hten : (s.tenantRec t).isSome = true) (hn : n = le b 0 2) (hx : x = qpOf s.rt.part b) (h0 : n ≠ 0) (h1 : n ≤ 16383) (h7 : le b 7 1 < 4) (hs : s.ownsChan t x.scq = true)
    (hr : s.ownsChan t x.rcq = true) :
    ((s.qp n).state = 0 → s.qpLegal x (le b 4 1) = true → x.state ≠ 2 → exec .qpCreate s = .next ((s.setQp n x).judged m.dseq (some { code := 0 }))) ∧
    ((s.qp n).state = 0 → s.qpLegal x (le b 4 1) = true → ∃ s', exec .qpCreate s = .next s' ∧ s'.qp n = x ∧ ∀ k, k ≠ n → s'.qp k = s.qp k) ∧
    (((s.qp n).state ≠ 0 ∨ s.qpLegal x (le b 4 1) = false) → exec .qpCreate s = .next (s.judged m.dseq (some { code := 0xA }))) := by
  subst ht
  have hdo : s.doQpCreate b = if (s.qp n).state ≠ 0 ∨ s.qpLegal x (le b 4 1) = false then (s, dres 0xA)
      else (if x.state = 2 then (s.setQp n x).sendConnect n 8 else s.setQp n x, dres 0) := by
    rw [State.doQpCreate, bodyFor_ok hlen hten]
    dsimp only
    rw [← hn, ← hx, if_neg (by omega), if_neg (by simp [hs, hr])]
  rw [exec, execQpCreate]
  refine ⟨fun hfree hlegal hstate => ?_, fun hfree hlegal => ?_, fun hbad => perform_refused hnext (hdo.trans (if_pos hbad))⟩
  · rw [if_neg (by simp [hfree, hlegal]), if_neg hstate] at hdo
    exact perform_ends hnext hdo rfl hnext.1
  · rw [if_neg (by simp [hfree, hlegal])] at hdo
    obtain ⟨is, o, hz⟩ : ∃ is o, (if x.state = 2 then (s.setQp n x).sendConnect n 8 else s.setQp n x) = { s.setQp n x with trn := { (s.setQp n x).trn with ifaces := is }, out := o } := by
      split
      · exact sendConnect_rest ..
      · exact ⟨(s.setQp n x).trn.ifaces, s.out, rfl⟩
    rw [hz] at hdo
    exact ⟨_, perform_ends hnext hdo rfl hnext.1, qp_setQp hwf n x, fun k hk => qp_setQp_ne hwf x hk⟩
/-- QP_RESET and QP_DESTROY. -/
theorem qpEnds_spec {s : State} {m : DMsg} {b : Bytes} {t : Nat} (hwf : SMapWf ({} : Qp) s.trn.qps = true) (n : Nat) (x : Qp) (hlen : b.length = 4) (h3 : le b 3 1 = 0) (ht : t = le b 2 1)
    (hten : (s.tenantRec t).isSome = true) (hn : n = le b 0 2) (hx : x = s.qp n) (h0 : n ≠ 0) (h1 : n ≤ 16383) (hown : x.tenant = t) :
    (s.nextIs m 0x31 b → x.state = 4 → ∃ s', exec .qpReset s = .next s' ∧ (s'.qp n).state = (if x.boundPeer = true then 2 else 1) ∧ (s'.qp n).sq = [] ∧ (s'.qp n).ops = [] ∧ (s'.qp n).npsn = x.ipsn ∧
      (∀ k, k ≠ n → s'.qp k = s.qp k)) ∧
    (s.nextIs m 0x31 b → x.state ≠ 4 → exec .qpReset s = .next (s.judged m.dseq (some { code := 0xA }))) ∧
    (s.nextIs m 0x32 b → (x.state = 4 ∨ x.state = 5) → ∃ s', exec .qpDestroy s = .next s' ∧ s'.qp n = {} ∧ s'.trn.recvs = s.trn.recvs.filter (fun v => v.qpn != n) ∧ s'.trn.matched = s.trn.matched.filter (fun v => v.qpn != n) ∧ s'.trn.trigs = s.trn.trigs.filter (fun v => v.1 != n) ∧ (∀ k, k ≠ n → s'.qp k = s.qp k)) ∧
    (s.nextIs m 0x32 b → x.state ≠ 4 → x.state ≠ 5 → exec .qpDestroy s = .next (s.judged m.dseq (some { code := 0xA }))) := by
  subst ht hx
  have hlegal : ¬(n = 0 ∨ 16383 < n ∨ le b 3 1 ≠ 0) := by omega
  have hmine : ¬((s.qp n).state ≠ 0 ∧ (s.qp n).tenant ≠ le b 2 1) := fun h => h.2 hown
  have hreset : s.doQpReset b = if (s.qp n).state ≠ 4 then (s, dres 0xA) else (s.resetQp n, dres 0) := by
    rw [State.doQpReset, bodyFor_ok hlen hten]
    dsimp only
    rw [← hn, if_neg hlegal, if_neg hmine]
  have hdestroy : s.doQpDestroy b = if (s.qp n).state ≠ 4 ∧ (s.qp n).state ≠ 5 then (s, dres 0xA) else (s.dropQp n, dres 0) := by
    rw [State.doQpDestroy, bodyFor_ok hlen hten]
    dsimp only
    rw [← hn, if_neg hlegal, if_neg hmine]
  rw [exec, execQpReset, exec, execQpDestroy]
  refine ⟨fun hnext h4 => ?_, fun hnext h4 => perform_refused hnext (hreset.trans (if_pos h4)), fun hnext h45 => ?_, fun hnext h4 h5 => perform_refused hnext (hdestroy.trans (if_pos ⟨h4, h5⟩))⟩
  · rw [if_neg (by simp [h4])] at hreset
    obtain ⟨y, hy⟩ : ∃ y : Qp, (y.state = (if (s.qp n).boundPeer = true then 2 else 1) ∧ y.sq = [] ∧ y.ops = [] ∧ y.npsn = (s.qp n).ipsn) ∧
        s.resetQp n = if (s.qp n).boundPeer then (s.setQp n y).sendConnect n 8 else s.setQp n y := ⟨_, ⟨rfl, rfl, rfl, rfl⟩, rfl⟩
    obtain ⟨⟨hstate, hsq, hops, hpsn⟩, hy⟩ := hy
    obtain ⟨is, o, hz⟩ : ∃ is o, s.resetQp n = { s.setQp n y with trn := { (s.setQp n y).trn with ifaces := is }, out := o } := by
      rw [hy]
      split
      · exact sendConnect_rest ..
      · exact ⟨(s.setQp n y).trn.ifaces, s.out, rfl⟩
    rw [hz] at hreset
    have hself := qp_setQp hwf n y
    refine ⟨_, perform_ends hnext hreset rfl hnext.1, ?_, ?_, ?_, ?_, fun k hk => qp_setQp_ne hwf y hk⟩
    · exact (congrArg Qp.state hself).trans hstate
    · exact (congrArg Qp.sq hself).trans hsq
    · exact (congrArg Qp.ops hself).trans hops
    · exact (congrArg Qp.npsn hself).trans hpsn
  · rw [if_neg (by omega)] at hdestroy
    exact ⟨_, perform_ends hnext hdestroy rfl hnext.1, qp_setQp hwf n {}, rfl, rfl, rfl, fun k hk => qp_setQp_ne hwf {} hk⟩

/-! ### Regions -/

/-- REG_CREATE. -/
theorem regCreate_spec {s : State} {m : DMsg} {b : Bytes} {t : Nat} (i : Nat) (g : Region) (hnext : s.nextIs m 0x33 b) (hlen : b.length = 24) (ht : t = le b 2 1)
    (hten : (s.tenantRec t).isSome = true) (hi : i = le b 0 2) (h3 : le b 3 1 < 16) (hcnt : (le b 3 1).testBit 3 = true → s.ownsCnt t (le b 6 2) = true) (h4 : le b 4 2 < 4096) (h6 : le b 6 2 < 4096)
    (hg : g = { gen := ((s.region i).gen + 1) % 65536, reg := true, state := 1, tenant := t, pd := le b 4 2, base := le b 8 8, len := le b 16 8, put := (le b 3 1).testBit 0, get := (le b 3 1).testBit 1, loc := (le b 3 1).testBit 2, cntEn := (le b 3 1).testBit 3, cnt := le b 6 2 }) :
    ((s.region i).reg = false → le b 8 8 % 64 = 0 → le b 16 8 % 64 = 0 → s.inSharedArea t (le b 8 8) (le b 16 8) = true →
      exec .regCreate s = .next ((s.setRegion i g).judged m.dseq (some { value := regionKey i g }))) ∧
    ((s.region i).reg = true → exec .regCreate s = .next (s.judged m.dseq (some { code := 0xB }))) := by
  subst ht hi hg
  have hlegal : ¬(16 ≤ le b 3 1 ∨ 4096 ≤ le b 4 2 ∨ 4096 ≤ le b 6 2) := by omega
  have hmine : ¬((le b 3 1).testBit 3 = true ∧ s.ownsCnt (le b 2 1) (le b 6 2) = false) := fun h => by simp [hcnt h.1] at h
  rw [exec, execRegCreate]
  refine ⟨fun hreg h8 h16 harea => perform_ends hnext ?_ rfl hnext.1, fun hreg => perform_refused hnext ?_⟩
  · rw [State.doRegCreate, bodyFor_ok hlen hten]
    dsimp only
    rw [if_neg hlegal, if_neg hmine, if_neg (by simp [hreg, h8, h16, harea])]
  · rw [State.doRegCreate, bodyFor_ok hlen hten]
    dsimp only
    rw [if_neg hlegal, if_neg hmine, if_pos (.inl hreg)]
    rfl
/-- REG_REMOVE. -/
theorem regRemove_spec {s : State} {m : DMsg} {b : Bytes} {t : Nat} (i : Nat) (g : Region) (hnext : s.nextIs m 0x34 b) (hlen : b.length = 8) (ht : t = le b 4 1)
    (hten : (s.tenantRec t).isSome = true) (h5 : zeroBytes b 5 3 = true) (hi : i = le b 2 2) (hg : g = s.region i) :
    (g.reg = true → g.gen = le b 0 2 → g.tenant = t → g.state ≠ 0 →
      exec .regRemove s = .next (({ s.setRegion i { g with state := 2 } with boot := { s.boot with waits := s.boot.waits ++ [(1, i, m.dseq, m.results.length)] } } : State).judged m.dseq none)) ∧
    (g.reg = true → g.gen = le b 0 2 → g.tenant = t → g.state = 0 → exec .regRemove s = .next ((s.setRegion i { g with reg := false }).judged m.dseq (some { code := 0 }))) ∧
    ((g.reg = false ∨ g.gen ≠ le b 0 2) → exec .regRemove s = .next (s.judged m.dseq (some { code := 0xB }))) := by
  subst ht hi hg
  have hdo : s.doRegRemove m.dseq m.results.length b =
      if (s.region (le b 2 2)).reg ∧ (s.region (le b 2 2)).gen = le b 0 2 ∧ (s.region (le b 2 2)).tenant ≠ le b 4 1 then (s, dres 4)
      else if !(s.region (le b 2 2)).reg ∨ (s.region (le b 2 2)).gen ≠ le b 0 2 then (s, dres 0xB)
      else if (s.region (le b 2 2)).state = 0 then (s.setRegion (le b 2 2) { s.region (le b 2 2) with reg := false }, dres 0)
      else ({ s.setRegion (le b 2 2) { s.region (le b 2 2) with state := 2 } with boot := { s.boot with waits := s.boot.waits ++ [(1, le b 2 2, m.dseq, m.results.length)] } }, none) := by
    rw [State.doRegRemove, bodyFor_ok hlen hten]
    dsimp only
    rw [if_neg (by simp [h5])]
    rfl
  rw [exec, execRegRemove]
  refine ⟨fun hreg hgen hmine hstate => perform_ends hnext (hdo.trans ?_) rfl hnext.1, fun hreg hgen hmine hstate => perform_ends hnext (hdo.trans ?_) rfl hnext.1,
    fun hbad => perform_refused hnext (hdo.trans ?_)⟩
  · rw [if_neg (by simp [hmine]), if_neg (by simp [hreg, hgen]), if_neg hstate]
  · rw [if_neg (by simp [hmine]), if_neg (by simp [hreg, hgen]), if_pos hstate]
    rfl
  · rw [if_neg (by rintro ⟨h, h', -⟩; rcases hbad with e | e <;> simp_all), if_pos (by simpa using hbad)]
    rfl

/-! ### Links and management -/

/-- LINK_DISABLE and LINK_ENABLE. -/
theorem linkRequests_spec {s : State} {m : DMsg} {b : Bytes} (hs : s.canon = true) (k : Nat) (hlen : b.length = 8) (hz : zeroBytes b 1 7 = true) (hk : k = le b 0 1) :
    (s.nextIs m 0x40 b → s.judgeDisable k = 0 → (s.gate k).upOrHold = true → exec .linkDisable s = .next ((s.setGate k { s.gate k with disPend := true }).judged m.dseq (some { code := 0 }))) ∧
    (s.nextIs m 0x40 b → s.judgeDisable k = 1 → exec .linkDisable s = .next (s.judged m.dseq (some { code := 0x12 }))) ∧
    (s.nextIs m 0x40 b → s.judgeDisable k = 2 → exec .linkDisable s = .next (s.judged m.dseq (some { code := 3 }))) ∧
    (s.nextIs m 0x41 b → s.judgeEnable k = 0 → ∃ s', exec .linkEnable s = .next s' ∧ (s'.gate k).en = true ∧ (s'.gate k).trainLogged = false ∧
      (s'.gate k).state = (if (s.gate k).state = .down ∧ (s.gate k).rested = true ∧ s.mayTrain = true then .train else (s.gate k).state) ∧ (∀ l, l ≠ k → s'.gate l = s.gate l) ∧ s'.mem = s.mem) ∧
    (s.nextIs m 0x41 b → s.judgeEnable k = 1 → exec .linkEnable s = .next (s.judged m.dseq (some { code := 0x12 }))) := by
  subst hk
  have hlegal : ¬(b.length ≠ 8 ∨ zeroBytes b 1 7 = false) := by simp [hlen, hz]
  rw [exec, execLinkDisable, exec, execLinkEnable]
  refine ⟨fun hnext hj hup => ?_, fun hnext hj => ?_, fun hnext hj => ?_, fun hnext hj => ?_, fun hnext hj => ?_⟩
  · have hdo : s.doLinkDisable b = (s.askDisable (le b 0 1), dres 0) := by simp only [State.doLinkDisable, if_neg hlegal, hj]
    rw [askDisable_carrying hup] at hdo
    exact perform_ends hnext hdo rfl hnext.1
  · exact perform_refused hnext (by simp only [State.doLinkDisable, if_neg hlegal, hj]; rfl)
  · exact perform_refused hnext (by simp only [State.doLinkDisable, if_neg hlegal, hj]; rfl)
  · obtain ⟨g, o, heq, hen, hlog, hstate⟩ := enableLink_spec hs (le b 0 1)
    have hdo : s.doLinkEnable b = (s.enableLink (le b 0 1), dres 0) := by simp only [State.doLinkEnable, if_neg hlegal, hj]
    rw [heq] at hdo
    have hself : (({ s.setGate (le b 0 1) g with out := o } : State).judged m.dseq (dres 0)).gate (le b 0 1) = g := gate_setGate hs _ _
    refine ⟨_, perform_ends hnext hdo rfl hnext.1, ?_, ?_, ?_, fun l hl => gate_setGate_ne hs _ hl, rfl⟩
    · rw [hself, hen]
    · rw [hself, hlog]
    · rw [hself, hstate]
  · exact perform_refused hnext (by simp only [State.doLinkEnable, if_neg hlegal, hj]; rfl)
/-- MGMT_REQUEST. -/
theorem mgmtRequest_spec {s : State} {m : DMsg} {b : Bytes} (ty l : Nat) (hnext : s.nextIs m 0x42 b) (hlen : b.length = 8) (hz : zeroBytes b 3 5 = true) (hty : ty = le b 1 1) (hl : l = le b 2 1) :
    (∀ n w, (ty = 1 ∧ l = 0) ∨ ((ty = 3 ∨ ty = 4) ∧ l < 20) → le b 0 1 ≠ s.rt.chip → s.exitFor 3 (le b 0 1) 3 = some (n, w) →
      exec .mgmtRequest s = .next (({ s with mantelOut := s.mantelOut ++ [packetLoad n w .own { op := opMgmt, vc := 3, dst := le b 0 1, src := s.rt.chip, part := 0xF, hops := s.rt.hopLimit, tag := 0, sunit := sunitService, flits := [(mgmtFlit ty l 0 s.rt.part [] 0, false)] }] } : State).judged m.dseq (some { code := 0 }))) ∧
    ((ty = 1 ∧ l = 0) ∨ ((ty = 3 ∨ ty = 4) ∧ l < 20) → le b 0 1 ≠ s.rt.chip → s.exitFor 3 (le b 0 1) 3 = none →
      exec .mgmtRequest s = .next (({ s with rt := { s.rt with noexit := s.rt.noexit + 1 } } : State).judged m.dseq (some { code := 0 }))) ∧
    ((ty = 3 ∨ ty = 4) → 20 ≤ l → exec .mgmtRequest s = .next (s.judged m.dseq (some { code := 0x12 }))) := by
  subst hty hl
  have hsend (hok : (le b 1 1 = 1 ∧ le b 2 1 = 0) ∨ ((le b 1 1 = 3 ∨ le b 1 1 = 4) ∧ le b 2 1 < 20)) :
      s.doMgmt b = (s.sendMgmt (le b 0 1) 0 (mgmtFlit (le b 1 1) (le b 2 1) 0 s.rt.part [] 0), dres 0) := by
    rw [State.doMgmt, if_neg (by simp [hlen, hz]; omega), if_neg (by omega)]
  rw [exec, execMgmtRequest]
  refine ⟨fun n w hok hdst hexit => ?_, fun hok hdst hexit => ?_, fun hcmd hfar => perform_refused hnext ?_⟩
  · have hdo := hsend hok
    rw [sendMgmt_exit hdst hexit] at hdo
    exact perform_ends hnext hdo rfl hnext.1
  · have hnone := sendOwn_noExit (s := s) (p := { op := opMgmt, vc := 3, dst := le b 0 1, tag := 0, sunit := sunitService, flits := [(mgmtFlit (le b 1 1) (le b 2 1) 0 s.rt.part [] 0, false)] })
      (show sunitService / 32 ≠ 1 by decide) hdst hexit
    have hdo := hsend hok
    rw [State.sendMgmt, hnone] at hdo
    exact perform_ends hnext hdo rfl hnext.1
  · rw [State.doMgmt, if_neg (by simp [hlen, hz]; omega), if_pos (by omega)]
    rfl

/-! ### Flash, ledger and RESTART -/

/-- FLASH_WRITE. -/
theorem flashWrite_spec {s : State} {m : DMsg} {b : Bytes} (ok : Bool) (res : Nat × Nat) (hnext : s.nextIs m 0x60 b) (h8 : 8 ≤ b.length) (h0 : le b 0 1 ≤ 1) (hz : zeroBytes b 1 3 = true)
    (hoff : le b 4 4 % 4096 = 0) (hlen : b.length % 256 = 8) (hres : res = (if le b 0 1 = 0 then s.boot.resA else s.boot.resB)) :
    (le b 0 1 ≠ s.boot.copy → le b 4 4 + (b.length - 8) ≤ res.2 →
      exec (.flashWrite ok) s = .next (({ s with out := s.out ++ (List.range (ceilDiv ((res.1 + le b 4 4) % 4096 + (b.length - 8)) 4096)).map (fun j =>
        .bytes "FLASH_ERASE" (toBytes 4 ((res.1 + le b 4 4) / 4096 * 4096 + 4096 * j))) ++ [.bytes "FLASH" (toBytes 4 (res.1 + le b 4 4) ++ b.drop 8)] } : State).judged m.dseq (some { code := if ok then 0 else 0xE }))) ∧
    (le b 0 1 = s.boot.copy → exec (.flashWrite ok) s = .next (s.judged m.dseq (some { code := 0xC }))) ∧
    (le b 0 1 ≠ s.boot.copy → res.2 < le b 4 4 + (b.length - 8) → exec (.flashWrite ok) s = .next (s.judged m.dseq (some { code := 0xD }))) := by
  have hdrop : (b.drop 8).length = b.length - 8 := List.length_drop
  have hdo : s.doFlash ok b = if le b 0 1 = s.boot.copy then (s, dres 0xC) else if res.2 < le b 4 4 + (b.length - 8) then (s, dres 0xD)
      else ((s.eraseSectors (res.1 + le b 4 4) (b.length - 8)).emit (.bytes "FLASH" (toBytes 4 (res.1 + le b 4 4) ++ b.drop 8)), dres (if ok then 0 else 0xE)) := by
    rw [State.doFlash, if_neg (by simp [hz, hoff, hdrop]; omega), ← hres, hdrop]
  rw [exec, execFlashWrite]
  refine ⟨fun hcopy hfit => perform_ends hnext (hdo.trans ?_) rfl hnext.1, fun hcopy => perform_refused hnext (hdo.trans (if_pos hcopy)),
    fun hcopy hbig => perform_refused hnext (hdo.trans ?_)⟩
  · rw [if_neg hcopy, if_neg (by omega)]
    rfl
  · rw [if_neg hcopy, if_pos hbig]
    rfl
/-- What has only been logged, whatever message is in work, still only waits for its mirror messages. -/
theorem workless_log {s : State} (h : s.workless.settledButMirror = true) (code : Nat) (cls : EClass) (src : Src) (t : Option Nat) (args : List Nat) :
    (s.log code cls src t args).workless.settledButMirror = true := by
  have hlog := log_sameButMessages s code cls src t args
  exact SameButMessages.settledButMirror (a := s.workless) ⟨by rw [hlog.rest]; rfl, hlog.flg, hlog.stk, hlog.mode⟩ h
/-- LEDGER: the burn begins, and ends with its slot read back as written. -/
theorem ledger_spec {s : State} {m : DMsg} {b : Bytes} (v : Bytes) (hnext : s.nextIs m 0x70 b) (hlen : b.length = 52) (h0 : le b 0 1 ≠ 0) (h4 : le b 0 1 ≤ 4) (hz : zeroBytes b 1 3 = true)
    (hv : v = (b.drop 4).take 48) :
    (ledgerLegal (le b 0 1) v = false → exec (.ledger (some true)) s = .next (s.judged m.dseq (some { code := 0x10 }))) ∧
    ∀ n, ledgerLegal (le b 0 1) v = true → (List.range (ledSlots (le b 0 1))).find? (fun n => !(s.ledSlot (le b 0 1) n).burned) = some n →
      exec (.ledger none) s = .next { s with boot := { s.boot with burning := some (le b 0 1, n, ledgerBytes (le b 0 1) v) } } ∧
      ∃ s', exec (.ledger (some true)) s = .next s' ∧ s'.boot.burning = none ∧
        s'.boot.ledger = put {} (8 * le b 0 1 + n) { burned := true, check := crc8 (ledgerBytes (le b 0 1) v), value := ledgerBytes (le b 0 1) v } s.boot.ledger := by
  subst hv
  have hshape : ¬(b.length ≠ 52 ∨ le b 0 1 = 0 ∨ 4 < le b 0 1 ∨ zeroBytes b 1 3 = false) := by simp [hlen, h0, hz]; omega
  rw [exec, execLedger, exec, execLedger]
  refine ⟨fun hbad => perform_refused hnext ?_, fun n hgood hfree => ⟨?_, ?_⟩⟩
  · rw [State.doLedger, if_neg hshape, if_pos hbad]
    rfl
  · obtain ⟨hset, hsvc, hwork, hrestart, hwaits, r, rest, hreqs, -⟩ := id hnext
    have hdown : s.goingDown = false := ((settled_iff _).mp hset).2.2.2.2.2.1
    have hon : s.ethOff = false := by
      simp only [State.goingDown, Bool.or_eq_false_iff, beq_eq_false_iff_ne] at hdown
      simp [State.ethOff, hdown]
    have hq : s.nextReq = some (m, 0x70, b) := by simp [State.nextReq, hwaits, hwork, hreqs]
    have hburn : s.beginBurn = { s with boot := { s.boot with burning := some (le b 0 1, n, ledgerBytes (le b 0 1) ((b.drop 4).take 48)) } } := by
      simp only [State.beginBurn, hq]
      rw [if_neg (by simp [hrestart, hsvc, hon, hlen, h0, hz, hgood]; omega), hfree]
    have hends := ends_busy (y := { s with boot := { s.boot with burning := some (le b 0 1, n, ledgerBytes (le b 0 1) ((b.drop 4).take 48)) } }) (settledButMirror_of_settled hset) hwork hreqs hrestart
      (show knownReq 0x70 = true by decide)
    rw [hburn]
    exact hends.trans (congrArg _ (flush_quiet _ ((settled_iff _).mp hset).2.2.2.2.1))
  · obtain ⟨z, hzd⟩ : ∃ z : State, z = { s with fresh := s.fresh + 1, boot := { s.boot with burning := none, ledger := put {} (8 * le b 0 1 + n) { burned := true, check := crc8 (ledgerBytes (le b 0 1) ((b.drop 4).take 48)), value := ledgerBytes (le b 0 1) ((b.drop 4).take 48) } s.boot.ledger } } := ⟨_, rfl⟩
    have hdo : s.doLedger true b = (z.log 0x010A .info .service none [le b 0 1, n, 0], dres 0) := by
      rw [State.doLedger]
      dsimp only
      rw [if_neg hshape, if_neg (by simp [hgood]), hfree, hzd]
      rfl
    have hlog := log_sameButMessages z 0x010A .info .service none [le b 0 1, n, 0]
    have hboot : (z.log 0x010A .info .service none [le b 0 1, n, 0]).boot = z.boot := by rw [hlog.rest]
    have hends := ends_judged (t := z.log 0x010A .info .service none [le b 0 1, n, 0]) hnext (by rw [hboot, hzd])
      (workless_log (by rw [hzd]; exact settledButMirror_of_settled hnext.1) _ _ _ _ _) (dres 0)
    refine ⟨_, (by rw [perform_next hnext, hdo]; exact hends), ?_, ?_⟩
    · rw [(flush_sameButMessages _).rest]
      exact (congrArg Boot.burning hboot).trans (by rw [hzd])
    · rw [(flush_sameButMessages _).rest]
      exact (congrArg Boot.ledger hboot).trans (by rw [hzd])

/-- RESTART: the rest of its message is answered with STATE, and the reset waits for the reply. -/
theorem restart_spec {s : State} {m : DMsg} (res : Nat) (rest : List (Nat × Bytes)) (hset : s.workless.settled = true) (hsvc : s.svc.fatalSvc = false) (hwork : s.boot.work = [m])
    (hrestart : m.restart = false) (hwaits : s.boot.waits = []) (hreqs : m.reqs = (0x51, []) :: rest) (hres : (m.results.all fun r => r.isSome) = true) (hid : res = s.trn.nextId % 65536) :
    ∃ s', exec .restart s = .next s' ∧ s'.boot.work = [] ∧ s'.boot.restart = some res := by
  obtain ⟨m1, hm1⟩ : ∃ m1 : DMsg, m1 = { m with restart := true, reqs := rest, results := m.results ++ [some ({ code := 0 } : DResult)] } := ⟨_, rfl⟩
  have hperform : (s.perform 0x51 fun s d _ b => s.doRestart d b) = s.working m1 := by
    rw [perform_front hset hsvc hwork hrestart (by simp [hwaits]) hreqs, hm1]
    simp [State.doRestart, State.judged, State.working, hwork, hreqs, dres]
  have hanswer := answerUnknown_restart s m1 (by rw [hm1]) (by simp [hwaits])
  have hans : (m1.closed (m1.reqs.map fun _ => some { code := 3 })).answered = true := by
    simp only [DMsg.answered, DMsg.closed, hm1, List.isEmpty_nil, Bool.true_and, List.all_append, hres, List.all_cons, List.all_nil, Option.isSome_some, Bool.and_true, List.all_map]
    simp
  obtain ⟨s', hends, hcalm⟩ := ends_replies_calm hset hanswer hans
  refine ⟨s', by rw [exec, execRestart, hperform]; exact hends, hcalm.work rfl, ?_⟩
  have hboot : s'.boot.restart = (s.replied (m1.closed (m1.reqs.map fun _ => some { code := 3 }))).boot.restart := congrArg (fun c => c.2.2.2.1.restart) hcalm.core
  rw [hboot]
  simp [State.replied, DMsg.closed, hm1, hid]
/-- Settles O59: a request is performed at once, and the end of its command adds nothing while its message is in work; a RESTART ends its message. -/
theorem pairRegionAndPartRequests : Obligations.PairRegionAndPartRequests := by
  intro s m b t hs hwf
  exact ⟨qpCreate_spec hwf, qpEnds_spec hwf, regCreate_spec, regRemove_spec, linkRequests_spec hs, mgmtRequest_spec, restart_spec, flashWrite_spec, ledger_spec⟩

end Sys2Proof.Machine
end
section
/-! Deploy messages are judged, and their requests answered (R446, R447, R448). -/
namespace Sys2Proof.Machine

/-! ### A message is taken -/

theorem working_self {s : State} {m : DMsg} (h : s.boot.work = [m]) : s.working m = s := by rw [State.working, ← h]
/-- Answers to requests of reserved types leave the rest of the message as it is. -/
theorem answerUnknown_working (s : State) (m : DMsg) (n : Nat) : ∃ m', (s.working m).answerUnknown n = s.working m' ∧ m'.restart = m.restart := by
  induction n generalizing m with
  | zero => exact ⟨m, rfl, rfl⟩
  | succ n ih =>
    rw [State.answerUnknown]
    split
    next m1 t b hn =>
      have hm : m1 = m := by
        unfold State.nextReq at hn
        split at hn
        · exact absurd hn (by simp)
        · by_cases hr : m.reqs = []
          · simp [State.working, hr] at hn
          · cases hq : m.reqs with
            | nil => exact absurd hq hr
            | cons r rest =>
              simp [State.working, hq] at hn
              exact hn.1.symm
      have hjudged (res : DResult) : (s.working m).judged m1.dseq (some res) = s.working { m with reqs := m.reqs.tail, results := m.results ++ [some res] } := by
        simp [State.judged, State.working, hm]
      split
      · obtain ⟨m', h, hr⟩ := ih { m with reqs := m.reqs.tail, results := m.results ++ [some { code := 3 }] }
        exact ⟨m', by rw [hjudged, h], hr⟩
      · split
        · exact ⟨m, rfl, rfl⟩
        · obtain ⟨m', h, hr⟩ := ih { m with reqs := m.reqs.tail, results := m.results ++ [some { code := 1 }] }
          exact ⟨m', by rw [hjudged, h], hr⟩
    · exact ⟨m, rfl, rfl⟩
/-- With one message in work that holds no RESTART, the end of a command keeps the core of the part. -/
theorem ends_working_core {s : State} {m : DMsg} (hset : s.workless.settledButMirror = true) (hwork : s.boot.work = [m]) (hrestart : m.restart = false) :
    ∃ s', s.ends = .next s' ∧ s'.calmCore = s.calmCore := by
  obtain ⟨m', hanswer, hr⟩ := answerUnknown_working s m m.reqs.length
  have hends := ends_working hset hanswer
  rw [working_self hwork] at hends
  have hloop : s.loopback = [] := ((settledButMirror_iff _).mp hset).2.2.2.2.2.1
  refine ⟨_, hends, ?_⟩
  split
  · have h := calm_decideExit _ (calm_deliverLocal trivial 4 (calm_flush _ (calm_triggers trivial _ (sendReply_calm (F := True) s m'))) (by rw [show (s.replied m').loopback = s.loopback from rfl, hloop]; simp))
    rw [h.core]
    simp only [State.replied, hr, hrestart, Bool.false_eq_true, if_false]
    rfl
  · have h := calm_decideExit _ (calm_deliverLocal trivial 4 (calm_flush _ (calm_triggers trivial _ (calm_refl : Calm 2 True (fun _ => False) (s.working m') (s.working m'))))
      (by rw [show (s.working m').loopback = s.loopback from rfl, hloop]; simp))
    exact h.core
/-- Bursts without an error leave the part as it is. -/
theorem readBuffer_clean (s : State) (a n : Nat) : s.readBuffer a n [] = s := by
  unfold State.readBuffer
  generalize List.range (ceilDiv n 32) = l
  induction l with
  | nil => rfl
  | cons j l ih => exact ih
section
variable {s : State} {k : Nat} {b : Bytes} {rest : List (Nat × Bytes)} (hset : s.settled = true) (hsvc : s.svc.fatalSvc = false) (hstep : 9 ≤ s.boot.step) (hin : s.boot.inbox = (k, b) :: rest)
  (hclean : s.linesPoison (s.deployBuf k) (ceilDiv b.length 64) = false)
include hset hsvc hstep
theorem deploy_taken : (s.svc.fatalSvc || s.ethOff || decide (s.boot.step < 9)) = false := by
  have hdown : s.goingDown = false := ((settled_iff s).mp hset).2.2.2.2.2.1
  simp only [State.goingDown, Bool.or_eq_false_iff, beq_eq_false_iff_ne] at hdown
  simp [State.ethOff, hdown, hsvc, hstep]
include hin hclean
/-- An accepted message is in work. -/
theorem deployMessage_accepted (hj : s.judgeDeploy b false = 0) : s.deployMessage [] =
    { s with boot := { s.boot with inbox := rest, dseq := le b 8 8, msgs := s.boot.msgs + 1, digests := if le b 4 1 = 2 then s.boot.digests.filter (fun x => x.1 != le b 8 8) else s.boot.digests, work := [{ dseq := le b 8 8, reqs := (parseDeploy b).getD [], buf := k }] } } := by
  have hpoi : (s.linesPoison (s.deployBuf k) (ceilDiv b.length 64) || (([] : List Nat).take (ceilDiv b.length 32)).contains 2) = false := by simp [hclean]
  have hwork : s.boot.work = [] := ((settled_iff s).mp hset).2.2.2.1
  unfold State.deployMessage
  rw [hin]
  simp only [deploy_taken hset hsvc hstep, Bool.false_eq_true, if_false, hpoi, readBuffer_clean, hj, hwork, insertMsg]
/-- One that is refused is counted, and its refusal waits to be sent. -/
theorem deployMessage_refused (hj : s.judgeDeploy b false ≠ 0) : s.deployMessage [] =
    ({ s with boot := { s.boot with inbox := rest, refused := s.boot.refused + 1, work := [{ dseq := le b 8 8, mstatus := s.judgeDeploy b false, buf := k }] } } : State).log 0x0109 .contained .service none
      [s.judgeDeploy b false, le b 8 8 % 2 ^ 32, le b 8 8 / 2 ^ 32] := by
  have hpoi : (s.linesPoison (s.deployBuf k) (ceilDiv b.length 64) || (([] : List Nat).take (ceilDiv b.length 32)).contains 2) = false := by simp [hclean]
  have hwork : s.boot.work = [] := ((settled_iff s).mp hset).2.2.2.1
  unfold State.deployMessage
  rw [hin]
  simp only [deploy_taken hset hsvc hstep, Bool.false_eq_true, if_false, hpoi, readBuffer_clean, hwork, insertMsg]
/-- DEPLOY_MESSAGE. -/
theorem deployMessage_spec : ∃ s', exec (.deployMessage []) s = .next s' ∧ s'.boot.inbox = rest ∧
      (s.judgeDeploy b false = 0 → s'.boot.dseq = le b 8 8 ∧ s'.boot.msgs = s.boot.msgs + 1 ∧ s'.boot.refused = s.boot.refused) ∧
      (s.judgeDeploy b false ≠ 0 → s'.boot.dseq = s.boot.dseq ∧ s'.boot.msgs = s.boot.msgs ∧ s'.boot.refused = s.boot.refused + 1) := by
  have hcore {z s' : State} (h : s'.calmCore = z.calmCore) : s'.boot.inbox = z.boot.inbox ∧ s'.boot.dseq = z.boot.dseq ∧ s'.boot.msgs = z.boot.msgs ∧ s'.boot.refused = z.boot.refused :=
    have hboot {α : Type} (f : Boot → α) : f { s'.boot with session := 0, digests := [], bufs := 0, work := [] } = f { z.boot with session := 0, digests := [], bufs := 0, work := [] } :=
      congrArg (fun c => f c.2.2.2.1) h
    ⟨hboot Boot.inbox, hboot Boot.dseq, hboot Boot.msgs, hboot Boot.refused⟩
  rw [exec, execDeployMessage]
  by_cases hj : s.judgeDeploy b false = 0
  · rw [deployMessage_accepted hset hsvc hstep hin hclean hj]
    obtain ⟨s', hends, hc⟩ := ends_working_core (s := { s with boot := { s.boot with inbox := rest, dseq := le b 8 8, msgs := s.boot.msgs + 1, digests := if le b 4 1 = 2 then s.boot.digests.filter (fun x => x.1 != le b 8 8) else s.boot.digests, work := [{ dseq := le b 8 8, reqs := (parseDeploy b).getD [], buf := k }] } })
      ((settledButMirror_iff _).mpr (by obtain ⟨h1, h2, h3, -, -, h6, h7, h8⟩ := (settled_iff s).mp hset; exact ⟨h1, h2, h3, rfl, h6, h7, h8⟩)) rfl rfl
    obtain ⟨hinbox, hdseq, hmsgs, href⟩ := hcore hc
    exact ⟨s', hends, hinbox, fun _ => ⟨hdseq, hmsgs, href⟩, fun h => absurd hj h⟩
  · rw [deployMessage_refused hset hsvc hstep hin hclean hj]
    obtain ⟨z, hz⟩ : ∃ z : State, z = { s with boot := { s.boot with inbox := rest, refused := s.boot.refused + 1, work := [{ dseq := le b 8 8, mstatus := s.judgeDeploy b false, buf := k }] } } := ⟨_, rfl⟩
    rw [← hz]
    have hboot : (z.log 0x0109 .contained .service none [s.judgeDeploy b false, le b 8 8 % 2 ^ 32, le b 8 8 / 2 ^ 32]).boot = z.boot := by rw [(log_sameButMessages z _ _ _ _ _).rest]
    obtain ⟨s', hends, hc⟩ := ends_working_core (s := z.log 0x0109 .contained .service none [s.judgeDeploy b false, le b 8 8 % 2 ^ 32, le b 8 8 / 2 ^ 32])
      (workless_log ((settledButMirror_iff _).mpr (by obtain ⟨h1, h2, h3, -, -, h6, h7, h8⟩ := (settled_iff s).mp hset; rw [hz]; exact ⟨h1, h2, h3, rfl, h6, h7, h8⟩)) _ _ _ _ _)
      (by rw [hboot, hz]) rfl
    obtain ⟨hinbox, hdseq, hmsgs, href⟩ := hcore hc
    rw [hboot, hz] at hinbox hdseq hmsgs href
    exact ⟨s', hends, hinbox, fun h => absurd h hj, fun _ => ⟨hdseq, hmsgs, href⟩⟩
end

/-! ### Requests of a message -/

theorem bodyFor_malformed (s : State) {b : Bytes} {n o : Nat} (h : b.length ≠ n) (k : Nat → State × Option DResult) : s.bodyFor b n o k = (s, dres 2) := if_pos h
theorem doLoad_malformed {s : State} {d i : Nat} {b : Bytes} (hb : b.length = 1) : s.doLoad d i b = (s, dres 2) := by
  obtain ⟨x, rfl⟩ : ∃ x, b = [x] := List.length_eq_one_iff.mp hb
  rfl
/-- `f` performs the requests of type `ty` with the command `c`, and answers MALFORMED to a body of one byte. -/
def Performs (c : Instr) (ty : Nat) (f : State → Nat → Nat → Bytes → State × Option DResult) : Prop :=
  (∀ s, exec c s = (s.perform ty f).ends) ∧ ∀ s d i b, b.length = 1 → f s d i b = (s, dres 2)
theorem performs {c : Instr} {ty ty' : Nat} {f : State → Nat → Nat → Bytes → State × Option DResult} (hty : some ty = some ty') (hexec : ∀ s, exec c s = (s.perform ty f).ends)
    (hbad : ∀ s d i b, b.length = 1 → f s d i b = (s, dres 2)) : ∃ f, Performs c ty' f := by
  cases hty
  exact ⟨f, hexec, hbad⟩
/-- Each RTYPE has a command that performs it, and a body of one byte breaks the layout of each. -/
theorem exec_reqOf {c : Instr} {ty : Nat} (hc : reqOf c = some ty) : ∃ f, Performs c ty f := by
  unfold reqOf at hc
  split at hc
  · exact performs hc (fun _ => rfl) fun s d i b hb => doLoad_malformed hb
  · exact performs hc (fun _ => rfl) fun s _ _ b hb => bodyFor_malformed s (by omega) _
  · exact performs hc (fun _ => rfl) fun s _ _ b hb => bodyFor_malformed s (by omega) _
  · exact performs hc (fun _ => rfl) fun s _ _ b hb => bodyFor_malformed s (by omega) _
  · exact performs hc (fun _ => rfl) fun s _ _ b hb => bodyFor_malformed s (by omega) _
  · exact performs hc (fun _ => rfl) fun s _ _ b hb => bodyFor_malformed s (by omega) _
  · exact performs hc (fun _ => rfl) fun s _ _ b hb => bodyFor_malformed s (by omega) _
  · exact performs hc (fun _ => rfl) fun s _ _ b hb => if_pos (by omega)
  · exact performs hc (fun _ => rfl) fun s _ _ b hb => if_pos (by omega)
  · exact performs hc (fun _ => rfl) fun s _ _ b hb => bodyFor_malformed s (by omega) _
  · exact performs hc (fun _ => rfl) fun s _ _ b hb => bodyFor_malformed s (by omega) _
  · exact performs hc (fun _ => rfl) fun s _ _ b hb => bodyFor_malformed s (by omega) _
  · exact performs hc (fun _ => rfl) fun s _ _ b hb => bodyFor_malformed s (by omega) _
  · exact performs hc (fun _ => rfl) fun s _ _ b hb => bodyFor_malformed s (by omega) _
  · exact performs hc (fun _ => rfl) fun s _ _ b hb => bodyFor_malformed s (by omega) _
  · exact performs hc (fun _ => rfl) fun s _ _ b hb => bodyFor_malformed s (by omega) _
  · exact performs hc (fun _ => rfl) fun s _ _ b hb => bodyFor_malformed s (by omega) _
  · exact performs hc (fun _ => rfl) fun s _ _ b hb => bodyFor_malformed s (by omega) _
  · exact performs hc (fun _ => rfl) fun s _ _ b hb => bodyFor_malformed s (by omega) _
  · exact performs hc (fun _ => rfl) fun s _ _ b hb => if_pos (.inl (by omega))
  · exact performs hc (fun _ => rfl) fun s _ _ b hb => if_pos (.inl (by omega))
  · exact performs hc (fun _ => rfl) fun s _ _ b hb => if_pos (.inl (by omega))
  · exact performs hc (fun _ => rfl) fun s _ _ b hb => if_pos (by rintro rfl; simp at hb)
  · exact performs hc (fun _ => rfl) fun s _ _ b hb => if_pos (by rintro rfl; simp at hb)
  · exact performs hc (fun _ => rfl) fun s _ _ b hb => if_pos (.inl (by omega))
  · exact performs hc (fun _ => rfl) fun s _ _ b hb => if_pos (.inl (by omega))
  · exact absurd hc (by simp)
/-- A command of another RTYPE than that of the request judged next performs nothing. -/
theorem perform_other {s : State} {m : DMsg} {ty ty' : Nat} {b : Bytes} (h : s.nextIs m ty b) (hty : ty' ≠ ty) (f : State → Nat → Nat → Bytes → State × Option DResult) : s.perform ty' f = s := by
  obtain ⟨-, -, hwork, -, hwaits, r, rest, hreqs, -⟩ := h
  have hnext : s.nextReq = some (m, ty, b) := by simp [State.nextReq, hwaits, hwork, hreqs]
  simp only [State.perform, hnext]
  exact if_neg fun hc => hty hc.1.symm
theorem pump_waiting {s : State} {q : Nat} (h : (s.qp q).rnrWait.isSome = true) (n : Nat) : s.pump q n = s := by
  cases n with
  | zero => rfl
  | succ n =>
    have hnone : s.pump1 q = none := by
      rw [State.pump1]
      exact if_pos (.inr h)
    rw [State.pump, hnone]
/-- The operation that sends bytes of the part's own on queue pair 0. -/
def State.ownOp (s : State) (tag : Nat) (b : Bytes) : TOp :=
  { id := s.trn.nextId % 65536, raw := fit 64 ([] ++ toBytes 8 0 ++ toBytes 1 1 ++ toBytes 7 0 ++ toBytes 8 0 ++ toBytes 4 b.length ++ toBytes 4 0 ++ toBytes 8 tag), psn := (s.qp 0).npsn,
    n := (s.qp 0).packets b.length, own := b }
theorem sendOn0_ready {s : State} (h : (s.qp 0).state = 3) (tag : Nat) (b : Bytes) : s.sendOn0 tag b =
    (({ s with trn := { s.trn with nextId := s.trn.nextId + 1 } } : State).setQp 0 { s.qp 0 with ops := (s.qp 0).ops ++ [s.ownOp tag b] }).pump 0 512 := if_pos h
/-- A queue pair that waits takes the reply as one more operation. -/
theorem sendReply_waiting {s : State} {m : DMsg} (hready : (s.qp 0).state = 3) (hwait : (s.qp 0).rnrWait.isSome = true) (hlost : m.lost = false) (hwf : SMapWf ({} : Qp) s.trn.qps = true) :
    ∃ o : TOp, o.own = m.reply ∧ (s.working m).sendReply m =
      { s.replied m with trn := { s.trn with nextId := s.trn.nextId + 1, qps := put {} 0 { s.qp 0 with ops := (s.qp 0).ops ++ [o] } s.trn.qps } } := by
  obtain ⟨z, hz⟩ : ∃ z, z = s.replied m := ⟨_, rfl⟩
  have hqp : z.qp 0 = s.qp 0 := by rw [hz]; rfl
  have hsend : (s.working m).sendReply m = z.sendOn0 m.dseq m.reply := by
    rw [hz]
    unfold State.sendReply
    simp only [hlost, Bool.false_eq_true, if_false]
    rfl
  have hon := sendOn0_ready (by rw [hqp]; exact hready) m.dseq m.reply
  obtain ⟨o, ho⟩ : ∃ o, o = z.ownOp m.dseq m.reply := ⟨_, rfl⟩
  rw [← ho] at hon
  have hself : ((({ z with trn := { z.trn with nextId := z.trn.nextId + 1 } } : State).setQp 0 { z.qp 0 with ops := (z.qp 0).ops ++ [o] }).qp 0) = { z.qp 0 with ops := (z.qp 0).ops ++ [o] } :=
    get_put_self _ _ _ _ (by rw [hz]; exact hwf)
  refine ⟨o, by rw [ho]; rfl, ?_⟩
  rw [hsend, hon, pump_waiting (by rw [hself, hqp]; exact hwait), hz]
  rfl
/-- The last request of a message breaks its layout: its reply leaves. -/
theorem lastRequest_spec {s : State} {m : DMsg} {c : Instr} {ty : Nat} {b : Bytes} (hc : reqOf c = some ty) (hb : b.length = 1) (hset : s.workless.settled = true) (hsvc : s.svc.fatalSvc = false)
    (hwork : s.boot.work = [m]) (hrestart : m.restart = false) (hwaits : s.boot.waits = []) (hreqs : m.reqs = [(ty, b)]) (hres : (m.results.all fun r => r.isSome) = true) :
    ∃ s', exec c s = .next s' ∧ s'.boot.work = [] ∧ s'.boot.bufs.getLsbD m.buf = false ∧
      ((s.qp 0).state = 3 → (s.qp 0).rnrWait.isSome = true → m.lost = false → SMapWf ({} : Qp) s.trn.qps = true →
        (s'.qp 0).ops.map (fun o => o.own) = (s.qp 0).ops.map (fun o => o.own) ++ [({ m with results := m.results ++ [some { code := 2 }] } : DMsg).reply]) := by
  obtain ⟨f, hexec, hbad⟩ := exec_reqOf hc
  obtain ⟨m1, hm1⟩ : ∃ m1 : DMsg, m1 = { m with reqs := [], results := m.results ++ [some ({ code := 2 } : DResult)] } := ⟨_, rfl⟩
  have hperform : s.perform ty f = s.working m1 := by
    rw [perform_front hset hsvc hwork hrestart (by simp [hwaits]) hreqs, hbad s _ _ b hb, hm1]
    simp [State.judged, State.working, hwork, hreqs, dres]
  have hanswer : (s.working m1).answerUnknown m1.reqs.length = s.working m1 := answerUnknown_none s m1 (by rw [hm1]) _
  have hans : m1.answered = true := by simp [DMsg.answered, hm1, hres]
  have hends := ends_replies hset hanswer hans
  obtain ⟨s', hends', hcalm⟩ := ends_replies_calm hset hanswer hans
  obtain rfl := Host.Outcome.next.inj (hends.symm.trans hends')
  refine ⟨_, by rw [hexec, hperform]; exact hends, hcalm.work rfl, hcalm.bufs m.buf ?_, fun hready hwait hlost hwf => ?_⟩
  · simp [State.replied, hm1]
  · obtain ⟨h1, h2, -, -, h5, -, h7, h8⟩ := (settled_iff _).mp hset
    obtain ⟨o, ho, hsend⟩ := sendReply_waiting (m := m1) hready hwait (by rw [hm1]; exact hlost) hwf
    obtain ⟨y, hy⟩ : ∃ y, y = (s.working m1).sendReply m1 := ⟨_, rfl⟩
    rw [← hy] at hsend ⊢
    rw [triggers_quiet y (by rw [hsend]; exact h2), flush_quiet y (by rw [hsend]; exact h5), deliverLocal_quiet y 4 (by rw [hsend]; exact h7), decideExit_quiet y (by rw [hsend]; exact h8)]
    have hself : y.qp 0 = { s.qp 0 with ops := (s.qp 0).ops ++ [o] } := by
      rw [hsend]
      exact get_put_self _ _ _ _ hwf
    rw [hself, List.map_append, List.map_singleton, ho, hm1]
    rfl
/-- Settles O56: an accepted or refused message is read off its judgement, and what the end of the command adds keeps the registers of deploy messages. -/
theorem requestsAnswered : Obligations.RequestsAnswered := by
  intro s m c ty b
  refine ⟨fun k rest hset hsvc hstep hin hclean => deployMessage_spec hset hsvc hstep hin hclean, fun hnext hc hb => ?_, fun ty' hnext hknown hc hty => ?_, lastRequest_spec⟩
  · obtain ⟨f, hexec, hbad⟩ := exec_reqOf hc
    rw [hexec]
    exact perform_refused hnext (hbad s _ _ b hb)
  · obtain ⟨f, hexec, -⟩ := exec_reqOf hc
    obtain ⟨hset, -, hwork, hrestart, -, r, rest, hreqs, -⟩ := id hnext
    rw [hexec, perform_other hnext hty, ends_busy (settledButMirror_of_settled hset) hwork hreqs hrestart hknown]
    exact congrArg _ (flush_quiet s ((settled_iff _).mp hset).2.2.2.2.1)

end Sys2Proof.Machine
end
section
/-! References: their loss and return, their witnesses, and changeovers (R385 to R393). -/
namespace Sys2Proof.Machine

/-! ### Presence -/

section
variable {p : BitVec 2} {r : Fin 2} {k : Nat}
theorem refPresent_without (h : k ≠ r.val) : (p &&& ~~~(BitVec.twoPow 2 r.val)).getLsbD k = p.getLsbD k := by
  by_cases hk : k < 2
  · simp only [BitVec.getLsbD_and, BitVec.getLsbD_not, BitVec.getLsbD_twoPow, hk, decide_eq_false (Ne.symm h), decide_true, Bool.and_false, Bool.not_false, Bool.and_true]
  · rw [BitVec.getLsbD_of_ge _ _ (by omega), BitVec.getLsbD_of_ge _ _ (by omega)]
theorem refPresent_gone : (p &&& ~~~(BitVec.twoPow 2 r.val)).getLsbD r.val = false := by
  simp only [BitVec.getLsbD_and, BitVec.getLsbD_not, BitVec.getLsbD_twoPow, r.isLt, decide_true, Bool.and_self, Bool.not_true, Bool.and_false]
theorem refPresent_with : (p ||| BitVec.twoPow 2 r.val).getLsbD r.val = true := by
  simp only [BitVec.getLsbD_or, BitVec.getLsbD_twoPow, r.isLt, decide_true, Bool.and_self, Bool.or_true]
theorem refPresent_withOther (h : k ≠ r.val) : (p ||| BitVec.twoPow 2 r.val).getLsbD k = p.getLsbD k := by
  simp only [BitVec.getLsbD_or, BitVec.getLsbD_twoPow, decide_eq_false (Ne.symm h), Bool.and_false, Bool.or_false]
end
/-- What holdover decides, by cases. -/
theorem judgeHoldover_stays {s : State} (h : s.clk.holdover = false ∨ s.clk.pending ≠ 0) : s.judgeHoldover = s :=
  if_neg fun hc => by rcases h with h | h <;> simp_all
theorem judgeHoldover_relock {s : State} (h : s.clk.holdover = true) (hp : s.clk.pending = 0) (hback : s.refPresent s.clk.sel = true) :
    s.judgeHoldover = { s with clk := { s.clk with pending := 2 } } := by
  rw [State.judgeHoldover, if_pos ⟨h, hp⟩, if_pos hback, State.decideChange, if_pos hp]
theorem judgeHoldover_lost {s : State} (h : s.clk.holdover = true) (hlost : s.refPresent s.clk.sel = false) :
    s.judgeHoldover = { s with clk := { s.clk with pending := if s.clk.pending = 0 ∧ s.altUsable = true then 3 else s.clk.pending } } := by
  unfold State.judgeHoldover
  by_cases hp : s.clk.pending = 0
  · rw [if_pos ⟨h, hp⟩, if_neg (by simp [hlost])]
    by_cases ha : s.altUsable = true
    · rw [if_pos ha, if_pos ⟨hp, ha⟩, State.decideChange, if_pos hp]
    · rw [if_neg ha, if_neg fun hc => ha hc.2]
  · rw [if_neg fun hc => hp hc.2, if_neg fun hc => hp hc.1]
/-- REFERENCE_LOST. -/
theorem referenceLost_spec {s : State} (hset : s.settled = true) (hm : s.svc.mirrorEn = false) (r : Fin 2) (hp : s.refPresent r = true) :
    (r.val ≠ s.clk.sel → exec (.referenceLost r) s = .next { s with clk := { s.clk with present := s.clk.present &&& ~~~(BitVec.twoPow 2 r) } }) ∧
    (r.val = s.clk.sel → s.refInUse = true →
      ∃ s', exec (.referenceLost r) s = .next s' ∧ s'.clk = { s.clk with present := s.clk.present &&& ~~~(BitVec.twoPow 2 r), holdover := true, pending := if s.clk.pending = 0 ∧ s.altUsable = true then 3 else s.clk.pending } ∧
        s'.svc.head = s.svc.head + 1 ∧ s'.mem = s.mem ∧ s'.hobs = s.hobs ∧ s'.ranges = s.ranges) := by
  refine ⟨fun hr => ?_, fun hr huse => ?_⟩
  · have h : s.refLost r = { s with clk := { s.clk with present := s.clk.present &&& ~~~(BitVec.twoPow 2 r) } } := by
      rw [State.refLost, if_pos hp]
      exact if_neg fun hc => hr hc.1
    simp only [exec, execReferenceLost, h]
    exact ends_settled _ hset
  · obtain ⟨z, hz⟩ : ∃ z : State, z = { s with clk := { s.clk with present := s.clk.present &&& ~~~(BitVec.twoPow 2 r), holdover := true } } := ⟨_, rfl⟩
    have hlost : s.refLost r = (z.log 0x0702 .contained .power none [r.val]).judgeHoldover := by
      rw [State.refLost, if_pos hp, hz]
      exact if_pos ⟨hr, huse⟩
    have hclk : (z.log 0x0702 .contained .power none [r.val]).clk = z.clk := log_clk ..
    have hgone : (z.log 0x0702 .contained .power none [r.val]).refPresent (z.log 0x0702 .contained .power none [r.val]).clk.sel = false := by
      rw [State.refPresent, hclk, hz]
      change (s.clk.present &&& ~~~(BitVec.twoPow 2 r.val)).getLsbD s.clk.sel = false
      rw [← hr]
      exact refPresent_gone
    have halt : (z.log 0x0702 .contained .power none [r.val]).altUsable = s.altUsable := by
      have hother : (s.clk.present &&& ~~~(BitVec.twoPow 2 r.val)).getLsbD s.alternate = s.clk.present.getLsbD s.alternate :=
        refPresent_without (by rw [State.alternate]; omega)
      have h : z.altUsable = s.altUsable := by
        rw [hz]
        exact congrArg (fun p => s.fitted s.alternate && p && !s.clk.suspect.getLsbD s.alternate) hother
      rw [← h]
      exact log_keeps State.altUsable (fun _ _ _ _ => rfl) ..
    rw [judgeHoldover_lost (by rw [hclk, hz]) hgone, halt, hclk] at hlost
    have hexec : exec (.referenceLost r) s = .next { z.log 0x0702 .contained .power none [r.val] with clk := { z.clk with pending := if z.clk.pending = 0 ∧ s.altUsable = true then 3 else z.clk.pending } } := by
      simp only [exec, execReferenceLost, hlost]
      exact ends_settled _ ((settled_log (s := z) (by rw [hz]; exact hm) 0x0702 .contained .power none [r.val]).trans (by rw [hz]; exact hset))
    refine ⟨_, hexec, by rw [hz], ?_, ?_, ?_, ?_⟩
    · exact (log_head ..).trans (by rw [hz])
    · exact (log_mem ..).trans (by rw [hz])
    · exact (log_hobs ..).trans (by rw [hz])
    · exact (log_ranges ..).trans (by rw [hz])
/-- REFERENCE_PRESENT. -/
theorem referencePresent_spec {s : State} (hset : s.settled = true) (r : Fin 2) (hf : s.fitted r = true) :
    ((s.clk.holdover = false ∨ s.clk.pending ≠ 0) → exec (.referencePresent r) s = .next { s with clk := { s.clk with present := s.clk.present ||| BitVec.twoPow 2 r } }) ∧
    (s.clk.holdover = true → s.clk.pending = 0 → r.val = s.clk.sel → exec (.referencePresent r) s = .next { s with clk := { s.clk with present := s.clk.present ||| BitVec.twoPow 2 r, pending := 2 } }) ∧
    (s.clk.holdover = true → s.clk.pending = 0 → r.val = s.alternate → r.val ≠ s.clk.sel → s.refPresent s.clk.sel = false → s.clk.suspect.getLsbD r = false →
      exec (.referencePresent r) s = .next { s with clk := { s.clk with present := s.clk.present ||| BitVec.twoPow 2 r, pending := 3 } }) := by
  obtain ⟨z, hz⟩ : ∃ z : State, z = { s with clk := { s.clk with present := s.clk.present ||| BitVec.twoPow 2 r } } := ⟨_, rfl⟩
  have hback : s.refBack r = z.judgeHoldover := by
    rw [hz]
    exact if_pos hf
  have hold : z.clk.holdover = s.clk.holdover := by rw [hz]
  have hpend : z.clk.pending = s.clk.pending := by rw [hz]
  rw [exec, execReferencePresent, hback]
  refine ⟨fun h => ?_, fun hh hp hr => ?_, fun hh hp hr hsel hgone hsus => ?_⟩
  · rw [judgeHoldover_stays (by rwa [hold, hpend]), hz]
    exact ends_settled _ hset
  · have hpres : z.refPresent z.clk.sel = true := by
      rw [hz]
      change (s.clk.present ||| BitVec.twoPow 2 r.val).getLsbD s.clk.sel = true
      rw [← hr]
      exact refPresent_with
    rw [judgeHoldover_relock (hold.trans hh) (hpend.trans hp) hpres, hz]
    exact ends_settled _ hset
  · have hlost : z.refPresent z.clk.sel = false := by
      rw [hz]
      exact (refPresent_withOther hsel.symm).trans hgone
    have husable : z.altUsable = true := by
      rw [hz]
      change (s.fitted s.alternate && (s.clk.present ||| BitVec.twoPow 2 r.val).getLsbD s.alternate && !s.clk.suspect.getLsbD s.alternate) = true
      rw [← hr, hf, refPresent_with, hsus]
      rfl
    rw [judgeHoldover_lost (hold.trans hh) hlost, if_pos ⟨hpend.trans hp, husable⟩, hz]
    exact ends_settled _ hset

/-! ### Witnesses -/

/-- The clocks' registers after a witness has been judged: `k` 0 the alternate, 1 the partners. -/
def Clocks.witnessed (c : Clocks) (k : Nat) (off : Option Int) : Clocks :=
  let old := if k = 0 then c.altRun else c.peerRun
  let run := runNext old off
  let clears : Bool := match off with | some v => !disagrees v | none => false
  let alarm := if k = 0 then c.alarmAlt else c.alarmPeer
  let alarm' := if old < 10 ∧ run = 10 then true else if clears then false else alarm
  let ob := match off with | some v => int16 v | none => if k = 0 then c.altOff else c.peerMed
  if k = 0 then { c with altOff := ob, altValid := off.isSome, altRun := run, alarmAlt := alarm' } else { c with peerMed := ob, peerValid := off.isSome, peerRun := run, alarmPeer := alarm' }
theorem judgeWitness_rest {s : State} (hm : s.svc.mirrorEn = false) (k : Nat) (off : Option Int) :
    ∃ v c o, s.judgeWitness k off = { s with clk := s.clk.witnessed k off, svc := v, com := c, out := o } ∧ v.mirrorEn = false ∧ (s.judgeWitness k off).settled = s.settled := by
  obtain ⟨z, hz⟩ : ∃ z : State, z = { s with clk := s.clk.witnessed k off } := ⟨_, rfl⟩
  have hjudge : ∃ args, s.judgeWitness k off = z ∨ s.judgeWitness k off = z.log 0x0703 .contained .power none args := by
    rw [hz]
    unfold State.judgeWitness
    extract_lets c old run clears alarm alarm' ob c' s1
    refine ⟨[k, offArg ob], ?_⟩
    split
    · exact .inr rfl
    · exact .inl rfl
  have hmz : z.svc.mirrorEn = false := by rw [hz]; exact hm
  obtain ⟨args, h | h⟩ := hjudge
  · rw [h, hz]
    exact ⟨s.svc, s.com, s.out, rfl, hm, rfl⟩
  · rw [h]
    refine ⟨(z.log 0x0703 .contained .power none args).svc, (z.log 0x0703 .contained .power none args).com, (z.log 0x0703 .contained .power none args).out, ?_, (log_mirrorEn ..).trans hmz,
      (settled_log hmz _ _ _ _ _).trans (by rw [hz]; rfl)⟩
    conv => lhs; rw [log_rest]
    rw [hz]
/-- WITNESS_WINDOW. -/
theorem witnessWindow_spec {s : State} (hset : s.settled = true) (hm : s.svc.mirrorEn = false) (v : Int) (run : Nat) (huse : s.refInUse = true) (hfit : s.fitted s.alternate = true)
    (hpres : s.refPresent s.alternate = true) (hrun : run = (if 1500 < v.natAbs then min 10 (s.clk.altRun + 1) else 0)) :
    ∃ s', exec (.witnessWindow (some v) []) s = .next s' ∧ s'.clk.altOff = BitVec.ofInt 16 v ∧ s'.clk.altValid = true ∧ s'.clk.altRun = run ∧
      s'.clk.peerValid = decide (3 ≤ s.witnesses.length) ∧ s'.clk.witnesses = s.witnesses.length ∧
      s'.clk.pending = (if run = 10 ∧ s'.clk.peerRun = 10 ∧ s.altUsable = true ∧ s.clk.pending = 0 then 1 else s.clk.pending) ∧ s'.mem = s.mem ∧ s'.hobs = s.hobs ∧ s'.ranges = s.ranges ∧ s'.gates = s.gates := by
  obtain ⟨peer, hpeer, hsome⟩ : ∃ peer : Option Int, peer = (if 3 ≤ s.witnesses.length then some (median (s.witnesses.map fun l => (s.gate l).ppm.toInt)) else none) ∧ peer.isSome = decide (3 ≤ s.witnesses.length) := by
    refine ⟨_, rfl, ?_⟩
    split <;> simp_all
  obtain ⟨v1, c1, o1, h1, hm1, hset1⟩ := judgeWitness_rest hm 0 (some v)
  obtain ⟨v2, c2, o2, h2, hm2, hset2⟩ := judgeWitness_rest (s := s.judgeWitness 0 (some v)) (by rw [h1]; exact hm1) 1 peer
  obtain ⟨z, hz⟩ : ∃ z : State, z = { (s.judgeWitness 0 (some v)).judgeWitness 1 peer with clk := { ((s.judgeWitness 0 (some v)).judgeWitness 1 peer).clk with witnesses := s.witnesses.length } } := ⟨_, rfl⟩
  have hwindow : s.witnessWindow (some v) [] = if z.clk.altRun = 10 ∧ z.clk.peerRun = 10 ∧ z.altUsable = true then z.decideChange 1 else z := by
    unfold State.witnessWindow
    rw [if_pos huse]
    simp only [List.foldl_nil, hfit, hpres, Bool.and_self, if_true, hz]
    rw [hpeer]
    rfl
  have hclk : z.clk = { (s.clk.witnessed 0 (some v)).witnessed 1 peer with witnesses := s.witnesses.length } := by
    rw [hz, h2, h1]
  have hrest : z = { s with clk := z.clk, svc := z.svc, com := z.com, out := z.out } := by
    rw [hz, h2, h1]
  have hfield {α : Type} (f : State → α) : f z = f { s with clk := z.clk, svc := z.svc, com := z.com, out := z.out } := congrArg f hrest
  have hzset : z.settled = true := by
    have h : z.settled = ((s.judgeWitness 0 (some v)).judgeWitness 1 peer).settled := by rw [hz]; rfl
    rw [h, hset2, hset1, hset]
  have halt : z.clk.altRun = run := by
    rw [hclk, hrun]
    simp [Clocks.witnessed, runNext, disagrees]
  have husable : z.altUsable = s.altUsable := by
    rw [hrest, hclk]
    rfl
  have hpend : z.clk.pending = s.clk.pending := by
    rw [hclk]
    rfl
  have hdone : s.witnessWindow (some v) [] = { z with clk := { z.clk with pending := if run = 10 ∧ z.clk.peerRun = 10 ∧ s.altUsable = true ∧ s.clk.pending = 0 then 1 else s.clk.pending } } := by
    rw [hwindow, halt, husable]
    by_cases hdue : run = 10 ∧ z.clk.peerRun = 10 ∧ s.altUsable = true
    · rw [if_pos hdue, State.decideChange, hpend]
      by_cases hp : s.clk.pending = 0
      · rw [if_pos hp, if_pos ⟨hdue.1, hdue.2.1, hdue.2.2, hp⟩]
      · rw [if_neg hp, if_neg fun h => hp h.2.2.2, ← hpend]
    · rw [if_neg hdue, if_neg fun h => hdue ⟨h.1, h.2.1, h.2.2.1⟩, ← hpend]
  have hexec : exec (.witnessWindow (some v) []) s = .next { z with clk := { z.clk with pending := if run = 10 ∧ z.clk.peerRun = 10 ∧ s.altUsable = true ∧ s.clk.pending = 0 then 1 else s.clk.pending } } := by
    rw [exec, execWitnessWindow, hdone]
    exact ends_settled _ hzset
  refine ⟨_, hexec, ?_, ?_, halt, ?_, ?_, rfl, hfield State.mem, hfield State.hobs, hfield State.ranges, hfield State.gates⟩
  · exact (congrArg Clocks.altOff hclk).trans rfl
  · exact (congrArg Clocks.altValid hclk).trans rfl
  · exact (congrArg Clocks.peerValid hclk).trans hsome
  · exact (congrArg Clocks.witnesses hclk).trans rfl

/-! ### Changeover -/

/-- The registers of the clocks once the reference has changed. -/
def Clocks.changed (c : Clocks) : Clocks :=
  { c with sel := if c.pending ≠ 2 then 1 - c.sel else c.sel, suspect := if c.pending = 1 then c.suspect ||| BitVec.twoPow 2 c.sel else c.suspect, holdover := false, pending := 0,
           changeovers := min 255 (c.changeovers + 1) }
/-- The trims that a changeover sets. -/
def Clocks.trimmed (c : Clocks) (trims : List (Fin 64 × Fin 64)) : Clocks :=
  { c with trimBridge := (List.range 4).foldl (fun m q => put 0 q ((trims.getD q (0, 0)).1.val) m) c.trimBridge,
           trimStation := (List.range 4).foldl (fun m q => put 0 q ((trims.getD q (0, 0)).2.val) m) c.trimStation }
/-- A changeover up to its event. -/
def State.changedOver (s : State) (trims : List (Fin 64 × Fin 64)) : State := { s with clk := s.clk.changed.trimmed trims }
/-- What follows the event: a part-fatal error of the meantime takes effect, and holdover goes on where the reference is not there. -/
def State.referenceChanged (s : State) : State :=
  let s1 := if s.svc.cause ≠ 0 ∧ 10 ≤ s.boot.step then s.fatalStop else s
  if s1.refPresent s1.clk.sel then s1 else ({ s1 with clk := { s1.clk with holdover := true } } : State).judgeHoldover
theorem calibrate_foldl (f g : Nat → Nat) (l : List Nat) (s : State) : l.foldl (fun s q => s.calibrate q (f q) (g q)) s =
    { s with clk := { s.clk with trimBridge := l.foldl (fun m q => put 0 q (f q) m) s.clk.trimBridge, trimStation := l.foldl (fun m q => put 0 q (g q) m) s.clk.trimStation } } := by
  induction l generalizing s with
  | nil => rfl
  | cons q l ih => exact ih _
theorem changeover_eq {s : State} (h : s.mantelOff = true) (trims : List (Fin 64 × Fin 64)) :
    ∃ args, s.changeover trims = ((s.changedOver trims).log 0x0704 .contained .power none args).referenceChanged := by
  refine ⟨[if s.clk.pending ≠ 2 then 1 - s.clk.sel else s.clk.sel, offArg s.clk.altOff, offArg s.clk.peerMed], ?_⟩
  unfold State.changeover
  rw [if_pos h]
  extract_lets c swap new s1 s2 s3 s4
  have hs2 : s2 = s.changedOver trims := calibrate_foldl (fun q => (trims.getD q (0, 0)).1.val) (fun q => (trims.getD q (0, 0)).2.val) _ _
  have hs3 : s3 = (s.changedOver trims).log 0x0704 .contained .power none [if s.clk.pending ≠ 2 then 1 - s.clk.sel else s.clk.sel, offArg s.clk.altOff, offArg s.clk.peerMed] := by
    rw [← hs2]
  exact congrArg State.referenceChanged hs3
theorem get_trimmed (f : Nat → Nat) {m : SMap Nat} (hm : SMapWf 0 m = true) (q : Fin 4) : get 0 q.val ((List.range 4).foldl (fun m q => put 0 q (f q) m) m) = f q.val := by
  have hfold : ∀ n : Nat, SMapWf 0 ((List.range n).foldl (fun m q => put 0 q (f q) m) m) = true ∧ ∀ k, k < n → get 0 k ((List.range n).foldl (fun m q => put 0 q (f q) m) m) = f k := by
    intro n
    induction n with
    | zero => exact ⟨hm, fun k hk => absurd hk (Nat.not_lt_zero k)⟩
    | succ n ih =>
      obtain ⟨hw, hget⟩ := ih
      simp only [List.range_succ, List.foldl_append, List.foldl_cons, List.foldl_nil]
      refine ⟨put_wf hw, fun k hk => ?_⟩
      by_cases hkn : k = n
      · rw [hkn, get_put_self _ _ _ _ hw]
      · rw [get_put_ne _ _ _ _ _ hw hkn]
        exact hget k (by omega)
  exact (hfold 4).2 q.val q.isLt
/-- What a part that goes on does once its reference has changed. -/
theorem referenceChanged_on {s : State} (h : s.svc.cause = 0 ∨ s.boot.step < 10) :
    (s.refPresent s.clk.sel = true → s.referenceChanged = s) ∧
    (s.refPresent s.clk.sel = false → ∃ p, s.referenceChanged = { s with clk := { s.clk with holdover := true, pending := p } }) := by
  have hon : ¬(s.svc.cause ≠ 0 ∧ 10 ≤ s.boot.step) := by omega
  refine ⟨fun hp => ?_, fun hp => ?_⟩
  · simp only [State.referenceChanged, if_neg hon, hp, if_true]
  · have hlost := judgeHoldover_lost (s := { s with clk := { s.clk with holdover := true } }) rfl hp
    refine ⟨_, .trans ?_ hlost⟩
    simp only [State.referenceChanged, if_neg hon, hp, Bool.false_eq_true, if_false]
/-- CHANGEOVER of a part that goes on. -/
theorem changeover_on {s : State} (hset : s.settled = true) (hm : s.svc.mirrorEn = false) (trims : List (Fin 64 × Fin 64)) (hoff : s.mantelOff = true) (hgood : s.svc.cause = 0 ∨ s.boot.step < 10)
    (htb : SMapWf 0 s.clk.trimBridge = true) (hts : SMapWf 0 s.clk.trimStation = true) :
    ∃ s', exec (.changeover trims) s = .next s' ∧ s'.clk.sel = (if s.clk.pending = 2 then s.clk.sel else 1 - s.clk.sel) ∧
      s'.clk.suspect = (if s.clk.pending = 1 then s.clk.suspect ||| BitVec.twoPow 2 s.clk.sel else s.clk.suspect) ∧ s'.clk.changeovers = min 255 (s.clk.changeovers + 1) ∧
      (s.refPresent s'.clk.sel = true → s'.clk.holdover = false ∧ s'.clk.pending = 0) ∧ (s.refPresent s'.clk.sel = false → s'.clk.holdover = true) ∧
      (∀ q : Fin 4, get 0 q s'.clk.trimBridge = (trims.getD q (0, 0)).1.val ∧ get 0 q s'.clk.trimStation = (trims.getD q (0, 0)).2.val) ∧ s'.mem = s.mem ∧ s'.hobs = s.hobs := by
  obtain ⟨args, hchange⟩ := changeover_eq hoff trims
  obtain ⟨z, hz⟩ : ∃ z, z = (s.changedOver trims).log 0x0704 .contained .power none args := ⟨_, rfl⟩
  rw [← hz] at hchange
  have hclk : z.clk = s.clk.changed.trimmed trims := by rw [hz, log_clk]; rfl
  have hzset : z.settled = true := by rw [hz, settled_log (s := s.changedOver trims) hm]; exact hset
  have hcause : z.svc.cause = 0 ∨ z.boot.step < 10 := by
    rw [hz, log_svc, log_boot]
    exact hgood
  have hmem : z.mem = s.mem := by rw [hz, log_mem]; rfl
  have hhobs : z.hobs = s.hobs := by rw [hz, log_hobs]; rfl
  have hsel : z.clk.sel = if s.clk.pending = 2 then s.clk.sel else 1 - s.clk.sel := by
    rw [hclk]
    exact ite_not ..
  have hsus : z.clk.suspect = if s.clk.pending = 1 then s.clk.suspect ||| BitVec.twoPow 2 s.clk.sel else s.clk.suspect := by rw [hclk]; rfl
  have hcount : z.clk.changeovers = min 255 (s.clk.changeovers + 1) := by rw [hclk]; rfl
  have hhold : z.clk.holdover = false ∧ z.clk.pending = 0 := by rw [hclk]; exact ⟨rfl, rfl⟩
  have htrims (q : Fin 4) : get 0 q.val z.clk.trimBridge = (trims.getD q (0, 0)).1.val ∧ get 0 q.val z.clk.trimStation = (trims.getD q (0, 0)).2.val := by
    rw [hclk]
    exact ⟨get_trimmed (fun q => (trims.getD q (0, 0)).1.val) htb q, get_trimmed (fun q => (trims.getD q (0, 0)).2.val) hts q⟩
  have hpres (k : Nat) : z.refPresent k = s.refPresent k := by
    rw [State.refPresent, hclk]
    rfl
  obtain ⟨hthere, hgone⟩ := referenceChanged_on hcause
  rw [exec, execChangeover, hchange]
  cases hp : z.refPresent z.clk.sel with
  | true =>
    rw [hthere hp]
    exact ⟨z, ends_settled z hzset, hsel, hsus, hcount, fun _ => hhold, fun h => absurd ((hpres _).trans h) (by simp [hp]), htrims, hmem, hhobs⟩
  | false =>
    obtain ⟨p, hp'⟩ := hgone hp
    rw [hp']
    exact ⟨_, ends_settled _ hzset, hsel, hsus, hcount, fun h => absurd ((hpres _).trans h) (by simp [hp]), fun _ => rfl, htrims, hmem, hhobs⟩
/-- CHANGEOVER of a part with a part-fatal error. -/
theorem changeover_fatal {s : State} (hset : s.settled = true) (trims : List (Fin 64 × Fin 64)) (hoff : s.mantelOff = true) (hcause : s.svc.cause ≠ 0) (hstep : 10 ≤ s.boot.step) :
    ∃ s', exec (.changeover trims) s = .next s' ∧ s'.svc.mode = 4 ∧ s'.stk.claims = [] ∧ s'.clk.sel = (if s.clk.pending = 2 then s.clk.sel else 1 - s.clk.sel) := by
  obtain ⟨args, hchange⟩ := changeover_eq hoff trims
  obtain ⟨z, hz⟩ : ∃ z, z = (s.changedOver trims).log 0x0704 .contained .power none args := ⟨_, rfl⟩
  rw [← hz] at hchange
  have hbad : z.svc.cause ≠ 0 ∧ 10 ≤ z.boot.step := by
    rw [hz, log_svc, log_boot]
    exact ⟨hcause, hstep⟩
  obtain ⟨c, hc, hsel⟩ : ∃ c : Clocks, z.referenceChanged = { z.fatalStop with clk := c } ∧ c.sel = z.clk.sel := by
    unfold State.referenceChanged
    rw [if_pos hbad]
    dsimp only
    split
    · exact ⟨z.clk, rfl, rfl⟩
    · next hp => exact ⟨_, judgeHoldover_lost (s := { z.fatalStop with clk := { z.fatalStop.clk with holdover := true } }) rfl (Bool.eq_false_iff.mpr hp), rfl⟩
  obtain ⟨-, -, -, hwork, -, hdown, hloop, -⟩ := (settled_iff s).mp hset
  obtain ⟨y, hy⟩ : ∃ y : State, y = { z.fatalStop with clk := c } := ⟨_, rfl⟩
  have hrest : y.boot.work = [] ∧ y.pwr.sleeping = false ∧ y.loopback = [] := by
    rw [hy, hz]
    refine ⟨(congrArg Boot.work (log_boot ..)).trans hwork, (congrArg Power.sleeping (log_pwr ..)).trans (Bool.or_eq_false_iff.mp hdown).2, (log_loopback ..).trans hloop⟩
  obtain ⟨hw, hs, hl⟩ := hrest
  obtain ⟨s', hends, hcalm⟩ := ends_calm hw hs (by simp [hl])
  have hexec : exec (.changeover trims) s = .next s' := by
    rw [exec, execChangeover, hchange, hc, ← hy]
    exact hends
  have hclk : s'.clk = c := (congrArg (fun k => k.2.1) hcalm.core).trans (by rw [hy]; rfl)
  refine ⟨s', hexec, ?_, hcalm.claims (by rw [hy]; rfl), ?_⟩
  · exact hcalm.mode.elim (fun h => h.trans (by rw [hy]; rfl)) (fun h => h.2)
  · rw [hclk, hsel, hz, log_clk]
    exact ite_not ..
/-- Settles O53: presence, witnesses and changeovers are read off their definitions; after a fatal stop the end of the command is calm. -/
theorem references : Obligations.References := by
  intro s hset _ hm
  refine ⟨fun v run huse hfit hpres hrun => witnessWindow_spec hset hm v run huse hfit hpres hrun, fun trims hoff hgood htb hts => changeover_on hset hm trims hoff hgood htb hts,
    fun trims hoff hc hstep => changeover_fatal hset trims hoff hc hstep, fun r hp => (referenceLost_spec hset hm r hp).1, fun r hp => (referenceLost_spec hset hm r hp).2,
    fun r hf => (referencePresent_spec hset r hf).1, fun r hf => (referencePresent_spec hset r hf).2.1, fun r hf => (referencePresent_spec hset r hf).2.2, fun r => ⟨fun hf => ?_, fun hp => ?_⟩,
    fun huse alt ppm => ?_, fun hon trims => ?_⟩
  · rw [exec, execReferencePresent, State.refBack, if_neg (by simp [hf])]
    exact ends_settled s hset
  · rw [exec, execReferenceLost, State.refLost, if_neg (by simp [hp])]
    exact ends_settled s hset
  · rw [exec, execWitnessWindow, State.witnessWindow, if_neg (by simp [huse])]
    exact ends_settled s hset
  · rw [exec, execChangeover, State.changeover, if_neg (by simp [hon])]
    exact ends_settled s hset

end Sys2Proof.Machine
end
section
/-! The core rail, the regulators, the damper's sinks, thermal trip and failures of the service core (R394 to R414, R461, R481). -/
namespace Sys2Proof.Machine

/-! ### Power faults -/

/-- The registers of the power unit after a fault of a cause, the sinks set aside. -/
def Power.faulted (p : Power) (cause : Nat) (sinks : SMap Sink) : Power :=
  { p with fault := true, cause := if p.cause = 0 then cause else p.cause, raise := 0, writing := p.writing && cause != 1 && cause != 2,
           logged := if p.logged.contains cause then p.logged else cause :: p.logged, sinks := sinks }
theorem sinksTo_rest (s : State) (q g : Nat) : ∃ sk, s.sinksTo q g = { s with pwr := { s.pwr with sinks := sk } } := by
  unfold State.sinksTo
  generalize quarterSinks q = l
  induction l generalizing s with
  | nil => exact ⟨s.pwr.sinks, rfl⟩
  | cons k l ih =>
    obtain ⟨sk, h⟩ := ih (s.sinkGoal k (fullEnv k g))
    exact ⟨sk, by rw [List.foldl_cons, h]; rfl⟩
theorem sinksTos_rest (g : State → Nat → Nat) (l : List Nat) (s : State) : ∃ sk, l.foldl (fun s q => s.sinksTo q (g s q)) s = { s with pwr := { s.pwr with sinks := sk } } := by
  induction l generalizing s with
  | nil => exact ⟨s.pwr.sinks, rfl⟩
  | cons q l ih =>
    obtain ⟨sk, h⟩ := sinksTo_rest s q (g s q)
    obtain ⟨sk', h'⟩ := ih (s.sinksTo q (g s q))
    exact ⟨sk', by rw [List.foldl_cons, h', h]⟩
/-- A power fault: the registers, the sinks and the grades still to come change, and the event may be logged. -/
theorem powerFault_spec (s : State) (cause : Nat) : ∃ (z : State) (sk : SMap Sink) (ng : SMap (Option Nat)),
    z = { s with pwr := s.pwr.faulted cause sk, clk := { s.clk with newGrade := ng } } ∧ (s.powerFault cause = z ∨ s.powerFault cause = z.log 0x0803 .contained .power none [cause]) := by
  unfold State.powerFault
  extract_lets p src up s1 s2
  obtain ⟨sk, hsk⟩ := sinksTos_rest (fun s q => s.grade q) ((List.range 4).filter fun q => up q && s.clk.inStop.getLsbD q && !s.pwr.simmer) s1
  have hs2 : s2 = { s with pwr := s.pwr.faulted cause sk, clk := { s.clk with newGrade := s1.clk.newGrade } } := hsk
  refine ⟨s2, sk, s1.clk.newGrade, hs2, ?_⟩
  split
  · exact .inl rfl
  · exact .inr rfl
/-- The end of a command that met a power fault. -/
theorem powerFault_ends {s : State} (hset : s.settled = true) (cause : Nat) : ∃ s', (s.powerFault cause).ends = .next s' ∧ (∃ sk, s'.pwr = s.pwr.faulted cause sk) ∧ s'.hobs = s.hobs := by
  obtain ⟨z, sk, ng, hz, h⟩ := powerFault_spec s cause
  have hzset : z.settledButMirror = true := by rw [hz]; exact settledButMirror_of_settled hset
  have hsame : SameButMessages z (s.powerFault cause) := by
    rcases h with h | h
    · rw [h]
      exact .refl z
    · rw [h]
      exact log_sameButMessages ..
  have hflush := hsame.trans (flush_sameButMessages _)
  refine ⟨_, ends_settledButMirror (hsame.settledButMirror hzset), ⟨sk, ?_⟩, ?_⟩
  · rw [hflush.rest, hz]
  · rw [hflush.rest, hz]

/-! ### AVSBus -/

theorem nearMv_iff (a b : Nat) : nearMv a b = true ↔ a ≤ b + 15 ∧ b ≤ a + 15 := by simp [nearMv]
section
variable {s : State} (hset : s.settled = true) (hserve : s.serving 5 = true)
include hset hserve
/-- A poll that the regulator acknowledges. -/
theorem avsAck_acked (c mv : Nat) (vd : Bool) (hc : c = codeMv s.pwr.commanded) :
    (s.pwr.writing = true → mv ≤ c + 15 ∧ c ≤ mv + 15 → (vd = true ∨ s.pwr.vdone = true) →
      exec (.avsAck 0 vd mv) s = .next { s with pwr := { s.pwr with readback := mv % 1024, naks := 0, vdone := true, acked := true, writing := false } }) ∧
    (s.pwr.writing = true → (vd = false ∧ s.pwr.vdone = false) ∨ c + 15 < mv ∨ mv + 15 < c →
      exec (.avsAck 0 vd mv) s = .next { s with pwr := { s.pwr with readback := mv % 1024, naks := 0, vdone := s.pwr.vdone || vd } }) ∧
    (s.pwr.writing = false → s.pwr.acked = false ∨ (mv ≤ c + 15 ∧ c ≤ mv + 15) → exec (.avsAck 0 vd mv) s = .next { s with pwr := { s.pwr with readback := mv % 1024, naks := 0 } }) ∧
    (s.pwr.writing = false → s.pwr.acked = true → c + 15 < mv ∨ mv + 15 < c →
      ∃ s', exec (.avsAck 0 vd mv) s = .next s' ∧ s'.pwr.fault = true ∧ s'.pwr.raise = 0 ∧ s'.pwr.readback = mv % 1024 ∧ s'.pwr.cause = (if s.pwr.cause = 0 then 3 else s.pwr.cause) ∧ s'.hobs = s.hobs) := by
  subst hc
  have hpoll : s.avsPoll (0 : Fin 4).val vd mv =
      if s.pwr.writing then
        if (s.pwr.vdone || vd) && nearMv mv (codeMv s.pwr.commanded) then { s with pwr := { s.pwr with readback := mv % 1024, naks := 0, vdone := true, acked := true, writing := false } }
        else { s with pwr := { s.pwr with readback := mv % 1024, naks := 0, vdone := s.pwr.vdone || vd } }
      else if s.pwr.acked && !nearMv mv (codeMv s.pwr.commanded) then ({ s with pwr := { s.pwr with readback := mv % 1024, naks := 0 } } : State).powerFault 3
      else { s with pwr := { s.pwr with readback := mv % 1024, naks := 0 } } := by
    unfold State.avsPoll
    rw [if_neg (by simp [hserve]), if_neg (by simp)]
  rw [exec, execAvsAck, hpoll]
  refine ⟨fun hw hnear hdone => ?_, fun hw hnot => ?_, fun hw hgood => ?_, fun hw hack hfar => ?_⟩
  · have hdone' : (s.pwr.vdone || vd) = true := by rcases hdone with h | h <;> simp [h]
    rw [if_pos hw, if_pos (by simp [hdone', (nearMv_iff _ _).mpr hnear])]
    exact ends_settled _ hset
  · have hnot' : ¬((s.pwr.vdone || vd) && nearMv mv (codeMv s.pwr.commanded)) = true := by
      rw [Bool.and_eq_true, nearMv_iff]
      rintro ⟨h, h'⟩
      rcases hnot with ⟨e, e'⟩ | e | e
      · simp [e, e'] at h
      · omega
      · omega
    rw [if_pos hw, if_neg hnot']
    exact ends_settled _ hset
  · have hgood' : ¬(s.pwr.acked && !nearMv mv (codeMv s.pwr.commanded)) = true := by
      rcases hgood with h | h
      · simp [h]
      · simp [(nearMv_iff _ _).mpr h]
    rw [if_neg (by simp [hw]), if_neg hgood']
    exact ends_settled _ hset
  · have hfar' : nearMv mv (codeMv s.pwr.commanded) = false := by
      rw [← Bool.not_eq_true, nearMv_iff]
      omega
    rw [if_neg (by simp [hw]), if_pos (by simp [hack, hfar'])]
    obtain ⟨s', hends, ⟨sk, hpwr⟩, hhobs⟩ := powerFault_ends (s := { s with pwr := { s.pwr with readback := mv % 1024, naks := 0 } }) hset 3
    exact ⟨s', hends, by rw [hpwr]; rfl, by rw [hpwr]; rfl, by rw [hpwr]; rfl, by rw [hpwr]; rfl, hhobs⟩
/-- A poll that it does not acknowledge. -/
theorem avsAck_refused (mv : Nat) (vd : Bool) (a : Fin 4) (ha : a ≠ 0) :
    (s.pwr.writing = true → s.pwr.naks < 2 → exec (.avsAck a vd mv) s = .next { s with pwr := { s.pwr with naks := s.pwr.naks + 1 } }) ∧
    (s.pwr.writing = true → s.pwr.naks = 2 → ∃ s', exec (.avsAck a vd mv) s = .next s' ∧ s'.pwr.fault = true ∧ s'.pwr.raise = 0 ∧ s'.pwr.writing = false ∧
      s'.pwr.cause = (if s.pwr.cause = 0 then 2 else s.pwr.cause) ∧ s'.hobs = s.hobs) ∧
    (s.pwr.writing = false → exec (.avsAck a vd mv) s = .next s) := by
  have hpoll : s.avsPoll a.val vd mv = if s.pwr.writing then
      (if 3 ≤ s.pwr.naks + 1 then ({ s with pwr := { s.pwr with naks := s.pwr.naks + 1 } } : State).powerFault 2 else { s with pwr := { s.pwr with naks := s.pwr.naks + 1 } }) else s := by
    unfold State.avsPoll
    rw [if_neg (by simp [hserve]), if_pos (by omega)]
  rw [exec, execAvsAck, hpoll]
  refine ⟨fun hw hn => ?_, fun hw hn => ?_, fun hw => ?_⟩
  · rw [if_pos hw, if_neg (by omega)]
    exact ends_settled _ hset
  · rw [if_pos hw, if_pos (by omega)]
    obtain ⟨s', hends, ⟨sk, hpwr⟩, hhobs⟩ := powerFault_ends (s := { s with pwr := { s.pwr with naks := s.pwr.naks + 1 } }) hset 2
    exact ⟨s', hends, by rw [hpwr]; rfl, by rw [hpwr]; rfl, by rw [hpwr]; simp [Power.faulted], by rw [hpwr]; rfl, hhobs⟩
  · rw [if_neg (by simp [hw])]
    exact ends_settled _ hset
theorem avsAckTimeout_due (hpll : s.onPll = true) (hw : s.pwr.writing = true) :
    ∃ s', exec .avsAckTimeout s = .next s' ∧ s'.pwr.fault = true ∧ s'.pwr.raise = 0 ∧ s'.pwr.writing = false ∧ s'.pwr.cause = (if s.pwr.cause = 0 then 1 else s.pwr.cause) ∧ s'.hobs = s.hobs := by
  obtain ⟨s', hends, ⟨sk, hpwr⟩, hhobs⟩ := powerFault_ends hset 1
  have hexec : exec .avsAckTimeout s = .next s' := by
    rw [exec, execAvsAckTimeout, State.avsTimeout, if_pos (by simp [hw, hserve]), State.timed, if_pos hpll]
    exact hends
  exact ⟨s', hexec, by rw [hpwr]; rfl, by rw [hpwr]; rfl, by rw [hpwr]; simp [Power.faulted], by rw [hpwr]; rfl, hhobs⟩
theorem irailRead_due (a : Fin 1024) (hpll : s.onPll = true) : exec (.irailRead a) s = .next { s with pwr := { s.pwr with amps := a } } := by
  rw [exec, execIrailRead, if_pos hserve, State.timed, if_pos hpll]
  exact ends_settled _ hset
end

/-! ### Sinks, thermal trip, failures of the service core -/

theorem damperStep_spec {s : State} (hset : s.settled = true) (k : Fin 36) (x : Sink) (hx : x = s.sink k) :
    (x.down = 0 → x.hold = 0 → x.up = 0 → exec (.damperStep k) s = .next (s.setSink k { x with env := if x.env < x.goal then x.env + 1 else if x.goal < x.env then x.env - 1 else x.env })) ∧
    (0 < x.down → exec (.damperStep k) s = .next (s.setSink k { x with env := x.env - 1, down := x.down - 1 })) ∧
    (x.down = 0 → 0 < x.hold → exec (.damperStep k) s = .next (s.setSink k { x with hold := x.hold - 1 })) ∧
    (x.down = 0 → x.hold = 0 → 0 < x.up → exec (.damperStep k) s = .next (s.setSink k { x with env := x.env + 1, up := x.up - 1 })) := by
  have hexec {y : Sink} (h : x.step = y) : exec (.damperStep k) s = .next (s.setSink k y) := by
    rw [exec, execDamperStep, State.damperStep, ← hx, h]
    exact ends_settled _ hset
  refine ⟨fun h1 h2 h3 => hexec ?_, fun h1 => hexec (if_pos h1), fun h1 h2 => hexec ?_, fun h1 h2 h3 => hexec ?_⟩
  · rw [Sink.step, if_neg (by omega), if_neg (by omega), if_neg (by omega)]
    split
    · rfl
    · split <;> rfl
  · rw [Sink.step, if_neg (by omega), if_pos h2]
  · rw [Sink.step, if_neg (by omega), if_neg (by omega), if_pos h3]
theorem thermtrip_spec {s : State} (hset : s.settled = true) (g : Fin 5) (t : Int) :
    (115 ≤ t → s.pwr.bank = 0 → exec (.thermtrip g t) s = .next { s with pwr := { s.pwr with trip := true } }) ∧ (t < 115 ∨ s.pwr.bank ≠ 0 → exec (.thermtrip g t) s = .next s) := by
  rw [exec, execThermtrip, State.thermTrip]
  refine ⟨fun h1 h2 => ?_, fun h => ?_⟩
  · rw [if_pos ⟨h1, h2⟩]
    exact ends_settled _ hset
  · rw [if_neg (by omega)]
    exact ends_settled _ hset
/-- A part-fatal error: the event, the first cause, and the fatal stop where nothing delays it. -/
theorem partFatal_eq (s : State) {n : Nat} (h : 1 ≤ n ∧ n ≤ 3) : ∃ y : State, y = { s.log 0x0002 .fatal .service none [n] with svc := { (s.log 0x0002 .fatal .service none [n]).svc with cause := if s.svc.cause = 0 then n else s.svc.cause } } ∧
    s.partFatal n = if s.boot.step < 10 ∨ s.clk.pending ≠ 0 then y else y.fatalStop := by
  have hcause : (s.log 0x0002 .fatal .service none [n]).svc.cause = s.svc.cause := by rw [log_svc]
  unfold State.partFatal
  by_cases h0 : s.svc.cause = 0
  · refine ⟨_, rfl, ?_⟩
    simp only [if_pos h, hcause, if_pos h0, log_boot, log_clk]
  · refine ⟨s.log 0x0002 .fatal .service none [n], by rw [if_neg h0, ← hcause], ?_⟩
    simp only [if_pos h, hcause, if_neg h0, log_boot, log_clk]
/-- What the end of a command keeps of the power unit, but for the sinks and the exit from SIMMER. -/
theorem pwr_of_calm {K : Nat} {F : Prop} {G : Nat → Prop} {a t : State} (h : Calm K F G a t) : { t.pwr with sinks := [], exiting := none } = { a.pwr with sinks := [], exiting := none } := congrArg (fun c => c.2.2.1) h.core
/-- WATCHDOG and SERVICE_CORE_ERROR. -/
theorem serviceFails_spec {s : State} (hset : s.settled = true) {c : Instr} (hc : c = .watchdog ∨ c = .serviceCoreError) :
    (2 ≤ s.boot.step → s.pwr.bank = 0 → s.boot.held = 0 → ∃ s', exec c s = .next s' ∧ s'.svc.fatalSvc = true ∧ s'.svc.executing = false ∧ s'.svc.cause = (if s.svc.cause = 0 then 3 else s.svc.cause) ∧
      (10 ≤ s.boot.step → s.clk.pending = 0 → s'.svc.mode = 4 ∧ s'.stk.claims = []) ∧ (s.boot.step < 10 ∨ s.clk.pending ≠ 0 → s'.svc.mode = s.svc.mode) ∧ s'.hobs = s.hobs) ∧
    (s.boot.step < 2 ∨ s.pwr.bank ≠ 0 ∨ s.boot.held ≠ 0 → exec c s = .next s) := by
  have hexec : exec c s = s.serviceFails.ends := by rcases hc with rfl | rfl <;> rfl
  rw [hexec]
  refine ⟨fun hstep hbank hheld => ?_, fun h => ?_⟩
  · obtain ⟨y, hy, hpart⟩ := partFatal_eq s (n := 3) (by decide)
    have hfails : s.serviceFails = { s.partFatal 3 with svc := { (s.partFatal 3).svc with fatalSvc := true, executing := false } } := if_pos (by simp [hstep, hbank, hheld])
    have hlog := log_sameButMessages s 0x0002 .fatal .service none [3]
    have hlogset := hlog.settledButMirror (settledButMirror_of_settled hset)
    have hcause : (if s.svc.cause = 0 then 3 else s.svc.cause) ≠ 0 := by split <;> simp_all
    by_cases hfatal : s.boot.step < 10 ∨ s.clk.pending ≠ 0
    · rw [if_pos hfatal] at hpart
      obtain ⟨z, hz⟩ : ∃ z : State, z = { y with svc := { y.svc with fatalSvc := true, executing := false } } := ⟨_, rfl⟩
      have hzset : z.settledButMirror = true := by rw [hz, hy]; exact hlogset
      have hcalm : Calm 2 False (fun _ => False) z z.flush := calm_flush _ calm_refl
      have hcore := congrArg (fun c => c.2.2.2.2.1) hcalm.core
      have hzcause : z.svc.cause = if s.svc.cause = 0 then 3 else s.svc.cause := by rw [hz, hy]
      refine ⟨z.flush, ?_, ?_, ?_, (hcalm.cause (by rw [hzcause]; exact hcause)).trans hzcause, fun h1 h2 => ?_, fun _ => ?_, ?_⟩
      · rw [hfails, hpart, ← hz]
        exact ends_settledButMirror hzset
      · exact (congrArg Service.fatalSvc hcore).trans (by rw [hz]; rfl)
      · exact (congrArg Service.executing hcore).trans (by rw [hz]; rfl)
      · omega
      · have hmode : z.svc.mode = s.svc.mode := by rw [hz, hy]; exact log_svcMode ..
        exact (hcalm.mode.resolve_right fun h => h.1).trans hmode
      · exact (hobs_of_calm hcalm).trans (by rw [hz, hy]; exact log_hobs ..)
    · rw [if_neg hfatal] at hpart
      obtain ⟨z, hz⟩ : ∃ z : State, z = { y.fatalStop with svc := { y.fatalStop.svc with fatalSvc := true, executing := false } } := ⟨_, rfl⟩
      obtain ⟨-, -, -, hwork, hdown, hloop, -⟩ := (settledButMirror_iff _).mp hlogset
      have hl : z.loopback = [] := by rw [hz, hy]; exact hloop
      obtain ⟨s', hends, hcalm⟩ := ends_calm (s := z) (by rw [hz, hy]; exact hwork) (by rw [hz, hy]; exact (Bool.or_eq_false_iff.mp hdown).2) (by simp [hl])
      have hcore := congrArg (fun c => c.2.2.2.2.1) hcalm.core
      have hzcause : z.svc.cause = if s.svc.cause = 0 then 3 else s.svc.cause := by rw [hz, hy]; rfl
      refine ⟨s', ?_, ?_, ?_, (hcalm.cause (by rw [hzcause]; exact hcause)).trans hzcause, fun h1 h2 => ⟨?_, hcalm.claims (by rw [hz]; rfl)⟩, fun h => absurd h hfatal, ?_⟩
      · rw [hfails, hpart, ← hz]
        exact hends
      · exact (congrArg Service.fatalSvc hcore).trans (by rw [hz]; rfl)
      · exact (congrArg Service.executing hcore).trans (by rw [hz]; rfl)
      · exact hcalm.mode.elim (fun h => h.trans (by rw [hz]; rfl)) (fun h => h.2)
      · exact (hobs_of_calm hcalm).trans (by rw [hz, hy]; exact log_hobs ..)
  · have hnot : ¬(decide (2 ≤ s.boot.step) && s.pwr.bank == 0 && s.boot.held == 0) = true := by
      intro hc
      simp only [Bool.and_eq_true, decide_eq_true_eq, beq_iff_eq] at hc
      obtain ⟨⟨h1, h2⟩, h3⟩ := hc
      rcases h with h | h | h
      · omega
      · exact h h2
      · exact h h3
    rw [State.serviceFails, if_neg hnot]
    exact ends_settled s hset

/-! ### Alerts of regulators -/

/-- The alerting device has been read, and its faults cleared. -/
def State.alertRead (s : State) (dev : Nat) (w : BitVec 16) : State :=
  let d := BitVec.ofNat 8 dev
  let s0 := (flaggedStatus w).foldl (fun s c => s.emit (.bytes c [d])) ((s.emit (.bytes "ALERT_RESPONSE" [])).emit (.bytes "STATUS_WORD" [d]))
  let s1 := { s0 with pwr := { s0.pwr with status := w.toNat, device := dev, pmbNaks := put 0 dev 0 s0.pwr.pmbNaks } }
  (s1.log 0x0802 .contained .power none [dev, w.toNat]).emit (.bytes "CLEAR_FAULTS" [d])
theorem log_out {s : State} (h : s.svc.ibiEn = false) (code : Nat) (cls : EClass) (src : Src) (t : Option Nat) (args : List Nat) : (s.log code cls src t args).out = s.out := by
  unfold State.log
  simp only [h, Bool.and_false, Bool.false_and, Bool.false_eq_true, if_false]
theorem log_ibiEn (s : State) (code : Nat) (cls : EClass) (src : Src) (t : Option Nat) (args : List Nat) : (s.log code cls src t args).svc.ibiEn = s.svc.ibiEn := by rw [log_svc]
/-- What one reading of the alerting device changes. -/
theorem alertRead_spec (s : State) (dev : Nat) (w : BitVec 16) :
    (s.alertRead dev w).pwr = { s.pwr with status := w.toNat, device := dev, pmbNaks := put 0 dev 0 s.pwr.pmbNaks } ∧ (s.alertRead dev w).hobs = s.hobs ∧ (s.alertRead dev w).svc.cause = s.svc.cause ∧
    (s.alertRead dev w).clk = s.clk ∧ (s.settled = true → (s.alertRead dev w).settledButMirror = true) ∧ (s.alertRead dev w).svc.mirrorEn = s.svc.mirrorEn ∧
    (s.svc.mirrorEn = false → (s.alertRead dev w).settled = s.settled) ∧ (s.alertRead dev w).svc.ibiEn = s.svc.ibiEn ∧
    (s.svc.ibiEn = false → (s.alertRead dev w).out = s.out ++ ([.bytes "ALERT_RESPONSE" [], .bytes "STATUS_WORD" [BitVec.ofNat 8 dev]] ++
      (flaggedStatus w).map (fun n => .bytes n [BitVec.ofNat 8 dev]) ++ [.bytes "CLEAR_FAULTS" [BitVec.ofNat 8 dev]])) := by
  obtain ⟨z, hz⟩ : ∃ z : State, z = { s with pwr := { s.pwr with status := w.toNat, device := dev, pmbNaks := put 0 dev 0 s.pwr.pmbNaks }, out := s.out ++ [.bytes "ALERT_RESPONSE" []] ++ [.bytes "STATUS_WORD" [BitVec.ofNat 8 dev]] ++ (flaggedStatus w).map (fun n => .bytes n [BitVec.ofNat 8 dev]) } := ⟨_, rfl⟩
  have hread : s.alertRead dev w = (z.log 0x0802 .contained .power none [dev, w.toNat]).emit (.bytes "CLEAR_FAULTS" [BitVec.ofNat 8 dev]) := by
    unfold State.alertRead
    extract_lets d s0 src s1
    have hs0 : s0 = { s with out := s.out ++ [.bytes "ALERT_RESPONSE" []] ++ [.bytes "STATUS_WORD" [BitVec.ofNat 8 dev]] ++ (flaggedStatus w).map (fun n => .bytes n [BitVec.ofNat 8 dev]) } :=
      foldl_emit (fun c => Out.bytes c [BitVec.ofNat 8 dev]) _ _
    have hs1 : s1 = z := by
      rw [hz]
      simp only [s1, src, hs0]
    rw [hs1]
  have hlog := log_sameButMessages z 0x0802 .contained .power none [dev, w.toNat]
  rw [hread]
  refine ⟨?_, ?_, ?_, ?_, fun h => ?_, ?_, fun h => ?_, ?_, fun h => ?_⟩
  · exact (log_pwr ..).trans (by rw [hz])
  · exact (log_hobs ..).trans (by rw [hz])
  · exact (congrArg Service.cause (log_svc ..)).trans (by rw [hz])
  · exact (log_clk ..).trans (by rw [hz])
  · exact hlog.settledButMirror (by rw [hz]; exact settledButMirror_of_settled h)
  · exact (log_mirrorEn ..).trans (by rw [hz])
  · exact (settled_log (s := z) (by rw [hz]; exact h) ..).trans (by rw [hz]; rfl)
  · exact (log_ibiEn ..).trans (by rw [hz])
  · have hout : ((z.log 0x0802 .contained .power none [dev, w.toNat]).emit (.bytes "CLEAR_FAULTS" [BitVec.ofNat 8 dev])).out = z.out ++ [.bytes "CLEAR_FAULTS" [BitVec.ofNat 8 dev]] :=
      congrArg (· ++ [Out.bytes "CLEAR_FAULTS" [BitVec.ofNat 8 dev]]) (log_out (s := z) (by rw [hz]; exact h) ..)
    rw [hout, hz]
    simp
/-- The power fault of an alert, where its status has a fault bit. -/
theorem alertFault_spec {s : State} (b : Bool) : ∃ z : State, z = (if b then s.powerFault 5 else s) ∧ (∃ sk p, p = (if b then s.pwr.faulted 5 sk else s.pwr) ∧ z.pwr = p) ∧ z.hobs = s.hobs ∧
    z.svc.cause = s.svc.cause ∧ (s.settledButMirror = true → z.settledButMirror = true) ∧ (s.svc.mirrorEn = false → z.settled = s.settled) ∧ (s.svc.ibiEn = false → z.out = s.out) := by
  refine ⟨_, rfl, ?_⟩
  cases b with
  | false => exact ⟨⟨[], _, rfl, rfl⟩, rfl, rfl, id, fun _ => rfl, fun _ => rfl⟩
  | true =>
    obtain ⟨z, sk, ng, hz, h⟩ := powerFault_spec s 5
    simp only [if_true]
    rcases h with h | h
    · rw [h, hz]
      exact ⟨⟨sk, _, rfl, rfl⟩, rfl, rfl, id, fun _ => rfl, fun _ => rfl⟩
    · rw [h]
      refine ⟨⟨sk, _, rfl, (log_pwr ..).trans (by rw [hz])⟩, (log_hobs ..).trans (by rw [hz]), (congrArg Service.cause (log_svc ..)).trans (by rw [hz]), fun hs => ?_, fun hm => ?_, fun hi => ?_⟩
      · exact (log_sameButMessages ..).settledButMirror (by rw [hz]; exact hs)
      · exact (settled_log (s := z) (by rw [hz]; exact hm) ..).trans (by rw [hz]; rfl)
      · exact (log_out (s := z) (by rw [hz]; exact hi) ..).trans (by rw [hz])
/-- A device that acknowledges. -/
theorem readAlert_ends {s : State} (hset : s.settled = true) (dev : Nat) (w : BitVec 16) : ∃ s', (s.readAlert dev w).ends = .next s' ∧ s'.pwr.status = w.toNat ∧ s'.pwr.device = dev ∧
    s'.pwr.smbalert = s.pwr.smbalert ∧ (w &&& ~~~0x40 ≠ 0 → s'.pwr.fault = true) ∧ (w.getLsbD 6 = true → s.svc.cause = 0 → s'.svc.cause = 2) ∧ s'.hobs = s.hobs ∧
    (w.getLsbD 6 = false → s.svc.ibiEn = false → s.svc.mirrorEn = false → s'.out = s.out ++ ([.bytes "ALERT_RESPONSE" [], .bytes "STATUS_WORD" [BitVec.ofNat 8 dev]] ++
      (flaggedStatus w).map (fun n => .bytes n [BitVec.ofNat 8 dev]) ++ [.bytes "CLEAR_FAULTS" [BitVec.ofNat 8 dev]])) := by
  obtain ⟨hpwr, hhobs, hcause, hclk, hset1, hmir, hset2, hibi, hout⟩ := alertRead_spec s dev w
  obtain ⟨z, hz, ⟨sk, p, hp, hzp⟩, hzh, hzc, hzset, hzset2, hzout⟩ := alertFault_spec (s := s.alertRead dev w) (decide (w &&& ~~~0x40 ≠ 0))
  have hread : s.readAlert dev w = if w.getLsbD 6 then z.partFatal 2 else z := by
    rw [hz]
    simp only [decide_eq_true_eq]
    rfl
  have hzpwr : z.pwr.status = w.toNat ∧ z.pwr.device = dev ∧ z.pwr.smbalert = s.pwr.smbalert ∧ z.pwr.sleeping = s.pwr.sleeping ∧ (w &&& ~~~0x40 ≠ 0 → z.pwr.fault = true) := by
    rw [hzp, hp, hpwr]
    by_cases hb : w &&& ~~~0x40 ≠ 0
    · rw [if_pos (by simpa using hb)]
      exact ⟨rfl, rfl, rfl, rfl, fun _ => rfl⟩
    · rw [if_neg (by simpa using hb)]
      exact ⟨rfl, rfl, rfl, rfl, fun h => absurd h hb⟩
  obtain ⟨hst, hdev, hsmb, hsleep, hfault⟩ := hzpwr
  have hkeep {t s' : State} (hc : Calm 2 True (fun _ => False) t s') (ht : t.pwr = z.pwr) (hth : t.hobs = z.hobs) :
      s'.pwr.status = w.toNat ∧ s'.pwr.device = dev ∧ s'.pwr.smbalert = s.pwr.smbalert ∧ (w &&& ~~~0x40 ≠ 0 → s'.pwr.fault = true) ∧ s'.hobs = s.hobs := by
    have hf {α : Type} (f : Power → α) : f { s'.pwr with sinks := [], exiting := none } = f { z.pwr with sinks := [], exiting := none } := by rw [pwr_of_calm hc, ht]
    exact ⟨(hf Power.status).trans hst, (hf Power.device).trans hdev, (hf Power.smbalert).trans hsmb, fun h => (hf Power.fault).trans (hfault h), (hobs_of_calm hc).trans (hth.trans (hzh.trans hhobs))⟩
  obtain ⟨-, -, -, hwork, hdown, hloop, -⟩ := (settledButMirror_iff _).mp (hzset (hset1 hset))
  have hnosleep : z.pwr.sleeping = false := (Bool.or_eq_false_iff.mp hdown).2
  rw [hread]
  by_cases hoff : w.getLsbD 6 = true
  · rw [if_pos hoff]
    obtain ⟨y, hy, hpart⟩ := partFatal_eq z (n := 2) (by decide)
    obtain ⟨t, ht⟩ : ∃ t, t = z.partFatal 2 := ⟨_, rfl⟩
    have htfacts : t.boot.work = [] ∧ t.loopback = [] ∧ t.pwr = z.pwr ∧ t.hobs = z.hobs ∧ t.svc.cause = if z.svc.cause = 0 then 2 else z.svc.cause := by
      have hyf : y.boot.work = [] ∧ y.loopback = [] ∧ y.pwr = z.pwr ∧ y.hobs = z.hobs ∧ y.svc.cause = if z.svc.cause = 0 then 2 else z.svc.cause := by
        rw [hy]
        exact ⟨(congrArg Boot.work (log_boot ..)).trans hwork, (log_loopback ..).trans hloop, log_pwr .., log_hobs .., rfl⟩
      rw [ht, hpart]
      split <;> exact hyf
    obtain ⟨htw, htl, htp, hth, htc⟩ := htfacts
    obtain ⟨s', hends, hcalm⟩ := ends_calm htw (by rw [htp]; exact hnosleep) (by simp [htl])
    obtain ⟨h1, h2, h3, h4, h5⟩ := hkeep hcalm htp hth
    refine ⟨s', by rw [← ht]; exact hends, h1, h2, h3, h4, fun _ h0 => ?_, h5, fun h => absurd hoff (by rw [h]; exact Bool.false_ne_true)⟩
    have htc' : t.svc.cause = 2 := by rw [htc, hzc, hcause, if_pos h0]
    exact (hcalm.cause (by rw [htc']; decide)).trans htc'
  · rw [if_neg hoff]
    obtain ⟨s', hends, hcalm⟩ := ends_calm hwork hnosleep (by simp [hloop])
    obtain ⟨h1, h2, h3, h4, h5⟩ := hkeep hcalm rfl rfl
    refine ⟨s', hends, h1, h2, h3, h4, fun h => absurd h hoff, h5, fun _ hi hm => ?_⟩
    have hsettled : z.settled = true := by rw [hzset2 (hmir.trans hm), hset2 hm, hset]
    obtain rfl := Host.Outcome.next.inj ((ends_settled z hsettled).symm.trans hends)
    rw [hzout (hibi.trans hi), hout hi]
/-- A device that does not acknowledge: it is counted, and the third time in succession is a power fault. -/
theorem pmbusNak_ends {s : State} (hset : s.settled = true) (dev : Nat) :
    (get 0 dev s.pwr.pmbNaks ≠ 2 → (s.pmbusNak dev 1).ends = .next { s with pwr := { s.pwr with pmbNaks := put 0 dev (get 0 dev s.pwr.pmbNaks + 1) s.pwr.pmbNaks } }) ∧
    (get 0 dev s.pwr.pmbNaks = 2 → ∃ s', (s.pmbusNak dev 1).ends = .next s' ∧ s'.pwr.fault = true ∧ s'.pwr.raise = 0 ∧ s'.pwr.cause = (if s.pwr.cause = 0 then 4 else s.pwr.cause) ∧ s'.hobs = s.hobs) := by
  refine ⟨fun h => ?_, fun h => ?_⟩
  · have hnak : s.pmbusNak dev 1 = { s with pwr := { s.pwr with pmbNaks := put 0 dev (get 0 dev s.pwr.pmbNaks + 1) s.pwr.pmbNaks } } := if_neg (by omega)
    rw [hnak]
    exact ends_settled _ hset
  · have hnak : s.pmbusNak dev 1 = ({ s with pwr := { s.pwr with pmbNaks := put 0 dev (get 0 dev s.pwr.pmbNaks + 1) s.pwr.pmbNaks } } : State).powerFault 4 := if_pos (by omega)
    obtain ⟨s', hends, ⟨sk, hpwr⟩, hhobs⟩ := powerFault_ends (s := { s with pwr := { s.pwr with pmbNaks := put 0 dev (get 0 dev s.pwr.pmbNaks + 1) s.pwr.pmbNaks } }) hset 4
    exact ⟨s', by rw [hnak]; exact hends, by rw [hpwr]; rfl, by rw [hpwr]; rfl, by rw [hpwr]; rfl, hhobs⟩
/-- SMBALERT and SMBALERT_REPEAT. -/
theorem smbalert_spec {s : State} (hset : s.settled = true) (dev : Fin 8) (w : BitVec 16) (ack still : Bool) (c : Instr)
    (hc : c = .smbalert dev w ack still ∨ (c = .smbalertRepeat dev w ack still ∧ s.pwr.smbalert = true ∧ s.onPll = true)) :
    (s.serving 5 = true → dev.val < s.pwr.regs.length →
      (ack = true → ∃ s', exec c s = .next s' ∧ s'.pwr.status = w.toNat ∧ s'.pwr.device = dev ∧ s'.pwr.smbalert = still ∧ (w &&& ~~~0x40 ≠ 0 → s'.pwr.fault = true) ∧
        (w.getLsbD 6 = true → s.svc.cause = 0 → s'.svc.cause = 2) ∧ s'.hobs = s.hobs ∧
        (w.getLsbD 6 = false → s.svc.ibiEn = false → s.svc.mirrorEn = false → s'.out = s.out ++ ([.bytes "ALERT_RESPONSE" [], .bytes "STATUS_WORD" [BitVec.ofNat 8 dev]] ++
          (flaggedStatus w).map (fun n => .bytes n [BitVec.ofNat 8 dev]) ++ [.bytes "CLEAR_FAULTS" [BitVec.ofNat 8 dev]]))) ∧
      (ack = false → get 0 dev.val s.pwr.pmbNaks ≠ 2 → exec c s = .next { s with pwr := { s.pwr with smbalert := still, pmbNaks := put 0 dev.val (get 0 dev.val s.pwr.pmbNaks + 1) s.pwr.pmbNaks }, out := s.out ++ [.bytes "ALERT_RESPONSE" []] }) ∧
      (ack = false → get 0 dev.val s.pwr.pmbNaks = 2 → ∃ s', exec c s = .next s' ∧ s'.pwr.fault = true ∧ s'.pwr.raise = 0 ∧ s'.pwr.cause = (if s.pwr.cause = 0 then 4 else s.pwr.cause) ∧ s'.hobs = s.hobs)) ∧
    (s.serving 5 = false ∨ s.pwr.regs.length ≤ dev.val → exec c s = .next { s with pwr := { s.pwr with smbalert := true } }) := by
  have hexec : exec c s = (s.alertReading dev w ack still).ends := by
    rcases hc with rfl | ⟨rfl, hpin, hpll⟩
    · rfl
    · rw [exec, execSmbalertRepeat, if_pos hpin, State.timed, if_pos hpll]
  rw [hexec]
  refine ⟨fun hserve hdev => ?_, fun hno => ?_⟩
  · have hread : s.alertReading dev w ack still = if ack then ({ s with pwr := { s.pwr with smbalert := still } } : State).readAlert dev w
        else (({ s with pwr := { s.pwr with smbalert := still } } : State).emit (.bytes "ALERT_RESPONSE" [])).pmbusNak dev 1 := if_pos (by simp [hserve, hdev])
    rw [hread]
    refine ⟨fun ha => ?_, fun ha => ?_, fun ha => ?_⟩
    · rw [if_pos ha]
      exact readAlert_ends (s := { s with pwr := { s.pwr with smbalert := still } }) hset dev w
    · rw [if_neg (by simp [ha])]
      exact (pmbusNak_ends (s := ({ s with pwr := { s.pwr with smbalert := still } } : State).emit (.bytes "ALERT_RESPONSE" [])) hset dev).1
    · rw [if_neg (by simp [ha])]
      exact (pmbusNak_ends (s := ({ s with pwr := { s.pwr with smbalert := still } } : State).emit (.bytes "ALERT_RESPONSE" [])) hset dev).2
  · have hread : s.alertReading dev w ack still = { s with pwr := { s.pwr with smbalert := true } } := by
      refine if_neg ?_
      rw [Bool.and_eq_true, decide_eq_true_eq]
      rintro ⟨h, h'⟩
      rcases hno with e | e
      · rw [e] at h
        exact Bool.false_ne_true h
      · omega
    rw [hread]
    exact ends_settled _ hset
theorem timed_held {s : State} (h : s.onPll = false) (t : State) : s.timed t = s := if_neg (by simp [h])
/-- Settles O54: each response is one change of the power unit's registers; what a power fault or a part-fatal error adds is kept apart, and the end of the command is calm. -/
theorem powerResponses : Obligations.PowerResponses := by
  intro s hset _
  have hidle {c : Instr} (h : exec c s = s.ends) : exec c s = .next s := h.trans (ends_settled s hset)
  refine ⟨fun c mv vd hc hserve => ?_, fun hserve hpll hw => avsAckTimeout_due hset hserve hpll hw, fun a hserve hpll => irailRead_due hset hserve a hpll, smbalert_spec hset, damperStep_spec hset,
    thermtrip_spec hset, fun c => serviceFails_spec hset, fun hno a vd mv => hidle ?_, fun hno => ⟨hidle ?_, fun a => hidle ?_⟩, fun hno dev w ack still => hidle ?_⟩
  · obtain ⟨h1, h2, h3, h4⟩ := avsAck_acked hset hserve c mv vd hc
    exact ⟨h1, h2, h3, h4, avsAck_refused hset hserve mv vd⟩
  · rw [exec, execAvsAck, State.avsPoll, if_pos hno]
  · rw [exec, execAvsAckTimeout, State.avsTimeout]
    rcases hno with h | h
    · rw [if_neg (by simp [h])]
    · rw [timed_held h, ite_self]
  · rw [exec, execIrailRead]
    rcases hno with h | h
    · rw [if_neg (by simp [h])]
    · rw [timed_held h, ite_self]
  · rw [exec, execSmbalertRepeat]
    rcases hno with h | h
    · rw [if_neg (by simp [h])]
    · rw [timed_held h, ite_self]

end Sys2Proof.Machine
end

section
/-! Frames that are received, and a port that follows its link (R334, R335, R336, R339, R440). -/
namespace Sys2Proof.Machine

@[simp] theorem toBytesBE_length (k x : Nat) : (toBytesBE k x).length = k := by simp [toBytesBE]
/-- A frame leaves an interface whose link is up. -/
theorem ethSend_up {s : State} {i : Nat} {x : Iface} {b : Bytes} (hoff : s.ethOff = false) (hx : s.iface i = x) (hup : x.up = true) (hlen : b.length + 4 ≤ maxSent) :
    s.ethSend i b = { s.setIface i { x with txfrm := x.txfrm + 1 } with out := s.out ++ [.frame i (withFcs b)] } := by
  have hsend : ¬ (s.ethOff = true ∨ maxSent < b.length + 4) := by simp only [hoff, Bool.false_eq_true, false_or]; omega
  unfold State.ethSend
  simp only [hx, if_neg hsend, hup, if_true]
  rfl
/-- A frame is dropped at an interface whose link is down. -/
theorem ethSend_down {s : State} {i : Nat} {x : Iface} {b : Bytes} (hoff : s.ethOff = false) (hx : s.iface i = x) (hup : x.up = false) (hlen : b.length + 4 ≤ maxSent) :
    s.ethSend i b = s.setIface i { x with txdrop := x.txdrop + 1 } := by
  have hsend : ¬ (s.ethOff = true ∨ maxSent < b.length + 4) := by simp only [hoff, Bool.false_eq_true, false_or]; omega
  unfold State.ethSend
  simp only [hx, if_neg hsend, hup, Bool.false_eq_true, if_false]
theorem ethSend_long {s : State} {i : Nat} {b : Bytes} (hlen : maxSent < b.length + 4) : s.ethSend i b = s := if_pos (.inr hlen)
/-- Frames are received only while the ports are on. -/
theorem ethOff_of_receives {s : State} {i : Nat} {b : Bytes} {ok : Bool} {r : Rx} (h : s.receives i b ok = some r) : s.transportOff = false ∧ s.ethOff = false := by
  unfold State.receives at h
  split at h
  · cases h
  · next hn =>
    simp only [Bool.or_eq_true, not_or, Bool.not_eq_true] at hn
    exact ⟨hn.1, (Bool.or_eq_false_iff.mp hn.1).1⟩
theorem header_length (x : Iface) (dst et : Nat) : (x.header dst et).length ≤ 18 := by
  unfold Iface.header
  split <;> simp
theorem ipPacket_length (x : Iface) (v6 : Bool) (dst dscp flow proto ttl : Nat) (p : Bytes) : (ipPacket x v6 dst dscp flow proto ttl p).length ≤ 40 + p.length := by
  unfold ipPacket
  split <;> simp <;> omega
theorem arpReply_length (x : Iface) (mac ip : Nat) : (arpReply x mac ip).length + 4 ≤ maxSent := by
  have h := header_length x mac 0x0806
  simp only [arpReply, maxSent, List.length_append, toBytesBE_length]
  omega
theorem naReply_length (x : Iface) (ip : Nat) : (naReply x ip).length + 4 ≤ maxSent := by
  have h := header_length x (if ip = 0 then 0x333300000001 else x.macFor true ip) 0x86DD
  simp only [naReply, maxSent, List.length_append]
  refine Nat.le_trans (Nat.add_le_add_right (Nat.add_le_add h (ipPacket_length ..)) 4) ?_
  simp [icmp]
theorem bfFrame_length (x : Iface) (port : Nat) (v6 : Bool) (dst dscp : Nat) (p : BfPkt) (hp : p.payload.length ≤ 4096) : (bfFrame x port v6 dst dscp p).length + 4 ≤ maxSent := by
  have h := header_length x (x.macFor v6 dst) (if v6 then 0x86DD else 0x0800)
  simp only [bfFrame, maxSent, List.length_append]
  refine Nat.le_trans (Nat.add_le_add_right (Nat.add_le_add h (ipPacket_length ..)) 4) ?_
  simp [BfPkt.bytes, fit]
  omega

section
variable {i : Fin 4} {b : Bytes} {ok : Bool} {s : State} {x : Iface}

/-- The interface counts the frame, and then changes once more. -/
theorem setIface_countRx (hwf : SMapWf ({} : Iface) s.trn.ifaces = true) (i : Nat) (y : Iface) : (s.countRx i).setIface i y = s.setIface i y := by
  simp only [State.countRx, State.setIface, put_put _ _ _ _ _ hwf]
theorem iface_countRx (i : Nat) : (s.countRx i).iface i = { s.iface i with rxfrm := (s.iface i).rxfrm + 1 } := get_put_same _ _ _ _
/-- A request is answered on the interface that received it. -/
theorem answer_countRx (hwf : SMapWf ({} : Iface) s.trn.ifaces = true) (hx : x = s.iface i) (hup : x.up = true) (hoff : s.ethOff = false) {f : Bytes} (hlen : f.length + 4 ≤ maxSent) :
    (s.countRx i).ethSend i f = { s.setIface i { x with rxfrm := x.rxfrm + 1, txfrm := x.txfrm + 1 } with out := s.out ++ [.frame i (withFcs f)] } := by
  rw [ethSend_up (s := s.countRx i) (x := { x with rxfrm := x.rxfrm + 1 }) hoff (hx ▸ iface_countRx _) hup hlen, setIface_countRx hwf]
  rfl
theorem receivedFrames_spec (hset : s.settled = true) (hwf : SMapWf ({} : Iface) s.trn.ifaces = true) (hx : x = s.iface i) (hup : x.up = true) :
    (∀ mac ip, s.receives i b ok = some (.arp mac ip) →
      exec (.arpRequest i b ok) s = .next { s.setIface i { x with rxfrm := x.rxfrm + 1, txfrm := x.txfrm + 1 } with out := s.out ++ [.frame i (withFcs (arpReply x mac ip))] }) ∧
    (∀ ip, s.receives i b ok = some (.solicit ip) →
      exec (.neighbourSolicitation i b ok) s = .next { s.setIface i { x with rxfrm := x.rxfrm + 1, txfrm := x.txfrm + 1 } with out := s.out ++ [.frame i (withFcs (naReply x ip))] }) ∧
    (∀ v6 ip m, s.receives i b ok = some (.echo v6 ip m) →
      ((echoReply x v6 ip m).length + 4 ≤ 4202 → exec (.echoRequest i b ok) s = .next { s.setIface i { x with rxfrm := x.rxfrm + 1, txfrm := x.txfrm + 1 } with out := s.out ++ [.frame i (withFcs (echoReply x v6 ip m))] }) ∧
      (4202 < (echoReply x v6 ip m).length + 4 → exec (.echoRequest i b ok) s = .next (s.setIface i { x with rxfrm := x.rxfrm + 1 }))) ∧
    ((∀ v6 ip m, s.receives i b ok ≠ some (.echo v6 ip m)) → exec (.echoRequest i b ok) s = .next s) ∧
    (s.receives i b ok = some .pause → exec (.pauseFrame i b ok) s = .next (s.setIface i { x with rxfrm := x.rxfrm + 1, pause := x.pause + 1 })) ∧
    (s.receives i b ok = some .fcs → exec (.receivedFrame i b ok) s = .next ((s.setIface i { x with rxfrm := x.rxfrm + 1, fcs := x.fcs + 1 }).dropHeader)) ∧
    (s.receives i b ok = some .bad → exec (.receivedFrame i b ok) s = .next ((s.setIface i { x with rxfrm := x.rxfrm + 1 }).dropHeader)) ∧
    (s.receives i b ok = some .other → exec (.receivedFrame i b ok) s = .next (s.setIface i { x with rxfrm := x.rxfrm + 1 })) := by
  have hx' : s.iface i = x := hx.symm
  have hcount : s.countRx i = s.setIface i { x with rxfrm := x.rxfrm + 1 } := by rw [State.countRx, hx']
  refine ⟨fun mac ip hr => ?_, fun ip hr => ?_, fun v6 ip m hr => ⟨fun hlen => ?_, fun hlen => ?_⟩, fun hr => ?_, fun hr => ?_, fun hr => ?_, fun hr => ?_, fun hr => ?_⟩
  · rw [exec, execArpRequest, hr]
    simp only [hx', answer_countRx hwf hx hup (ethOff_of_receives hr).2 (arpReply_length x mac ip)]
    exact ends_settled _ hset
  · rw [exec, execNeighbourSolicitation, hr]
    simp only [hx', answer_countRx hwf hx hup (ethOff_of_receives hr).2 (naReply_length x ip)]
    exact ends_settled _ hset
  · rw [exec, execEchoRequest, hr]
    simp only [hx', answer_countRx hwf hx hup (ethOff_of_receives hr).2 hlen]
    exact ends_settled _ hset
  · rw [exec, execEchoRequest, hr]
    simp only [hx', ethSend_long hlen, hcount]
    exact ends_settled _ hset
  · rw [exec, execEchoRequest]
    split
    · next v6 ip m he => exact absurd he (hr v6 ip m)
    · exact ends_settled _ hset
  · rw [exec, execPauseFrame, hr]
    simp only [iface_countRx, setIface_countRx hwf, hx']
    exact ends_settled _ hset
  · rw [exec, execReceivedFrame, hr]
    simp only [iface_countRx, setIface_countRx hwf, hx']
    exact ends_settled _ hset
  · rw [exec, execReceivedFrame, hr, hcount]
    exact ends_settled _ hset
  · rw [exec, execReceivedFrame, hr, hcount]
    exact ends_settled _ hset
end

/-! ### A port and its link -/

/-- A frame that is sent leaves the link as it is. -/
theorem up_ethSend (s : State) (i : Nat) (b : Bytes) : ((s.ethSend i b).iface i).up = (s.iface i).up := by
  unfold State.ethSend
  extract_lets
  split
  · rfl
  · split <;> exact (congrArg Iface.up (get_put_same _ _ _ _)).trans rfl

theorem ethLinkChange_spec {s : State} (hset : s.settled = true) (hoff : s.transportOff = false) (i : Fin 4) (up : Bool) (first : Prop)
    (hfirst : first = (up = true ∧ s.boot.step = 7 ∧ s.boot.failed = false ∧ s.bringsUp = true ∧ i.val = le s.repo 0 1)) (hmode : (s.iface i).mode ≠ 0) (hstep : 7 ≤ s.boot.step) :
    (¬first → exec (.ethLinkChange i up) s = .next (s.setIface i { s.iface i with up := up })) ∧
    (first → ∃ s', exec (.ethLinkChange i up) s = .next s' ∧ (s'.iface i).up = true ∧ s'.boot.step = 8 ∧ s'.boot.session = 1 ∧ (s'.qp 0).state = 2 ∧ s'.mem = s.mem ∧ s'.hobs = s.hobs ∧ s'.gates = s.gates) := by
  have hether : s.ethOff = false := (Bool.or_eq_false_iff.mp hoff).1
  have hon : ¬ ((s.iface i).mode = 0 ∨ s.boot.step < 7 ∨ s.ethOff = true) := by simp only [hether, hmode]; simp; omega
  subst hfirst
  refine ⟨fun hno => ?_, fun hyes => ?_⟩
  · rw [exec, execEthLinkChange, State.ethLink, if_neg hon]
    simp only [if_neg hno]
    exact ends_settled _ hset
  · have hexec : exec (.ethLinkChange i up) s = (({ s.setIface i { s.iface i with up := up } with boot := { s.boot with step := 8 } } : State).createQp0).ends := by
      rw [exec, execEthLinkChange, State.ethLink, if_neg hon]
      simp only [if_pos hyes]
      rfl
    obtain ⟨t, ht⟩ : ∃ t : State, t = { s.setIface i { s.iface i with up := up } with boot := { s.boot with step := 8 } } := ⟨_, rfl⟩
    have hrepo : t.repo = s.repo := by rw [ht]; rfl
    obtain ⟨x, hx, hxs, hxi⟩ : ∃ x : Qp, t.createQp0 = (({ t with fresh := t.fresh + 1, boot := { t.boot with session := 1 } } : State).setQp 0 x).sendConnect 0 8 ∧ x.state = 2 ∧ x.iface = i.val :=
      ⟨_, rfl, rfl, by rw [hrepo]; exact hyes.2.2.2.2.symm⟩
    have hup : (t.createQp0.iface i).up = true := by
      rw [hx, State.sendConnect, State.qpSend]
      simp only [show (({ t with fresh := t.fresh + 1, boot := { t.boot with session := 1 } } : State).setQp 0 x).qp 0 = x from get_put_same _ _ _ _, hxi]
      rw [up_ethSend, ht]
      exact (congrArg Iface.up (get_put_same _ _ _ _)).trans hyes.1
    obtain ⟨is, o, hrest⟩ := sendConnect_rest (({ t with fresh := t.fresh + 1, boot := { t.boot with session := 1 } } : State).setQp 0 x) 0 8
    rw [← ht, hx, hrest] at hexec
    rw [hx, hrest] at hup
    rw [ht] at hexec hup
    refine ⟨_, hexec.trans (ends_settled _ hset), hup, rfl, rfl, ?_, rfl, rfl, rfl⟩
    exact (congrArg Qp.state (get_put_same _ _ _ _)).trans hxs
end Sys2Proof.Machine
end

section
/-! Completions that the transport reports, and the end of a command after them (R362, R363, R371). -/
namespace Sys2Proof.Machine

/-! ### A calm command and its end -/

theorem Calm.weaken {K : Nat} {F : Prop} {G : Nat → Prop} {a t : State} (h : Calm K False G a t) : Calm K F G a t :=
  ⟨h.core, .inl (h.mode.elim id fun hf => hf.1.elim), h.cause, h.claims, h.work, h.bufs, h.gates, h.ranges, fun _ => h.loop id, h.noMgmt, h.transport⟩
theorem goingDown_of_calm {K : Nat} {G : Nat → Prop} {a t : State} (h : Calm K False G a t) : t.goingDown = a.goingDown := by
  have hm : t.svc.mode = a.svc.mode := h.mode.elim id fun hf => hf.1.elim
  have hsl : t.pwr.sleeping = a.pwr.sleeping := sleeping_of_calm h
  rw [State.goingDown, State.goingDown, hm, hsl]
/-- A command that is calm with no stop and no packet to the part itself ends calmly. -/
theorem calm_ends {K : Nat} {G : Nat → Prop} {a t : State} (h : Calm K False G a t) (hset : a.settled = true) : ∃ s', t.ends = .next s' ∧ Calm K True G a s' := by
  obtain ⟨-, -, -, hwork, -, hgoing, hloop, -⟩ := (settled_iff a).mp hset
  obtain ⟨s', hends, hcalm⟩ := ends_calmGates K G (h.work hwork) ((goingDown_of_calm h).trans hgoing) ((h.loop id).trans hloop)
  exact ⟨s', hends, h.weaken.trans hcalm⟩

/-! ### What a completion changes -/

/-- From `a` to `s` only queue pairs, counters, channels, decided aborts, the event log and its registers, and what leaves the mantel changed. -/
structure SameButReports (a s : State) : Prop where
  rest : s = { a with flg := s.flg, stk := s.stk, svc := s.svc, com := s.com, out := s.out, mantelOut := s.mantelOut, trn := s.trn }
  trn : s.trn = { a.trn with qps := s.trn.qps, cqdrop := s.trn.cqdrop, cnt := s.trn.cnt, chg := s.trn.chg }
  flg : s.flg = { a.flg with chans := s.flg.chans }
  stk : s.stk = { a.stk with aborts := s.stk.aborts, progress := s.stk.progress }
  mode : s.svc.mode = a.svc.mode
section
variable {a b c s : State}
theorem SameButReports.refl (a : State) : SameButReports a a := ⟨rfl, rfl, rfl, rfl, rfl⟩
theorem SameButReports.trans (h : SameButReports a b) (g : SameButReports b c) : SameButReports a c where
  rest := by rw [g.rest, h.rest]
  trn := by rw [g.trn, h.trn]
  flg := by rw [g.flg, h.flg]
  stk := by rw [g.stk, h.stk]
  mode := g.mode.trans h.mode
theorem SameButMessages.reports (h : SameButMessages a s) : SameButReports a s where
  rest := by rw [h.rest]
  trn := by rw [h.rest]
  flg := h.flg
  stk := by rw [h.stk]
  mode := h.mode
theorem SameButReports.foldl {α : Type} {f : State → α → State} (hf : ∀ s x, SameButReports s (f s x)) (l : List α) (s : State) : SameButReports s (l.foldl f s) := by
  induction l generalizing s with
  | nil => exact .refl s
  | cons x l ih => exact (hf s x).trans (ih _)
theorem setQp_reports (s : State) (n : Nat) (x : Qp) : SameButReports s (s.setQp n x) := ⟨rfl, rfl, rfl, rfl, rfl⟩
theorem noteProgress_reports (s : State) : SameButReports s s.noteProgress := ⟨rfl, rfl, rfl, rfl, rfl⟩
theorem cntAdd_reports (s : State) (c : Nat) (d : Word) : SameButReports s (s.cntAdd c d) := by
  unfold State.cntAdd State.setCnt
  extract_lets src s1
  have h1 : SameButReports s s1 := ⟨rfl, rfl, rfl, rfl, rfl⟩
  split
  · exact h1.trans (noteProgress_reports _)
  · exact h1
theorem cqWrite_reports (s : State) (c t : Nat) (r : Bytes) : SameButReports s (s.cqWrite c t r) := by
  have hmsg := msgArrive_sameButMessages s c s.rt.chip sunitTransport 0 (some t) 1 0 [(r, false)]
  unfold State.cqWrite
  split
  next s1 code he =>
    rw [he] at hmsg
    split
    · exact hmsg.reports
    · exact hmsg.reports.trans ⟨rfl, rfl, rfl, rfl, rfl⟩
theorem wrComplete_reports (s : State) (n : Nat) (r : Bytes) (status len psn : Nat) : SameButReports s (s.wrComplete n r status len psn) := by
  unfold State.wrComplete
  extract_lets x s1 s2
  have h1 : SameButReports s s1 := by
    unfold s1
    split
    · exact cqWrite_reports ..
    · exact .refl s
  have h2 : SameButReports s s2 := by
    unfold s2
    split
    · exact h1.trans (cntAdd_reports ..)
    · exact h1
  exact h2.trans (noteProgress_reports _)
theorem endOp_reports (s : State) (n id status : Nat) : SameButReports s (s.endOp n id status) := by
  unfold State.endOp
  extract_lets x
  split
  · exact .refl s
  · exact (setQp_reports ..).trans (wrComplete_reports ..)

/-! ### The end of a command that has changed counters -/

/-- The changes of the counters have been judged. -/
def State.judgedCnt (s : State) : State := { s with trn := { s.trn with chg := [] } }
theorem judgedCnt_reports (s : State) : SameButReports s s.judgedCnt := ⟨rfl, rfl, rfl, rfl, rfl⟩
theorem runTriggers_none (n : Nat) : ∀ s : State, s.trn.trigs = [] → s.trn.chg.length < n → s.runTriggers n = s.judgedCnt := by
  induction n with
  | zero => intro s _ h; omega
  | succ n ih =>
    intro s ht hn
    rw [State.runTriggers]
    cases hc : s.trn.chg with
    | nil =>
      simp only [State.judgedCnt, ← hc]
    | cons c rest =>
      simp only [ht, List.filter_nil, List.foldl_nil]
      rw [hc, List.length_cons] at hn
      rw [ih _ rfl (by simp only; omega)]
      simp only [State.judgedCnt, ← ht]
theorem triggers_none {s : State} (ht : s.trn.trigs = []) : s.triggers = s.judgedCnt := runTriggers_none _ s ht (by omega)
theorem settled_judgedCnt {a s : State} (h : SameButReports a s) (ha : a.settled = true) : s.judgedCnt.settledButMirror = true := by
  obtain ⟨h1, h2, h3, h4, -, h6, h7, h8⟩ := (settled_iff a).mp ha
  have hdown : s.goingDown = a.goingDown := by rw [State.goingDown, State.goingDown, h.mode, h.rest]
  refine (settledButMirror_iff _).mpr ⟨?_, rfl, ?_, ?_, ?_, ?_, ?_⟩
  · exact (congrArg Transport.home h.trn).trans h1
  · exact (congrArg Stoker.openEpoch h.stk).trans h3
  · exact (congrArg (fun s => s.boot.work) h.rest).trans h4
  · exact hdown.trans h6
  · exact (congrArg (fun s => s.loopback) h.rest).trans h7
  · exact (congrArg (fun s : State => (!s.pwr.simmer || s.pwr.exiting.isSome)) h.rest).trans h8
/-- Where no triggered entry waits, the end of a command judges the counters and sends the mirror messages. -/
theorem ends_judgedCnt {s : State} (ht : s.trn.trigs = []) (h : s.judgedCnt.settledButMirror = true) : s.ends = .next s.judgedCnt.flush := by
  have hflush := (flush_sameButMessages s.judgedCnt).settledButMirror h
  obtain ⟨h1, h2, h3, h4, h6, h7, h8⟩ := (settledButMirror_iff _).mp h
  obtain ⟨-, -, -, -, -, hloop, hexit⟩ := (settledButMirror_iff _).mp hflush
  have hshut : s.shutdown = s := if_neg (by rw [show s.goingDown = false from h6]; exact Bool.false_ne_true)
  have hdone : s.done = s.judgedCnt.flush := by
    simp only [State.done, transHome_quiet s h1, triggers_none ht, closeEpoch_quiet _ h3, h4, List.map_nil, List.sum_nil, State.answerUnknown, List.length_nil, State.sendReplies,
      triggers_quiet s.judgedCnt rfl]
  rw [State.ends, deliverLocal_quiet s 4 h7, hshut, hdone, deliverLocal_quiet _ 4 hloop, decideExit_quiet _ hexit]
/-- A settled part whose transport has reported completions. -/
theorem ends_reports {a s : State} (ha : a.settled = true) (ht : a.trn.trigs = []) (h : SameButReports a s) :
    ∃ s', s.ends = .next s' ∧ SameButReports a s' ∧ s'.trn = s.judgedCnt.trn ∧ (s.svc = a.svc → s' = s.judgedCnt) := by
  have htrigs : s.trn.trigs = [] := (congrArg Transport.trigs h.trn).trans ht
  have hcalm := flush_sameButMessages s.judgedCnt
  refine ⟨_, ends_judgedCnt htrigs (settled_judgedCnt h ha), (h.trans (judgedCnt_reports s)).trans hcalm.reports, by rw [hcalm.rest], fun hsvc => flush_quiet _ ?_⟩
  rw [show s.judgedCnt.svc = a.svc from hsvc]
  exact ((settled_iff a).mp ha).2.2.2.2.1
end

end Sys2Proof.Machine
end

section
/-! Receives that complete, regions that close, and the transport's timers (R349, R360, R368). -/
namespace Sys2Proof.Machine

/-! ### Packets that go again -/

theorem calm_resendFrom {K : Nat} {F : Prop} {G : Nat → Prop} {z : State} (hK : K ≠ 0) (q : Nat) (n : Nat) : ∀ (s : State) (p : Word), Calm K F G z s → Calm K F G z (s.resendFrom q p n) := by
  induction n with
  | zero => intro s p h0; exact h0
  | succ n ih =>
    intro s p h0
    have hsend : ∀ o j, CalmP K F G z (s.sendPacketOf q o j) := fun o j => calm_sendPacketOf s q o j h0
    rw [State.resendFrom]
    extract_lets x
    split
    · exact h0
    · split
      · exact ih _ _ h0
      · extract_lets get
        split
        · exact h0
        · split
          · exact ih _ _ h0
          · split
            · next he => exact calm_qpPoison hK _ _ _ (calm_of_pair he (hsend _ _))
            · next he => exact ih _ _ (calm_opCut _ _ _ _ (calm_of_pair he (hsend _ _)))
            · next t he =>
              extract_lets src s2 s3 s4
              have hpair (k : Nat) (f : TOp → TOp) (hf : ∀ o, (f o).acked = o.acked) :
                  Calm K F G z (State.setQp { t with trn := { t.trn with retx := t.trn.retx + 1 } } q ((t.qp q).mapOp k f)) :=
                calm_setQp q _ (calm_of_rest (calm_of_pair he (hsend _ _)) rfl) (mapOp_becomes _ _ f hf)
              refine ih _ _ ?_
              unfold s4
              split
              · exact calm_endOp _ _ _ _ (hpair _ _ fun _ => rfl)
              · exact hpair _ _ fun _ => rfl
theorem calm_resend {K : Nat} {F : Prop} {G : Nat → Prop} {z s : State} (hK : K ≠ 0) (q : Nat) (p : Word) (h0 : Calm K F G z s) : Calm K F G z (s.resend q p) :=
  calm_pump hK _ _ _ (calm_resendFrom hK q 512 s p h0)
theorem calm_resendGets {K : Nat} {F : Prop} {G : Nat → Prop} {z s : State} (q : Nat) (h0 : Calm K F G z s) : Calm K F G z (s.resendGets q) :=
  calm_foldl h0 fun t o ht => calm_of_rest (calm_fst (calm_sendPacketOf t q o 0 ht)) rfl

/-! ### Timers -/

/-- A queue pair that enters ERROR has nothing left, and keeps the code. -/
theorem qpError_dead (s : State) (q code : Nat) : ((s.qpError q code).qp q).dead ∧ ((s.qpError q code).qp q).errcode = code := by
  have hput (t : State) (y : Qp) : (t.setQp q y).qp q = y := get_put_same _ _ _ _
  have hlog (t : State) (c : Nat) (cls : EClass) (src : Src) (o : Option Nat) (l : List Nat) : (t.log c cls src o l).qp q = t.qp q := by simp only [State.qp, log_trn]
  unfold State.qpError
  extract_lets x s1 s2 mine cut s3 gone src s4 y s5 free
  have h5 : (s5.qp q).dead ∧ (s5.qp q).errcode = code := by
    unfold s5
    rw [hput]
    exact ⟨⟨rfl, rfl, rfl⟩, rfl⟩
  split
  · rw [hlog]
    exact h5
  · exact h5
theorem ends_qpError {s t : State} {q code : Nat} (hset : s.settled = true) (hqps : SMapWf ({} : Qp) s.trn.qps = true) (h : Calm 1 False (fun _ => False) s t) :
    ∃ s', (t.qpError q code).ends = .next s' ∧ (s'.qp q).state = 4 ∧ (s'.qp q).errcode = code ∧ (s'.qp q).sq = [] ∧ (s'.qp q).ops = [] ∧ s'.hobs = s.hobs := by
  have hcalm : Calm 1 False (fun _ => False) s (t.qpError q code) := calm_qpError (by decide) _ _ _ h
  obtain ⟨-, -, -, hwork, -, hgoing, hloop, -⟩ := (settled_iff s).mp hset
  obtain ⟨hwf, -⟩ := hcalm.transport.pairs (by decide) hqps
  obtain ⟨s', hends, hc⟩ := ends_calmGates 0 (fun _ => False) (hcalm.work hwork) ((goingDown_of_calm hcalm).trans hgoing) ((hcalm.loop id).trans hloop)
  obtain ⟨hdead, hcode⟩ := qpError_dead t q code
  have hbecomes := (hc.transport.pairs (by decide) hwf).2 q
  obtain ⟨hstate, hsq, hops⟩ := hbecomes.dead hdead
  exact ⟨s', hends, hstate, (hbecomes.code rfl hdead).trans hcode, hsq, hops, (hobs_of_calm hc).trans (hobs_of_calm hcalm)⟩
/-- A queue pair changes, and then packets of it go again. -/
theorem ends_resends {s t : State} {q : Nat} {y : Qp} (hset : s.settled = true) (hqps : SMapWf ({} : Qp) s.trn.qps = true) (h : Calm 1 False (fun _ => False) (s.setQp q y) t) :
    ∃ s', t.ends = .next s' ∧ y.Becomes 1 (s'.qp q) ∧ s'.hobs = s.hobs := by
  obtain ⟨s', hends, hc⟩ := calm_ends h hset
  have hbecomes := (hc.transport.pairs (by decide) (put_wf hqps)).2 q
  exact ⟨s', hends, (get_put_same ({} : Qp) q y s.trn.qps) ▸ hbecomes, (hobs_of_calm hc).trans rfl⟩
section
variable {s : State} {q : Fin 16384} {x : Qp}

theorem execBfRto_on (hoff : s.transportOff = false) (hstop : s.clk.inStop = 0) : exec (.bfRto q) s = (s.rtoExpire q).ends := by
  have hmantel : s.mantelOff = false := (Bool.or_eq_false_iff.mp hoff).2
  simp only [exec, execBfRto, hoff, Bool.false_eq_true, if_false, State.counted, hstop, hmantel, and_self, if_true]
theorem execRnrDelay_on (hoff : s.transportOff = false) (hstop : s.clk.inStop = 0) : exec (.rnrDelay q) s = (s.rnrExpire q).ends := by
  have hmantel : s.mantelOff = false := (Bool.or_eq_false_iff.mp hoff).2
  simp only [exec, execRnrDelay, hoff, Bool.false_eq_true, if_false, State.counted, hstop, hmantel, and_self, if_true]

theorem bfRto_error (hset : s.settled = true) (hoff : s.transportOff = false) (hstop : s.clk.inStop = 0) (hqps : SMapWf ({} : Qp) s.trn.qps = true) (hx : x = s.qp q)
    (h : (x.state = 3 ∧ (x.una ≠ x.npsn ∨ x.lateGets ≠ []) ∧ x.retry < x.retries + 1) ∨ (x.state = 2 ∧ x.retry ≤ x.connTries + 1)) :
    ∃ s', exec (.bfRto q) s = .next s' ∧ (s'.qp q).state = 4 ∧ (s'.qp q).errcode = 0x18 ∧ (s'.qp q).sq = [] ∧ (s'.qp q).ops = [] ∧ s'.hobs = s.hobs := by
  rw [execBfRto_on hoff hstop, State.rtoExpire, ← hx]
  rcases h with ⟨h3, hwork, hretry⟩ | ⟨h2, htries⟩
  · simp only [h3, hwork, hretry, if_true, true_and, show ¬ (3 : Nat) = 2 by decide, if_false]
    exact ends_qpError hset hqps calm_refl
  · dsimp only
    rw [if_pos h2, if_pos htries]
    exact ends_qpError hset hqps (calm_setQp _ _ calm_refl (hx ▸ ⟨id, fun _ _ => rfl, fun hu => ⟨hu, rfl, rfl⟩, id⟩))
theorem bfRto_resends (hset : s.settled = true) (hoff : s.transportOff = false) (hstop : s.clk.inStop = 0) (hqps : SMapWf ({} : Qp) s.trn.qps = true) (hx : x = s.qp q)
    (h3 : x.state = 3) (hwork : x.una ≠ x.npsn ∨ x.lateGets ≠ []) (hretry : x.retries + 1 ≤ x.retry) (hacked : ∀ o ∈ x.ops, o.acked = false) :
    ∃ s', exec (.bfRto q) s = .next s' ∧ (s'.qp q).retries = x.retries + 1 ∧ s'.hobs = s.hobs := by
  rw [execBfRto_on hoff hstop, State.rtoExpire, ← hx]
  simp only [h3, hwork, if_true, true_and, show ¬ (3 : Nat) = 2 by decide, if_false, show ¬ x.retry < x.retries + 1 by omega]
  obtain ⟨s', hends, hb, hh⟩ := ends_resends hset hqps (calm_resend (by decide) _ _ (calm_resendGets _ calm_refl))
  exact ⟨s', hends, (hb.window hacked).2.1, hh⟩
/-- The CONNECT that goes again. -/
theorem bfRto_connects (hset : s.settled = true) (hoff : s.transportOff = false) (hstop : s.clk.inStop = 0) (hx : x = s.qp q) (h2 : x.state = 2) (htries : x.connTries + 1 < x.retry) (y : Qp)
    (hy : y = { x with connTries := x.connTries + 1 }) :
    ((s.iface x.iface).up = true →
      exec (.bfRto q) s = .next { (s.setQp q y).setIface x.iface { s.iface x.iface with txfrm := (s.iface x.iface).txfrm + 1 } with
        out := s.out ++ [.frame x.iface (withFcs (bfFrame (s.iface x.iface) s.trn.port x.ipv6 x.peerIp x.dscp { opc := 8, part := x.part, tenant := x.tenant, dqpn := x.peerQp.getD 0, sqpn := q, psn := x.npsn, ext := toBytesBE 4 x.ipsn.toNat ++ toBytesBE 1 x.paylog0 }))] }) ∧
    ((s.iface x.iface).up = false → exec (.bfRto q) s = .next ((s.setQp q y).setIface x.iface { s.iface x.iface with txdrop := (s.iface x.iface).txdrop + 1 })) := by
  have hether : s.ethOff = false := (Bool.or_eq_false_iff.mp hoff).1
  have hqp : (s.setQp q y).qp q = y := get_put_same _ _ _ _
  have hexec : exec (.bfRto q) s = ((s.setQp q y).sendConnect q 8).ends := by
    rw [execBfRto_on hoff hstop, State.rtoExpire, ← hx]
    simp only [h2, if_true, show ¬ x.retry ≤ x.connTries + 1 by omega, if_false, hy]
  rw [hexec, State.sendConnect, State.qpSend, hqp, hy]
  refine ⟨fun hup => ?_, fun hup => ?_⟩
  · rw [ethSend_up (s := s.setQp q { x with connTries := x.connTries + 1 }) hether rfl hup (bfFrame_length _ _ _ _ _ _ (by simp))]
    exact ends_settled _ hset
  · rw [ethSend_down (s := s.setQp q { x with connTries := x.connTries + 1 }) hether rfl hup (bfFrame_length _ _ _ _ _ _ (by simp))]
    exact ends_settled _ hset
theorem bfRto_idle (hset : s.settled = true) (hoff : s.transportOff = false) (hstop : s.clk.inStop = 0) (hx : x = s.qp q)
    (h : (x.state ≠ 2 ∧ x.state ≠ 3) ∨ (x.state = 3 ∧ x.una = x.npsn ∧ x.lateGets = [])) : exec (.bfRto q) s = .next s := by
  rw [execBfRto_on hoff hstop, State.rtoExpire, ← hx]
  rcases h with ⟨h2, h3⟩ | ⟨h3, hu, hl⟩
  · simp only [h2, h3, if_false, false_and]
    exact ends_settled _ hset
  · simp only [h3, hu, hl, if_false, true_and, ne_eq, not_true, or_self, show ¬ (3 : Nat) = 2 by decide]
    exact ends_settled _ hset
theorem rnrDelay_spec (hset : s.settled = true) (hoff : s.transportOff = false) (hstop : s.clk.inStop = 0) (hqps : SMapWf ({} : Qp) s.trn.qps = true) (hx : x = s.qp q) :
    (∀ c, x.state = 3 → x.rnrWait = some c → ∃ s', exec (.rnrDelay q) s = .next s' ∧ (s'.qp q).rnrWait = none ∧ s'.hobs = s.hobs) ∧
    (x.state ≠ 3 ∨ x.rnrWait = none → exec (.rnrDelay q) s = .next s) := by
  rw [execRnrDelay_on hoff hstop, State.rnrExpire, ← hx]
  refine ⟨fun c h3 hc => ?_, fun h => ?_⟩
  · simp only [hc, h3, if_true]
    obtain ⟨s', hends, hb, hh⟩ := ends_resends hset hqps (calm_resend (by decide) q c calm_refl)
    exact ⟨s', hends, hb.rnr rfl, hh⟩
  · split
    · next c hc =>
      rw [if_neg (h.elim id fun hn => absurd (hc.symm.trans hn) (by simp))]
      exact ends_settled _ hset
    · exact ends_settled _ hset
end

end Sys2Proof.Machine
end

section
/-! Receives that complete, regions that close, and the Ethernet ports' statement (R336, R349, R360). -/
namespace Sys2Proof.Machine

/-! ### Receives -/

theorem cqWrite_trn (s : State) (c t : Nat) (r : Bytes) : (s.cqWrite c t r).trn = { s.trn with cqdrop := (s.cqWrite c t r).trn.cqdrop } := by
  have hmsg := (msgArrive_sameButMessages s c s.rt.chip sunitTransport 0 (some t) 1 0 [(r, false)]).rest
  unfold State.cqWrite
  split
  next s1 code he =>
    rw [he] at hmsg
    have htrn : s1.trn = s.trn := (congrArg State.trn hmsg).trans rfl
    split
    · rw [htrn]
    · rw [← htrn]
theorem cntAdd_rest (s : State) (c : Nat) (d : Word) : ∃ k, s.cntAdd c d = { s with stk := { s.stk with progress := k }, trn := { s.trn with cnt := put 0 c (get 0 c s.trn.cnt + d) s.trn.cnt, chg := s.trn.chg ++ [(c, get 0 c s.trn.cnt + d)] } } := by
  unfold State.cntAdd State.setCnt
  extract_lets src s1
  split
  · exact ⟨true, rfl⟩
  · exact ⟨s.stk.progress, rfl⟩
/-- A receive completes: its counter counts, and nothing of the transport but the dropped records changes. -/
theorem rvComplete_spec (s : State) (v : Recv) (status : Nat) : SameButReports s (s.rvComplete v status) ∧
    (s.rvComplete v status).judgedCnt.trn = { s.trn with cqdrop := (s.rvComplete v status).trn.cqdrop, cnt := if rvCntEn v.raw then upd 0 (rvCnt v.raw) (· + 1) s.trn.cnt else s.trn.cnt, chg := [] } ∧
    (rvCq v.raw = false → (s.rvComplete v status).svc = s.svc ∧ (s.rvComplete v status).mantelOut = s.mantelOut ∧ (s.rvComplete v status).flg = s.flg) := by
  unfold State.rvComplete
  extract_lets x len s1 s2
  have h1 : SameButReports s s1 ∧ s1.trn = { s.trn with cqdrop := s1.trn.cqdrop } ∧ (rvCq v.raw = false → s1 = s) := by
    unfold s1
    split
    · next h => exact ⟨cqWrite_reports .., cqWrite_trn .., fun hn => absurd (h.symm.trans hn) (by decide)⟩
    · exact ⟨.refl s, rfl, fun _ => rfl⟩
  obtain ⟨hreports, htrn, hself⟩ := h1
  have hcnt : s1.trn.cnt = s.trn.cnt := (congrArg Transport.cnt htrn).trans rfl
  cases hen : rvCntEn v.raw with
  | true =>
    have h2 : s2 = s1.cntAdd (rvCnt v.raw) 1 := if_pos hen
    obtain ⟨k, hadd⟩ := cntAdd_rest s1 (rvCnt v.raw) 1
    refine ⟨?_, ?_, fun hcq => ?_⟩
    · exact h2 ▸ (hreports.trans (cntAdd_reports ..)).trans (noteProgress_reports _)
    · rw [h2, hadd]
      simp only [State.judgedCnt, State.noteProgress, hcnt, if_true]
      rw [htrn]
      rfl
    · rw [h2, hadd, hself hcq]
      exact ⟨rfl, rfl, rfl⟩
  | false =>
    have h2 : s2 = s1 := if_neg (by simp [hen])
    refine ⟨?_, ?_, fun hcq => ?_⟩
    · exact h2 ▸ hreports.trans (noteProgress_reports _)
    · rw [h2]
      simp only [State.judgedCnt, State.noteProgress, Bool.false_eq_true, if_false]
      rw [htrn]
    · rw [h2, hself hcq]
      exact ⟨rfl, rfl, rfl⟩
theorem receiveComplete_spec {s : State} (hset : s.settled = true) (hoff : s.transportOff = false) (id : Nat) :
    (∀ v, s.trn.matched.find? (fun v => v.id == id && v.ready) = some v →
      ∃ s', exec (.receiveComplete id) s = .next s' ∧ s'.trn.matched = (s.trn.matched.filter fun w => w.id != id) ∧ s'.hobs = s.hobs ∧
        (s.trn.trigs = [] → s'.trn = { s.trn with matched := s.trn.matched.filter fun w => w.id != id, cqdrop := s'.trn.cqdrop, cnt := if rvCntEn v.raw then upd 0 (rvCnt v.raw) (· + 1) s.trn.cnt else s.trn.cnt } ∧
          (rvCq v.raw = false → s'.mantelOut = s.mantelOut ∧ s'.flg = s.flg) ∧ s'.mem = s.mem ∧ s'.gates = s.gates)) ∧
    (s.trn.matched.find? (fun v => v.id == id && v.ready) = none → exec (.receiveComplete id) s = .next s) := by
  refine ⟨fun v hv => ?_, fun hv => ?_⟩
  · obtain ⟨z, hz⟩ : ∃ z : State, z = { s with trn := { s.trn with matched := s.trn.matched.filter fun w => w.id != id } } := ⟨_, rfl⟩
    have hexec : exec (.receiveComplete id) s = (z.rvComplete v v.status).ends := by
      simp only [exec, execReceiveComplete, hoff, Bool.false_eq_true, if_false, State.recvComplete, hv, hz]
    have hzset : z.settled = true := by rw [hz]; exact hset
    obtain ⟨s', hends, hcalm⟩ := calm_ends (K := 0) (G := fun _ => False) (calm_rvComplete z v v.status calm_refl) hzset
    refine ⟨s', hexec.trans hends, (hcalm.transport.matched rfl).trans (by rw [hz]), (hobs_of_calm hcalm).trans (by rw [hz]), fun ht => ?_⟩
    obtain ⟨hreports, htrn, hquiet⟩ := rvComplete_spec z v v.status
    obtain ⟨t, htends, htreports, httrn, htself⟩ := ends_reports hzset (by rw [hz]; exact ht) hreports
    obtain rfl : t = s' := Host.Outcome.next.inj (htends.symm.trans hends)
    have hchg : s.trn.chg = [] := ((settled_iff s).mp hset).2.1
    refine ⟨?_, fun hcq => ?_, (congrArg State.mem htreports.rest).trans (by rw [hz]), (congrArg State.gates htreports.rest).trans (by rw [hz])⟩
    · rw [httrn, htrn, hz]
      simp only [← hchg]
    · obtain ⟨hsvc, hout, hflg⟩ := hquiet hcq
      rw [htself hsvc]
      exact ⟨hout.trans (by rw [hz]), hflg.trans (by rw [hz])⟩
  · have hexec : exec (.receiveComplete id) s = s.ends := by
      simp only [exec, execReceiveComplete, hoff, Bool.false_eq_true, if_false, State.recvComplete, hv]
    exact hexec.trans (ends_settled _ hset)

/-! ### Regions -/

/-- Areas that are released leave everything but ranges, staging and the areas themselves. -/
theorem settleLeaving_rest (s : State) : ∃ ranges stage fill leaving, s.settleLeaving = { s with ranges := ranges, stage := stage, stageFill := fill, leaving := leaving } := by
  unfold State.settleLeaving
  split
  next keep free _ => exact ⟨_, _, _, keep, eq_of_unstaged (unstaged_releaseAreas free { s with leaving := keep })⟩
/-- A deferred request is answered, where no message is in work. -/
theorem answerWait_rest {s : State} (hwork : s.boot.work = []) (kind key : Nat) (r : DResult) : ∃ waits, s.answerWait kind key r = { s with boot := { s.boot with waits := waits } } := by
  unfold State.answerWait
  split
  · exact ⟨s.boot.waits, rfl⟩
  · exact ⟨s.boot.waits.eraseP fun w => w.1 == kind && w.2.1 == key, by rw [hwork, List.map_nil, ← hwork]⟩
/-- A region that closes, and the REVOKEs of it. -/
theorem regionClosed_spec {s : State} {i : Nat} (hstate : (s.region i).state = 2) :
    Calm 0 False (fun _ => False) (s.setRegion i { s.region i with state := 0 }) (s.regionClosed i) ∧ SameButReports (s.setRegion i { s.region i with state := 0 }) (s.regionClosed i) := by
  unfold State.regionClosed
  extract_lets g s1
  rw [if_neg (by simp [g, hstate])]
  refine ⟨calm_foldl calm_refl fun t e ht => ?_, SameButReports.foldl (fun t e => ?_) _ _⟩
  · exact calm_setQp _ _ (calm_foldl ht fun u o hu => calm_endOp _ _ _ _ hu) (settleAck_becomes _)
  · exact (SameButReports.foldl (fun u o => endOp_reports ..) _ _).trans (setQp_reports ..)
/-- The part after REGION_CLOSED: the region is closed, and nothing else that a statement names has changed since the REVOKEs of it completed. -/
theorem execRegionClosed_rest {s : State} {i : Fin 65536} (hset : s.settled = true) (hoff : s.transportOff = false) (hstate : (s.region i).state = 2)
    (hwf : SMapWf ({} : Region) s.trn.regions = true) :
    ∃ ranges stage fill leaving waits regions t, t = ({ s.regionClosed i with ranges := ranges, stage := stage, stageFill := fill, leaving := leaving, boot := { (s.regionClosed i).boot with waits := waits }, trn := { (s.regionClosed i).trn with regions := regions } } : State) ∧ exec (.regionClosed i) s = t.ends ∧
      SMapWf ({} : Region) regions = true ∧ get {} i regions = { s.region i with state := 0, reg := if s.boot.waits.any (fun w => w.1 == 1 && w.2.1 == i.val) then false else (s.region i).reg } ∧
      ∀ k, k ≠ i.val → get {} k regions = s.region k := by
  obtain ⟨hcalm, hreports⟩ := regionClosed_spec hstate
  have hmantel : s.mantelOff = false := (Bool.or_eq_false_iff.mp hoff).2
  obtain ⟨u, hu⟩ : ∃ u, u = s.regionClosed i := ⟨_, rfl⟩
  rw [← hu] at hcalm hreports
  have hwork : u.boot.work = [] := hcalm.work ((settled_iff s).mp hset).2.2.2.1
  have hregions : u.trn.regions = put {} i.val { s.region i with state := 0 } s.trn.regions := (congrArg Transport.regions hreports.trn).trans rfl
  have hself : u.region i = { s.region i with state := 0 } := by rw [State.region, hregions]; exact get_put_same _ _ _ _
  have hother (k : Nat) (hk : k ≠ i.val) : u.region k = s.region k := by rw [State.region, hregions]; exact get_put_ne _ _ _ _ _ hwf hk
  have huwf : SMapWf ({} : Region) u.trn.regions = true := by rw [hregions]; exact put_wf hwf
  obtain ⟨r, g, f, l, hleave⟩ := settleLeaving_rest u
  obtain ⟨w, hwaits⟩ := answerWait_rest (s := u.settleLeaving) (by rw [hleave]; exact hwork) 1 i.val {}
  have hexec : exec (.regionClosed i) s = (if s.boot.waits.any (fun w => w.1 == 1 && w.2.1 == i.val) then
      (u.settleLeaving.answerWait 1 i.val {}).setRegion i { (u.settleLeaving.answerWait 1 i.val {}).region i with reg := false } else u.settleLeaving.answerWait 1 i.val {}).ends := by
    rw [exec, execRegionClosed, if_neg (by simp [hmantel, hstate]), hu]
  rw [hwaits, hleave] at hexec
  rw [← hu]
  split at hexec
  · next hw =>
    refine ⟨r, g, f, l, w, put {} i.val { u.region i with reg := false } u.trn.regions, _, rfl, hexec, put_wf huwf, ?_, fun k hk => ?_⟩
    · rw [get_put_same, hself, if_pos hw]
    · rw [get_put_ne _ _ _ _ _ huwf hk]
      exact hother k hk
  · next hw => exact ⟨r, g, f, l, w, u.trn.regions, _, rfl, hexec, huwf, by rw [if_neg hw]; exact hself, hother⟩
theorem regionClosed_clause {s : State} (hset : s.settled = true) (hoff : s.transportOff = false) (i : Fin 65536) (hwf : SMapWf ({} : Region) s.trn.regions = true) :
    ((s.region i).state = 2 → ∃ s', exec (.regionClosed i) s = .next s' ∧ s'.hobs = s.hobs ∧
      s'.region i = { s.region i with state := 0, reg := if s.boot.waits.any (fun w => w.1 == 1 && w.2.1 == i.val) then false else (s.region i).reg } ∧
      (s.trn.trigs = [] → (∀ k, k ≠ i.val → s'.region k = s.region k) ∧ s'.mem = s.mem ∧ s'.gates = s.gates)) ∧
    ((s.region i).state ≠ 2 → exec (.regionClosed i) s = .next s) := by
  refine ⟨fun hstate => ?_, fun hstate => ?_⟩
  · obtain ⟨hcalm, hreports⟩ := regionClosed_spec hstate
    obtain ⟨r, g, f, l, w, m, t, ht, hexec, hmwf, hself, hother⟩ := execRegionClosed_rest hset hoff hstate hwf
    obtain ⟨-, -, -, hwork, -, hgoing, hloop, -⟩ := (settled_iff s).mp hset
    have htm : t.trn.regions = m := by rw [ht]
    have htwork : t.boot.work = [] := by rw [ht]; exact hcalm.work hwork
    have htgoing : t.goingDown = false := by rw [ht]; exact (goingDown_of_calm hcalm).trans hgoing
    have htloop : t.loopback = [] := by rw [ht]; exact (hcalm.loop id).trans hloop
    have hthobs : t.hobs = s.hobs := by rw [ht]; exact (hobs_of_calm hcalm).trans rfl
    obtain ⟨s', hends, hc⟩ := ends_calmGates 0 (fun _ => False) htwork htgoing htloop
    refine ⟨s', hexec.trans hends, (hobs_of_calm hc).trans hthobs, ?_, fun htrigs => ?_⟩
    · have hstay := (hc.transport.regions (by decide) (htm ▸ hmwf)).2 i.val (by rw [htm, hself])
      exact hstay.trans (by rw [htm, hself])
    · have hzset : (s.setRegion i { s.region i with state := 0 }).settled = true := hset
      have hjudged : t.judgedCnt.settledButMirror = true := by
        have hu := settled_judgedCnt hreports hzset
        rw [ht]
        exact hu
      have httrigs : t.trn.trigs = [] := by rw [ht]; exact (congrArg Transport.trigs hreports.trn).trans htrigs
      have hs' : s' = t.judgedCnt.flush := (Host.Outcome.next.inj ((ends_judgedCnt httrigs hjudged).symm.trans hends)).symm
      have hflush := (flush_sameButMessages t.judgedCnt).rest
      rw [hs']
      refine ⟨fun k hk => ?_, ?_, ?_⟩
      · rw [State.region, show t.judgedCnt.flush.trn = t.judgedCnt.trn from (congrArg State.trn hflush).trans rfl]
        exact (congrArg (get {} k) htm).trans (hother k hk)
      · refine ((congrArg State.mem hflush).trans rfl).trans ?_
        rw [show t.judgedCnt.mem = t.mem from rfl, ht]
        exact (congrArg State.mem hreports.rest).trans rfl
      · refine ((congrArg State.gates hflush).trans rfl).trans ?_
        rw [show t.judgedCnt.gates = t.gates from rfl, ht]
        exact (congrArg State.gates hreports.rest).trans rfl
  · rw [exec, execRegionClosed, if_pos (by simp [hstate])]
    exact ends_settled _ hset

/-- Settles O52: frames are answered or counted; completions, timers and closed regions change what they act on, and what follows at the end of the command leaves it so. -/
theorem ethernetEvents : Obligations.EthernetEvents := by
  unfold Obligations.EthernetEvents
  refine ⟨fun i b ok s x hset _ hwf hx hup => receivedFrames_spec hset hwf hx hup, fun s hset _ hoff hstop hqps => ⟨fun i up first hfirst => ethLinkChange_spec hset hoff i up first hfirst, ?_,
    fun id => (receiveComplete_spec hset hoff id).1, fun id => (receiveComplete_spec hset hoff id).2, fun i hwf => regionClosed_clause hset hoff i hwf, fun q x y hx hy => ?_,
    fun q x hx => rnrDelay_spec hset hoff hstop hqps hx⟩⟩
  · intro i up h
    have hskip : (s.iface i).mode = 0 ∨ s.boot.step < 7 ∨ s.ethOff = true := h.imp_right .inl
    rw [exec, execEthLinkChange, State.ethLink, if_pos hskip]
    exact ends_settled _ hset
  · refine ⟨bfRto_error hset hoff hstop hqps hx, bfRto_resends hset hoff hstop hqps hx, fun h2 ht => (bfRto_connects hset hoff hstop hx h2 ht y hy).1,
      fun h2 ht => (bfRto_connects hset hoff hstop hx h2 ht y hy).2, bfRto_idle hset hoff hstop hx⟩

end Sys2Proof.Machine
end

section
/-! What a received Beyfatre packet leaves unchanged, and the rules of its acceptance (R344, R366, R367). -/
namespace Sys2Proof.Machine

/-! ### What the transport leaves aside -/

/-- What nothing that the transport does with a packet changes. -/
def State.asideCore (s : State) : SMap Hob × SMap Gate × Power × List Packet × Nat × Option Word × List (Nat × Nat) × List (Nat × Bytes) :=
  (s.hobs, s.gates, s.pwr, s.loopback, s.svc.mode, s.stk.openEpoch, s.trn.home, s.trn.trigs)
/-- From `a` to `s` the transport has taken a packet: hobs and gates are as they were, and nothing has begun that the end of the command would act on but counters and logged events. -/
structure Aside (a s : State) : Prop where
  core : s.asideCore = a.asideCore
  work : a.boot.work = [] → s.boot.work = []
section
variable {a s t : State}
theorem Aside.refl (a : State) : Aside a a := ⟨rfl, id⟩
theorem Aside.trans (h : Aside a s) (g : Aside s t) : Aside a t := ⟨g.core.trans h.core, fun hw => g.work (h.work hw)⟩
theorem Aside.foldl {α : Type} {f : State → α → State} (hf : ∀ s x, Aside s (f s x)) (l : List α) (s : State) : Aside s (l.foldl f s) := by
  induction l generalizing s with
  | nil => exact .refl s
  | cons x l ih => exact (hf s x).trans (ih _)
theorem SameButReports.aside (h : SameButReports a s) : Aside a s := by
  refine ⟨?_, fun hw => (congrArg (fun s => s.boot.work) h.rest).trans hw⟩
  have hhome : s.trn.home = a.trn.home := (congrArg Transport.home h.trn).trans rfl
  have htrigs : s.trn.trigs = a.trn.trigs := (congrArg Transport.trigs h.trn).trans rfl
  have hepoch : s.stk.openEpoch = a.stk.openEpoch := (congrArg Stoker.openEpoch h.stk).trans rfl
  simp only [State.asideCore, h.mode, hhome, htrigs, hepoch]
  rw [h.rest]
theorem SameButMessages.aside (h : SameButMessages a s) : Aside a s := h.reports.aside
theorem setQp_aside (s : State) (n : Nat) (x : Qp) : Aside s (s.setQp n x) := ⟨rfl, id⟩
theorem log_aside (s : State) (code : Nat) (cls : EClass) (src : Src) (t : Option Nat) (args : List Nat) : Aside s (s.log code cls src t args) := (log_sameButMessages ..).aside
theorem consumePoison_aside (s : State) (t p : Nat) : Aside s (s.consumePoison t p) := by
  unfold State.consumePoison
  split
  · exact .refl s
  · exact (decideAbort_sameButMessages ..).aside.trans (log_aside ..)
theorem ethSend_aside (s : State) (i : Nat) (b : Bytes) : Aside s (s.ethSend i b) := by
  obtain ⟨is, o, h⟩ := ethSend_rest s i b
  rw [h]
  exact ⟨rfl, id⟩
theorem placeRaw_aside (s : State) (k : Nat) (b : Bytes) : Aside s (s.placeRaw k b) := by
  rw [eq_of_bare (bare_placeRaw s k b).1]
  exact ⟨rfl, id⟩
theorem rvComplete_aside (s : State) (v : Recv) (status : Nat) : Aside s (s.rvComplete v status) := (rvComplete_spec s v status).1.aside
theorem qpError_aside (s : State) (q code : Nat) : Aside s (s.qpError q code) := by
  unfold State.qpError
  extract_lets x s1 s2 mine cut s3 gone src s4 y s5 free
  have h1 : Aside s s1 := Aside.foldl (fun t o => (endOp_reports ..).aside) _ _
  have h2 : Aside s s2 := h1.trans (Aside.foldl (fun t r => (wrComplete_reports ..).aside) _ _)
  have h3 : Aside s s3 := h2.trans (Aside.foldl (fun t v => rvComplete_aside ..) _ _)
  have h4 : Aside s s4 := h3.trans ⟨rfl, id⟩
  have h5 : Aside s s5 := h4.trans (setQp_aside ..)
  split
  · refine Aside.trans ⟨?_, fun hw => ?_⟩ (log_aside ..)
    · exact h5.core
    · exact congrArg (List.map _) (h5.work hw)
  · exact h5
theorem opCut_aside (s : State) (q id code : Nat) : Aside s (s.opCut q id code) := (endOp_reports ..).aside.trans (setQp_aside ..)
theorem qpPoison_aside (s : State) (q id : Nat) : Aside s (s.qpPoison q id) := ((endOp_reports ..).aside.trans (qpError_aside ..)).trans (consumePoison_aside ..)
theorem sendPacketOf_aside (s : State) (q : Nat) (o : TOp) (j : Nat) : Aside s (s.sendPacketOf q o j).1 := by
  unfold State.sendPacketOf
  extract_lets
  split
  split
  · exact .refl s
  · split
    · exact .refl s
    · exact ethSend_aside ..
theorem pump1_aside {q : Nat} (h : s.pump1 q = some t) : Aside s t := by
  have hsend (o : TOp) (j : Nat) {c : State × Nat} (he : s.sendPacketOf q o j = c) : Aside s c.1 := he ▸ sendPacketOf_aside s q o j
  unfold State.pump1 at h
  extract_lets x at h
  split at h
  · cases h
  · split at h
    · cases h
    · extract_lets n j o1 up at h
      split at h
      · cases h
      · split at h
        · next he => exact Option.some.inj h ▸ (hsend _ _ he).trans (qpPoison_aside ..)
        · next he => exact Option.some.inj h ▸ (hsend _ _ he).trans (opCut_aside ..)
        · next he =>
          extract_lets at h
          split at h
          · exact Option.some.inj h ▸ (((hsend _ _ he).trans (setQp_aside ..)).trans (endOp_reports ..).aside).trans (setQp_aside ..)
          · exact Option.some.inj h ▸ (hsend _ _ he).trans (setQp_aside ..)
theorem pump_aside (s : State) (q n : Nat) : Aside s (s.pump q n) := by
  induction n generalizing s with
  | zero => exact .refl s
  | succ n ih =>
    rw [State.pump]
    split
    · next h => exact (pump1_aside h).trans (ih _)
    · exact .refl s
/-- The end of a command in which the transport took a packet, where no triggered entry waits. -/
theorem ends_aside (ha : a.settled = true) (ht : a.trn.trigs = []) (h : Aside a s) :
    ∃ s', s.ends = .next s' ∧ s'.trn = s.judgedCnt.trn ∧ s'.mem = s.mem ∧ s'.hobs = a.hobs ∧ s'.gates = a.gates := by
  obtain ⟨h1, h2, h3, h4, -, h6, h7, h8⟩ := (settled_iff a).mp ha
  obtain ⟨hhobs, hgates, hpwr, hloop, hmode, hepoch, hhome, htrigs⟩ : s.hobs = a.hobs ∧ s.gates = a.gates ∧ s.pwr = a.pwr ∧ s.loopback = a.loopback ∧ s.svc.mode = a.svc.mode ∧
    s.stk.openEpoch = a.stk.openEpoch ∧ s.trn.home = a.trn.home ∧ s.trn.trigs = a.trn.trigs := by simpa [State.asideCore] using h.core
  have hjudged : s.judgedCnt.settledButMirror = true := by
    refine (settledButMirror_iff _).mpr ⟨hhome.trans h1, rfl, hepoch.trans h3, h.work h4, ?_, hloop.trans h7, ?_⟩
    · rw [State.goingDown] at h6 ⊢
      exact (by rw [hmode, hpwr] : (s.svc.mode == 4 || s.pwr.sleeping) = (a.svc.mode == 4 || a.pwr.sleeping)).trans h6
    · exact (by rw [hpwr] : (!s.pwr.simmer || s.pwr.exiting.isSome) = (!a.pwr.simmer || a.pwr.exiting.isSome)).trans h8
  have hflush := (flush_sameButMessages s.judgedCnt).rest
  exact ⟨_, ends_judgedCnt (htrigs.trans ht) hjudged, (congrArg State.trn hflush).trans rfl, (congrArg State.mem hflush).trans rfl, ((congrArg State.hobs hflush).trans rfl).trans hhobs,
    ((congrArg State.gates hflush).trans rfl).trans hgates⟩
end

/-! ### Acceptance -/

section
variable {s : State} {p : BfPkt}

theorem takePacket_ready (k : State → State) (h : s.qpTakes p = true) (h5 : (s.qp p.dqpn).state ≠ 5) : s.takePacket p k = k s := by
  rw [State.takePacket, if_pos h, if_neg h5]
theorem sequenced_now (k dup : State → State) (h : p.psn = (s.qp p.dqpn).epsn) : s.sequenced p k dup = k s := by
  unfold State.sequenced
  extract_lets x d
  exact if_pos (by simp only [d, x, h, BitVec.sub_self]; rfl)
/-- An ACK of the current position changes the count of packets since the last one, and nothing else of the queue pairs. -/
theorem sendAck_rest (s : State) (q code : Nat) (c : Word) : ∃ is o rnr, s.sendAck q code c =
    { s with trn := { s.trn with ifaces := is, rnr := rnr, qps := put {} q { s.qp q with sinceAck := 0 } s.trn.qps }, out := o } := by
  unfold State.sendAck State.qpSend
  extract_lets x p s1 s2
  obtain ⟨is, o, h⟩ : ∃ is o, s1 = { s with trn := { s.trn with ifaces := is }, out := o } := ethSend_rest ..
  have h2 : s2 = { s with trn := { s.trn with ifaces := is, qps := put {} q { s.qp q with sinceAck := 0 } s.trn.qps }, out := o } := by rw [show s2 = s1.setQp q { x with sinceAck := 0 } from rfl, h]; rfl
  clear_value s2
  subst h2
  split
  · exact ⟨is, o, s.trn.rnr + 1, rfl⟩
  · exact ⟨is, o, s.trn.rnr, rfl⟩
theorem sendAck_aside (s : State) (q code : Nat) (c : Word) : Aside s (s.sendAck q code c) := by
  obtain ⟨is, o, rnr, h⟩ := sendAck_rest s q code c
  rw [h]
  exact ⟨rfl, id⟩
theorem qp_sendAck (s : State) (q code : Nat) (c : Word) : (s.sendAck q code c).qp q = { s.qp q with sinceAck := 0 } := by
  obtain ⟨is, o, rnr, h⟩ := sendAck_rest s q code c
  rw [h]
  exact get_put_same _ _ _ _
/-- A packet is accepted: nothing but the queue pair, the ports' counters and the frames sent changes. -/
theorem accepted_rest (s : State) (p : BfPkt) (n : Nat) : ∃ is o rnr qps, s.accepted p n = { s with trn := { s.trn with ifaces := is, rnr := rnr, qps := qps }, out := o } ∧
    (get ({} : Qp) p.dqpn qps).epsn = (s.qp p.dqpn).epsn + BitVec.ofNat 32 n ∧ (p.ackreq = true → (get ({} : Qp) p.dqpn qps).sinceAck = 0) := by
  obtain ⟨z, hz⟩ : ∃ z : Qp, z = { s.qp p.dqpn with epsn := (s.qp p.dqpn).epsn + BitVec.ofNat 32 n, gapNak := false, rnrPsn := none, sinceAck := (s.qp p.dqpn).sinceAck + 1 } := ⟨_, rfl⟩
  have hadv : s.advanced p n = s.setQp p.dqpn z := by rw [hz]; rfl
  have hqp : (s.setQp p.dqpn z).qp p.dqpn = z := get_put_same _ _ _ _
  unfold State.accepted
  simp only [hadv, hqp]
  split
  · obtain ⟨is, o, rnr, h⟩ := sendAck_rest (s.setQp p.dqpn z) p.dqpn 0 (z.epsn - 1)
    rw [h, hqp]
    refine ⟨is, o, rnr, _, rfl, ?_, fun _ => ?_⟩
    · rw [get_put_same]
      exact congrArg Qp.epsn hz
    · rw [get_put_same]
  · next hno =>
    refine ⟨s.trn.ifaces, s.out, s.trn.rnr, _, rfl, ?_, fun hack => absurd (.inl hack) hno⟩
    rw [get_put_same]
    exact congrArg Qp.epsn hz
theorem accepted_aside (s : State) (p : BfPkt) (n : Nat) : Aside s (s.accepted p n) := by
  obtain ⟨is, o, rnr, qps, h, -⟩ := accepted_rest s p n
  rw [h]
  exact ⟨rfl, id⟩
theorem mem_accepted (s : State) (p : BfPkt) (n : Nat) : (s.accepted p n).mem = s.mem := by
  obtain ⟨is, o, rnr, qps, h, -⟩ := accepted_rest s p n
  rw [h]
theorem epsn_accepted (s : State) (p : BfPkt) (n : Nat) : ((s.accepted p n).qp p.dqpn).epsn = (s.qp p.dqpn).epsn + BitVec.ofNat 32 n := by
  obtain ⟨is, o, rnr, qps, h, hepsn, -⟩ := accepted_rest s p n
  rw [h]
  exact hepsn
end

end Sys2Proof.Machine
end

section
/-! Beyfatre packets at the responder: PUT, SEND, GET, FLUSH and CHPOST (R348, R352 to R355, R366). -/
namespace Sys2Proof.Machine

section
variable {s : State} {i : Fin 4} {b : Bytes} {ok : Bool} {p : BfPkt}

/-- A packet whose payload its queue pair allows is counted and goes on. -/
theorem bfPacket_taken {k : Nat} (f : State → BfPkt → State) (h : s.receives i b ok = some (.bf p)) (hk : p.opc = k) (hlen : p.payload.length ≤ (s.qp p.dqpn).maxPay ∨ p.opc = 6) :
    s.bfPacket i b ok k f = f (s.countRx i) p := by
  unfold State.bfPacket
  rw [h]
  dsimp only
  rw [if_neg (fun hc => hc hk), if_neg fun hc => hlen.elim (fun hl => by omega) hc.2.1]
/-- The end of the command that has taken a packet. -/
theorem taken_ends {z u : State} (hset : s.settled = true) (ht : s.trn.trigs = []) (hz : z = s.countRx i) (h : Aside z u) :
    ∃ s', u.ends = .next s' ∧ s'.trn = u.judgedCnt.trn ∧ (∀ q, s'.qp q = u.qp q) ∧ s'.mem = u.mem ∧ s'.hobs = s.hobs ∧ s'.gates = s.gates := by
  obtain ⟨s', hends, htrn, hmem, hhobs, hgates⟩ := ends_aside (a := z) (by rw [hz]; exact hset) (by rw [hz]; exact ht) h
  rw [hz] at hhobs hgates
  exact ⟨s', hends, htrn, fun q => (congrArg (fun t : Transport => get ({} : Qp) q t.qps) htrn).trans rfl, hmem, hhobs, hgates⟩
end

/-! ### What parts of the transport leave of the queue pairs and of memory -/

section
variable (s : State) (q : Nat)

theorem trn_placeRaw (a : Nat) (b : Bytes) : (s.placeRaw a b).trn = s.trn := by rw [placeRaw_rest]
theorem mem_placeRaw (a : Nat) (b : Bytes) : (s.placeRaw a b).mem = writeBytes s.mem a b := by rw [placeRaw_rest]
theorem mem_cntAdd (c : Nat) (d : Word) : (s.cntAdd c d).mem = s.mem := by
  obtain ⟨k, h⟩ := cntAdd_rest s c d
  rw [h]
theorem qp_cntAdd (c : Nat) (d : Word) : (s.cntAdd c d).qp q = s.qp q := by
  obtain ⟨k, h⟩ := cntAdd_rest s c d
  rw [h]
  rfl
theorem qp_wrComplete (r : Bytes) (n status len psn : Nat) : (s.wrComplete n r status len psn).qp q = s.qp q := by
  have hcq (t : State) (c u : Nat) (d : Bytes) : (t.cqWrite c u d).qp q = t.qp q := (congrArg (fun t : Transport => get ({} : Qp) q t.qps) (cqWrite_trn t c u d)).trans rfl
  unfold State.wrComplete
  extract_lets x s1 s2
  have h1 : s1.qp q = s.qp q := by
    unfold s1
    split
    · exact hcq ..
    · rfl
  have h2 : s2.qp q = s.qp q := by
    unfold s2
    split
    · exact (qp_cntAdd ..).trans h1
    · exact h1
  exact h2
theorem qp_rvComplete (v : Recv) (status : Nat) : (s.rvComplete v status).qp q = s.qp q :=
  (congrArg (fun t : Transport => get ({} : Qp) q t.qps) (rvComplete_spec s v status).2.1).trans rfl
theorem epsn_endOp (id status : Nat) : ((s.endOp q id status).qp q).epsn = (s.qp q).epsn := by
  unfold State.endOp
  extract_lets x
  split
  · rfl
  · rw [qp_wrComplete, show ∀ y, (s.setQp q y).qp q = y from fun y => get_put_same _ _ _ _]
    rfl
theorem epsn_qpError (code : Nat) : ((s.qpError q code).qp q).epsn = (s.qp q).epsn := by
  have hput (t : State) (y : Qp) : (t.setQp q y).qp q = y := get_put_same _ _ _ _
  unfold State.qpError
  extract_lets x s1 s2 mine cut s3 gone src s4 y s5 free
  have h1 : (s1.qp q).epsn = (s.qp q).epsn := foldl_leaves (fun t : State => (t.qp q).epsn) (fun t (o : TOp) => epsn_endOp t q o.id 0x1A) _ _
  have h2 : (s2.qp q).epsn = (s.qp q).epsn := (foldl_leaves (fun t : State => (t.qp q).epsn) (fun t r => congrArg Qp.epsn (qp_wrComplete t q r q 0x1A 0 0)) _ _).trans h1
  have h3 : (s3.qp q).epsn = (s.qp q).epsn := (foldl_leaves (fun t : State => (t.qp q).epsn) (fun t v => congrArg Qp.epsn (qp_rvComplete t q v 0x1A)) _ _).trans h2
  have h5 : (s5.qp q).epsn = (s.qp q).epsn := by
    unfold s5
    rw [hput]
    exact h3
  split
  · rw [State.qp, log_trn]
    exact h5
  · exact h5
theorem trn_consumePoison (t p : Nat) : (s.consumePoison t p).trn = s.trn := by
  unfold State.consumePoison
  split
  · rfl
  · rw [log_trn]
    rfl
end

section
variable {s : State} {i : Fin 4} {b : Bytes} {ok : Bool} {p : BfPkt} {x : Qp}

/-! ### PUT -/

theorem bfPut_spec (hset : s.settled = true) (hcanon : s.canon = true) (ht : s.trn.trigs = []) (hrx : s.receives i b ok = some (.bf p)) (hx : x = s.qp p.dqpn)
    (hlen : p.payload.length ≤ x.maxPay ∨ p.opc = 6) (htakes : s.qpTakes p = true) (h3 : x.state = 3) (hpsn : p.psn = x.epsn) (a : Nat) (hopc : p.opc = 2)
    (hkey : s.packetKey p (be p.ext 0 4) 0 (be p.ext 4 8) p.payload.length = 0) (ha : a = s.keyAddr (be p.ext 0 4) (be p.ext 4 8)) :
    ∃ s', exec (.bfPut i b ok) s = .next s' ∧ readBytes s'.mem a p.payload.length = p.payload ∧ (∀ d, d < a ∨ a + p.payload.length ≤ d → readByte s'.mem d = readByte s.mem d) ∧
      (s'.qp p.dqpn).epsn = x.epsn + 1 ∧ s'.hobs = s.hobs ∧ s'.gates = s.gates := by
  subst hx
  obtain ⟨z, hz⟩ : ∃ z, z = s.countRx i := ⟨_, rfl⟩
  have hput : ∃ w, z.rxPut p = w.accepted p 1 ∧ Aside z w ∧ w.mem = writeBytes s.mem a p.payload ∧ w.qp p.dqpn = s.qp p.dqpn := by
    have hz5 : (z.qp p.dqpn).state ≠ 5 := by rw [hz]; exact fun h => absurd (h3.symm.trans h) (by decide)
    have hplace : z.placeRaw (z.keyAddr (be p.ext 0 4) (be p.ext 4 8)) p.payload = z.placeRaw a p.payload := by rw [ha, hz]; rfl
    have hmem : (z.placeRaw a p.payload).mem = writeBytes s.mem a p.payload := by rw [mem_placeRaw, hz]; rfl
    have hqp : (z.placeRaw a p.payload).qp p.dqpn = s.qp p.dqpn := by rw [State.qp, trn_placeRaw, hz]; rfl
    unfold State.rxPut
    extract_lets key off
    rw [takePacket_ready _ (by rw [hz]; exact htakes) hz5, sequenced_now _ _ (by rw [hz]; exact hpsn), show z.packetKey p key 0 off p.payload.length = 0 by rw [hz]; exact hkey]
    dsimp only
    rw [hplace]
    refine ⟨_, rfl, ?_, ?_, ?_⟩
    · split
      · exact (placeRaw_aside ..).trans (cntAdd_reports ..).aside
      · exact placeRaw_aside ..
    · split
      · exact (mem_cntAdd ..).trans hmem
      · exact hmem
    · split
      · exact (qp_cntAdd ..).trans hqp
      · exact hqp
  obtain ⟨w, hw, haside, hmem, hqp⟩ := hput
  have hexec : exec (.bfPut i b ok) s = (w.accepted p 1).ends := by
    rw [exec, execBfPut, bfPacket_taken _ hrx hopc hlen, ← hz, hw]
  obtain ⟨s', hends, -, hqps, hm, hh, hg⟩ := taken_ends hset ht hz (haside.trans (accepted_aside w p 1))
  have hwf : Memory.wf s.mem = true := ((canon_iff s).mp hcanon).1
  rw [mem_accepted, hmem] at hm
  refine ⟨s', hexec.trans hends, hm ▸ readBytes_writeBytes _ _ _ hwf, fun d hd => ?_, ?_, hh, hg⟩
  · rw [hm]
    exact readByte_writeBytes_out _ _ _ _ hwf hd
  · rw [hqps, epsn_accepted, hqp]
    rfl

/-! ### SEND -/

/-- A message that is given up leaves the queue pairs, regions, receives and memory as they are. -/
theorem dropRx_rest (t : State) (q : Nat) : ∃ matched msgs bufs, t.dropRx q = { t with boot := { t.boot with bufs := bufs }, trn := { t.trn with matched := matched, msgs := msgs } } ∧
    ∀ w ∈ matched, w ∈ t.trn.matched := by
  unfold State.dropRx
  split
  · exact ⟨_, t.trn.msgs, t.boot.bufs, rfl, fun w hw => (List.mem_filter.mp hw).1⟩
  · exact ⟨_, _, t.boot.bufs, rfl, fun w hw => (List.mem_filter.mp hw).1⟩
  · exact ⟨t.trn.matched, t.trn.msgs, _, rfl, fun w hw => hw⟩
  · exact ⟨t.trn.matched, t.trn.msgs, t.boot.bufs, rfl, fun w hw => hw⟩
/-- A whole message of a matched receive whose local key is good stands where the key says. -/
theorem recvPlace_whole {t : State} {v : Recv} {d : Bytes} (hfind : t.trn.matched.find? (fun w => w.id == v.id) = some v) (hmlen : d.length ≤ v.mlen) (hrv : d.length ≤ rvLen v.raw)
    (hkey : t.judgeKey (rvLkey v.raw) (t.qp v.qpn).tenant (t.qp v.qpn).pd 2 (rvLoff v.raw) d.length = 0) :
    t.recvPlace v.id 0 d = (t.placeRaw (t.keyAddr (rvLkey v.raw) (rvLoff v.raw)) d, true) := by
  have hkeep : d.take (min v.mlen (rvLen v.raw) - 0) = d := List.take_of_length_le (by omega)
  unfold State.recvPlace
  rw [hfind]
  dsimp only
  rw [hkeep, Nat.add_zero, hkey, if_neg (by simp)]
/-- The last packet of a matched message is placed, and the receive is ready. -/
theorem sendPlace_whole {t : State} {q n : Nat} {v : Recv} {d : Bytes} (hrx : (t.qp q).rx = some (.recv v.id)) (hfind : t.trn.matched.find? (fun w => w.id == v.id) = some v) (hn : n = d.length)
    (hmlen : d.length ≤ v.mlen) (hrv : d.length ≤ rvLen v.raw) (hkey : t.judgeKey (rvLkey v.raw) (t.qp v.qpn).tenant (t.qp v.qpn).pd 2 (rvLoff v.raw) d.length = 0) :
    t.sendPlace q n 0 true d =
      (((t.placeRaw (t.keyAddr (rvLkey v.raw) (rvLoff v.raw)) d).recvDone v.id).setQp q { ((t.placeRaw (t.keyAddr (rvLkey v.raw) (rvLoff v.raw)) d).recvDone v.id).qp q with rx := none }) := by
  have htake : d.take (n - 0) = d := List.take_of_length_le (by omega)
  unfold State.sendPlace
  simp only [hrx, htake, recvPlace_whole hfind hmlen hrv hkey, if_true]
theorem bfSend_spec (hset : s.settled = true) (hcanon : s.canon = true) (ht : s.trn.trigs = []) (hrx : s.receives i b ok = some (.bf p)) (hx : x = s.qp p.dqpn)
    (hlen : p.payload.length ≤ x.maxPay ∨ p.opc = 6) (htakes : s.qpTakes p = true) (h3 : x.state = 3) (hpsn : p.psn = x.epsn) (v : Recv) (others : List Recv) (a : Nat) (hopc : p.opc = 1)
    (hq : p.dqpn ≠ 0) (hfirst : p.first = true) (hlast : p.last = true) (hmax : be p.ext 8 4 ≤ 16777216) (hoff : be p.ext 12 4 = 0) (hmlen : be p.ext 8 4 = p.payload.length)
    (hfits : p.payload.length ≤ rvLen v.raw) (htake : takeRecv x.matchlist (be p.ext 0 8) s.trn.recvs = some (v, others)) (hqpn : v.qpn = p.dqpn) (hids : ∀ w ∈ s.trn.matched, w.id ≠ v.id)
    (hkey : s.judgeKey (rvLkey v.raw) x.tenant x.pd 2 (rvLoff v.raw) p.payload.length = 0) (ha : a = s.keyAddr (rvLkey v.raw) (rvLoff v.raw)) :
    ∃ s', exec (.bfSend i b ok) s = .next s' ∧ readBytes s'.mem a p.payload.length = p.payload ∧ s'.trn.recvs = others ∧ (s'.qp p.dqpn).epsn = x.epsn + 1 ∧
      (∃ w ∈ s'.trn.matched, w.id = v.id ∧ w.ready = true ∧ w.tag = be p.ext 0 8 ∧ w.mlen = p.payload.length) ∧ s'.hobs = s.hobs ∧ s'.gates = s.gates := by
  subst hx
  obtain ⟨z, hz⟩ : ∃ z, z = s.countRx i := ⟨_, rfl⟩
  have hzq : z.qp p.dqpn = s.qp p.dqpn := by rw [hz]; rfl
  obtain ⟨matched, msgs, bufs, hdrop, hsub⟩ := dropRx_rest z p.dqpn
  obtain ⟨v1, hv1⟩ : ∃ v1 : Recv, v1 = { v with tag := be p.ext 0 8, mlen := be p.ext 8 4, psn := p.psn } := ⟨_, rfl⟩
  obtain ⟨y, hy⟩ : ∃ y : Qp, y = { s.qp p.dqpn with rx := some (.recv v.id) } := ⟨_, rfl⟩
  -- The receive is matched, and the queue pair places the message there.
  obtain ⟨t, htq⟩ : ∃ t : State, t = ({ z with boot := { z.boot with bufs := bufs }, trn := { z.trn with recvs := others, matched := matched ++ [v1], msgs := msgs } } : State).setQp p.dqpn y := ⟨_, rfl⟩
  have hty : t.qp p.dqpn = y := by rw [htq]; exact get_put_same _ _ _ _
  have htz : Aside z t := by rw [htq]; exact ⟨rfl, id⟩
  have hfind : t.trn.matched.find? (fun w => w.id == v1.id) = some v1 := by
    have hnone : matched.find? (fun w => w.id == v1.id) = none := by
      refine List.find?_eq_none.mpr fun w hw => ?_
      have hw' : w ∈ s.trn.matched := by have h := hsub w hw; rw [hz] at h; exact h
      simpa [hv1] using hids w hw'
    rw [show t.trn.matched = matched ++ [v1] by rw [htq]; rfl, List.find?_append, hnone]
    simp
  have hplace : t.sendPlace p.dqpn (be p.ext 8 4) (be p.ext 12 4) p.last p.payload =
      (((t.placeRaw a p.payload).recvDone v.id).setQp p.dqpn { ((t.placeRaw a p.payload).recvDone v.id).qp p.dqpn with rx := none }) := by
    have haddr : t.keyAddr (rvLkey v1.raw) (rvLoff v1.raw) = a := by rw [ha, htq, hz, hv1]; rfl
    have hid : v1.id = v.id := by rw [hv1]
    rw [hoff, hlast, sendPlace_whole (v := v1) (by rw [hty, hy, hid]) hfind hmlen (by rw [hv1]; exact Nat.le_of_eq hmlen.symm) (by rw [hv1]; exact hfits) ?_, haddr, hid]
    rw [show v1.qpn = p.dqpn by rw [hv1]; exact hqpn, hty, hy, htq, hz, hv1]
    exact hkey
  obtain ⟨u, hu⟩ : ∃ u : State, u = ((t.placeRaw a p.payload).recvDone v.id).setQp p.dqpn { ((t.placeRaw a p.payload).recvDone v.id).qp p.dqpn with rx := none } := ⟨_, rfl⟩
  have hsend : z.rxSend p = u.accepted p 1 := by
    have hmatch : (z.dropRx p.dqpn).sendFirst p.dqpn (be p.ext 0 8) (be p.ext 8 4) p.psn =
        some ({ z with boot := { z.boot with bufs := bufs }, trn := { z.trn with recvs := others, matched := matched ++ [v1], msgs := msgs } }, .recv v.id) := by
      have htake' : takeRecv (z.qp p.dqpn).matchlist (be p.ext 0 8) z.trn.recvs = some (v, others) := by rw [hzq, hz]; exact htake
      have hqp : (z.dropRx p.dqpn).qp p.dqpn = z.qp p.dqpn := by rw [hdrop]; rfl
      have hrecvs : (z.dropRx p.dqpn).trn.recvs = z.trn.recvs := by rw [hdrop]
      unfold State.sendFirst
      rw [if_neg hq, hqp, hrecvs, htake', hdrop, hv1]
    unfold State.rxSend
    extract_lets tag mlen off
    rw [takePacket_ready _ (by rw [hz]; exact htakes) (by rw [hzq, h3]; decide), sequenced_now _ _ (by rw [hzq]; exact hpsn), if_pos hfirst, if_neg (show ¬ 16777216 < mlen by omega), hmatch]
    have ht' : ({ z with boot := { z.boot with bufs := bufs }, trn := { z.trn with recvs := others, matched := matched ++ [v1], msgs := msgs } } : State).setQp p.dqpn
        { ({ z with boot := { z.boot with bufs := bufs }, trn := { z.trn with recvs := others, matched := matched ++ [v1], msgs := msgs } } : State).qp p.dqpn with rx := some (.recv v.id) } = t := by
      rw [htq, hy, ← hzq]
      rfl
    dsimp only
    rw [ht', hplace, ← hu]
  have hexec : exec (.bfSend i b ok) s = (u.accepted p 1).ends := by rw [exec, execBfSend, bfPacket_taken _ hrx hopc hlen, ← hz, hsend]
  have haside : Aside z u := by rw [hu]; exact (htz.trans (placeRaw_aside t a p.payload)).trans ⟨rfl, id⟩
  obtain ⟨is, o, rnr, qps, hacc, hepsn, -⟩ := accepted_rest u p 1
  obtain ⟨s', hends, htrn, hqps, hm, hh, hg⟩ := taken_ends hset ht hz (haside.trans (accepted_aside u p 1))
  have huq : (u.qp p.dqpn).epsn = (s.qp p.dqpn).epsn := by
    have htqp : ((t.placeRaw a p.payload).recvDone v.id).qp p.dqpn = y := by rw [← hty, State.qp, State.qp, ← trn_placeRaw t a p.payload]; rfl
    rw [hu, show ∀ (w : State) (c : Qp), (w.setQp p.dqpn c).qp p.dqpn = c from fun w c => get_put_same _ _ _ _, htqp, hy]
  have htm : (t.placeRaw a p.payload).trn = t.trn := trn_placeRaw ..
  refine ⟨s', hexec.trans hends, ?_, ?_, ?_, ?_, hh, hg⟩
  · rw [hm, mem_accepted, hu, show ∀ w : State, ((w.recvDone v.id).setQp p.dqpn { (w.recvDone v.id).qp p.dqpn with rx := none }).mem = w.mem from fun _ => rfl, mem_placeRaw, htq, hz]
    exact readBytes_writeBytes _ _ _ ((canon_iff s).mp hcanon).1
  · rw [htrn, hacc, hu]
    refine (congrArg Transport.recvs htm).trans ?_
    rw [htq]
    rfl
  · rw [hqps, epsn_accepted, huq]
    rfl
  · have hmatched : s'.trn.matched = t.trn.matched.map fun w => if w.id = v.id then (if w.ready then w else { w with ready := true, status := if rvLen w.raw < w.mlen then 0x17 else 0 }) else w := by
      rw [htrn, hacc, hu]
      exact congrArg (fun w : Transport => w.matched.map fun w => if w.id = v.id then (if w.ready then w else { w with ready := true, status := if rvLen w.raw < w.mlen then 0x17 else 0 }) else w) htm
    refine ⟨if v1.ready then v1 else { v1 with ready := true, status := if rvLen v1.raw < v1.mlen then 0x17 else 0 }, ?_, ?_⟩
    · rw [hmatched]
      refine List.mem_map.mpr ⟨v1, ?_, if_pos (by rw [hv1])⟩
      rw [htq]
      exact List.mem_append.mpr (.inr (by simp))
    · cases hr : v1.ready
      · simp [hv1, hmlen]
      · simp [hv1 ▸ hr, hv1, hmlen]

/-! ### GET and FLUSH -/

theorem getResponse_keeps (q : Nat) (psn : Word) (a len : Nat) (n : Nat) : ∀ (t : State) (j : Nat), Aside t (t.getResponse q psn a len j n) ∧ ((t.getResponse q psn a len j n).qp q).epsn = (t.qp q).epsn := by
  induction n with
  | zero => exact fun t j => ⟨.refl t, rfl⟩
  | succ n ih =>
    intro t j
    rw [State.getResponse]
    extract_lets lo
    split
    next d poi he =>
      split
      · refine ⟨((sendAck_aside ..).trans (qpError_aside ..)).trans (consumePoison_aside ..), ?_⟩
        rw [State.qp, trn_consumePoison]
        exact (epsn_qpError ..).trans ((congrArg Qp.epsn (qp_sendAck ..)).trans rfl)
      · extract_lets s1
        have h1 : s1.qp q = t.qp q := by
          obtain ⟨is, o, h⟩ : ∃ is o, s1 = { t with trn := { t.trn with ifaces := is }, out := o } := ethSend_rest ..
          rw [h]
          rfl
        have ha : Aside t s1 := ethSend_aside ..
        obtain ⟨hg, he⟩ := ih s1 (j + 1)
        exact ⟨ha.trans hg, he.trans (congrArg Qp.epsn h1)⟩
theorem advanced_aside (t : State) (p : BfPkt) (n : Nat) : Aside t (t.advanced p n) := setQp_aside ..
theorem epsn_advanced (t : State) (p : BfPkt) (n : Nat) : ((t.advanced p n).qp p.dqpn).epsn = (t.qp p.dqpn).epsn + BitVec.ofNat 32 n :=
  congrArg Qp.epsn (get_put_same _ _ _ _)
theorem bfGet_spec (hset : s.settled = true) (ht : s.trn.trigs = []) (hrx : s.receives i b ok = some (.bf p)) (hx : x = s.qp p.dqpn)
    (hlen : p.payload.length ≤ x.maxPay ∨ p.opc = 6) (htakes : s.qpTakes p = true) (h3 : x.state = 3) (hpsn : p.psn = x.epsn) (hopc : p.opc = 3)
    (hkey : s.packetKey p (be p.ext 0 4) 1 (be p.ext 4 8) (be p.ext 12 4) = 0) :
    ∃ s', exec (.bfGet i b ok) s = .next s' ∧ ((s'.qp p.dqpn).epsn = x.epsn + BitVec.ofNat 32 (x.packets (be p.ext 12 4))) ∧ s'.hobs = s.hobs := by
  subst hx
  obtain ⟨z, hz⟩ : ∃ z, z = s.countRx i := ⟨_, rfl⟩
  have hget : Aside z (z.rxGet p) ∧ ((z.rxGet p).qp p.dqpn).epsn = (s.qp p.dqpn).epsn + BitVec.ofNat 32 ((s.qp p.dqpn).packets (be p.ext 12 4)) := by
    have hpsns : z.packetPsns p = (s.qp p.dqpn).packets (be p.ext 12 4) := by rw [State.packetPsns, if_pos hopc, hz]; rfl
    have hzq : z.qp p.dqpn = s.qp p.dqpn := by rw [hz]; rfl
    unfold State.rxGet
    extract_lets key off len bad serve
    rw [takePacket_ready _ (by rw [hz]; exact htakes) (by rw [hzq, h3]; decide), sequenced_now _ _ (by rw [hzq]; exact hpsn), show z.packetKey p key 1 off len = 0 by rw [hz]; exact hkey]
    rw [hpsns]
    have hserve (t : State) : Aside t (serve t) ∧ ((serve t).qp p.dqpn).epsn = (t.qp p.dqpn).epsn := getResponse_keeps ..
    obtain ⟨hs, he⟩ := hserve (if bad z then z.advanced p ((s.qp p.dqpn).packets (be p.ext 12 4)) else z.accepted p ((s.qp p.dqpn).packets (be p.ext 12 4)))
    refine ⟨Aside.trans ?_ hs, he.trans ?_⟩
    · split
      · exact advanced_aside ..
      · exact accepted_aside ..
    · split
      · rw [epsn_advanced, hzq]
      · rw [epsn_accepted, hzq]
  have hexec : exec (.bfGet i b ok) s = (z.rxGet p).ends := by rw [exec, execBfGet, bfPacket_taken _ hrx hopc hlen, ← hz]
  obtain ⟨s', hends, -, hqps, hm, hh, hg⟩ := taken_ends hset ht hz hget.1
  exact ⟨s', hexec.trans hends, (congrArg Qp.epsn (hqps _)).trans hget.2, hh⟩
theorem bfFlush_spec (hset : s.settled = true) (ht : s.trn.trigs = []) (hrx : s.receives i b ok = some (.bf p)) (hx : x = s.qp p.dqpn)
    (hlen : p.payload.length ≤ x.maxPay ∨ p.opc = 6) (htakes : s.qpTakes p = true) (h3 : x.state = 3) (hpsn : p.psn = x.epsn) (hopc : p.opc = 5) :
    ∃ s', exec (.bfFlush i b ok) s = .next s' ∧ (s'.qp p.dqpn).epsn = x.epsn + 1 ∧ (s'.qp p.dqpn).sinceAck = 0 ∧ s'.mem = s.mem ∧ s'.hobs = s.hobs ∧ s'.gates = s.gates := by
  subst hx
  obtain ⟨z, hz⟩ : ∃ z, z = s.countRx i := ⟨_, rfl⟩
  have hzq : z.qp p.dqpn = s.qp p.dqpn := by rw [hz]; rfl
  have hexec : exec (.bfFlush i b ok) s = (z.accepted { p with ackreq := true } 1).ends := by
    rw [exec, execBfFlush, bfPacket_taken _ hrx hopc hlen, ← hz, State.rxFlush, takePacket_ready _ (by rw [hz]; exact htakes) (by rw [hzq, h3]; decide), sequenced_now _ _ (by rw [hzq]; exact hpsn)]
  obtain ⟨is, o, rnr, qps, hacc, hepsn, hsince⟩ := accepted_rest z { p with ackreq := true } 1
  obtain ⟨s', hends, -, hqps, hm, hh, hg⟩ := taken_ends hset ht hz (accepted_aside z { p with ackreq := true } 1)
  have hqp : s'.qp p.dqpn = get {} p.dqpn qps := (hqps _).trans (by rw [hacc]; rfl)
  rw [hacc] at hm
  refine ⟨s', hexec.trans hends, ?_, ?_, hm.trans (by rw [hz]; rfl), hh, hg⟩
  · exact (congrArg Qp.epsn hqp).trans (hepsn.trans (by rw [hzq]; rfl))
  · exact (congrArg Qp.sinceAck hqp).trans (hsince rfl)

/-! ### CHPOST -/

/-- Unmarked lines of a contribution change what the transport does not hold. -/
theorem contribArrive_aside (t : State) (c : Nat) (ten : Option Nat) (chip k o : Nat) (ls : List (Bytes × Bool)) (fits : Bool) (hls : ∀ l ∈ ls, l.2 = false) :
    Aside t (t.contribArrive c ten chip k o ls fits).1 ∧ (t.contribArrive c ten chip k o ls fits).1.trn = t.trn := by
  have hline (u : State) (o : Nat) (d : Bytes) : Aside u (u.takeLine c chip k o d false) ∧ (u.takeLine c chip k o d false).trn = u.trn := by
    have hplace (v : State) (a : Nat) : Aside v (v.placeLine a d false) ∧ (v.placeLine a d false).trn = v.trn := by
      obtain ⟨mem, lp, r, h⟩ := placeLine_unmarked v a d
      rw [h]
      exact ⟨⟨rfl, id⟩, rfl⟩
    unfold State.takeLine
    extract_lets x k' y n r r1 src1 y1 s1 s2 s3 r2 last r3 s4 r4 src2 y2 x2
    have h2 : Aside u s2 ∧ s2.trn = u.trn := by
      unfold s2
      split
      · exact ⟨(show Aside u s1 from ⟨rfl, id⟩).trans (hplace s1 _).1, (hplace s1 _).2⟩
      · exact ⟨⟨rfl, id⟩, rfl⟩
    have h3 : Aside u s3 ∧ s3.trn = u.trn := h2
    split
    · have h4 : Aside u s4 ∧ s4.trn = u.trn := by
        unfold s4
        split
        · exact h3
        · exact ⟨h3.1.trans ⟨rfl, id⟩, h3.2⟩
      exact ⟨h4.1.trans ⟨rfl, id⟩, h4.2⟩
    · exact h3
  have hlines (l : List (Bytes × Bool)) : ∀ (a : State × Nat) (o : Nat), (∀ d ∈ l, d.2 = false) → Aside a.1 (State.takeLines t c ten chip k fits o l a).1 ∧ (State.takeLines t c ten chip k fits o l a).1.trn = a.1.trn := by
    induction l with
    | nil => exact fun a o _ => ⟨.refl _, rfl⟩
    | cons d l ih =>
      obtain ⟨d, poi⟩ := d
      intro a o hl
      obtain rfl : poi = false := hl (d, poi) (by simp)
      have hrest : ∀ d ∈ l, d.2 = false := fun d hd => hl d (by simp [hd])
      rw [State.takeLines]
      split
      · obtain ⟨h, e⟩ := ih (a.1.takeLine c chip k o d false, a.2) (o + 1) hrest
        exact ⟨(hline _ _ _).1.trans h, e.trans (hline _ _ _).2⟩
      · exact ih (a.1, if a.2 = 0 then State.judgeLine t a.1 c ten chip k o fits else a.2) (o + 1) hrest
  obtain ⟨h, e⟩ := hlines ls (t, 0) o hls
  unfold State.contribArrive
  split
  next s1 code he =>
    rw [he] at h e
    split
    · exact ⟨h, e⟩
    · unfold State.countRefusal
      extract_lets y s2
      split
      · exact ⟨h.trans ⟨rfl, id⟩, e⟩
      · exact ⟨h.trans ⟨rfl, id⟩, e⟩
/-- What a CHPOST does before it is answered. -/
theorem chpost_aside (t : State) (p : BfPkt) : Aside t (t.chpost p).1 ∧ (t.chpost p).1.trn = t.trn := by
  unfold State.chpost
  extract_lets x c ls
  split
  · exact ⟨.refl t, rfl⟩
  · split
    · have h := msgArrive_sameButMessages t c t.rt.chip sunitTransport 0 (some x.tenant) ls.length 0 ls
      exact ⟨h.aside, (congrArg State.trn h.rest).trans rfl⟩
    · refine contribArrive_aside _ _ _ _ _ _ _ _ fun l hl => ?_
      obtain ⟨j, -, rfl⟩ := List.mem_map.mp hl
      rfl
theorem bfChpost_spec (hset : s.settled = true) (ht : s.trn.trigs = []) (hrx : s.receives i b ok = some (.bf p)) (hx : x = s.qp p.dqpn)
    (hlen : p.payload.length ≤ x.maxPay ∨ p.opc = 6) (htakes : s.qpTakes p = true) (h3 : x.state = 3) (hpsn : p.psn = x.epsn) (hopc : p.opc = 6) :
    ∃ s', exec (.bfChpost i b ok) s = .next s' ∧ (s'.qp p.dqpn).epsn = x.epsn + 1 ∧ (s'.qp p.dqpn).sinceAck = 0 ∧ s'.hobs = s.hobs ∧ s'.gates = s.gates := by
  subst hx
  obtain ⟨z, hz⟩ : ∃ z, z = s.countRx i := ⟨_, rfl⟩
  have hzq : z.qp p.dqpn = s.qp p.dqpn := by rw [hz]; rfl
  obtain ⟨haside, htrn⟩ := chpost_aside z p
  obtain ⟨t, ht'⟩ : ∃ t, t = (((z.chpost p).1.advanced p 1).sendAck p.dqpn (z.chpost p).2 p.psn) := ⟨_, rfl⟩
  have hexec : exec (.bfChpost i b ok) s = t.ends := by
    rw [exec, execBfChpost, bfPacket_taken _ hrx hopc hlen, ← hz, State.rxChpost, takePacket_ready _ (by rw [hz]; exact htakes) (by rw [hzq, h3]; decide), sequenced_now _ _ (by rw [hzq]; exact hpsn), ht']
  have hqp : t.qp p.dqpn = { ((z.chpost p).1.advanced p 1).qp p.dqpn with sinceAck := 0 } := by rw [ht']; exact qp_sendAck ..
  obtain ⟨s', hends, -, hqps, -, hh, hg⟩ := taken_ends hset ht hz (u := t) (by rw [ht']; exact (haside.trans (advanced_aside ..)).trans (sendAck_aside ..))
  refine ⟨s', hexec.trans hends, ?_, ?_, hh, hg⟩
  · rw [hqps, hqp]
    refine (epsn_advanced ..).trans ?_
    rw [State.qp, htrn, ← hzq]
    rfl
  · rw [hqps, hqp]
end

end Sys2Proof.Machine
end

section
/-! Beyfatre packets at the requester, CONNECT and ACCEPT, and packets that no queue pair takes (R343, R344, R353, R367, R368, R557). -/
namespace Sys2Proof.Machine

section
variable {s : State} {i : Fin 4} {b : Bytes} {ok : Bool} {p : BfPkt} {x : Qp}

/-! ### Packets that are not taken -/

/-- A packet that its queue pair does not take is counted. -/
theorem bfPacket_dropped {k : Nat} {f : State → BfPkt → State} (hset : s.settled = true) (h : s.receives i b ok = some (.bf p)) (hk : p.opc = k)
    (hlen : p.payload.length ≤ (s.qp p.dqpn).maxPay ∨ p.opc = 6) (hf : ∀ z : State, z.qpTakes p = false → f z p = z.dropTag) (htakes : s.qpTakes p = false) :
    (s.bfPacket i b ok k f).ends = .next { s with trn := { s.trn with ifaces := put {} i { s.iface i with rxfrm := (s.iface i).rxfrm + 1 } s.trn.ifaces, droptag := s.trn.droptag + 1 } } := by
  rw [bfPacket_taken f h hk hlen, hf (s.countRx i) htakes]
  exact ends_settled _ hset
theorem notTaken_spec (hset : s.settled = true) (hrx : s.receives i b ok = some (.bf p)) (hlen : p.payload.length ≤ (s.qp p.dqpn).maxPay ∨ p.opc = 6) (c : Instr) (k : Nat)
    (hc : (c, k) ∈ [(Instr.bfSend i b ok, 1), (.bfPut i b ok, 2), (.bfGet i b ok, 3), (.getrsp i b ok, 4), (.bfFlush i b ok, 5), (.bfChpost i b ok, 6), (.ack i b ok, 7), (.connect i b ok, 8), (.accept i b ok, 9)])
    (hk : p.opc = k) (htakes : s.qpTakes p = false) :
    exec c s = .next { s with trn := { s.trn with ifaces := put {} i { s.iface i with rxfrm := (s.iface i).rxfrm + 1 } s.trn.ifaces, droptag := s.trn.droptag + 1 } } := by
  simp only [List.mem_cons, Prod.mk.injEq, List.not_mem_nil, or_false] at hc
  rcases hc with ⟨rfl, rfl⟩ | ⟨rfl, rfl⟩ | ⟨rfl, rfl⟩ | ⟨rfl, rfl⟩ | ⟨rfl, rfl⟩ | ⟨rfl, rfl⟩ | ⟨rfl, rfl⟩ | ⟨rfl, rfl⟩ | ⟨rfl, rfl⟩ <;>
    exact bfPacket_dropped hset hrx hk hlen (fun z hz => if_neg (by rw [hz]; decide)) htakes

/-! ### ACK -/

theorem moveUna_unacked {y : Qp} (u : Word) (h : y.unacked) : (y.moveUna u).una = u ∧ (y.moveUna u).unacked ∧ (u ≠ y.una → (y.moveUna u).retries = 0) := by
  simp only [Qp.moveUna, passAcked_unacked u y.ops h]
  split
  · next he => exact ⟨he.symm, fun o ho => h o (List.mem_filter.mp ho).1, fun hn => absurd he hn⟩
  · exact ⟨rfl, fun o ho => h o (List.mem_filter.mp ho).1, fun _ => rfl⟩
theorem endByCode_zero (z : State) (q : Nat) (op : Option TOp) (c : Word) : z.endByCode q op 0 c = z := by
  unfold State.endByCode
  split
  · rfl
  · rw [if_neg (by decide), if_neg (by omega)]
/-- An ACK of code 0 frees what it acknowledges, and new packets follow. -/
theorem rxAck_ack {z : State} (htakes : z.qpTakes p = true) (h3 : (z.qp p.dqpn).state = 3) (hcode : be p.ext 4 1 = 0)
    (ha : (BitVec.ofNat 32 (be p.ext 0 4) - ((z.qp p.dqpn).una - 1)).toNat ≤ ((z.qp p.dqpn).npsn - (z.qp p.dqpn).una).toNat) :
    z.rxAck p = (z.ackUpTo p.dqpn (BitVec.ofNat 32 (be p.ext 0 4))).pump p.dqpn 512 := by
  unfold State.rxAck
  rw [takePacket_ready _ htakes (by rw [h3]; decide)]
  simp only [hcode, h3, endByCode_zero, ha, decide_true, beq_self_eq_true, Bool.true_or, if_true, Bool.not_true, Bool.false_eq_true, if_false, ne_eq, not_true, endsQp, fatalCode]
  simp
theorem ack_spec (hset : s.settled = true) (hwf : SMapWf ({} : Qp) s.trn.qps = true) (ht : s.trn.trigs = []) (hrx : s.receives i b ok = some (.bf p)) (hx : x = s.qp p.dqpn)
    (hlen : p.payload.length ≤ x.maxPay ∨ p.opc = 6) (htakes : s.qpTakes p = true) (h3 : x.state = 3) (hopc : p.opc = 7) (hcode : be p.ext 4 1 = 0)
    (ha : (BitVec.ofNat 32 (be p.ext 0 4) - (x.una - 1)).toNat ≤ (x.npsn - x.una).toNat) (hacked : ∀ o ∈ x.ops, o.acked = false) :
    ∃ s', exec (.ack i b ok) s = .next s' ∧ (s'.qp p.dqpn).una = BitVec.ofNat 32 (be p.ext 0 4) + 1 ∧ (BitVec.ofNat 32 (be p.ext 0 4) + 1 ≠ x.una → (s'.qp p.dqpn).retries = 0) ∧
      s'.hobs = s.hobs ∧ s'.gates = s.gates := by
  subst hx
  obtain ⟨z, hz⟩ : ∃ z, z = s.countRx i := ⟨_, rfl⟩
  have hzq : z.qp p.dqpn = s.qp p.dqpn := by rw [hz]; rfl
  have hzwf : SMapWf ({} : Qp) z.trn.qps = true := by rw [hz]; exact hwf
  have hexec : exec (.ack i b ok) s = (z.rxAck p).ends := by rw [exec, execAck, bfPacket_taken _ hrx hopc hlen, ← hz]
  rw [rxAck_ack (by rw [hz]; exact htakes) (by rw [hzq]; exact h3) hcode (by rw [hzq]; exact ha)] at hexec
  obtain ⟨u, hu⟩ : ∃ u : State, u = (((z.qp p.dqpn).ops.filter fun o => !o.done && (wrKind o.raw == 4 || wrKind o.raw == 5) && decide (o.sent ≠ 0) &&
    decide ((BitVec.ofNat 32 (be p.ext 0 4) - o.psn).toNat < 2 ^ 31)).foldl (fun s o => s.endOp p.dqpn o.id 0) z) := ⟨_, rfl⟩
  have hack : z.ackUpTo p.dqpn (BitVec.ofNat 32 (be p.ext 0 4)) = u.setQp p.dqpn ((u.qp p.dqpn).moveUna (BitVec.ofNat 32 (be p.ext 0 4) + 1)) := by rw [hu]; rfl
  have hzu : Calm 1 False (fun _ => False) z u := by rw [hu]; exact calm_foldl calm_refl fun t o ht => calm_endOp _ _ _ _ ht
  have hazu : Aside z u := by rw [hu]; exact Aside.foldl (fun t o => (endOp_reports ..).aside) _ _
  obtain ⟨huwf, hub⟩ := hzu.transport.pairs (by decide) hzwf
  obtain ⟨hunacked, -, huna⟩ := (hub p.dqpn).window (by rw [show get ({} : Qp) p.dqpn z.trn.qps = s.qp p.dqpn from hzq]; exact hacked)
  obtain ⟨hv, hvu, hvr⟩ := moveUna_unacked (BitVec.ofNat 32 (be p.ext 0 4) + 1) hunacked
  rw [hack] at hexec
  obtain ⟨s', hends, -, hqps, -, hh, hg⟩ := taken_ends hset ht hz ((hazu.trans (setQp_aside u p.dqpn ((u.qp p.dqpn).moveUna (BitVec.ofNat 32 (be p.ext 0 4) + 1)))).trans (pump_aside _ p.dqpn 512))
  have hpump := ((calm_pump (K := 1) (F := False) (G := fun _ => False) (by decide) (u.setQp p.dqpn ((u.qp p.dqpn).moveUna (BitVec.ofNat 32 (be p.ext 0 4) + 1))) p.dqpn 512 calm_refl).transport.pairs (by decide) (put_wf huwf)).2 p.dqpn
  rw [show get ({} : Qp) p.dqpn (u.setQp p.dqpn ((u.qp p.dqpn).moveUna (BitVec.ofNat 32 (be p.ext 0 4) + 1))).trn.qps = (u.qp p.dqpn).moveUna (BitVec.ofNat 32 (be p.ext 0 4) + 1) from get_put_same _ _ _ _] at hpump
  obtain ⟨-, hretries, huna'⟩ := hpump.window hvu
  refine ⟨s', hexec.trans hends, ?_, fun hne => ?_, hh, hg⟩
  · rw [hqps]
    exact huna'.trans hv
  · rw [hqps]
    refine hretries.trans (hvr ?_)
    rw [huna, show get ({} : Qp) p.dqpn z.trn.qps = s.qp p.dqpn from hzq]
    exact hne

/-! ### Queue pairs that have nothing to send -/

theorem pump_idle {z : State} {q : Nat} (h : (z.qp q).toSend = none) (n : Nat) : z.pump q n = z := by
  cases n with
  | zero => rfl
  | succ n =>
    have hnone : z.pump1 q = none := by
      rw [State.pump1]
      dsimp only
      rw [h]
      split <;> rfl
    rw [State.pump, hnone]
/-- No operation of the queue pair has a packet to start. -/
def Qp.idle (y : Qp) : Prop := ∀ o ∈ y.ops, (netKind (wrKind o.raw) && !o.done && decide (o.sent < y.opPackets o)) = false
theorem toSend_eq_none {y : Qp} : y.toSend = none ↔ y.idle := by
  rw [Qp.toSend, List.find?_eq_none]
  exact forall₂_congr fun o _ => by rw [Bool.not_eq_true]
theorem idle_mapOp {y : Qp} (h : y.idle) (k : Nat) (f : TOp → TOp) (hf : ∀ o, (f o).raw = o.raw ∧ (f o).sent = o.sent ∧ (o.done = true → (f o).done = true)) : (y.mapOp k f).idle := by
  intro o ho
  obtain ⟨a, ha, rfl⟩ := List.mem_map.mp ho
  have hidle := h a ha
  split
  · obtain ⟨hraw, hsent, hdone⟩ := hf a
    simp only [Qp.opPackets, Qp.packets, Qp.maxPay, hraw, hsent] at hidle ⊢
    cases hd : a.done with
    | true => simp [hdone hd]
    | false =>
      rw [hd, Bool.not_false, Bool.and_true] at hidle
      rw [Bool.and_right_comm]
      exact Bool.and_eq_false_iff.mpr (.inl hidle)
  · exact hidle
theorem idle_settleAck {y : Qp} (h : y.idle) : y.settleAck.idle := by
  unfold Qp.settleAck Qp.moveUna
  extract_lets v w
  have hw : w.idle := by
    unfold w
    split <;> exact h
  exact fun o ho => hw o (List.mem_filter.mp ho).1
theorem idle_endOp {z : State} {q : Nat} (h : (z.qp q).idle) (k status : Nat) : ((z.endOp q k status).qp q).idle := by
  unfold State.endOp
  extract_lets y
  split
  · exact h
  · rw [qp_wrComplete, show ∀ c, (z.setQp q c).qp q = c from fun c => get_put_same _ _ _ _]
    exact idle_mapOp h _ _ fun o => ⟨rfl, rfl, fun _ => rfl⟩
theorem mem_endOp (z : State) (q k status : Nat) : (z.endOp q k status).mem = z.mem := (congrArg State.mem (endOp_reports z q k status).rest).trans rfl
/-- The GETRSP that is expected is placed. -/
theorem getrsp_spec (hset : s.settled = true) (hcanon : s.canon = true) (ht : s.trn.trigs = []) (hrx : s.receives i b ok = some (.bf p)) (hx : x = s.qp p.dqpn)
    (hlen : p.payload.length ≤ x.maxPay ∨ p.opc = 6) (o : TOp) (j a : Nat) (htakes : s.qpTakes p = true) (h3 : x.state = 3) (hopc : p.opc = 4) (hop : x.opAt p.psn = some (o, j)) (hkind : wrKind o.raw = 3)
    (hnext : x.ops.find? (fun z => wrKind z.raw == 3 && z.sent != 0 && !z.done) = some o) (hj : j = o.placed)
    (hkey : s.judgeKey (wrLkey o.raw) x.tenant x.pd 2 (wrLoff o.raw + be p.ext 0 4) p.payload.length = 0) (ha : a = s.keyAddr (wrLkey o.raw) (wrLoff o.raw + be p.ext 0 4)) (hsend : x.toSend = none) :
    ∃ s', exec (.getrsp i b ok) s = .next s' ∧ readBytes s'.mem a p.payload.length = p.payload ∧ s'.hobs = s.hobs ∧ s'.gates = s.gates := by
  subst hx
  obtain ⟨z, hz⟩ : ∃ z, z = s.countRx i := ⟨_, rfl⟩
  have hzq : z.qp p.dqpn = s.qp p.dqpn := by rw [hz]; rfl
  obtain ⟨t, htp⟩ : ∃ t : State, t = (z.placeRaw a p.payload).setQp p.dqpn (((z.placeRaw a p.payload).qp p.dqpn).mapOp o.id fun q => { q with placed := j + 1 }) := ⟨_, rfl⟩
  obtain ⟨w, hw⟩ : ∃ w : State, w = if j + 1 = o.n then t.endOp p.dqpn o.id 0 else t := ⟨_, rfl⟩
  have hzt : Aside z t := by rw [htp]; exact (placeRaw_aside ..).trans (setQp_aside ..)
  have htmem : t.mem = writeBytes s.mem a p.payload := by rw [htp]; exact (mem_placeRaw ..).trans (by rw [hz]; rfl)
  have htq : (t.qp p.dqpn).idle := by
    rw [htp, show ∀ v c, (State.setQp v p.dqpn c).qp p.dqpn = c from fun v c => get_put_same _ _ _ _]
    refine idle_mapOp ?_ _ _ fun o => ⟨rfl, rfl, id⟩
    rw [State.qp, trn_placeRaw, show get ({} : Qp) p.dqpn z.trn.qps = s.qp p.dqpn from hzq]
    exact toSend_eq_none.mp hsend
  have hw' : Aside z w ∧ w.mem = writeBytes s.mem a p.payload ∧ (w.qp p.dqpn).idle := by
    rw [hw]
    split
    · exact ⟨hzt.trans (endOp_reports ..).aside, (mem_endOp ..).trans htmem, idle_endOp htq _ _⟩
    · exact ⟨hzt, htmem, htq⟩
  obtain ⟨hazw, hwmem, hwq⟩ := hw'
  have hidle : (w.setQp p.dqpn (w.qp p.dqpn).settleAck).pump p.dqpn 512 = w.setQp p.dqpn (w.qp p.dqpn).settleAck := by
    refine pump_idle (toSend_eq_none.mpr ?_) _
    rw [show ∀ c, (w.setQp p.dqpn c).qp p.dqpn = c from fun c => get_put_same _ _ _ _]
    exact idle_settleAck hwq
  have hexec : exec (.getrsp i b ok) s = (w.setQp p.dqpn (w.qp p.dqpn).settleAck).ends := by
    have hplace : z.placeRaw (z.keyAddr (wrLkey o.raw) (wrLoff o.raw + be p.ext 0 4)) p.payload = z.placeRaw a p.payload := by rw [ha, hz]; rfl
    have hgood : z.judgeKey (wrLkey o.raw) (s.qp p.dqpn).tenant (s.qp p.dqpn).pd 2 (wrLoff o.raw + be p.ext 0 4) p.payload.length = 0 := by rw [hz]; exact hkey
    rw [exec, execGetrsp, bfPacket_taken _ hrx hopc hlen, ← hz, State.rxGetrsp, takePacket_ready _ (by rw [hz]; exact htakes) (by rw [hzq, h3]; decide)]
    dsimp only
    rw [hzq, hop]
    dsimp only
    rw [hnext, if_neg (by simp [h3, hkind, hj]), hgood, if_neg (by simp), hplace, ← htp, ← hw, hidle]
  obtain ⟨s', hends, -, -, hm, hh, hg⟩ := taken_ends hset ht hz (hazw.trans (setQp_aside w p.dqpn (w.qp p.dqpn).settleAck))
  refine ⟨s', hexec.trans hends, ?_, hh, hg⟩
  rw [hm, show (w.setQp p.dqpn (w.qp p.dqpn).settleAck).mem = w.mem from rfl, hwmem]
  exact readBytes_writeBytes _ _ _ ((canon_iff s).mp hcanon).1
theorem connect_spec (hset : s.settled = true) (ht : s.trn.trigs = []) (hrx : s.receives i b ok = some (.bf p)) (hx : x = s.qp p.dqpn)
    (hlen : p.payload.length ≤ x.maxPay ∨ p.opc = 6) (htakes : s.qpTakes p = true) (h1 : x.state = 1) (hopc : p.opc = 8) (hops : x.ops = []) :
    ∃ s', exec (.connect i b ok) s = .next s' ∧ s'.qp p.dqpn = { x with state := 3, peerIp := p.srcIp, peerQp := some p.sqpn, epsn := BitVec.ofNat 32 (be p.ext 0 4), boundBy := some (BitVec.ofNat 32 (be p.ext 0 4), be p.ext 4 1), paylog := min x.paylog0 (be p.ext 4 1) } ∧
      s'.mem = s.mem ∧ s'.hobs = s.hobs ∧ s'.gates = s.gates := by
  subst hx
  obtain ⟨z, hz⟩ : ∃ z, z = s.countRx i := ⟨_, rfl⟩
  have hzq : z.qp p.dqpn = s.qp p.dqpn := by rw [hz]; rfl
  obtain ⟨y, hy⟩ : ∃ y : Qp, y = { s.qp p.dqpn with state := 3, peerIp := p.srcIp, peerQp := some p.sqpn, epsn := BitVec.ofNat 32 (be p.ext 0 4), boundBy := some (BitVec.ofNat 32 (be p.ext 0 4), be p.ext 4 1), paylog := min (s.qp p.dqpn).paylog0 (be p.ext 4 1) } := ⟨_, rfl⟩
  obtain ⟨is, o, hsend⟩ := sendConnect_rest (z.setQp p.dqpn y) p.dqpn 9
  have hqp : ((z.setQp p.dqpn y).sendConnect p.dqpn 9).qp p.dqpn = y := by
    rw [hsend]
    exact get_put_same _ _ _ _
  have hidle : ((z.setQp p.dqpn y).sendConnect p.dqpn 9).pump p.dqpn 512 = (z.setQp p.dqpn y).sendConnect p.dqpn 9 := pump_idle (by rw [hqp, Qp.toSend, show y.ops = [] by rw [hy]; exact hops]; rfl) _
  have hexec : exec (.connect i b ok) s = ((z.setQp p.dqpn y).sendConnect p.dqpn 9).ends := by
    rw [exec, execConnect, bfPacket_taken _ hrx hopc hlen, ← hz, State.rxConnect]
    dsimp only
    rw [takePacket_ready _ (by rw [hz]; exact htakes) (by rw [hzq, h1]; decide), hzq, if_pos h1, ← hy, hidle]
  obtain ⟨s', hends, -, hqps, hm, hh, hg⟩ := taken_ends hset ht hz (u := (z.setQp p.dqpn y).sendConnect p.dqpn 9) (by rw [hsend]; exact ⟨rfl, id⟩)
  refine ⟨s', hexec.trans hends, (hqps _).trans (hqp.trans hy), hm.trans ?_, hh, hg⟩
  rw [hsend, hz]
  rfl
theorem accept_spec (hset : s.settled = true) (ht : s.trn.trigs = []) (hrx : s.receives i b ok = some (.bf p)) (hx : x = s.qp p.dqpn)
    (hlen : p.payload.length ≤ x.maxPay ∨ p.opc = 6) (htakes : s.qpTakes p = true) (h2 : x.state = 2) (hopc : p.opc = 9) (hq : p.dqpn ≠ 0) (hops : x.ops = []) :
    ∃ s', exec (.accept i b ok) s = .next s' ∧ s'.qp p.dqpn = { x with state := 3, epsn := BitVec.ofNat 32 (be p.ext 0 4), paylog := min x.paylog0 (be p.ext 4 1) } ∧
      s'.mem = s.mem ∧ s'.hobs = s.hobs ∧ s'.gates = s.gates := by
  subst hx
  obtain ⟨z, hz⟩ : ∃ z, z = s.countRx i := ⟨_, rfl⟩
  have hzq : z.qp p.dqpn = s.qp p.dqpn := by rw [hz]; rfl
  obtain ⟨y, hy⟩ : ∃ y : Qp, y = { s.qp p.dqpn with state := 3, epsn := BitVec.ofNat 32 (be p.ext 0 4), paylog := min (s.qp p.dqpn).paylog0 (be p.ext 4 1) } := ⟨_, rfl⟩
  have hqp : (z.setQp p.dqpn y).qp p.dqpn = y := get_put_same _ _ _ _
  have hidle : (z.setQp p.dqpn y).pump p.dqpn 512 = z.setQp p.dqpn y := pump_idle (by rw [hqp, Qp.toSend, show y.ops = [] by rw [hy]; exact hops]; rfl) _
  have hexec : exec (.accept i b ok) s = (z.setQp p.dqpn y).ends := by
    rw [exec, execAccept, bfPacket_taken _ hrx hopc hlen, ← hz, State.rxAccept, takePacket_ready _ (by rw [hz]; exact htakes) (by rw [hzq, h2]; decide)]
    dsimp only
    rw [hzq, if_pos h2, if_neg hq, ← hy, hidle]
  obtain ⟨s', hends, -, hqps, hm, hh, hg⟩ := taken_ends hset ht hz (setQp_aside z p.dqpn y)
  exact ⟨s', hexec.trans hends, (hqps _).trans (hqp.trans hy), hm.trans (by rw [hz]; rfl), hh, hg⟩
end

/-- Settles O51: a packet is counted as dropped where its queue pair does not take it; in order it is accepted, and what the transport does with it leaves hobs and gates as they were. -/
theorem beyfatrePackets : Obligations.BeyfatrePackets := by
  unfold Obligations.BeyfatrePackets
  intro i b ok s p x hset hcanon hwf _ ht hrx hx hlen
  refine ⟨fun c k hc hk htakes => notTaken_spec hset hrx (hx ▸ hlen) c k hc hk htakes, fun htakes h3 hpsn => ⟨bfPut_spec hset hcanon ht hrx hx hlen htakes h3 hpsn,
    bfSend_spec hset hcanon ht hrx hx hlen htakes h3 hpsn, bfGet_spec hset ht hrx hx hlen htakes h3 hpsn, bfFlush_spec hset ht hrx hx hlen htakes h3 hpsn, bfChpost_spec hset ht hrx hx hlen htakes h3 hpsn⟩,
    ack_spec hset hwf ht hrx hx hlen, fun o j a htakes h3 hopc hop hkind hnext hj hkey ha _ hsend _ => getrsp_spec hset hcanon ht hrx hx hlen o j a htakes h3 hopc hop hkind hnext hj hkey ha hsend,
    connect_spec hset ht hrx hx hlen, accept_spec hset ht hrx hx hlen⟩

end Sys2Proof.Machine
end

section
/-! Bring-up from step 2 on: which steps it ends at, and what it leaves as it was (R425, R433 to R443). -/
namespace Sys2Proof.Machine

/-! ### What bring-up leaves -/

/-- What bring-up, and the end of a command, leave as they were where nothing else happens. -/
def State.lasting (s : State) : (BitVec 10 × List Nat × Bool × Bool × Option (BitVec 4)) × (Nat × Bool × Nat) × (Word × Bool) × (Bool × Option Word) × (List (Nat × Nat) × List (Nat × Word)) × List Packet :=
  ((s.pwr.rails, s.pwr.railSeq, s.pwr.sleeping, s.pwr.simmer, s.pwr.exiting), (s.svc.strap, s.svc.testMode, s.svc.mode), (s.com.tag, s.com.tagLocked), (s.stk.started, s.stk.openEpoch), (s.trn.home, s.trn.chg),
    s.loopback)
/-- That, and the boot state. -/
def State.kept (s : State) := (s.lasting, s.boot)
/-- What the boot state keeps while a copy is chosen. -/
def Boot.duties (b : Boot) : BitVec 2 × Nat × Nat × Option Nat × List DMsg := (b.held, b.cause, b.session, b.restart, b.work)

theorem kept_log (s : State) (code : Nat) (cls : EClass) (src : Src) (t : Option Nat) (args : List Nat) : (s.log code cls src t args).kept = s.kept := by
  unfold State.log
  extract_lets
  split <;> rfl
theorem kept_powerFault (s : State) (cause : Nat) : (s.powerFault cause).kept = s.kept := by
  obtain ⟨z, sk, ng, hz, h⟩ := powerFault_spec s cause
  have hzk : z.kept = s.kept := by rw [hz]; rfl
  rcases h with h | h
  · rw [h, hzk]
  · rw [h, kept_log, hzk]
theorem kept_decideAbort (s : State) (t r : Nat) : (s.decideAbort t r).kept = s.kept := rfl
theorem kept_poisonChan (s : State) (c : Nat) : (s.poisonChan c).kept = s.kept := by
  have hconsume (u : State) (t p : Nat) : (u.consumePoison t p).kept = u.kept := by
    unfold State.consumePoison
    split
    · rfl
    · rw [kept_log, kept_decideAbort]
  exact (hconsume ..).trans rfl
theorem kept_msgArrive (s : State) (c chip unit tag : Nat) (t : Option Nat) (mlines o : Nat) (ls : List (Bytes × Bool)) : (s.msgArrive c chip unit tag t mlines o ls).1.kept = s.kept := by
  have hmarked (u : State) (poi : Bool) : (if poi then u.poisonChan c else u).kept = u.kept := by
    split
    · exact kept_poisonChan u c
    · rfl
  unfold State.msgArrive
  extract_lets x poi code slot m s1 s2 f
  split
  · split
    · rfl
    · exact (hmarked s2 poi).trans rfl
  · split
    · rfl
    · split
      · rfl
      · exact (hmarked _ poi).trans rfl
theorem kept_flush (s : State) : s.flush.kept = s.kept := by
  unfold State.flush
  extract_lets es
  refine (foldl_leaves State.kept (fun u e => ?_) es _).trans rfl
  have hmsg := kept_msgArrive u u.svc.mirrorChan u.rt.chip sunitService 0 none 1 0 [(fit 64 (mirrorBytes u.rt.chip e), false)]
  split
  next s1 code hown =>
    rw [State.ownMsg] at hown
    rw [hown] at hmsg
    split
    · exact hmsg
    · exact hmsg
theorem lasting_eq_iff {a t : State} : t.lasting = a.lasting ↔ (t.pwr.rails = a.pwr.rails ∧ t.pwr.railSeq = a.pwr.railSeq ∧ t.pwr.sleeping = a.pwr.sleeping ∧ t.pwr.simmer = a.pwr.simmer ∧
    t.pwr.exiting = a.pwr.exiting) ∧ (t.svc.strap = a.svc.strap ∧ t.svc.testMode = a.svc.testMode ∧ t.svc.mode = a.svc.mode) ∧ (t.com.tag = a.com.tag ∧ t.com.tagLocked = a.com.tagLocked) ∧
    (t.stk.started = a.stk.started ∧ t.stk.openEpoch = a.stk.openEpoch) ∧ (t.trn.home = a.trn.home ∧ t.trn.chg = a.trn.chg) ∧ t.loopback = a.loopback := by simp [State.lasting]
/-- The end of a command that only bring-up has changed. -/
theorem ends_kept {a t : State} (ha : a.settled = true) (h : t.lasting = a.lasting) (hw : t.boot.work = []) : ∃ s', t.ends = .next s' ∧ s'.kept = t.kept := by
  obtain ⟨h1, h2, h3, -, -, h6, h7, h8⟩ := (settled_iff a).mp ha
  obtain ⟨⟨-, -, hsleep, hsimmer, hexit⟩, ⟨-, -, hmode⟩, -, ⟨-, hepoch⟩, ⟨hhome, hchg⟩, hloop⟩ := lasting_eq_iff.mp h
  have hmirror : t.settledButMirror = true := by
    refine (settledButMirror_iff t).mpr ⟨hhome.trans h1, hchg.trans h2, hepoch.trans h3, hw, ?_, hloop.trans h7, ?_⟩
    · rw [State.goingDown] at h6 ⊢
      rw [hmode, hsleep]
      exact h6
    · rw [hsimmer, hexit]
      exact h8
  exact ⟨_, ends_settledButMirror hmirror, kept_flush t⟩

/-! ### The steps -/

theorem readFlash_spec (s : State) (f : Flash) : (s.readFlash f).1.lasting = s.lasting ∧ (s.readFlash f).1.boot.duties = s.boot.duties ∧ (s.readFlash f).1.boot.step = s.boot.step := by
  have hlog (u : State) (c : Prop) [Decidable c] (l : List Nat) : (if c then u else u.log 0x0101 .contained .service none l).kept = u.kept := by
    split
    · rfl
    · exact kept_log ..
  unfold State.readFlash
  extract_lets b
  split
  · exact ⟨rfl, rfl, rfl⟩
  · extract_lets ra rb ca cb s1 s2
    have hk : (if cb.verdict = 0 then s2 else s2.log 0x0101 .contained .service none [1, cb.verdict, cb.rtype]).kept = s1.kept := (hlog ..).trans (hlog ..)
    exact ⟨congrArg Prod.fst hk, congrArg (fun k => k.2.duties) hk, congrArg (fun k => k.2.step) hk⟩
theorem kept_setRange (s : State) (q : Nat) (x : Range) : (s.setRange q x).kept = s.kept := rfl
theorem kept_setHob (s : State) (k : Nat) (x : Hob) : (s.setHob k x).kept = s.kept := rfl
theorem kept_setGate (s : State) (l : Nat) (x : Gate) : (s.setGate l x).kept = s.kept := rfl
theorem kept_applyImage (s : State) (rs : List (Nat × Bytes)) : (s.applyImage rs).kept = (s.lasting, { s.boot with conf := rs }) := by
  unfold State.applyImage
  extract_lets part clk rng stk pow svc chip one devs sel _ _ _ _ _ _ _ s1 s2 s3
  have h1 : s1.kept = (s.lasting, { s.boot with conf := rs }) := rfl
  clear_value s1
  have h2 : s2.kept = s1.kept := by
    refine foldl_leaves State.kept (fun u q => ?_) _ _
    exact (foldl_leaves State.kept (fun v m => kept_setRange v q _) _ _).trans (kept_setRange ..)
  clear_value s2
  have h3 : s3.kept = s2.kept := foldl_leaves State.kept (fun u k => kept_setHob u k _) _ _
  clear_value s3
  exact (foldl_leaves State.kept (fun u v => kept_setGate u (le v 0 1) _) _ _).trans (h3.trans (h2.trans h1))
/-- Step 3 leaves the part at the step where it was, or takes it there with the copy that was chosen. -/
theorem bootStep3_spec (s : State) (f : Flash) : (s.bootStep3 f).lasting = s.lasting ∧ (s.bootStep3 f).boot.duties = s.boot.duties ∧
    ((s.bootStep3 f).boot.step = s.boot.step ∨ (s.bootStep3 f).boot.step = 3) ∧
    ∀ ca cb k, (s.readFlash f).2 = some (ca, cb) → chooseCopy ca cb = some k →
      (s.bootStep3 f).boot.step = 3 ∧ (s.bootStep3 f).boot.copy = k.1 ∧ (s.bootStep3 f).boot.gen = if k.1 = 0 then ca.gen else cb.gen := by
  obtain ⟨hread, hduties, hstep⟩ := readFlash_spec s f
  unfold State.bootStep3
  split
  next s1 cs he =>
    rw [he] at hread hduties hstep ⊢
    split
    · next hn =>
      have hk : (s1.log 0x0103 .fatal .service none []).kept = s1.kept := kept_log ..
      refine ⟨(congrArg Prod.fst hk).trans hread, (congrArg (fun k => k.2.duties) hk).trans hduties, .inl ((congrArg (fun k => k.2.step) hk).trans hstep), fun ca cb k hcs hch => ?_⟩
      subst hcs
      simp [hch] at hn
    · next c k div hs =>
      extract_lets _ s2 s3 s4
      have h3 : s3.kept = s2.kept := by
        unfold s3
        split
        · exact kept_log ..
        · rfl
      have h4 : s4.kept = (s3.lasting, { s3.boot with conf := c.recs }) := kept_applyImage ..
      have h5 : (if s4.boot.unprov then s4.log 0x0104 .info .service none [] else s4).kept = s4.kept := by
        split
        · exact kept_log ..
        · rfl
      have hl : s3.lasting = s2.lasting := congrArg Prod.fst h3
      have hb : s3.boot = s2.boot := congrArg Prod.snd h3
      have hk := h5.trans h4
      rw [hl, hb] at hk
      refine ⟨(congrArg Prod.fst hk).trans hread, (congrArg (fun k => k.2.duties) hk).trans hduties, .inr (congrArg (fun k => k.2.step) hk), fun ca cb k' hcs hch => ?_⟩
      subst hcs
      obtain ⟨k0, d0⟩ := k'
      obtain ⟨hc, hk0, -⟩ : (if k0 = 0 then ca else cb) = c ∧ k0 = k ∧ d0 = div := by simpa [hch] using hs
      refine ⟨congrArg (fun k => k.2.step) hk, (congrArg (fun k => k.2.copy) hk).trans hk0.symm, (congrArg (fun k => k.2.gen) hk).trans ?_⟩
      change c.gen = _
      rw [← hc]
      split <;> rfl
theorem kept_calibrate (s : State) (q b t : Nat) : (s.calibrate q b t).kept = s.kept := rfl
theorem kept_sinkFull (s : State) (k g : Nat) : (s.sinkFull k g).kept = s.kept := rfl
theorem kept_out (s : State) (o : List Out) : ({ s with out := o } : State).kept = s.kept := rfl
theorem kept_enterTrain (s : State) (l : Nat) : (s.enterTrain l).kept = s.kept := by
  rw [State.enterTrain, sendFrames_eq, kept_out, kept_setGate]
theorem kept_setStn (s : State) (q : Nat) (x : Station) : (s.setStn q x).kept = s.kept := rfl
/-- What a step that is completed, or that fails, leaves. -/
theorem kept_toStep {z s : State} (n : Nat) (h : z.kept = s.kept) : ({ z with boot := { z.boot with step := n } } : State).kept = (s.lasting, { s.boot with step := n }) :=
  Prod.ext (congrArg Prod.fst h :) (congrArg (fun k => { k.2 with step := n }) h :)
theorem kept_toFailed {z s : State} (h : z.kept = s.kept) : ({ z with boot := { z.boot with failed := true } } : State).kept = (s.lasting, { s.boot with failed := true }) :=
  Prod.ext (congrArg Prod.fst h :) (congrArg (fun k => { k.2 with failed := true }) h :)
theorem lasting_of_kept {s : State} {l} {b : Boot} (h : s.kept = (l, b)) : s.lasting = l := congrArg Prod.fst h
theorem boot_of_kept {s : State} {l} {b : Boot} (h : s.kept = (l, b)) : s.boot = b := congrArg Prod.snd h
/-- Step 4 ends with a reference, or bring-up fails. -/
theorem bootStep4_spec (s : State) (v : BootEnv) : (s.bootStep4 v).kept = (s.lasting, { s.boot with step := 4 }) ∨ (s.bootStep4 v).kept = (s.lasting, { s.boot with failed := true }) := by
  unfold State.bootStep4
  extract_lets here _ s1 p run
  have hrun (u : State) (sel : Nat) : (run u sel).kept = (u.lasting, { u.boot with step := 4 }) := by
    unfold run
    extract_lets _ _ s2 s3
    have h2 : s2.kept = (u.lasting, { u.boot with step := 4 }) := rfl
    have h3 : s3.kept = s2.kept := foldl_leaves State.kept (fun w q => kept_calibrate w q _ _) _ _
    clear_value s3 s2
    exact (foldl_leaves State.kept (fun w k => kept_sinkFull w k 7) _ _).trans (h3.trans h2)
  have hs1 : s1.kept = s.kept := rfl
  clear_value run s1
  have hl : s1.lasting = s.lasting := congrArg Prod.fst hs1
  have hb : s1.boot = s.boot := congrArg Prod.snd hs1
  split
  · exact .inl ((hrun s1 p).trans (by rw [hl, hb]))
  · split
    · refine .inl ((hrun _ _).trans ?_)
      have h := (kept_log s1 0x0702 .contained .power none [p]).trans hs1
      rw [lasting_of_kept h, boot_of_kept h]
    · exact .inr (kept_toFailed ((kept_log ..).trans hs1))
/-- Step 5 is completed with or without a power fault. -/
theorem bootStep5_spec (s : State) (v : BootEnv) : (s.bootStep5 v).kept = (s.lasting, { s.boot with step := 5 }) := by
  unfold State.bootStep5
  extract_lets s0 s1 code _ p s3 s2
  have h0 : s0.kept = s.kept := by
    unfold s0
    split
    · exact kept_powerFault ..
    · rfl
  clear_value s0
  have h1 : s1.kept = s0.kept := rfl
  have h3 : ({ s3 with pwr := p } : State).kept = s1.kept := rfl
  have h4 (c : Bool) : ({ s3 with pwr := { p with acked := c } } : State).kept = s1.kept := rfl
  have h2 : s2.kept = s.kept := by
    rw [← h0, ← h1]
    unfold s2
    split
    · rfl
    · split
      · exact h4 true
      · exact (kept_powerFault ..).trans h3
  exact kept_toStep 5 h2
theorem bootStep6_spec (s : State) (v : BootEnv) : (s.bootStep6 v).kept = (s.lasting, { s.boot with step := 6 }) := by
  unfold State.bootStep6
  extract_lets s0 s1
  have h0 : s0.kept = s.kept := by
    unfold s0
    split <;> rfl
  have h1 : s1.kept = s0.kept := by
    refine foldl_leaves State.kept (fun u q => ?_) _ _
    dsimp only
    split
    · rfl
    · exact (kept_log ..).trans rfl
  exact kept_toStep 6 (h1.trans h0)
theorem bootStep7_spec (s : State) : s.bootStep7.kept = (s.lasting, { s.boot with step := 7 }) := by
  unfold State.bootStep7
  extract_lets s1
  have h : s1.kept = s.kept := by
    refine foldl_leaves State.kept (fun u l => ?_) _ _
    split
    · exact kept_enterTrain u l
    · rfl
  clear_value s1
  exact kept_toStep 7 h
theorem bootStep8_spec (s : State) : s.bootStep8.kept = s.kept ∨ s.bootStep8.kept = (s.lasting, { s.boot with failed := true }) := by
  unfold State.bootStep8
  extract_lets q
  split
  · exact .inr (kept_toFailed (kept_log ..))
  · exact .inl rfl
/-- Steps 5 to 7, which no answer of the board holds back. -/
theorem bootSteps567_spec (s : State) (v : BootEnv) : ((s.bootStep5 v).bootStep6 v).bootStep7.kept = (s.lasting, { s.boot with step := 7 }) := by
  have h5 := bootStep5_spec s v
  have h6 := bootStep6_spec (s.bootStep5 v) v
  rw [lasting_of_kept h5, boot_of_kept h5] at h6
  rw [bootStep7_spec, lasting_of_kept h6, boot_of_kept h6]
/-- Steps 4 to 8 change of the boot state only the step and whether bring-up has failed. -/
theorem bringUp4_spec {s : State} (v : BootEnv) (h3 : s.boot.step = 3) : (s.bringUp4 v).lasting = s.lasting ∧ ∃ n f, (s.bringUp4 v).boot = { s.boot with step := n, failed := f } ∧ 3 ≤ n ∧ n < 8 := by
  have h4 := bootStep4_spec s v
  rw [State.bringUp4]
  obtain ⟨u, hu⟩ : ∃ u, u = s.bootStep4 v := ⟨_, rfl⟩
  rw [← hu] at h4 ⊢
  rcases h4 with h4 | h4
  · have hb := boot_of_kept h4
    have h7 := bootSteps567_spec u v
    rw [lasting_of_kept h4, hb] at h7
    dsimp only
    rw [if_pos (by rw [hb])]
    rcases bootStep8_spec (((u.bootStep5 v).bootStep6 v).bootStep7) with h8 | h8
    · have h := h8.trans h7
      exact ⟨lasting_of_kept h, 7, s.boot.failed, boot_of_kept h, by omega, by omega⟩
    · rw [lasting_of_kept h7, boot_of_kept h7] at h8
      exact ⟨lasting_of_kept h8, 7, true, boot_of_kept h8, by omega, by omega⟩
  · have hb := boot_of_kept h4
    dsimp only
    rw [if_neg (by rw [hb]; simp [h3])]
    exact ⟨lasting_of_kept h4, 3, true, by rw [hb, ← h3], by omega, by omega⟩
/-- Bring-up from step 2 on ends at a step before 8, at step 2 in test mode. -/
theorem bringUp2_spec (s : State) (v : BootEnv) : (s.bringUp2 v).lasting = s.lasting ∧ (s.bringUp2 v).boot.duties = s.boot.duties ∧ 2 ≤ (s.bringUp2 v).boot.step ∧ (s.bringUp2 v).boot.step < 8 ∧
    (s.svc.testMode = true → (s.bringUp2 v).boot.step = 2) := by
  obtain ⟨s1, hs1⟩ : ∃ s1 : State, s1 = { s with boot := { s.boot with step := 2 } } := ⟨_, rfl⟩
  have hl1 : s1.lasting = s.lasting := by rw [hs1]; rfl
  have hd1 : s1.boot.duties = s.boot.duties := by rw [hs1]; rfl
  have hs2 : s1.boot.step = 2 := by rw [hs1]
  have hs3 : s1.svc.testMode = s.svc.testMode := by rw [hs1]
  have hdef : s.bringUp2 v = if s1.svc.testMode then s1 else if (s1.bootStep3 v.flash).boot.step = 3 then (s1.bootStep3 v.flash).bringUp4 v else s1.bootStep3 v.flash := by
    rw [hs1]
    rfl
  rw [hdef]
  split
  · exact ⟨hl1, hd1, Nat.le_of_eq hs2.symm, hs2 ▸ by decide, fun _ => hs2⟩
  · next ht =>
    obtain ⟨hl, hd, hstep, -⟩ := bootStep3_spec s1 v.flash
    split
    · next h3 =>
      obtain ⟨hl4, n, f, hb, hn, hn8⟩ := bringUp4_spec v h3
      rw [hb]
      exact ⟨hl4.trans (hl.trans hl1), hd.trans hd1, Nat.le_trans (by decide) hn, hn8, fun h => absurd (hs3.trans h) ht⟩
    · next h3 =>
      have h2 : (s1.bootStep3 v.flash).boot.step = 2 := (hstep.resolve_right h3).trans hs2
      exact ⟨hl.trans hl1, hd.trans hd1, Nat.le_of_eq h2.symm, h2 ▸ by decide, fun _ => h2⟩

end Sys2Proof.Machine
end
section
/-! Resets: what an assertion clears, and how bring-up begins (R425 to R427, R454, R514, R516, R543, R544). -/
namespace Sys2Proof.Machine

/-! ### What a reset leaves -/

theorem settled_cleared (s : State) (k : ResetKind) : (s.cleared k).settled = true := by
  have hsvc : (s.cleared k).svc.mode = 0 ∧ (s.cleared k).svc.toMirror = [] := by
    unfold State.cleared
    dsimp only
    split <;> exact ⟨rfl, rfl⟩
  obtain ⟨hmode, hmirror⟩ := hsvc
  refine (settled_iff _).mpr ⟨rfl, rfl, rfl, rfl, hmirror, ?_, rfl, rfl⟩
  rw [State.goingDown, hmode]
  rfl
theorem cleared_cold (s : State) : (s.cleared 0).svc = { strap := s.svc.strap, testMode := s.svc.testMode } ∧ (s.cleared 0).mem = [] := ⟨rfl, rfl⟩
theorem cleared_warm (s : State) : (s.cleared 1).svc = { strap := s.svc.strap, testMode := s.svc.testMode, log := s.svc.log, head := s.svc.head, count := s.svc.count, classCnt := s.svc.classCnt } ∧
    (s.cleared 1).mem = s.mem.filter fun c => decide (c.1 < 4 * hbmQuarter) := ⟨rfl, rfl⟩
/-- The stations of the part stand in self-refresh, and nothing else of a range changes. -/
theorem stationsRest_spec {s : State} (hwf : SMapWf ({} : Range) s.ranges = true) :
    ∃ rs, s.stationsRest = { s with ranges := rs } ∧ (∀ q, q < 4 → (get ({} : Range) q rs).stn.selfref = true) ∧ ∀ q, (get ({} : Range) q rs).halted = (s.range q).halted := by
  have hfold : ∀ (l : List Nat) (u : State), SMapWf ({} : Range) u.ranges = true → ∃ rs, l.foldl (fun s q => s.setStn q { s.stn q with selfref := true }) u = { u with ranges := rs } ∧
      (∀ q, q ∈ l ∨ (u.stn q).selfref = true → (get ({} : Range) q rs).stn.selfref = true) ∧ ∀ q, (get ({} : Range) q rs).halted = (u.range q).halted := by
    intro l
    induction l with
    | nil => exact fun u _ => ⟨u.ranges, rfl, fun q h => h.resolve_left (List.not_mem_nil), fun q => rfl⟩
    | cons k l ih =>
      intro u hu
      obtain ⟨z, hz⟩ : ∃ z, z = u.setStn k { u.stn k with selfref := true } := ⟨_, rfl⟩
      have hzranges : z.ranges = put {} k { u.range k with stn := { u.stn k with selfref := true } } u.ranges := by rw [hz]; rfl
      have hsame : (z.stn k).selfref = true ∧ (z.range k).halted = (u.range k).halted := by
        rw [State.stn, State.range, hzranges, get_put_same]
        exact ⟨rfl, rfl⟩
      have hne {q : Nat} (hq : q ≠ k) : z.range q = u.range q := by
        rw [State.range, hzranges, get_put_ne _ _ _ _ _ hu hq]
        rfl
      obtain ⟨rs, hrs, hself, hhalt⟩ := ih z (by rw [hzranges]; exact put_wf hu)
      refine ⟨rs, ?_, fun q hq => ?_, fun q => ?_⟩
      · rw [List.foldl_cons, ← hz, hrs, hz]
        rfl
      · by_cases hqk : q = k
        · exact hself q (.inr (hqk ▸ hsame.1))
        · refine hself q (hq.imp (fun h => (List.mem_cons.mp h).resolve_left hqk) fun h => ?_)
          rw [State.stn, hne hqk]
          exact h
      · by_cases hqk : q = k
        · rw [hhalt q, hqk, hsame.2]
        · rw [hhalt q, hne hqk]
  obtain ⟨rs, hrs, hself, hhalt⟩ := hfold (List.range 4) s hwf
  exact ⟨rs, hrs, fun q hq => hself q (.inl (List.mem_range.mpr hq)), hhalt⟩
theorem scramble_spec (s : State) : ∃ m f, s.scramble = { s with mem := m, fresh := f } ∧ ((∀ q, q < 4 → (s.stn q).cmds = [] ∧ (s.stn q).serving = []) → m = s.mem) := by
  have hfold (b : State → Nat → Bytes) : ∀ (us : List Nat) (u : State), ∃ m, us.foldl (fun s a => { s with mem := writeBytes s.mem a (b s a) }) u = { u with mem := m } := by
    intro us
    induction us with
    | nil => exact fun u => ⟨u.mem, rfl⟩
    | cons a us ih =>
      intro u
      obtain ⟨m, hm⟩ := ih { u with mem := writeBytes u.mem a (b u a) }
      exact ⟨m, hm⟩
  unfold State.scramble
  extract_lets units s1
  obtain ⟨m, hm⟩ : ∃ m, s1 = { s with mem := m } := hfold _ units s
  refine ⟨s1.mem, s1.fresh + 1, ?_, fun hquiet => ?_⟩
  · rw [hm]
  · have hunits : units = [] := by
      refine List.flatMap_eq_nil_iff.mpr fun q hq => ?_
      obtain ⟨hcmds, hserving⟩ := hquiet q (List.mem_range.mp hq)
      rw [hcmds, hserving]
      rfl
    unfold s1
    rw [hunits]
    rfl

/-! ### Assertions -/

theorem exec_coldPin {s : State} {ns : Nat} (hns : 50 ≤ ns) (hoff : s.pwr.off = false) :
    exec (.coldResetNAssert ns) s = .next { s.cleared 0 with boot := { (s.cleared 0).boot with held := s.boot.held ||| 1, cause := 0 } } := by
  change (s.coldPin ns).ends = _
  rw [State.coldPin, if_neg (by simp [hoff, hns]), State.coldAssert]
  exact ends_settled _ (settled_cleared s 0)
theorem exec_coldPin_filtered {s : State} {ns : Nat} (hset : s.settled = true) (hns : ns < 50) : exec (.coldResetNAssert ns) s = .next s := by
  change (s.coldPin ns).ends = _
  rw [State.coldPin, if_pos (.inl hns)]
  exact ends_settled _ hset
theorem exec_warmPin_filtered {s : State} {ns : Nat} (hset : s.settled = true) (hns : ns < 50) : exec (.warmResetNAssert ns) s = .next s := by
  change (s.warmPin ns).ends = _
  rw [State.warmPin, if_pos (.inl hns)]
  exact ends_settled _ hset
/-- A warm assertion under a cold one is only noted. -/
theorem exec_warmPin_noted {s : State} {ns : Nat} (hset : s.settled = true) (hns : 50 ≤ ns) (hoff : s.pwr.off = false) (hheld : s.boot.held.getLsbD 0 = true) :
    exec (.warmResetNAssert ns) s = .next { s with boot := { s.boot with held := s.boot.held ||| 2 } } := by
  change (s.warmPin ns).ends = _
  rw [State.warmPin, if_neg (by simp [hoff, hns]), if_pos hheld]
  exact ends_settled _ hset
/-- What a warm assertion, or a RESTART, leaves of the part, with the boot state `f` makes of it. -/
theorem warm_cleared (s : State) (k : ResetKind) (f : Boot → Boot) (hf : (f ((s.scramble.cleared k).boot)).work = []) :
    ∃ s', s' = { (s.scramble.cleared k).stationsRest with boot := f (s.scramble.cleared k).boot } ∧ s'.settled = true ∧ (∀ q, q < 4 → (s'.stn q).selfref = true) ∧
      s'.svc = (s.scramble.cleared k).svc ∧ s'.mem = (s.scramble.cleared k).mem ∧ s'.hobs = [] ∧ s'.gates = [] ∧ s'.flg = {} ∧ s'.stk = {} ∧ s'.com = {} ∧ s'.pwr.rails = s.pwr.rails := by
  obtain ⟨m, g, hm, -⟩ := scramble_spec s
  obtain ⟨rs, hrs, hself, -⟩ := stationsRest_spec (s := s.scramble.cleared k) rfl
  obtain ⟨h1, h2, h3, -, h5, h6, h7, h8⟩ := (settled_iff _).mp (settled_cleared s.scramble k)
  refine ⟨_, rfl, ?_⟩
  rw [hrs]
  exact ⟨(settled_iff _).mpr ⟨h1, h2, h3, hf, h5, h6, h7, h8⟩, hself, rfl, rfl, rfl, rfl, rfl, rfl, rfl, by rw [hm]; rfl⟩

end Sys2Proof.Machine
end
section
/-! Resets asserted and released, power lost, RESTART: each begins bring-up where nothing holds it (R425 to R427, R454, R514, R516, R543, R544). -/
namespace Sys2Proof.Machine

/-! ### Bring-up begins -/

/-- The rails that are off, in the order in which they are turned on. -/
def State.offRails (s : State) : List Nat := onOrder.filter fun r => !s.pwr.rails.getLsbD r
theorem offRails_nil {s : State} (h : ∀ r, r < 7 → s.pwr.rails.getLsbD r = true) : s.offRails = [] := by
  refine List.filter_eq_nil_iff.mpr fun r hr => ?_
  have hr7 : r < 7 := by
    simp [onOrder] at hr
    omega
  simp [h r hr7]
theorem bootStep1_spec (s : State) : ∃ f b, s.bootStep1 = { s with fresh := f, boot := b } ∧ b.duties = s.boot.duties ∧ b.step = 1 := by
  have hburn : ∃ f b, s.settleBurn = { s with fresh := f, boot := b } ∧ b.duties = s.boot.duties := by
    unfold State.settleBurn
    split
    · exact ⟨s.fresh, s.boot, rfl, rfl⟩
    · exact ⟨_, _, rfl, rfl⟩
  obtain ⟨f, b, hb, hduties⟩ := hburn
  unfold State.bootStep1
  rw [hb]
  exact ⟨_, _, rfl, hduties, rfl⟩
theorem railsUp_spec (s : State) : ∃ o, s.railsUp = { s with pwr := { s.pwr with railSeq := s.offRails, railOn := true }, out := o } ∧
    (s.offRails = [] → o = s.out) ∧ ∀ r rest, s.offRails = r :: rest → o = s.out ++ [.bytes "OPERATION" [BitVec.ofNat 8 r, 0x80]] := by
  unfold State.railsUp
  dsimp only
  rw [← State.offRails]
  cases hseq : s.offRails with
  | nil => exact ⟨s.out, rfl, fun _ => rfl, fun _ _ h => by simp at h⟩
  | cons r rest =>
    refine ⟨_, rfl, fun h => by simp at h, fun r' rest' h => ?_⟩
    obtain ⟨rfl, rfl⟩ := List.cons.inj h
    rfl
theorem bringUp2_ends {a : State} (ha : a.settled = true) (v : BootEnv) : ∃ s', (a.bringUp2 v).ends = .next s' ∧ s'.lasting = a.lasting ∧ s'.boot.duties = a.boot.duties ∧
    2 ≤ s'.boot.step ∧ s'.boot.step < 8 ∧ (a.svc.testMode = true → s'.boot.step = 2) := by
  obtain ⟨hl, hd, h2, h8, ht⟩ := bringUp2_spec a v
  have hwork : (a.bringUp2 v).boot.work = [] := (congrArg (fun d => d.2.2.2.2) hd :).trans ((settled_iff a).mp ha).2.2.2.1
  obtain ⟨s', hends, hk⟩ := ends_kept ha hl hwork
  have hb : s'.boot = (a.bringUp2 v).boot := congrArg Prod.snd hk
  rw [← hb] at hd h2 h8 ht
  exact ⟨s', hends, (congrArg Prod.fst hk :).trans hl, hd, h2, h8, ht⟩
/-- A reset's bring-up with every rail on goes on from step 2. -/
theorem bringUp_up {s : State} (hs : s.settled = true) (hup : s.offRails = []) (v : BootEnv) : ∃ s', (s.bringUp v).ends = .next s' ∧ s'.svc.strap = s.svc.strap ∧ s'.svc.testMode = s.svc.testMode ∧
    s'.boot.duties = s.boot.duties ∧ s'.com.tag = 0 ∧ s'.com.tagLocked = false ∧ s'.stk.started = s.stk.started ∧ 2 ≤ s'.boot.step ∧ s'.boot.step < 8 ∧ (s.svc.testMode = true → s'.boot.step = 2) := by
  obtain ⟨f, b, hb1, hd1, -⟩ := bootStep1_spec s.freshTag
  obtain ⟨o, ho, -, -⟩ := railsUp_spec s.freshTag.bootStep1
  obtain ⟨a, ha⟩ : ∃ a, a = s.freshTag.bootStep1.railsUp := ⟨_, rfl⟩
  have hoff : s.freshTag.bootStep1.offRails = [] := by rw [hb1]; exact hup
  have hae : a = { s.freshTag with fresh := f, boot := b, pwr := { s.pwr with railSeq := [], railOn := true }, out := o } := by
    rw [ha, ho, hoff, hb1]
    rfl
  have haset : a.settled = true := by
    obtain ⟨h1, h2, h3, h4, h5, h6, h7, h8⟩ := (settled_iff s).mp hs
    rw [hae]
    exact (settled_iff _).mpr ⟨h1, h2, h3, (congrArg (fun d => d.2.2.2.2) hd1 :).trans h4, h5, h6, h7, h8⟩
  have hbring : s.bringUp v = a.bringUp2 v := by
    rw [State.bringUp, ← ha]
    exact if_pos (by rw [hae])
  obtain ⟨s', hends, hl, hd, h2, h8, ht⟩ := bringUp2_ends haset v
  obtain ⟨-, ⟨hstrap, htest, -⟩, ⟨htag, hlock⟩, ⟨hstarted, -⟩, -⟩ := lasting_eq_iff.mp hl
  have hatest : a.svc.testMode = s.svc.testMode := by rw [hae]; rfl
  rw [hbring]
  refine ⟨s', hends, hstrap.trans (by rw [hae]; rfl), htest.trans hatest, hd.trans ?_, htag.trans (by rw [hae]; rfl), hlock.trans (by rw [hae]; rfl), hstarted.trans (by rw [hae]; rfl), h2, h8,
    fun h => ht (hatest.trans h)⟩
  rw [hae]
  exact hd1
/-- With a rail off it waits at step 1, the first rail commanded on. -/
theorem bringUp_waits {s : State} (hs : s.settled = true) {r : Nat} {rest : List Nat} (hseq : s.offRails = r :: rest) (v : BootEnv) : ∃ s', (s.bringUp v).ends = .next s' ∧ s'.svc = s.svc ∧
    s'.boot.duties = s.boot.duties ∧ s'.boot.step = 1 ∧ s'.pwr.railSeq = r :: rest ∧ s'.pwr.railOn = true ∧ s'.out = s.out ++ [.bytes "OPERATION" [BitVec.ofNat 8 r, 0x80]] := by
  obtain ⟨f, b, hb1, hd1, hstep⟩ := bootStep1_spec s.freshTag
  obtain ⟨o, ho, -, hout⟩ := railsUp_spec s.freshTag.bootStep1
  obtain ⟨a, ha⟩ : ∃ a, a = s.freshTag.bootStep1.railsUp := ⟨_, rfl⟩
  have hoff : s.freshTag.bootStep1.offRails = r :: rest := by rw [hb1]; exact hseq
  have hae : a = { s.freshTag with fresh := f, boot := b, pwr := { s.pwr with railSeq := r :: rest, railOn := true }, out := s.out ++ [.bytes "OPERATION" [BitVec.ofNat 8 r, 0x80]] } := by
    rw [ha, ho, hoff, hout r rest hoff, hb1]
    rfl
  have haset : a.settled = true := by
    obtain ⟨h1, h2, h3, h4, h5, h6, h7, h8⟩ := (settled_iff s).mp hs
    rw [hae]
    exact (settled_iff _).mpr ⟨h1, h2, h3, (congrArg (fun d => d.2.2.2.2) hd1 :).trans h4, h5, h6, h7, h8⟩
  have hbring : s.bringUp v = a := by
    rw [State.bringUp, ← ha]
    exact if_neg (by rw [hae]; simp)
  rw [hbring]
  refine ⟨a, ends_settled a haset, ?_⟩
  rw [hae]
  exact ⟨rfl, hd1, hstep, rfl, rfl, rfl⟩

end Sys2Proof.Machine
end
section
/-! O55's first half: the resets (R13, R425 to R427, R454, R514, R516, R544). -/
namespace Sys2Proof.Machine

/-- What a warm assertion makes of the boot state. -/
def Boot.warmHeld (cold : Bool) (b : Boot) : Boot := { b with cause := if cold then 0 else 1, held := 2 }
theorem warmAssert_held (s : State) : ({ s.warmAssert with boot := { s.warmAssert.boot with held := 2 } } : State) =
    { (s.scramble.cleared (if s.coldBringUp then 0 else 1)).stationsRest with boot := Boot.warmHeld s.coldBringUp (s.scramble.cleared (if s.coldBringUp then 0 else 1)).boot } := by
  obtain ⟨rs, hrs, -⟩ := stationsRest_spec (s := s.scramble.cleared (if s.coldBringUp then 0 else 1)) rfl
  rw [State.warmAssert, hrs]
  rfl
theorem exec_warmPin {s : State} {ns : Nat} (hns : 50 ≤ ns) (hoff : s.pwr.off = false) (hheld : s.boot.held.getLsbD 0 = false) :
    ∃ s', exec (.warmResetNAssert ns) s = .next s' ∧ s'.boot.held = 2 ∧ s'.boot.step = 0 ∧ s'.boot.ledger = s.boot.ledger ∧ s'.hobs = [] ∧ s'.gates = [] ∧ s'.flg = {} ∧ s'.stk = {} ∧ s'.com = {} ∧
      (∀ q, q < 4 → (s'.stn q).selfref = true) ∧
      (s.coldBringUp = false → s'.boot.cause = 1 ∧ s'.svc.log = s.svc.log ∧ s'.svc.head = s.svc.head ∧
        ((∀ q, q < 4 → (s.stn q).cmds = [] ∧ (s.stn q).serving = []) → s'.mem = s.mem.filter (fun c => decide (c.1 < 4 * hbmQuarter)))) ∧
      (s.coldBringUp = true → s'.boot.cause = 0 ∧ s'.svc.log = [] ∧ s'.mem = []) := by
  obtain ⟨m, g, hm, hmem⟩ := scramble_spec s
  obtain ⟨s', hs', hset, hself, hsvc, hs'mem, hhobs, hgates, hflg, hstk, hcom, -⟩ := warm_cleared s (if s.coldBringUp then 0 else 1) (Boot.warmHeld s.coldBringUp) rfl
  have hexec : exec (.warmResetNAssert ns) s = .next s' := by
    change (s.warmPin ns).ends = _
    rw [State.warmPin, if_neg (by simp [hoff, hns]), if_neg (by rw [hheld]; exact Bool.false_ne_true)]
    dsimp only
    rw [warmAssert_held, ← hs']
    exact ends_settled s' hset
  have hboot : s'.boot = Boot.warmHeld s.coldBringUp (s.scramble.cleared (if s.coldBringUp then 0 else 1)).boot := by rw [hs']
  refine ⟨s', hexec, by rw [hboot]; rfl, by rw [hboot]; rfl, ?_, hhobs, hgates, hflg, hstk, hcom, hself, fun hcold => ?_, fun hcold => ?_⟩
  · rw [hboot, hm]
    rfl
  · rw [hcold] at hsvc hs'mem hboot
    obtain ⟨hwarm, hfilter⟩ := cleared_warm s.scramble
    refine ⟨by rw [hboot]; rfl, ?_, ?_, fun hquiet => ?_⟩
    · exact (congrArg Service.log (hsvc.trans hwarm) :).trans (by rw [hm])
    · exact (congrArg Service.head (hsvc.trans hwarm) :).trans (by rw [hm])
    · refine (hs'mem.trans hfilter).trans ?_
      rw [hm, hmem hquiet]
  · rw [hcold] at hsvc hs'mem hboot
    obtain ⟨hcleared, hnone⟩ := cleared_cold s.scramble
    exact ⟨by rw [hboot]; rfl, (congrArg Service.log (hsvc.trans hcleared) :), hs'mem.trans hnone⟩
theorem exec_powerLoss (s : State) : exec .powerLoss s = .next { s.cleared 0 with svc := {}, tap := {}, pwr := { ({} : Power) with off := true }, boot := { (s.cleared 0).boot with held := 1, cause := 0 } } := by
  change s.powerLoss.ends = _
  exact ends_settled _ rfl

/-! ### The last rail off -/

/-- The device that feeds a rail has acknowledged its address. -/
theorem railNaks_zero (s : State) (r : Nat) : ∃ ps, s.railNaks r 0 = { s with pwr := { s.pwr with pmbNaks := ps } } ∧ (s.railDevice r = none → ps = s.pwr.pmbNaks) ∧
    ∀ d, s.railDevice r = some d → ps = put 0 d 0 s.pwr.pmbNaks := by
  unfold State.railNaks
  cases s.railDevice r with
  | none => exact ⟨s.pwr.pmbNaks, rfl, fun _ => rfl, fun d h => by simp at h⟩
  | some d => exact ⟨_, rfl, fun h => by simp at h, fun d' h => by rw [Option.some.inj h]⟩
/-- A part that has powered itself down has nothing left to stop. -/
theorem powerDown_ends (s : State) : ∃ s', s.powerDown.ends = .next s' ∧ s'.pwr.railSeq = [] ∧ s'.pwr.rails = s.pwr.rails ∧ s'.pwr.sleeping = true ∧ s'.pwr.bank = (if s.pwr.cold = true then 2 else 1) ∧
    s'.hobs = [] ∧ s'.gates = [] := by
  obtain ⟨rs, k, hk, hdown, hhalt⟩ : ∃ rs k, k = (if s.pwr.cold then 3 else 2) ∧
      s.powerDown = { s.cleared k with ranges := rs, pwr := { (s.cleared k).pwr with bank := k - 1, sleeping := true, cold := s.pwr.cold } } ∧ ∀ q, (get ({} : Range) q rs).halted = false := by
    cases hcold : s.pwr.cold with
    | true => exact ⟨[], 3, rfl, by rw [State.powerDown, hcold]; rfl, fun q => rfl⟩
    | false =>
      obtain ⟨rs, hrs, -, hhalt⟩ := stationsRest_spec (s := s.cleared 2) rfl
      refine ⟨rs, 2, rfl, ?_, fun q => (hhalt q).trans rfl⟩
      rw [State.powerDown, hcold]
      exact (congrArg (fun u : State => { u with pwr := { u.pwr with bank := 1, sleeping := true, cold := false } }) hrs).trans rfl
  obtain ⟨h1, h2, h3, h4, h5, -, h7, -⟩ := (settled_iff _).mp (settled_cleared s k)
  obtain ⟨z, hz⟩ : ∃ z, z = s.powerDown := ⟨_, rfl⟩
  have hze := hz.trans hdown
  have hsleep : z.pwr.sleeping = true := by rw [hze]
  have hgoing : z.goingDown = true := by simp [State.goingDown, hsleep]
  have hmode : z.svc.mode ≠ 4 := by
    have hk1 : k ≠ 1 := by
      rw [hk]
      split <;> decide
    have hsvc : (s.cleared k).svc = { strap := s.svc.strap, testMode := s.svc.testMode } := by
      unfold State.cleared
      exact if_neg hk1
    rw [hze]
    intro h
    have h0 : (0 : Nat) = 4 := (congrArg Service.mode hsvc :).symm.trans h
    contradiction
  have hrun : ∀ q, q < 4 → z.stopped q = false := by
    intro q _
    have hq : (z.range q).halted = false := by
      rw [hze]
      exact hhalt q
    simp [State.stopped, hq]
  have hexit : z.dropExit [] = z := by
    rw [State.dropExit, if_neg]
    rw [hze]
    exact Bool.false_ne_true
  have hshut : z.shutdown = z := (shutdown_of_running hmode hrun hgoing).trans hexit
  have hquiet : z.QuietEnd := by
    rw [hze]
    exact ⟨h1, h2, h3, h4, h5, h7⟩
  rw [← hz]
  refine ⟨z, ends_goingDown hquiet.2.2.2.2.2 hshut hquiet hgoing, ?_⟩
  rw [hze, hk]
  refine ⟨rfl, rfl, rfl, ?_, rfl, rfl⟩
  cases s.pwr.cold <;> rfl
theorem exec_lastRailOff {s : State} {r : Nat} (hseq : s.pwr.railSeq = [r]) (hon : s.pwr.railOn = false) (hheld : s.boot.held = 0) (v : BootEnv) {rail : Fin 10} (hrail : rail.val = r) :
    ∃ s', exec (.powerGoodReport rail .off v) s = .next s' ∧ s'.pwr.railSeq = [] ∧ s'.pwr.rails = s.pwr.rails &&& ~~~(BitVec.twoPow 10 r) ∧ s'.pwr.sleeping = true ∧
      s'.pwr.bank = (if s.pwr.cold = true then 2 else 1) ∧ s'.hobs = [] ∧ s'.gates = [] := by
  obtain ⟨z, hz⟩ : ∃ z : State, z = { s.railNaks r 0 with pwr := { (s.railNaks r 0).pwr with railSeq := [], rails := s.pwr.rails &&& ~~~(BitVec.twoPow 10 r) } } := ⟨_, rfl⟩
  have hreport : s.railReport rail.val .off v = z.powerDown := by
    simp only [State.railReport, hseq, hrail, hheld, and_self, if_true, State.railOutput, hon, Bool.false_eq_true, if_false, hz]
  have hcold : z.pwr.cold = s.pwr.cold := by
    obtain ⟨ps, hps, -⟩ := railNaks_zero s r
    rw [hz, hps]
  obtain ⟨s', hends, hseq', hrails, hsleep, hbank, hhobs, hgates⟩ := powerDown_ends z
  refine ⟨s', ?_, hseq', hrails.trans (by rw [hz]), hsleep, by rw [← hcold]; exact hbank, hhobs, hgates⟩
  change (s.railReport rail.val .off v).ends = _
  rw [hreport]
  exact hends

/-! ### Releases -/

/-- What a cold release with no other reset asserted brings up. -/
def State.released (s : State) (strap : Nat) (jtag : Bool) : State :=
  { s with svc := { s.svc with strap := strap, testMode := jtag }, pwr := { s.pwr with off := false }, boot := { s.boot with held := 0, cause := 0 } }
theorem exec_coldReset {s : State} (hheld : s.boot.held = 1) (strap : Fin 8) (jtag : Bool) (v : BootEnv) : exec (.coldReset strap jtag v) s = ((s.released strap.val jtag).bringUp v).ends := by
  change (s.coldRelease strap.val jtag v).ends = _
  rw [State.coldRelease, if_pos (by rw [hheld]; decide)]
  dsimp only
  rw [hheld]
  rfl
theorem exec_warmReset {s : State} (hheld : s.boot.held = 2) (v : BootEnv) : exec (.warmReset v) s = (({ s with boot := { s.boot with held := 0 } } : State).bringUp v).ends := by
  change (s.warmRelease v).ends = _
  rw [State.warmRelease, if_pos (by rw [hheld]; decide)]
  dsimp only
  rw [hheld]
  rfl
theorem settled_released {s : State} (hset : s.settled = true) (strap : Nat) (jtag : Bool) : (s.released strap jtag).settled = true := hset
theorem duties_eq_iff {a b : Boot} : b.duties = a.duties ↔ b.held = a.held ∧ b.cause = a.cause ∧ b.session = a.session ∧ b.restart = a.restart ∧ b.work = a.work := by simp [Boot.duties]
theorem coldReset_up {s : State} (hset : s.settled = true) (hup : s.offRails = []) (hheld : s.boot.held = 1) (strap : Fin 8) (jtag : Bool) (v : BootEnv) :
    ∃ s', exec (.coldReset strap jtag v) s = .next s' ∧ s'.svc.strap = strap ∧ s'.svc.testMode = jtag ∧ s'.boot.held = 0 ∧ s'.boot.cause = 0 ∧ s'.com.tag = 0 ∧
      s'.com.tagLocked = false ∧ 2 ≤ s'.boot.step ∧ s'.boot.step < 8 ∧ (jtag = true → s'.boot.step = 2) := by
  obtain ⟨s', hends, hstrap, htest, hd, htag, hlock, -, h2, h8, ht⟩ := bringUp_up (settled_released hset strap.val jtag) hup v
  obtain ⟨hheld', hcause, -⟩ := duties_eq_iff.mp hd
  exact ⟨s', (exec_coldReset hheld strap jtag v).trans hends, hstrap, htest, hheld', hcause, htag, hlock, h2, h8, ht⟩
theorem coldReset_waits {s : State} (hset : s.settled = true) {r : Nat} {rest : List Nat} (hseq : s.offRails = r :: rest) (hheld : s.boot.held = 1) (strap : Fin 8) (jtag : Bool) (v : BootEnv) :
    ∃ s', exec (.coldReset strap jtag v) s = .next s' ∧ s'.svc.strap = strap ∧ s'.svc.testMode = jtag ∧ s'.boot.held = 0 ∧ s'.boot.cause = 0 ∧ s'.boot.step = 1 ∧ s'.pwr.railSeq = r :: rest ∧
      s'.pwr.railOn = true ∧ s'.out = s.out ++ [.bytes "OPERATION" [BitVec.ofNat 8 r, 0x80]] := by
  obtain ⟨s', hends, hsvc, hd, hstep, hs, hon, hout⟩ := bringUp_waits (settled_released hset strap.val jtag) hseq v
  obtain ⟨hheld', hcause, -⟩ := duties_eq_iff.mp hd
  exact ⟨s', (exec_coldReset hheld strap jtag v).trans hends, congrArg Service.strap hsvc, congrArg Service.testMode hsvc, hheld', hcause, hstep, hs, hon, hout⟩
theorem warmReset_up {s : State} (hset : s.settled = true) (hup : s.offRails = []) (hheld : s.boot.held = 2) (v : BootEnv) : ∃ s', exec (.warmReset v) s = .next s' ∧ s'.boot.held = 0 ∧ s'.boot.cause = s.boot.cause ∧
    s'.com.tag = 0 ∧ s'.com.tagLocked = false ∧ 2 ≤ s'.boot.step ∧ s'.boot.step < 8 := by
  obtain ⟨s', hends, -, -, hd, htag, hlock, -, h2, h8, -⟩ := bringUp_up (s := { s with boot := { s.boot with held := 0 } }) hset hup v
  obtain ⟨hheld', hcause, -⟩ := duties_eq_iff.mp hd
  exact ⟨s', (exec_warmReset hheld v).trans hends, hheld', hcause, htag, hlock, h2, h8⟩
theorem warmReset_waits {s : State} (hset : s.settled = true) {r : Nat} {rest : List Nat} (hseq : s.offRails = r :: rest) (hheld : s.boot.held = 2) (v : BootEnv) :
    ∃ s', exec (.warmReset v) s = .next s' ∧ s'.boot.held = 0 ∧ s'.boot.cause = s.boot.cause ∧ s'.boot.step = 1 ∧ s'.pwr.railSeq = r :: rest ∧ s'.pwr.railOn = true ∧
      s'.out = s.out ++ [.bytes "OPERATION" [BitVec.ofNat 8 r, 0x80]] := by
  obtain ⟨s', hends, -, hd, hstep, hs, hon, hout⟩ := bringUp_waits (s := { s with boot := { s.boot with held := 0 } }) hset hseq v
  obtain ⟨hheld', hcause, -⟩ := duties_eq_iff.mp hd
  exact ⟨s', (exec_warmReset hheld v).trans hends, hheld', hcause, hstep, hs, hon, hout⟩
/-- With both resets asserted a release only ends its own. -/
theorem releases_both {s : State} (hset : s.settled = true) (hheld : s.boot.held = 3) (strap : Fin 8) (jtag : Bool) (v : BootEnv) :
    exec (.coldReset strap jtag v) s = .next { s with svc := { s.svc with strap := strap, testMode := jtag }, pwr := { s.pwr with off := false }, boot := { s.boot with held := 2, cause := 0 } } ∧
      exec (.warmReset v) s = .next { s with boot := { s.boot with held := 1 } } := by
  constructor
  · change (s.coldRelease strap.val jtag v).ends = _
    rw [State.coldRelease, if_pos (by rw [hheld]; decide)]
    dsimp only
    rw [hheld, if_neg (by decide)]
    exact ends_settled _ hset
  · change (s.warmRelease v).ends = _
    rw [State.warmRelease, if_pos (by rw [hheld]; decide)]
    dsimp only
    rw [hheld, if_neg (by decide)]
    exact ends_settled _ hset
theorem exec_coldReset_idle {s : State} (hset : s.settled = true) (hheld : s.boot.held.getLsbD 0 = false) (strap : Fin 8) (jtag : Bool) (v : BootEnv) : exec (.coldReset strap jtag v) s = .next s := by
  change (s.coldRelease strap.val jtag v).ends = _
  rw [State.coldRelease, if_neg (by rw [hheld]; exact Bool.false_ne_true)]
  exact ends_settled _ hset
theorem exec_warmReset_idle {s : State} (hset : s.settled = true) (hheld : s.boot.held.getLsbD 1 = false) (v : BootEnv) : exec (.warmReset v) s = .next s := by
  change (s.warmRelease v).ends = _
  rw [State.warmRelease, if_neg (by rw [hheld]; exact Bool.false_ne_true)]
  exact ends_settled _ hset

/-! ### RESTART -/

/-- What RESTART makes of the boot state. -/
def Boot.restarts (b : Boot) : Boot := { b with cause := 2 }
theorem restart_done {s : State} {id : Nat} (hid : s.boot.restart = some id) {el : Bool} (hnow : (el = true ∧ s.onPll = true) ∨ ((s.qp 0).state = 3 ∧ (s.qp 0).ops.any (fun o => o.id == id) = false))
    (hup : s.offRails = []) (v : BootEnv) : ∃ s', exec (.restartReset el v) s = .next s' ∧ s'.boot.cause = 2 ∧ s'.boot.session = 0 ∧ s'.boot.restart = none ∧ s'.com.tag = 0 ∧ s'.com.tagLocked = false ∧
      2 ≤ s'.boot.step ∧ s'.boot.step < 8 ∧ s'.stk.started = false := by
  obtain ⟨z, hz, hzset, -, -, -, -, -, -, hstk, -, hrails⟩ := warm_cleared s 1 Boot.restarts rfl
  have hboot : z.boot = Boot.restarts (s.scramble.cleared 1).boot := by rw [hz]
  have hzup : z.offRails = [] := by
    rw [State.offRails, hrails]
    exact hup
  obtain ⟨s', hends, -, -, hd, htag, hlock, hstarted, h2, h8, -⟩ := bringUp_up hzset hzup v
  obtain ⟨-, hcause, hsession, hrestart, -⟩ := duties_eq_iff.mp hd
  refine ⟨s', ?_, hcause.trans (by rw [hboot]; rfl), hsession.trans (by rw [hboot]; rfl), hrestart.trans (by rw [hboot]; rfl), htag, hlock, h2, h8, hstarted.trans (by rw [hstk])⟩
  change (s.restartNow el v).ends = _
  have hrestartNow : s.restartNow el v = z.bringUp v := by
    unfold State.restartNow
    rw [hid, hz]
    refine if_pos ?_
    simpa using hnow
  rw [hrestartNow]
  exact hends
theorem restart_waits {s : State} (hset : s.settled = true) {id : Nat} (hid : s.boot.restart = some id) {el : Bool} (hel : el = false ∨ s.onPll = false)
    (hreply : (s.qp 0).state ≠ 3 ∨ (s.qp 0).ops.any (fun o => o.id == id) = true) (v : BootEnv) : exec (.restartReset el v) s = .next s := by
  change (s.restartNow el v).ends = _
  have hnow : s.restartNow el v = s := by
    unfold State.restartNow
    rw [hid]
    refine if_neg ?_
    rw [Bool.or_eq_true, Bool.and_eq_true, Bool.and_eq_true, beq_iff_eq, Bool.not_eq_true']
    rintro (⟨h1, h2⟩ | ⟨h1, h2⟩)
    · rcases hel with h | h
      · rw [h] at h1
        contradiction
      · rw [h] at h2
        contradiction
    · rcases hreply with h | h
      · exact h h1
      · rw [h] at h2
        contradiction
  rw [hnow]
  exact ends_settled _ hset
theorem restart_none {s : State} (hset : s.settled = true) (hid : s.boot.restart = none) (el : Bool) (v : BootEnv) : exec (.restartReset el v) s = .next s := by
  change (s.restartNow el v).ends = _
  rw [State.restartNow, hid]
  exact ends_settled _ hset

end Sys2Proof.Machine
end
section
/-! O55's second half: retries, wakes and the rails (R394, R403, R421, R434, R442, R443, R515, R542, R543). -/
namespace Sys2Proof.Machine

/-! ### FLASH_RETRY -/

/-- A flash without a header leaves bring-up failed where it stands. -/
theorem bootStep3_none {s : State} {f : Flash} (hf : flashHeader f = none) : ∃ b0 b : Boot, s.bootStep3 f = { ({ s with boot := b0 } : State).log 0x0103 .fatal .service none [] with boot := b } ∧
    b0.work = s.boot.work ∧ b.work = s.boot.work ∧ b.step = s.boot.step ∧ b.failed = true ∧ b.verdictA = 7 ∧ b.verdictB = 7 := by
  obtain ⟨b, hread, hwork, hstep, hA, hB⟩ : ∃ b : Boot, s.readFlash f = ({ s with boot := b }, none) ∧ b.work = s.boot.work ∧ b.step = s.boot.step ∧ b.verdictA = 7 ∧ b.verdictB = 7 := by
    unfold State.readFlash
    rw [hf]
    exact ⟨_, rfl, rfl, rfl, rfl, rfl⟩
  refine ⟨b, { b with failed := true }, ?_, hwork, hwork, hstep, rfl, hA, hB⟩
  unfold State.bootStep3
  rw [hread]
  exact congrArg (fun c : Boot => ({ ({ s with boot := b } : State).log 0x0103 .fatal .service none [] with boot := { c with failed := true } } : State)) (log_boot ..)
theorem exec_flashRetry_none {s : State} (hset : s.settled = true) (v : BootEnv) (hstep : s.boot.step = 2) (hfailed : s.boot.failed = true) (hup : s.bringsUp = true) (hmirror : s.svc.mirrorEn = false)
    (hf : flashHeader v.flash = none) : ∃ s', exec (.flashRetry v) s = .next s' ∧ s'.boot.step = 2 ∧ s'.boot.failed = true ∧ s'.boot.verdictA = 7 ∧ s'.boot.verdictB = 7 ∧
      s'.svc.head = s.svc.head + 1 ∧ s'.hobs = s.hobs := by
  obtain ⟨b0, b, hboot, hwork0, hwork, hstep', hfail', hA, hB⟩ := bootStep3_none (s := s) hf
  have h2 : b.step = 2 := hstep'.trans hstep
  obtain ⟨g1, g2, g3, g4, g5, g6, g7, g8⟩ := (settled_iff s).mp hset
  obtain ⟨h1, h2', h3, -, h5, h6, h7, h8⟩ := (settled_iff _).mp ((settled_log (s := { s with boot := b0 }) hmirror 0x0103 .fatal .service none []).trans
    ((settled_iff _).mpr ⟨g1, g2, g3, hwork0.trans g4, g5, g6, g7, g8⟩))
  obtain ⟨z, hz⟩ : ∃ z : State, z = { ({ s with boot := b0 } : State).log 0x0103 .fatal .service none [] with boot := b } := ⟨_, rfl⟩
  have hzset : z.settled = true := by
    rw [hz]
    exact (settled_iff _).mpr ⟨h1, h2', h3, hwork.trans g4, h5, h6, h7, h8⟩
  have hretry : s.flashRetry v = z := by
    rw [State.flashRetry, if_pos ⟨hstep, hfailed, hup⟩, hboot, ← hz]
    refine if_neg ?_
    rw [hz]
    change ¬b.step = 3
    omega
  refine ⟨z, ?_, ?_⟩
  · change (s.flashRetry v).ends = _
    rw [hretry]
    exact ends_settled z hzset
  · rw [hz]
    exact ⟨h2, hfail', hA, hB, log_head .., log_hobs ..⟩
/-- A retry that finds a copy boots it. -/
theorem exec_flashRetry_boots {s : State} (hset : s.settled = true) (v : BootEnv) {ca cb : Copy} {k : Nat × Bool} (hstep : s.boot.step = 2) (hfailed : s.boot.failed = true) (hup : s.bringsUp = true)
    (hread : (s.readFlash v.flash).2 = some (ca, cb)) (hchoose : chooseCopy ca cb = some k) :
    ∃ s', exec (.flashRetry v) s = .next s' ∧ 3 ≤ s'.boot.step ∧ s'.boot.copy = k.1 ∧ s'.boot.gen = (if k.1 = 0 then ca.gen else cb.gen) := by
  obtain ⟨hl3, hd3, -, hboots⟩ := bootStep3_spec s v.flash
  obtain ⟨h3, hcopy, hgen⟩ := hboots ca cb k hread hchoose
  obtain ⟨hl4, n, f, hb, hn, -⟩ := bringUp4_spec v h3
  have hwork : ((s.bootStep3 v.flash).bringUp4 v).boot.work = [] := by
    rw [hb]
    exact (congrArg (fun d => d.2.2.2.2) hd3 :).trans ((settled_iff s).mp hset).2.2.2.1
  obtain ⟨s', hends, hk⟩ := ends_kept hset (hl4.trans hl3) hwork
  have hb' : s'.boot = { (s.bootStep3 v.flash).boot with step := n, failed := f } := (congrArg Prod.snd hk :).trans hb
  refine ⟨s', ?_, ?_⟩
  · change (s.flashRetry v).ends = _
    rw [State.flashRetry, if_pos ⟨hstep, hfailed, hup⟩]
    dsimp only
    rw [if_pos h3]
    exact hends
  · rw [hb']
    exact ⟨hn, hcopy, hgen⟩
theorem exec_flashRetry_idle {s : State} (hset : s.settled = true) (v : BootEnv) (h : s.boot.step ≠ 2 ∨ s.boot.failed = false ∨ s.bringsUp = false) : exec (.flashRetry v) s = .next s := by
  change (s.flashRetry v).ends = _
  rw [State.flashRetry, if_neg]
  · exact ends_settled s hset
  · rintro ⟨h1, h2, h3⟩
    simp [h1, h2, h3] at h

/-! ### ETH_WAIT and DEPLOY_SESSION_RETRY -/

theorem exec_ethWait {s : State} (hset : s.settled = true) (hstep : s.boot.step = 7) (hfailed : s.boot.failed = false) (hwait : s.boot.ethWait = false) (hup : s.bringsUp = true) (hpll : s.onPll = true)
    (hmirror : s.svc.mirrorEn = false) : exec .ethWait s = .next (({ s with boot := { s.boot with ethWait := true } }).log 0x0107 .info .service none [le s.repo 0 1]) := by
  change s.ethWaits.ends = _
  rw [State.ethWaits, if_pos ⟨hstep, hfailed, hwait, hup, hpll⟩]
  exact ends_settled _ ((settled_log (s := { s with boot := { s.boot with ethWait := true } }) hmirror ..).trans hset)
theorem exec_ethWait_idle {s : State} (hset : s.settled = true) (h : s.boot.step ≠ 7 ∨ s.boot.failed = true ∨ s.boot.ethWait = true ∨ s.bringsUp = false ∨ s.onPll = false) :
    exec .ethWait s = .next s := by
  change s.ethWaits.ends = _
  rw [State.ethWaits, if_neg]
  · exact ends_settled s hset
  · rintro ⟨h1, h2, h3, h4, h5⟩
    simp [h1, h2, h3, h4, h5] at h
/-- The deploy session is created: queue pair 0 connects to the repository. -/
theorem createQp0_spec (s : State) : ∃ (f : Nat) (x : Qp) (is : SMap Iface) (o : List Out), x.state = 2 ∧ x.sq = [] ∧ x.peerQp = some (le s.repo 2 2) ∧
    s.createQp0 = { s with fresh := f, boot := { s.boot with session := 1 }, trn := { s.trn with qps := put {} 0 x s.trn.qps, ifaces := is }, out := o } := by
  unfold State.createQp0
  extract_lets r v6 ipsn x
  obtain ⟨is, o, h⟩ := sendConnect_rest (({ s with fresh := s.fresh + 1, boot := { s.boot with session := 1 } } : State).setQp 0 x) 0 8
  exact ⟨s.fresh + 1, x, is, o, rfl, rfl, rfl, h⟩
/-- A part that is not going down has its Ethernet interfaces. -/
theorem ethOff_of_settled {s : State} (h : s.settled = true) : s.ethOff = false := by
  obtain ⟨hmode, hsleep⟩ : (s.svc.mode == 4) = false ∧ s.pwr.sleeping = false := by
    have hdown := ((settled_iff s).mp h).2.2.2.2.2.1
    simpa [State.goingDown] using hdown
  rw [State.ethOff, hmode, hsleep]
  rfl
theorem exec_sessionRetry {s : State} (hset : s.settled = true) (hqp : (s.qp 0).state = 4) (hstep : 8 ≤ s.boot.step) (hfatal : s.svc.fatalSvc = false) (hrestart : s.boot.restart = none) (hpll : s.onPll = true)
    (hwf : SMapWf ({} : Qp) s.trn.qps = true) : ∃ s', exec .deploySessionRetry s = .next s' ∧ (s'.qp 0).state = 2 ∧ (s'.qp 0).sq = [] ∧ (s'.qp 0).peerQp = some (le s.repo 2 2) ∧ s'.boot.session = 1 ∧
      s'.mem = s.mem ∧ s'.hobs = s.hobs ∧ s'.gates = s.gates := by
  obtain ⟨f, x, is, o, hstate, hsq, hpeer, hcreate⟩ := createQp0_spec s
  obtain ⟨z, hz⟩ : ∃ z, z = s.createQp0 := ⟨_, rfl⟩
  have hze := hz.trans hcreate
  have hzset : z.settled = true := by
    rw [hze]
    exact hset
  have hzqp : z.qp 0 = x := by
    rw [State.qp, hze]
    exact get_put_self _ _ _ _ hwf
  refine ⟨z, ?_, by rw [hzqp]; exact hstate, by rw [hzqp]; exact hsq, by rw [hzqp]; exact hpeer, by rw [hze], by rw [hze], by rw [hze], by rw [hze]⟩
  change s.sessionRetry.ends = _
  rw [State.sessionRetry, if_pos ⟨hqp, hstep, ethOff_of_settled hset, hfatal, hrestart, hpll⟩, ← hz]
  exact ends_settled z hzset
theorem exec_sessionRetry_idle {s : State} (hset : s.settled = true) (h : (s.qp 0).state ≠ 4 ∨ s.boot.step < 8 ∨ s.svc.fatalSvc = true ∨ s.boot.restart ≠ none ∨ s.onPll = false) :
    exec .deploySessionRetry s = .next s := by
  change s.sessionRetry.ends = _
  rw [State.sessionRetry, if_neg]
  · exact ends_settled s hset
  · rintro ⟨h1, h2, -, h4, h5, h6⟩
    simp [h1, h4, h5, h6] at h
    omega

/-! ### Wakes -/

/-- A wake turns on the rails that are off. -/
theorem wake_ends (s : State) : ∃ s', s.wake.ends = .next s' ∧ s'.pwr.bank = 0 ∧ s'.pwr.sleeping = false ∧ s'.boot.step = 1 ∧ s'.boot.cause = (if s.pwr.bank = 1 then 3 else 4) ∧
    s'.pwr.railSeq = s.offRails ∧ s'.boot.held = s.boot.held := by
  obtain ⟨k, rs, z, hk, hz, hwake⟩ : ∃ (k : ResetKind) (rs : SMap Range) (z : State), k + 1 = (if s.pwr.bank = 1 then 3 else 4) ∧
      z = { s.cleared k with ranges := rs, boot := { (s.cleared k).boot with cause := k + 1 } } ∧ s.wake = z.bootStep1.railsUp := by
    by_cases hbank : s.pwr.bank = 1
    · obtain ⟨rs, hrs, -⟩ := stationsRest_spec (s := s.cleared 2) rfl
      refine ⟨2, rs, _, by rw [if_pos hbank], rfl, ?_⟩
      rw [State.wake, hbank]
      exact (congrArg (fun u : State => ({ u with boot := { u.boot with cause := 3 } } : State).bootStep1.railsUp) hrs).trans rfl
    · refine ⟨3, [], _, by rw [if_neg hbank], rfl, ?_⟩
      rw [State.wake, if_neg hbank]
      rfl
  obtain ⟨f, b, hb, hd, hstep⟩ := bootStep1_spec z
  obtain ⟨o, ho, -⟩ := railsUp_spec z.bootStep1
  obtain ⟨hheld, hcause, -, -, hwork⟩ := duties_eq_iff.mp hd
  have hoff : z.bootStep1.offRails = s.offRails := by rw [hb, hz]; rfl
  have hrails : s.wake = { z with fresh := f, boot := b, pwr := { z.pwr with railSeq := s.offRails, railOn := true }, out := o } := by
    rw [hwake, ho, hoff, hb]
  obtain ⟨h1, h2, h3, h4, h5, h6, h7, h8⟩ := (settled_iff _).mp (settled_cleared s k)
  have hzwork : z.boot.work = [] := by rw [hz]; rfl
  have hzcause : z.boot.cause = k + 1 := by rw [hz]
  have hzheld : z.boot.held = s.boot.held := by rw [hz]; rfl
  have hset : s.wake.settled = true := by
    rw [hrails, hz]
    exact (settled_iff _).mpr ⟨h1, h2, h3, hwork.trans hzwork, h5, h6, h7, h8⟩
  refine ⟨s.wake, ends_settled _ hset, ?_⟩
  rw [hrails]
  exact ⟨by rw [hz]; rfl, by rw [hz]; rfl, hstep, (hcause.trans hzcause).trans hk, rfl, hheld.trans hzheld⟩
theorem exec_wakeN {s : State} {ns : Nat} (hbank : s.pwr.bank ≠ 0) (hns : wakeNs ≤ ns) : exec (.wakeN ns) s = s.wake.ends := by
  change (s.wakePin ns).ends = _
  rw [State.wakePin, if_pos ⟨hbank, hns⟩]
theorem exec_wakeN_idle {s : State} (hset : s.settled = true) {ns : Nat} (h : s.pwr.bank = 0 ∨ ns < wakeNs) : exec (.wakeN ns) s = .next s := by
  change (s.wakePin ns).ends = _
  rw [State.wakePin, if_neg]
  · exact ends_settled s hset
  · rintro ⟨h1, h2⟩
    rcases h with h | h
    · exact h1 h
    · omega
theorem exec_addressMatch {s : State} (hbank : s.pwr.bank = 1) : exec .sidebandAddressMatch s = s.wake.ends := by
  change (if s.pwr.bank = 1 then s.wake else s).ends = _
  rw [if_pos hbank]
theorem exec_addressMatch_idle {s : State} (hset : s.settled = true) (hbank : s.pwr.bank ≠ 1) : exec .sidebandAddressMatch s = .next s := by
  change (if s.pwr.bank = 1 then s.wake else s).ends = _
  rw [if_neg hbank]
  exact ends_settled s hset

/-! ### The rails -/

/-- What the regulators of the rails have not acknowledged, once that of rail `r` has. -/
def State.naksAfter (s : State) (r : Nat) : SMap Nat := (s.railNaks r 0).pwr.pmbNaks
theorem railNaks_eq (s : State) (r : Nat) : s.railNaks r 0 = { s with pwr := { s.pwr with pmbNaks := s.naksAfter r } } := by
  obtain ⟨ps, hps, -⟩ := railNaks_zero s r
  rw [State.naksAfter, hps]
theorem naksAfter_none {s : State} {r : Nat} (h : s.railDevice r = none) : s.naksAfter r = s.pwr.pmbNaks := by
  obtain ⟨ps, hps, hnone, -⟩ := railNaks_zero s r
  rw [State.naksAfter, hps]
  exact hnone h
theorem naksAfter_some {s : State} {r d : Nat} (h : s.railDevice r = some d) : s.naksAfter r = put 0 d 0 s.pwr.pmbNaks := by
  obtain ⟨ps, hps, -, hsome⟩ := railNaks_zero s r
  rw [State.naksAfter, hps]
  exact hsome d h

section
variable {s : State} {r : Nat} {rest : List Nat} {rail : Fin 10} (hset : s.settled = true) (hseq : s.pwr.railSeq = r :: rest) (hrail : rail.val = r) (hheld : s.boot.held = 0) (v : BootEnv)
include hset hseq hrail hheld

omit hset in
theorem exec_report (on : Bool) : exec (.powerGoodReport rail (if on then .on else .off) v) s = (s.railOutput r rest on v).ends := by
  have hreport : s.railReport rail.val (if on then .on else .off) v = s.railOutput r rest on v := by
    cases on <;> simp [State.railReport, hseq, hrail, hheld]
  change (s.railReport rail.val (if on then .on else .off) v).ends = _
  rw [hreport]
/-- The rail has done as commanded, and the next is commanded. -/
theorem exec_report_next {n : Nat} {rest' : List Nat} (hrest : rest = n :: rest') : exec (.powerGoodReport rail (if s.pwr.railOn then .on else .off) v) s =
    .next { s with pwr := { s.pwr with railSeq := n :: rest', pmbNaks := s.naksAfter r, rails := if s.pwr.railOn then s.pwr.rails ||| BitVec.twoPow 10 r else s.pwr.rails &&& ~~~(BitVec.twoPow 10 r) }, out := s.out ++ [.bytes "OPERATION" [BitVec.ofNat 8 n, if s.pwr.railOn then 0x80 else 0x00]] } := by
  rw [exec_report hseq hrail hheld, State.railOutput, if_pos rfl, hrest, railNaks_eq]
  exact ends_settled _ hset
/-- The rail has not done as commanded: its device only counts as there. -/
theorem exec_report_other : exec (.powerGoodReport rail (if s.pwr.railOn then .off else .on) v) s = .next { s with pwr := { s.pwr with pmbNaks := s.naksAfter r } } := by
  have hans : (if s.pwr.railOn then RailAnswer.off else .on) = if !s.pwr.railOn then .on else .off := by cases s.pwr.railOn <;> rfl
  have hne : (!s.pwr.railOn) ≠ s.pwr.railOn := by cases s.pwr.railOn <;> decide
  rw [hans, exec_report hseq hrail hheld, State.railOutput, if_neg hne, railNaks_eq]
  exact ends_settled _ hset
/-- The last rail is on: bring-up goes on. -/
theorem exec_report_last (hlast : rest = []) (hon : s.pwr.railOn = true) (hfree : s.bringUpFree = true) : ∃ s', exec (.powerGoodReport rail .on v) s = .next s' ∧ s'.pwr.railSeq = [] ∧
    s'.pwr.rails = s.pwr.rails ||| BitVec.twoPow 10 r ∧ 2 ≤ s'.boot.step ∧ s'.boot.step < 8 ∧ (s.svc.testMode = true → s'.boot.step = 2) := by
  obtain ⟨z, hz⟩ : ∃ z : State, z = { s with pwr := { s.pwr with railSeq := [], pmbNaks := s.naksAfter r, rails := s.pwr.rails ||| BitVec.twoPow 10 r } } := ⟨_, rfl⟩
  have hzset : z.settled = true := by rw [hz]; exact hset
  have hzfree : z.bringUpFree = true := by rw [hz]; exact hfree
  obtain ⟨s', hends, hl, -, h2, h8, ht⟩ := bringUp2_ends hzset v
  obtain ⟨⟨hrails, hseq', -⟩, -⟩ := lasting_eq_iff.mp hl
  refine ⟨s', ?_, hseq'.trans (by rw [hz]), hrails.trans (by rw [hz]), h2, h8, fun h => ht (by rw [hz]; exact h)⟩
  have hout : s.railOutput r rest true v = z.bringUp2 v := by
    rw [State.railOutput, if_pos hon.symm, hlast, railNaks_eq]
    refine (if_pos rfl).trans ?_
    dsimp only
    rw [if_pos rfl, ← hz, if_pos hzfree]
  exact (exec_report hseq hrail hheld v true).trans (by rw [hout]; exact hends)

omit hset in
theorem exec_nak : exec (.powerGoodReport rail .nak v) s = (s.railNaks r 1).ends := by
  change (s.railReport rail.val .nak v).ends = _
  simp only [State.railReport, hseq, hrail, hheld, and_self, if_true]
theorem exec_nak_none (hdev : s.railDevice r = none) : exec (.powerGoodReport rail .nak v) s = .next s := by
  rw [exec_nak hseq hrail hheld, State.railNaks, hdev]
  exact ends_settled s hset
omit hset in
theorem exec_nak_some {d : Nat} (hdev : s.railDevice r = some d) : exec (.powerGoodReport rail .nak v) s = (s.pmbusNak d 1).ends := by
  rw [exec_nak hseq hrail hheld, State.railNaks, hdev]
  rfl
/-- The third NAK in succession is a power fault. -/
theorem exec_nak_third {d : Nat} (hdev : s.railDevice r = some d) (hthird : get 0 d s.pwr.pmbNaks = 2) : ∃ s', exec (.powerGoodReport rail .nak v) s = .next s' ∧ s'.pwr.fault = true ∧
    s'.pwr.cause = (if s.pwr.cause = 0 then 4 else s.pwr.cause) ∧ s'.pwr.railSeq = s.pwr.railSeq ∧ s'.hobs = s.hobs := by
  obtain ⟨z, hz⟩ : ∃ z : State, z = { s with pwr := { s.pwr with pmbNaks := put 0 d (get 0 d s.pwr.pmbNaks + 1) s.pwr.pmbNaks } } := ⟨_, rfl⟩
  obtain ⟨s', hends, ⟨sk, hpwr⟩, hhobs⟩ := powerFault_ends (s := z) (by rw [hz]; exact hset) 4
  have hnak : s.pmbusNak d 1 = z.powerFault 4 := by
    rw [hz]
    exact if_pos (by omega)
  refine ⟨s', ?_, by rw [hpwr]; rfl, by rw [hpwr, hz]; rfl, by rw [hpwr, hz]; rfl, hhobs.trans (by rw [hz])⟩
  rw [exec_nak_some hseq hrail hheld v hdev, hnak]
  exact hends
end

theorem held_of_bringUpFree {s : State} (h : s.bringUpFree = true) : s.boot.held = 0 := by
  simp only [State.bringUpFree, Bool.and_eq_true, beq_iff_eq] at h
  exact h.1.1.1
theorem exec_report_idle {s : State} (hset : s.settled = true) {r : Nat} {rest : List Nat} (hseq : s.pwr.railSeq = r :: rest) {rail : Fin 10} (a : RailAnswer) (v : BootEnv)
    (hother : rail.val ≠ r ∨ s.boot.held ≠ 0) : exec (.powerGoodReport rail a v) s = .next s := by
  change (s.railReport rail.val a v).ends = _
  have hidle : s.railReport rail.val a v = s := by
    unfold State.railReport
    rw [hseq]
    refine if_neg fun h => ?_
    exact hother.elim (fun h1 => h1 h.1.symm) (fun h1 => h1 h.2)
  rw [hidle]
  exact ends_settled s hset
theorem exec_goodTimeout {s : State} (hset : s.settled = true) {r : Nat} {rest : List Nat} (hseq : s.pwr.railSeq = r :: rest) (hheld : s.boot.held = 0) (hon : s.pwr.railOn = true) :
    exec .powerGoodTimeout s = .next { s with out := s.out ++ [.bytes "OPERATION" [BitVec.ofNat 8 r, 0x00], .bytes "OPERATION" [BitVec.ofNat 8 r, 0x80]] } := by
  change s.railRetry.ends = _
  have hretry : s.railRetry = (s.commandRail r false).commandRail r true := by
    unfold State.railRetry
    rw [hseq]
    exact if_pos ⟨hon, hheld⟩
  have hout : (s.commandRail r false).commandRail r true = { s with out := (s.out ++ [.bytes "OPERATION" [BitVec.ofNat 8 r, 0x00]]) ++ [.bytes "OPERATION" [BitVec.ofNat 8 r, 0x80]] } := rfl
  rw [hretry, hout, List.append_assoc]
  exact ends_settled _ hset
theorem exec_report_none {s : State} (hset : s.settled = true) (hseq : s.pwr.railSeq = []) (rail : Fin 10) (a : RailAnswer) (v : BootEnv) : exec (.powerGoodReport rail a v) s = .next s := by
  change (s.railReport rail.val a v).ends = _
  rw [State.railReport, hseq]
  exact ends_settled s hset
theorem exec_goodTimeout_idle {s : State} (hset : s.settled = true) (h : s.pwr.railOn = false ∨ s.pwr.railSeq = [] ∨ s.boot.held ≠ 0) : exec .powerGoodTimeout s = .next s := by
  have hretry : s.railRetry = s := by
    unfold State.railRetry
    cases hseq : s.pwr.railSeq with
    | nil => rfl
    | cons r rest =>
      refine if_neg ?_
      rintro ⟨h1, h2⟩
      simp [h1, h2, hseq] at h
  change s.railRetry.ends = _
  rw [hretry]
  exact ends_settled s hset

/-- Settles O55: each command does what its helper above says of it. -/
theorem resetsAndBringUp : Obligations.ResetsAndBringUp := by
  unfold Obligations.ResetsAndBringUp
  refine ⟨fun s ns v hoff => ⟨fun hns => ⟨?_, fun hset hheld => exec_warmPin_noted hset hns hoff hheld, fun hheld => exec_warmPin hns hoff hheld⟩,
    fun hns hset => ⟨exec_coldPin_filtered hset hns, exec_warmPin_filtered hset hns⟩⟩, fun s v => ⟨?_, fun r hseq hon hheld rail hrail => exec_lastRailOff hseq hon hheld v hrail, ?_⟩, ?_⟩
  case refine_1 => exact ⟨_, exec_coldPin hns hoff, rfl, rfl, rfl, rfl, rfl, rfl, rfl, rfl, rfl, rfl, rfl, rfl, rfl, rfl, rfl⟩
  case refine_2 => exact ⟨_, exec_powerLoss s, rfl, rfl, rfl, rfl, rfl, rfl, rfl, rfl, rfl, rfl⟩
  case refine_3 =>
    intro hset strap jtag up seq hup hseq
    subst hup hseq
    refine ⟨fun hup hheld => coldReset_up hset (offRails_nil hup) hheld strap jtag v, fun hup hheld => warmReset_up hset (offRails_nil hup) hheld v, fun r rest hseq => ⟨fun hheld => ?_, fun hheld => ?_⟩,
      fun hheld => releases_both hset hheld strap jtag v, fun hheld => exec_coldReset_idle hset hheld strap jtag v, fun hheld => exec_warmReset_idle hset hheld v,
      fun id el hid => ⟨fun hup hnow => restart_done hid hnow (offRails_nil hup) v, fun hel hreply => restart_waits hset hid hel hreply v⟩, fun hid el => restart_none hset hid el v⟩
    · rw [hseq]
      exact coldReset_waits hset hseq hheld strap jtag v
    · rw [hseq]
      exact warmReset_waits hset hseq hheld v
  intro s v hset _
  refine ⟨fun hstep hfailed hup hmirror hf => exec_flashRetry_none hset v hstep hfailed hup hmirror hf, fun ca cb k hstep hfailed hup hread hchoose => exec_flashRetry_boots hset v hstep hfailed hup hread hchoose,
    exec_flashRetry_idle hset v, fun hstep hfailed hwait hup hpll hmirror => exec_ethWait hset hstep hfailed hwait hup hpll hmirror, exec_ethWait_idle hset,
    fun hqp hstep hfatal hrestart hpll hwf => exec_sessionRetry hset hqp hstep hfatal hrestart hpll hwf, exec_sessionRetry_idle hset, fun ns => ⟨fun hbank hns => ?_, exec_wakeN_idle hset⟩, fun hbank => ?_,
    exec_addressMatch_idle hset, fun r n rest hseq hheld rail hrail => ?_, fun r hseq rail hrail hon hfree => exec_report_last hset hseq hrail (held_of_bringUpFree hfree) v rfl hon hfree,
    fun r rest hseq hheld rail hrail => ⟨?_, exec_nak_none hset hseq hrail hheld v, fun d hdev hfew => ?_, fun d hdev hthird => exec_nak_third hset hseq hrail hheld v hdev hthird⟩,
    fun r rest hseq rail a hne => exec_report_idle hset hseq a v (.inl hne), fun r rest hseq hheld hon => exec_goodTimeout hset hseq hheld hon, fun hon => exec_goodTimeout_idle hset (.inl hon),
    fun hidle rail a => ⟨exec_goodTimeout_idle hset (.inr hidle), ?_⟩⟩
  · rw [exec_wakeN hbank hns]
    exact wake_ends s
  · rw [exec_addressMatch hbank]
    obtain ⟨s', hends, hbank', hsleep, hstep, hcause, -⟩ := wake_ends s
    exact ⟨s', hends, hbank', hsleep, hstep, hcause.trans (if_pos hbank)⟩
  · rw [exec_report_next hset hseq hrail hheld v rfl]
    cases hdev : s.railDevice r with
    | none => rw [naksAfter_none hdev]
    | some d => rw [naksAfter_some hdev]
  · rw [exec_report_other hset hseq hrail hheld v]
    cases hdev : s.railDevice r with
    | none => rw [naksAfter_none hdev]
    | some d => rw [naksAfter_some hdev]
  · rw [exec_nak_some hseq hrail hheld v hdev]
    exact (pmbusNak_ends hset d).1 hfew
  · cases hseq : s.pwr.railSeq with
    | nil => exact exec_report_none hset hseq rail a v
    | cons r rest => exact exec_report_idle hset hseq a v (.inr (hidle.resolve_left (by rw [hseq]; simp)))

end Sys2Proof.Machine
end
section
/-! What the other ranges see of a range that runs its program up to cycle S, and of a seam: the relation Apart. -/
namespace Sys2Proof.Machine

/-! ### The relation -/

/-- What a range that runs changes only through the end of a beat, and what it does not change at all. -/
def State.apartRest (s : State) : (SMap Int × Int × Bool) × Bool × List DMsg × List Packet × SMap Range := ((s.pwr.tq, s.pwr.tm, s.pwr.sleeping), s.stk.tickDue, s.boot.work, s.loopback, s.ranges)
/-- `t` comes from `a` by what the ranges outside `R` do: those of `R` stand where they stood in their programs. -/
structure Apart (R : Nat → Prop) (a t : State) : Prop where
  power : t.pwr.tq = a.pwr.tq ∧ t.pwr.tm = a.pwr.tm ∧ t.pwr.sleeping = a.pwr.sleeping
  tick : a.stk.tickDue = true → t.stk.tickDue = true
  work : a.boot.work = [] → t.boot.work = []
  noMgmt : (∀ p ∈ a.loopback, p.op ≠ opMgmt) → ∀ p ∈ t.loopback, p.op ≠ opMgmt
  ranges : SMapWf ({} : Range) a.ranges = true → SMapWf ({} : Range) t.ranges = true ∧ ∀ k, R k → (t.range k).course = (a.range k).course
/-- `Apart` for the state of a pair. -/
def ApartP {α : Type} (R : Nat → Prop) (a : State) (p : State × α) : Prop := Apart R a p.1
/-- `Apart` for a state that may be absent. -/
def ApartO (R : Nat → Prop) (a : State) : Option State → Prop
  | some t => Apart R a t
  | none => True

section
variable {R : Nat → Prop} {z s t : State}

theorem apart_refl : Apart R z z := ⟨⟨rfl, rfl, rfl⟩, id, id, id, fun h => ⟨h, fun _ _ => rfl⟩⟩
theorem Apart.trans (h : Apart R z s) (k : Apart R s t) : Apart R z t := by
  obtain ⟨h1, h2, h3⟩ := h.power
  obtain ⟨k1, k2, k3⟩ := k.power
  refine ⟨⟨k1.trans h1, k2.trans h2, k3.trans h3⟩, fun c => k.tick (h.tick c), fun c => k.work (h.work c), fun c => k.noMgmt (h.noMgmt c), fun hw => ?_⟩
  obtain ⟨hs, hr⟩ := h.ranges hw
  obtain ⟨ht, hr'⟩ := k.ranges hs
  exact ⟨ht, fun q hq => (hr' q hq).trans (hr q hq)⟩
theorem apart_weaken {R' : Nat → Prop} (h : Apart R z s) (hR : ∀ q, R' q → R q) : Apart R' z s :=
  ⟨h.power, h.tick, h.work, h.noMgmt, fun hw => ⟨(h.ranges hw).1, fun q hq => (h.ranges hw).2 q (hR q hq)⟩⟩
/-- A change of fields that the relation does not name. -/
theorem apart_of_rest (h : Apart R z s) (e : t.apartRest = s.apartRest) : Apart R z t := by
  obtain ⟨⟨htq, htm, hsleep⟩, htick, hwork, hloop, hranges⟩ : (t.pwr.tq = s.pwr.tq ∧ t.pwr.tm = s.pwr.tm ∧ t.pwr.sleeping = s.pwr.sleeping) ∧ t.stk.tickDue = s.stk.tickDue ∧
    t.boot.work = s.boot.work ∧ t.loopback = s.loopback ∧ t.ranges = s.ranges := by simpa [State.apartRest] using e
  refine h.trans ⟨⟨htq, htm, hsleep⟩, htick ▸ id, hwork ▸ id, hloop ▸ id, fun hw => ⟨hranges ▸ hw, fun k _ => ?_⟩⟩
  rw [State.range, State.range, hranges]
/-- What leaves every range where it stands in its program. -/
theorem apart_of_calm (h : Apart R z s) (k : Calm 2 True (fun _ => False) s t) : Apart R z t :=
  h.trans ⟨⟨congrArg (fun c => c.2.2.1.tq) k.core, congrArg (fun c => c.2.2.1.tm) k.core, congrArg (fun c => c.2.2.1.sleeping) k.core⟩,
    fun c => (congrArg (fun c => c.2.2.2.2.2.1.tickDue) k.core :).trans c, k.work, k.noMgmt, fun hw => ⟨(k.ranges hw).1, fun q _ => (k.ranges hw).2 q⟩⟩
theorem apartP_mk {α : Type} {x : α} (h : Apart R z t) : ApartP R z (t, x) := h
theorem apart_of_some {o : Option State} (e : o = some t) (h : ApartO R z o) : Apart R z t := by subst e; exact h
theorem apart_of_pair {α : Type} {x : α} {p : State × α} (e : p = (t, x)) (h : ApartP R z p) : Apart R z t := by subst e; exact h
theorem apart_foldl {α : Type} {f : State → α → State} {l : List α} (h : Apart R z s) (hf : ∀ t x, Apart R z t → Apart R z (f t x)) : Apart R z (l.foldl f s) := by
  induction l generalizing s with
  | nil => exact h
  | cons x r ih => exact ih (hf s x h)
theorem apartP_foldl {α β : Type} {f : State × β → α → State × β} {l : List α} {p : State × β} (h : ApartP R z p) (hf : ∀ t x, ApartP R z t → ApartP R z (f t x)) : ApartP R z (l.foldl f p) := by
  induction l generalizing p with
  | nil => exact h
  | cons x r ih => exact ih (hf p x h)
/-- A range of `R` changes but for where it stands in its program; another changes in any way. -/
theorem apart_setRange (q : Nat) (x : Range) (h : Apart R z s) (hx : R q → x.course = (s.range q).course) : Apart R z (s.setRange q x) := by
  refine ⟨h.power, h.tick, h.work, h.noMgmt, fun hw => ?_⟩
  obtain ⟨hs, hr⟩ := h.ranges hw
  refine ⟨put_wf hs, fun k hk => ?_⟩
  by_cases hkq : k = q
  · subst hkq
    rw [show (s.setRange k x).range k = x from get_put_same _ _ _ _]
    exact (hx hk).trans (hr k hk)
  · rw [show (s.setRange q x).range k = s.range k from get_put_ne _ _ _ _ _ hs hkq]
    exact hr k hk
theorem apart_setHob (h : Nat) (x : Hob) (h0 : Apart R z s) : Apart R z (s.setHob h x) := apart_of_rest h0 rfl
theorem apart_setGate (l : Nat) (x : Gate) (h0 : Apart R z s) : Apart R z (s.setGate l x) := apart_of_rest h0 rfl
theorem course_setSlot (r : Range) (loop n : Nat) (x : LoopSlot) : (r.setSlot loop n x).course = r.course := by
  unfold Range.setSlot
  split <;> rfl
/-- A step that may be left out, or one of two. -/
theorem apart_ite {c : Prop} [Decidable c] {x y : State} (hx : Apart R z x) (hy : Apart R z y) : Apart R z (if c then x else y) := by
  split
  · exact hx
  · exact hy

/-! ### What is calm, and small steps -/

theorem apart_log {code : Nat} {cls : EClass} {src : Src} {tenant : Option Nat} {args : List Nat} (h0 : Apart R z s) : Apart R z (s.log code cls src tenant args) := apart_of_calm h0 (calm_log _ _ _ _ _ _ calm_refl)
theorem apart_setStn {q : Nat} {x : Station} (h0 : Apart R z s) : Apart R z (s.setStn q x) := apart_of_calm h0 (calm_setStn _ _ _ calm_refl)
theorem apart_setEntry {e : Nat} {x : Entry} (h0 : Apart R z s) : Apart R z (s.setEntry e x) := apart_of_calm h0 (calm_setEntry _ _ _ calm_refl)
theorem apart_setSink {k : Nat} {x : Sink} (h0 : Apart R z s) : Apart R z (s.setSink k x) := apart_of_calm h0 (calm_setSink _ _ _ calm_refl)
theorem apart_clearFlags {lo n : Nat} (h0 : Apart R z s) : Apart R z (s.clearFlags lo n) := by
  unfold State.clearFlags
  extract_lets inside _ s1
  have h1 : Apart R z s1 := apart_of_rest h0 rfl
  exact apart_ite (apart_of_calm h1 (calm_noteProgress _ calm_refl)) h1
theorem apart_idleRefresh {q : Nat} (h0 : Apart R z s) : Apart R z (s.idleRefresh q) := apart_ite (apart_setStn h0) h0
theorem apart_quiet {h g : Nat} (h0 : Apart R z s) : Apart R z (s.quiet h g) := apart_ite h0 (apart_setSink h0)
end

/-! ### A range runs -/

section
variable {R : Nat → Prop} {z s : State} {q : Nat}

/-- Anything may happen to a range outside `R`. -/
theorem apart_own (hq : ¬ R q) {x : Range} (h : Apart R z s) : Apart R z (s.setRange q x) := apart_setRange q x h fun hr => absurd hr hq

/-! The effects of the hobs. -/

theorem apart_setSramLines {h : Nat} (ls : List Nat) {d : Bytes} {p : List Bool} (h0 : Apart R z s) : Apart R z (s.setSramLines h ls d p) := by
  induction ls generalizing s d p with
  | nil => exact h0
  | cons l ls ih => exact ih (apart_of_rest h0 rfl)
theorem apart_writeFx {h c : Nat} {e : HPend} (h0 : Apart R z s) : Apart R z (writeFx s h c e) := by
  unfold writeFx
  extract_lets x
  split
  · exact apart_setSramLines _ h0
  · exact apart_setRange _ _ h0 fun _ => course_setSlot ..
  case h_11 => exact h0
  all_goals exact apart_setHob _ _ h0
theorem apart_drainReads {h c : Nat} (h0 : Apart R z s) : Apart R z (drainReads s h c) := apart_setHob _ _ h0
theorem apart_drainWrites {h c : Nat} (h0 : Apart R z s) : Apart R z (drainWrites s h c) := apart_foldl (apart_setHob _ _ h0) fun _ _ ht => apart_writeFx ht

/-! The effects of the range. -/

theorem apart_fault (hq : ¬ R q) {u slot reason addr cyc : Nat} {loc : Bool} (h0 : Apart R z s) : Apart R z (s.fault q u slot reason addr cyc loc) := apart_own hq h0
theorem apart_seqFault (hq : ¬ R q) {slot reason addr cyc : Nat} (h0 : Apart R z s) : Apart R z (s.seqFault q slot reason addr cyc) := apart_fault hq h0
theorem apart_logFaults (hq : ¬ R q) {u addr cyc : Nat} {loc : Bool} (m : SMap Nat) (h0 : Apart R z s) : Apart R z (s.logFaults q u addr cyc loc m) := by
  induction m generalizing s with
  | nil => exact h0
  | cons e m ih => exact ih (apart_fault hq h0)
theorem apart_sendGate {l : Nat} {p : Packet} (h0 : Apart R z s) : Apart R z (s.sendGate l p) := apart_ite (apart_setGate _ _ h0) (apart_setGate _ _ h0)
theorem apart_playTo {c : Nat} (h0 : Apart R z s) : Apart R z (s.playTo q c) := apart_of_calm h0 (calm_playDue trivial _ _ _ calm_refl)
theorem apart_sendTap (hq : ¬ R q) {c : Nat} {e : RPend} {bits : Nat} (h0 : Apart R z s) : Apart R z (s.sendTap q c e bits) :=
  apart_ite (apart_seqFault hq h0) (apart_sendGate (apart_setGate _ _ h0))
theorem apart_moveAt (hq : ¬ R q) {e : RPend} {g : Nat} (h0 : Apart R z s) : Apart R z (s.moveAt q e g) :=
  apart_ite (apart_seqFault hq h0) (apart_ite (apart_seqFault hq h0) (apart_own hq h0))
theorem apart_groupAt (hq : ¬ R q) {e : RPend} {w : Nat} {ecc : List Nat} (h0 : Apart R z s) : Apart R z (s.groupAt q e w ecc) := by
  have hgroup : ApartO R z (s.group q e.issue w ecc) := by
    unfold State.group
    split
    · trivial
    · exact apart_own hq h0
  unfold State.groupAt
  split
  next s2 hs2 => exact apart_of_some hs2 hgroup
  next => exact apart_seqFault hq h0
theorem apart_loutTap (hq : ¬ R q) {c : Nat} {e : RPend} {loop slot : Nat} (h0 : Apart R z s) : Apart R z (s.loutTap q c e loop slot) :=
  apart_ite (apart_seqFault hq (apart_own hq h0)) (apart_own hq h0)
theorem apart_rangeFx (hq : ¬ R q) {c : Nat} {e : RPend} (h0 : Apart R z s) : Apart R z (s.rangeFx q c e) := by
  unfold State.rangeFx
  split
  · exact apart_loutTap hq h0
  · exact apart_of_calm h0 (calm_flagAdd _ _ _ _ calm_refl)
  · exact apart_groupAt hq h0
  · exact apart_own hq h0
  · exact apart_sendTap hq h0
  · exact apart_moveAt hq h0
theorem apart_drain (hq : ¬ R q) {c : Nat} (h0 : Apart R z s) : Apart R z (s.drain q c) := by
  unfold State.drain
  extract_lets r ex s0 s1 s2
  have h1 : Apart R z s1 := apart_foldl (apart_playTo (apart_own hq h0)) fun _ _ ht => apart_drainReads ht
  have h2 : Apart R z s2 := apart_foldl (apart_own hq h1) fun _ _ ht => apart_rangeFx hq ht
  exact apart_foldl h2 fun _ _ ht => apart_drainWrites ht

/-! The issue of a bundle. -/

theorem apart_startLocal (hq : ¬ R q) {c i : Nat} (h0 : Apart R z s) : Apart R z (s.startLocal q c i) :=
  apart_ite (apart_setHob _ _ h0) (apart_ite (apart_fault hq (apart_setHob _ _ h0)) (apart_logFaults hq _ (apart_setHob _ _ h0)))
theorem apart_startBroadcast (hq : ¬ R q) {c i a bits : Nat} (h0 : Apart R z s) : Apart R z (s.startBroadcast q c i a bits) := apart_logFaults hq _ (apart_setHob _ _ h0)
theorem apart_reserveTaps (hq : ¬ R q) {c i : Nat} (h0 : Apart R z s) : Apart R z (s.reserveTaps q c i) := by
  unfold State.reserveTaps
  split
  · exact apart_own hq h0
  · exact h0
theorem apart_startHobs (hq : ¬ R q) {c : Nat} (h0 : Apart R z s) : Apart R z (s.startHobs q c) := by
  unfold State.startHobs
  extract_lets r bits a s1 s2
  have h1 : Apart R z s1 := apart_foldl h0 fun t i ht =>
    apart_ite (apart_startLocal hq (apart_ite (apart_logFaults hq _ ht) ht)) (apart_ite (apart_startBroadcast hq ht) (apart_setHob _ _ ht))
  exact apart_own hq (apart_foldl h1 fun t i ht => apart_reserveTaps hq ht)
theorem apart_setNext (hq : ¬ R q) {res : CtlRes} {delay : Nat} (h0 : Apart R z s) : Apart R z (s.setNext q res delay) := by
  unfold State.setNext
  extract_lets r a r1 s1 s2 r2
  have h2 : Apart R z s2 := by
    unfold s2
    split
    · exact apart_seqFault hq (apart_own hq h0)
    · exact apart_own hq h0
  exact apart_ite (apart_own hq h2) (apart_seqFault hq (apart_own hq h2))
theorem apart_goOn (hq : ¬ R q) {delay : Nat} (h0 : Apart R z s) : Apart R z (s.goOn q delay) := apart_setNext hq h0
theorem apart_issueBundle (hq : ¬ R q) {a : Nat} (h0 : Apart R z s) : Apart R z (s.issueBundle q a) := by
  unfold State.issueBundle
  extract_lets r c b forced h g w hOk ht gf qOk swap todo r1 n _ r2 s1 s2 s3 s4 s5
  clear_value ht gf
  have h2 : Apart R z s2 := apart_ite (apart_own hq h0) (apart_seqFault hq (apart_own hq h0))
  have h3 : Apart R z s3 := by
    unfold s3
    split
    · exact apart_seqFault hq h2
    · exact h2
  have h4 : Apart R z s4 := by
    unfold s4
    split
    · exact apart_seqFault hq h3
    · exact h3
  have h5 : Apart R z s5 := apart_ite h4 (apart_seqFault hq h4)
  exact apart_ite h5 (apart_goOn hq h5)
theorem apart_issueNow (hq : ¬ R q) (h0 : Apart R z s) : Apart R z (s.issueNow q) := by
  unfold State.issueNow
  extract_lets r c s1 _ s2
  have h1 : Apart R z s1 := by
    unfold s1
    split
    · exact apart_ite (apart_issueBundle hq h0) h0
    · exact h0
  have h2 : Apart R z s2 := apart_ite (apart_own hq h1) h1
  exact apart_ite h2 (apart_startHobs hq h2)
theorem apart_openCycle (hq : ¬ R q) {c : Nat} (h0 : Apart R z s) : Apart R z (s.openCycle q c) := by
  have h1 : Apart R z (s.drain q c) := apart_drain hq h0
  unfold State.openCycle
  extract_lets
  split
  · exact apart_ite (apart_issueNow hq (apart_own hq h1)) (apart_own hq h1)
  · exact apart_own hq h1

/-! The parts of a cycle. -/

theorem apart_tickR (hq : ¬ R q) {i : Nat} (h0 : Apart R z s) : Apart R z (s.tickR q i) := apart_own hq h0
theorem apart_setQx (hq : ¬ R q) {v : Nat} (h0 : Apart R z s) : Apart R z (s.setQx q v) := apart_own hq h0
theorem apart_afterPre (hq : ¬ R q) (h0 : Apart R z s) : Apart R z (s.afterPre q) := apart_ite (apart_issueNow hq h0) h0
theorem apart_settle (hq : ¬ R q) (h0 : Apart R z s) : Apart R z (s.settle q) := by
  have h1 : Apart R z (s.doWindowEnd q) :=
    apart_ite (apart_afterPre hq (apart_foldl (apart_own hq h0) fun _ _ ht => apart_setHob _ _ ht)) h0
  exact apart_ite (apart_afterPre hq (apart_tickR hq h1)) h1
theorem apart_doLocal (hq : ¬ R q) (h0 : Apart R z s) : Apart R z (s.doLocal q) := by
  have h1 : Apart R z (s.tickR q 10) := apart_tickR hq h0
  exact apart_ite (apart_goOn hq (apart_seqFault hq h1)) (apart_ite (apart_goOn hq (apart_setQx hq h1))
    (apart_goOn hq (apart_startHobs hq (apart_foldl (apart_own hq h1) fun _ _ ht => apart_setHob _ _ ht))))
theorem apart_doQ (hq : ¬ R q) (h0 : Apart R z s) : Apart R z (s.doQ q) := by
  unfold State.doQ
  extract_lets w
  split
  · exact apart_goOn hq (apart_setQx hq (apart_tickR hq h0))
  · exact apart_goOn hq (apart_own hq h0)
  · exact apart_setNext hq (apart_tickR hq h0)
  · exact apart_setNext hq (apart_tickR hq h0)
  · exact apart_setNext hq (apart_tickR hq h0)
  · exact apart_goOn hq (apart_own hq h0)
  · exact apart_doLocal hq h0
  · exact apart_own hq h0
  · exact apart_goOn hq (apart_setQx hq (apart_tickR hq h0))
  · exact apart_tickR hq h0
theorem apart_doLseq (hq : ¬ R q) {i : Nat} (h0 : Apart R z s) : Apart R z (s.doLseq q i) := by
  unfold State.doLseq
  extract_lets h x
  split
  · exact h0
  · extract_lets ok ctr res s1 s2
    have h1 : Apart R z s1 := apart_setHob _ _ h0
    have h2 : Apart R z s2 := apart_ite h1 (apart_fault hq h1)
    split
    · exact apart_fault hq h2
    · exact h2
theorem apart_doHobOp (hq : ¬ R q) {i k : Nat} (h0 : Apart R z s) : Apart R z (s.doHobOp q i k) := by
  unfold State.doHobOp
  extract_lets h x c y
  split
  · exact h0
  · split
    case h_8 => exact apart_doLseq hq h0
    all_goals exact apart_setHob _ _ h0
theorem apart_finishHob (hq : ¬ R q) {i : Nat} (h0 : Apart R z s) : Apart R z (s.finishHob q i) := apart_setHob _ _ (apart_foldl h0 fun _ _ ht => apart_doHobOp hq ht)
theorem apart_ready (hq : ¬ R q) (h0 : Apart R z s) : Apart R z (s.ready q) := by
  have h1 : Apart R z (s.settle q) := apart_settle hq h0
  exact apart_ite (apart_doLocal hq h1) h1
theorem apart_finishCycle (hq : ¬ R q) (h0 : Apart R z s) : Apart R z (s.finishCycle q) := by
  unfold State.finishCycle
  extract_lets s1 s2 has s3 s4 s5 s6
  have h2 : Apart R z s2 := apart_foldl (apart_ready hq h0) fun _ _ ht => apart_finishHob hq ht
  clear_value s2
  have h3 : Apart R z s3 := apart_ite (apart_own hq h2) h2
  clear_value s3
  have h4 : Apart R z s4 := apart_ite (apart_own hq h3) h3
  clear_value s4
  have h5 : Apart R z s5 := apart_ite (apart_ite (apart_own hq h4) (apart_own hq h4)) h4
  clear_value s5
  have h6 : Apart R z s6 := apart_ite (apart_doQ hq h5) h5
  clear_value s6
  exact apart_ite (apart_seqFault hq (apart_own hq h6)) h6

/-! The cycles pass. -/

theorem apart_pass (hq : ¬ R q) (n : Nat) (h0 : Apart R z s) : Apart R z (s.pass q n) := by
  induction n generalizing s with
  | zero => exact h0
  | succ n ih =>
    unfold State.pass
    exact ih (apart_openCycle hq (apart_finishCycle hq h0))
theorem apart_passTo (hq : ¬ R q) {t : Nat} (h0 : Apart R z s) : Apart R z (s.passTo q t) := apart_ite (apart_own hq (apart_playTo h0)) (apart_pass hq _ h0)
/-- A range goes back to the start of a beat; an increment of STK_BEAT that is owed is another matter. -/
theorem apart_startBeat (hq : ¬ R q) {phase : Nat} (ht : q = 0 → s.stk.tickDue = false) (h0 : Apart R z s) : Apart R z (s.startBeat q phase) := by
  unfold State.startBeat
  extract_lets +onlyGivenNames s0
  have hs0 : s0 = s := if_neg fun ⟨hzero, hdue⟩ => by rw [ht hzero] at hdue; contradiction
  clear_value s0
  subst hs0
  split
  · exact h0
  · extract_lets old s1 r run _ _ r1 _ _ s2 s3 s4
    have h1 : Apart R z s1 := apart_playTo h0
    clear_value r1 s1
    have h2 : Apart R z s2 := apart_of_rest (apart_own (x := r1) hq h1) rfl
    have h3 : Apart R z s3 := apart_foldl h2 fun _ _ ht => apart_setHob _ _ ht
    have h4 : Apart R z s4 := by
      unfold s4
      exact apart_ite (apart_foldl h3 fun _ _ ht => apart_setGate _ _ ht) (apart_foldl (apart_idleRefresh h3) fun _ _ ht => apart_quiet ht)
    clear_value s4
    exact apart_ite (apart_openCycle hq h4) h4
end

end Sys2Proof.Machine
end
section
/-! A seam as the ranges see it: how a range comes to cycle S, and what each step of the seam leaves (R155, R158, R160, R404). -/
namespace Sys2Proof.Machine

/-! ### The steps of a seam that leave every range where it stands -/

section
variable {R : Nat → Prop} {z s : State}

theorem apart_setMover {q m : Nat} {v : Mover} (h0 : Apart R z s) : Apart R z (s.setMover q m v) := apart_of_calm h0 (calm_setMover _ _ _ _ calm_refl)
theorem apart_setChan {c : Nat} {x : Channel} (h0 : Apart R z s) : Apart R z (s.setChan c x) := apart_of_calm h0 (calm_setChan _ _ _ calm_refl)

/-! The selection. -/

theorem apart_consumeTerm {t : Term} (h0 : Apart R z s) : Apart R z (s.consumeTerm t) := by
  unfold State.consumeTerm
  split
  · exact apart_of_calm h0 (calm_bumpFlagP _ _ _ calm_refl)
  · exact apart_of_rest h0 rfl
  · exact h0
theorem apart_select {r e : Nat} (h0 : Apart R z s) : Apart R z (s.select r e) := apart_setRange _ _ h0 fun _ => rfl
theorem apart_takeEntry {served : List Nat} {e : Nat} (h0 : Apart R z s) : Apart R z (s.takeEntry served e) := by
  unfold State.takeEntry
  extract_lets x s0 arms s1 s2 _ s3
  have h1 : Apart R z s1 := apart_setEntry (apart_foldl h0 fun _ _ ht => apart_consumeTerm ht)
  have h2 : Apart R z s2 :=
    apart_ite (apart_of_calm h1 (calm_stampEntry _ _ calm_refl)) (apart_ite (apart_of_calm h1 (calm_beginArming _ _ calm_refl)) h1)
  have h3 : Apart R z s3 := apart_of_rest h2 rfl
  exact apart_foldl h3 fun _ _ ht => apart_ite (apart_select ht) (apart_of_rest ht rfl)
theorem apart_occupy {r t : Nat} (h0 : Apart R z s) : Apart R z (s.occupy r t) := by
  unfold State.occupy
  extract_lets s1
  have h1 : Apart R z s1 := apart_clearFlags h0
  exact apart_ite h0 (apart_of_rest h1 rfl)
theorem apart_selectionRound {sn : State} {served : List Nat} (h0 : Apart R z s) : Apart R z (s.selectionRound sn served) := by
  unfold State.selectionRound
  extract_lets fixed a s1 s2 s3
  have h1 : Apart R z s1 := apart_foldl h0 fun t r ht => by
    split
    · exact apart_of_rest (apart_select ht) rfl
    · exact ht
  have h2 : Apart R z s2 := apart_foldl h1 fun _ _ ht => apart_takeEntry ht
  have h3 : Apart R z s3 := apart_foldl h2 fun _ _ ht => apart_ite ht (apart_setChan ht)
  exact apart_foldl h3 fun _ _ ht => apart_foldl ht fun _ _ hu => apart_occupy hu

/-! The end of the beat, aborts and disables. -/

theorem apart_endBeat {r : Nat} (h0 : Apart R z s) : Apart R z (s.endBeat r) := apart_ite (apart_setRange _ _ (apart_setEntry h0) fun _ => rfl) h0
theorem apart_applyLeaving {served : List Nat} (h0 : Apart R z s) : Apart R z (s.applyLeaving served) := apart_foldl h0 fun _ _ ht => apart_ite (apart_setEntry ht) ht
theorem apart_disableLink {l : Nat} (h0 : Apart R z s) : Apart R z (s.disableLink l) := by
  unfold State.disableLink
  extract_lets g
  split
  · exact apart_of_calm (apart_setGate _ _ h0) (calm_enterDrain _ _ calm_refl id)
  · exact apart_setGate _ _ h0
  · exact apart_setGate _ _ h0
  · exact apart_of_calm (apart_setGate _ _ h0) (calm_linkDown _ _ calm_refl id)
theorem apart_releaseArea {x : Area} (h0 : Apart R z s) : Apart R z (s.releaseArea x) :=
  apart_foldl h0 fun _ _ ht => apart_ite (apart_setStn (apart_of_rest ht rfl)) (apart_of_rest ht rfl)
theorem apart_emptyEntry {e : Nat} (h0 : Apart R z s) : Apart R z (s.emptyEntry e) := by
  unfold State.emptyEntry
  extract_lets s1
  have h1 : Apart R z s1 := apart_foldl h0 fun _ _ ht => apart_releaseArea ht
  exact apart_of_rest (apart_setEntry (e := e) (x := {}) h1) rfl
theorem apart_answerWait {kind key : Nat} {r : DResult} (h0 : Apart R z s) : Apart R z (s.answerWait kind key r) := by
  unfold State.answerWait
  split
  · exact h0
  · exact h0.trans ⟨⟨rfl, rfl, rfl⟩, id, fun hw => by simp [hw], id, fun hw => ⟨hw, fun _ _ => rfl⟩⟩
theorem apart_admitRefuse {e code detail : Nat} (h0 : Apart R z s) : Apart R z (s.admitRefuse e code detail) :=
  apart_answerWait (apart_log (apart_of_rest (apart_emptyEntry h0) rfl))
theorem apart_abortTransport {t : Nat} (h0 : Apart R z s) : Apart R z (s.abortTransport t) := by
  unfold State.abortTransport
  extract_lets mine _ s1
  have h1 : Apart R z s1 := apart_of_rest h0 rfl
  split
  · exact apart_of_rest h1 rfl
  · exact h1
theorem apart_abortRange {q t : Nat} (h0 : Apart R z s) : ApartP R z (s.abortRange q t) := by
  unfold State.abortRange
  extract_lets mine _ _ s1 s2 _ _ s3
  have h1 : Apart R z s1 := by
    unfold s1
    split
    · exact apart_ite (apart_setEntry (apart_of_rest h0 rfl)) h0
    · exact h0
  have h2 : Apart R z s2 := apart_foldl h1 fun _ _ ht => apart_setMover ht
  have h3 : Apart R z s3 := apart_ite (apart_of_rest (apart_clearFlags h2) rfl) h2
  exact h3
theorem apart_abortPart {t reason : Nat} (h0 : Apart R z s) : Apart R z (s.abortPart t reason) := by
  unfold State.abortPart
  extract_lets es s0 s1 s2 s3 s4 s5
  have hs0 : Apart R z s0 := apart_ite (apart_of_rest (apart_foldl h0 fun _ _ ht => apart_setEntry ht) rfl) h0
  clear_value s0
  have h1 : Apart R z s1 := apart_foldl hs0 fun _ _ ht => apart_ite (apart_admitRefuse (apart_of_rest ht rfl)) (apart_emptyEntry ht)
  clear_value s1
  have h2 : Apart R z s2 := apart_foldl h1 fun _ _ ht => apart_releaseArea ht
  clear_value s2
  have h3 : Apart R z s3 := apart_of_rest h2 rfl
  clear_value s3
  have h4 : Apart R z s4 := apart_foldl h3 fun _ _ ht => apart_of_calm ht (calm_closeChan _ _ _ calm_refl)
  clear_value s4
  have h5 : Apart R z s5 := by
    unfold s5
    split
    · exact apart_clearFlags h4
    · exact h4
  exact apart_log (apart_abortTransport h5)
theorem apart_seamAborts {q : Nat} (h0 : Apart R z s) : ApartP R z (s.seamAborts q) := by
  unfold State.seamAborts
  extract_lets due
  split
  next s1 freed hround =>
    have h1 : Apart R z s1 := by
      refine apart_of_pair hround (apartP_foldl (apartP_mk h0) fun t a ht => ?_)
      split
      next s' f he => exact apartP_mk (apart_of_pair he (apart_abortRange ht))
    exact apartP_mk (apart_foldl (apart_of_rest h1 rfl) fun _ _ ht => apart_abortPart ht)
theorem apart_seamStep3 {q : Nat} (h0 : Apart R z s) : ApartP R z (s.seamStep3 q) := by
  unfold State.seamStep3
  extract_lets s1
  have h1 : Apart R z s1 := apart_foldl h0 fun _ _ ht => apart_ite (apart_disableLink ht) ht
  exact apart_seamAborts h1

/-! Loads, refreshes, trims, grades and stops. -/

theorem apart_seamRefresh {q : Nat} (h0 : Apart R z s) : Apart R z (s.seamRefresh q) := by
  unfold State.seamRefresh
  extract_lets x k
  refine apart_ite ?_ h0
  exact apart_setStn h0
theorem apart_seamLoads {q : Nat} (h0 : Apart R z s) : Apart R z (s.seamLoads q) :=
  apart_ite (apart_setStn (apart_foldl (apart_foldl h0 fun _ _ ht => apart_setHob _ _ ht) fun _ _ ht => apart_setGate _ _ ht)) h0
theorem apart_refreshTrims {q : Nat} {b st : Int} (h0 : Apart R z s) : Apart R z (s.refreshTrims q b st) := by
  unfold State.refreshTrims
  extract_lets c big s1
  have h1 : Apart R z s1 := apart_of_rest h0 rfl
  exact apart_ite (apart_log (apart_of_rest h1 rfl)) h1
theorem apart_decideGrade {q : Nat} (h0 : Apart R z s) : Apart R z (s.decideGrade q) := by
  unfold State.decideGrade
  split
  exact apart_of_rest h0 rfl
theorem apart_decideVoltage (h0 : Apart R z s) : Apart R z s.decideVoltage := by
  unfold State.decideVoltage
  extract_lets v _ s1 p
  have h1 : Apart R z s1 := apart_of_rest h0 rfl
  exact apart_ite (apart_of_rest h1 rfl) h1
theorem apart_decideRaise {q : Nat} (h0 : Apart R z s) : Apart R z (s.decideRaise q) := apart_ite (apart_of_rest h0 rfl) h0
theorem apart_haltQuarter {q c : Nat} (h0 : Apart R z s) : Apart R z (s.haltQuarter q c) := by
  unfold State.haltQuarter
  extract_lets _ s1 s2 s3
  have h1 : Apart R z s1 := apart_setRange _ _ h0 fun _ => rfl
  have h2 : Apart R z s2 := apart_foldl h1 fun _ _ ht => apart_setGate _ _ ht
  clear_value s2
  have h3 : Apart R z s3 := apart_of_calm h2 (calm_enterSelfref trivial _ _ calm_refl)
  clear_value s3
  exact apart_ite (apart_of_calm h3 (calm_sinksRest _ _ calm_refl)) (apart_of_rest h3 rfl)
theorem apart_seamStop {q : Nat} {cal : Bool} (h0 : Apart R z s) : Apart R z (s.seamStop q cal) := by
  unfold State.seamStop
  extract_lets bit _ grade s2
  split
  · exact apart_haltQuarter (apart_of_rest h0 rfl)
  · have h2 : Apart R z s2 := apart_of_calm (apart_haltQuarter h0) (calm_sinksTo _ _ _ calm_refl)
    clear_value s2
    exact apart_ite (apart_of_rest h2 rfl) h0

/-! The mover buffers empty. -/

theorem apart_bufLine {h i : Nat} (h0 : Apart R z s) : Apart R z (s.bufLine h i) := by
  unfold State.bufLine
  extract_lets x
  split
  · exact h0
  · extract_lets
    split
    · have h1 {n : Nat} {b : Bytes} {p : Bool} : Apart R z (s.setSramLine h n b p) := apart_of_rest h0 rfl
      exact apart_ite (apart_setHob _ _ h1) (apart_setHob _ _ h1)
    · exact apart_ite (apart_setHob _ _ h0) (apart_setHob _ _ h0)
theorem apart_bufFlush {h : Nat} (n : Nat) (h0 : Apart R z s) : Apart R z (s.bufFlush h n) := by
  induction n generalizing s with
  | zero => exact h0
  | succ n ih =>
    unfold State.bufFlush
    exact apart_ite h0 (ih (apart_bufLine h0))
end

/-! ### Cycle S -/

theorem wf_of_apart {R : Nat → Prop} {s t : State} (h : Apart R s t) (hw : SMapWf ({} : Range) s.ranges = true) : SMapWf ({} : Range) t.ranges = true := (h.ranges hw).1
theorem course_of_apart {R : Nat → Prop} {s t : State} (h : Apart R s t) (hw : SMapWf ({} : Range) s.ranges = true) {q : Nat} (hq : R q) : (t.range q).course = (s.range q).course := (h.ranges hw).2 q hq
/-- The range that comes to cycle S stands in its seam, the others where they stood, and range 0 owes an increment of STK_BEAT. -/
theorem toSeam_spec {s : State} (hw : SMapWf ({} : Range) s.ranges = true) (q : Nat) (ht : q = 0 → s.stk.tickDue = false) :
    Apart (· ≠ q) s (s.toSeam q) ∧ (∃ f, ((s.toSeam q).range q).course = (.seam, none, [], [], f)) ∧ (q = 0 → (s.toSeam q).stk.tickDue = true) := by
  unfold State.toSeam
  extract_lets s0 s1 r clr _ _ _ s2 s3
  have hq : ¬ (fun k => k ≠ q) q := fun h => h rfl
  have hs0 : Apart (· ≠ q) s s0 := by
    unfold s0
    split
    · exact apart_startBeat (R := (· ≠ q)) hq ht apart_refl
    · exact apart_refl
  have h1 : Apart (· ≠ q) s s1 := apart_passTo (R := (· ≠ q)) hq hs0
  have h2 : Apart (· ≠ q) s s2 :=
    (apart_setRange q _ h1 fun h => absurd h hq).trans ⟨⟨rfl, rfl, rfl⟩, fun h => (by rw [Bool.or_eq_true]; exact .inl h : (s1.stk.tickDue || q == 0) = true), id, id, fun hw => ⟨hw, fun _ _ => rfl⟩⟩
  have hcourse : (s2.range q).course = (.seam, none, [], [], r.fltGain) := congrArg Range.course (get_put_same ..)
  have htick : q = 0 → s2.stk.tickDue = true := fun h => (by rw [Bool.or_eq_true]; exact .inr (beq_iff_eq.mpr h) : (s1.stk.tickDue || q == 0) = true)
  clear_value s2
  have hafter (R : Nat → Prop) : Apart R s2 ((quarterSinks q).foldl (fun s k => s.sinkFull k (s.grade q)) s3) :=
    apart_foldl (apart_foldl apart_refl fun t i ht => apart_bufFlush _ ht) fun t k ht => apart_setSink ht
  exact ⟨h2.trans (hafter _), ⟨r.fltGain, (course_of_apart (hafter fun _ => True) (wf_of_apart h2 hw) trivial).trans hcourse⟩, fun h => (hafter fun _ => True).tick (htick h)⟩
/-- INSTR_FAULT of a range leaves no fault to report, and nothing else that a range sees. -/
theorem instrFaults_spec {s : State} (hw : SMapWf ({} : Range) s.ranges = true) (q : Nat) : Apart (· ≠ q) s (s.instrFaults q) ∧
    ∀ p i t e f, (s.range q).course = (p, i, t, e, f) → ((s.instrFaults q).range q).course = (p, i, t, e, 0) := by
  unfold State.instrFaults
  extract_lets r
  split
  · next h0 =>
    refine ⟨apart_refl, fun p i t e f h => ?_⟩
    have hf : f = 0 := (congrArg (fun c => c.2.2.2.2) h :).symm.trans h0
    rw [h, hf]
  · have hset : Apart (· ≠ q) s (s.setRange q { r with fltGain := 0, fltFirst := 0 }) := apart_setRange _ _ apart_refl fun h => absurd rfl h
    refine ⟨apart_log hset, fun p i t e f h => ?_⟩
    refine (course_of_apart (R := fun _ => True) (apart_log apart_refl) (wf_of_apart hset hw) trivial).trans ?_
    refine (congrArg Range.course (get_put_same ..)).trans ?_
    exact congrArg (fun c => (c.1, c.2.1, c.2.2.1, c.2.2.2.1, 0)) h
/-- The ranges that come to cycle S together all stand in their seams; they come in the order of their numbers. -/
theorem toSeams_stand (qs : List Nat) {s : State} (hw : SMapWf ({} : Range) s.ranges = true) (hsort : qs.Pairwise (· < ·)) (hdue : 0 ∈ qs → s.stk.tickDue = false) :
    Apart (· ∉ qs) s (qs.foldl (fun s q => s.toSeam q) s) ∧
      ∀ q ∈ qs, (∃ f, ((qs.foldl (fun s q => s.toSeam q) s).range q).course = (.seam, none, [], [], f)) ∧ (q = 0 → (qs.foldl (fun s q => s.toSeam q) s).stk.tickDue = true) := by
  induction qs generalizing s with
  | nil => exact ⟨apart_refl, fun q hq => absurd hq List.not_mem_nil⟩
  | cons k qs ih =>
    obtain ⟨hk, hsort⟩ := List.pairwise_cons.mp hsort
    have hkq : k ∉ qs := fun h => Nat.lt_irrefl k (hk k h)
    have hfirst : k = 0 → s.stk.tickDue = false := fun h => hdue (by simp [h])
    obtain ⟨h1, ⟨f, hf⟩, htick⟩ := toSeam_spec hw k hfirst
    have hw1 := wf_of_apart h1 hw
    obtain ⟨hrest, hstand⟩ := ih hw1 hsort fun h => absurd (hk 0 h) (Nat.not_lt_zero k)
    rw [List.foldl_cons]
    obtain ⟨u, hu⟩ : ∃ u, u = qs.foldl (fun s q => s.toSeam q) (s.toSeam k) := ⟨_, rfl⟩
    rw [← hu] at hrest hstand ⊢
    have hall : Apart (· ∉ k :: qs) s u := (apart_weaken h1 fun q hq h => hq (by simp [h])).trans (apart_weaken hrest fun q hq h => hq (by simp [h]))
    refine ⟨hall, fun q hq => ?_⟩
    rcases List.mem_cons.mp hq with rfl | hq
    · exact ⟨⟨f, (course_of_apart hrest hw1 hkq).trans hf⟩, fun h => hrest.tick (htick h)⟩
    · exact hstand q hq
/-- Their faults are reported. -/
theorem instrFaults_stand (qs : List Nat) {s : State} (hw : SMapWf ({} : Range) s.ranges = true) (hnd : qs.Nodup) (h : ∀ q ∈ qs, ∃ f, (s.range q).course = (.seam, none, [], [], f)) :
    Apart (· ∉ qs) s (qs.foldl (fun s q => s.instrFaults q) s) ∧ ∀ q ∈ qs, ((qs.foldl (fun s q => s.instrFaults q) s).range q).course = (.seam, none, [], [], 0) := by
  induction qs generalizing s with
  | nil => exact ⟨apart_refl, fun q hq => absurd hq List.not_mem_nil⟩
  | cons k qs ih =>
    obtain ⟨hkq, hnd⟩ := List.nodup_cons.mp hnd
    obtain ⟨h1, hown⟩ := instrFaults_spec hw k
    have hw1 := wf_of_apart h1 hw
    obtain ⟨hrest, hstand⟩ := ih hw1 hnd fun q hq => by
      rw [course_of_apart h1 hw (fun he => hkq (he ▸ hq))]
      exact h q (by simp [hq])
    rw [List.foldl_cons]
    obtain ⟨u, hu⟩ : ∃ u, u = qs.foldl (fun s q => s.instrFaults q) (s.instrFaults k) := ⟨_, rfl⟩
    rw [← hu] at hrest hstand ⊢
    refine ⟨(apart_weaken h1 fun q hq h => hq (by simp [h])).trans (apart_weaken hrest fun q hq h => hq (by simp [h])), fun q hq => ?_⟩
    rcases List.mem_cons.mp hq with rfl | hq
    · obtain ⟨f, hf⟩ := h q (by simp)
      exact (course_of_apart hrest hw1 hkq).trans (hown _ _ _ _ f hf)
    · exact hstand q hq

/-! ### The temperatures -/

theorem apartRest_log (s : State) (code : Nat) (cls : EClass) (src : Src) (t : Option Nat) (args : List Nat) : (s.log code cls src t args).apartRest = s.apartRest := by
  unfold State.log
  extract_lets
  split <;> rfl
/-- A temperature that is sampled changes nothing else that a range sees. -/
theorem sampleTemp_rest (s : State) (g : Nat) (t : Int) : (s.sampleTemp g t).apartRest =
    ((if g < 4 then put 0 g t s.pwr.tq else s.pwr.tq, if g < 4 then s.pwr.tm else t, s.pwr.sleeping), s.apartRest.2) := by
  unfold State.sampleTemp
  extract_lets old _ p hot s1
  have h1 : s1.apartRest = ((if g < 4 then put 0 g t s.pwr.tq else s.pwr.tq, if g < 4 then s.pwr.tm else t, s.pwr.sleeping), s.apartRest.2) := by
    by_cases hg : g < 4
    · simp only [s1, p, hg, if_true]
      rfl
    · simp only [s1, p, hg, if_false]
      rfl
  split
  · exact (apartRest_log ..).trans h1
  · exact h1

end Sys2Proof.Machine
end
section
/-! O33: the seams of aligned ranges begin together (R155, R158, R160, R404). -/
namespace Sys2Proof.Machine

/-! ### The temperatures of the quarters -/

/-- Each quarter's temperature is the one its sensors give. -/
theorem sampleTemps_rest (tq : SMap Int) (qs : List Nat) (hqs : ∀ q ∈ qs, q < 4) (s : State) : ∃ m : SMap Int,
    (qs.foldl (fun s q => s.sampleTemp q (get 0 q tq)) s).apartRest = ((m, s.pwr.tm, s.pwr.sleeping), s.apartRest.2) ∧
      (SMapWf (0 : Int) s.pwr.tq = true → SMapWf (0 : Int) m = true ∧ ∀ q, get 0 q m = if q ∈ qs then get 0 q tq else get 0 q s.pwr.tq) := by
  induction qs generalizing s with
  | nil => exact ⟨s.pwr.tq, rfl, fun hw => ⟨hw, fun q => (if_neg List.not_mem_nil).symm⟩⟩
  | cons k qs ih =>
    obtain ⟨u, hu⟩ : ∃ u, u = s.sampleTemp k (get 0 k tq) := ⟨_, rfl⟩
    have hk : k < 4 := hqs k (by simp)
    have hrest : u.apartRest = ((put 0 k (get 0 k tq) s.pwr.tq, s.pwr.tm, s.pwr.sleeping), s.apartRest.2) := by
      rw [hu, sampleTemp_rest, if_pos hk, if_pos hk]
    have hutq : u.pwr.tq = put 0 k (get 0 k tq) s.pwr.tq := congrArg (fun r => r.1.1) hrest
    have hutm : u.pwr.tm = s.pwr.tm := congrArg (fun r => r.1.2.1) hrest
    have husleep : u.pwr.sleeping = s.pwr.sleeping := congrArg (fun r => r.1.2.2) hrest
    have hu2 : u.apartRest.2 = s.apartRest.2 := (congrArg Prod.snd hrest :)
    obtain ⟨m, hm, hget⟩ := ih (fun q hq => hqs q (by simp [hq])) u
    rw [hutm, husleep, hu2] at hm
    rw [hutq] at hget
    rw [List.foldl_cons, ← hu]
    refine ⟨m, hm, fun hw => ?_⟩
    obtain ⟨hmw, hg⟩ := hget (put_wf hw)
    refine ⟨hmw, fun q => ?_⟩
    rw [hg q]
    by_cases hq : q ∈ qs
    · rw [if_pos hq, if_pos (by simp [hq])]
    · rw [if_neg hq]
      by_cases hqk : q = k
      · rw [hqk, get_put_same, if_pos (by simp)]
      · rw [get_put_ne _ _ _ _ _ hw hqk, if_neg (by simp [hq, hqk])]

/-! ### The seam -/

/-- What the ranges of a seam see once it has begun. -/
structure SeamBegun (qs : List Nat) (v : SeamEnv) (s t : State) : Prop where
  tm : t.pwr.tm = v.tm
  sleeping : t.pwr.sleeping = s.pwr.sleeping
  work : s.boot.work = [] → t.boot.work = []
  noMgmt : (∀ p ∈ s.loopback, p.op ≠ opMgmt) → ∀ p ∈ t.loopback, p.op ≠ opMgmt
  wf : SMapWf ({} : Range) t.ranges = true
  course : ∀ q ∈ qs, (t.range q).course = (.seam, none, [], [], 0)
  tq : ∀ q ∈ qs, get 0 q t.pwr.tq = get 0 q v.tq
  tick : 0 ∈ qs → t.stk.tickDue = true
/-- What the ranges do not notice leaves a seam begun. -/
theorem seamBegun_apart {qs : List Nat} {v : SeamEnv} {s t u : State} (h : SeamBegun qs v s t) (k : Apart (fun _ => True) t u) : SeamBegun qs v s u := by
  obtain ⟨htq, htm, hsleep⟩ := k.power
  exact ⟨htm.trans h.tm, hsleep.trans h.sleeping, fun hw => k.work (h.work hw), fun hl => k.noMgmt (h.noMgmt hl), wf_of_apart k h.wf,
    fun q hq => (course_of_apart k h.wf trivial).trans (h.course q hq), fun q hq => by rw [htq]; exact h.tq q hq, fun hq => k.tick (h.tick hq)⟩
/-- The temperatures are sampled in the seams of ranges that stand at cycle S. -/
theorem seamBegun_sampled {qs : List Nat} (v : SeamEnv) {s t : State} (hqs : ∀ q ∈ qs, q < 4) (h : Apart (· ∉ qs) s t) (htq : SMapWf (0 : Int) s.pwr.tq = true) (hw : SMapWf ({} : Range) t.ranges = true)
    (hstand : ∀ q ∈ qs, (t.range q).course = (.seam, none, [], [], 0)) (hdue : 0 ∈ qs → t.stk.tickDue = true) :
    SeamBegun qs v s ((qs.foldl (fun s q => s.sampleTemp q (get 0 q v.tq)) t).sampleTemp 4 v.tm) := by
  obtain ⟨hstq, -, hsleep⟩ := h.power
  obtain ⟨m, hm, hget⟩ := sampleTemps_rest v.tq qs hqs t
  obtain ⟨u, hu⟩ : ∃ u, u = qs.foldl (fun s q => s.sampleTemp q (get 0 q v.tq)) t := ⟨_, rfl⟩
  rw [← hu] at hm ⊢
  have hlast := sampleTemp_rest u 4 v.tm
  rw [if_neg (by decide), if_neg (by decide), show u.pwr.tq = m from congrArg (fun r => r.1.1) hm, show u.pwr.sleeping = t.pwr.sleeping from congrArg (fun r => r.1.2.2) hm,
    show u.apartRest.2 = t.apartRest.2 from (congrArg Prod.snd hm :)] at hlast
  obtain ⟨z, hz⟩ : ∃ z, z = u.sampleTemp 4 v.tm := ⟨_, rfl⟩
  rw [← hz] at hlast ⊢
  obtain ⟨⟨hztq, hztm, hzsleep⟩, hztick, hzwork, hzloop, hzranges⟩ : (z.pwr.tq = m ∧ z.pwr.tm = v.tm ∧ z.pwr.sleeping = t.pwr.sleeping) ∧ z.stk.tickDue = t.stk.tickDue ∧ z.boot.work = t.boot.work ∧
    z.loopback = t.loopback ∧ z.ranges = t.ranges := by simpa [State.apartRest] using hlast
  refine ⟨hztm, hzsleep.trans hsleep, fun hw => hzwork.trans (h.work hw), fun hl => by rw [hzloop]; exact h.noMgmt hl, by rw [hzranges]; exact hw, fun q hq => ?_, fun q hq => ?_,
    fun hq => hztick.trans (hdue hq)⟩
  · rw [State.range, hzranges]
    exact hstand q hq
  · rw [hztq, (hget (by rw [hstq]; exact htq)).2 q, if_pos hq]
/-- The seam up to the sampling of the temperatures, and after it. -/
theorem seamRound_begun {s : State} {qs : List Nat} (v : SeamEnv) (hw : SMapWf ({} : Range) s.ranges = true) (htq : SMapWf (0 : Int) s.pwr.tq = true) (hqs : ∀ q ∈ qs, q < 4)
    (hsort : qs.Pairwise (· < ·)) (hdue : 0 ∈ qs → s.stk.tickDue = false) : SeamBegun qs v s (s.seamRound qs v) := by
  unfold State.seamRound
  extract_lets owed s1 s2 s3
  obtain ⟨h1, hstand⟩ : Apart (· ∉ qs) s s1 ∧ ∀ q ∈ qs, (∃ f, (s1.range q).course = (.seam, none, [], [], f)) ∧ (q = 0 → s1.stk.tickDue = true) := toSeams_stand qs hw hsort hdue
  have hw1 := wf_of_apart h1 hw
  obtain ⟨h2, hstand2⟩ : Apart (· ∉ qs) s1 s2 ∧ ∀ q ∈ qs, (s2.range q).course = (.seam, none, [], [], 0) := instrFaults_stand qs hw1 (hsort.imp Nat.ne_of_lt) fun q hq => (hstand q hq).1
  have hw2 := wf_of_apart h2 hw1
  have h3 : Apart (fun _ => True) s2 s3 := apart_applyLeaving (apart_foldl apart_refl fun t q ht => apart_endBeat ht)
  clear_value s3 s2 s1
  split
  next s4 idle hround =>
    extract_lets s5 s6 s7 s8 s9 s10
    have h4 : Apart (fun _ => True) s2 s4 := by
      refine apart_of_pair hround (apartP_foldl (apartP_mk h3) fun t q ht => ?_)
      split
      next s' f he => exact apartP_mk (apart_of_pair he (apart_seamStep3 ht))
    have h5 : Apart (fun _ => True) s2 s5 := by
      unfold s5
      split
      · exact h4
      · exact apart_selectionRound h4
    clear_value s5
    have h6 : Apart (fun _ => True) s2 s6 := apart_foldl h5 fun t q ht => apart_seamLoads (apart_seamRefresh ht)
    clear_value s6
    have h7 : Apart (fun _ => True) s2 s7 := apart_foldl h6 fun t q ht => apart_refreshTrims ht
    clear_value s7
    have h8 : SeamBegun qs v s s8 := seamBegun_sampled v hqs ((h1.trans h2).trans (apart_weaken h7 fun _ _ => trivial)) htq (wf_of_apart h7 hw2)
      (fun q hq => (course_of_apart h7 hw2 trivial).trans (hstand2 q hq)) fun hq => h7.tick (h2.tick ((hstand 0 hq).2 rfl))
    clear_value s8
    have h10 : Apart (fun _ => True) s8 s10 := apart_foldl (apart_decideVoltage (apart_foldl apart_refl fun t q ht => apart_decideGrade ht)) fun t q ht => apart_decideRaise ht
    exact seamBegun_apart h8 (apart_of_rest (apart_foldl h10 fun t q ht => apart_seamStop ht) rfl)

/-! ### SEAM_START -/

/-- The ranges of a mask that run. -/
def State.runningOf (s : State) (mask : BitVec 4) : List Nat := (List.range 4).filter fun q => mask.getLsbD q && !(s.range q).halted
theorem runningOf_lt {s : State} {mask : BitVec 4} : ∀ q ∈ s.runningOf mask, q < 4 := fun _ hq => List.mem_range.mp (List.mem_filter.mp hq).1
theorem runningOf_sorted (s : State) (mask : BitVec 4) : (s.runningOf mask).Pairwise (· < ·) := List.pairwise_lt_range.filter _
/-- Ranges with the same alignment are aligned with the same ranges. -/
theorem alignedWith_of_mem {s : State} {q r : Nat} (h : r ∈ s.alignedWith q) : s.alignedWith r = s.alignedWith q := by
  have hr : get 0 r s.stk.align = get 0 q s.stk.align := by
    have hmem := (List.mem_filter.mp h).2
    rw [Bool.and_eq_true, beq_iff_eq] at hmem
    exact hmem.2
  rw [State.alignedWith, hr, ← State.alignedWith]
theorem seamStart_eq {s : State} (mask : BitVec 4) (v : SeamEnv) (hstarted : s.stk.started = true) (hdue : s.stk.tickDue = false) :
    s.seamStart mask v = if (s.runningOf mask).isEmpty || s.runningOf mask != s.alignedWith ((s.runningOf mask).headD 0) then s else s.seamRound (s.runningOf mask) v := by
  have hopen : (s.stk.started && s.stk.tickDue && mask.getLsbD 0 && !(s.range 0).halted && (s.range 0).phase == .seam) = false := by
    rw [hdue]
    simp
  rw [State.seamStart, hopen]
  simp only [Bool.false_eq_true, if_false, hstarted, Bool.not_true, Bool.false_or]
  rfl
/-- Where all ranges aligned with one of the mask's are the mask's, their seams begin. -/
theorem seamStart_begins {s : State} {mask : BitVec 4} (v : SeamEnv) (hstarted : s.stk.started = true) (hdue : s.stk.tickDue = false) {q : Nat} (hq : q ∈ s.runningOf mask)
    (hal : s.runningOf mask = s.alignedWith q) : s.seamStart mask v = s.seamRound (s.runningOf mask) v := by
  rw [seamStart_eq mask v hstarted hdue, if_neg]
  cases hqs : s.runningOf mask with
  | nil =>
    rw [hqs] at hq
    exact absurd hq List.not_mem_nil
  | cons k qs =>
    have hk : k ∈ s.alignedWith q := by
      rw [← hal, hqs]
      exact List.mem_cons_self
    simp [alignedWith_of_mem hk, ← hal, hqs]
/-- Another mask names no event of the part. -/
theorem seamStart_idle {s : State} {mask : BitVec 4} (v : SeamEnv) (hstarted : s.stk.started = true) (hdue : s.stk.tickDue = false) {q : Nat} (hq : q ∈ s.runningOf mask)
    (hal : s.runningOf mask ≠ s.alignedWith q) : s.seamStart mask v = s := by
  rw [seamStart_eq mask v hstarted hdue, if_pos]
  rw [Bool.or_eq_true, bne_iff_ne]
  refine .inr fun h => hal ?_
  have hmem : q ∈ s.alignedWith ((s.runningOf mask).headD 0) := h ▸ hq
  rw [alignedWith_of_mem hmem]
  exact h
/-- Settles O33: what the seam leaves, the end of the command leaves too. -/
theorem seamBegins : Obligations.SeamBegins := by
  intro mask v s qs hset hcanon hstarted hdue htq hqs
  have hrun : qs = s.runningOf mask := hqs
  subst hrun
  refine ⟨fun q hq hal => ?_, fun q hq hal => ?_⟩
  · obtain ⟨-, -, -, hwork, -, hdown, hloop, -⟩ := (settled_iff s).mp hset
    have hsleep : s.pwr.sleeping = false := by
      rw [State.goingDown, Bool.or_eq_false_iff] at hdown
      exact hdown.2
    have hbegun := seamRound_begun v ((canon_iff s).mp hcanon).2.2.1 htq runningOf_lt (runningOf_sorted s mask) fun _ => hdue
    obtain ⟨u, hu⟩ : ∃ u, u = s.seamRound (s.runningOf mask) v := ⟨_, rfl⟩
    rw [← hu] at hbegun
    obtain ⟨s', hends, hcalm⟩ := ends_calm (hbegun.work hwork) (hbegun.sleeping.trans hsleep) (hbegun.noMgmt (by simp [hloop]))
    have hend := seamBegun_apart hbegun (apart_of_calm apart_refl hcalm)
    refine ⟨s', ?_, hend.tm, fun k hk => ?_⟩
    · change (s.seamStart mask v).ends = _
      rw [seamStart_begins v hstarted hdue hq hal, ← hu]
      exact hends
    · obtain ⟨hphase, hiss, htodo, hpend, hgain⟩ : (s'.range k).phase = .seam ∧ (s'.range k).iss = none ∧ (s'.range k).todo = [] ∧ (s'.range k).pend = [] ∧ (s'.range k).fltGain = 0 := by
        simpa [Range.course] using hend.course k hk
      exact ⟨hphase, hiss, htodo, hpend, hgain, hend.tq k hk, fun h => hend.tick (h ▸ hk)⟩
  · change (s.seamStart mask v).ends = _
    rw [seamStart_idle v hstarted hdue hq hal]
    exact ends_settled s hset

end Sys2Proof.Machine
end
